-- ==== Sys2Proof/Word.lean ====
section
/-! DEFINITION. The byte, and maps from numbers to values, as plain data. -/
namespace Sys2Proof

/-- A byte. -/
abbrev Byte := BitVec 8

/-- A map from numbers (of a lane, a port, a table, a ring) to values: pairs in rising order of the number. A number
with no pair holds the value that the reader of the map gives for an absent one. -/
abbrev Map (α : Type) := List (Nat × α)

/-- A fraction `num / (less + 1)`: a trim or a measured value, kept exact. -/
structure Frac where
  /-- The numerator. -/
  num : Int
  /-- The denominator less one. -/
  less : Nat
deriving DecidableEq, Repr

end Sys2Proof
end

