-- ==== Sys2Proof/Syntax.lean ====
section
/-! DEFINITION. The commands of the block and their operands: one constructor for each row of the table of
operations and events. An operand is what reaches the device from outside with the event: the bytes of a frame, the
reading of an analogue measurement, the data that a host access returned, a random draw. -/
namespace Sys2Proof

/-- What a read of host memory returned (R364, R375). -/
inductive HostRead where
  /-- The bytes read. -/
  | data (bytes : List Byte)
  /-- Unsupported Request, Completer Abort or a poisoned completion. -/
  | error
  /-- A completion timeout. -/
  | timeout
deriving DecidableEq, Repr

/-- An application that a module advertises (R158): port rate and lane count it serves, whether it is for C2M, and the
lane mode of each host lane (0 for 100 Gb/s, 1 for 200 Gb/s). -/
structure App where
  rate : Nat
  lanes : Nat
  c2m : Bool
  mode : Nat
deriving DecidableEq, Repr

/-- What a module reports and advertises when it is read in low power (R156, R158, R159). -/
structure ModuleInfo where
  /-- CMIS revision major. -/
  revision : Nat
  /-- It supports 1 MHz. -/
  fast : Bool
  /-- The largest write it accepts, in bytes. -/
  maxWrite : Nat
  /-- Its applications. -/
  apps : List App
  /-- It supports host-side precoding, transmit and receive. -/
  precodeTx : Bool
  precodeRx : Bool
  /-- Its transmitter turn-on duration in ns. -/
  turnOnNs : Nat
deriving DecidableEq, Repr

/-- What a module reports after a wake: its cage, its ModuleState (1 low power, 2 powering up, 3 ready, 4 powering down, 5 fault), the
DataPathState of its 8 host lanes (1 deactivated, 4 activated), and what it advertises (R165). -/
structure ModReport where
  cage : Nat
  state : Nat
  paths : List Nat
  info : ModuleInfo
deriving DecidableEq, Repr

/-- A flag that the device read as set: bank, page, byte and the bits set (R162). -/
structure ModFlag where
  bank : Nat
  page : Nat
  byte : Nat
  bits : Nat
deriving DecidableEq, Repr

/-- The measured trims of one slice: offset in LSB, gain in %, skew in ps (Table 4.5). -/
structure Meas where
  offset : Frac
  gain : Frac
  skew : Frac
deriving DecidableEq, Repr

/-- One background measurement: the value measured for each quantity it covers, and the sensor at its start and end in
1/16 degC (R94, R100). -/
structure BgRun where
  offset : Frac
  gain : Frac
  skew : Frac
  t0 : Int
  t1 : Int
deriving DecidableEq, Repr

/-- What a lane's receiver has met since it was last looked at: the SNR, the code that the VGA loop has reached, the rate of
the incoming signal against REFCLK_OPT in 0.01 ppm, and the converter's corrected samples in blocks of 64 symbols, in 1/64
of the inner PAM4 level (R82, R85, R110, R113, Table 5.11). -/
structure LaneMeas where
  snr : BitVec 16
  vga : Nat
  freq : Int
  blocks : List (List Int)
deriving DecidableEq, Repr

/-- What the decoders found in a qualification window: consecutive alignment markers confirmed at their spacing, the
inner-code alignment confirmed at them, and the uncorrectable codewords of the 1,024 after the second marker (R115). -/
structure Qual where
  markers : Nat
  inner : Bool
  bad : Nat
deriving DecidableEq, Repr

/-- How one read of a memory word or unit differs from what was written to it (R331, Table 13.3): its region (Table 16.7; 69 the buffer
descriptor memory, 70 the control-processor memories), its word or unit index, the bits that differ (of an on-die word 0-63 the data and
64-71 the check bits; of an HBM unit byte i of the data at bits 8i and check symbol j at bits 256 + 8j), and the bits in which the address of
the word selected differs from the one intended. -/
structure Found where
  region : Nat
  unit : Nat
  flips : Nat
  slip : Nat
deriving DecidableEq, Repr

/-- A word or unit of table storage that an update writes: its region, its index, and whether the write covers it whole (R336). -/
structure Place where
  region : Nat
  unit : Nat
  whole : Bool
deriving DecidableEq, Repr

/-- Where a request to HBM comes from (Table 13.6). -/
inductive Requester where
  /-- Prefetch of egress queue cells. -/
  | egressFetch
  /-- A table lookup. -/
  | lookup
  /-- A read or write of a table update. -/
  | tableUpdate
  /-- Prefetch of ingress queue cells. -/
  | ingressFetch
  /-- A write of staged egress cells. -/
  | egressSpill
  /-- A write of staged ingress cells. -/
  | ingressSpill
  /-- A read for an epoch sent to the peer. -/
  | mirrorRead
  /-- A write of an epoch received. -/
  | mirrorWrite
  /-- A host memory diagnostic. -/
  | diagnostic
  /-- Indirect data staged in HBM. -/
  | indirectData
  /-- A scrubber. -/
  | scrubber
  /-- A read or write of a soft repair. -/
  | repair
deriving DecidableEq, Repr

/-- What a Garnet pair tunes and adapts (Table 8.1): the hybrid's balance setting, the CTLE code in 0.5 dB, the 96 taps of the echo
canceller, the 24 of each crosstalk canceller, the 32 of the FFE and the DFE's one, in the units of the part. -/
structure PairEq where
  balance : Nat
  ctle : Nat
  ec : List Int
  xtLow : List Int
  xtHigh : List Int
  ffe : List Int
  dfe : Int
deriving DecidableEq, Repr

/-- Nothing tuned or adapted: every setting and tap zero. -/
def PairEq.init : PairEq := { balance := 0, ctle := 0, ec := [], xtLow := [], xtHigh := [], ffe := [], dfe := 0 }

/-- What a Garnet pair's receiver has reached since it was last looked at: the measures of Table 8.12 in 0.1 dB, what its loops have
tuned and adapted, the echo response over 2,048 lags in 2^-15 with its features (lag in 1/8 symbol period, reflection coefficient in
2^-12), and the crosstalk response of each neighbour over 256 lags (R190, R191, R219). -/
structure PairMeas where
  snr : Int
  depth : Int
  residual : Int
  uncovered : Int
  nextLow : Int
  nextHigh : Int
  eq : PairEq
  echo : List Int
  features : List (Nat × Int)
  talkLow : List Int
  talkHigh : List Int
deriving DecidableEq, Repr

/-- The commands of the block: one constructor for each row of the table of operations and events. -/
inductive Instr where
  /-- POR_N_ASSERT (R73). Assertion of POR_N resets everything including the Bedrock domain, ends pad holds and ends RETAIN as a full reset. -/
  | porNAssert
  /-- POR_N_DEASSERT (R69). Deassertion of POR_N starts the Bedrock domain on its internal oscillator and begins counting BEDROCK_CLK edges. strap: the level of MGMT_ADDR[1:0]. -/
  | porNDeassert (strap : Nat)
  /-- BEDROCK_CLK_CHECK (R69). After 100 µs of edge counting the Bedrock domain switches to BEDROCK_CLK if it lies within ±1 % of 25 MHz. edges: the edges counted on BEDROCK_CLK in 100 us. -/
  | bedrockClkCheck (edges : Nat)
  /-- BEDROCK_CLK_LOSS (R69). A stopped or off-frequency BEDROCK_CLK makes the domain fall back to the internal oscillator until the next POR_N. -/
  | bedrockClkLoss
  /-- BEDROCK_UP (R77). The Bedrock domain completes its start and sets BEDROCK_UP, after which the management port answers. temps: the first valid readings of the sensors, TSk in 1/16 degC. -/
  | bedrockUp (temps : List (Nat × Int))
  /-- VDD_BEDROCK_LOSS (R558). Loss of VDD_BEDROCK resets the Bedrock domain with the scope of POR_N and puts powered groups in the Reset column. -/
  | vddBedrockLoss
  /-- VDD_BEDROCK_RETURN (R558). Once both group A rails have been in range for 1 ms with POR_N deasserted, the Bedrock domain starts by itself as at POR_N deassertion. -/
  | vddBedrockReturn (strap : Nat)
  /-- VDDIO_MGMT_LOSS (R44). Loss of VDDIO_MGMT unpowers its pin groups and the Bedrock domain treats PERST_N as asserted until the rail returns. -/
  | vddioMgmtLoss
  /-- PERST_N_ASSERT (R73). Assertion of PERST_N clears everything outside the Bedrock domain and aborts pending guard proposals, except in RETAIN. -/
  | perstNAssert
  /-- PERST_N_DEASSERT (R75). Deassertion of PERST_N, once group B rails are in range and BEDROCK_UP is set, starts firmware, memory initialisation and PCIe training, and wakes from RETAIN. -/
  | perstNDeassert
  /-- MEMORY_INIT_DONE (R76). Initialisation of a memory region completes and its INIT_DONE flag sets. region: as Table 16.7. -/
  | memoryInitDone (region : Nat)
  /-- FW_READY (R77). The firmware completes its start and sets FW_READY. -/
  | fwReady
  /-- HBM_TRAIN_ATTEMPT_END (R80). An HBM interface training attempt ends; a failure starts the next attempt, and a third failure leaves the region without INIT_DONE and sets DEGRADED_REDUCED. resources: the repair resources the stack reports. -/
  | hbmTrainAttemptEnd (stack : Nat) (passed : Bool) (resources : Nat)
  /-- BROWNOUT_WARNING (R63). VDD_CORE below the warning threshold freezes adaptation, defers commits and holds calibration while traffic continues. uv: the lowest VDD_CORE measured, in microvolts; ms, ps: what the receivers of lanes, and of pairs by link × 8 + pair, had reached at the freeze. -/
  | brownoutWarning (uv : Nat) (ms : List (Nat × LaneMeas)) (ps : List (Nat × PairMeas))
  /-- BROWNOUT_RECOVERY (R63). After VDD_CORE stays above recovery for t_bo_resume, adaptation resumes, deferred commits run and one BROWNOUT_WARN is posted. uv: the lowest VDD_CORE measured in the episode, in microvolts. core: the lowest VDD_CORE of the last 200 us. -/
  | brownoutRecovery (uv core : Nat)
  /-- BROWNOUT_RESET (R65). VDD_CORE below the reset threshold causes a core reset recorded as BROWNOUT_RESET. -/
  | brownoutReset (uv : Nat)
  /-- GROUP_B_RAIL_LOSS (R65). A group B rail leaving its range causes a core reset recorded as RAIL_LOSS. rail: index of Table 22.16. -/
  | groupBRailLoss (rail : Nat)
  /-- CORE_RESET_RESTART (R65). Once every group B rail has been in range for 1 ms, the device starts again as after PERST_N deassertion. -/
  | coreResetRestart
  /-- GROUP_C_RAIL_LOSS (R66). A group C rail leaving its range stops the functions it feeds and clears their ready flags. -/
  | groupCRailLoss (rail : Nat)
  /-- GROUP_C_RAIL_RETURN (R55). A group C rail coming into range starts its held functions within 1 ms, lanes with a cold start. -/
  | groupCRailReturn (rail : Nat)
  /-- VDDIO_AUX_VALID (R56). The first in-range reading of VDDIO_AUX after BEDROCK_UP starts the auxiliary DACs on their OTP setting. -/
  | vddioAuxValid
  /-- REFCLK_LOST (R72). A reference clock stopped or out of tolerance for 10 µs is declared lost and acted on per clock. clk: 0 REFCLK_OPT, 1 REFCLK_GAR, 2 REFCLK_PCIE. -/
  | refclkLost (clk : Nat)
  /-- REFCLK_RETURN (R72). A lost reference clock within tolerance for 1 ms restarts the functions it drives. -/
  | refclkReturn (clk : Nat)
  /-- PLL_UNLOCK (R71). A PLL losing lock for more than 1 µs stops its block, is logged and restarted. pll: index of Table 22.16. -/
  | pllUnlock (pll : Nat)
  /-- THERMTRIP (R48). A sensor comparator at 125 °C asserts THERMTRIP_N and puts every group except the Bedrock pins in Reset. sensor, reading: the highest reading, in 1/16 degC. -/
  | thermtrip (sensor : Nat) (reading : Int)
  /-- AVS_REQUEST (R59). The device issues an AVSBus voltage write for a new VDD_CORE set point of at most 10 mV change. mv: the set point the device chose. -/
  | avsRequest (mv : Nat)
  /-- AVS_ACK (R60). The regulator answers the write and reports the transition done, acknowledging the set point. -/
  | avsAck
  /-- AVS_TIMEOUT (R60). t_avs_ack expiry or a regulator error repeats the request, and after three attempts ends the series. -/
  | avsTimeout
  /-- AVS_RETRY (R60). No sooner than 1 s after a failed series, the device tries the request again. -/
  | avsRetry
  /-- CALIBRATION_SLOT_START (R78). A lane waiting for a free calibration slot starts its foreground calibration. m: what the lane's receiver had reached, for an acquired lane that the calibration stops. -/
  | calibrationSlotStart (m : LaneMeas)
  /-- FOREGROUND_RUN_END (R97). A foreground calibration run ends and its decision accepts, retries, rejects or retires slices, then LANE_READY sets. meas: the 68 slices in SLICE_MAP bit order; t0, t1: the sensor at start and end; own: P_own in 10^-6 LSB. -/
  | foregroundRunEnd (lane : Nat) (meas : List Meas) (t0 t1 : Int) (own : Nat)
  /-- CAL_RETRY (R97). 1.5 to 2.0 ms after a rejected foreground decision, the calibration runs once more. -/
  | calRetry (lane : Nat)
  /-- TRIM_UPDATE (R93). Every 10 ms the lane reads its sensor and applies recomputed trims at one frame boundary. reading: the cage sensor in 1/16 degC, none on a fault. -/
  | trimUpdate (lane : Nat) (reading : Option Int)
  /-- ROTATION_STEP_START (R100). A background rotation step selects an outgoing slice and an incoming spare and begins the shadow phase. -/
  | rotationStepStart (lane : Nat)
  /-- ROTATION_SHADOW_END (R100). After 2^20 shadow samples the incoming slice's skew is decided and the slice map switches at the next frame boundary. runs: the measurements of the decision, as many as R99 takes. -/
  | rotationShadowEnd (lane : Nat) (runs : List BgRun)
  /-- STANDBY_MEASUREMENT_END (R100). The outgoing slice's offset and gain measurement ends and is decided as a background measurement. -/
  | standbyMeasurementEnd (lane : Nat) (runs : List BgRun)
  /-- NOISE_MEASUREMENT (R105). Every 10 ms in loss of signal the receiver measures idle noise and reports NOISE_RMS. ptot: P_tot in 10^-6 LSB. -/
  | noiseMeasurement (lane : Nat) (ptot : Nat)
  /-- SIGNAL_PRESENT (R114). RMS input above SD_THRESH for 20 µs asserts signal present and starts a cold or warm acquisition. rms: the lowest RMS input of 20 us in uV. -/
  | signalPresent (lane rms : Nat)
  /-- CTLE_SEARCH_DONE (R116). The CTLE search ends with the best code and the attempt moves to FREQ. eyes: the vertical eye opening at the FFE input for codes 0x00 to 0x20, in AUTO. -/
  | ctleSearchDone (lane : Nat) (eyes : List Nat)
  /-- FREQ_LOCK (R116). The CDR reaches ±5 ppm and phase tracking starts in CONVERGE. freq: the incoming rate against REFCLK_OPT in 0.01 ppm. -/
  | freqLock (lane : Nat) (freq : Int)
  /-- CONVERGE_DONE (R116). Mean square error stable over 8 blocks moves the attempt to QUALIFY. mse: the mean square error of the last blocks of 2^16 symbols in 0.01 dB. -/
  | convergeDone (lane : Nat) (m : LaneMeas) (mse : List Int)
  /-- QUALIFY_PASS (R115). The attempt meets the qualification conditions, the lane becomes ACQUIRED and LANE_ACQUIRED is posted. latency: the receive latency in ps. -/
  | qualifyPass (lane : Nat) (m : LaneMeas) (q : Qual) (latency : Nat)
  /-- QUALIFY_WINDOW_END (R116). t_qual ends without qualification and the attempt expires. -/
  | qualifyWindowEnd (lane : Nat)
  /-- PHASE_BUDGET_EXPIRY (R116). An acquisition phase exceeds its budget, or the signal is absent for 1 µs, and the attempt expires. rms: the highest RMS input of the last 1 us in uV. -/
  | phaseBudgetExpiry (lane rms : Nat)
  /-- ACQ_GAP_END (R116). After t_gap in EXPIRED the lane returns to NO_SIGNAL. -/
  | acqGapEnd (lane : Nat)
  /-- AMPLITUDE_LOSS (R114). Input below SD_THRESH/2 over 32 ns moves an acquired lane to LOS_PENDING and freezes adaptation. rms: the RMS input over 32 ns in uV; m: what the receiver had reached at the freeze. -/
  | amplitudeLoss (lane rms : Nat) (m : LaneMeas)
  /-- AMPLITUDE_RETURN (R116). Input back above SD_THRESH in LOS_PENDING with no recent uncorrectable codeword returns the lane to ACQUIRED. rms: the RMS input over 32 ns in uV; bad: uncorrectable codewords among the last 64. -/
  | amplitudeReturn (lane rms bad : Nat)
  /-- LOS_PENDING_TIMEOUT (R116). 1 µs in LOS_PENDING without return enters LOS with cause AMPLITUDE. -/
  | losPendingTimeout (lane : Nat)
  /-- ALIGNMENT_LOSS (R116). Eight uncorrectable codewords or two missing markers take an acquired lane to LOS with cause ALIGNMENT. bad: consecutive uncorrectable codewords; missing: consecutive missing alignment markers. -/
  | alignmentLoss (lane bad missing : Nat) (m : LaneMeas)
  /-- LOS_HELD_TIMEOUT (R116). 60 s after LOS the held set is cleared and the lane returns to NO_SIGNAL. -/
  | losHeldTimeout (lane : Nat)
  /-- WARM_FREQ_CHECK (R116). A warm start passes its frequency check and refines the FFE. freq: the incoming rate against REFCLK_OPT in 0.01 ppm. -/
  | warmFreqCheck (lane : Nat) (freq : Int)
  /-- WARM_QUALIFY (R116). A warm start meets qualification within t_qual_warm and the lane becomes ACQUIRED. -/
  | warmQualify (lane : Nat) (m : LaneMeas) (q : Qual) (latency : Nat)
  /-- WARM_FAILED (R116). A warm step misses its budget, the held set clears and the lane starts cold. -/
  | warmFailed (lane : Nat)
  /-- X200_FALLBACK (R132). An X200 lane not acquired within t_acq of signal present switches the whole port to S200 and posts X200_FALLBACK. -/
  | x200Fallback (lane : Nat)
  /-- X200_RX_ALTERNATE (R133). On the Geode secondary a receive lane alternates between X200 and S200 attempts each t_acq. -/
  | x200RxAlternate (lane : Nat)
  /-- PORT_ALIGN_LOCK (R174). Alignment lock on every PCS lane moves the port from ALIGNING to UP and posts PORT_UP. -/
  | portAlignLock (port : Nat)
  /-- PORT_ALIGN_TIMEOUT (R174). 10 ms without lock counts ALIGN_TIMEOUT and posts PORT_ALIGN_FAIL at most once per 60 s. skew: the lane skew exceeds 180 ns. -/
  | portAlignTimeout (port : Nat) (skew : Bool)
  /-- PORT_ALIGNMENT_LOSS (R174). Alignment loss or the high symbol-error condition takes an UP port DOWN with cause PCS. hiSer: the high symbol-error condition. -/
  | portAlignmentLoss (port : Nat) (hiSer : Bool)
  /-- REMOTE_FAULT_RECEIVED (R175). A received Remote Fault sets RF, applies DOWN_EGRESS and posts PORT_REMOTE_FAULT. columns: the columns that carried Remote Fault. -/
  | remoteFaultReceived (port : Nat) (columns : Nat)
  /-- REMOTE_FAULT_CLEAR (R175). 128 consecutive columns without Remote Fault clear RF. -/
  | remoteFaultClear (port : Nat)
  /-- FEC_DEGRADE_WINDOW (R184). Each 100 ms window computes the symbol error ratio and sets or clears FEC_DEGRADED. Counts of the 100 ms window: codewords received, corrected, uncorrectable, symbols corrected, errored PCS blocks; lanes: for each lane its increases of INNER_CORRECTED, RS_SYMBOLS_CORRECTED and the 17 bins of RS_HISTOGRAM. -/
  | fecDegradeWindow (port : Nat) (total corrected uncorrectable symbols errored : Nat) (lanes : List (List Nat))
  /-- FRAME_RECEIVE (R181). A frame received on a port is classified, admitted to its ingress queue or dropped and counted. room: the free on-die cells that it takes, or the free HBM pages; bytes: the frame, destination address through FCS; forced: it ended with a forced FCS error; deskew: the delay in ps that the PCS applies to the first lane; draw: the 16-bit WRED draw; tagDraw: the 30-bit trace draw. -/
  | frameReceive (port : Nat) (bytes : List Byte) (forced : Bool) (deskew draw tagDraw : Nat) (room : List Nat)
  /-- SCHEDULER_CHOOSE (R293). The port scheduler chooses the next frame down the tree and debits the shapers. -/
  | schedulerChoose (port : Nat)
  /-- QUEUE_HEAD_DROP (R560). A frame at the head of an egress queue that must be dropped is dropped once under the first applicable reason. found: what the reads of the frame's on-die cells, its descriptor and its list entry found; linkLost: the link to the next packet lay in a word that reads uncorrectable. -/
  | queueHeadDrop (queue : Nat) (found : List Found) (linkLost : Bool)
  /-- MAC_FRAME_START (R179). The transmit MAC starts a frame whose cells have all been read and checked, applying time actions and FCS. found, linkLost: as for QUEUE_HEAD_DROP; lines: for each lane of the port, the bits of its codeword stream that carry the frame, as the standard's PCS and RS(544,514) encoder lay them out (R170). -/
  | macFrameStart (port : Nat) (found : List Found) (linkLost : Bool) (lines : List (List Bool))
  /-- NODE_READY_AGAIN (R288). A blocked node's PIR bucket reaches zero and it becomes ready again. node: its TARGET of Table 16.3. -/
  | nodeReadyAgain (node : Nat)
  /-- RAMP_STEP (R143). A transmit ramp advances one of its 64 steps, and at the end the lane transmits, is muted or stops. -/
  | rampStep (lane : Nat)
  /-- TX_OUTPUT_RELEASE (R144). 1 µs after a stopping ramp ends, the outputs return to high impedance. -/
  | txOutputRelease (lane : Nat)
  /-- MODULE_PRESENT (R157). Cc_PRS_N low for 10 ms accepts a module and the cage drives Cc_PWREN high. -/
  | modulePresent (cage : Nat)
  /-- MODULE_REMOVAL (R157). Cc_PRS_N high for 100 µs removes the module, ramps lanes down and removes power. -/
  | moduleRemoval (cage : Nat)
  /-- PRS_GLITCH (R157). A high pulse on Cc_PRS_N shorter than 100 µs is counted only. -/
  | prsGlitch (cage : Nat)
  /-- CAGE_POWER_ON_DONE (R158). 25 ms after Cc_PWREN high the cage releases Cc_RST_N and enters MGMT_INIT. -/
  | cagePowerOnDone (cage : Nat)
  /-- MODULE_LOW_PWR_REPORT (R158). The module reports ModuleLowPwr, its pages are read and MODULE_INSERTED is posted. -/
  | moduleLowPwrReport (cage : Nat) (info : ModuleInfo)
  /-- MGMT_INIT_TIMEOUT (R158). 2 s without ModuleLowPwr faults the cage with NO_RESPONSE. -/
  | mgmtInitTimeout (cage : Nat)
  /-- MODULE_READY (R158). ModuleReady moves the cage to READY and starts the data-path step of ready ports. -/
  | moduleReady (cage : Nat)
  /-- POWER_UP_TIMEOUT (R158). Without ModuleReady within the advertised duration plus 100 ms the cage faults POWER_UP. -/
  | powerUpTimeout (cage : Nat)
  /-- DP_ACTIVATED (R159). DPActivated on every host lane completes the data-path step. -/
  | dpActivated (port : Nat)
  /-- DATA_PATH_TIMEOUT (R159). The DPActivated wait runs out and the cage faults DATA_PATH. -/
  | dataPathTimeout (port : Nat)
  /-- CAGE_POLL (R162). Every CAGE_POLL the device reads module monitors and acts on flags read. readings: bytes 4-55 of CAGE_STATUS; fault: ModuleFault is among the flags. -/
  | cagePoll (cage : Nat) (readings : List Byte) (flags : List ModFlag) (fault : Bool)
  /-- MODULE_INTERRUPT (R162). Cc_INT_N asserted makes the device read the module flags within 5 ms. -/
  | moduleInterrupt (cage : Nat) (flags : List ModFlag) (fault : Bool)
  /-- I2C_TRANSFER_COMPLETE (R156). A cage I2C transfer completes and its waiting command or bring-up step continues. data: the bytes a read returned. -/
  | i2cTransferComplete (cage : Nat) (data : List Byte)
  /-- I2C_TRANSFER_FAIL (R156). A stretch, poll timeout or arbitration loss releases the bus and retries, faulting the cage at the third failure. -/
  | i2cTransferFail (cage : Nat)
  /-- PAGE_BURST_SEND (R196). At the end of a listen interval a Garnet pair sends a burst of 16 capability page frames. -/
  | pageBurstSend (link pair : Nat)
  /-- PAGE_FRAME_RECEIVE (R198). A capability page frame is received and checked, advancing step 1 and the leader choice. page: the page of a frame found by its start word, descrambled. -/
  | pageFrameReceive (link pair : Nat) (page : List Byte)
  /-- FOLLOWER_STEP2_TIMEOUT (R198). A follower waiting 1 ms for step 2a without it resumes sending bursts. -/
  | followerStep2Timeout (link pair : Nat)
  /-- TRAINING_FRAME_RECEIVE (R201). A training frame status word is received; COUNTDOWN 0 starts the next phase within 2 µs. word: its status word; rx, ec: this end's receiver and echo canceller have converged; m: what this end has reached. -/
  | trainingFrameReceive (link pair word : Nat) (rx ec : Bool) (m : PairMeas)
  /-- TRAINING_PHASE_END (R201). The transmitting end finishes a phase's fixed frame count and its end condition is checked. rx, ec: RX_READY and EC_READY that this end's frames carried over the last 255 frames; m: what this end has reached. -/
  | trainingPhaseEnd (link pair : Nat) (rx ec : Bool) (m : PairMeas)
  /-- TRAINING_PHASE_FAIL (R203). A failed condition, step-4 budget end or absent partner signal moves the pair to QUIET and counts TRAIN_FAIL. -/
  | trainingPhaseFail (link pair : Nat)
  /-- QUIET_END (R203). After 1 ms quiet the pair returns to PAGE, or after a third failure becomes FAILED. -/
  | quietEnd (link pair : Nat)
  /-- LPI_SHRINK_TEST (R208). Over LPI_WINDOW low load makes the device propose sleep for the highest-numbered ACTIVE pair. tx, rx: the bits of non-idle flit payload of each direction over LPI_WINDOW. -/
  | lpiShrinkTest (link tx rx : Nat)
  /-- LPI_GROW_TEST (R208). Load above LPI_GROW over 1 µs, or too few ACTIVE pairs, wakes the lowest-numbered sleeping pair. tx, rx: the bits of non-idle flit payload of each direction over 1 us. -/
  | lpiGrowTest (link tx rx : Nat)
  /-- SLEEP_ENTRY (R210). At the agreed flit boundary each end sends sleep markers and powers down its transmitter. -/
  | sleepEntry (link pair : Nat)
  /-- REFRESH_DUE (R211). Every LPI_REFRESH the leader wakes a sleeping pair for 128 training frames and returns it to sleep. -/
  | refreshDue (link pair : Nat)
  /-- PREAMBLE_DETECT (R213). Energy on a sleeping pair starts preamble confirmation and, when confirmed, a wake. confirmed: the preamble is confirmed, otherwise energy is detected; refresh: it opens a refresh by the leader. -/
  | preambleDetect (link pair : Nat) (confirmed refresh : Bool)
  /-- FALSE_WAKE_ABANDON (R213). A detection not confirmed within 80 ns is abandoned and counted in FALSE_WAKE. -/
  | falseWakeAbandon (link pair : Nat)
  /-- START_MARKER_RECEIVE (R214). A START marker received completes one direction of a wake, making the pair ACTIVE when both have passed. own: this end's START marker has been sent, otherwise the partner's has been received. -/
  | startMarkerReceive (link pair : Nat) (own : Bool)
  /-- WAKE_TIMEOUT (R203). 500 ns without wake completion restarts the wake, and the third failure retrains the pair. -/
  | wakeTimeout (link pair : Nat)
  /-- PAIR_LOSS (R216). Signal or alignment loss on an ACTIVE pair stops transmission and starts a retrain. -/
  | pairLoss (link pair : Nat) (alignment : Bool)
  /-- SNR_RETRAIN (R217). SNR below 18.5 dB for 10 ms retrains the pair with cause SNR. -/
  | snrRetrain (link pair : Nat)
  /-- RETRAIN_QUIET_END (R203). After 1 ms of retrain quiet, phases 3a, 3b and 4 run with RETRAIN set. -/
  | retrainQuietEnd (link pair : Nat)
  /-- STD_PAIR_ACQUIRED (R224). A standard-engine receive pair reaches signal, CDR lock and codeword alignment. -/
  | stdPairAcquired (link pair : Nat)
  /-- STD_PAIR_LOST (R224). A standard-engine receive pair loses amplitude for 1 µs or alignment. -/
  | stdPairLost (link pair : Nat)
  /-- FLIT_RECEIVE (R236). A flit is received, checked and classified in order, ahead or duplicate, and its acknowledgement applied. flit: its 256 bytes; total, corrected, uncorrectable: the codewords the pair has received since the last flit; hit: a bit of the flit lies in an uncorrectable one. -/
  | flitReceive (link pair : Nat) (flit : List Byte) (total corrected uncorrectable : Nat) (hit : Bool)
  /-- REORDER_TIMEOUT (R237). E still missing t_reorder after an ahead flit puts the receiver in NAK_WAIT. -/
  | reorderTimeout (link : Nat)
  /-- RENAK_TIMEOUT (R237). t_renak in NAK_WAIT without an in-order flit resends the NAK. -/
  | renakTimeout (link : Nat)
  /-- ACK_TIMEOUT (R238). Flit A unacknowledged for t_ack starts a replay. -/
  | ackTimeout (link : Nat)
  /-- PROTOCOL_END (R242). LINK_UP clearing ends the protocol, discarding replay buffers and partial records and losing lookups in flight. -/
  | protocolEnd (link : Nat)
  /-- PACKET_RECORD_RECEIVE (R561). A PACKET record from the FE passes header, credit and queue checks and egress admission. room: the free on-die cells that it takes, or the free HBM pages; draw: the 16-bit WRED draw; tagDraw: the 30-bit trace draw. -/
  | packetRecordReceive (link draw tagDraw : Nat) (room : List Nat)
  /-- LOOKUP_REQ_RECEIVE (R252). A lookup request is accepted into the link's input queue, or discarded for tag reuse. -/
  | lookupReqReceive (link : Nat)
  /-- CREDIT_RECEIVE (R244). A CREDIT record updates each valid pool's LIMIT unless it lies behind. -/
  | creditReceive (link : Nat)
  /-- CREDIT_ADVERTISE (R245). The device sends a CREDIT record when 16 credits are freed or 10 µs have passed. -/
  | creditAdvertise (link : Nat)
  /-- CREDIT_WATCHDOG (R246). A packet waiting CREDIT_TIMEOUT for a pool starts an episode that discards such packets. -/
  | creditWatchdog (link pool : Nat)
  /-- SLEEP_PROPOSE_RECEIVE (R247). A SLEEP_PROPOSE is answered with SLEEP_ACCEPT or SLEEP_REFUSE within 1 µs. tx, rx: the bits of non-idle flit payload of each direction over the last 1 us. -/
  | sleepProposeReceive (link tx rx : Nat)
  /-- SLEEP_ACCEPT_RECEIVE (R247). An acceptance makes the proposing end enter sleep at the next flit boundary on the pair. -/
  | sleepAcceptReceive (link : Nat)
  /-- SLEEP_REFUSE_RECEIVE (R247). A refusal ends the proposal without sleep. -/
  | sleepRefuseReceive (link : Nat)
  /-- SLEEP_PROPOSE_TIMEOUT (R247). A proposal unanswered for 4 µs is abandoned. -/
  | sleepProposeTimeout (link : Nat)
  /-- ECHO_REQ_RECEIVE (R247). An ECHO_REQ is answered with ECHO_RESP ahead of most records. -/
  | echoReqReceive (link : Nat)
  /-- ECHO_RESP_RECEIVE (R471). An ECHO_RESP gives the link round trip. -/
  | echoRespReceive (link : Nat)
  /-- OUTER_FRAME_RECEIVE (R255). A standard-engine outer frame is checked and its records are processed. frame: destination address through FCS. -/
  | outerFrameReceive (link : Nat) (frame : List Byte)
  /-- OUTER_FRAME_CLOSE (R255). An outer frame of non-packet records closes when full or after 64 ns without a ready record. -/
  | outerFrameClose (link : Nat)
  /-- INGRESS_SCHEDULE (R276). The link's ingress scheduler picks a head packet with enough credits, checks its cells and starts its record. found, linkLost: as for QUEUE_HEAD_DROP. -/
  | ingressSchedule (link : Nat) (found : List Found) (linkLost : Bool)
  /-- SPILL_WRITE (R264). Staged cells of a page are written to HBM when the page fills or 2 µs after the first cell. -/
  | spillWrite (egress : Bool) (queue : Nat)
  /-- PREFETCH_DONE (R266). Requested HBM cells of a queue arrive in the prefetch area. cells: for each cell that arrives, what its reads found. -/
  | prefetchDone (egress : Bool) (queue : Nat) (cells : List (List Found))
  /-- LOOKUP_PIPELINE_TAKE (R320). A pipeline takes a request in round robin and stamps it with the current epoch. -/
  | lookupPipelineTake
  /-- LOOKUP_COMPLETE (R313). A lookup's reads complete and its response is handed to the link layer with its status. link: 64 for a TABLE_LOOKUP, whose tag is its id; found: what its reads found; clean: an EXACT slot that holds its key read clean. -/
  | lookupComplete (link tag : Nat) (found : List Found) (clean : Bool)
  /-- EPOCH_SWITCH (R319). A commit with staged updates takes the next epoch number and switches them into effect at one instant. found: for each update switched, what the mirror's reads of its entry found. -/
  | epochSwitch (found : List (List Found))
  /-- STORAGE_FREE (R322). After the last lookup of an old version or deleted table completes, its storage is freed. -/
  | storageFree
  /-- SCRUB_STEP (R339). The scrubber reads the next word, writing back corrected or poisoned data. scrubber: 0 the on-die one, 1 + m that of stack m; flips, slip: how what it reads differs from what was written, as in Found. -/
  | scrubStep (scrubber : Nat) (flips slip : Nat)
  /-- CE_HOUR_WINDOW (R340). At each clock hour the corrected-error count of each region is compared with its limit. -/
  | ceHourWindow
  /-- SOFT_REPAIR (R342). A qualifying HBM row is repaired by soft post-package repair with its bank held up to 40 µs. free: a repair resource is left in its bank; found: what reading the row found; pages: the buffer pages with a cell in it. -/
  | softRepair (stack channel bank row : Nat) (free : Bool) (found : List Found) (pages : List Nat)
  /-- HBM_CHANNEL_RETRAIN (R345). Each second a channel retrains its interface timing in a refresh window. accepted: its result lies within the plausibility limits. -/
  | hbmChannelRetrain (stack channel : Nat) (accepted : Bool)
  /-- HBM_REQUEST_ENTER (R347). A request enters its channel queue and is stamped with its deadline. source: where it comes from; key: the requester's name for it. -/
  | hbmRequestEnter (stack channel : Nat) (source : Requester) (bank key : Nat)
  /-- HBM_REQUEST_WITHDRAW (R349). A requester withdraws a request, freeing it or counting a dead slot. -/
  | hbmRequestWithdraw (stack channel key : Nat)
  /-- SQ_TAIL_WRITE (R363). A doorbell write of SQ_TAIL makes new submission entries fetchable. -/
  | sqTailWrite (ring : Nat) (value : BitVec 32)
  /-- CQ_HEAD_WRITE (R363). A doorbell write of CQ_HEAD frees completion entries. -/
  | cqHeadWrite (ring : Nat) (value : BitVec 32)
  /-- COMMAND_FETCH (R365). The firmware fetches a submission entry, reserves a completion entry and checks it. got: what the read of the submission entry returned. -/
  | commandFetch (got : HostRead)
  /-- EVENT_DELIVER (R371). Held events are written to EVQ once it exists and has room, then EVENT_OVERFLOW if events were lost. -/
  | eventDeliver
  /-- MSIX_TIMER (R372). The oldest unsignalled entry reaching INT_TIME sends the ring's MSI-X message. -/
  | msixTimer (vector : Nat)
  /-- MSIX_UNMASK (R372). Unmasking a vector with its PBA bit set sends one message. -/
  | msixUnmask (vector : Nat)
  /-- D3HOT_ENTER (R355). Entry to D3hot stops host memory access and holds completions and events. -/
  | d3hotEnter
  /-- D0_RETURN (R355). Return to D0 writes the waiting entries in order. -/
  | d0Return
  /-- PCIE_LINK_RESET (R376). PCIe hot reset, link down or FLR clears HIF_ENABLE and performs a host-interface reset. -/
  | pcieLinkReset
  /-- HIF_ENABLE_SET (R530). Writing HIF_ENABLE from 0 to 1 starts the host interface. -/
  | hifEnableSet
  /-- HIF_ENABLE_CLEAR (R530). Writing HIF_ENABLE from 1 to 0 performs a host-interface reset. -/
  | hifEnableClear
  /-- HOST_READY (R376). With HIF_ENABLE set and no pre-reset command executing, HOST_READY sets within t_hostrdy. -/
  | hostReady
  /-- TIMED_COMMAND_DUE (R459). The clock passes a waiting command's time and it begins execution. -/
  | timedCommandDue
  /-- EVQ_HEAD_WRITE (R531). A write of EVQ_HEAD frees event entries or is discarded with EVQ_RANGE. -/
  | evqHeadWrite (value : BitVec 32)
  /-- TRACE_HEAD_WRITE (R531). A write of TRACE_HEAD frees trace records or is discarded with TRACE_RANGE. -/
  | traceHeadWrite (value : BitVec 32)
  /-- RING0_PARAM_WRITE (R528). A write of a ring pair 0 or EVQ parameter takes effect while HIF_ENABLE is 0, else is discarded with CFG_LOCKED. A write of 4 or 8 bytes that takes effect at offset. -/
  | ring0ParamWrite (offset : Nat) (len : Nat) (value : BitVec 64)
  /-- LOW_HALF_READ (R525). A 4-byte read of a 64-bit register's low half latches its high half. len: the bytes read. -/
  | lowHalfRead (bar : Nat) (offset : Nat) (len : Nat)
  /-- LOW_HALF_WRITE (R526). A 4-byte write to a 64-bit register's low half is staged until the high half is written. -/
  | lowHalfWrite (offset : Nat) (value : BitVec 32)
  /-- TIME_CAPTURE_READ (R534). A read of TIME_NSFRAC's low half captures the whole clock at one instant. wide: an 8-byte read of the whole register. -/
  | timeCaptureRead (wide : Bool)
  /-- ERROR_LOG_SLOT_READ (R537). A read of the first bytes of an error-log slot latches the rest of the slot. -/
  | errorLogSlotRead (slot : Nat) (wide : Bool)
  /-- BAR0_OFF_BLOCK_ACCESS (R357). An access to a register of an off block reads 0x0FF0_0FF0, discards writes and sets ACCESS_TO_OFF. -/
  | bar0OffBlockAccess (offset : Nat) (write : Bool)
  /-- REGISTER_WRITE (R16). A write to a BAR register without a row of its own acts by its access code, or sets BAD_ACCESS for an illegal size. -/
  | registerWrite (bar : Nat) (offset : Nat) (len : Nat) (value : BitVec 64)
  /-- NOP (R386). Has no effect and completes SUCCESS. id: the fetch number of the command in flight. -/
  | nop (id : Nat)
  /-- DEVICE_IDENTIFY (R387). Returns device identity, command set and serial number. -/
  | deviceIdentify (id : Nat)
  /-- DEVICE_STATUS (R388). Writes the device status block of ready flags, health, role and temperatures. temps: readings of sensors TSk in 1/16 degC, none for one that reports a fault. -/
  | deviceStatus (id : Nat) (temps : List (Nat × Option Int))
  /-- RING_CREATE (R389). Creates ring pair TARGET with its parameters. -/
  | ringCreate (id : Nat)
  /-- RING_DELETE (R390). Deletes a ring pair once its commands in flight complete. -/
  | ringDelete (id : Nat)
  /-- RING_RESET (R391). Returns a ring pair from ERROR to its created state. -/
  | ringReset (id : Nat)
  /-- RING_STATUS (R392). Returns a ring pair's indices, error state and group mask. -/
  | ringStatus (id : Nat)
  /-- PORT_CREATE (R394). Creates a port and its ingress queues, powers its lanes and queues their calibration. -/
  | portCreate (id : Nat)
  /-- PORT_DELETE (R395). Deletes a port, flushing its queues and power-gating its lanes after ramp down. -/
  | portDelete (id : Nat)
  /-- PORT_SET (R396). Changes a port's MAX_FRAME, DOWN_EGRESS, degrade thresholds, loopback or re-arms X200. -/
  | portSet (id : Nat)
  /-- PORT_STATUS (R397). Writes a port's state, settings and counters. -/
  | portStatus (id : Nat)
  /-- LANE_SET (R398). Stores and applies a lane's equaliser, transmit and noise settings. m: what the lane's receiver has reached. -/
  | laneSet (id : Nat) (m : LaneMeas)
  /-- LANE_STATUS (R400). Writes a lane's state, coefficients, slice map and counters. -/
  | laneStatus (id : Nat) (m : LaneMeas)
  /-- LANE_CALIBRATE (R401). Runs a foreground calibration of a lane. -/
  | laneCalibrate (id : Nat)
  /-- LANE_MUTE (R403). Mutes or unmutes a lane or a port's lanes by ramping. -/
  | laneMute (id : Nat)
  /-- LANE_DIAG (R404). Forces or releases a lane's slice map. -/
  | laneDiag (id : Nat)
  /-- GARNET_SET (R405). Sets Garnet physical and protocol settings for a link, all links, the Geode link or the device. -/
  | garnetSet (id : Nat)
  /-- GARNET_RESTART (R408). Restarts every pair of a link from OFF and resets its counters. -/
  | garnetRestart (id : Nat)
  /-- GARNET_RETRAIN (R409). Retrains one pair of a link. -/
  | garnetRetrain (id : Nat)
  /-- GARNET_STATUS (R410). Writes a link's header, pair blocks and protocol counters. ms: for each pair, what its receiver has reached; it counts for an ACTIVE pair. -/
  | garnetStatus (id : Nat) (ms : List PairMeas)
  /-- GARNET_TDR (R411). Measures a pair's echo response and reports its features. m: the echo response and the features measured. -/
  | garnetTdr (id : Nat) (m : PairMeas)
  /-- GARNET_DIAG (R412). Starts, stops or reads a PRBS test on a link. counts: for each pair, the bits compared and the bit errors since they were last taken. -/
  | garnetDiag (id : Nat) (counts : List (Prod Nat Nat))
  /-- BUFFER_SET (R418). Sets the buffer reserves, high-water mark and spill enable. -/
  | bufferSet (id : Nat)
  /-- PROFILE_SET (R418). Sets the fields of an admission profile. -/
  | profileSet (id : Nat)
  /-- WRED_SET (R418). Sets a WRED profile's weight and curves. -/
  | wredSet (id : Nat)
  /-- CLASSIFY_SET (R418). Sets a port's trust, defaults and classification map. -/
  | classifySet (id : Nat) (host : HostRead)
  /-- IQ_SET (R418). Names the admission profile of an ingress queue. -/
  | iqSet (id : Nat)
  /-- MEMORY_SET (R418). Sets the table partition, scrub periods, error limits and arbiter budgets. -/
  | memorySet (id : Nat)
  /-- BUFFER_STATUS (R419). Writes device buffer levels or a port's drop cause counters. -/
  | bufferStatus (id : Nat)
  /-- QUEUE_STATUS (R420). Writes a queue's depth, WRED average, profile and counters. -/
  | queueStatus (id : Nat)
  /-- NODE_CREATE (R422). Creates a scheduling node or egress queue with its settings. -/
  | nodeCreate (id : Nat)
  /-- NODE_DELETE (R422). Deletes a childless node, flushing a queue's packets. -/
  | nodeDelete (id : Nat)
  /-- NODE_SET (R422). Changes a node's settings or moves its subtree. -/
  | nodeSet (id : Nat)
  /-- NODE_BATCH (R423). Checks and applies up to 256 node changes at one instant. -/
  | nodeBatch (id : Nat) (host : HostRead)
  /-- NODE_STATUS (R424). Returns a node's buckets, shaping state and children. -/
  | nodeStatus (id : Nat)
  /-- TABLE_CREATE (R425). Creates a table, allocating and clearing its storage. -/
  | tableCreate (id : Nat)
  /-- TABLE_DELETE (R425). Deletes a table with no staged updates. -/
  | tableDelete (id : Nat)
  /-- TABLE_UPDATE (R426). Stages table updates under a handle, committing them under handle 0. places: for each entry, the words and units it writes; merged: what the reads of its partial writes found. -/
  | tableUpdate (id : Nat) (host : HostRead) (places : List (List Place)) (merged : List Found)
  /-- EPOCH_OPEN (R427). Allocates the lowest free epoch handle. -/
  | epochOpen (id : Nat)
  /-- EPOCH_COMMIT (R427). Commits a handle's staged updates as one epoch. -/
  | epochCommit (id : Nat)
  /-- EPOCH_ABORT (R427). Discards a handle's staged updates and frees it. -/
  | epochAbort (id : Nat)
  /-- EPOCH_STATUS (R427). Writes the current epoch number and each handle's state. -/
  | epochStatus (id : Nat)
  /-- TABLE_STATUS (R428). Writes a table's parameters and counters. -/
  | tableStatus (id : Nat)
  /-- TABLE_LOOKUP (R429). Performs a diagnostic lookup and writes the response. -/
  | tableLookup (id : Nat) (host : HostRead)
  /-- TIME_SET (R447). Sets or steps the hardware clock at one instant. -/
  | timeSet (id : Nat)
  /-- SERVO_FEED (R448). Feeds an offset to the servo, which updates the frequency. -/
  | servoFeed (id : Nat)
  /-- SERVO_SET (R449). Enables or disables the servo and sets its gains. -/
  | servoSet (id : Nat)
  /-- TIME_GET (R447). Returns the clock's three fields from one instant. -/
  | timeGet (id : Nat)
  /-- TIME_PINS (R456). Enables the PPS and SyncE pins and sets their sources and pulse width. -/
  | timePins (id : Nat)
  /-- PORT_TS_SET (R450). Sets a port's receive and transmit timestamp corrections. -/
  | portTsSet (id : Nat)
  /-- TS_CAPTURE_READ (R430). Writes the oldest unread capture records and reports losses. -/
  | tsCaptureRead (id : Nat)
  /-- TIME_STATUS (R430). Returns the servo state, PPS presence and frequency adjustment. -/
  | timeStatus (id : Nat)
  /-- POWER_STATE (R431). Moves the device between ACTIVE, QUIESCE and RETAIN. -/
  | powerState (id : Nat)
  /-- PAD_RELEASE (R432). Releases the held cage pad group to the cage blocks. mods: what each present module reports. -/
  | padRelease (id : Nat) (mods : List ModReport)
  /-- HEALTH_STATUS (R433). Returns the health state and the causes in force. -/
  | healthStatus (id : Nat)
  /-- MEM_READ (R434). Reads a range of a memory region into host memory. found: what its reads found. -/
  | memRead (id : Nat) (found : List Found)
  /-- MEM_WRITE (R434). Writes host data into a memory region under the debug unlock. found: what the reads of its partial words found. -/
  | memWrite (id : Nat) (host : HostRead) (found : List Found)
  /-- GUARD_PROPOSE (R435). Proposes a guarded item and waits for the BMC's confirmation. host: what the read of the value returned, for items 1 and 5. -/
  | guardPropose (id : Nat) (host : HostRead)
  /-- GUARD_ABORT (R436). Aborts a pending proposal with matching nonce. -/
  | guardAbort (id : Nat)
  /-- GUARD_STATUS (R436). Returns pending items and guarded items in force. -/
  | guardStatus (id : Nat)
  /-- GEODE_SET (R437). Sets SWITCH_ON_LINK_LOSS. -/
  | geodeSet (id : Nat)
  /-- GEODE_SWITCHOVER (R437). Hands the primary role to the peer. -/
  | geodeSwitchover (id : Nat)
  /-- GEODE_STATUS (R437). Returns own and peer role, peer health and last mirrored epoch. -/
  | geodeStatus (id : Nat)
  /-- SNAPSHOT (R438). Takes one counter snapshot into BAR4, optionally by DMA. -/
  | snapshot (id : Nat)
  /-- SNAPSHOT_SET (R438). Sets the snapshot DMA address and period. -/
  | snapshotSet (id : Nat)
  /-- PROFILE_SET_CTR (R517). Clears, programs and enables a profiling counter. -/
  | profileSetCtr (id : Nat)
  /-- PROFILE_READ (R517). Returns a profiling or cycle counter. -/
  | profileRead (id : Nat)
  /-- BW_SET (R518). Sets a port's bandwidth window and restarts windows. -/
  | bwSet (id : Nat)
  /-- BW_READ (R518). Returns a port's rates and peaks of the last window. -/
  | bwRead (id : Nat)
  /-- TRACE_SET (R521). Sets a port's trace rate or the trace ring. -/
  | traceSet (id : Nat)
  /-- TRACE_STATUS (R438). Returns the trace records written and lost. -/
  | traceStatus (id : Nat)
  /-- CAGE_SET (R439). Sets a cage's media mode, I2C speed and poll period. -/
  | cageSet (id : Nat)
  /-- CAGE_RESET (R439). Power-cycles a faulted cage's module and restarts bring-up. -/
  | cageReset (id : Nat)
  /-- CAGE_READ (R440). Reads module memory by bank, page and offset. -/
  | cageRead (id : Nat)
  /-- CAGE_WRITE (R440). Writes module memory by bank, page and offset. -/
  | cageWrite (id : Nat) (host : HostRead)
  /-- CAGE_STATUS (R441). Writes a cage's state, module readings and latched flags. -/
  | cageStatus (id : Nat)
  /-- CAGE_FLAG_CLEAR (R441). Empties a cage's latched flag list. -/
  | cageFlagClear (id : Nat)
  /-- AUXDAC_SET (R442). Applies a code and mode to the auxiliary DAC outputs of a mask. -/
  | auxdacSet (id : Nat)
  /-- AUXADC_SEQ (R510). Sets the ADC sequence mask, trigger source and period. -/
  | auxadcSeq (id : Nat)
  /-- AUXADC_TRIGGER (R510). Triggers an ADC sequence, latched or counted if one runs. -/
  | auxadcTrigger (id : Nat)
  /-- AUX_STATUS (R442). Writes DAC outputs, ADC codes and auxiliary counters. cool: the outputs whose drivers are below 120 degC again. -/
  | auxStatus (id : Nat) (cool : List Nat)
  /-- MGMT_STATUS_READ (R499). The BMC reads STATUS, clearing the alert causes returned. -/
  | mgmtStatusRead
  /-- MGMT_IDENTITY (R498). The BMC reads the device identity. -/
  | mgmtIdentity
  /-- MGMT_HEALTH (R498). The BMC reads health and its causes. -/
  | mgmtHealth
  /-- MGMT_TEMP (R498). The BMC reads the temperature sensors. temps: readings of sensors at that moment, none for a fault. -/
  | mgmtTemp (temps : List (Nat × Option Int))
  /-- MGMT_GUARD_PENDING (R498). The BMC reads the pending guard proposals. -/
  | mgmtGuardPending
  /-- MGMT_GUARD_VALUE (R500). The BMC reads a range of a proposed value. -/
  | mgmtGuardValue (item offset len : Nat)
  /-- GUARD_CONFIRM (R501). The BMC confirms a proposal, which is applied if nonce and digest match. pec: the PEC byte that ends the write, if there is one. -/
  | guardConfirm (item : Nat) (nonce digest : BitVec 32) (pec : Option Byte)
  /-- MGMT_GUARD_ABORT (R501). The BMC aborts a pending proposal. -/
  | mgmtGuardAbort (item : Nat) (nonce : BitVec 32) (pec : Option Byte)
  /-- MGMT_GUARD_RESULT (R501). The BMC reads the outcome of its last confirm or abort. -/
  | mgmtGuardResult
  /-- MGMT_ERROR_LOG (R537). The BMC reads one error-log entry. -/
  | mgmtErrorLog (index : Nat)
  /-- MGMT_OTP_READ (R504). The BMC reads board OTP bytes. -/
  | mgmtOtpRead (offset len : Nat)
  /-- MGMT_WAKE (R486). The BMC's wake request ends RETAIN when armed. -/
  | mgmtWake (value : Nat) (pec : Option Byte)
  /-- MGMT_AUX (R498). The BMC reads the auxiliary analogue status. cool: outputs whose driver has fallen below 120 degC since the over-temperature flag set. -/
  | mgmtAux (cool : List Nat)
  /-- ALERT_RESPONSE (R497). A read of the Alert Response Address returns the port's address while alerting. -/
  | alertResponse
  /-- SMB_CLOCK_TIMEOUT (R498). SCL held low over 25 ms makes the port release SDA and wait for START. -/
  | smbClockTimeout
  /-- GUARD_WINDOW_END (R500). t_guard ends without confirmation and the proposal completes TIMEOUT. -/
  | guardWindowEnd (item : Nat)
  /-- OTP_PROGRAM_DONE (R503). Confirmed OTP programming and verification complete. -/
  | otpProgramDone
  /-- PPS_OUT_EDGE (R456). The running clock passing a whole second drives a rising edge on enabled PPS outputs. -/
  | ppsOutEdge
  /-- PPS_OUT_PULSE_END (R456). A PPS output returns low after its pulse width. -/
  | ppsOutPulseEnd (pin : Nat)
  /-- PPS_IN_EDGE (R457). A rising edge on PPS_IN stores a capture record and counts toward presence. -/
  | ppsInEdge
  /-- PPS_IN_LOST (R457). No edge for 1.5 s makes the input lost. -/
  | ppsInLost
  /-- SERVO_FEED_TIMEOUT (R449). 8 s without a feed in TRACKING moves the servo to FREE_RUN and posts TIME_FREE_RUN. -/
  | servoFeedTimeout
  /-- SYNCE_UNSQUELCH (R458). A SyncE output leaves squelch after 10 ms of its source lane ACQUIRED. -/
  | synceUnsquelch (output : Nat)
  /-- HELLO_SEND (R468). Every 10 µs each paired device sends HELLO. -/
  | helloSend
  /-- HELLO_RECEIVE (R466). A HELLO updates the peer's role and health and resolves role clashes. -/
  | helloReceive
  /-- TIME_RECORD_SEND (R468). Every 1 ms the primary sends its clock in a TIME record. -/
  | timeRecordSend
  /-- TIME_RECORD_RECEIVE (R471). The secondary sets or steers its clock from the primary's TIME record. -/
  | timeRecordReceive
  /-- GEODE_ROUND_TRIP (R471). Every 10 ms the secondary measures the link round trip by ECHO_REQ. -/
  | geodeRoundTrip
  /-- CONFIG_RECEIVE (R470). The secondary applies a mirrored command in CONFIG_SEQ order. -/
  | configReceive
  /-- EPOCH_BEGIN_RECEIVE (R470). The secondary begins receiving a mirrored epoch. -/
  | epochBeginReceive
  /-- EPOCH_ENTRY_RECEIVE (R470). The secondary stages one mirrored epoch entry. places: the words and units that the entry is written to; merged: what the reads of its partial writes found. -/
  | epochEntryReceive (places : List Place) (merged : List Found)
  /-- EPOCH_END_RECEIVE (R470). The secondary switches a mirrored epoch under the primary's number. -/
  | epochEndReceive
  /-- HANDOVER_RECEIVE (R473). The secondary takes primary, delivers frames and clears OutputDisableTx. -/
  | handoverReceive
  /-- DARK_RECEIVE (R473). DARK from the old primary allows the new primary's ramp up. -/
  | darkReceive
  /-- GEODE_RAMP_UP_START (R473). Once DARK has arrived and the enable time has passed, the new primary ramps up. -/
  | geodeRampUpStart
  /-- TAKEN_RECEIVE (R473). TAKEN completes the switchover on the old primary. -/
  | takenReceive
  /-- GEODE_LINK_LOSS (R474). The Geode link going down demotes the primary or stops mirroring per SWITCH_ON_LINK_LOSS. -/
  | geodeLinkLoss
  /-- LINK_LOSS_TAKEOVER (R474). After t_ll of link loss the secondary takes primary and ramps up without DARK. -/
  | linkLossTakeover
  /-- QUIESCE_DRAIN_END (R478). Queues empty, or 50 ms pass with the rest flushed, and the lanes ramp down. -/
  | quiesceDrainEnd
  /-- RETAIN_ENTRY (R483). 100 µs after the RETAIN completion the device writes the directory and powers down all but the Bedrock domain. found: what reading the retained banks found, beside words known to be poisoned. -/
  | retainEntry (found : List Found)
  /-- WAKE_TIMER (R486). The armed wake timer expires and ends RETAIN. -/
  | wakeTimer
  /-- WAKE_PRESENCE_CHANGE (R486). A Cc_PRS_N level changed for 10 ms ends RETAIN when armed. -/
  | wakePresenceChange (cage : Nat)
  /-- WAKE_PPS_EDGE (R486). A PPS_IN edge ends RETAIN when armed. -/
  | wakePpsEdge
  /-- WAKE_GARNET_ACTIVITY (R486). Page bursts on a link's lowest pair for 10 µs end RETAIN when armed. -/
  | wakeGarnetActivity (link : Nat)
  /-- RETAINED_BANK_CHECK (R488). At wake each retained bank's signature is recomputed and the bank is kept or LOST. found: what reading the bank found, beside words known to be poisoned. -/
  | retainedBankCheck (bank : Nat) (found : List Found)
  /-- HW_ERROR (R338). An uncorrectable control-processor memory word sets FAILED, posts HW_ERROR and stops fetching. word: the low 32 bits of the word index in the control-processor memory. -/
  | hwError (word : BitVec 32)
  /-- ADC_PERIOD_TIMER (R510). The PERIOD timer triggers an ADC sequence. -/
  | adcPeriodTimer
  /-- ADC_SEQUENCE_END (R510). An ADC sequence completes and a latched trigger starts the next. codes: the conversions, in rising order of the channel. -/
  | adcSequenceEnd (codes : List Nat)
  /-- AUXDAC_MODE_CHANGE_END (R505). The high-impedance interval of a DAC mode change ends. -/
  | auxdacModeChangeEnd
  /-- AUX_OVER_TEMP (R507). A DAC driver above 120 °C returns to its power-up setting and begins a fault. -/
  | auxOverTemp (output : Nat)
  /-- AUXDAC_FAULT_END (R507). A driver below 110 °C for 10 ms ends its fault. -/
  | auxdacFaultEnd (output : Nat)
  /-- SNAPSHOT_PERIOD (R516). Every PERIOD a snapshot is taken and copied by DMA, or skipped. -/
  | snapshotPeriod
  /-- SNAPSHOT_COMPLETE (R513). A snapshot finishes its last block and sets SEQ_DONE and its times. -/
  | snapshotComplete
  /-- BW_WINDOW_END (R518). A port's bandwidth window ends and its rates and peaks are stored. -/
  | bwWindowEnd (portNo : Nat)
  /-- TRACE_OVERFLOW (R521). At most once per second while records are lost, the count lost is posted. -/
  | traceOverflow
  /-- VDDIO_MGMT_RETURN (R44). VDDIO_MGMT comes back into range, its pin groups leave the Unpowered column and the Bedrock domain stops treating PERST_N as asserted. -/
  | vddioMgmtReturn
  /-- GROUP_B_RAIL_RETURN (R54). The last group B rail comes into range while PERST_N is deasserted, releasing the held firmware or setting the wake start after RETAIN. -/
  | groupBRailReturn (rail : Nat)
  /-- PCIE_LINK_UP (R487). The PCIe link reaches L0 and the device releases WAKE_N. -/
  | pcieLinkUp
  /-- PCIE_CONFIG_REQUEST (R75). A PCIe configuration request is received and completed with Configuration Request Retry Status before FW_READY, or served from the configuration space after it. offset: the dword of configuration space read. -/
  | pcieConfigRequest (offset : Nat)
  /-- LOCAL_FAULT_RECEIVED (R175). A received column carrying Local Fault is counted in RX_LOCAL_FAULT. -/
  | localFaultReceived (port : Nat) (columns : Nat)
  /-- STD_LINK_LOCAL_FAULT (R255). The standard-engine receive PCS of a link receives Local Fault, LINK_UP clears and the link protocol ends. present: Local Fault is received; otherwise it is no longer received. -/
  | stdLinkLocalFault (link : Nat) (present : Bool)
  /-- TRAINING_STEP2A_START (R198). 20 µs after its last step-1 burst the leader begins transmitting step 2a training frames. -/
  | trainingStep2aStart (link pair : Nat)
  /-- FLIT_SEND (R235). At a flit boundary on an ACTIVE pair the sender sends the next flit: new DATA with the next SEQ, a replayed flit, or IDLE, with its acknowledgement header. -/
  | flitSend (link pair : Nat)
  /-- CHANNEL_SLOT (R347). In each 1 ns slot an HBM channel issues the queued request with the nearest deadline whose bank can accept it. busy: the banks that cannot accept a command in this slot. -/
  | channelSlot (stack channel : Nat) (busy : List Nat)
  /-- VOLTAGE_FAIL_WINDOW_END (R493). 60 minutes pass without a VOLTAGE_REQUEST_FAIL after an acknowledged request and health cause [15] clears. -/
  | voltageFailWindowEnd
deriving DecidableEq, Repr

end Sys2Proof
end

