-- ==== Sys2Proof/Decode.lean ====
section
/-! DEFINITION. What a word spells. The table of operations and events gives no row bits: a row is an event on a pin, a link, a bus or in host
memory, or a submission entry, whose 64 bytes the host interface reads (R361); none is a word (log 4). -/
namespace Sys2Proof

/-- The command that a word of the table's bits spells: no row has bits, so no word spells one. -/
def decodeTableWord (nbits w : Nat) : Option Instr :=
  match nbits, w with
  | _, _ => none

end Sys2Proof
end

