-- ==== Sys2Proof/Config.lean ====
section
/-! DEFINITION. What one part fixes and the spec does not state, and the free values: constants without a body, so
that no proof can see a value of them. -/
namespace Sys2Proof.Config

/-- The Device Serial Number in the part's fuses (R353, Table 22.4; log 10). -/
opaque serial : BitVec 64

/-- A byte whose value the spec leaves open, applied to the free-value counter (log 9). -/
opaque freeByte : Nat → Byte

/-- A number whose value the spec leaves open, applied to the free-value counter (log 9). -/
opaque freeNat : Nat → Nat

/-- Is a C2M preset number defined by the IEEE preset table of a lane mode (R141; log 17)? -/
opaque c2mPreset : Nat → Nat → Bool

/-- The fused transmit latency of a lane in 2^-32 ns, by lane, lane mode, media mode and TX_MASK (R450; log 10). -/
opaque txLatency : Nat → Nat → Bool → Nat → Int

/-- Is an STD_TX_PRESET number a preset that IEEE 802.3dj defines (Table 8.2; log 17)? -/
opaque stdPreset : Nat → Bool

/-- The 128-bit inner codeword of 120 information bits, as IEEE 802.3dj defines it (R123; log 140). -/
opaque innerWord : List Bool → List Bool

/-- The information bits that the standard's soft-decision inner decoder gives for the 128 reliabilities of a codeword
(R123; log 140). -/
opaque innerDecode : List Int → List Bool

/-- The bit of the lane's stream that the inner encoder takes as bit `i` of codeword `w`, in the standard's interleaving
(R123; log 140). -/
opaque innerSource : Nat → Nat → Nat

/-- The codeword and the bit of it that a line bit carries, none for a pad bit (R123; log 140). -/
opaque innerPlace : Nat → Option (Nat × Nat)

/-- The value of the pad bit at a line bit (R123; log 140). -/
opaque innerPad : Nat → Bool

/-- The taps -3 to +3, in 1/64, of a C2M preset of a lane mode, in the IEEE preset tables (R141; log 17). -/
opaque c2mTaps : Nat → Nat → List Int

/-- The two DAC samples, in 1/384 of full scale, that the raised-cosine filter of a TX_MASK gives at a FIR output of a run (Table 6.2;
log 136). -/
opaque rolledSamples : Nat → List Int → Nat → Int × Int

/-- Words of the control-processor memories, which Table 13.1 calls internal (log 155). -/
opaque cpWords : Nat

/-- Where a capability (extended or not, by its ID) lies in configuration space (log 56). -/
opaque capabilityAt : Bool → Nat → Nat

/-- The bank and row of its channel that hold an HBM unit (log 157). -/
opaque hbmRow : Nat → Nat × Nat

end Sys2Proof.Config
end

