-- ==== Sys2Proof/Machine/Bytes.lean ====
section
/-! DEFINITION. Byte order, fields of byte lists, saturating numbers, and the CRC-32C of R197. -/
namespace Sys2Proof.Machine

/-- The `k` bytes of `n` in host order, byte 0 first and least significant (R12). -/
def leBytes : Nat → Nat → List Byte
  | 0, _ => []
  | k + 1, n => BitVec.ofNat 8 n :: leBytes k (n / 256)

/-- The number that bytes in host order hold (R12). -/
def leNat : List Byte → Nat
  | [] => 0
  | b :: r => b.toNat + 256 * leNat r

/-- The number that bytes in wire order hold: byte 0 is the most significant (R12). -/
def beNat (l : List Byte) : Nat := l.foldl (fun a b => a * 256 + b.toNat) 0

/-- The `k` bytes of `n` in wire order (R12). -/
def beBytes (k n : Nat) : List Byte := (leBytes k n).reverse

/-- Bytes `off` to `off + len - 1`. -/
def slice (l : List Byte) (off len : Nat) : List Byte := (l.drop off).take len

/-- The host-order field of `len` bytes at `off`. -/
def fieldAt (l : List Byte) (off len : Nat) : Nat := leNat (slice l off len)

/-- The byte at `off`, as a number. -/
def byteAt (l : List Byte) (off : Nat) : Nat := ((l[off]?).getD 0).toNat

/-- Bit `i` of a number. -/
def bitOf (n i : Nat) : Bool := n.testBit i

/-- A truth value as a number. -/
def b2n (b : Bool) : Nat := if b then 1 else 0

/-- `n` zero bytes. -/
def zeros (n : Nat) : List Byte := List.replicate n 0

/-- Every byte is zero. -/
def allZero (l : List Byte) : Bool := l.all fun b => b == 0

/-- The list with the bytes `w` written at `off`. -/
def patch (l : List Byte) (off : Nat) (w : List Byte) : List Byte := l.take off ++ w ++ l.drop (off + w.length)

/-- A two's-complement number of `bits` bits read from its unsigned value. -/
def signed (bits n : Nat) : Int := if n < 2 ^ (bits - 1) then (n : Int) else (n : Int) - (2 : Int) ^ bits

/-- The unsigned value of `bits` bits that holds `x` in two's complement. -/
def unsigned (bits : Nat) (x : Int) : Nat := (x % ((2 : Int) ^ bits)).toNat

/-- `n` saturated at the largest value of `bits` bits. -/
def sat (bits n : Nat) : Nat := min n (2 ^ bits - 1)

/-- One bit of the CRC-32C of R197: polynomial 0x1EDC6F41, most significant bit first. -/
def crcBit (crc : BitVec 32) (b : Bool) : BitVec 32 :=
  let t := crc.msb != b
  let sh := crc <<< 1
  if t then sh ^^^ 0x1EDC6F41 else sh

/-- One byte of the CRC-32C, most significant bit first (R12, R197). -/
def crcByte (crc : BitVec 32) (b : Byte) : BitVec 32 :=
  [7, 6, 5, 4, 3, 2, 1, 0].foldl (fun c i => crcBit c (b.getLsbD i)) crc

/-- The CRC of R197 with a register preset, complemented at the end. -/
def crcFrom (preset : BitVec 32) (l : List Byte) : BitVec 32 := ~~~ (l.foldl crcByte preset)

/-- The CRC-32C of R197: preset to ones, complemented at the end. -/
def crc32c (l : List Byte) : BitVec 32 := crcFrom 0xFFFFFFFF l

/-- The big-endian field of `len` bytes at `off` (R12). -/
def wireAt (l : List Byte) (off len : Nat) : Nat := beNat (slice l off len)

end Sys2Proof.Machine
end

