-- ==== Sys2Proof/Machine/State.lean ====
section
/-! DEFINITION. The state of the device as plain data, one group for each block of the spec, the state after reset,
and the reasons a step can stop. -/
namespace Sys2Proof.Machine

/-- The reasons to fault. None: every error the spec describes is a completion status, an event, a log entry, a
counter or a dropped packet, all of them effects on the state. -/
inductive Fault where
deriving DecidableEq, Repr

/-- The reasons to refuse. -/
inductive Refusal where
  /-- Raised by Dispatch for a command that has no meaning yet: safe (no claim about it can be proved). -/
  | notModelled (mnemonic : String)
deriving DecidableEq, Repr

/-- A device counter: 48 bits and a sticky wrap bit (R383, R511) -/
structure Ctr where
  /-- The count, modulo 2^48 (15 R383, 21 R511) -/
  val : BitVec 48
  /-- Sticky: the counter has wrapped (15 R383, 21 R511) -/
  wrap : Bool
deriving DecidableEq, Repr

/-- Ctr at reset. -/
def Ctr.init : Ctr where
  val := 0
  wrap := false

/-- The completion statuses of Table 14.10 -/
inductive Status where
  | success | lateExecuted | invalidOpcode | invalidField | objectNotFound | objectExists | noResource | notReady | blockOff | busy | lateDiscarded | guardRequired | permission | hwError | dataPoisoned | timeout | calRejected | peerUnavailable | aborted
deriving DecidableEq, Repr

/-- One slot of the Bedrock error log (Table 22.20) -/
structure ErrEntry where
  /-- CODE (22 R537) -/
  code : BitVec 16
  /-- SUBJECT (22 R537) -/
  subject : BitVec 16
  /-- DETAIL (22 R537) -/
  detail : BitVec 32
  /-- TIME_US (22 R537) -/
  timeUs : BitVec 48
  /-- SEQ (22 R537) -/
  seq : BitVec 16
deriving DecidableEq, Repr

/-- ErrEntry at reset. -/
def ErrEntry.init : ErrEntry where
  code := 0
  subject := 0
  detail := 0
  timeUs := 0
  seq := 0

/-- The error log of the Bedrock domain -/
structure Elog where
  /-- LOG_TOTAL, entries written since POR_N (22 R537 Table 22.19) -/
  total : Nat
  /-- The 256 slots, a slot never written absent (22 R537) -/
  slots : Map ErrEntry
  /-- The time base at the POR_N deassertion that began the log (22 R537) -/
  epoch : Nat
deriving DecidableEq, Repr

/-- Elog at reset. -/
def Elog.init : Elog where
  total := 0
  slots := []
  epoch := 0

/-- The Bedrock domain: supplies, clocks, resets and AVSBus -/
structure Bed where
  /-- POR_N is asserted (03 R73) -/
  porAsserted : Bool
  /-- PERST_N is asserted at the pin (03 R73) -/
  perstPin : Bool
  /-- RAIL_STATUS: bit r, the rail of index r is in range (03 R52, 22 Table 22.14) -/
  railOk : BitVec 12
  /-- The domain has left its reset (03 R69) -/
  running : Bool
  /-- VDD_BEDROCK was lost and the domain waits for both group A rails (03 R558) -/
  waitGroupA : Bool
  /-- The 100 us edge count of this start has ended (03 R69) -/
  clkChecked : Bool
  /-- BEDROCK_CLK_IN_USE (03 R69, 22 Table 22.14) -/
  clkInUse : Bool
  /-- CLOCK_FALLBACK since POR_N (03 R69, 22 Table 22.14) -/
  fallback : Bool
  /-- BEDROCK_UP (03 R77) -/
  bedrockUp : Bool
  /-- Bit 0 REFCLK_OPT, 1 REFCLK_GAR, 2 REFCLK_PCIE not declared lost (03 R72, 22 Table 22.14) -/
  refOk : BitVec 3
  /-- THERMTRIP_N is asserted (02 R48) -/
  tripped : Bool
  /-- A core reset has happened and the restart is awaited (03 R65) -/
  coreReset : Bool
  /-- The start in progress follows a core reset (cause [12] clears at FW_READY) (19 R496) -/
  firstCore : Bool
  /-- SETPOINT: the acknowledged set point in mV (03 R59, 22 Table 22.15) -/
  avsSet : Nat
  /-- REQUESTED: the set point of the outstanding request (03 R60, 22 Table 22.15) -/
  avsReq : Nat
  /-- A request is outstanding (03 R60, 22 Table 22.15) -/
  avsPending : Bool
  /-- FAILED_TRIES of the request outstanding (03 R60, 22 Table 22.15) -/
  avsFails : Nat
  /-- The rail select that the transactions of the request outstanding address (03 R58, 20 Table 20.6) -/
  avsSel : Nat
  /-- The set point before the last acknowledged request (03 R61) -/
  avsPrev : Nat
  /-- When the last acknowledgement came (03 R61) -/
  avsAckAt : Option Nat
  /-- When the last request was issued (03 R59) -/
  avsReqAt : Option Nat
  /-- After a failed series: the set point to try again (03 R60) -/
  avsRetry : Option Nat
  /-- BROWNOUT_ACTIVE (03 R63, 22 Table 22.15) -/
  boActive : Bool
  /-- When the brownout episode began (03 R63) -/
  boStart : Nat
  /-- Lowest VDD_CORE of the episode in uV (03 R63) -/
  boLowUv : Nat
  /-- CLKREQ_N is asserted (03 R68) -/
  clkreq : Bool
  /-- WAKE_N is asserted (19 R487) -/
  wakeN : Bool
  /-- WAKE_SOURCE of DEVICE_STATE (22 Table 22.15) -/
  wakeSource : Nat
  /-- The cage group is held (02 R46, 22 Table 22.15) -/
  cageHeld : Bool
  /-- The Geode role setting: 0 none, 1 primary, 2 secondary (18 R464, 22 Table 22.17) -/
  geoRole : Nat
  /-- SWITCH_ON_LINK_LOSS (18 R464) -/
  geoSll : Bool
  /-- Valid sensor readings TSk in 1/16 degC, a sensor with none absent (23 R555) -/
  temp : Map Int
  /-- Sensors that report a fault (04 R93, 23 R555) -/
  tempFault : List Nat
  /-- VDDIO_AUX valid has been reached and the rail has stayed in range (03 R56) -/
  auxValid : Bool
deriving DecidableEq, Repr

/-- Bed at reset. -/
def Bed.init : Bed where
  porAsserted := true
  perstPin := true
  railOk := 0xFFF
  running := false
  waitGroupA := false
  clkChecked := false
  clkInUse := false
  fallback := false
  bedrockUp := false
  refOk := 7
  tripped := false
  coreReset := false
  firstCore := false
  avsSet := 720
  avsReq := 720
  avsPending := false
  avsFails := 0
  avsSel := 0
  avsPrev := 720
  avsAckAt := none
  avsReqAt := none
  avsRetry := none
  boActive := false
  boStart := 0
  boLowUv := 0
  clkreq := false
  wakeN := false
  wakeSource := 0
  cageHeld := false
  geoRole := 0
  geoSll := false
  temp := []
  tempFault := []
  auxValid := false

/-- The health state -/
structure Health where
  /-- Bit i is cause [8 + i] of HEALTH_STATUS (19 R493, R496) -/
  causes : BitVec 12
  /-- Times of the VOLTAGE_REQUEST_FAIL events of the last 60 min, newest first (19 R493) -/
  vfails : List Nat
  /-- A request has been acknowledged since the last VOLTAGE_REQUEST_FAIL (19 R493) -/
  vackSince : Bool
  /-- For each Garnet pair, the times of its counted retrains, newest first (08 R217) -/
  garRetr : Map (List Nat)
  /-- For each lane, the times of its calibration rejections, newest first (04 R103) -/
  calRej : Map (List Nat)
  /-- Channels that set cause [13], with their consecutive accepted retrains since (13 R345, 19 R493) -/
  hbmRetrFail : Map Nat
deriving DecidableEq, Repr

/-- Health at reset. -/
def Health.init : Health where
  causes := 0
  vfails := []
  vackSince := false
  garRetr := []
  calRej := []
  hbmRetrFail := []

/-- Board OTP and the factory fuses written in the field; kept through every reset -/
structure Otp where
  /-- Programmed bytes of board OTP, every other byte 0 (20 R504) -/
  bytes : List Host.Cell
  /-- Bytes 0x0000-0x00FF as read at the last POR_N deassertion; they take effect from then (20 R504) -/
  area : List Byte
  /-- Permanent hard repairs: stack, channel, bank, row (13 R343) -/
  hard : List (Nat × Nat × Nat × Nat)
deriving DecidableEq, Repr

/-- Otp at reset. -/
def Otp.init : Otp where
  bytes := []
  area := []
  hard := []

/-- A pending guard proposal (R500) -/
structure Proposal where
  /-- NONCE (20 R500, 16 R435) -/
  nonce : BitVec 32
  /-- The value fixed when it became pending (20 R500) -/
  value : List Byte
  /-- CRC-32C of the value (20 R500) -/
  digest : BitVec 32
  /-- Rejected confirmations so far (20 R501) -/
  rejects : Nat
  /-- When it became pending (20 R500) -/
  since : Nat
  /-- The GUARD_PROPOSE in flight that waits for it (16 R435) -/
  cmd : Nat
deriving DecidableEq, Repr

/-- Proposal at reset. -/
def Proposal.init : Proposal where
  nonce := 0
  value := []
  digest := 0
  rejects := 0
  since := 0
  cmd := 0

/-- The guard of the Bedrock domain and the guarded items in force -/
structure Guard where
  /-- Pending proposals by item 1-6 (20 R500) -/
  props : Map Proposal
  /-- GUARD_RESULT: outcome of the last confirm or abort (20 R501) -/
  result : BitVec 8
  /-- DMA_RESTRICT (14 R374, 20 R503) -/
  dmaRestrict : Bool
  /-- Windows 0-15 that differ from base 0 and size 0: base and size in bytes, size 0 unused (14 R374, 22 Table 22.18) -/
  windows : Map (Nat × Nat)
  /-- Group masks of ring pairs that differ from 0x3FFF (14 R362, 20 R503) -/
  masks : Map (BitVec 16)
  /-- PERM_GEN (22 R536) -/
  permGen : BitVec 32
  /-- BAR4_GRANTED (14 R358) -/
  bar4 : Bool
  /-- DEBUG_UNLOCK (00 R5, 20 R503) -/
  debug : Bool
  /-- OTP programmings confirmed and not done, the one in progress first: offset, data, command in flight (20 R503) -/
  otpProg : List (Nat × List Byte × Option Nat)
deriving DecidableEq, Repr

/-- Guard at reset. -/
def Guard.init : Guard where
  props := []
  result := 0
  dmaRestrict := false
  windows := []
  masks := []
  permGen := 0
  bar4 := false
  debug := false
  otpProg := []

/-- The management port -/
structure Mgmt where
  /-- 7-bit address chosen by the straps at POR_N deassertion (02 R45, 20 R497) -/
  addr : Nat
  /-- Alert causes [12:8] (20 R499) -/
  alert : BitVec 5
  /-- The bytes the last transaction returned, PEC not included (20 R498) -/
  reply : List Byte
  /-- The PEC byte that the last read returned after them (20 R498) -/
  pec : Option Byte
  /-- The last transaction was acknowledged (20 R498) -/
  ack : Bool
deriving DecidableEq, Repr

/-- Mgmt at reset. -/
def Mgmt.init : Mgmt where
  addr := 0x64
  alert := 0
  reply := []
  pec := none
  ack := true

/-- One auxiliary DAC output (R505 to R507) -/
structure Dac where
  /-- CODE in force (20 R505, R506) -/
  code : BitVec 12
  /-- MODE: 0 voltage, 1 current, 2 high-impedance (20 R505, R506) -/
  mode : Nat
  /-- The high-impedance interval of a mode change runs (20 R505) -/
  changing : Bool
  /-- Over-temperature flag (20 R507) -/
  overTemp : Bool
  /-- A fault lasts (20 R507) -/
  fault : Bool
deriving DecidableEq, Repr

/-- Dac at reset. -/
def Dac.init : Dac where
  code := 0
  mode := 2
  changing := false
  overTemp := false
  fault := false

/-- The auxiliary DACs; kept through PERST_N, core reset and RETAIN -/
structure DacBank where
  /-- Outputs AUXDACm that differ from high-impedance with code 0 (20 R506, 02 R42) -/
  outs : Map Dac
deriving DecidableEq, Repr

/-- DacBank at reset. -/
def DacBank.init : DacBank where
  outs := []

/-- Factory fuses of the part; no command changes them -/
structure Fuse where
  /-- The part's fused target of VDD_CORE in mV (03 R59) -/
  avsTarget : Nat
  /-- The temperature term: from each temperature in 1/16 degC, rising, on, so many mV (03 R59) -/
  avsTerm : List (Int × Int)
  /-- For link × 8 + pair: t0, the package delay to the ball, in 1/8 symbol period, absent is 0 (08 R219) -/
  garT0 : Map Nat
  /-- The fuse map of on-die repair: the region, bank and row each spare row stands in for (13 R341) -/
  spareRows : List (Nat × Nat × Nat)
  /-- For lane × 68 + slice: the offset, gain and skew sets at -10, +40 and +95 degC (9 values), absent is all zero (04 R93) -/
  trims : Map (List Frac)
deriving DecidableEq, Repr

/-- Fuse at reset. -/
def Fuse.init : Fuse where
  avsTarget := 720
  avsTerm := []
  garT0 := []
  spareRows := []
  trims := []

/-- Who reads a word, named by MEM_UE as the requester (R333, Table 13.5) -/
inductive Reader where
  | mac | ingress | list | lookup | update | mirror | diagnostic | scrubber | processor
deriving DecidableEq, Repr

/-- A MEM_UE that was posted (R333) -/
structure UePost where
  /-- Its region (13 R333) -/
  region : Nat
  /-- The word or unit index (13 R333) -/
  unit : Nat
  /-- When it was posted (13 R333) -/
  time : Nat
  /-- The requester (13 R333) -/
  reader : Reader
deriving DecidableEq, Repr

/-- UePost at reset. -/
def UePost.init : UePost where
  region := 0
  unit := 0
  time := 0
  reader := Reader.mac

/-- The repair lists of the Bedrock domain; kept through PERST_N, core reset and RETAIN -/
structure Repair where
  /-- Soft repair list: for entry stack × 512 + j, the channel, bank and row of a valid one (13 R342, 22 R538) -/
  soft : Map (Nat × Nat × Nat)
  /-- Hard repairs confirmed and performed at the stack's next training (13 R343) -/
  hardWait : List (Nat × Nat × Nat × Nat)
  /-- For each location, the last MEM_UE posted of it: at most one in any 24 h, whatever is reset meanwhile (13 R333) -/
  ue : List UePost
deriving DecidableEq, Repr

/-- Repair at reset. -/
def Repair.init : Repair where
  soft := []
  hardWait := []
  ue := []

/-- The device state of Table 19.1; retain means accepted and entry not begun (Table 22.15) -/
inductive DevState where
  | active | quiesce | retain
deriving DecidableEq, Repr

/-- Start-up, ready flags, device state -/
structure Boot where
  /-- PERST_N deassertion has taken effect: firmware, initialisation and PCIe training run (03 R75, R77) -/
  started : Bool
  /-- FW_READY (03 R77, 22 Table 22.5) -/
  fwReady : Bool
  /-- PCIe link training is enabled (03 R75) -/
  pcieTrain : Bool
  /-- Memory regions whose initialisation runs (03 R76) -/
  initRun : BitVec 69
  /-- INIT_DONE: bit 0 ONDIE_BUF, bit 1 + b TSRAMb, bit 65 + m HBMm (03 R76, R77, 22 Table 22.6) -/
  initDone : BitVec 69
  /-- Stacks whose interface training attempt runs (03 R80) -/
  hbmTraining : BitVec 4
  /-- Failed training attempts of each stack since FW_READY (03 R80) -/
  hbmFails : Map Nat
  /-- STATE (19 R477, 22 Table 22.15) -/
  state : DevState
  /-- A POWER_STATE command executes (22 Table 22.15) -/
  transition : Bool
  /-- A control-processor memory error has stopped the firmware (13 R338) -/
  cpFailed : Bool
  /-- When the POWER_STATE to QUIESCE began (19 R478) -/
  quiesceSince : Nat
  /-- The function is in D3hot (14 R355) -/
  d3hot : Bool
  /-- When the RETAIN completion was written (19 R483) -/
  retainAt : Nat
deriving DecidableEq, Repr

/-- Boot at reset. -/
def Boot.init : Boot where
  started := false
  fwReady := false
  pcieTrain := false
  initRun := 0
  initDone := 0
  hbmTraining := 0
  hbmFails := []
  state := DevState.active
  transition := false
  cpFailed := false
  quiesceSince := 0
  d3hot := false
  retainAt := 0

/-- Parameters of ring pair 0 or EVQ in the registers, or of a created ring (Table 14.3) -/
structure RingCfg where
  /-- SQ_BASE (22 Table 22.8) -/
  sqBase : BitVec 64
  /-- CQ_BASE (22 Table 22.8) -/
  cqBase : BitVec 64
  /-- SQ_DEPTH, depth is 2 to this (22 Table 22.9) -/
  sqDepth : Nat
  /-- CQ_DEPTH (22 Table 22.9) -/
  cqDepth : Nat
  /-- INT_COUNT (22 Table 22.9) -/
  intCount : Nat
  /-- INT_TIME in us (22 Table 22.10) -/
  intTime : Nat
deriving DecidableEq, Repr

/-- RingCfg at reset. -/
def RingCfg.init : RingCfg where
  sqBase := 0
  cqBase := 0
  sqDepth := 6
  cqDepth := 6
  intCount := 1
  intTime := 0

/-- Host-interface registers that a host-interface reset keeps -/
structure Hreg where
  /-- HIF_ENABLE (22 Table 22.7) -/
  hifEnable : Bool
  /-- HIF_ERR_STATUS [6:0] (22 Table 22.7) -/
  err : BitVec 7
  /-- Ring pair 0 parameters (22 R528) -/
  ring0 : RingCfg
  /-- EVQ_BASE (22 Table 22.8) -/
  evqBase : BitVec 64
  /-- EVQ_DEPTH (22 Table 22.9) -/
  evqDepth : Nat
  /-- EVQ_INT_COUNT (22 Table 22.9) -/
  evqIntCount : Nat
  /-- EVQ_INT_TIME (22 Table 22.10) -/
  evqIntTime : Nat
  /-- High-half latches of 64-bit registers by offset, absent is zero (22 R525) -/
  latch : Map (BitVec 32)
  /-- Latched bytes 4-15 of error-log slots (22 R537) -/
  slotLatch : Map (List Byte)
  /-- Staged low halves of 64-bit RW registers by offset (22 R526) -/
  staged : Map (BitVec 32)
  /-- TIME_SEC: the seconds of the last capture (22 R534) -/
  timeSec : BitVec 64
  /-- What the last host read returned (14 R356) -/
  readData : BitVec 512
  /-- How the last PCIe read completed: 0 success, 1 Unsupported Request, 2 Configuration Request Retry Status (14 R356, 03 R75) -/
  readCpl : Nat
deriving DecidableEq, Repr

/-- Hreg at reset. -/
def Hreg.init : Hreg where
  hifEnable := false
  err := 0
  ring0 := RingCfg.init
  evqBase := 0
  evqDepth := 8
  evqIntCount := 1
  evqIntTime := 0
  latch := []
  slotLatch := []
  staged := []
  timeSec := 0
  readData := 0
  readCpl := 0

/-- A ring pair (R359, R364, R368) -/
structure Ring where
  /-- Its parameters (14 R359, R389) -/
  cfg : RingCfg
  /-- Index of the next SQ entry to fetch (14 R364, R389) -/
  sqHead : Nat
  /-- The last SQ_TAIL written (14 R363, R389) -/
  sqTail : Nat
  /-- Index of the next CQ entry to write (14 R364, R389) -/
  cqTail : Nat
  /-- The last CQ_HEAD written (14 R363, R389) -/
  cqHead : Nat
  /-- The phase of the next CQ entry (14 R368) -/
  phase : Bool
  /-- In ERROR, with its cause 0 SQ_RANGE, 1 CQ_RANGE, 2 FETCH, 3 PERMISSION (14 R364) -/
  error : Option Nat
  /-- Times of the unsignalled entries, oldest first (14 R372) -/
  unsig : List Nat
  /-- A RING_DELETE of it waits for its commands in flight (15 R390) -/
  deleting : Bool
deriving DecidableEq, Repr

/-- Ring at reset. -/
def Ring.init : Ring where
  cfg := RingCfg.init
  sqHead := 0
  sqTail := 0
  cqTail := 0
  cqHead := 0
  phase := true
  error := none
  unsig := []
  deleting := false

/-- Where a command in flight stands: waiting for its time, fetched and not begun, or executing -/
inductive CmdPhase where
  | waiting | ready | executing
deriving DecidableEq, Repr

/-- A command in flight (R365) -/
structure Cmd where
  /-- Its ring pair (14 R365) -/
  ring : Nat
  /-- The 64 bytes of its submission entry (14 R361) -/
  entry : List Byte
  /-- Where it stands (17 R459) -/
  phase : CmdPhase
  /-- A host-interface reset has come since its fetch: it writes no completion (14 R74, R376) -/
  dead : Bool
  /-- It began more than 1 us after its time (17 R460) -/
  late : Bool
  /-- It executes and still holds its scope (15 R385) -/
  held : Bool
  /-- What a long command still waits for (15 R385) -/
  aux : List Nat
  /-- Its indirect data, kept for the mirror (18 R469) -/
  data : List Byte
deriving DecidableEq, Repr

/-- Cmd at reset. -/
def Cmd.init : Cmd where
  ring := 0
  entry := []
  phase := CmdPhase.ready
  dead := false
  late := false
  held := false
  aux := []
  data := []

/-- An MSI-X table entry (Table 22.12) -/
structure MsixEntry where
  /-- MSG_ADDR_LO (22 Table 22.12) -/
  addrLo : BitVec 32
  /-- MSG_ADDR_HI (22 Table 22.12) -/
  addrHi : BitVec 32
  /-- MSG_DATA (22 Table 22.12) -/
  data : BitVec 32
  /-- MASK (22 Table 22.12) -/
  mask : Bool
deriving DecidableEq, Repr

/-- MsixEntry at reset. -/
def MsixEntry.init : MsixEntry where
  addrLo := 0
  addrHi := 0
  data := 0
  mask := true

/-- An event (Table 14.6) -/
structure Event where
  /-- EVENT_CODE (14 R371) -/
  code : Nat
  /-- SEVERITY (14 R371) -/
  sev : Nat
  /-- OBJECT (14 R371) -/
  obj : BitVec 32
  /-- DETAIL (14 R371) -/
  detail : BitVec 32
  /-- TIME_NS (14 R371) -/
  timeNs : BitVec 32
deriving DecidableEq, Repr

/-- Event at reset. -/
def Event.init : Event where
  code := 0
  sev := 0
  obj := 0
  detail := 0
  timeNs := 0xFFFFFFFF

/-- A completion that waits inside the device in D3hot (R355) -/
structure Completion where
  /-- Its ring pair (14 R355) -/
  ring : Nat
  /-- TAG (14 R366) -/
  tag : BitVec 16
  /-- STATUS (14 R366) -/
  status : Nat
  /-- RESULT0 (14 R366) -/
  result0 : BitVec 64
  /-- RESULT1 (14 R366) -/
  result1 : BitVec 64
  /-- EXEC_NS (14 R366) -/
  execNs : BitVec 32
  /-- COMMAND_COMPLETE follows it (14 R371) -/
  withEvent : Bool
deriving DecidableEq, Repr

/-- Completion at reset. -/
def Completion.init : Completion where
  ring := 0
  tag := 0
  status := 0
  result0 := 0
  result1 := 0
  execNs := 0xFFFFFFFF
  withEvent := false

/-- The host interface: rings, EVQ, MSI-X and commands in flight; a host-interface reset clears it -/
structure Hif where
  /-- HOST_READY (14 R376, 22 Table 22.5) -/
  hostReady : Bool
  /-- Ring pairs that exist (14 R359) -/
  rings : Map Ring
  /-- The ring pair served last in round robin (14 R365) -/
  rrRing : Nat
  /-- Entries left in its turn (14 R365) -/
  rrLeft : Nat
  /-- EVQ exists (14 R371) -/
  evqExists : Bool
  /-- Index of the next EVQ entry to write (14 R368, 22 R528) -/
  evqTail : Nat
  /-- The last EVQ_HEAD accepted (22 R531) -/
  evqHead : Nat
  /-- The phase of the next EVQ entry (14 R368) -/
  evqPhase : Bool
  /-- Times of the unsignalled EVQ entries, oldest first (14 R372) -/
  evqUnsig : List Nat
  /-- MSI-X entries that differ from their reset (22 R532) -/
  msix : Map MsixEntry
  /-- Vectors whose PBA bit is set, rising (22 R532) -/
  pba : List Nat
deriving DecidableEq, Repr

/-- Hif at reset. -/
def Hif.init : Hif where
  hostReady := false
  rings := []
  rrRing := 0
  rrLeft := 0
  evqExists := false
  evqTail := 0
  evqHead := 0
  evqPhase := true
  evqUnsig := []
  msix := []
  pba := []

/-- The commands in flight, and what waits to be written -/
structure Flight where
  /-- Commands in flight by fetch number (14 R365) -/
  cmds : Map Cmd
  /-- The next fetch number (14 R365) -/
  nextId : Nat
  /-- Completions that wait for D0 (14 R355) -/
  heldCpl : List Completion
  /-- Events held for D3hot or for a missing EVQ, at most 4,096 (14 R355, R371) -/
  heldEv : List Event
  /-- Events lost and not yet reported (14 R371) -/
  lost : Nat
deriving DecidableEq, Repr

/-- Flight at reset. -/
def Flight.init : Flight where
  cmds := []
  nextId := 0
  heldCpl := []
  heldEv := []
  lost := 0

/-- The equaliser's coefficients of a lane, each exact in units of 2^-48 (R108 to R110) -/
structure Coef where
  /-- FFE taps 0-40; the main cursor's own entry is not used (05 R108) -/
  taps : List Int
  /-- Alpha, 0 to 1 (05 Table 5.2) -/
  alpha : Int
  /-- Beta, 0 to 1/2 (05 Table 5.2) -/
  beta : Int
  /-- Gamma, -1/4 to 1/4 (05 Table 5.2) -/
  gamma : Int
  /-- b1, 0 to 0.85 (05 Table 5.2) -/
  b1 : Int
deriving DecidableEq, Repr

/-- Coef at reset. -/
def Coef.init : Coef where
  taps := List.replicate 41 0
  alpha := 0
  beta := 0
  gamma := 0
  b1 := 0

/-- The stored settings of a lane (Table 15.6, R399) -/
structure LaneSet where
  /-- CTLE_MODE: 0 AUTO, 1 FIXED (04 Table 4.3) -/
  ctleMode : Nat
  /-- CTLE_CODE as set (04 Table 4.3) -/
  ctleCode : Nat
  /-- EQ_MODE: 0 AUTO, 1 MLSE, 2 DFE (05 Table 5.3) -/
  eqMode : Nat
  /-- FFE_CURSOR (05 Table 5.3) -/
  ffeCursor : Nat
  /-- MU_ACQ (05 Table 5.3) -/
  muAcq : Nat
  /-- MU_TRK (05 Table 5.3) -/
  muTrk : Nat
  /-- CDR_BW (05 Table 5.3) -/
  cdrBw : Nat
  /-- SD_THRESH in mV RMS (05 Table 5.3) -/
  sdThresh : Nat
  /-- ADAPT_HOLD (05 Table 5.3) -/
  adaptHold : Bool
  /-- TX_AMPL (06 Table 6.1) -/
  txAmpl : Nat
  /-- TX_FIR_SRC: 0 CUSTOM, 1 FORERUNNER, 2 C2M (06 Table 6.1) -/
  firSrc : Nat
  /-- TX_PRESET (06 Table 6.1) -/
  txPreset : Nat
  /-- TX_TAP-3 to TX_TAP+3 (06 Table 6.1) -/
  taps : List Byte
  /-- TX_MASK (06 Table 6.1) -/
  txMask : Nat
  /-- TX_PRECODE (06 Table 6.1) -/
  txPrecode : Bool
  /-- RX_PRECODE (06 Table 6.1) -/
  rxPrecode : Bool
  /-- TX_INVERT (06 Table 6.1) -/
  txInvert : Bool
  /-- RX_INVERT (06 Table 6.1) -/
  rxInvert : Bool
  /-- RAMP_TIME in us (06 Table 6.1) -/
  rampTime : Nat
  /-- NOISE_THRESH in uV, 0 none (04 R106) -/
  noiseThresh : Nat
deriving DecidableEq, Repr

/-- LaneSet at reset. -/
def LaneSet.init : LaneSet where
  ctleMode := 0
  ctleCode := 0
  eqMode := 0
  ffeCursor := 8
  muAcq := 10
  muTrk := 16
  cdrBw := 1
  sdThresh := 16
  adaptHold := false
  txAmpl := 30
  firSrc := 1
  txPreset := 0
  taps := [0, 0, 0, 0x40, 0, 0, 0]
  txMask := 0
  txPrecode := false
  rxPrecode := false
  txInvert := false
  rxInvert := false
  rampTime := 64
  noiseThresh := 0

/-- STATE of a lane (Tables 5.4 and 15.7) -/
inductive LaneState where
  | off | calibrating | noSignal | ctleSearch | freq | converge | qualify | expired | acquired | losPending | los | losHeld | warm
deriving DecidableEq, Repr

/-- The transmitter of a lane (R143 to R146) -/
inductive TxState where
  | hiZ | rampUp | transmitting | rampDown | muted | stopping
deriving DecidableEq, Repr

/-- A value for each trim quantity of a slice (Table 4.5) -/
structure Trim where
  /-- Offset in LSB (04 R91) -/
  offset : Frac
  /-- Gain in % (04 R91) -/
  gain : Frac
  /-- Skew in ps (04 R91) -/
  skew : Frac
deriving DecidableEq, Repr

/-- Trim at reset. -/
def Trim.init : Trim where
  offset := ⟨0, 0⟩
  gain := ⟨0, 0⟩
  skew := ⟨0, 0⟩

/-- One foreground run: every slice's measured trims and the sensor at its start and end (R94, R95) -/
structure FgRun where
  /-- Slices in SLICE_MAP bit order (04 R95) -/
  meas : List Meas
  /-- Sensor at the start in 1/16 degC (04 R94) -/
  t0 : Int
  /-- Sensor at the end (04 R94) -/
  t1 : Int
deriving DecidableEq, Repr

/-- FgRun at reset. -/
def FgRun.init : FgRun where
  meas := []
  t0 := 0
  t1 := 0

/-- A foreground calibration in progress (R97, R99) -/
structure Cal where
  /-- Attempt 1 or 2 (04 R97) -/
  attempt : Nat
  /-- A run is in progress; otherwise the retry is awaited (04 R97) -/
  running : Bool
  /-- A Geode role was held when it began (04 R99, 18 R464) -/
  geode : Bool
  /-- Runs of this attempt that have ended (04 R99) -/
  runs : List FgRun
  /-- Slices that failed in attempt 1 (04 R97) -/
  failed1 : List Nat
  /-- Spares of banks A and B when the first attempt began (04 R97) -/
  spares : Nat × Nat
  /-- The LANE_CALIBRATE that waits for it (15 R401) -/
  cmd : Option Nat
  /-- The state the lane takes when it ends (05 R121) -/
  back : LaneState
deriving DecidableEq, Repr

/-- Cal at reset. -/
def Cal.init : Cal where
  attempt := 1
  running := true
  geode := false
  runs := []
  failed1 := []
  spares := (2, 2)
  cmd := none
  back := LaneState.noSignal

/-- Phase of a rotation step (R100) -/
inductive RotPhase where
  | shadow | standby
deriving DecidableEq, Repr

/-- A background rotation step (R100) -/
structure Rot where
  /-- Its phase (04 R100) -/
  phase : RotPhase
  /-- The outgoing slice (04 R100) -/
  out : Nat
  /-- The incoming slice (04 R100) -/
  inc : Nat
deriving DecidableEq, Repr

/-- Rot at reset. -/
def Rot.init : Rot where
  phase := RotPhase.shadow
  out := 0
  inc := 0

/-- The held set of a lane after loss (R120) -/
structure Held where
  /-- When LOS was declared (05 R120) -/
  since : Nat
  /-- The CTLE code (05 R120) -/
  ctle : Nat
  /-- The VGA code (05 R120) -/
  vga : Nat
  /-- The FFE taps, alpha, beta, gamma and b1 (05 R120) -/
  coef : Coef
  /-- The CDR frequency integrator in 0.01 ppm (05 R120, R113) -/
  freq : Int
  /-- The cage sensor reading stored with it (05 R120) -/
  temp : Int
  /-- Lane mode then (05 R120) -/
  mode : Nat
  /-- Equaliser mode then in force: 1 MLSE, 2 DFE (05 R120) -/
  eqMode : Nat
deriving DecidableEq, Repr

/-- Held at reset. -/
def Held.init : Held where
  since := 0
  ctle := 0
  vga := 0
  coef := Coef.init
  freq := 0
  temp := 0
  mode := 0
  eqMode := 0

/-- One optical lane engine -/
structure Lane where
  /-- Its stored settings (15 R399) -/
  set : LaneSet
  /-- The port it belongs to (07 R166) -/
  port : Option Nat
  /-- STATE (05 R116, 15 Table 15.7) -/
  state : LaneState
  /-- LANE_READY (03 R77) -/
  ready : Bool
  /-- It waits for a calibration slot (03 R78) -/
  waitSlot : Bool
  /-- The foreground calibration it waits for or runs (04 R97) -/
  cal : Option Cal
  /-- Configured LANE_MODE: 0 S100, 1 S200, 2 X200 (07 R166) -/
  cfgMode : Nat
  /-- Operating LANE_MODE (05 R132) -/
  opMode : Nat
  /-- On the Geode secondary: its receiver alone attempts S200 (05 R133) -/
  rxAlt : Bool
  /-- The first receiver switch has been posted (05 R133) -/
  altPosted : Bool
  /-- The lane is withdrawn (04 Table 4.7) -/
  withdrawn : Bool
  /-- The input isolation switch is OPEN (04 R82) -/
  swOpen : Bool
  /-- It takes its input from the NEAR_SERIAL loop path (07 R185) -/
  loop : Bool
  /-- Last LOS cause: 1 AMPLITUDE, 2 ALIGNMENT, 3 CALIBRATION (15 Table 15.7) -/
  losCause : Nat
  /-- The last acquisition was warm (15 Table 15.7) -/
  warmLast : Bool
  /-- WARM has passed its frequency check (05 R116) -/
  warmFreq : Bool
  /-- LAST_ACQ_TIME (05 Table 5.11) -/
  acqUs : Nat
  /-- When signal present was asserted (05 R114) -/
  presentAt : Nat
  /-- When the X200 window began (05 R132) -/
  xwin : Option Nat
  /-- The held set (05 R120) -/
  held : Option Held
  /-- The detector that the last acquisition attempt took: 0 none yet, 1 MLSE, 2 DFE (05 R112) -/
  eqOn : Nat
  /-- The FFE_CURSOR that it took; 0 none yet (05 R112) -/
  cursorOn : Nat
  /-- CTLE_CODE in force (05 Table 5.11) -/
  ctle : Nat
  /-- VGA_CODE (05 Table 5.11) -/
  vga : Nat
  /-- FFE taps, alpha, beta, gamma, b1 (05 R108, Table 5.2) -/
  coef : Coef
  /-- SNR in 0.1 dB (05 Table 5.11) -/
  snr : BitVec 16
  /-- The CDR's frequency integrator in 0.01 ppm, which FREQ_OFFSET reports (05 R113, Table 5.11) -/
  freqOff : Int
  /-- RX_LATENCY in ps (05 R134) -/
  latency : Nat
  /-- FG_RESULT (15 Table 15.7) -/
  fgResult : Nat
  /-- SLICE_MAP (04 R87, R89) -/
  sliceMap : BitVec 68
  /-- SLICE_FAULT (04 R87, R89) -/
  sliceFault : BitVec 68
  /-- A map is forced (04 R90) -/
  forced : Bool
  /-- For each slice, the map change at which it last entered or left service (04 R100) -/
  since : Map Nat
  /-- Map changes since lane power-up (04 R100) -/
  mapSeq : Nat
  /-- The bank of the last rotation step (04 R100) -/
  lastBank : Nat
  /-- The rotation step in progress (04 R100) -/
  rot : Option Rot
  /-- Background rejections in a row of each slice (04 R102) -/
  bgRej : Map Nat
  /-- The condition of R103 holds (04 R103) -/
  rejFlag : Bool
  /-- Correction of each slice, absent is zero (04 R92) -/
  delta : Map Trim
  /-- Trims in force of each slice (04 R92) -/
  trims : Map Trim
  /-- T in force for the trims in 1/16 degC (04 R93) -/
  trimT : Int
  /-- The last valid reading of its cage sensor since power-up (04 R93) -/
  validT : Option Int
  /-- P_own of the last foreground calibration in 10^-6 LSB (04 R105) -/
  ownNoise : Nat
  /-- NOISE_RMS in uV (04 R105) -/
  noise : Nat
  /-- When it was measured (04 R105) -/
  noiseAt : Nat
  /-- BELOW_OWN (04 R105) -/
  belowOwn : Bool
  /-- Consecutive measurements above the threshold (04 R106) -/
  noiseHigh : Nat
  /-- NOISE_FLOOR_HIGH posted in this episode (04 R106) -/
  noisePosted : Bool
  /-- The six memory bits of the X200 encoder; bit i is the information bit i + 1 before (05 R127) -/
  convMem : BitVec 6
  /-- The last precoded level sent (05 R124) -/
  txPre : Nat
  /-- The last level received before the precoding is undone (05 R124) -/
  rxPre : Nat
  /-- The PAM4 levels that the last frame's bits were sent as, the first one first (05 R129) -/
  txLevels : List Nat
  /-- The bits after the inner decoder of the last blocks received (05 Table 5.6) -/
  rxInfo : List Bool
  /-- Its transmitter (06 R144) -/
  tx : TxState
  /-- Ramp steps taken up, 0 to 64 (06 R143) -/
  step : Nat
  /-- RAMP_TIME of the ramp in progress, fixed when it began; a step takes 1/64 of it (06 R143, R146) -/
  rampUs : Nat
  /-- A ramp down ends stopped; otherwise muted (06 R145) -/
  rampStop : Bool
  /-- The lane is muted by command or by the Geode role (06 R146) -/
  mute : Bool
  /-- Steps taken of a change of TX_AMPL, 64 when none runs (06 R148) -/
  amplStep : Nat
  /-- TX_AMPL before that change (06 R148) -/
  amplOld : Nat
  /-- The 25 counters of LANE_STATUS, in its order (15 Table 15.7, 05 Table 5.11) -/
  ctr : Map Ctr
deriving DecidableEq, Repr

/-- Lane at reset. -/
def Lane.init : Lane where
  set := LaneSet.init
  port := none
  state := LaneState.off
  ready := false
  waitSlot := false
  cal := none
  cfgMode := 0
  opMode := 0
  rxAlt := false
  altPosted := false
  withdrawn := false
  swOpen := false
  loop := false
  losCause := 0
  warmLast := false
  warmFreq := false
  acqUs := 0
  presentAt := 0
  xwin := none
  held := none
  eqOn := 0
  cursorOn := 0
  ctle := 0
  vga := 0
  coef := Coef.init
  snr := 0
  freqOff := 0
  latency := 0
  fgResult := 0
  sliceMap := 0x3FFFFFFFCFFFFFFFF
  sliceFault := 0
  forced := false
  since := []
  mapSeq := 0
  lastBank := 1
  rot := none
  bgRej := []
  rejFlag := false
  delta := []
  trims := []
  trimT := 640
  validT := none
  ownNoise := 0
  noise := 0
  noiseAt := 0
  belowOwn := false
  noiseHigh := 0
  noisePosted := false
  convMem := 0
  txPre := 0
  rxPre := 0
  txLevels := []
  rxInfo := []
  tx := TxState.hiZ
  step := 0
  rampUs := 64
  rampStop := true
  mute := false
  amplStep := 64
  amplOld := 30
  ctr := []

/-- The 256 optical lane engines -/
structure LaneBank where
  /-- Lanes that differ from Lane.init (00 R8) -/
  tab : Map Lane
deriving DecidableEq, Repr

/-- LaneBank at reset. -/
def LaneBank.init : LaneBank where
  tab := []

/-- STATE of a cage (Table 6.8) -/
inductive CageState where
  | absent | powerOn | mgmtInit | lowPower | lanePrep | powerUp | ready | fault
deriving DecidableEq, Repr

/-- A transfer on a cage's I2C bus (R156, R163) -/
structure CageXfer where
  /-- The command it serves; none for the application write of bring-up (06 R163) -/
  cmd : Option Nat
  /-- The ports whose application it writes (06 R160) -/
  ports : List Nat
  /-- Failures so far (06 R156) -/
  fails : Nat
  /-- It writes module memory (06 R163) -/
  write : Bool
  /-- Its bank (06 R163) -/
  bank : Nat
  /-- Its page (06 R163) -/
  page : Nat
  /-- Its first byte (06 R163) -/
  offset : Nat
  /-- The bytes to write (06 R163) -/
  data : List Byte
deriving DecidableEq, Repr

/-- CageXfer at reset. -/
def CageXfer.init : CageXfer where
  cmd := none
  ports := []
  fails := 0
  write := false
  bank := 0
  page := 0
  offset := 0
  data := []

/-- One module cage -/
structure Cage where
  /-- STATE (06 R158) -/
  state : CageState
  /-- FAULT_CAUSE (16 Table 16.9) -/
  cause : Nat
  /-- Media mode: LINEAR or C2M (06 R149) -/
  c2m : Bool
  /-- I2C_SPEED: 1 MHz (16 R439) -/
  fast : Bool
  /-- 1 MHz in use (06 R156) -/
  fastUsed : Bool
  /-- CAGE_POLL in 100 ms (06 R162) -/
  poll : Nat
  /-- A module is present (06 R157) -/
  present : Bool
  /-- Cc_PWREN driven high (02 R42, 06 R155) -/
  pwren : Bool
  /-- Cc_RST_N asserted (02 R42, 06 R155) -/
  rstAsserted : Bool
  /-- Cc_LPM driven low, high power allowed (02 R42, 06 R155) -/
  lpmLow : Bool
  /-- Cc_SCL is driven low by the device (02 R42, R46) -/
  sclLow : Bool
  /-- Cc_SDA is driven low by the device (02 R42, R46) -/
  sdaLow : Bool
  /-- What the module advertised (06 R158) -/
  info : Option ModuleInfo
  /-- Ports whose application is written (06 R160) -/
  apps : List Nat
  /-- Host lanes held in DPDeactivate (06 R160) -/
  dpDeact : BitVec 8
  /-- Host lanes with OutputDisableTx set (06 R164) -/
  outDis : BitVec 8
  /-- Last readings as bytes 4-55 of CAGE_STATUS, absent is zero (06 R162, 16 Table 16.9) -/
  readings : List Byte
  /-- Latched flags: bank, page, byte, bits; at most 64 (06 R162) -/
  flags : List (Nat × Nat × Nat × Nat)
  /-- Transfers, the one in progress first (06 R163) -/
  i2c : List CageXfer
  /-- PRS_GLITCH (06 R157) -/
  prsGlitch : Ctr
  /-- The last write that a command made to module memory: bank, page, first byte and bytes (06 R163, 01 R24) -/
  wrote : Option (Nat × Nat × Nat × List Byte)
  /-- Failures so far of the transfer that the device makes of its own (06 R156) -/
  ownFails : Nat
  /-- The module's software low-power control defers to Cc_LPM (06 R158) -/
  lpmDefer : Bool
  /-- Host-side transmit precoder controls in the staged control set, by host lane (06 R142) -/
  hostTxPre : BitVec 8
  /-- Host-side receive precoder controls (06 R142) -/
  hostRxPre : BitVec 8
  /-- The CAGE_SET whose media change waits for the ramps (16 R439) -/
  mediaCmd : Option Nat
deriving DecidableEq, Repr

/-- Cage at reset. -/
def Cage.init : Cage where
  state := CageState.absent
  cause := 0
  c2m := false
  fast := false
  fastUsed := false
  poll := 10
  present := false
  pwren := false
  rstAsserted := false
  lpmLow := false
  sclLow := false
  sdaLow := false
  info := none
  apps := []
  dpDeact := 0
  outDis := 0
  readings := []
  flags := []
  i2c := []
  prsGlitch := Ctr.init
  wrote := none
  ownFails := 0
  lpmDefer := false
  hostTxPre := 0
  hostRxPre := 0
  mediaCmd := none

/-- The 32 module cages -/
structure CageBank where
  /-- Cages that differ from Cage.init (00 R8) -/
  tab : Map Cage
deriving DecidableEq, Repr

/-- CageBank at reset. -/
def CageBank.init : CageBank where
  tab := []

/-- STATE of a port (Table 7.3) -/
inductive PortState where
  | preparing | aligning | up | down
deriving DecidableEq, Repr

/-- The data-path step of a port (R159) -/
inductive DpStep where
  | idle | ramping | waiting | done
deriving DecidableEq, Repr

/-- One Ethernet port -/
structure Port where
  /-- PORT_RATE (07 Table 7.2) -/
  rate : Nat
  /-- Its number of lanes k (07 R166) -/
  lanes : Nat
  /-- Configured LANE_MODE (07 R166) -/
  mode : Nat
  /-- FALLBACK (05 R132) -/
  fallback : Bool
  /-- MAX_FRAME (07 Table 7.2) -/
  maxFrame : Nat
  /-- DOWN_EGRESS is HOLD (07 Table 7.2) -/
  hold : Bool
  /-- DEG_SET (07 Table 7.2) -/
  degSet : Nat
  /-- DEG_CLEAR (07 Table 7.2) -/
  degClear : Nat
  /-- LOOPBACK: 1 NEAR_SERIAL, 2 NEAR_PARALLEL, 3 FAR (07 Table 7.2) -/
  loopback : Nat
  /-- Home link (15 Table 15.4) -/
  home : Nat
  /-- STATE (07 R174) -/
  state : PortState
  /-- RF (07 R174) -/
  rf : Bool
  /-- FEC_DEGRADED (07 R184) -/
  degraded : Bool
  /-- Cause SKEW (07 R172) -/
  skew : Bool
  /-- Consecutive windows at or below DEG_CLEAR (07 R184) -/
  clearWin : Nat
  /-- The port has left UP in this window (07 R184) -/
  leftUp : Bool
  /-- LAST_S (15 Table 15.5) -/
  lastS : Nat
  /-- When PORT_ALIGN_FAIL was last posted (07 R174) -/
  alignFailAt : Option Nat
  /-- Its data-path step (06 R159) -/
  dp : DpStep
  /-- RX_ASYM in ps (17 R450) -/
  rxAsym : Int
  /-- TX_ASYM in ps (17 R450) -/
  txAsym : Int
  /-- The last frame sent, destination address through FCS (07 R178) -/
  lastTx : List Byte
  /-- A frame being received when the port left UP, or its deletion began, is still to end with a forced FCS error (05 R119, 07 R182) -/
  cut : Bool
  /-- A PORT_DELETE waits for its ramps (15 R395) -/
  deleting : Bool
  /-- The 41 counters of Table 7.6, in its order (07 Table 7.6) -/
  ctr : Map Ctr
deriving DecidableEq, Repr

/-- Port at reset. -/
def Port.init : Port where
  rate := 0
  lanes := 1
  mode := 0
  fallback := false
  maxFrame := 0x2400
  hold := false
  degSet := 0
  degClear := 0
  loopback := 0
  home := 0
  state := PortState.preparing
  rf := false
  degraded := false
  skew := false
  clearWin := 0
  leftUp := false
  lastS := 0
  alignFailAt := none
  dp := DpStep.idle
  rxAsym := 0
  txAsym := 0
  lastTx := []
  cut := false
  deleting := false
  ctr := []

/-- The ports that exist, by number -/
structure PortBank where
  /-- Ports (07 R166) -/
  tab : Map Port
deriving DecidableEq, Repr

/-- PortBank at reset. -/
def PortBank.init : PortBank where
  tab := []

/-- A table entry (Table 12.1) -/
structure Entry where
  /-- VRF of an LPM entry (12 Table 12.1) -/
  vrf : Nat
  /-- Prefix length of an LPM entry (12 Table 12.1) -/
  plen : Nat
  /-- PRIORITY of a TERNARY entry (12 Table 12.1) -/
  prio : Nat
  /-- Prefix address, key, value or index (12 Table 12.1) -/
  key : List Byte
  /-- Mask of a TERNARY entry (12 Table 12.1) -/
  mask : List Byte
  /-- The result word (12 R303) -/
  result : BitVec 64
  /-- The words and units that hold it, as region and index (13 R336, 18 R469) -/
  words : List (Nat × Nat)
deriving DecidableEq, Repr

/-- Entry at reset. -/
def Entry.init : Entry where
  vrf := 0
  plen := 0
  prio := 0
  key := []
  mask := []
  result := 0
  words := []

/-- A table (Table 12.2) -/
structure Table where
  /-- TABLE_TYPE (12 Table 12.2) -/
  kind : Nat
  /-- PLACEMENT is HBM (12 Table 12.2) -/
  hbm : Bool
  /-- KEY_LEN (12 Table 12.2) -/
  keyLen : Nat
  /-- REPLICAS (12 Table 12.2) -/
  replicas : Nat
  /-- SIZE (12 Table 12.2) -/
  size : Nat
  /-- Its banks, rising (12 R301) -/
  banks : List Nat
  /-- Its blocks, rising (12 R301) -/
  blocks : List Nat
  /-- Committed entries; a DIRECT index not listed holds result zero (12 R303) -/
  entries : List Entry
  /-- Locations for which TABLE_POISON has been posted (12 R314) -/
  posted : List (Nat × Nat)
  /-- LOOKUPS, HITS, MISSES, NOT_READY, POISONED, and UPDATES_COMMITTED at 7; the levels are computed (12 Table 12.11) -/
  ctr : Map Ctr
deriving DecidableEq, Repr

/-- Table at reset. -/
def Table.init : Table where
  kind := 0
  hbm := false
  keyLen := 4
  replicas := 1
  size := 1
  banks := []
  blocks := []
  entries := []
  posted := []
  ctr := []

/-- What the Bedrock domain holds for RETAIN and for the wake from it (R431, R483, R484) -/
structure Retain where
  /-- The device is in RETAIN (19 R477, R483) -/
  inRetain : Bool
  /-- A wake source has acted since RETAIN was accepted, before entry was complete (19 R492) -/
  early : Option Nat
  /-- A wake source has acted and the wake start is awaited (19 R487) -/
  waking : Bool
  /-- HBM stacks named for self-refresh; after wake, those not yet initialised (16 R431, 19 R489) -/
  hbmStacks : Nat
  /-- TSRAM banks to retain (16 R431) -/
  banks : Nat
  /-- The wake timer in ms, 0 for none (16 R431) -/
  timer : Nat
  /-- The wake sources armed (16 R431) -/
  sources : Nat
  /-- When entry completed (19 R486) -/
  since : Nat
  /-- The epoch number of the retention directory (19 R483) -/
  epoch : BitVec 64
  /-- TABLE_PART of the retention directory (19 R483) -/
  part : Nat
  /-- The tables of the retention directory, with the contents of their retained storage (19 R483) -/
  tables : Map Table
  /-- For each retained bank, its CRC and its count of uncorrectable words (19 R488) -/
  sigs : Map (BitVec 32 × Nat)
  /-- Retained banks not yet checked since the wake start (19 R488) -/
  check : List Nat
  /-- Retained banks whose signature was equal (19 R488) -/
  kept : List Nat
  /-- Banks that are LOST, for which BANK_LOST is to be posted (19 R488) -/
  lost : List Nat
  /-- VDD_SRAM left its range in RETAIN (19 R492) -/
  sramLost : Bool
  /-- VDD_HBM or VDDQ_HBM left its range in RETAIN (19 R492) -/
  hbmLost : Bool
deriving DecidableEq, Repr

/-- Retain at reset. -/
def Retain.init : Retain where
  inRetain := false
  early := none
  waking := false
  hbmStacks := 0
  banks := 0
  timer := 0
  sources := 0
  since := 0
  epoch := 0
  part := 8
  tables := []
  sigs := []
  check := []
  kept := []
  lost := []
  sramLost := false
  hbmLost := false

/-- STATE of a Garnet or Geode pair (Tables 8.7 and 15.11) -/
inductive PairState where
  | off | page | train | quiet | failed | active | sleepEntry | sleep | refresh | waking | retrain | stdTransmit | stdAcquired | stdLost
deriving DecidableEq, Repr

/-- Training phase of a pair; rest is the 1 ms of retrain quiet, await a follower's wait for the leader's 3a (R201, R216) -/
inductive TrainPhase where
  | p2a | p2b | p3a | p3b | p4 | rest | await
deriving DecidableEq, Repr

/-- One Garnet or Geode pair -/
structure Pair where
  /-- STATE (08 Table 8.7) -/
  state : PairState
  /-- Last loss: 0 none, 1 SIGNAL, 2 ALIGNMENT, 3 SNR, 4 COMMAND (15 Table 15.11) -/
  loss : Nat
  /-- This end leads (08 R195) -/
  leader : Bool
  /-- NONCE of this step 1 (08 Table 8.4) -/
  nonce : BitVec 32
  /-- The last valid partner page of this step 1, empty for none (08 R198) -/
  page : List Byte
  /-- Pages with ACK 1 have been sent (08 R198) -/
  ackSent : Bool
  /-- A page with ACK 1 and this end's NONCE has been received (08 R198) -/
  echoed : Bool
  /-- One more burst has been sent since (08 R198) -/
  lastBurst : Bool
  /-- A follower has stopped transmitting and waits for step 2a (08 R198) -/
  wait2a : Bool
  /-- GARNET_WIRING has been posted (08 R199) -/
  wiring : Bool
  /-- GARNET_PROTO_MISMATCH has been posted (09 R241) -/
  protoBad : Bool
  /-- Phase of TRAIN or RETRAIN (08 R201) -/
  phase : TrainPhase
  /-- Consecutive failures since ACTIVE (08 R203) -/
  fails : Nat
  /-- A brownout freeze was in force in this phase (08 R203) -/
  froze : Bool
  /-- RX_READY was set in every counting status word of the phase (08 Table 8.6) -/
  allReady : Bool
  /-- Consecutive frames of step 4 with both ready bits in both directions, at most 64 (08 R202) -/
  both : Nat
  /-- This end's COUNTDOWN of step 4 (08 R202) -/
  count : Option Nat
  /-- Failed attempts of this wake (08 Table 8.7) -/
  tries : Nat
  /-- A detection is being confirmed (08 R213) -/
  detecting : Bool
  /-- The partner's START marker has passed in this wake (08 R214) -/
  startRx : Bool
  /-- This end's START marker has passed in this wake (08 R214) -/
  startTx : Bool
  /-- Sleep is agreed and its flit boundary has not come (08 R210) -/
  agreed : Bool
  /-- The partner's sleep markers have been received (08 R210) -/
  marker : Bool
  /-- The page of the last burst sent (08 R196) -/
  sentPage : List Byte
  /-- A wake decision came during SLEEP_ENTRY (08 Table 8.11) -/
  wakeDue : Bool
  /-- When the pair last entered SLEEP (08 Table 8.12) -/
  sleptAt : Nat
  /-- More than 16 retrains within 60 min, until the next full bring-up (08 R217) -/
  retrained : Bool
  /-- GAR_SWING in force since the last bring-up or retrain (08 R193) -/
  swingOn : Nat
  /-- The hybrid's balance, the CTLE code and the taps of the cancellers, the FFE and the DFE (08 R189) -/
  eq : PairEq
  /-- The temperature in 1/16 degC that the converter's trims follow (08 Table 8.1) -/
  trimT : Int
  /-- EC_BLOCK1, the start delay of block 1 of the echo canceller (08 R190) -/
  block1 : Nat
  /-- EC_BLOCK2 (08 R190) -/
  block2 : Nat
  /-- Start delay of the crosstalk canceller on the lower-numbered neighbour (08 R190) -/
  xtLow : Nat
  /-- Start delay of the crosstalk canceller on the higher-numbered neighbour (08 R190) -/
  xtHigh : Nat
  /-- The lower-numbered neighbour has transmitted in this step 4 (08 R190) -/
  heardLow : Bool
  /-- The higher-numbered neighbour has transmitted in this step 4 (08 R190) -/
  heardHigh : Bool
  /-- SNR in 0.1 dB (08 Table 8.12) -/
  snr : Int
  /-- HYBRID_DEPTH in 0.1 dB (08 Table 8.12) -/
  depth : Int
  /-- ECHO_RESIDUAL in 0.1 dB (08 Table 8.12) -/
  residual : Int
  /-- ECHO_UNCOVERED in 0.1 dB (08 Table 8.12) -/
  uncovered : Int
  /-- NEXT_RESIDUAL from the lower-numbered neighbour in 0.1 dB (08 Table 8.12) -/
  nextLow : Int
  /-- NEXT_RESIDUAL from the higher-numbered neighbour in 0.1 dB (08 Table 8.12) -/
  nextHigh : Int
  /-- The echo response of the last step 3, 2,048 lags in 2^-15, empty for none since the last restart (08 R219) -/
  echo : List Int
  /-- Its features: lag in 1/8 symbol period and reflection coefficient in 2^-12 (08 R219) -/
  features : List (Nat × Int)
  /-- TDR_VELOCITY in that step 3 (08 R219) -/
  velocity : Nat
  /-- When the phase of TRAIN or RETRAIN began at this end (08 R201) -/
  phaseAt : Nat
  /-- RX_READY of this end's frames (08 Table 8.5) -/
  rxReady : Bool
  /-- EC_READY of this end's frames (08 Table 8.5) -/
  ecReady : Bool
  /-- A follower has waited for step 2a without it and sends bursts again (08 R198) -/
  resumed : Bool
  /-- A refresh fell due during a brownout freeze (08 R211) -/
  refreshDue : Bool
  /-- Message bits that wait for the rest of their codeword (09 R228) -/
  message : List Bool
  /-- The 58-bit state of the transmit scrambler (09 R227) -/
  scramble : Nat
  /-- The levels last put on the line (08 R194, 09 R226) -/
  line : List Nat
  /-- Bits compared and bit errors of the PRBS checker (08 R221, 15 R412) -/
  prbs : Ctr × Ctr
  /-- The 11 counters of Table 8.12, in its order (08 Table 8.12) -/
  ctr : Map Ctr
deriving DecidableEq, Repr

/-- Pair at reset. -/
def Pair.init : Pair where
  state := PairState.off
  loss := 0
  leader := false
  nonce := 0
  page := []
  ackSent := false
  echoed := false
  lastBurst := false
  wait2a := false
  wiring := false
  protoBad := false
  phase := TrainPhase.p2a
  fails := 0
  froze := false
  allReady := true
  both := 0
  count := none
  tries := 0
  detecting := false
  startRx := false
  startTx := false
  agreed := false
  marker := false
  sentPage := []
  wakeDue := false
  sleptAt := 0
  retrained := false
  swingOn := 1
  eq := PairEq.init
  trimT := 0
  block1 := 0
  block2 := 0
  xtLow := 0
  xtHigh := 0
  heardLow := false
  heardHigh := false
  snr := 0
  depth := 0
  residual := 0
  uncovered := 0
  nextLow := 0
  nextHigh := 0
  echo := []
  features := []
  velocity := 0
  phaseAt := 0
  rxReady := false
  ecReady := false
  resumed := false
  refreshDue := false
  message := []
  scramble := 0
  line := []
  prbs := (Ctr.init, Ctr.init)
  ctr := []

/-- A DATA flit held for replay or for reordering (R235, R236) -/
structure Flit where
  /-- SEQ (09 R230) -/
  seq : Nat
  /-- FIRST_REC (09 R230) -/
  first : Nat
  /-- PAYLOAD (09 R230) -/
  payload : List Byte
deriving DecidableEq, Repr

/-- Flit at reset. -/
def Flit.init : Flit where
  seq := 0
  first := 0
  payload := []

/-- The trace of a tagged packet (R519, Table 21.6) -/
structure Trace where
  /-- FLAGS [0] (21 Table 21.6) -/
  egress : Bool
  /-- PORT (21 Table 21.6) -/
  port : Nat
  /-- FLAGS [2] (21 Table 21.6) -/
  spilled : Bool
  /-- CLOCK_VALID (21 Table 21.6) -/
  clockOk : Bool
  /-- QUEUE (21 Table 21.6) -/
  queue : Nat
  /-- LENGTH (21 Table 21.6) -/
  len : Nat
  /-- META (21 Table 21.6) -/
  info : BitVec 32
  /-- BASE_NS (21 Table 21.6) -/
  baseNs : Nat
  /-- The clock in ns at stage 1 (21 Table 21.6) -/
  base : Nat
  /-- For stages 2 to 8 reached, ns from stage 1 (21 Table 21.6) -/
  stages : Map Nat
deriving DecidableEq, Repr

/-- Trace at reset. -/
def Trace.init : Trace where
  egress := false
  port := 0
  spilled := false
  clockOk := false
  queue := 0
  len := 0
  info := 0
  baseNs := 0
  base := 0
  stages := []

/-- A PACKET record sent and not wholly acknowledged (R242) -/
structure Sent where
  /-- SEQ of the flit that holds its last byte (09 R242) -/
  lastSeq : Nat
  /-- Its trace (21 R519) -/
  trace : Option Trace
deriving DecidableEq, Repr

/-- Sent at reset. -/
def Sent.init : Sent where
  lastSeq := 0
  trace := none

/-- A lookup in flight (R312) -/
structure Lookup where
  /-- The LOOKUP_REQ record (09 R251) -/
  req : List Byte
  /-- Once a pipeline took it: the response of its stamped epoch, poison not regarded (12 R320) -/
  taken : Option (List Byte)
  /-- The table it counts for, 256 for none (12 R313) -/
  table : Nat
  /-- The table it named, deleted while it was in flight (12 R322) -/
  old : Option Table
  /-- Once a pipeline took it: the words of the entries that it reads (12 R310, R314) -/
  words : List (Nat × Nat)
  /-- The deletion whose storage waits for it (12 R322) -/
  waits : Option Nat
deriving DecidableEq, Repr

/-- Lookup at reset. -/
def Lookup.init : Lookup where
  req := []
  taken := none
  table := 0
  old := none
  words := []
  waits := none

/-- The settings of a link (Tables 8.2, 9.17, 10.7) -/
structure LinkSet where
  /-- GAR_SWING (08 Table 8.2) -/
  swing : Nat
  /-- LPI_EN (08 Table 8.2) -/
  lpiEn : Bool
  /-- MIN_ACTIVE (08 Table 8.2) -/
  minActive : Nat
  /-- LPI_SHRINK (08 Table 8.2) -/
  shrink : Nat
  /-- LPI_GROW (08 Table 8.2) -/
  grow : Nat
  /-- LPI_REFRESH (08 Table 8.2) -/
  refresh : Nat
  /-- LPI_WINDOW (08 Table 8.2) -/
  window : Nat
  /-- TDR_VELOCITY (08 Table 8.2) -/
  velocity : Nat
  /-- STD_TX_PRESET (08 Table 8.2) -/
  stdPreset : Nat
  /-- STD_TX_PRECODE (08 Table 8.2) -/
  stdTxPre : Bool
  /-- STD_RX_PRECODE (08 Table 8.2) -/
  stdRxPre : Bool
  /-- GAR_LOOPBACK (08 Table 8.2) -/
  loopback : Nat
  /-- CREDIT_TIMEOUT (09 Table 9.17) -/
  creditTimeout : Nat
  /-- LINK_CREDITS (10 Table 10.7) -/
  credits : Nat
deriving DecidableEq, Repr

/-- LinkSet at reset. -/
def LinkSet.init : LinkSet where
  swing := 1
  lpiEn := true
  minActive := 1
  shrink := 0x32
  grow := 0x5A
  refresh := 0x0A
  window := 0x64
  velocity := 0x96
  stdPreset := 0
  stdTxPre := false
  stdRxPre := false
  loopback := 0
  creditTimeout := 0x0A
  credits := 0x400

/-- One Garnet link, or the Geode link -/
structure Link where
  /-- Its settings (08 Table 8.2) -/
  set : LinkSet
  /-- Pairs that differ from Pair.init (08 R194) -/
  pairs : Map Pair
  /-- LINK_UP (08 R205) -/
  up : Bool
  /-- The partner's PROTO of the last valid page, empty for none (09 R241) -/
  proto : List Byte
  /-- The PROTO accepted on the first ACTIVE pair, empty for none (09 R241) -/
  accepted : List Byte
  /-- Both ends' pages carried LPI 1 (08 R198) -/
  lpi : Bool
  /-- MIN_ACTIVE of the partner's page (08 R198) -/
  peerMin : Nat
  /-- Test held by GARNET_DIAG: 0 none, 1 PRBS13Q, 2 PRBS31Q (15 R412) -/
  test : Nat
  /-- The link protocol runs (09 R242) -/
  running : Bool
  /-- A good flit has been received (09 R242) -/
  heard : Bool
  /-- No pair is left: LINK_UP has cleared and the protocol's end is awaited, with whether it was set (09 R242) -/
  ending : Option Bool
  /-- SEQ of the last good IDLE flit (09 R237) -/
  idleSeq : Option Nat
  /-- The standard-engine PCS receives Local Fault (09 R255) -/
  stdFault : Bool
  /-- E, the next SEQ expected (09 R236) -/
  e : Nat
  /-- NAK_WAIT (09 R237) -/
  nakWait : Bool
  /-- Flits held ahead, by SEQ (09 R236) -/
  ahead : Map Flit
  /-- The bytes received of the record in progress (09 R232) -/
  part : List Byte
  /-- The receiver discards up to the next record start (09 R234) -/
  skip : Bool
  /-- Records delivered and not yet taken, oldest first (09 R236) -/
  recs : List (List Byte)
  /-- A, the oldest unacknowledged SEQ (09 R238) -/
  a : Nat
  /-- The next SEQ (09 R235) -/
  next : Nat
  /-- The replay buffer, oldest first (09 R235) -/
  replay : List Flit
  /-- Flits still to resend; not empty in REPLAY (09 R238) -/
  resend : List Flit
  /-- Replays of A without A advancing (09 R238) -/
  replays : Nat
  /-- When the last replay of A started (09 R238) -/
  replayAt : Option Nat
  /-- What remains of the record being sent (09 R232) -/
  txPart : List Byte
  /-- The record being sent is a PACKET (09 R242) -/
  txPkt : Bool
  /-- The trace of that packet (21 R519) -/
  txTrace : Option Trace
  /-- The record being sent is a SLEEP_ACCEPT of this pair (09 R247) -/
  txAccept : Option Nat
  /-- CREDIT and LINK_CTRL records ready (01 R23) -/
  ctl : List (List Byte)
  /-- Lookup responses ready (01 R23) -/
  resp : List (List Byte)
  /-- The ingress queue whose head packet the ingress scheduler has picked and whose record has not begun (10 R276) -/
  pkt : Option Nat
  /-- The ingress queue that still holds the packet whose record is being sent (10 R262) -/
  txQueue : Option Nat
  /-- PACKET records not wholly acknowledged (09 R242) -/
  sent : List Sent
  /-- The last flit put on the pairs (09 R230) -/
  lastFlit : List Byte
  /-- The partner's LIMIT of each pool (09 R243) -/
  limit : Map (BitVec 32)
  /-- CONSUMED of each pool (09 R244) -/
  used : Map (BitVec 32)
  /-- A CREDIT record has been received since protocol start (09 R255) -/
  credSeen : Bool
  /-- The LIMIT of pool 0 last advertised (09 R245) -/
  adv : BitVec 32
  /-- Credits that arrivals have consumed (10 R278) -/
  arrived : BitVec 32
  /-- Credits returned (09 R245) -/
  freed : BitVec 32
  /-- Pools in a stall episode (09 R246) -/
  stalls : List Nat
  /-- DROP_CREDIT_VIOLATION (10 R281) -/
  violations : Ctr
  /-- When GARNET_CREDIT_VIOLATION was last posted (10 R278) -/
  violAt : Option Nat
  /-- Lookups in flight by tag (12 R312) -/
  lookups : Map Lookup
  /-- Tags in the input queue, oldest first (12 R310) -/
  inq : List Nat
  /-- The pair of this end's open proposal (09 R247) -/
  propose : Option Nat
  /-- When the last sleep entry began (08 R208) -/
  sleepAt : Option Nat
  /-- Deficits of the ingress scheduler by class × 256 + port (10 R276) -/
  drr : Map Nat
  /-- For each class, the port whose turn it is (10 R276) -/
  drrNext : Map Nat
  /-- The last outer frame sent, or returned in FAR (09 R254) -/
  lastOuter : List Byte
  /-- The 18 counters of Table 9.19, in row order (09 Table 9.19) -/
  ctr : Map Ctr
deriving DecidableEq, Repr

/-- Link at reset. -/
def Link.init : Link where
  set := LinkSet.init
  pairs := []
  up := false
  proto := []
  accepted := []
  lpi := false
  peerMin := 1
  test := 0
  running := false
  heard := false
  ending := none
  idleSeq := none
  stdFault := false
  e := 0
  nakWait := false
  ahead := []
  part := []
  skip := false
  recs := []
  a := 0
  next := 0
  replay := []
  resend := []
  replays := 0
  replayAt := none
  txPart := []
  txPkt := false
  txTrace := none
  txAccept := none
  ctl := []
  resp := []
  pkt := none
  txQueue := none
  sent := []
  lastFlit := []
  limit := []
  used := []
  credSeen := false
  adv := 0
  arrived := 0
  freed := 0
  stalls := []
  violations := Ctr.init
  violAt := none
  lookups := []
  inq := []
  propose := none
  sleepAt := none
  drr := []
  drrNext := []
  lastOuter := []
  ctr := []

/-- The Garnet links, and the Geode link as link 128 -/
structure Garnet where
  /-- GAR_MODE (08 Table 8.2, 03 R79) -/
  mode : Nat
  /-- HASH_SEED (09 Table 9.17) -/
  hashSeed : BitVec 32
  /-- STD_ETHERTYPE (09 Table 9.17) -/
  etherType : BitVec 16
  /-- STD_FE_MAC (09 Table 9.17) -/
  feMac : BitVec 48
  /-- STD_DEV_MAC (09 Table 9.17) -/
  devMac : BitVec 48
  /-- Links that differ from Link.init (01 R20) -/
  links : Map Link
  /-- The link a pipeline took a request from last (12 R310) -/
  rrLink : Nat
deriving DecidableEq, Repr

/-- Garnet at reset. -/
def Garnet.init : Garnet where
  mode := 0
  hashSeed := 0
  etherType := 0x88B5
  feMac := 0x020000000001
  devMac := 0x020000000000
  links := []
  rrLink := 0

/-- Where a cell of a packet placed in HBM is: in the spill staging, in HBM, asked for, or in the prefetch area (R264, R266) -/
inductive CellSt where
  | staged | hbm | requested | ready
deriving DecidableEq, Repr

/-- A packet in the buffer (R257) -/
structure Pkt where
  /-- The frame, destination address through FCS (10 R257) -/
  bytes : List Byte
  /-- It is placed in HBM (10 R263) -/
  spill : Bool
  /-- Its cells in HBM, in order (10 R266) -/
  cells : List CellSt
  /-- The number of its first HBM cell among those its queue has placed (10 R258) -/
  firstCell : Nat
  /-- On-die cells charged to the direction's reserve (10 R269) -/
  res : Nat
  /-- On-die cells charged to the shared pool (10 R269) -/
  shr : Nat
  /-- The on-die cells that hold it, in order (10 R257) -/
  odCells : List Nat
  /-- When it was admitted (09 R246) -/
  since : Nat
  /-- Its card header: as sent to the FE, or as received from it (09 R248, R249) -/
  header : List Byte
  /-- FCS_BAD (09 R248) -/
  badFcs : Bool
  /-- A cell of it has been prefetched uncorrectable (13 R337) -/
  poison : Bool
  /-- Its trace (21 R519) -/
  trace : Option Trace
deriving DecidableEq, Repr

/-- Pkt at reset. -/
def Pkt.init : Pkt where
  bytes := []
  spill := false
  cells := []
  firstCell := 0
  res := 0
  shr := 0
  odCells := []
  since := 0
  header := []
  badFcs := false
  poison := false
  trace := none

/-- An HBM page of a queue (R258) -/
structure Page where
  /-- The number of its first cell (10 R258) -/
  first : Nat
  /-- Its cells written, 16 when closed (10 R258) -/
  count : Nat
  /-- It is the queue's open page (10 R258) -/
  opened : Bool
  /-- Its number k among the pages of the buffer partition (13 R327) -/
  num : Option Nat
deriving DecidableEq, Repr

/-- Page at reset. -/
def Page.init : Page where
  first := 0
  count := 0
  opened := true
  num := none

/-- An ingress or egress queue (R261, R262) -/
structure Queue where
  /-- Its admission profile (10 R261) -/
  prof : Nat
  /-- Its packets in admission order (10 R266) -/
  pkts : List Pkt
  /-- Its HBM pages, oldest first (10 R258) -/
  pages : List Page
  /-- HBM cells placed so far (10 R258) -/
  placed : Nat
  /-- The average A as numerator and power of two (10 R272) -/
  avg : Nat × Nat
  /-- When it last became empty (10 R272) -/
  emptyAt : Nat
  /-- PASS_PACKETS, PASS_OCTETS, DROP_PACKETS, DROP_OCTETS (21 Table 21.1) -/
  ctr : Map Ctr
deriving DecidableEq, Repr

/-- Queue at reset. -/
def Queue.init : Queue where
  prof := 0
  pkts := []
  pages := []
  placed := 0
  avg := (0, 0)
  emptyAt := 0
  ctr := []

/-- An admission profile (Table 10.3) -/
structure Profile where
  /-- QMIN (10 Table 10.3) -/
  qmin : Nat
  /-- QMAX (10 Table 10.3) -/
  qmax : Nat
  /-- ALPHA (10 Table 10.3) -/
  alpha : Nat
  /-- OD_THRESH (10 Table 10.3) -/
  odThresh : Nat
  /-- SPILL (10 Table 10.3) -/
  spill : Bool
  /-- WRED_SEL (10 Table 10.3) -/
  wred : Nat
  /-- ECN_EN (10 Table 10.3) -/
  ecn : Bool
deriving DecidableEq, Repr

/-- Profile at reset. -/
def Profile.init : Profile where
  qmin := 0
  qmax := 0x10000
  alpha := 7
  odThresh := 0x400
  spill := true
  wred := 0
  ecn := false

/-- A WRED profile (Table 10.5) -/
structure Wred where
  /-- W (10 Table 10.5) -/
  w : Nat
  /-- MIN_FRAC, MAX_FRAC and MAX_PROB of green, yellow and red (10 Table 10.5) -/
  curves : List (Nat × Nat × Nat)
deriving DecidableEq, Repr

/-- Wred at reset. -/
def Wred.init : Wred where
  w := 9
  curves := [(0xC0, 0xFF, 0x20), (0x80, 0xE0, 0x20), (0x40, 0xA0, 0x20)]

/-- A port's classification settings (Table 10.6) -/
structure Classify where
  /-- TRUST (10 Table 10.6) -/
  trust : Nat
  /-- DEF_CLASS (10 Table 10.6) -/
  cls : Nat
  /-- DEF_COLOUR (10 Table 10.6) -/
  colour : Nat
  /-- MAP[0] to MAP[63] (10 Table 10.6) -/
  map : List Nat
deriving DecidableEq, Repr

/-- Classify at reset. -/
def Classify.init : Classify where
  trust := 1
  cls := 0
  colour := 0
  map := (List.range 64).map (fun i => i / 2 % 8 * 4 + i % 2)

/-- The packet buffer and admission -/
structure Buffer where
  /-- ING_RESERVE (10 Table 10.2) -/
  ingReserve : Nat
  /-- EGR_LANDING (10 Table 10.2) -/
  egrLanding : Nat
  /-- EGR_MIN_POOL (10 Table 10.2) -/
  egrMinPool : Nat
  /-- ONDIE_HWM (10 Table 10.2) -/
  hwm : Nat
  /-- SPILL_EN (10 Table 10.2) -/
  spillEn : Bool
  /-- Admission profiles that differ from Profile.init; AP0 has QMIN 16 (10 R261) -/
  profiles : Map Profile
  /-- WP0 to WP2 that differ from Wred.init (10 R272) -/
  wred : Map Wred
  /-- Ports whose classification differs from Classify.init (10 R274) -/
  classify : Map Classify
  /-- Ingress queues that exist (10 R261) -/
  iq : Map Queue
  /-- Egress queues that exist (10 R261) -/
  eq : Map Queue
  /-- The nine causes by port × 2 + direction, in row order (10 Table 10.9) -/
  causes : Map (Map Ctr)
  /-- On-die cells withdrawn (CELLS_WITHDRAWN) (13 R341) -/
  cellsOut : Nat
  /-- Pages withdrawn (PAGES_WITHDRAWN counts those of each stack) (13 R344) -/
  pagesOut : List Nat
  /-- A POWER_STATE to QUIESCE drains the queues (19 R478) -/
  drain : Bool
deriving DecidableEq, Repr

/-- Buffer at reset. -/
def Buffer.init : Buffer where
  ingReserve := 0x20
  egrLanding := 0x40
  egrMinPool := 0x40
  hwm := 0x300
  spillEn := true
  profiles := [(0, { Profile.init with qmin := 16 })]
  wred := []
  classify := []
  iq := []
  eq := []
  causes := []
  cellsOut := 0
  pagesOut := []
  drain := false

/-- A channel, group, subscriber or queue node (Table 11.2) -/
structure Node where
  /-- PARENT (11 Table 11.2) -/
  parent : Nat
  /-- PRIO (11 Table 11.2) -/
  prio : Nat
  /-- WEIGHT (11 Table 11.2) -/
  weight : Nat
  /-- CIR (11 Table 11.2) -/
  cir : Nat
  /-- PIR (11 Table 11.2) -/
  pir : Nat
  /-- CBS (11 Table 11.2) -/
  cbs : Nat
  /-- PBS (11 Table 11.2) -/
  pbs : Nat
  /-- OVERHEAD (11 Table 11.2) -/
  overhead : Int
  /-- The CIR bucket in 10^-6 byte; full at creation (11 R288) -/
  cTok : Int
  /-- The PIR bucket in 10^-6 byte; full at creation (11 R288) -/
  pTok : Int
  /-- When the buckets were last brought up to date (11 R288) -/
  filledAt : Nat
  /-- F of this node in its parent, by band × 8 + priority (11 R292) -/
  tags : Map Frac
  /-- V of this node for its children, by band × 8 + priority (11 R292) -/
  virt : Map Frac
deriving DecidableEq, Repr

/-- Node at reset. -/
def Node.init : Node where
  parent := 0
  prio := 0
  weight := 1
  cir := 0
  pir := 0
  cbs := 0x100
  pbs := 0x100
  overhead := 20
  cTok := 0x100 * 64 * 1000000
  pTok := 0x100 * 64 * 1000000
  filledAt := 0
  tags := []
  virt := []

/-- The frame that a port's scheduler has chosen (R293) -/
structure Chosen where
  /-- Its egress queue (11 R291) -/
  eq : Nat
  /-- The nodes it leaves through, from the channel down, and whether each was chosen in the committed band (11 R289) -/
  path : List (Nat × Bool)
deriving DecidableEq, Repr

/-- Chosen at reset. -/
def Chosen.init : Chosen where
  eq := 0
  path := []

/-- The egress scheduler -/
structure Sched where
  /-- Nodes that exist, by their TARGET of Table 16.3 (11 R284) -/
  nodes : Map Node
  /-- V of the port nodes (11 R292) -/
  portVirt : Map (Map Frac)
  /-- For each port, the frame chosen and not yet started (11 R293) -/
  chosen : Map Chosen
deriving DecidableEq, Repr

/-- Sched at reset. -/
def Sched.init : Sched where
  nodes := []
  portVirt := []
  chosen := []

/-- An update staged under a handle (R316, R426) -/
structure Update where
  /-- Its table (12 R316) -/
  table : Nat
  /-- 0 INSERT, 1 MODIFY, 2 DELETE, 3 WRITE (16 Table 16.5) -/
  op : Nat
  /-- Its entry (16 Table 16.5) -/
  entry : Entry
deriving DecidableEq, Repr

/-- Update at reset. -/
def Update.init : Update where
  table := 0
  op := 0
  entry := Entry.init

/-- An open epoch handle (R317) -/
structure Handle where
  /-- When it was opened (16 R427) -/
  since : Nat
  /-- Its staged updates, oldest first (12 R317) -/
  staged : List Update
  /-- Its commit has executed and has not switched (12 R318) -/
  committing : Bool
deriving DecidableEq, Repr

/-- Handle at reset. -/
def Handle.init : Handle where
  since := 0
  staged := []
  committing := false

/-- A commit that has executed and not switched (R319, R322) -/
structure Commit where
  /-- The command in flight that completes after the switch (12 R317) -/
  cmd : Nat
  /-- Its handle, 0 for the command epoch (12 R317) -/
  handle : Nat
  /-- The updates it switches (12 R319) -/
  updates : List Update
  /-- The status the command completes with (12 R318) -/
  status : Status
  /-- Entries staged, for RESULT0 of an update under handle 0 (16 R426) -/
  staged : Nat
deriving DecidableEq, Repr

/-- Commit at reset. -/
def Commit.init : Commit where
  cmd := 0
  handle := 0
  updates := []
  status := Status.success
  staged := 0

/-- A deleted table whose storage is not yet free (R322) -/
structure Gone where
  /-- Its number (12 R322) -/
  table : Nat
  /-- Its banks (12 R322) -/
  banks : List Nat
  /-- Its blocks (12 R322) -/
  blocks : List Nat
  /-- Locations for which TABLE_POISON has been posted (12 R314) -/
  posted : List (Nat × Nat)
deriving DecidableEq, Repr

/-- Gone at reset. -/
def Gone.init : Gone where
  table := 0
  banks := []
  blocks := []
  posted := []

/-- The table engine -/
structure Tables where
  /-- Tables that exist, by number (12 R305) -/
  tables : Map Table
  /-- Deleted tables whose storage is not yet free, by deletion (12 R322) -/
  gone : Map Gone
  /-- The number of the next deletion (12 R322) -/
  goneNext : Nat
  /-- Open handles 1-16 (12 R317) -/
  handles : Map Handle
  /-- The epoch number (12 R319) -/
  epoch : BitVec 64
  /-- Commits that have executed and not switched, oldest first (12 R319) -/
  commits : List Commit
  /-- The TABLE_LOOKUP commands executing, by their id: at most 64 (12 R312) -/
  diag : Map Lookup
  /-- Those that no pipeline has taken, oldest first (12 R310, R312) -/
  diagQueue : List Nat
  /-- LOOKUP_NO_TABLE (12 R324) -/
  noTable : Ctr
deriving DecidableEq, Repr

/-- Tables at reset. -/
def Tables.init : Tables where
  tables := []
  gone := []
  goneNext := 0
  handles := []
  epoch := 0
  commits := []
  diag := []
  diagQueue := []
  noTable := Ctr.init

/-- A request in an HBM channel queue (R347) -/
structure Req where
  /-- Its class c (13 Table 13.6) -/
  cls : Nat
  /-- Its bank (13 R347) -/
  bank : Nat
  /-- Its deadline in ns (13 R347) -/
  deadline : Nat
  /-- When it was stamped (13 R348) -/
  entered : Nat
  /-- It has been counted in ARB_OVERDUE (13 R348) -/
  overdue : Bool
  /-- The requester's name for it (13 R349) -/
  id : Nat
deriving DecidableEq, Repr

/-- Req at reset. -/
def Req.init : Req where
  cls := 0
  bank := 0
  deadline := 0
  entered := 0
  overdue := false
  id := 0

/-- An HBM channel (R325, R345, R347) -/
structure Channel where
  /-- Its queue, oldest first, at most 256 (13 R347) -/
  queue : List Req
  /-- Requests that wait outside a full queue (13 R347) -/
  waiting : List Req
  /-- The request granted in the last slot (13 R349) -/
  issued : Option Req
  /-- Consecutive retrain rejections (13 R345) -/
  rejects : Nat
  /-- A retrain is deferred (13 R345) -/
  due : Bool
  /-- RETRAIN_COUNT (13 Table 13.7) -/
  retrains : Ctr
  /-- RETRAIN_REJECT (13 Table 13.7) -/
  rejected : Ctr
deriving DecidableEq, Repr

/-- Channel at reset. -/
def Channel.init : Channel where
  queue := []
  waiting := []
  issued := none
  rejects := 0
  due := false
  retrains := Ctr.init
  rejected := Ctr.init

/-- A memory region (Table 16.7) -/
structure Region where
  /-- Its bytes, every byte not listed zero (03 R76) -/
  cells : List Host.Cell
  /-- Its words or units that were written poisoned, rising (13 R332) -/
  bad : List Nat
  /-- CE_COUNT, UE_COUNT, MERGE_CORRECTED, POISON_WRITES, SCRUB_PASSES, SCRUB_LATE (13 Table 13.7) -/
  ctr : Map Ctr
  /-- The next word of the scrubber's pass (13 R339) -/
  scrub : Nat
  /-- When the pass began (13 R339) -/
  passAt : Nat
  /-- Corrected errors of this clock hour (13 R340) -/
  ceHour : Nat
  /-- Above the limit: hours at or below it since (13 R340) -/
  overAt : Option Nat
  /-- Packets or tables have been stored in it, so that its bytes are free values (16 R434) -/
  mixed : Bool
deriving DecidableEq, Repr

/-- Region at reset. -/
def Region.init : Region where
  cells := []
  bad := []
  ctr := []
  scrub := 0
  passAt := 0
  ceHour := 0
  overAt := none
  mixed := false

/-- An HBM unit that has read with an error (R342) -/
structure RowErr where
  /-- Its device-wide index (13 R342) -/
  unit : Nat
  /-- When it last did (13 R342) -/
  time : Nat
  /-- It has read uncorrectable (13 R342) -/
  bad : Bool
deriving DecidableEq, Repr

/-- RowErr at reset. -/
def RowErr.init : RowErr where
  unit := 0
  time := 0
  bad := false

/-- An HBM stack's repair and arbiter state (R342 to R349) -/
structure Stack where
  /-- SOFT_REPAIRS (13 Table 13.7) -/
  soft : Ctr
  /-- HARD_REPAIRS (13 Table 13.7) -/
  hard : Ctr
  /-- DEAD_SLOTS (13 Table 13.7) -/
  dead : Ctr
  /-- ARB_OVERDUE of each class (13 Table 13.7) -/
  overdue : Map Ctr
  /-- Repair resources reported at training, 0 before (13 R344) -/
  resources : Nat
  /-- When the last soft repair was performed (13 R342) -/
  repairAt : Option Nat
  /-- The rows (channel, bank, row) whose soft repair is in force in the stack since its last training (13 R342) -/
  inForce : List (Nat × Nat × Nat)
  /-- Units that have read with an error and whose row is not yet repaired (13 R342) -/
  errs : List RowErr
deriving DecidableEq, Repr

/-- Stack at reset. -/
def Stack.init : Stack where
  soft := Ctr.init
  hard := Ctr.init
  dead := Ctr.init
  overdue := []
  resources := 0
  repairAt := none
  inForce := []
  errs := []

/-- The memories, the scrubbers, repair and the arbiter -/
structure Mem where
  /-- TABLE_PART in force (13 Table 13.2) -/
  part : Nat
  /-- TABLE_PART accepted; in force once every stack has INIT_DONE (13 Table 13.8) -/
  partNext : Nat
  /-- SCRUB_OD (13 Table 13.2) -/
  scrubOd : Nat
  /-- SCRUB_HBM (13 Table 13.2) -/
  scrubHbm : Nat
  /-- CE_LIMIT_OD (13 Table 13.2) -/
  ceOd : Nat
  /-- CE_LIMIT_HBM (13 Table 13.2) -/
  ceHbm : Nat
  /-- BUDGET[0] to BUDGET[6] in ns (13 Table 13.6) -/
  budget : List Nat
  /-- Regions 0-68 of Table 16.7, and 69 the buffer descriptor memory and 70 the control-processor memories of ONDIE_BUF, that differ from Region.init (13 Table 13.1) -/
  regions : Map Region
  /-- Channels that differ from Channel.init, by stack × 32 + channel (13 R325) -/
  channels : Map Channel
  /-- Stacks that differ from Stack.init (13 R344) -/
  hbmStacks : Map Stack
  /-- The spare rows of on-die banks switched in at this power-up, from the fuse map: region, bank and row (13 R341) -/
  spares : List (Nat × Nat × Nat)
  /-- For each on-die buffer cell, after how many different writes of its data it has read uncorrectable (13 R341) -/
  cellUe : Map Nat
  /-- On-die buffer cells that have read uncorrectable since their data was last written (13 R341) -/
  cellSeen : List Nat
deriving DecidableEq, Repr

/-- Mem at reset. -/
def Mem.init : Mem where
  part := 8
  partNext := 8
  scrubOd := 1
  scrubHbm := 0x18
  ceOd := 0x10
  ceHbm := 0x100
  budget := [400, 600, 800, 1000, 5000, 20000, 1000000]
  regions := []
  channels := []
  hbmStacks := []
  spares := []
  cellUe := []
  cellSeen := []

/-- A profiling counter (R517) -/
structure Prof where
  /-- Its value (21 R517) -/
  val : BitVec 64
  /-- Its event-bus code (21 R517) -/
  code : Nat
  /-- ENABLE (21 R517) -/
  on : Bool
deriving DecidableEq, Repr

/-- Prof at reset. -/
def Prof.init : Prof where
  val := 0
  code := 0
  on := false

/-- The bandwidth window of a port number (R518) -/
structure Bw where
  /-- W in us (21 R518) -/
  w : Nat
  /-- When the window in progress began (21 R518) -/
  began : Nat
  /-- The port has existed throughout the window in progress (21 R518) -/
  existed : Bool
  /-- Received bits of the window in progress, by its 100 us interval (21 R518) -/
  rx : Map Nat
  /-- Transmitted bits of the window in progress, by its 100 us interval (21 R518) -/
  tx : Map Nat
  /-- Receive and transmit rate of the last complete window in Mb/s (21 R518) -/
  rates : Nat × Nat
  /-- Peaks of that window in Mb/s (21 R518) -/
  peaks : Nat × Nat
deriving DecidableEq, Repr

/-- Bw at reset. -/
def Bw.init : Bw where
  w := 1000000
  began := 0
  existed := false
  rx := []
  tx := []
  rates := (0, 0)
  peaks := (0, 0)

/-- A snapshot in progress (R513 to R516) -/
structure SnapRun where
  /-- The SNAPSHOT in flight that it serves, none for a periodic one (16 R438) -/
  cmd : Option Nat
  /-- CLEAR_WRAP (16 R438) -/
  clear : Bool
  /-- It is copied by DMA (21 R516) -/
  dma : Bool
  /-- START_SEC (21 R514) -/
  sec : BitVec 64
  /-- START_NS (21 R514) -/
  ns : Nat
  /-- The clock ran when it began (21 R514) -/
  clock : Bool
deriving DecidableEq, Repr

/-- SnapRun at reset. -/
def SnapRun.init : SnapRun where
  cmd := none
  clear := false
  dma := false
  sec := 0
  ns := 0
  clock := false

/-- The times of the last complete snapshot (Table 21.3) -/
structure SnapHead where
  /-- START_SEC (21 R514) -/
  startSec : BitVec 64
  /-- START_NS (21 R514) -/
  startNs : Nat
  /-- END_SEC, and CAP_SEC of every block (21 R514) -/
  endSec : BitVec 64
  /-- END_NS, and CAP_NS of every block (21 R514) -/
  endNs : Nat
  /-- CAP_FRAC of every block (21 R514) -/
  capFrac : Nat
  /-- FLAGS [0] (21 R514) -/
  clock : Bool
deriving DecidableEq, Repr

/-- SnapHead at reset. -/
def SnapHead.init : SnapHead where
  startSec := 0
  startNs := 0
  endSec := 0
  endNs := 0
  capFrac := 0
  clock := false

/-- Snapshots, profiling, bandwidth and Mica trace -/
structure Obs where
  /-- The time base at FW_READY, from which the cycle counter runs (21 R517) -/
  cycles : Nat
  /-- Programmable counters 0-7 (21 R517) -/
  prof : Map Prof
  /-- Bandwidth windows that differ from Bw.init (21 R518) -/
  bw : Map Bw
  /-- k_p of each port with one (21 R519) -/
  traceK : Map Nat
  /-- The trace ring: base and DEPTH (21 R521) -/
  ring : Option (Nat × Nat)
  /-- Write index of the trace ring (21 R521, 22 R531) -/
  trIndex : Nat
  /-- The last TRACE_HEAD accepted (22 R531) -/
  trHead : Nat
  /-- Phase of the next record (21 R521) -/
  trPhase : Bool
  /-- SEQ of the next record (21 R521) -/
  trSeq : Nat
  /-- Records admitted at once, in 10^-3, and when they were last refilled (21 R521) -/
  trTokens : Nat × Nat
  /-- TRACE_WRITTEN (21 Table 21.2) -/
  trWritten : Ctr
  /-- TRACE_LOST (21 Table 21.2) -/
  trLost : Ctr
  /-- Records lost since the last TRACE_OVERFLOW (21 R521) -/
  trUnposted : Nat
  /-- When TRACE_OVERFLOW was last posted (21 R521) -/
  trPostAt : Option Nat
  /-- SEQ_STARTED (21 R514) -/
  snapSeq : Nat
  /-- SEQ_DONE (21 R514) -/
  snapDone : Nat
  /-- The snapshot in progress (21 R513) -/
  snapRun : Option SnapRun
  /-- SNAPSHOT commands that wait for the one in progress, oldest first: fetch number, CLEAR_WRAP, DMA (16 R438) -/
  snapWait : List (Nat × Bool × Bool)
  /-- The counters of the last snapshot that are not zero, by block and position (21 R514) -/
  snapImage : Map (Map (BitVec 64))
  /-- Its times (21 R514) -/
  snapHead : SnapHead
  /-- The SNAPSHOT_SET address (16 R438) -/
  snapAddr : Nat
  /-- PERIOD in ms (21 R516) -/
  snapPeriod : Nat
  /-- SNAPSHOT_SKIPPED (21 R516) -/
  skipped : Ctr
  /-- SNAPSHOT_DMA_BLOCKED (21 R516) -/
  blocked : Ctr
  /-- TRIGGER_OVERRUN (20 R510) -/
  overrun : Ctr
  /-- Auxiliary sequences completed (20 R510) -/
  adcDone : Ctr
deriving DecidableEq, Repr

/-- Obs at reset. -/
def Obs.init : Obs where
  cycles := 0
  prof := []
  bw := []
  traceK := []
  ring := none
  trIndex := 0
  trHead := 0
  trPhase := true
  trSeq := 0
  trTokens := (1024 * 1000, 0)
  trWritten := Ctr.init
  trLost := Ctr.init
  trUnposted := 0
  trPostAt := none
  snapSeq := 0
  snapDone := 0
  snapRun := none
  snapWait := []
  snapImage := []
  snapHead := SnapHead.init
  snapAddr := 0
  snapPeriod := 0
  skipped := Ctr.init
  blocked := Ctr.init
  overrun := Ctr.init
  adcDone := Ctr.init

/-- The servo states of Table 17.1 -/
inductive Servo where
  | off | tracking | freeRun
deriving DecidableEq, Repr

/-- An exact number num / 2^exp -/
structure Dyad where
  /-- The numerator (17 R448) -/
  num : Int
  /-- The power of two of the denominator (17 R448) -/
  exp : Nat
deriving DecidableEq, Repr

/-- Dyad at reset. -/
def Dyad.init : Dyad where
  num := 0
  exp := 0

/-- The time unit -/
structure Tim where
  /-- The time block is on (22 R533) -/
  blockOn : Bool
  /-- The hardware clock runs (17 R446) -/
  running : Bool
  /-- SECONDS (17 R445) -/
  sec : BitVec 64
  /-- NANOSECONDS, 0 to 999,999,999 (17 R445) -/
  ns : Nat
  /-- FRACTION in 2^-32 ns, below 2^32 (17 R445) -/
  frac : Nat
  /-- What the advance leaves below the fraction's unit (17 R445) -/
  rem : Frac
  /-- f in ppb (17 R448, R449) -/
  f : Dyad
  /-- i in ppb (17 R448, R449) -/
  i : Dyad
  /-- f_avg in ppb (17 R448, R449) -/
  favg : Dyad
  /-- KP in 2^-24 ppb per ns (17 R448) -/
  kp : Nat
  /-- KI in 2^-24 ppb per ns (17 R448) -/
  ki : Nat
  /-- ENABLE of the last SERVO_SET (17 R449) -/
  enable : Bool
  /-- The servo's state (17 R449) -/
  servo : Servo
  /-- TIME_PINS enables: 0 PPS_IN, 1 PPS_OUT0, 2 PPS_OUT1, 3 SYNCE0, 4 SYNCE1 (17 R456, 02 R42) -/
  pins : BitVec 5
  /-- PPS_OUT pulse width in us (16 Table 16.6) -/
  width : Nat
  /-- PPS_OUT0 and PPS_OUT1 are high (17 R456) -/
  ppsOut : BitVec 2
  /-- Source lane of SYNCE0 (17 R458) -/
  src0 : Nat
  /-- Source lane of SYNCE1 (17 R458) -/
  src1 : Nat
  /-- SyncE outputs out of squelch (17 R458) -/
  synceOn : BitVec 2
  /-- The time base at the last accepted PPS_IN edge (17 R457) -/
  ppsAt : Option Nat
  /-- The clock at the last accepted edge, in ns (17 R457) -/
  ppsClock : Option Nat
  /-- PPS_IN is present (17 R457) -/
  ppsHere : Bool
  /-- Unread capture records, oldest first, at most 4,096 (16 R430, 17 R455) -/
  caps : List (List Byte)
  /-- Records lost since the last TS_CAPTURE_READ (16 R430) -/
  capsLost : Nat
deriving DecidableEq, Repr

/-- Tim at reset. -/
def Tim.init : Tim where
  blockOn := false
  running := false
  sec := 0
  ns := 0
  frac := 0
  rem := ⟨0, 0⟩
  f := Dyad.init
  i := Dyad.init
  favg := Dyad.init
  kp := 0
  ki := 0
  enable := false
  servo := Servo.off
  pins := 0
  width := 0
  ppsOut := 0
  src0 := 0
  src1 := 0
  synceOn := 0
  ppsAt := none
  ppsClock := none
  ppsHere := false
  caps := []
  capsLost := 0

/-- What the peer reported in its last HELLO (Table 18.2) -/
structure Hello where
  /-- ROLE: 0 none, 1 primary, 2 secondary (18 Table 18.2) -/
  role : Nat
  /-- HEALTH (18 Table 18.2) -/
  health : Nat
  /-- SWITCH_ON_LINK_LOSS (18 Table 18.2) -/
  sll : Bool
  /-- IN_SYNC (18 Table 18.2) -/
  inSync : Bool
  /-- CONFIG_SEQ (18 Table 18.2) -/
  seq : BitVec 32
  /-- The last epoch (18 Table 18.2) -/
  epoch : BitVec 64
  /-- Device Serial Number (18 Table 18.2) -/
  serial : BitVec 64
deriving DecidableEq, Repr

/-- Hello at reset. -/
def Hello.init : Hello where
  role := 0
  health := 0
  sll := false
  inSync := false
  seq := 0
  epoch := 0
  serial := 0

/-- An epoch being received from the primary (R470) -/
structure EpochIn where
  /-- Its number (18 Table 18.2) -/
  num : Nat
  /-- FULL (18 Table 18.2) -/
  full : Bool
  /-- COUNT (18 Table 18.2) -/
  count : Nat
  /-- The entries received, oldest first (18 Table 18.2) -/
  updates : List Update
  /-- Its EPOCH_END has come and its switch is deferred by a brownout (18 R470) -/
  ended : Bool
deriving DecidableEq, Repr

/-- EpochIn at reset. -/
def EpochIn.init : EpochIn where
  num := 0
  full := false
  count := 0
  updates := []
  ended := false

/-- A switchover that takes the panel away from this device (R473) -/
structure GeoOut where
  /-- 1 command, 2 FAILED (18 R473) -/
  cause : Nat
  /-- The GEODE_SWITCHOVER in flight (18 R473) -/
  cmd : Option Nat
  /-- A GEODE_ROLE proposal waits for it (18 R466) -/
  item : Bool
  /-- The role that follows (18 R466) -/
  role : Nat
  /-- DARK has been sent (18 R473) -/
  dark : Bool
deriving DecidableEq, Repr

/-- GeoOut at reset. -/
def GeoOut.init : GeoOut where
  cause := 0
  cmd := none
  item := false
  role := 2
  dark := false

/-- A switchover that gives the panel to this device (R473 to R475) -/
structure GeoIn where
  /-- 1 command, 2 peer FAILED, 3 link loss (18 R473) -/
  cause : Nat
  /-- DARK has been received (18 R473) -/
  dark : Bool
  /-- The link was lost after HANDOVER, or the takeover is by link loss (18 R475) -/
  lost : Bool
  /-- Its ramp up has begun (18 R473) -/
  ramping : Bool
deriving DecidableEq, Repr

/-- GeoIn at reset. -/
def GeoIn.init : GeoIn where
  cause := 0
  dark := false
  lost := false
  ramping := false

/-- The Geode controller -/
structure Geode where
  /-- A stored primary that has restarted acts as secondary until the link is up (18 Table 18.1) -/
  blind : Bool
  /-- The peer as reported in its last HELLO since the link came up (18 R466) -/
  peer : Option Hello
  /-- CONFIG_SEQ: the last CONFIG sent or applied (18 R468) -/
  seq : BitVec 32
  /-- A CONFIG of this resync has given CONFIG_SEQ its base (18 R470) -/
  seqKnown : Bool
  /-- IN_SYNC of this device (18 R476) -/
  inSync : Bool
  /-- The FULL epoch of a resync is awaited (18 R476) -/
  resync : Bool
  /-- Mirror records not yet sent: 0 CONFIG, 1 of an epoch, 2 HANDOVER; its number; the record (18 R469) -/
  hold : List (Nat × Nat × List Byte)
  /-- Mirror records sent and not acknowledged: kind, number, length (18 R469) -/
  unacked : List (Nat × Nat × Nat)
  /-- The epoch being received (18 R470) -/
  epochIn : Option EpochIn
  /-- A switchover under way, on the old primary (18 R473) -/
  out : Option GeoOut
  /-- A switchover under way, on the new primary (18 R473) -/
  inn : Option GeoIn
  /-- The cause of the last switchover: 0 none, 1 command, 2 peer FAILED, 3 link loss (16 R437) -/
  cause : Nat
  /-- The last epoch number mirrored (16 R437) -/
  mirrored : BitVec 64
  /-- The primary has run the resync that this link-up, or the last IN_SYNC 0, asks for (18 R476) -/
  resynced : Bool
  /-- When the outstanding ECHO_REQ was sent (18 R471) -/
  echoAt : Option Nat
  /-- The one-way delay in ns (18 R471) -/
  oneWay : Nat
  /-- The clock has been set from a TIME record since the link came up (18 R471) -/
  timeSet : Bool
  /-- When the Geode link went down with SWITCH_ON_LINK_LOSS set at the secondary (18 R474) -/
  lossSince : Option Nat
  /-- The link has come up and its loss has not yet been acted on (18 R474) -/
  wasUp : Bool
deriving DecidableEq, Repr

/-- Geode at reset. -/
def Geode.init : Geode where
  blind := false
  peer := none
  seq := 0
  seqKnown := false
  inSync := false
  resync := false
  hold := []
  unacked := []
  epochIn := none
  out := none
  inn := none
  cause := 0
  mirrored := 0
  resynced := false
  echoAt := none
  oneWay := 0
  timeSet := false
  lossSince := none
  wasUp := false

/-- The auxiliary ADC (R509, R510) -/
structure Adc where
  /-- Channel mask set by AUXADC_SEQ; 0 means no sequence is set (20 R510) -/
  mask : Nat
  /-- SOURCE: 0 command, 1 periodic, 2 PPS_IN (16 R442) -/
  source : Nat
  /-- PERIOD in us (16 R442) -/
  period : Nat
  /-- When the PERIOD timer was last restarted (20 R510) -/
  periodFrom : Nat
  /-- The mask of the sequence that runs, 0 for none (20 R510) -/
  run : Nat
  /-- A trigger is latched (20 R510) -/
  latched : Bool
  /-- The last code of each channel, absent is zero (20 R510) -/
  codes : Map Nat
deriving DecidableEq, Repr

/-- Adc at reset. -/
def Adc.init : Adc where
  mask := 0
  source := 0
  period := 0
  periodFrom := 0
  run := 0
  latched := false
  codes := []

/-- The whole state of the block: the waiting commands, and every piece of state the spec gives the device. -/
structure State where
  /-- The commands that wait, first in, first out (the row's cut: a block takes commands). -/
  pending : List Instr
  /-- The model's time base in ns (log 1). -/
  now : Nat
  /-- The model's own counter that the free values are applied to (log 9). -/
  free : Nat
  /-- What the device has written to host memory, oldest first: address and bytes (log 8). -/
  hostLog : List (Nat × List Byte)
  /-- The error log of the Bedrock domain -/
  elog : Elog
  /-- The Bedrock domain: supplies, clocks, resets and AVSBus -/
  bed : Bed
  /-- The health state -/
  health : Health
  /-- Board OTP and the factory fuses written in the field; kept through every reset -/
  otp : Otp
  /-- The guard of the Bedrock domain and the guarded items in force -/
  guard : Guard
  /-- The management port -/
  mgmt : Mgmt
  /-- The auxiliary DACs; kept through PERST_N, core reset and RETAIN -/
  dac : DacBank
  /-- Factory fuses of the part; no command changes them -/
  fuse : Fuse
  /-- The repair lists of the Bedrock domain; kept through PERST_N, core reset and RETAIN -/
  rep : Repair
  /-- Start-up, ready flags, device state -/
  boot : Boot
  /-- Host-interface registers that a host-interface reset keeps -/
  hreg : Hreg
  /-- The host interface: rings, EVQ, MSI-X and commands in flight; a host-interface reset clears it -/
  hif : Hif
  /-- The commands in flight, and what waits to be written -/
  fl : Flight
  /-- The 256 optical lane engines -/
  lanes : LaneBank
  /-- The 32 module cages -/
  cages : CageBank
  /-- The ports that exist, by number -/
  ports : PortBank
  /-- What the Bedrock domain holds for RETAIN and for the wake from it (R431, R483, R484) -/
  retn : Retain
  /-- The Garnet links, and the Geode link as link 128 -/
  gar : Garnet
  /-- The packet buffer and admission -/
  buf : Buffer
  /-- The egress scheduler -/
  sched : Sched
  /-- The table engine -/
  tbl : Tables
  /-- The memories, the scrubbers, repair and the arbiter -/
  mem : Mem
  /-- Snapshots, profiling, bandwidth and Mica trace -/
  obs : Obs
  /-- The time unit -/
  tim : Tim
  /-- The Geode controller -/
  geo : Geode
  /-- The auxiliary ADC (R509, R510) -/
  adc : Adc
deriving DecidableEq, Repr

/-- The machine right after reset: POR_N asserted, everything cleared (R73, Table 3.7; log 6 and log 7). -/
def State.reset : State where
  pending := []
  now := 0
  free := 0
  hostLog := []
  elog := Elog.init
  bed := Bed.init
  health := Health.init
  otp := Otp.init
  guard := Guard.init
  mgmt := Mgmt.init
  dac := DacBank.init
  fuse := Fuse.init
  rep := Repair.init
  boot := Boot.init
  hreg := Hreg.init
  hif := Hif.init
  fl := Flight.init
  lanes := LaneBank.init
  cages := CageBank.init
  ports := PortBank.init
  retn := Retain.init
  gar := Garnet.init
  buf := Buffer.init
  sched := Sched.init
  tbl := Tables.init
  mem := Mem.init
  obs := Obs.init
  tim := Tim.init
  geo := Geode.init
  adc := Adc.init

/-- Changes only the elog group. -/
def State.mapElog (s : State) (f : Elog → Elog) : State := { s with elog := f s.elog }

/-- Changes only the bed group. -/
def State.mapBed (s : State) (f : Bed → Bed) : State := { s with bed := f s.bed }

/-- Changes only the health group. -/
def State.mapHealth (s : State) (f : Health → Health) : State := { s with health := f s.health }

/-- Changes only the otp group. -/
def State.mapOtp (s : State) (f : Otp → Otp) : State := { s with otp := f s.otp }

/-- Changes only the guard group. -/
def State.mapGuard (s : State) (f : Guard → Guard) : State := { s with guard := f s.guard }

/-- Changes only the mgmt group. -/
def State.mapMgmt (s : State) (f : Mgmt → Mgmt) : State := { s with mgmt := f s.mgmt }

/-- Changes only the dac group. -/
def State.mapDac (s : State) (f : DacBank → DacBank) : State := { s with dac := f s.dac }

/-- Changes only the fuse group. -/
def State.mapFuse (s : State) (f : Fuse → Fuse) : State := { s with fuse := f s.fuse }

/-- Changes only the rep group. -/
def State.mapRep (s : State) (f : Repair → Repair) : State := { s with rep := f s.rep }

/-- Changes only the boot group. -/
def State.mapBoot (s : State) (f : Boot → Boot) : State := { s with boot := f s.boot }

/-- Changes only the hreg group. -/
def State.mapHreg (s : State) (f : Hreg → Hreg) : State := { s with hreg := f s.hreg }

/-- Changes only the hif group. -/
def State.mapHif (s : State) (f : Hif → Hif) : State := { s with hif := f s.hif }

/-- Changes only the fl group. -/
def State.mapFl (s : State) (f : Flight → Flight) : State := { s with fl := f s.fl }

/-- Changes only the lanes group. -/
def State.mapLanes (s : State) (f : LaneBank → LaneBank) : State := { s with lanes := f s.lanes }

/-- Changes only the cages group. -/
def State.mapCages (s : State) (f : CageBank → CageBank) : State := { s with cages := f s.cages }

/-- Changes only the ports group. -/
def State.mapPorts (s : State) (f : PortBank → PortBank) : State := { s with ports := f s.ports }

/-- Changes only the retn group. -/
def State.mapRetn (s : State) (f : Retain → Retain) : State := { s with retn := f s.retn }

/-- Changes only the gar group. -/
def State.mapGar (s : State) (f : Garnet → Garnet) : State := { s with gar := f s.gar }

/-- Changes only the buf group. -/
def State.mapBuf (s : State) (f : Buffer → Buffer) : State := { s with buf := f s.buf }

/-- Changes only the sched group. -/
def State.mapSched (s : State) (f : Sched → Sched) : State := { s with sched := f s.sched }

/-- Changes only the tbl group. -/
def State.mapTbl (s : State) (f : Tables → Tables) : State := { s with tbl := f s.tbl }

/-- Changes only the mem group. -/
def State.mapMem (s : State) (f : Mem → Mem) : State := { s with mem := f s.mem }

/-- Changes only the obs group. -/
def State.mapObs (s : State) (f : Obs → Obs) : State := { s with obs := f s.obs }

/-- Changes only the tim group. -/
def State.mapTim (s : State) (f : Tim → Tim) : State := { s with tim := f s.tim }

/-- Changes only the geo group. -/
def State.mapGeo (s : State) (f : Geode → Geode) : State := { s with geo := f s.geo }

/-- Changes only the adc group. -/
def State.mapAdc (s : State) (f : Adc → Adc) : State := { s with adc := f s.adc }

end Sys2Proof.Machine
end

