-- ==== Sys2Proof/Machine/Flags.lean ====
section
/-! DEFINITION. The flags that the device computes from its state: rails in range, PERST_N, INIT_DONE, spill, and the health state. -/
namespace Sys2Proof.Machine

/-! ## Rails, clocks and the regions' flags -/

/-- The rail of this index of Table 22.16 is in range (R52). -/
def railUp (s : State) (r : Nat) : Bool := s.bed.railOk.getLsbD r

/-- Every group B rail is in range (Table 3.1). -/
def groupBUp (s : State) : Bool := [0, 1, 2, 3, 4].all (railUp s)

/-- PERST_N is asserted, or treated as asserted while VDDIO_MGMT is missing (R44). -/
def perstAsserted (s : State) : Bool := s.bed.perstPin || !railUp s 11

/-- INIT_DONE of a region, numbered as Table 16.7. -/
def initDone (s : State) (region : Nat) : Bool := s.boot.initDone.getLsbD region

/-- Spill to HBM is enabled only while all four HBM regions report INIT_DONE (R80). -/
def spillEnabled (s : State) : Bool := [65, 66, 67, 68].all (initDone s)

/-! ## Health (R493, R494) -/

/-- The health state of a set of causes: 0 HEALTHY, 1 DEGRADED_SERVICE_REQUESTED, 2 DEGRADED_REDUCED, 3 FAILED
(R493, Table 19.6). -/
def healthOf (causes : BitVec 12) : Nat :=
  if causes.getLsbD 11 then 3
  else if causes.getLsbD 10 || causes.getLsbD 9 || causes.getLsbD 8 then 2
  else if causes = 0 then 0 else 1

/-- The health state in force. -/
def healthState (s : State) : Nat := healthOf s.health.causes

/-- SVC_REQ_N is asserted in every state but HEALTHY (R494). -/
def svcReq (s : State) : Bool := decide (healthState s ≠ 0)

end Sys2Proof.Machine
end

