-- ==== Sys2Proof/Machine/Maps.lean ====
section
/-! DEFINITION. Reading and writing maps, and lists by position. -/
namespace Sys2Proof.Machine

variable {α : Type}

/-- The value of key `k`, if it has one. -/
def mfind : Map α → Nat → Option α
  | [], _ => none
  | (j, v) :: r, k => if k = j then some v else mfind r k

/-- The value of key `k`, or `d` for an absent one. -/
def mget (m : Map α) (k : Nat) (d : α) : α := (mfind m k).getD d

/-- The map with `v` at key `k`, keys kept rising. -/
def mput : Map α → Nat → α → Map α
  | [], k, v => [(k, v)]
  | (j, w) :: r, k, v =>
    if k < j then (k, v) :: (j, w) :: r
    else if k = j then (k, v) :: r
    else (j, w) :: mput r k v

/-- The map without key `k`. -/
def mdel (m : Map α) (k : Nat) : Map α := m.filter fun p => decide (p.1 ≠ k)

/-- The map with the value of key `k` changed by `f`, an absent one being `d`. -/
def mmod (m : Map α) (k : Nat) (d : α) (f : α → α) : Map α := mput m k (f (mget m k d))

/-- Every value changed by `f`, which also sees the key. -/
def mmap (m : Map α) (f : Nat → α → α) : Map α := m.map fun p => (p.1, f p.1 p.2)

/-- Key `k` has a value. -/
def mhas (m : Map α) (k : Nat) : Bool := (mfind m k).isSome

/-- Does `p` hold of some value? -/
def many (m : Map α) (p : Nat → α → Bool) : Bool := m.any fun e => p e.1 e.2

/-- A list of numbers with `k` in it, kept rising, no repeats. -/
def linsert : List Nat → Nat → List Nat
  | [], k => [k]
  | j :: r, k => if k < j then k :: j :: r else if k = j then j :: r else j :: linsert r k

end Sys2Proof.Machine
end

