-- ==== Sys2Proof/Machine/Ops.lean ====
section
/-! DEFINITION. The operations that every family of commands shares: counters, host memory writes, MSI-X, events,
completions, the error log, health and the guard's pending proposals. -/
namespace Sys2Proof.Machine

/-! ## Counters -/

/-- Adds `n` to a counter modulo 2^48; passing the end sets the sticky wrap bit (R383, R511). -/
def Ctr.add (c : Ctr) (n : Nat) : Ctr :=
  { val := BitVec.ofNat 48 (c.val.toNat + n), wrap := c.wrap || decide (2 ^ 48 ≤ c.val.toNat + n) }

/-- The 8 bytes of a counter in a status block (R383). -/
def Ctr.bytes (c : Ctr) : List Byte := leBytes 8 (c.val.toNat + b2n c.wrap * 2 ^ 63)

/-- Counter `k` of a group of counters. -/
def ctrOf (m : Map Ctr) (k : Nat) : Ctr := mget m k Ctr.init

/-- Adds `n` to counter `k` of a group. -/
def ctrAdd (m : Map Ctr) (k n : Nat) : Map Ctr := mmod m k Ctr.init (·.add n)

/-- The bytes of counters 0 to `n - 1` of a group, in order. -/
def ctrBlock (m : Map Ctr) (n : Nat) : List Byte := (List.range n).flatMap fun k => (ctrOf m k).bytes

/-- Clears the wrap bits of the counters of a group that have theirs set (CLEAR_WRAP, R383). -/
def ctrClearWrap (m : Map Ctr) : Map Ctr := mmap m fun _ c => { c with wrap := false }

/-! ## Free values -/

/-- The state after a free value has been taken. -/
def State.tick (s : State) : State := { s with free := s.free + 1 }

/-- `n` bytes whose values the spec leaves open, and the state after them. -/
def freeBytes (n : Nat) (s : State) : List Byte × State :=
  ((List.range n).map fun i => Config.freeByte (s.free + i), { s with free := s.free + n })

/-! ## The clock -/

/-- The nanoseconds field of the hardware clock, or all ones while it does not run (R446). -/
def clockNs (s : State) : BitVec 32 := if s.tim.running then BitVec.ofNat 32 s.tim.ns else 0xFFFFFFFF

/-! ## The error log (R537) -/

/-- Writes an entry of the error log: the slot, LOG_TOTAL, and alert cause [12] (R537, R499). -/
def logErr (code subject detail : Nat) (s : State) : State :=
  let e : ErrEntry := {
    code := BitVec.ofNat 16 code
    subject := BitVec.ofNat 16 subject
    detail := BitVec.ofNat 32 detail
    timeUs := BitVec.ofNat 48 ((s.now - s.elog.epoch) / 1000)
    seq := BitVec.ofNat 16 s.elog.total }
  (s.mapElog fun l => { l with total := l.total + 1, slots := mput l.slots (l.total % 256) e }).mapMgmt
    fun m => { m with alert := m.alert ||| 0x10 }

/-- The 16 bytes of an error-log slot in host order (Table 22.20). -/
def ErrEntry.bytes (e : ErrEntry) : List Byte :=
  leBytes 2 e.code.toNat ++ leBytes 2 e.subject.toNat ++ leBytes 4 e.detail.toNat ++ leBytes 6 e.timeUs.toNat ++ leBytes 2 e.seq.toNat

/-- Slot `i` of the error log: all zero when never written (R537). -/
def logSlot (s : State) (i : Nat) : List Byte := (mget s.elog.slots i ErrEntry.init).bytes

/-! ## Host memory and MSI-X -/

/-- May the device access `len` bytes at `addr` (R374)? -/
def dmaAllowed (s : State) (addr len : Nat) : Bool :=
  !s.guard.dmaRestrict || len == 0 ||
    many s.guard.windows fun _ w => decide (w.1 ≤ addr) && decide (addr + len ≤ w.1 + w.2)

/-- Writes bytes to host memory. -/
def hostWrite (addr : Nat) (bytes : List Byte) (s : State) : State := { s with hostLog := s.hostLog ++ [(addr, bytes)] }

/-- Sets bits of HIF_ERR_STATUS. -/
def setHifErr (bits : BitVec 7) (s : State) : State := s.mapHreg fun h => { h with err := h.err ||| bits }

/-- Sends the message of an MSI-X vector, or sets its PBA bit while it is masked (R372). The message covers every
entry unsignalled then. The vector of a ring pair that is being deleted is silent (R390). -/
def msixFire (v : Nat) (s : State) : State :=
  let e := mget s.hif.msix v MsixEntry.init
  if (mget s.hif.rings v Ring.init).deleting then s
  else if e.mask then s.mapHif fun h => { h with pba := linsert h.pba v }
  else
    (hostWrite (e.addrLo.toNat + 2 ^ 32 * e.addrHi.toNat) (leBytes 4 e.data.toNat) s).mapHif fun h =>
      { h with
        pba := h.pba.filter (· ≠ v)
        evqUnsig := if v = 1024 then [] else h.evqUnsig
        rings := if mhas h.rings v then mmod h.rings v Ring.init fun r => { r with unsig := [] } else h.rings }

/-- Fires vector `v` when `n` entries are unsignalled and `count` (INT_COUNT) is reached (R372). -/
def msixCount (v count n : Nat) (s : State) : State := if 0 < count ∧ count ≤ n then msixFire v s else s

/-! ## Events -/

/-- The 16 bytes of an event entry with a phase (Table 14.6). -/
def Event.bytes (e : Event) (phase : Bool) : List Byte :=
  leBytes 2 e.code ++ leBytes 1 e.sev ++ leBytes 1 (b2n phase) ++ leBytes 4 e.obj.toNat ++ leBytes 4 e.detail.toNat ++ leBytes 4 e.timeNs.toNat

/-- The depth of EVQ in entries. -/
def evqDepth (s : State) : Nat := 2 ^ s.hreg.evqDepth

/-- EVQ has a free entry: it holds at most its depth minus 1 (R359). -/
def evqRoom (s : State) : Bool := decide ((s.hif.evqTail + evqDepth s - s.hif.evqHead) % evqDepth s < evqDepth s - 1)

/-- The next EVQ entry lies within the DMA windows (R374). -/
def evqAllowed (s : State) : Bool := dmaAllowed s (s.hreg.evqBase.toNat + 16 * s.hif.evqTail) 16

/-- Writes an event to EVQ (R368), and its vector's message when the count is reached (R372). -/
def evqWrite (e : Event) (s : State) : State :=
  let t := s.hif.evqTail
  let s := (hostWrite (s.hreg.evqBase.toNat + 16 * t) (e.bytes s.hif.evqPhase) s).mapHif fun h =>
    { h with
      evqTail := (t + 1) % evqDepth s
      evqPhase := if t + 1 = evqDepth s then !h.evqPhase else h.evqPhase
      evqUnsig := h.evqUnsig ++ [s.now] }
  msixCount 1024 s.hreg.evqIntCount s.hif.evqUnsig.length s

/-- Writes held events in order while EVQ has room and may be written; answers those left. -/
def evqDrain : List Event → State → List Event × State
  | [], s => ([], s)
  | e :: r, s => if evqRoom s && evqAllowed s then evqDrain r (evqWrite e s) else (e :: r, s)

/-- EVQ exists and the device may write host memory (R355, R371). -/
def evqOpen (s : State) : Bool := s.hif.evqExists && !s.boot.d3hot

/-- Delivers the held events, then EVENT_OVERFLOW with the number lost (R371). -/
def deliverEvents (s : State) : State :=
  if !evqOpen s then s
  else
    let p := evqDrain s.fl.heldEv s
    let s := p.2.mapFl fun f => { f with heldEv := p.1 }
    let s := if !p.1.isEmpty && !evqAllowed s then setHifErr 8 s else s
    if p.1.isEmpty && decide (0 < s.fl.lost) && evqRoom s && evqAllowed s then
      let e : Event := { code := 0x0002, sev := 1, obj := 0, detail := BitVec.ofNat 32 (sat 32 s.fl.lost), timeNs := clockNs s }
      evqWrite e (s.mapFl fun f => { f with lost := 0 })
    else s

/-- Counts a lost event (R371). -/
def loseEvent (s : State) : State := s.mapFl fun f => { f with lost := f.lost + 1 }

/-- Posts an event (R371): written to EVQ after those held, held while no EVQ exists or in D3hot, or lost. Before
FW_READY no firmware runs that could post one (log 16). -/
def postEvent (e : Event) (s : State) : State :=
  if !s.boot.fwReady then s
  else if !evqOpen s then
    if s.fl.heldEv.length < 4096 then s.mapFl fun f => { f with heldEv := f.heldEv ++ [e] } else loseEvent s
  else
    let s := deliverEvents s
    if !evqAllowed s then loseEvent (setHifErr 8 s)
    else if !s.fl.heldEv.isEmpty || decide (0 < s.fl.lost) || !evqRoom s then loseEvent s
    else evqWrite e s

/-- Posts an event of the given code, severity, OBJECT and DETAIL, with the clock's nanoseconds (Table 14.6). -/
def post (code sev obj detail : Nat) (s : State) : State :=
  postEvent { code := code, sev := sev, obj := BitVec.ofNat 32 obj, detail := BitVec.ofNat 32 detail, timeNs := clockNs s } s

/-! ## Completions -/

/-- The code of a status (Table 14.10). -/
def Status.code : Status → Nat
  | .success => 0x0000
  | .lateExecuted => 0x0001
  | .invalidOpcode => 0x0101
  | .invalidField => 0x0102
  | .objectNotFound => 0x0103
  | .objectExists => 0x0104
  | .noResource => 0x0105
  | .notReady => 0x0106
  | .blockOff => 0x0107
  | .busy => 0x0108
  | .lateDiscarded => 0x0109
  | .guardRequired => 0x010A
  | .permission => 0x010B
  | .hwError => 0x0201
  | .dataPoisoned => 0x0202
  | .timeout => 0x0203
  | .calRejected => 0x0204
  | .peerUnavailable => 0x0205
  | .aborted => 0x0301

/-- The severity of COMMAND_COMPLETE by the status it carries (R371). -/
def statusSeverity (code : Nat) : Nat :=
  if code ≤ 1 then 0 else if code = 0x0301 then 1 else if 0x0201 ≤ code then 2 else 1

/-- The bytes of a completion entry (Table 14.5). -/
def Completion.bytes (c : Completion) (sqHead : Nat) (phase : Bool) : List Byte :=
  leBytes 2 c.tag.toNat ++ leBytes 2 c.status ++ leBytes 2 c.ring ++ leBytes 2 sqHead ++ leBytes 8 c.result0.toNat ++
    leBytes 8 c.result1.toNat ++ leBytes 4 c.execNs.toNat ++ zeros 3 ++ leBytes 1 (b2n phase)

/-- Puts a ring pair in ERROR with a cause and posts RING_ERROR (R364); the first cause stays. -/
def ringError (r cause : Nat) (s : State) : State :=
  match mfind s.hif.rings r with
  | none => s
  | some g =>
    if g.error.isSome then s
    else post 0x0003 2 r cause (s.mapHif fun h => { h with rings := mput h.rings r { g with error := some cause } })

/-- Writes a completion entry to its ring's CQ in one write, with the ring's phase (R366, R368), then COMMAND_COMPLETE
if the command asked for it (R371), then the ring's message when the count is reached (R372). In D3hot it waits
(R355). Outside the DMA windows it is not written and the ring enters ERROR (R374). -/
def writeCompletion (c : Completion) (s : State) : State :=
  if s.boot.d3hot then s.mapFl fun f => { f with heldCpl := f.heldCpl ++ [c] }
  else
    match mfind s.hif.rings c.ring with
    | none => s
    | some g =>
      let depth := 2 ^ g.cfg.cqDepth
      let addr := g.cfg.cqBase.toNat + 32 * g.cqTail
      if !dmaAllowed s addr 32 then ringError c.ring 3 s
      else
        let g' := { g with
          cqTail := (g.cqTail + 1) % depth
          phase := if g.cqTail + 1 = depth then !g.phase else g.phase
          unsig := g.unsig ++ [s.now] }
        let s := (hostWrite addr (c.bytes g.sqHead g.phase) s).mapHif fun h => { h with rings := mput h.rings c.ring g' }
        let s :=
          if c.withEvent then post 0x0001 (statusSeverity c.status) (c.tag.toNat * 2 ^ 16 + c.ring) c.status s else s
        msixCount c.ring g.cfg.intCount g'.unsig.length s

/-! ## Commands in flight -/

/-- OPCODE of a command. -/
def Cmd.opcode (c : Cmd) : Nat := byteAt c.entry 0
/-- Bit `i` of FLAGS: 0 TIMED, 1 DISCARD_IF_LATE, 2 NO_WAKE, 3 FENCE, 4 EVENT_ON_COMPLETE. -/
def Cmd.flag (c : Cmd) (i : Nat) : Bool := bitOf (byteAt c.entry 1) i
/-- TARGET of a command. -/
def Cmd.target (c : Cmd) : Nat := fieldAt c.entry 4 4
/-- IND_LEN of a command. -/
def Cmd.indLen (c : Cmd) : Nat := fieldAt c.entry 20 4
/-- IND_ADDR of a command. -/
def Cmd.indAddr (c : Cmd) : Nat := fieldAt c.entry 24 8
/-- The inline field of `len` bytes at byte `off` of the entry. -/
def Cmd.inl (c : Cmd) (off len : Nat) : Nat := fieldAt c.entry off len
/-- Are the inline bytes from `off`, `len` of them, zero? -/
def Cmd.inlZero (c : Cmd) (off len : Nat) : Bool := allZero (slice c.entry off len)

/-- The kind of object that the TARGET of an opcode names (R369, Tables 15.1 and 16.1): a kind of its own for an
opcode whose TARGET column is 0. -/
def objectKind (op target : Nat) : Nat :=
  if 0x04 ≤ op ∧ op ≤ 0x07 then 0x100
  else if (0x10 ≤ op ∧ op ≤ 0x13) ∨ op = 0x43 ∨ op = 0x85 ∨ op = 0xC4 ∨ op = 0xC5 ∨ (op = 0xC6 ∧ target < 256)
      ∨ (op = 0x46 ∧ target < 256) then 0x101
  else if 0x18 ≤ op ∧ op ≤ 0x1C then 0x102
  else if 0x30 ≤ op ∧ op ≤ 0x35 then 0x103
  else if op = 0x47 ∨ op = 0x44 then 0x104
  else if (0x50 ≤ op ∧ op ≤ 0x52) ∨ op = 0x54 then 0x105
  else if (0x60 ≤ op ∧ op ≤ 0x62) ∨ op = 0x67 ∨ op = 0x68 then 0x106
  else if op = 0x64 ∨ op = 0x65 then 0x107
  else if op = 0xA0 ∨ op = 0xA1 then 0x108
  else if op = 0xB0 ∨ op = 0xB1 then 0x109
  else if op = 0xC2 ∨ op = 0xC3 then 0x10A
  else if 0xD0 ≤ op ∧ op ≤ 0xD5 then 0x10B
  else op

/-- The scope within which commands execute one at a time, where a command has one (R385, R415, R508). -/
def scopeOf (op target : Nat) : Option (Nat × Nat) :=
  if (0x10 ≤ op ∧ op ≤ 0x12) ∨ op = 0x18 ∨ op = 0x1A ∨ op = 0x1B ∨ op = 0x1C then some (1, target / 8)
  else if (0xD0 ≤ op ∧ op ≤ 0xD3) ∨ op = 0xD5 then some (1, target)
  else if (0x30 ≤ op ∧ op ≤ 0x32) ∨ op = 0x34 ∨ op = 0x35 then some (3, target)
  else if 0x60 ≤ op ∧ op ≤ 0x62 then some (4, target)
  else if op = 0x64 ∨ op = 0x65 then some (5, target)
  else if 0x50 ≤ op ∧ op ≤ 0x53 then some (6, 0)
  else if op = 0x90 then some (7, 0)
  else if 0xD8 ≤ op ∧ op ≤ 0xDA then some (8, 0)
  else none

/-- Does command `c'` (fetch number `j`) in flight hold back `c` (fetch number `i`) (R369, R385, R415)? -/
def holdsBack (i : Nat) (c : Cmd) (j : Nat) (c' : Cmd) : Bool :=
  let sameRing := decide (c'.ring = c.ring) && !c'.dead && !c.dead
  decide (i ≠ j) &&
    ((sameRing && decide (j < i) && (decide (c'.phase = .ready) || c.flag 3 || c'.flag 3)) ||
     (sameRing && decide (j < i) && decide (c'.phase = .executing) && c'.held &&
       decide (objectKind c'.opcode c'.target = objectKind c.opcode c.target) && decide (c'.target = c.target)) ||
     (decide (c'.phase = .executing) && c'.held && (scopeOf c.opcode c.target).isSome &&
       decide (scopeOf c'.opcode c'.target = scopeOf c.opcode c.target)))

/-- The command in flight with fetch number `id`, if it has opcode `op` and may begin now (R369, R385). -/
def mayBegin (s : State) (id op : Nat) : Option Cmd :=
  match mfind s.fl.cmds id with
  | none => none
  | some c =>
    if c.opcode = op ∧ c.phase = .ready ∧ !c.dead ∧ !many s.fl.cmds (holdsBack id c) then some c else none

/-- The clock in nanoseconds since its second 0, its seconds taken modulo 2^48 (R361). -/
def clockTotal (s : State) : Nat := s.tim.sec.toNat % 2 ^ 48 * 1000000000 + s.tim.ns

/-- The time of a timed command in nanoseconds (R459). -/
def Cmd.due (c : Cmd) : Nat := fieldAt c.entry 8 6 * 1000000000 + fieldAt c.entry 14 4

/-- A timed command begins more than 1 us after its time (R460). -/
def beginsLate (s : State) (c : Cmd) : Bool := c.flag 0 && s.tim.running && decide (c.due + 1000 < clockTotal s)

/-- An event of the profiling event bus: each enabled counter with its code adds `n` (R517, Table 21.4). -/
def profEvent (ev inst n : Nat) (s : State) : State :=
  s.mapObs fun o =>
    { o with prof := mmap o.prof fun _ p => if p.on && decide (p.code = ev * 256 + inst) then { p with val := p.val + BitVec.ofNat 64 n } else p }

/-! ## The mirror of the Geode primary (R469) -/

/-- The Geode link is up, this device acts as primary and the peer's last HELLO says secondary. -/
def mirrorOpen (s : State) : Bool :=
  decide (s.bed.geoRole = 1) && !s.geo.blind && (mget s.gar.links 128 Link.init).up &&
    (match s.geo.peer with
    | none => false
    | some h => decide (h.role = 2))

/-- Hands a record to the Geode link. -/
def geodePush (rec' : List Byte) (s : State) : State :=
  s.mapGar fun g => { g with links := mmod g.links 128 Link.init fun l => { l with resp := l.resp ++ [rec'] } }

/-- Bytes of mirror records sent and not acknowledged. -/
def mirrorBytes (s : State) : Nat := s.geo.unacked.foldl (fun n x => n + x.2.2) 0

/-- Moves the held mirror records to the link while at most 16 MiB lie beyond what the peer has acknowledged (R469). -/
def mirrorDrain : Nat → State → State
  | 0, s => s
  | n + 1, s =>
    match s.geo.hold with
    | [] => s
    | (k, num, b) :: r =>
      if k < 2 ∧ 2 ^ 24 < mirrorBytes s then s
      else
        mirrorDrain n (geodePush b (s.mapGeo fun g =>
          { g with hold := r, unacked := if k < 2 then g.unacked ++ [(k, num, b.length)] else g.unacked }))

/-- Queues a mirror record behind every earlier one. -/
def mirrorPush (k num : Nat) (b : List Byte) (s : State) : State :=
  let s := s.mapGeo fun g => { g with hold := g.hold ++ [(k, num, b)] }
  mirrorDrain s.geo.hold.length s

/-- The opcodes that are mirrored as CONFIG records (R469). -/
def mirrored (op : Nat) : Bool :=
  (decide (0x40 ≤ op) && decide (op ≤ 0x45)) || (decide (0x50 ≤ op) && decide (op ≤ 0x53)) || op == 0x60 || op == 0x61 || op == 0x85

/-- A CONFIG record (Table 18.2). -/
def configRecord (op : Nat) (seq : BitVec 32) (target : Nat) (inl data : List Byte) : List Byte :=
  [0x64, BitVec.ofNat 8 op, 0, 0] ++ beBytes 4 seq.toNat ++ beBytes 4 target ++ beBytes 4 data.length ++ inl ++ data ++
    zeros ((8 - data.length % 8) % 8)

/-- Sends a configuration to the peer as the next CONFIG record. -/
def mirrorConfig (op target : Nat) (inl data : List Byte) (s : State) : State :=
  let seq := s.geo.seq + 1
  mirrorPush 0 seq.toNat (configRecord op seq target inl data) (s.mapGeo fun g => { g with seq := seq })

/-- Mirrors a command that completes SUCCESS or LATE_EXECUTED (R469). -/
def mirrorCmd (c : Cmd) (st : Status) (s : State) : State :=
  if (st = .success ∨ st = .lateExecuted) ∧ mirrored c.opcode ∧ mirrorOpen s then
    mirrorConfig c.opcode c.target (slice c.entry 32 32) c.data s
  else s

/-- Ends a command in flight: it leaves, and its completion entry is written unless a host-interface reset has come
since its fetch (R74, R366). SUCCESS of a late command is LATE_EXECUTED (R460). -/
def finishOne (id : Nat) (st : Status) (r0 r1 : BitVec 64) (eff : Bool) (s : State) : State :=
  match mfind s.fl.cmds id with
  | none => s
  | some c =>
    let s := mirrorCmd c st (profEvent 0x11 0 1 (s.mapFl fun f => { f with cmds := mdel f.cmds id }))
    if c.dead then s
    else
      let st := if st = .success ∧ c.late then .lateExecuted else st
      writeCompletion {
        ring := c.ring, tag := BitVec.ofNat 16 (fieldAt c.entry 2 2), status := st.code, result0 := r0, result1 := r1
        execNs := if eff then clockNs s else 0xFFFFFFFF
        withEvent := c.flag 4 } s

/-- The RING_DELETE in flight whose ring has no command in flight any more and no completion that waits for D0, with its ring (R390, R365). -/
def readyDelete (s : State) : Option (Nat × Nat) :=
  (s.fl.cmds.find? fun p =>
    decide (p.2.opcode = 0x05) && decide (p.2.phase = .executing) && (mget s.hif.rings p.2.target Ring.init).deleting &&
      !(many s.fl.cmds fun _ c => decide (c.ring = p.2.target) && !c.dead) &&
      !s.fl.heldCpl.any fun c => decide (c.ring = p.2.target)).map fun p => (p.1, p.2.target)

/-- Completes the deletions of ring pairs whose last command has completed (R390). -/
def settleDeletes : Nat → State → State
  | 0, s => s
  | n + 1, s =>
    match readyDelete s with
    | none => s
    | some (id, r) =>
      settleDeletes n (finishOne id .success 0 0 true
        (s.mapHif fun h => { h with rings := mdel h.rings r, pba := h.pba.filter (· ≠ r) }))

/-- Ends a command in flight with a status and results, and settles what waited for it. -/
def finish (id : Nat) (st : Status) (r0 r1 : BitVec 64) (eff : Bool) (s : State) : State :=
  let s := finishOne id st r0 r1 eff s
  settleDeletes s.fl.cmds.length s

/-- Ends a command that failed a check or was ended without an effect: results zero, no EXEC_NS. -/
def finishFail (id : Nat) (st : Status) (s : State) : State := finish id st 0 0 false s

/-- What a command's rule answers once it has begun. -/
structure Ran where
  /-- The status it completes with. -/
  st : Status
  /-- RESULT0. -/
  r0 : BitVec 64 := 0
  /-- RESULT1. -/
  r1 : BitVec 64 := 0
  /-- The state after its effect. -/
  s : State
  /-- It took effect. -/
  eff : Bool := true
  /-- It completes now; otherwise it stays executing. -/
  done : Bool := true

/-- A check failed: the status, and the state unchanged. -/
def Ran.fail (st : Status) (s : State) : Ran := { st := st, s := s, eff := false }

/-- A command that took effect and completes SUCCESS. -/
def Ran.ok (s : State) : Ran := { st := .success, s := s }

/-- A command that has begun: it executes, holds its scope, and is late if it began more than 1 us after its time. -/
def Cmd.begun (c : Cmd) (s : State) : Cmd := { c with phase := .executing, held := true, late := beginsLate s c }

/-- A command begins. -/
def beginCmd (id : Nat) (c : Cmd) (s : State) : State := s.mapFl fun f => { f with cmds := mput f.cmds id (c.begun s) }

/-- Runs a fetched command: it begins if it may (R369, R385), fails the first check of `pre` (steps 3 and 4 of R380)
that fails, completes NOT_READY at step 5 when it is timed and the clock does not run (R446), and otherwise does what
`body` says of steps 5 to 9 and of its effect. -/
def runCmd (id op : Nat) (pre : Cmd → State → Option Status) (body : Cmd → State → Ran) (s : State) : State :=
  match mayBegin s id op with
  | none => s
  | some c =>
    let s := beginCmd id c s
    let c := c.begun s
    match pre c s with
    | some st => finishFail id st s
    | none =>
      if c.flag 0 && !s.tim.running then finishFail id .notReady s
      else
        let r := body c s
        if r.done then finish id r.st r.r0 r.r1 r.eff r.s else r.s

/-- Changes a command in flight. -/
def modCmd (id : Nat) (f : Cmd → Cmd) (s : State) : State :=
  match mfind s.fl.cmds id with
  | none => s
  | some c => s.mapFl fun fl => { fl with cmds := mput fl.cmds id (f c) }

/-- A long command's action has started: it leaves its scope (R385) and notes what it waits for. -/
def awaitEnd (id : Nat) (aux : List Nat) (s : State) : State := modCmd id (fun c => { c with held := false, aux := aux }) s

/-- Writes a command's status block to IND_ADDR (R382). -/
def writeBlock (c : Cmd) (bytes : List Byte) (s : State) : State := hostWrite c.indAddr bytes s

/-- The first check that fails, of a list of (failed, status). -/
def firstFail : List (Bool × Status) → Option Status
  | [] => none
  | (true, st) :: _ => some st
  | (false, _) :: r => firstFail r

/-- The fetch numbers of the commands in flight that satisfy `p`. -/
def cmdsWhere (s : State) (p : Cmd → Bool) : List Nat := (s.fl.cmds.filter fun e => p e.2).map (·.1)

/-- Ends every command of a list with one status. -/
def finishAll (ids : List Nat) (st : Status) (eff : Bool) (s : State) : State :=
  ids.foldl (fun s id => finish id st 0 0 eff s) s

/-! ## The guard and health -/

/-- A guard proposal ends: its command completes with `st`, and alert cause [9] is set (R499, R501). -/
def endProposal (item : Nat) (st : Status) (s : State) : State :=
  match mfind s.guard.props item with
  | none => s
  | some p =>
    let s := (s.mapGuard fun g => { g with props := mdel g.props item }).mapMgmt fun m => { m with alert := m.alert ||| 2 }
    finish p.cmd st 0 0 (st = .success) s

/-- Every pending proposal is aborted (Table 20.4). -/
def abortProposals (s : State) : State := (s.guard.props.map (·.1)).foldl (fun s i => endProposal i .aborted s) s

/-- Puts a set of health causes in force. A change of the health state posts HEALTH_CHANGE and sets alert cause [10];
a change to FAILED aborts every pending proposal (R493, R499, Table 20.4). -/
def setCauses (causes : BitVec 12) (s : State) : State :=
  let old := healthState s
  let s := s.mapHealth fun h => { h with causes := causes }
  let new := healthOf causes
  if new = old then s
  else
    let s := s.mapMgmt fun m => { m with alert := m.alert ||| 4 }
    let s := post 0x9004 (if new = 0 then 0 else if new = 3 then 2 else 1) new (causes.toNat * 256) s
    if new = 3 then abortProposals s else s

/-- Sets health cause [8 + i]. -/
def setCause (i : Nat) (s : State) : State := setCauses (s.health.causes ||| ((1 : BitVec 12) <<< i)) s

/-- Clears health cause [8 + i]. -/
def clearCause (i : Nat) (s : State) : State := setCauses (s.health.causes &&& ~~~ ((1 : BitVec 12) <<< i)) s

/-- Sets or clears health cause [8 + i]. -/
def putCause (i : Nat) (on : Bool) (s : State) : State := if on then setCause i s else clearCause i s

end Sys2Proof.Machine
end

