-- ==== Sys2Proof/Machine/Operands.lean ====
section
/-! DEFINITION. The operand forms that commands share: commands without fields, VALID masks, CLEAR_WRAP, status blocks,
and indirect data read from host memory (R381 to R383, R375). -/
namespace Sys2Proof.Machine

/-- The inline area of a command that takes no field is zero and it takes no indirect data (R381, R382). -/
def noFields (c : Cmd) : Bool := decide (c.indLen = 0) && c.inlZero 32 32

/-- VALID bit `i` of a settings command whose VALID field is `v`. -/
def sel (v i : Nat) : Bool := v.testBit i

/-- CLEAR_WRAP of a command that writes counters: bit 0 of inline byte 63, other bits reserved (R383). -/
def clearWrapBad (c : Cmd) : Bool := decide (1 < byteAt c.entry 63)

/-- CLEAR_WRAP is set (R383). -/
def clearWrapOn (c : Cmd) : Bool := bitOf (byteAt c.entry 63) 0

/-- Is the TARGET beyond `last`, or an inline byte outside the `n` bytes from 32 set? -/
def shapeBad (c : Cmd) (last n : Nat) : Bool := decide (last < c.target) || !c.inlZero (32 + n) (32 - n)

/-- A command without indirect data: TARGET at most `last`, fields in `n` bytes from byte 32, every later byte zero. -/
def plainBad (c : Cmd) (last n : Nat) : Bool := shapeBad c last n || decide (c.indLen ≠ 0)

/-- A status command without counters: a block of `len` bytes, no field (R382). -/
def blockBad (c : Cmd) (last len : Nat) : Bool := shapeBad c last 0 || decide (c.indLen < len)

/-- A status command with counters: a block of `len` bytes, and CLEAR_WRAP as the only field (R382, R383). -/
def counterBlockBad (c : Cmd) (last len : Nat) : Bool :=
  decide (last < c.target) || decide (c.indLen < len) || !c.inlZero 32 31 || clearWrapBad c

/-- The first byte of a field of `len` bytes, and the bytes after it, of a command's inline area. -/
def Cmd.byte (c : Cmd) (off : Nat) : Nat := byteAt c.entry off

/-- An optional field of a settings command: the value at `off` when VALID bit `i` is set. -/
def Cmd.opt (c : Cmd) (v i off len : Nat) (old : Nat) : Nat := if sel v i then c.inl off len else old

/-- A selected field lies outside its range. -/
def Cmd.optBad (c : Cmd) (v i off len lo hi : Nat) : Bool := sel v i && (decide (c.inl off len < lo) || decide (hi < c.inl off len))

/-- Reads `len` bytes of indirect data: outside the DMA windows PERMISSION, and as Table 14.7 on an error. -/
def withHost (c : Cmd) (len : Nat) (host : HostRead) (s : State) (k : List Byte → Ran) : Ran :=
  if !dmaAllowed s c.indAddr len then .fail .permission s
  else
    match host with
    | .data bytes => k ((bytes ++ zeros len).take len)
    | .error => .fail .hwError s
    | .timeout => .fail .timeout s

/-- Writes a status block and goes on, or completes PERMISSION outside the DMA windows (R374, R382). -/
def withBlock (c : Cmd) (bytes : List Byte) (s : State) (k : State → State) : Ran :=
  if !dmaAllowed s c.indAddr bytes.length then .fail .permission s else .ok (k (writeBlock c bytes s))

end Sys2Proof.Machine
end

