-- ==== Sys2Proof/Machine/Equaliser.lean ====
section
/-! DEFINITION. The equaliser and detector of a lane: the FFE, the 16-state MLSE with its per-survivor tap, the DFE, and
the LMS that moves their coefficients (R107 to R113). A coefficient is held exactly, in units of 2^-48; the value in force
is the nearest of its steps. Samples are in 1/64 of the inner PAM4 level, FFE outputs and errors in 1/65536 of it, and a
PAM4 symbol is -3, -1, +1 or +3 (log 138). -/
namespace Sys2Proof.Machine

/-! ## Coefficients in force (R108, Table 5.2) -/

/-- `x / 2^k` to the nearest, ties upward. -/
def nearest (x : Int) (k : Nat) : Int := (x + 2 ^ (k - 1)) / 2 ^ k
/-- `x` limited to the range from `lo` to `hi`. -/
def clampInt (lo hi x : Int) : Int := max lo (min hi x)

/-- FFE tap `i` in force, in 1/1,024: the main cursor is fixed at +1.0 (R108). -/
def Coef.tap (c : Coef) (cursor i : Nat) : Int := if i = cursor then 1024 else nearest ((c.taps[i]?).getD 0) 38
/-- Alpha in force, in 1/64. -/
def Coef.alphaOn (c : Coef) : Int := nearest c.alpha 42
/-- Beta in force, in 1/64. -/
def Coef.betaOn (c : Coef) : Int := nearest c.beta 42
/-- Gamma in force, in 1/256. -/
def Coef.gammaOn (c : Coef) : Int := nearest c.gamma 40
/-- b1 in force, in 1/256. -/
def Coef.b1On (c : Coef) : Int := nearest c.b1 40
/-- Every coefficient within its range: taps within -1.0 and +1.0, and the ranges of Table 5.2; 217/256 is the last step of
b1 below 0.85. -/
def Coef.limit (c : Coef) : Coef :=
  { taps := c.taps.map (clampInt (-(2 ^ 48)) (2 ^ 48))
    alpha := clampInt 0 (2 ^ 48) c.alpha
    beta := clampInt 0 (2 ^ 47) c.beta
    gamma := clampInt (-(2 ^ 46)) (2 ^ 46) c.gamma
    b1 := clampInt 0 (217 * 2 ^ 40) c.b1 }
/-- The coefficients at the start of CONVERGE: alpha 0.5, beta, gamma and b1 zero (Table 5.4). -/
def Coef.converge (c : Coef) : Coef := { c with alpha := 2 ^ 47, beta := 0, gamma := 0, b1 := 0 }
/-- The FFE bytes and detector bytes as LANE_STATUS reports them (Table 15.7, bytes 16-101). -/
def Coef.bytes (c : Coef) (cursor : Nat) : List Byte :=
  ((List.range 41).flatMap fun i => leBytes 2 (unsigned 16 (c.tap cursor i))) ++
    [c.alphaOn, c.betaOn, c.gammaOn, c.b1On].flatMap fun v => leBytes 1 (unsigned 8 v)

/-! ## The stages (Table 5.1) -/

/-- Sum of the products of two lists, position by position. -/
def dot (a b : List Int) : Int := ((a.zip b).map fun p => p.1 * p.2).foldl (· + ·) 0
/-- The FFE output for the samples so far, the newest first. -/
def ffeOut (c : Coef) (cursor : Nat) (hist : List Int) : Int := dot ((List.range 41).map (c.tap cursor)) hist
/-- The PAM4 symbol of level number `i` (R129). -/
def symbol (i : Nat) : Int := 2 * (i : Int) - 3
/-- The 4-level slicer: the nearest symbol to `y`, in 1/65536, ties upward. -/
def slicer (y : Int) : Int := if y < -131072 then -3 else if y < 0 then -1 else if y < 131072 then 1 else 3
/-- The input of the slicer: the FFE output less b1 times the decision before (R107). -/
def dfeInput (c : Coef) (y d1 : Int) : Int := y - c.b1On * 256 * d1
/-- The target response in MLSE mode to the symbols `d`, `d1` and `d2`, with the tap gamma on `d3`: d + alpha d1 + beta d2 +
gamma d3 (Table 5.1, R109). -/
def mlseTarget (c : Coef) (d d1 d2 d3 : Int) : Int :=
  65536 * d + c.alphaOn * 1024 * d1 + c.betaOn * 1024 * d2 + c.gammaOn * 256 * d3

/-- One survivor of the MLSE: its metric, and its own symbols with the newest first. -/
structure Survivor where
  metric : Int
  path : List Int
deriving DecidableEq, Repr

/-- The two most recent symbols of MLSE state `i`, of 16. -/
def mlseState (i : Nat) : Int × Int := (symbol (i % 4), symbol (i / 4))
/-- The survivors before the first symbol: any of the 16 combinations, and no symbol before it. -/
def mlseStart : List Survivor := (List.range 16).map fun i => { metric := 0, path := [(mlseState i).1, (mlseState i).2] }
/-- The metric of the branch by which a survivor takes symbol `d` at FFE output `y`: the squared distance from its own
target, less what is known of the symbol beforehand. -/
def branchMetric (c : Coef) (y : Int) (prior : Int → Int) (v : Survivor) (d : Int) : Int :=
  let at' := fun i => (v.path[i]?).getD 0
  let e := y - mlseTarget c d (at' 0) (at' 1) (at' 2)
  e * e - prior d
/-- The survivor of the smaller metric, the first on a tie. -/
def betterOf (a b : Survivor) : Survivor := if b.metric < a.metric then b else a
/-- The survivor into state `t` from the four states that lead to it. -/
def mlseInto (c : Coef) (y : Int) (prior : Int → Int) (vs : List Survivor) (t : Nat) : Survivor :=
  let d := symbol (t % 4)
  let from' := (List.range 4).filterMap fun k => vs[t / 4 + 4 * k]?
  let ext := fun (v : Survivor) => { metric := v.metric + branchMetric c y prior v d, path := (d :: v.path).take 20 : Survivor }
  match from'.map ext with
  | [] => { metric := 0, path := [] }
  | v :: r => r.foldl betterOf v
/-- One symbol of the MLSE over its 16 states (R109). -/
def mlseStep (c : Coef) (y : Int) (prior : Int → Int) (vs : List Survivor) : List Survivor :=
  (List.range 16).map (mlseInto c y prior vs)
/-- The symbols of the best survivor, the newest first. -/
def mlseBest : List Survivor → List Int
  | [] => []
  | v :: r => (r.foldl betterOf v).path

/-! ## The run over a block (R110) -/

/-- The detector between two symbols: the samples, FFE outputs and DFE decisions so far with the newest first, and the
survivors. -/
structure Detect where
  hist : List Int
  outs : List Int
  past : List Int
  vs : List Survivor
deriving DecidableEq, Repr

/-- The detector before a run's first symbol. -/
def Detect.start : Detect := { hist := [], outs := [], past := [], vs := mlseStart }

/-- What one symbol's decision gives to the adaptation: the error, the samples that the taps had, and the decided symbols at
delays 0 to 3; none while the MLSE has not yet released a decision (R109: after 16 symbols). -/
structure Judged where
  err : Int
  xs : List Int
  ds : List Int
deriving DecidableEq, Repr

/-- One symbol through the FFE and the detector. The error is the FFE output less the target response, and in DFE mode the
slicer's input less its decision (R110). -/
def detectSymbol (c : Coef) (cursor : Nat) (mlse : Bool) (t : Detect) (x : Int) : Detect × Option Judged :=
  let hist := (x :: t.hist).take 60
  let y := ffeOut c cursor hist
  if mlse then
    let outs := (y :: t.outs).take 17
    let vs := mlseStep c y (fun _ => 0) t.vs
    let ds := (mlseBest vs).drop 16
    ({ t with hist := hist, outs := outs, vs := vs },
      match outs[16]?, ds with
      | some y', d :: d1 :: d2 :: d3 :: _ => some { err := y' - mlseTarget c d d1 d2 d3, xs := hist.drop 16, ds := [d, d1, d2, d3] }
      | _, _ => none)
  else
    let d1 := t.past.headD 0
    let z := dfeInput c y d1
    let d := slicer z
    ({ t with hist := hist, past := [d, d1] }, some { err := z - 65536 * d, xs := hist, ds := [d, d1] })

/-- A block of samples through the detector, with what each decision gives, in order. -/
def detectBlock (c : Coef) (cursor : Nat) (mlse : Bool) : Detect → List Int → Detect × List Judged
  | t, [] => (t, [])
  | t, x :: r =>
    let p := detectSymbol c cursor mlse t x
    let q := detectBlock c cursor mlse p.1 r
    (q.1, p.2.toList ++ q.2)

/-- The sum over a block of the error times an input of a coefficient. -/
def errSum (js : List Judged) (f : Judged → Int) : Int := (js.map fun j => j.err * f j).foldl (· + ·) 0
/-- The decided symbol at a delay. -/
def Judged.at (k : Nat) (j : Judged) : Int := (j.ds[k]?).getD 0

/-- The LMS update at a block boundary with a step size of 2^-v: each coefficient moves by that times the mean over 64
symbols of the error times its input, in the direction that lowers the error, and stays in its range (R110). -/
def lms (cursor : Nat) (mlse : Bool) (v : Nat) (js : List Judged) (c : Coef) : Coef :=
  let dec := fun k => errSum js (Judged.at k) * 2 ^ (26 - v)
  Coef.limit
    { taps := (List.range 41).map fun i =>
        if i = cursor then (c.taps[i]?).getD 0
        else (c.taps[i]?).getD 0 - errSum js (fun j => (j.xs[i]?).getD 0) * 2 ^ (20 - v)
      alpha := if mlse then c.alpha + dec 1 else c.alpha
      beta := if mlse then c.beta + dec 2 else c.beta
      gamma := if mlse then c.gamma + dec 3 else c.gamma
      b1 := if mlse then c.b1 else c.b1 + dec 1 }

/-- The coefficients after a run of 64-symbol blocks, each update applied at its block's boundary (R110). -/
def adaptFrom (cursor : Nat) (mlse : Bool) (v : Nat) : Detect → List (List Int) → Coef → Coef
  | _, [], c => c
  | t, b :: r, c =>
    let p := detectBlock c cursor mlse t b
    adaptFrom cursor mlse v p.1 r (lms cursor mlse v p.2 c)
/-- The coefficients after a run of blocks from a fresh detector (log 138). -/
def adapt (cursor : Nat) (mlse : Bool) (v : Nat) (bs : List (List Int)) (c : Coef) : Coef := adaptFrom cursor mlse v Detect.start bs c

/-- The FFE outputs of a run of samples. -/
def ffeRun (c : Coef) (cursor : Nat) : List Int → List Int → List Int
  | _, [] => []
  | hist, x :: r =>
    let h := (x :: hist).take 41
    ffeOut c cursor h :: ffeRun c cursor h r
/-- The symbols that the DFE decides from a run of FFE outputs. -/
def dfeRun (c : Coef) : Int → List Int → List Int
  | _, [] => []
  | d1, y :: r =>
    let d := slicer (dfeInput c y d1)
    d :: dfeRun c d r
/-- The survivors after each FFE output of a run, with what is known of each symbol beforehand. -/
def mlseRun (c : Coef) : List Survivor → List Int → List (Int → Int) → List (List Survivor)
  | _, [], _ => []
  | vs, y :: r, ps =>
    let vs' := mlseStep c y (ps.headD fun _ => 0) vs
    vs' :: mlseRun c vs' r (ps.drop 1)
/-- The symbols that the MLSE releases over a run: each after a delay of 16, and the best survivor's last ones at its end
(R109). -/
def mlseDecide (c : Coef) (ys : List Int) : List Int :=
  let runs := mlseRun c mlseStart ys []
  let early := runs.filterMap fun vs => (mlseBest vs)[16]?
  let last := mlseBest (runs.getLastD [])
  ((early ++ ((last.take 16).reverse)).reverse.take ys.length).reverse

/-! ## The CDR (R113) -/

/-- The CDR's tracking bandwidth in MHz by CDR_BW (Table 5.3). -/
def cdrBandwidth (bw : Nat) : Nat := if bw = 0 then 2 else if bw = 1 then 4 else 8
/-- The CDR captures and tracks within 350 ppm, in 0.01 ppm. -/
def cdrInRange (f : Int) : Bool := decide (f.natAbs ≤ 35000)
/-- What the frequency integrator holds when the incoming rate is `f`: it stays within the tracking range. -/
def cdrTrack (f : Int) : Int := clampInt (-35000) 35000 f

/-- The slice that converts symbol `n` of a 64-symbol frame: in bank A when `n` is even, at position n/2 among the bank's
slices in service (R88). -/
def sliceFor (map : BitVec 68) (n : Nat) : Option Nat :=
  (((List.range' (34 * (n % 2)) 34).filter fun i => map.getLsbD i)[n / 2 % 32]?)

end Sys2Proof.Machine
end

