-- ==== Sys2Proof/Machine/Coding.lean ====
section
/-! DEFINITION. What a lane does to its bits between the port's codeword stream and the line: the inner code of S200, the
X200 convolutional code with its puncturing and its decoder, the Gray map to PAM4 levels and the 1/(1+D) mod 4 precoder
(R122 to R130). A level is a number from 0 to 3; a reliability is positive for a 1. -/
namespace Sys2Proof.Machine

/-! ## Table 5.6 -/

/-- The inner code of a lane: none, that of IEEE 802.3dj, or the X200 code. -/
inductive InnerCode where
  | none
  | standard
  | x200
deriving DecidableEq, Repr

/-- The inner code by lane mode and media mode (Table 5.6). -/
def innerCode (mode : Nat) (c2m : Bool) : InnerCode := if c2m then .none else if mode = 1 then .standard else if mode = 2 then .x200 else .none
/-- The symbol rate in kBd (Table 5.6, Table 4.2). -/
def symbolRate (mode : Nat) (c2m : Bool) : Nat := if mode = 0 then 53125000 else if c2m then 106250000 else 113437500
/-- The rate after the inner decoder in Mb/s (Table 5.6). -/
def streamRate (mode : Nat) : Nat := if mode = 0 then 106250 else 212500

/-! ## PAM4 and precoding (R124, R129) -/

/-- The level of a bit pair by Gray code, the first bit the most significant (R129). -/
def grayLevel (a b : Bool) : Nat := if a then (if b then 2 else 3) else if b then 1 else 0
/-- The bit pair of a level. -/
def grayBits (l : Nat) : Bool × Bool := (decide (2 ≤ l), decide (l = 1) || decide (l = 2))
/-- The levels of a string of bits, two bits each in the order sent. -/
def grayLevels : List Bool → List Nat
  | a :: b :: r => grayLevel a b :: grayLevels r
  | _ => []
/-- The bits of a string of levels. -/
def grayString (ls : List Nat) : List Bool := ls.flatMap fun l => [(grayBits l).1, (grayBits l).2]

/-- The 1/(1+D) mod 4 precoder: each level sent is the level less the one sent before it (R124). -/
def precode : Nat → List Nat → List Nat
  | _, [] => []
  | p, l :: r =>
    let q := (l + 4 - p % 4) % 4
    q :: precode q r
/-- The precoding undone: each level is the sum of the one received and the one received before it. -/
def unprecode : Nat → List Nat → List Nat
  | _, [] => []
  | p, l :: r => (l + p) % 4 :: unprecode l r

/-! ## The X200 encoder (R125 to R128) -/

/-- The two outputs for an information bit, with bit `i` of the memory the information bit `i + 1` before (Table 5.7). -/
def convOut (m : BitVec 6) (u : Bool) : Bool × Bool :=
  (xor u (xor (m.getLsbD 0) (xor (m.getLsbD 1) (xor (m.getLsbD 2) (m.getLsbD 5)))),
   xor u (xor (m.getLsbD 1) (xor (m.getLsbD 2) (xor (m.getLsbD 4) (m.getLsbD 5)))))
/-- The memory after an information bit. -/
def convNext (m : BitVec 6) (u : Bool) : BitVec 6 := (m <<< 1) ||| BitVec.ofNat 6 (if u then 1 else 0)
/-- Is c1 kept at position `j` of a period (Table 5.8)? -/
def keepC1 (j : Nat) : Bool := decide (j = 0) || decide (j % 2 = 1)
/-- Is c2 kept at position `j` of a period (Table 5.8)? -/
def keepC2 (j : Nat) : Bool := decide (j % 2 = 0)
/-- The kept bits of information bits from position `j` of a period on, in the order sent, and the memory after them
(R127, R128). -/
def convEncode : BitVec 6 → Nat → List Bool → List Bool × BitVec 6
  | m, _, [] => ([], m)
  | m, j, u :: r =>
    let o := convOut m u
    let q := convEncode (convNext m u) ((j + 1) % 15) r
    ((if keepC1 j then [o.1] else []) ++ (if keepC2 j then [o.2] else []) ++ q.1, q.2)

/-! ## The line bits of a lane (R122, R123, R125) -/

/-- The lane's line bits for `w` inner codewords: 113.4375 GBd for 212.5 Gb/s, pad bits included (R123). -/
def innerLineBits (w : Nat) : Nat := w * 128 * 1089 / 1088
/-- The 120 information bits of inner codeword `w`, in the order in which the encoder takes them. -/
def innerInfo (bits : List Bool) (w : Nat) : List Bool := (List.range 120).map fun i => (bits[Config.innerSource w i]?).getD false
/-- Inner codewords with their 128 coded bits laid out on the line between the pad bits. -/
def innerLine (words : List (List Bool)) : List Bool :=
  (List.range (innerLineBits words.length)).map fun k =>
    match Config.innerPlace k with
    | none => Config.innerPad k
    | some (w, i) => (((words[w]?).getD [])[i]?).getD false
/-- The X200 codewords of the information bits of each inner codeword: eight periods each, the memory running on (R125,
R127). -/
def x200Words : BitVec 6 → List (List Bool) → List (List Bool) × BitVec 6
  | m, [] => ([], m)
  | m, u :: r =>
    let p := convEncode m 0 u
    let q := x200Words p.2 r
    (p.1 :: q.1, q.2)
/-- The line bits that a lane sends for bits of its codeword stream, and the X200 memory after them (Table 5.6). -/
def lineBits (code : InnerCode) (m : BitVec 6) (bits : List Bool) : List Bool × BitVec 6 :=
  let infos := (List.range (bits.length / 120)).map (innerInfo bits)
  match code with
  | .none => (bits, m)
  | .standard => (innerLine (infos.map fun u => (Config.innerWord u ++ List.replicate 128 false).take 128), m)
  | .x200 => let p := x200Words m infos; (innerLine p.1, p.2)

/-! ## Soft decisions (R123, R130) -/

/-- The largest of a list of metrics. -/
def best : List Int → Int
  | [] => 0
  | x :: r => r.foldl max x
/-- The states and inputs of a trellis. -/
def branches (ns ins : Nat) : List (Nat × Nat) := (List.range ns).flatMap fun s => (List.range ins).map fun u => (s, u)
/-- Forward metrics: those before each step, for the branch metrics of the steps. -/
def forward (ns ins : Nat) (next : Nat → Nat → Nat) : List Int → List (Nat → Nat → Int) → List (List Int)
  | _, [] => []
  | a, g :: r =>
    a :: forward ns ins next ((List.range ns).map fun t =>
      best (((branches ns ins).filter fun p => next p.1 p.2 = t).map fun p => (a[p.1]?).getD 0 + g p.1 p.2)) r
/-- Backward metrics: those after each step. -/
def backward (ns ins : Nat) (next : Nat → Nat → Nat) : List (Nat → Nat → Int) → List (List Int)
  | [] => []
  | [_] => [List.replicate ns 0]
  | _ :: g :: r =>
    let bs := backward ns ins next (g :: r)
    let b := bs.headD (List.replicate ns 0)
    ((List.range ns).map fun s => best ((List.range ins).map fun u => g s u + (b[next s u]?).getD 0)) :: bs
/-- The max-log-MAP reliability at each step that a property of its branch holds (R130). -/
def maxLogMap (ns ins : Nat) (next : Nat → Nat → Nat) (gs : List (Nat → Nat → Int)) (prop : Nat → Nat → Bool) : List Int :=
  let fs := forward ns ins next (List.replicate ns 0) gs
  let bs := backward ns ins next gs
  ((fs.zip bs).zip gs).map fun e =>
    let v := fun (p : Nat × Nat) => (e.1.1[p.1]?).getD 0 + e.2 p.1 p.2 + (e.1.2[next p.1 p.2]?).getD 0
    best (((branches ns ins).filter fun p => prop p.1 p.2).map v) - best (((branches ns ins).filter fun p => !prop p.1 p.2).map v)

/-- The MLSE's next state: the new symbol and the one before it. -/
def mlseNext (s u : Nat) : Nat := u + 4 * (s % 4)
/-- The reliability of a symbol known beforehand from those of its two bits. -/
def priorOf (p : Int × Int) (d : Int) : Int :=
  let b := grayBits (((d + 3) / 2).toNat)
  (if b.1 then p.1 else 0) + (if b.2 then p.2 else 0)
/-- The branch metrics of the MLSE over a run, each survivor with its own symbol at delay 3 (R109). -/
def mlseMetrics (c : Coef) : List Survivor → List Int → List (Int × Int) → List (Nat → Nat → Int)
  | _, [], _ => []
  | vs, y :: r, ps =>
    let prior := priorOf (ps.headD (0, 0))
    (fun s u => match vs[s]? with
      | none => 0
      | some v => -(branchMetric c y prior v (symbol u))) :: mlseMetrics c (mlseStep c y prior vs) r (ps.drop 1)
/-- The soft output of the MLSE: for each symbol the reliabilities of its two bits (R123, R130). -/
def mlseSoft (c : Coef) (ys : List Int) (ps : List (Int × Int)) : List (Int × Int) :=
  let gs := mlseMetrics c mlseStart ys ps
  (maxLogMap 16 4 mlseNext gs fun _ u => (grayBits u).1).zip (maxLogMap 16 4 mlseNext gs fun _ u => (grayBits u).2)

/-- The reliabilities of the codewords' coded bits taken from those of the line bits; the pad bits are not used. -/
def softWords (w : Nat) (line : List Int) : List (List Int) :=
  (List.range w).map fun i => (List.range 128).map fun j =>
    (((List.range line.length).filter fun k => Config.innerPlace k = some (i, j)).map fun k => line.getD k 0).headD 0
/-- The reliabilities of the line bits given by those of the codewords' coded bits; zero for a pad bit. -/
def softLine (n : Nat) (words : List (List Int)) : List Int :=
  (List.range n).map fun k =>
    match Config.innerPlace k with
    | none => 0
    | some (w, i) => (((words[w]?).getD [])[i]?).getD 0

/-- The reliabilities of c1 and c2 for each information bit from position `j` on: a punctured one is zero (R130). -/
def depuncture : Nat → Nat → List Int → List (Int × Int)
  | 0, _, _ => []
  | k + 1, j, l =>
    let a := if keepC1 j then l.headD 0 else 0
    let l1 := if keepC1 j then l.drop 1 else l
    let b := if keepC2 j then l1.headD 0 else 0
    let l2 := if keepC2 j then l1.drop 1 else l1
    (a, b) :: depuncture k ((j + 1) % 15) l2
/-- The kept ones of pairs of reliabilities, in the order sent. -/
def puncture : Nat → List (Int × Int) → List Int
  | _, [] => []
  | j, p :: r => (if keepC1 j then [p.1] else []) ++ (if keepC2 j then [p.2] else []) ++ puncture ((j + 1) % 15) r

/-- The X200 trellis: the state is the memory. -/
def x200Next (s u : Nat) : Nat := (convNext (BitVec.ofNat 6 s) (decide (u = 1))).toNat
/-- The branch metrics of the X200 trellis from the reliabilities of its outputs. -/
def x200Metrics (l : List (Int × Int)) : List (Nat → Nat → Int) :=
  l.map fun p s u =>
    let o := convOut (BitVec.ofNat 6 s) (decide (u = 1))
    (if o.1 then p.1 else 0) + (if o.2 then p.2 else 0)
/-- One window of the X200 decoder: for each information bit its reliability, and those of its two outputs beyond what
entered. -/
def x200Window (l : List (Int × Int)) : List (Int × Int × Int) :=
  let gs := x200Metrics l
  let out := fun f => maxLogMap 64 2 x200Next gs fun s u => f (convOut (BitVec.ofNat 6 s) (decide (u = 1)))
  let us := maxLogMap 64 2 x200Next gs fun _ u => decide (u = 1)
  (us.zip ((out (·.1)).zip (out (·.2)))).zipWith (fun r p => (r.1, r.2.1 - p.1, r.2.2 - p.2)) l
/-- The X200 decoder over a run: sliding windows of 480 information bits, with 96 bits of overlap on each side (R130). -/
def x200Soft (l : List (Int × Int)) : List (Int × Int × Int) :=
  (List.range ((l.length + 479) / 480)).flatMap fun w =>
    let start := 480 * w - 96
    let r := x200Window ((l.drop start).take (480 * w + 576 - start))
    (r.drop (480 * w - start)).take 480
/-- The bits that a decoder gives back to the lane's stream: bit `i` of codeword `w` stands where the encoder took it. -/
def innerStream (words : List (List Bool)) : List Bool :=
  (List.range (120 * words.length)).map fun k =>
    ((((List.range words.length).flatMap fun w => (List.range 120).map fun i => (w, i)).find? fun p => Config.innerSource p.1 p.2 = k).bind
      fun p => ((words[p.1]?).getD [])[p.2]?).getD false

/-- Information bits in inner codewords of 120. -/
def blocks120 : Nat → List α → List (List α)
  | 0, _ => []
  | k + 1, l => l.take 120 :: blocks120 k (l.drop 120)
/-- Pairs of a list's elements, in order. -/
def pairs : List Int → List (Int × Int)
  | a :: b :: r => (a, b) :: pairs r
  | _ => []

/-- The X200 receiver over the FFE outputs of a run: the MLSE's soft bits, the trellis decoder's extrinsic reliabilities,
the MLSE again with those beforehand, and the decoder's hard decisions (R130). -/
def x200Receive (c : Coef) (ys : List Int) : List Bool :=
  let n := 2 * ys.length
  let w := n * 1088 / (128 * 1089)
  let pass := fun (ps : List (Int × Int)) =>
    let line := (mlseSoft c ys ps).flatMap fun p => [p.1, p.2]
    -- what the decoder gave beforehand is no new reliability of it
    let ext := (line.zip (ps.flatMap (fun p => [p.1, p.2]) ++ List.replicate n 0)).map fun p => p.1 - p.2
    x200Soft ((softWords w ext).flatMap fun v => depuncture 120 0 v)
  let first := pass []
  let back := (blocks120 w first).map fun v => puncture 0 (v.map fun r => (r.2.1, r.2.2))
  innerStream (blocks120 w ((pass (pairs (softLine n back))).map fun r => decide (0 < r.1)))

/-- The bits of the lane's stream that a run of FFE outputs carries, by the lane's inner code and detector, with RX_PRECODE
undone after level `p`; and the last level received (Table 5.6, R124). -/
def lineReceive (code : InnerCode) (mlse precoded : Bool) (c : Coef) (p : Nat) (ys : List Int) : List Bool × Nat :=
  let ds := if mlse then mlseDecide c ys else dfeRun c 0 ys
  let ls := ds.map fun d => ((d + 3) / 2).toNat
  match code with
  | .none => (grayString (if precoded then unprecode p ls else ls), ls.getLastD p)
  | .standard =>
    let line := if mlse then (mlseSoft c ys []).flatMap fun p => [p.1, p.2] else (grayString ls).map fun b => if b then 1 else -1
    (innerStream ((softWords (line.length * 1088 / (128 * 1089)) line).map fun v => (Config.innerDecode v ++ List.replicate 120 false).take 120), ls.getLastD p)
  | .x200 => (x200Receive c ys, ls.getLastD p)

end Sys2Proof.Machine
end

