-- ==== Sys2Proof/Machine/Fracs.lean ====
section
/-! DEFINITION. Arithmetic on exact fractions, for trims (R91 to R99). -/
namespace Sys2Proof

/-- The denominator. -/
def Frac.den (a : Frac) : Int := (a.less : Int) + 1
/-- An integer as a fraction. -/
def Frac.ofInt (n : Int) : Frac := ⟨n, 0⟩
/-- Sum. -/
def Frac.add (a b : Frac) : Frac := ⟨a.num * b.den + b.num * a.den, (a.less + 1) * (b.less + 1) - 1⟩
/-- Difference. -/
def Frac.sub (a b : Frac) : Frac := ⟨a.num * b.den - b.num * a.den, (a.less + 1) * (b.less + 1) - 1⟩
/-- Product with `n / d`. -/
def Frac.scale (a : Frac) (n : Int) (d : Nat) : Frac := ⟨a.num * n, (a.less + 1) * d - 1⟩
/-- Is the magnitude at most `n / d`? -/
def Frac.within (a : Frac) (n d : Nat) : Bool := decide (a.num.natAbs * d ≤ n * (a.less + 1))
/-- The fraction limited to the range from `-n` to `n`. -/
def Frac.clamp (a : Frac) (n : Nat) : Frac := if a.within n 1 then a else ⟨if a.num < 0 then -(n : Int) else n, 0⟩
/-- The nearest multiple of `1 / k`, ties away from zero (R92). -/
def Frac.quant (a : Frac) (k : Nat) : Frac :=
  let m : Nat := (2 * a.num.natAbs * k + (a.less + 1)) / (2 * (a.less + 1))
  ⟨if a.num < 0 then -(m : Int) else m, k - 1⟩

/-- The same fraction in lowest terms, so that sums of many terms stay small. -/
def Frac.norm (a : Frac) : Frac :=
  let g := Nat.gcd a.num.natAbs (a.less + 1)
  ⟨a.num / (g : Int), (a.less + 1) / g - 1⟩
/-- Is `a` less than `b`? -/
def Frac.lt (a b : Frac) : Bool := decide (a.num * b.den < b.num * a.den)
/-- The larger of two fractions. -/
def Frac.max (a b : Frac) : Frac := if a.lt b then b else a

end Sys2Proof
end

