-- ==== Sys2Proof/Machine/LaneOps.lean ====
section
/-! DEFINITION. Operations on lanes, ports and cages that several families share: access, amplitude ramps, slice maps,
trims and their acceptance, port state on loss of a lane, and the health causes that lanes set. -/
namespace Sys2Proof.Machine

/-! ## Access -/

/-- Lane `n`. -/
def lane (s : State) (n : Nat) : Lane := mget s.lanes.tab n Lane.init
/-- Changes lane `n`. -/
def modLane (n : Nat) (f : Lane → Lane) (s : State) : State := s.mapLanes fun b => { b with tab := mmod b.tab n Lane.init f }
/-- Port `p`, if it exists. -/
def port? (s : State) (p : Nat) : Option Port := mfind s.ports.tab p
/-- Port `p`, or one with the values of `Port.init`. -/
def portD (s : State) (p : Nat) : Port := mget s.ports.tab p Port.init
/-- Changes port `p` if it exists. -/
def modPort (p : Nat) (f : Port → Port) (s : State) : State :=
  match port? s p with
  | none => s
  | some q => s.mapPorts fun b => { b with tab := mput b.tab p (f q) }
/-- Adds to a counter of port `p` (the index of Table 7.6). -/
def portCount (p k n : Nat) (s : State) : State := modPort p (fun q => { q with ctr := ctrAdd q.ctr k n }) s
/-- Adds to a counter of lane `n` (the index of Table 15.7). -/
def laneCount (n k a : Nat) (s : State) : State := modLane n (fun l => { l with ctr := ctrAdd l.ctr k a }) s
/-- Cage `c`. -/
def cage (s : State) (c : Nat) : Cage := mget s.cages.tab c Cage.init
/-- Changes cage `c`. -/
def modCage (c : Nat) (f : Cage → Cage) (s : State) : State := s.mapCages fun b => { b with tab := mmod b.tab c Cage.init f }
/-- The lanes of port `p`. -/
def portLanes (s : State) (p : Nat) : List Nat := List.range' p (portD s p).lanes
/-- The lanes of cage `c`. -/
def cageLanes (c : Nat) : List Nat := List.range' (8 * c) 8
/-- The ports of cage `c`. -/
def cagePorts (s : State) (c : Nat) : List Nat := (s.ports.tab.filter fun p => decide (p.1 / 8 = c)).map (·.1)
/-- Applies an operation for each number of a list in turn. -/
def forEach (l : List Nat) (f : Nat → State → State) (s : State) : State := l.foldl (fun s n => f n s) s

/-- The device acts as the secondary of a Geode pair (R464, Table 18.1). -/
def isSecondary (s : State) : Bool := decide (s.bed.geoRole = 2) || (decide (s.bed.geoRole = 1) && s.geo.blind)
/-- The device holds a Geode role (R464). -/
def holdsRole (s : State) : Bool := decide (s.bed.geoRole ≠ 0)

/-- A SyncE output is squelched at once when its source lane is not ACQUIRED (R458). -/
def squelchSynce (n : Nat) (s : State) : State :=
  let off : BitVec 2 := BitVec.ofNat 2 (b2n (decide (s.tim.src0 = n)) + 2 * b2n (decide (s.tim.src1 = n)))
  s.mapTim fun t => { t with synceOn := t.synceOn &&& ~~~ off }

/-- Adaptation of a lane is frozen: a brownout freeze, a freeze on loss, or ADAPT_HOLD on an acquired lane (R111,
R112). -/
def laneFrozen (s : State) (l : Lane) : Bool :=
  s.bed.boActive || decide (l.state = .losPending) || decide (l.state = .los) || decide (l.state = .losHeld) ||
    (decide (l.state = .acquired) && l.set.adaptHold)

/-- A freeze on loss holds the CDR's frequency integrator too (R111, R113). -/
def lossFrozen (l : Lane) : Bool := decide (l.state = .losPending) || decide (l.state = .los) || decide (l.state = .losHeld)
/-- The mode of the receiver: on the Geode secondary its alternate attempts run S200 (R133). -/
def rxMode (l : Lane) : Nat := if l.rxAlt then 1 else l.opMode
/-- The rotation step that a freeze leaves: one that has not reached its switch is abandoned (R101). -/
def keptStep (l : Lane) : Option Rot :=
  match l.rot with
  | none => none
  | some r => if r.phase = .shadow then none else some r
/-- The noise-floor measurement runs: NO_SIGNAL or LOS_HELD, with the switch CLOSED and no loop path (R105, R116, R185). -/
def noiseRuns (l : Lane) : Bool := (decide (l.state = .noSignal) || decide (l.state = .losHeld)) && !l.swOpen && !l.loop
/-- The CTLE code in force: 0x00 while the noise floor is measured (R105). -/
def ctleOn (l : Lane) : Nat := if noiseRuns l then 0 else l.ctle
/-- The VGA code in force: +12 dB while the noise floor is measured (R105). -/
def vgaOn (l : Lane) : Nat := if noiseRuns l then 0x48 else l.vga

/-- A lane for its port is acquired: ACQUIRED, or LOS_PENDING (R174). -/
def laneUp (l : Lane) : Bool := decide (l.state = .acquired) || decide (l.state = .losPending)

/-! ## Ports on loss and gain of lanes (R174, R559) -/

/-- The port goes DOWN with a cause, and PORT_DOWN is posted; a frame that it was receiving ends with a forced FCS error (Table 7.3,
Table 15.14, R119). -/
def portDown (p detail : Nat) (s : State) : State :=
  let s := modPort p (fun q =>
    { q with state := .down, leftUp := q.leftUp || decide (q.state = .up), cut := q.cut || decide (q.state = .up), rf := false }) s
  post 0x1011 1 p detail (portCount p 40 1 s)

/-- A lane of the port enters a state other than ACQUIRED and LOS_PENDING (Table 7.3). -/
def portLaneLost (n : Nat) (s : State) : State :=
  match (lane s n).port with
  | none => s
  | some p =>
    match port? s p with
    | none => s
    | some q =>
      if (q.state = .aligning ∨ q.state = .up) ∧ q.loopback ≠ 2 then portDown p (n * 256) s else s

/-- The port moves to ALIGNING when its condition holds (Table 7.3). -/
def portTryAlign (p : Nat) (s : State) : State :=
  match port? s p with
  | none => s
  | some q =>
    if (q.state = .preparing ∨ q.state = .down) ∧
        (q.loopback = 2 ∨ (portLanes s p).all (fun n => decide ((lane s n).state = .acquired)) = true) ∧ q.deleting = false
    then modPort p (fun q => { q with state := .aligning }) s
    else s

/-- "Can transmit": UP with RF clear (R176). -/
def canTransmit (q : Port) : Bool := decide (q.state = .up) && !q.rf

/-! ## Amplitude ramps (R143 to R146) -/

/-- A request to ramp lane `n` up: not while it is muted, reversing a ramp down at its step, without effect while it
ramps up or transmits. A transmitter that starts from high impedance begins with the X200 memory and the precoder at zero (R127; log
136). -/
def laneRampUp (n : Nat) (s : State) : State :=
  let l := lane s n
  if l.mute || decide (l.state = .off) then s
  else
    match l.tx with
    | .rampUp => s
    | .transmitting => s
    | .rampDown => modLane n (fun l => { l with tx := .rampUp }) s
    | .hiZ => modLane n (fun l => { l with tx := .rampUp, step := 0, rampUs := l.set.rampTime, convMem := 0, txPre := 0 }) s
    | .muted => modLane n (fun l => { l with tx := .rampUp, step := 0, rampUs := l.set.rampTime }) s
    | .stopping => modLane n (fun l => { l with tx := .rampUp, step := 0, rampUs := l.set.rampTime, convMem := 0, txPre := 0 }) s

/-- A request to ramp lane `n` down, to stop or to mute. A request to stop during a ramp down to mute makes it end
stopped (Table 15.13); a muted lane that stops drives zero for 1 us and then releases (R144). -/
def laneRampDown (n : Nat) (stop : Bool) (s : State) : State :=
  let l := lane s n
  match l.tx with
  | .hiZ => s
  | .stopping => s
  | .muted => if stop then modLane n (fun l => { l with tx := .stopping }) s else s
  | .rampDown => modLane n (fun l => { l with rampStop := l.rampStop || stop }) s
  | .rampUp => modLane n (fun l => { l with tx := .rampDown, rampStop := stop }) s
  | .transmitting => modLane n (fun l => { l with tx := .rampDown, step := 64, rampUs := l.set.rampTime, rampStop := stop }) s

/-- The lane's output is not at rest: a ramp runs or the outputs wait for their release. -/
def laneRamping (l : Lane) : Bool := decide (l.tx = .rampUp) || decide (l.tx = .rampDown) || decide (l.tx = .stopping)

/-! ## Slices (R86 to R90, R102) -/

/-- Bank of a slice by its SLICE_MAP bit: 0 A, 1 B. -/
def sliceBank (i : Nat) : Nat := i / 34
/-- The slices of a bank. -/
def bankSlices (b : Nat) : List Nat := List.range' (34 * b) 34
/-- Spares of a bank: neither in service nor faulty. -/
def bankSpares (l : Lane) (b : Nat) : List Nat :=
  (bankSlices b).filter fun i => !l.sliceMap.getLsbD i && !l.sliceFault.getLsbD i
/-- Slices of a bank in service. -/
def bankInService (l : Lane) (b : Nat) : List Nat := (bankSlices b).filter fun i => l.sliceMap.getLsbD i
/-- The slice of a list that has waited longest since it last entered or left service, ties to the lowest number. -/
def longest (l : Lane) : List Nat → Option Nat
  | [] => none
  | i :: r =>
    match longest l r with
    | none => some i
    | some j => if mget l.since j 0 < mget l.since i 0 then some j else some i
/-- The bit of a slice. -/
def sliceBit (i : Nat) : BitVec 68 := 1 <<< i
/-- The map changes: `out` leaves service and `inc` enters it. -/
def switchMap (out inc : Nat) (l : Lane) : Lane :=
  let q := l.mapSeq + 1
  { l with
    sliceMap := (l.sliceMap &&& ~~~ sliceBit out) ||| sliceBit inc
    mapSeq := q
    since := mput (mput l.since out q) inc q }
/-- A map is acceptable to force: exactly 32 slices in service in each bank, none of them faulty (R90). -/
def mapValid (l : Lane) (m : BitVec 68) : Bool :=
  [0, 1].all (fun b => decide (((bankSlices b).filter fun i => m.getLsbD i).length = 32)) && decide (m &&& l.sliceFault = 0)

/-! ## Trims (R91 to R94, R98) -/

/-- The sensor of a cage reads validly. -/
def sensor (s : State) (k : Nat) : Option Int := if s.bed.tempFault.contains k then none else mfind s.bed.temp k
/-- The highest valid reading of TS0-TS39. -/
def hottest (s : State) : Option Int :=
  (List.range 40).foldl (fun m k => match sensor s k, m with
    | none, m => m
    | some t, none => some t
    | some t, some u => some (max t u)) none
/-- T of a lane in 1/16 degC: its cage sensor, its last valid reading, the hottest valid sensor, or the +40 degC set
(R93). -/
def laneTemp (s : State) (n : Nat) : Int :=
  match sensor s (n / 8) with
  | some t => t
  | none => ((lane s n).validT).getD ((hottest s).getD 640)

/-- F(T): the factory sets of a quantity interpolated at `t2 / 32` degC (R93). -/
def interpolate (a b c : Frac) (t2 : Int) : Frac :=
  if t2 ≤ -320 then a
  else if t2 ≤ 1280 then a.add ((b.sub a).scale (t2 + 320) 1600)
  else if t2 ≤ 3040 then b.add ((c.sub b).scale (t2 - 1280) 1760)
  else c
/-- Factory trims of a slice of a lane at `t2 / 32` degC. -/
def factory (s : State) (n i : Nat) (t2 : Int) : Trim :=
  let f := fun k => ((mget s.fuse.trims (n * 68 + i) [])[k]?).getD ⟨0, 0⟩
  { offset := interpolate (f 0) (f 3) (f 6) t2, gain := interpolate (f 1) (f 4) (f 7) t2, skew := interpolate (f 2) (f 5) (f 8) t2 }
/-- The trims in force of a slice: q(clamp(F(T) + delta)) (R92). -/
def trimOf (s : State) (n i : Nat) (t : Int) : Trim :=
  let f := factory s n i (2 * t)
  let d := mget (lane s n).delta i Trim.init
  { offset := ((f.offset.add d.offset).clamp 16).quant 16
    gain := ((f.gain.add d.gain).clamp 6).quant 64
    skew := ((f.skew.add d.skew).clamp 3).quant 64 }
/-- A sensor is read: a valid reading is kept, for each powered lane of its cage too, and the converters of a strip's powered pairs follow
it, TS35 with the Geode pairs, link 128 (Table 8.1, R225); a fault is noted, and TEMP_SENSOR_FAULT posted once (R93, R555). -/
def readSensor (k : Nat) (reading : Option Int) (s : State) : State :=
  match reading with
  | some t =>
    let s := s.mapBed fun b => { b with temp := mput b.temp k t, tempFault := b.tempFault.filter (· ≠ k) }
    let s := s.mapLanes fun b => { b with tab := mmap b.tab fun n l => if n / 8 = k ∧ l.state ≠ .off then { l with validT := some t } else l }
    if k < 32 then s
    else
      s.mapGar fun g =>
        { g with
          links := mmap g.links fun n l =>
            if (if n = 128 then 35 else 32 + n / 16) = k then
              { l with pairs := mmap l.pairs fun _ p => if p.state = .off then p else { p with trimT := t } }
            else l }
  | none =>
    if s.bed.tempFault.contains k then s
    else post 0x0005 1 k 0 (s.mapBed fun b => { b with tempFault := linsert b.tempFault k })

/-- Recomputes every trim of a lane at T and applies them together (R93). -/
def recomputeTrims (n : Nat) (t : Int) (s : State) : State :=
  modLane n (fun l => { l with trimT := t, trims := (List.range 68).map fun i => (i, trimOf s n i t) }) s

/-- A measured value of one quantity is plausible: within the trim range, near the factory value, and for a background
measurement near the previous correction (Table 4.6). -/
def valueOk (m f d : Frac) (range dev chN chD : Nat) (bg : Bool) : Bool :=
  m.within range 1 && (m.sub f).within dev 1 && (!bg || ((m.sub f).sub d).within chN chD)
/-- The sensor moved by at most 2.0 degC (Table 4.6). -/
def sensorSteady (t0 t1 : Int) : Bool := decide ((t1 - t0).natAbs ≤ 32)
/-- Every trim of slice `i` in a foreground run is plausible. -/
def fgSliceOk (s : State) (n i : Nat) (r : FgRun) : Bool :=
  match r.meas[i]? with
  | none => false
  | some m =>
    let f := factory s n i (r.t0 + r.t1)
    valueOk m.offset f.offset ⟨0, 0⟩ 16 4 0 1 false && valueOk m.gain f.gain ⟨0, 0⟩ 6 2 0 1 false &&
      valueOk m.skew f.skew ⟨0, 0⟩ 3 1 0 1 false
/-- A foreground run is plausible (R98). -/
def fgRunOk (s : State) (n : Nat) (r : FgRun) : Bool :=
  sensorSteady r.t0 r.t1 && (List.range 68).all fun i => fgSliceOk s n i r
/-- Two measurements of a slice agree (R99). -/
def measAgree (a b : Meas) : Bool :=
  (a.offset.sub b.offset).within 1 1 && (a.gain.sub b.gain).within 1 2 && (a.skew.sub b.skew).within 3 20
/-- Slice `i` of two runs agrees. -/
def sliceAgree (a b : FgRun) (i : Nat) : Bool :=
  match a.meas[i]?, b.meas[i]? with
  | some x, some y => measAgree x y
  | _, _ => false
/-- Two runs agree (R99). -/
def runAgree (a b : FgRun) : Bool := (List.range 68).all (sliceAgree a b)
/-- The mean of two measurements, rounded as q (R99). -/
def measMean (a b : Meas) : Meas :=
  { offset := ((a.offset.add b.offset).scale 1 2).quant 16
    gain := ((a.gain.add b.gain).scale 1 2).quant 64
    skew := ((a.skew.add b.skew).scale 1 2).quant 64 }

/-- What a decision needs or answers: more runs, rejection, or the runs to take (one, or two whose mean is taken). -/
inductive Verdict where
  | more
  | reject
  | take (a : FgRun) (b : Option FgRun)
deriving DecidableEq, Repr

/-- The decision of R99 over the runs so far, with the plausibility `ok` and agreement `ag` of a set of slices. Over a whole run the
third run is taken only when the first two did not agree; over one slice they may have. -/
def decideRuns (geode : Bool) (ok : FgRun → Bool) (ag : FgRun → FgRun → Bool) : List FgRun → Verdict
  | [] => .more
  | [a] => if geode then .more else if ok a then .take a none else .reject
  | [a, b] =>
    if !geode then .reject
    else if ok a && ok b && ag a b then .take a (some b) else .more
  | a :: b :: c :: _ =>
    if ok a && ok b && ag a b then .take a (some b)
    else if ok c && ok a && ag a c then .take a (some c)
    else if ok c && ok b && ag b c then .take b (some c)
    else .reject

/-- The correction that an accepted measurement of slice `i` sets: M less F(T_m) (R94). For the mean of two runs T_m is the mean of
their four sensor readings, down to 1/32 degC (DESIGN CHOICE, log 141). -/
def deltaOf (s : State) (n i : Nat) (a : FgRun) (b : Option FgRun) : Option Trim :=
  match b with
  | none =>
    (a.meas[i]?).map fun m =>
      let f := factory s n i (a.t0 + a.t1)
      { offset := m.offset.sub f.offset, gain := m.gain.sub f.gain, skew := m.skew.sub f.skew }
  | some b =>
    match a.meas[i]?, b.meas[i]? with
    | some x, some y =>
      let m := measMean x y
      let f := factory s n i ((a.t0 + a.t1 + b.t0 + b.t1) / 2)
      some { offset := m.offset.sub f.offset, gain := m.gain.sub f.gain, skew := m.skew.sub f.skew }
    | _, _ => none
/-- Sets the corrections of the slices of a list from accepted runs. -/
def acceptSlices (n : Nat) (is : List Nat) (v : Nat → Verdict) (s : State) : State :=
  forEach is (fun i t =>
    match v i with
    | .take a b =>
      match deltaOf s n i a b with
      | some d => modLane n (fun l => { l with delta := mput l.delta i d }) t
      | none => t
    | _ => t) s

/-! ## Health causes of lanes (Table 19.6) -/

/-- Puts causes [8], [9] and [16] as the lanes stand. -/
def laneCauses (s : State) : State :=
  let on := s.lanes.tab.filter fun p => decide (p.2.state ≠ .off)
  let c8 := on.any fun p => (bankSpares p.2 0).isEmpty || (bankSpares p.2 1).isEmpty
  let c9 := on.any fun p => p.2.rejFlag
  let c16 := on.any fun p => p.2.withdrawn
  setCauses ((s.health.causes &&& ~~~ 0x103) ||| BitVec.ofNat 12 (b2n c8 + 2 * b2n c9 + 256 * b2n c16)) s

/-- A bank cannot fill 32 positions: the lane is withdrawn (Table 4.7). -/
def withdrawLane (n b : Nat) (s : State) : State :=
  let s := laneRampDown n true s
  let s := modLane n (fun l => { l with withdrawn := true, ready := false, state := .noSignal, rot := none }) s
  post 0x1006 2 n b (portLaneLost n (squelchSynce n s))

/-- Marks a slice faulty: replaced at once by the bank's longest-waiting spare where it is in service, withdrawn where
it is a spare; a bank left without a spare posts SPARES_EXHAUSTED, one that cannot fill its positions withdraws the
lane (R102, Table 4.7). -/
def markFaulty (n i : Nat) (s : State) : State :=
  let l := lane s n
  let b := sliceBank i
  let fault := fun (l : Lane) =>
    { l with sliceFault := l.sliceFault ||| sliceBit i, sliceMap := l.sliceMap &&& ~~~ sliceBit i, bgRej := mdel l.bgRej i }
  let spares := (bankSpares l b).filter (· ≠ i)
  let s := post 0x1004 1 n i s
  if l.sliceMap.getLsbD i then
    match longest l spares with
    | none => withdrawLane n b (modLane n fault s)
    | some j =>
      let s := modLane n (fun l => fault (switchMap i j l)) s
      if spares.length = 1 then post 0x1005 1 n b s else s
  else
    let s := modLane n fault s
    if spares.isEmpty then post 0x1005 1 n b s else s

/-! ## Lane start and power -/

/-- The state and marks of a lane that restarts cold: no held set, no rotation, no forced map, a new episode of loss of signal (R83,
R90; log 142). -/
def coldLane (l : Lane) : Lane :=
  { l with
    state := if l.cal.isSome && !(l.waitSlot && l.ready) then .calibrating else .noSignal
    held := none, rot := none, forced := false, warmFreq := false, xwin := none, noisePosted := false, noiseHigh := 0 }

/-- The lane restarts cold on the trims in force; its port loses it if it had it (R83, R174). -/
def laneCold (n : Nat) (s : State) : State :=
  let was := laneUp (lane s n)
  let s := squelchSynce n (modLane n coldLane s)
  if was then portLaneLost n s else s

/-- The lane's transmitter and receiver change to an operating mode: the X200 memory is zero after every change (R127, R132). -/
def laneMode (mode : Nat) (l : Lane) : Lane :=
  if l.opMode = mode then l else { l with opMode := mode, rxAlt := false, convMem := 0, txPre := 0 }

/-- The lane is power-gated: it keeps its settings, its counters and its last measures (R169, R399, R400). -/
def laneGate (n : Nat) (s : State) : State :=
  squelchSynce n (modLane n (fun l =>
    { Lane.init with
      set := l.set, ctr := l.ctr, snr := l.snr, freqOff := l.freqOff, coef := l.coef, cursorOn := l.cursorOn, vga := l.vga, ctle := l.ctle
      latency := l.latency, acqUs := l.acqUs, warmLast := l.warmLast, losCause := l.losCause, fgResult := l.fgResult
      noise := l.noise, noiseAt := l.noiseAt, belowOwn := l.belowOwn, ownNoise := l.ownNoise, mute := l.mute }) s)

/-- The lane is powered for port `p` in a lane mode, and waits for its foreground calibration: its stored settings apply, with a FIXED
CTLE code in force; no correction is known, so the factory trims are in force (R84, R89, R92, R95, R169, R399). -/
def lanePower (n p mode : Nat) (loop : Bool) (s : State) : State :=
  let s := modLane n (fun l =>
    { Lane.init with
      set := l.set, ctr := [], port := some p, state := .calibrating, cfgMode := mode, opMode := mode, waitSlot := true
      ctle := if l.set.ctleMode = 1 then l.set.ctleCode else 0
      loop := loop, swOpen := loop
      cal := some Cal.init, mute := l.mute || isSecondary s
      ownNoise := l.ownNoise }) s
  recomputeTrims n (laneTemp s n) s

end Sys2Proof.Machine
end

