-- ==== Sys2Proof/Machine/AuxAnalog.lean ====
section
/-! DEFINITION. The auxiliary DACs and ADC: their settings, triggers, faults and commands (R442, R505 to R510). -/
namespace Sys2Proof.Machine

/-! ## The DACs -/

/-- What an output does: it drives a voltage in V, sources a current in mA, or is released (R505). -/
inductive DacDrive where
  | voltage (v : Frac)
  | current (i : Frac)
  | released
deriving DecidableEq, Repr

/-- What an output does by its code and mode; nothing while a mode change passes through high impedance (R505). -/
def Dac.drive (d : Dac) : DacDrive :=
  if d.changing || decide (d.mode = 2) then .released
  else if d.mode = 1 then .current ⟨2 * d.code.toNat, 4094⟩
  else .voltage ⟨5 * d.code.toNat, 8189⟩

/-- What a code of an ADC channel stands for, in V, for channel 15 in degC (Table 20.7). -/
def adcValue (ch code : Nat) : Frac :=
  if ch = 15 then ⟨(code : Int) - 1024, 15⟩ else if ch = 13 ∨ ch = 14 then ⟨5 * code, 4095⟩ else ⟨5 * code, 8191⟩

/-- Output m. -/
def dacOut (s : State) (m : Nat) : Dac := mget s.dac.outs m Dac.init

/-- Changes output m. -/
def modDac (m : Nat) (f : Dac → Dac) (s : State) : State := s.mapDac fun d => { d with outs := mmod d.outs m Dac.init f }

/-- Some output's high-impedance interval runs (R505). -/
def dacChanging (s : State) : Bool := many s.dac.outs fun _ d => d.changing

/-- The output takes a code and a mode; a change of mode passes through high impedance (R505). -/
def Dac.take (d : Dac) (code mode : Nat) : Dac :=
  { d with code := BitVec.ofNat 12 code, mode := mode, changing := d.changing || decide (d.mode ≠ mode) }

/-- The power-up setting of output m in the OTP device area: its CODE and MODE, or code 0 and high-impedance when its
VALID bit is clear (Table 20.6, R506). A reserved MODE cannot be programmed. -/
def dacOtp (s : State) (m : Nat) : Nat × Nat :=
  if bitOf (fieldAt s.otp.area 0 4) (3 + m) then (fieldAt s.otp.area (0x10 + 4 * m) 2 % 4096, byteAt s.otp.area (0x12 + 4 * m))
  else (0, 2)

/-- Every output takes its power-up setting, from high-impedance (R506). -/
def dacApplyOtp (s : State) : State :=
  forEach (List.range 16) (fun m s => modDac m (fun _ => Dac.init.take (dacOtp s m).1 (dacOtp s m).2) s)
    (s.mapDac fun _ => DacBank.init)

/-- The outputs of a mask, in rising order. -/
def maskBits (n mask : Nat) : List Nat := (List.range n).filter fun i => bitOf mask i

/-- The auxiliary analogue has its rail (Table 3.2). -/
def auxUp (s : State) : Bool := railUp s 9

/-- AUXDAC_SET (R442): one code and mode for every output of the mask; it waits while a high-impedance interval runs
(R508). -/
def execAuxdacSet (id : Nat) (s : State) : Host.Outcome State Fault Refusal :=
  .next (
    if dacChanging s then s
    else
      runCmd id 0xD8
        (fun c _ => firstFail [(plainBad c 0 5 || decide (4095 < c.inl 34 2) || decide (2 < c.byte 36), .invalidField)])
        (fun c s =>
          let outs := maskBits 16 (c.inl 32 2)
          if !auxUp s then .fail .notReady s
          else if outs.any fun m => (dacOut s m).fault then .fail .hwError s
          else .ok (forEach outs (fun m => modDac m (·.take (c.inl 34 2) (c.byte 36))) s)) s)

/-- AUXDAC_MODE_CHANGE_END: the high-impedance interval of the outputs that change mode ends (R505). -/
def execAuxdacModeChangeEnd (s : State) : Host.Outcome State Fault Refusal :=
  .next (s.mapDac fun d => { d with outs := mmap d.outs fun _ o => { o with changing := false } })

/-- AUX_OVER_TEMP: a driver exceeds 120 degC: flag and fault set, the output returns to its power-up setting, the event is
posted and alert cause [11] is set (R507). -/
def execAuxOverTemp (output : Nat) (s : State) : Host.Outcome State Fault Refusal :=
  .next (
    if 16 ≤ output ∨ !auxUp s ∨ !s.bed.auxValid then s
    else if (dacOut s output).fault then modDac output (fun d => { d with overTemp := true }) s
    else
      let o := dacOtp s output
      let s := modDac output (fun d => { d.take o.1 o.2 with overTemp := true, fault := true }) s
      (post 0xD005 1 output 0 s).mapMgmt fun m => { m with alert := m.alert ||| 8 })

/-- AUXDAC_FAULT_END: the driver has stayed below 110 degC for 10 ms: the fault ends, and the flag is clear (R507). -/
def execAuxdacFaultEnd (output : Nat) (s : State) : Host.Outcome State Fault Refusal :=
  .next (
    if (dacOut s output).fault then modDac output (fun d => { d with overTemp := false, fault := false }) s else s)

/-! ## The ADC -/

/-- A trigger (R510): 0 it started a sequence, 1 it was latched, 2 it was counted as TRIGGER_OVERRUN. -/
def adcTrigger (s : State) : Nat × State :=
  if s.adc.run = 0 then (0, s.mapAdc fun a => { a with run := a.mask })
  else if !s.adc.latched then (1, s.mapAdc fun a => { a with latched := true })
  else (2, s.mapObs fun o => { o with overrun := o.overrun.add 1 })

/-- A trigger from a source of AUXADC_SEQ: it acts while that source is chosen, a sequence is set and the rail is up. -/
def adcSource (source : Nat) (s : State) : State :=
  if s.adc.source = source ∧ s.adc.mask ≠ 0 ∧ auxUp s then (adcTrigger s).2 else s

/-- The ADC block is off while no sequence runs (Table 19.2). -/
def adcOff (s : State) : Bool := decide (s.adc.run = 0)

/-- AUXADC_SEQ (R442, R510): the settings act from the next sequence start; the PERIOD timer restarts. -/
def execAuxadcSeq (id : Nat) (s : State) : Host.Outcome State Fault Refusal :=
  .next (runCmd id 0xD9
    (fun c _ => firstFail [
      (plainBad c 0 8 || decide (c.inl 32 2 = 0) || decide (2 < c.byte 34) || decide (c.byte 35 ≠ 0) ||
        (if c.byte 34 = 1 then decide (c.inl 36 4 < 10) || decide (1000000 < c.inl 36 4) else decide (c.inl 36 4 ≠ 0)), .invalidField)])
    (fun c s =>
      if !auxUp s then .fail .notReady s
      else if c.flag 2 && adcOff s then .fail .blockOff s
      else
        .ok (s.mapAdc fun a =>
          { a with mask := c.inl 32 2, source := c.byte 34, period := c.inl 36 4, periodFrom := s.now })) s)

/-- AUXADC_TRIGGER: RESULT0 says what became of the trigger (R442). -/
def execAuxadcTrigger (id : Nat) (s : State) : Host.Outcome State Fault Refusal :=
  .next (runCmd id 0xDA
    (fun c _ => firstFail [(plainBad c 0 0, .invalidField)])
    (fun c s =>
      if !auxUp s then .fail .notReady s
      else if c.flag 2 && adcOff s then .fail .blockOff s
      else
        let r := adcTrigger s
        { Ran.ok r.2 with r0 := BitVec.ofNat 64 r.1 }) s)

/-- ADC_PERIOD_TIMER: the PERIOD timer has run out (R510). -/
def execAdcPeriodTimer (s : State) : Host.Outcome State Fault Refusal :=
  .next (
    if s.adc.source = 1 then adcSource 1 (s.mapAdc fun a => { a with periodFrom := s.now }) else s)

/-- Stores the codes of a sequence's channels, saturated at 4,095 (R509). -/
def storeCodes : List Nat → List Nat → Map Nat → Map Nat
  | ch :: chs, v :: vs, m => storeCodes chs vs (mput m ch (min v 4095))
  | _, _, m => m

/-- ADC_SEQUENCE_END: each result is stored as its channel's last code; a latched trigger starts the next sequence under
the settings in force (R510). -/
def execAdcSequenceEnd (codes : List Nat) (s : State) : Host.Outcome State Fault Refusal :=
  .next (
    if s.adc.run = 0 then s
    else
      let s := s.mapObs fun o => { o with adcDone := o.adcDone.add 1 }
      s.mapAdc fun a =>
        { a with codes := storeCodes (maskBits 16 a.run) codes a.codes, run := if a.latched then a.mask else 0, latched := false })

/-! ## AUX_STATUS -/

/-- The drivers that have fallen below 120 degC lose their over-temperature flag (R507). -/
def dacCool (cool : List Nat) (s : State) : State :=
  forEach cool (fun m s => if (dacOut s m).overTemp then modDac m (fun d => { d with overTemp := false }) s else s) s

/-- Bytes 2m and 2m + 1 of AUX_STATUS. -/
def Dac.word (d : Dac) : Nat :=
  d.code.toNat + 4096 * b2n (decide (d.mode = 1)) + 8192 * b2n d.overTemp + 16384 * b2n d.fault +
    32768 * b2n (decide (d.mode = 2) || d.changing)

/-- The 80 bytes of AUX_STATUS (R442). -/
def auxBlock (s : State) : List Byte :=
  ((List.range 16).flatMap fun m => leBytes 2 (dacOut s m).word) ++
    ((List.range 16).flatMap fun i => leBytes 2 (mget s.adc.codes i 0)) ++ s.obs.overrun.bytes ++ s.obs.adcDone.bytes

/-- AUX_STATUS (R442). -/
def execAuxStatus (id : Nat) (cool : List Nat) (s : State) : Host.Outcome State Fault Refusal :=
  .next (runCmd id 0xDB
    (fun c _ => firstFail [(counterBlockBad c 0 80, .invalidField)])
    (fun c s =>
      if !auxUp s then .fail .notReady s
      else
        let s := dacCool cool s
        withBlock c (auxBlock s) s fun s =>
          if clearWrapOn c then
            s.mapObs fun o => { o with overrun := { o.overrun with wrap := false }, adcDone := { o.adcDone with wrap := false } }
          else s) s)

end Sys2Proof.Machine
end

