-- ==== Sys2Proof/Machine/CageOps.lean ====
section
/-! DEFINITION. The cage state machine, the choice of a port's application, the data-path step, and what the end of a
ramp settles (chapter 06). -/
namespace Sys2Proof.Machine

/-- The cages run: the device has started, VDDIO_CAGE is in range and the cage pins are not held (R55, R491). -/
def cageLive (s : State) : Bool := s.boot.started && railUp s 8 && !s.bed.cageHeld

/-- The lanes of a cage that belong to a port. -/
def cagePortLanes (s : State) (c : Nat) : List Nat := (cageLanes c).filter fun n => (lane s n).port.isSome

/-- Bits of the host lanes of a port within its cage. -/
def hostBits (s : State) (p : Nat) : BitVec 8 :=
  (portLanes s p).foldl (fun b n => b ||| (1 <<< (n % 8) : BitVec 8)) 0

/-- A lane mode as the module sees it: an X200 port takes the application of an S200 port (R158). -/
def appMode (mode : Nat) : Nat := if mode = 2 then 1 else mode

/-- The module advertises an application for the port, and supports the precoding that its lanes set (R142, R158). -/
def portMatches (s : State) (c p : Nat) (i : ModuleInfo) : Bool :=
  let q := portD s p
  let g := cage s c
  i.apps.any (fun a => decide (a.rate = q.rate) && decide (a.lanes = q.lanes) && (a.c2m == g.c2m) && decide (a.mode = appMode q.mode)) &&
    (portLanes s p).all fun n =>
      (!(lane s n).set.txPrecode || i.precodeTx) && (!(lane s n).set.rxPrecode || i.precodeRx)

/-! ## FAULT and removal -/

/-- The commands that wait for transfers of a cage. -/
def cageWaiters (g : Cage) : List Nat := g.i2c.filterMap (·.cmd)

/-- Entry to FAULT: the pins, and nothing left of what was written to the module (Table 6.8). -/
def faultPins (cause : Nat) (g : Cage) : Cage :=
  { g with
    state := .fault, cause := cause, rstAsserted := true, lpmLow := false, i2c := [], apps := [], outDis := 0, dpDeact := 0, ownFails := 0
    lpmDefer := false, hostTxPre := 0, hostRxPre := 0 }

/-- The cage faults: lanes ramp down, Cc_RST_N asserted, Cc_LPM released, Cc_PWREN kept, MODULE_FAULT posted; the
transfers that wait end as failed (Table 6.8, R163). -/
def cageFault (c cause : Nat) (s : State) : State :=
  let g := cage s c
  if g.state = .fault then finishAll (cageWaiters g) .hwError false (modCage c (fun g => { g with i2c := [] }) s)
  else
    let s := forEach (cagePortLanes s c) (fun n s => laneRampDown n true s) s
    let s := forEach (cagePorts s c) (fun p s => modPort p (fun q => { q with dp := .idle }) s) s
    let s := modCage c (faultPins cause) s
    let s := post 0xD003 2 c cause s
    finishAll (cageWaiters g) .hwError false s

/-! ## The data-path step (R159) -/

/-- The end of the ramps of a data-path step: DPDeactivate clears for the port's host lanes and DPActivated is awaited. -/
def dpRamped (p : Nat) (s : State) : State :=
  let s := modPort p (fun q => { q with dp := .waiting }) s
  let b := hostBits s p
  modCage (p / 8) (fun g => { g with dpDeact := g.dpDeact &&& ~~~ b }) s

/-- The ramps of a data-path step have ended: every lane of the port transmits or is muted. -/
def dpRampsDone (s : State) (p : Nat) : Bool :=
  (portLanes s p).all fun n => decide ((lane s n).tx = .transmitting) || (lane s n).mute

/-- Starts the data-path step of a port whose cage is READY, whose application is written, and whose lanes all hold
LANE_READY, while the device is ACTIVE (R159, R160, R479). -/
def dpStart (p : Nat) (s : State) : State :=
  match port? s p with
  | none => s
  | some q =>
    let g := cage s (p / 8)
    if g.state = .ready ∧ g.apps.contains p = true ∧ (portLanes s p).all (fun n => (lane s n).ready) = true ∧
        s.boot.state = .active ∧ q.dp = .idle ∧ q.deleting = false then
      let s := modPort p (fun q => { q with dp := .ramping }) s
      let s := forEach (portLanes s p) (fun n s => laneRampUp n s) s
      if dpRampsDone s p then dpRamped p s else s
    else s

/-! ## Bring-up (Table 6.8) -/

/-- LANE_PREP to POWER_UP: every configured lane holds LANE_READY and the application is applied; Cc_LPM is driven
low, and the module's software low-power control defers to it. -/
def cageTryPowerUp (c : Nat) (s : State) : State :=
  let g := cage s c
  let ls := cagePortLanes s c
  if g.state = .lanePrep ∧ ls ≠ [] ∧ ls.all (fun n => (lane s n).ready) = true ∧ cageLive s = true ∧
      g.i2c.all (fun x => x.cmd.isSome) = true then
    modCage c (fun g => { g with state := .powerUp, lpmLow := true, lpmDefer := true }) s
  else s

/-- The host lanes of ports whose lanes have a setting. -/
def laneBits (s : State) (ps : List Nat) (f : LaneSet → Bool) : BitVec 8 :=
  ((ps.flatMap (portLanes s)).filter fun n => f (lane s n).set).foldl (fun b n => b ||| (1 <<< (n % 8) : BitVec 8)) 0

/-- Selects and writes the applications of ports of a cage, host lanes held in DPDeactivate, OutputDisableTx clear and the host-side
precoder controls as the lanes set them, or faults the cage as APP_MISMATCH (R142, R158, R160). -/
def cageWriteApps (c : Nat) (ps : List Nat) (s : State) : State :=
  let g := cage s c
  match g.info with
  | none => s
  | some i =>
    if ps.all (fun p => portMatches s c p i) then
      let bits := ps.foldl (fun b p => b ||| hostBits s p) 0
      modCage c (fun g =>
        { g with
          dpDeact := g.dpDeact ||| bits, outDis := g.outDis &&& ~~~ bits
          hostTxPre := (g.hostTxPre &&& ~~~ bits) ||| laneBits s ps (·.txPrecode)
          hostRxPre := (g.hostRxPre &&& ~~~ bits) ||| laneBits s ps (·.rxPrecode)
          i2c := g.i2c ++ [{ CageXfer.init with ports := ps }] }) s
    else cageFault c 3 s

/-- The rows of LOW_POWER, in table order (R158). -/
def cageLowPower (c : Nat) (s : State) : State :=
  let g := cage s c
  match g.info with
  | none => s
  | some i =>
    if g.state ≠ .lowPower ∨ cageLive s = false then s
    else if i.revision ≠ 5 then cageFault c 2 s
    else if cagePorts s c = [] then s
    else
      let s := cageWriteApps c (cagePorts s c) s
      if (cage s c).state = .lowPower then modCage c (fun g => { g with state := .lanePrep }) s else s

/-- Entry to LOW_POWER when the cage's last port is deleted (Table 6.8). -/
def cageIdle (c : Nat) (s : State) : State :=
  let g := cage s c
  if (g.state = .lanePrep ∨ g.state = .powerUp ∨ g.state = .ready) ∧ cagePorts s c = [] then
    modCage c (fun g => { g with state := .lowPower, lpmLow := false, apps := [], i2c := g.i2c.filter fun x => x.cmd.isSome }) s
  else s

/-- On the Geode secondary, every host lane of a READY cage whose ramp has ended carries OutputDisableTx (R164); after a
failure the old primary releases Cc_LPM instead (R473). -/
def secondaryDark (c : Nat) (s : State) : State :=
  let g := cage s c
  if isSecondary s ∧ g.state = .ready ∧ s.geo.out.any (fun o => decide (o.cause = 2)) = false then
    let dark := (cageLanes c).filter fun n => !laneRamping (lane s n) && decide ((lane s n).tx ≠ .transmitting)
    let bits := dark.foldl (fun b n => b ||| (1 <<< (n % 8) : BitVec 8)) (0 : BitVec 8)
    modCage c (fun g => { g with outDis := g.outDis ||| bits }) s
  else s

/-- Entry to READY: applications of ports created in POWER_UP are written, and the data-path steps start (R158, R160,
R164). -/
def cageEnterReady (c : Nat) (s : State) : State :=
  let s := modCage c (fun g => { g with state := .ready }) s
  let missing := (cagePorts s c).filter fun p => !(cage s c).apps.contains p
  let s := if missing = [] then s else cageWriteApps c missing s
  secondaryDark c (forEach (cagePorts s c) dpStart s)

/-- A port has been created in a cage: its application is written at the moment R160 gives. -/
def cagePortAdded (c p : Nat) (s : State) : State :=
  match (cage s c).state with
  | .lowPower => cageLowPower c s
  | .lanePrep => cageWriteApps c [p] s
  | .ready => secondaryDark c (cageWriteApps c [p] s)
  | _ => s

/-- A lane has gained LANE_READY: its cage and its port go on (Table 6.8, R160). -/
def laneReadyHook (n : Nat) (s : State) : State :=
  let s := cageTryPowerUp (n / 8) s
  match (lane s n).port with
  | none => s
  | some p => dpStart p s

/-! ## What the end of a ramp settles -/

/-- Every port lane of the device is stopped: no output is driven. -/
def allStopped (s : State) : Bool := s.lanes.tab.all fun p => decide (p.2.tx = .hiZ)
/-- The lane has come to rest after a ramp down. -/
def laneAtRest (l : Lane) : Bool := decide (l.tx = .hiZ) || decide (l.tx = .muted)

/-- Removes a lane from what the commands of an opcode wait for, and completes those that wait for nothing more. -/
def cmdLaneDone (op n : Nat) (s : State) : State :=
  let ids := cmdsWhere s fun c => decide (c.opcode = op) && decide (c.phase = .executing) && c.aux.contains n
  forEach ids (fun id s =>
    let s := modCmd id (fun c => { c with aux := c.aux.filter (· ≠ n) }) s
    match mfind s.fl.cmds id with
    | none => s
    | some c => if c.aux = [] then finish id .success 0 0 true s else s) s

/-- A media change completes when the cage's lanes have ramped down; the cage then restarts at LOW_POWER with new
foreground calibrations, and the data-path step of each port is to run again (R149). -/
def mediaSettle (c : Nat) (s : State) : State :=
  match (cage s c).mediaCmd with
  | none => s
  | some id =>
    if ((cagePortLanes s c).all fun n => decide ((lane s n).tx = .hiZ)) && cageWaiters (cage s c) = [] then
      let low := fun (g : Cage) =>
        if g.state = .lanePrep ∨ g.state = .powerUp ∨ g.state = .ready then { g with state := .lowPower, lpmLow := false, apps := [] } else g
      let s := forEach (cagePorts s c) (fun p s => modPort p (fun q => { q with dp := .idle }) s) s
      let s := modCage c (fun g => { low g with mediaCmd := none, c2m := !g.c2m }) s
      let s := forEach (cagePortLanes s c) (fun n s =>
        modLane n (fun l => { l with ready := false, cal := some Cal.init, waitSlot := true, fgResult := l.fgResult })
          (laneCold n (modLane n (fun l => { l with cal := some Cal.init }) s))) s
      let s := finish id .success 0 0 true s
      cageLowPower c s
    else s

/-- A port being deleted ends once none of its lanes drives its output: the lanes are power-gated, the port and what
it held are gone, the cage idles when it was the last and else may go on without it, and PORT_DELETE completes (R169, R395). -/
def portDeleteSettle (p : Nat) (s : State) : State :=
  match port? s p with
  | none => s
  | some q =>
    if q.deleting ∧ (portLanes s p).all (fun n => decide ((lane s n).tx = .hiZ)) = true then
      let ls := portLanes s p
      let s := forEach ls laneGate s
      let s := s.mapPorts fun b => { b with tab := mdel b.tab p }
      let s := modCage (p / 8) (fun g => { g with apps := g.apps.filter (· ≠ p) }) s
      let s := laneCauses (cageTryPowerUp (p / 8) (cageIdle (p / 8) s))
      finishAll (cmdsWhere s fun c => decide (c.opcode = 0x11) && decide (c.target = p) && decide (c.phase = .executing)) .success true s
    else s

/-- The lane has come to the end of a ramp up: LANE_MUTE commands and the port's data-path step go on (R159, R403). -/
def rampUpEnd (n : Nat) (s : State) : State :=
  let s := cmdLaneDone 0x1B n s
  match (lane s n).port with
  | none => s
  | some p =>
    match port? s p with
    | none => s
    | some q => if q.dp = .ramping ∧ dpRampsDone s p = true then dpRamped p s else s

/-- The lane has come to the end of a ramp down to mute or to stop. -/
def rampDownEnd (n : Nat) (s : State) : State :=
  let s := cmdLaneDone 0x1B n s
  let s := secondaryDark (n / 8) s
  match (lane s n).port with
  | none => s
  | some p =>
    match port? s p with
    | none => s
    | some q => if q.dp = .ramping ∧ dpRampsDone s p = true then dpRamped p s else s

end Sys2Proof.Machine
end

