-- ==== Sys2Proof/Machine/Cages.lean ====
section
/-! DEFINITION. The meanings of the cage rows: presence, bring-up, running modules, the I2C transfers, and the cage
commands (chapter 06 and R439 to R441). -/
namespace Sys2Proof.Machine

/-! ## Presence (R157) -/

/-- The cage leaves ABSENT for POWER_ON (Table 6.8). -/
def cagePowerOn (c : Nat) (s : State) : State :=
  modCage c (fun g => { g with state := .powerOn, cause := 0, pwren := true, rstAsserted := true, lpmLow := false, lpmDefer := false, info := none, fastUsed := false, ownFails := 0 }) s

/-- MODULE_PRESENT: Cc_PRS_N low for 10 ms (R157, Table 6.8). While the cages are held, the state machine waits. -/
def execModulePresent (cage' : Nat) (s : State) : Host.Outcome State Fault Refusal :=
  let c := cage'
  .next (
    if !s.boot.started || !railUp s 8 || (cage s c).present || decide (32 ≤ c) then s
    else
      let s := modCage c (fun g => { g with present := true }) s
      if cageLive s ∧ (cage s c).state = .absent then cagePowerOn c s else s)

/-- Takes a cage to ABSENT after its module has gone: the lanes ramp down, the pins go to their idle levels, transfers
are abandoned and the commands that wait for the cage complete ABORTED, a media change among them, which then does not take place (R157;
log 11). -/
def cageRemove (c : Nat) (s : State) : State :=
  let ws := cageWaiters (cage s c) ++ (cage s c).mediaCmd.toList
  let s := forEach (cagePortLanes s c) (fun n s => laneRampDown n true s) s
  let s := forEach (cagePorts s c) (fun p s => modPort p (fun q => { q with dp := .idle }) s) s
  let s := modCage c (fun g =>
    { g with
      state := .absent, cause := 0, pwren := false, rstAsserted := true, lpmLow := false, info := none, i2c := [], apps := []
      outDis := 0, dpDeact := 0, fastUsed := false, ownFails := 0, lpmDefer := false, hostTxPre := 0, hostRxPre := 0, mediaCmd := none }) s
  post 0xD002 1 c 0 (finishAll ws .aborted false s)

/-- MODULE_REMOVAL: Cc_PRS_N high for 100 us (R157). -/
def execModuleRemoval (cage' : Nat) (s : State) : Host.Outcome State Fault Refusal :=
  let c := cage'
  .next (
    if !s.boot.started || !railUp s 8 || !(cage s c).present then s
    else
      let s := modCage c (fun g => { g with present := false }) s
      if cageLive s then cageRemove c s else s)

/-- PRS_GLITCH: a shorter high pulse counts and does nothing else (R157). -/
def execPrsGlitch (cage' : Nat) (s : State) : Host.Outcome State Fault Refusal :=
  .next (if cageLive s ∧ (cage s cage').present = true then modCage cage' (fun g => { g with prsGlitch := g.prsGlitch.add 1 }) s else s)

/-! ## Bring-up (Table 6.8) -/

/-- CAGE_POWER_ON_DONE: 25 ms since Cc_PWREN high, Cc_RST_N is released (Table 6.8). -/
def execCagePowerOnDone (cage' : Nat) (s : State) : Host.Outcome State Fault Refusal :=
  .next (
    if (cage s cage').state = .powerOn ∧ cageLive s = true then
      modCage cage' (fun g => { g with state := .mgmtInit, rstAsserted := false }) s
    else s)

/-- MODULE_LOW_PWR_REPORT: the module is read, MODULE_INSERTED posted, and the rows of LOW_POWER apply (Table 6.8). -/
def execModuleLowPwrReport (cage' : Nat) (info : ModuleInfo) (s : State) : Host.Outcome State Fault Refusal :=
  .next (
    if (cage s cage').state ≠ .mgmtInit ∨ cageLive s = false then s
    else
      let s := modCage cage' (fun g => { g with state := .lowPower, info := some info, fastUsed := g.fast && info.fast, ownFails := 0 }) s
      cageLowPower cage' (post 0xD001 0 cage' 0 s))

/-- MGMT_INIT_TIMEOUT: FAULT with cause NO_RESPONSE (Table 6.8). -/
def execMgmtInitTimeout (cage' : Nat) (s : State) : Host.Outcome State Fault Refusal :=
  .next (if (cage s cage').state = .mgmtInit ∧ cageLive s = true then cageFault cage' 1 s else s)

/-- MODULE_READY: the cage is READY and the data-path steps start (Table 6.8). -/
def execModuleReady (cage' : Nat) (s : State) : Host.Outcome State Fault Refusal :=
  .next (if (cage s cage').state = .powerUp ∧ cageLive s = true then cageEnterReady cage' s else s)

/-- POWER_UP_TIMEOUT: FAULT with cause POWER_UP (Table 6.8). -/
def execPowerUpTimeout (cage' : Nat) (s : State) : Host.Outcome State Fault Refusal :=
  .next (if (cage s cage').state = .powerUp ∧ cageLive s = true then cageFault cage' 4 s else s)

/-- DP_ACTIVATED: every host lane of the port reports DPActivated (R159). -/
def execDpActivated (port : Nat) (s : State) : Host.Outcome State Fault Refusal :=
  .next (if (portD s port).dp = .waiting ∧ cageLive s = true then modPort port (fun q => { q with dp := .done }) s else s)

/-- DATA_PATH_TIMEOUT: the cage faults with cause DATA_PATH (R159). -/
def execDataPathTimeout (port : Nat) (s : State) : Host.Outcome State Fault Refusal :=
  .next (if (portD s port).dp = .waiting ∧ cageLive s = true then cageFault (port / 8) 5 s else s)

/-! ## Running modules (R162) -/

/-- Bits of a flag byte that the latched copy holds. -/
def latchedBits (l : List (Nat × Nat × Nat × Nat)) (f : ModFlag) : Nat :=
  ((l.find? fun e => decide ((e.1, e.2.1, e.2.2.1) = (f.bank, f.page, f.byte))).map (·.2.2.2)).getD 0

/-- The latched copy with the bits of a flag byte added; the copy has 64 entries (Table 16.9; log 19). -/
def latchFlag (l : List (Nat × Nat × Nat × Nat)) (f : ModFlag) : List (Nat × Nat × Nat × Nat) :=
  if l.any fun e => decide ((e.1, e.2.1, e.2.2.1) = (f.bank, f.page, f.byte)) then
    l.map fun e => if (e.1, e.2.1, e.2.2.1) = (f.bank, f.page, f.byte) then (e.1, e.2.1, e.2.2.1, e.2.2.2 ||| f.bits) else e
  else if l.length < 64 then l ++ [(f.bank, f.page, f.byte, f.bits)]
  else l

/-- Latches a flag byte read as set and posts once the flags not latched before (R162). -/
def takeFlag (c : Nat) (s : State) (f : ModFlag) : State :=
  let old := latchedBits (cage s c).flags f
  let new := (f.bits % 256) &&& (255 - old % 256)
  if new = 0 then s
  else
    let s := modCage c (fun g => { g with flags := latchFlag g.flags { f with bits := new } }) s
    post 0xD004 1 c (f.bank % 256 * 2 ^ 24 + f.page % 256 * 2 ^ 16 + f.byte % 256 * 2 ^ 8 + new) s

/-- The device manages the module: LOW_POWER onward, FAULT apart (R162). -/
def cageManaged (g : Cage) : Bool :=
  decide (g.state = .lowPower) || decide (g.state = .lanePrep) || decide (g.state = .powerUp) || decide (g.state = .ready)

/-- Takes the flags read from a module, and faults the cage when ModuleFault is among them (R162, Table 6.8). -/
def takeFlags (c : Nat) (flags : List ModFlag) (fault : Bool) (s : State) : State :=
  let s := flags.foldl (takeFlag c) s
  if fault then cageFault c 7 s else s

/-- CAGE_POLL: the periodic reading of a module (R162). -/
def execCagePoll (cage' : Nat) (readings : List Byte) (flags : List ModFlag) (fault : Bool) (s : State) :
    Host.Outcome State Fault Refusal :=
  .next (
    if cageManaged (cage s cage') && cageLive s then
      takeFlags cage' flags fault (modCage cage' (fun g => { g with readings := (readings ++ zeros 52).take 52, ownFails := 0 }) s)
    else s)

/-- MODULE_INTERRUPT: the flags are read within 5 ms of Cc_INT_N (R162). -/
def execModuleInterrupt (cage' : Nat) (flags : List ModFlag) (fault : Bool) (s : State) : Host.Outcome State Fault Refusal :=
  .next (if cageManaged (cage s cage') && cageLive s then takeFlags cage' flags fault s else s)

/-! ## I2C transfers (R156, R163) -/

/-- What a finished transfer of a command wrote to module memory. -/
def wroteBy (x : CageXfer) (g : Cage) : Cage := if x.write then { g with wrote := some (x.bank, x.page, x.offset, x.data) } else g

/-- Completes the command that a finished transfer served: a read's bytes are written to IND_ADDR (R440). -/
def transferDone (id : Nat) (data : List Byte) (s : State) : State :=
  match mfind s.fl.cmds id with
  | none => s
  | some c =>
    let s := if c.opcode = 0xD2 then writeBlock c ((data ++ zeros (c.byte 35)).take (c.byte 35)) s else s
    finish id .success 0 0 true s

/-- I2C_TRANSFER_COMPLETE: the transfer in progress ends. A command completes; a written application lets the cage and
its ports go on (R163, R160, Table 6.8). -/
def execI2cTransferComplete (cage' : Nat) (data : List Byte) (s : State) : Host.Outcome State Fault Refusal :=
  let c := cage'
  .next (
    match (cage s c).i2c with
    | [] => s
    | x :: r =>
      if !cageLive s then s
      else
        let s := modCage c (fun g => { g with i2c := r }) s
        match x.cmd with
        | some id => mediaSettle c (transferDone id data (modCage c (wroteBy x) s))
        | none =>
          let ps := x.ports.filter fun p => mhas s.ports.tab p
          let s := modCage c (fun g => { g with apps := g.apps ++ ps }) s
          forEach ps dpStart (cageTryPowerUp c s))

/-- The device uses the bus of its own accord: it reads a module that comes up, polls one that runs, and writes its controls. -/
def ownTransfers (g : Cage) : Bool := cageManaged g || decide (g.state = .mgmtInit)

/-- I2C_TRANSFER_FAIL: a failed transfer is retried; its third failure faults the cage with cause I2C. With no command and no application
waiting, the transfer is one that the device makes of its own: a read of the module, or a write of its controls (R156, Table 6.8). -/
def execI2cTransferFail (cage' : Nat) (s : State) : Host.Outcome State Fault Refusal :=
  let c := cage'
  .next (
    match (cage s c).i2c with
    | [] =>
      if !cageLive s || !ownTransfers (cage s c) then s
      else if (cage s c).ownFails < 2 then modCage c (fun g => { g with ownFails := g.ownFails + 1 }) s
      else mediaSettle c (cageFault c 6 s)
    | x :: r =>
      if !cageLive s then s
      else if x.fails < 2 then modCage c (fun g => { g with i2c := { x with fails := x.fails + 1 } :: r }) s
      else mediaSettle c (cageFault c 6 s))

/-! ## The cage commands (R439 to R441) -/

/-- The checks of CAGE_SET (R439). -/
def cageSetCheck (c : Cmd) (s : State) : Option Status :=
  let v := c.byte 32
  let n := c.target
  firstFail [
    (plainBad c 31 5 || decide (8 ≤ v) || decide (c.byte 35 ≠ 0), .invalidField),
    (sel v 0 && decide (1 < c.byte 33), .invalidField),
    (sel v 1 && decide (1 < c.byte 34), .invalidField),
    (sel v 2 && (decide (c.byte 36 = 0) || decide (0x64 < c.byte 36)), .invalidField),
    (sel v 0 && decide (c.byte 33 = 1) && (cagePorts s n).any (fun p => decide ((portD s p).mode = 2)), .invalidField),
    (sel v 0 && decide (c.byte 33 = 0) && (cageLanes n).any (fun k =>
      decide ((lane s k).set.firSrc = 2) || (lane s k).set.txPrecode || (lane s k).set.rxPrecode), .invalidField)]

/-- CAGE_SET: speed and poll period at once; a media change ramps the cage's lanes down first, and the command
completes when they have ramped down (R439, R149). -/
def execCageSet (id : Nat) (s : State) : Host.Outcome State Fault Refusal :=
  .next (runCmd id 0xD0 cageSetCheck
    (fun c s =>
      let v := c.byte 32
      let n := c.target
      if !cageLive s then .fail .notReady s
      else
        let s := modCage n (fun g =>
          let fast := if sel v 1 then decide (c.byte 34 = 1) else g.fast
          { g with
            fast := fast
            fastUsed := match g.info with
              | none => false
              | some i => fast && i.fast
            poll := if sel v 2 then c.byte 36 else g.poll }) s
        let change := sel v 0 && (decide (c.byte 33 = 1) != (cage s n).c2m)
        if !change then .ok s
        else if cagePorts s n = [] then .ok (modCage n (fun g => { g with c2m := !g.c2m }) s)
        else
          let s := modCage n (fun g => { g with mediaCmd := some id }) s
          let s := forEach (cagePorts s n) (fun p s => modPort p (fun q => { q with dp := .idle }) s) s
          let s := forEach (cagePortLanes s n) (fun k s => laneRampDown k true s) s
          { Ran.ok (mediaSettle n s) with done := false }) s)

/-- CAGE_RESET: a cage in FAULT is power-cycled (R439, Table 6.8). -/
def execCageReset (id : Nat) (s : State) : Host.Outcome State Fault Refusal :=
  .next (runCmd id 0xD1
    (fun c _ => firstFail [(plainBad c 31 0, .invalidField)])
    (fun c s =>
      if !cageLive s then .fail .notReady s
      else if (cage s c.target).state ≠ .fault then .fail .busy s
      else .ok (cagePowerOn c.target s)) s)

/-- The fields of CAGE_READ and CAGE_WRITE hold a transfer within one half of the module's memory (R440). -/
def transferBad (c : Cmd) : Bool :=
  shapeBad c 31 4 || decide (c.byte 35 = 0) || decide (128 < c.byte 35) || decide (c.indLen ≠ c.byte 35) ||
    (decide (c.byte 34 < 128) && decide (128 < c.byte 34 + c.byte 35)) || decide (256 < c.byte 34 + c.byte 35)

/-- The module can be accessed: not ABSENT, POWER_ON or MGMT_INIT (R163). -/
def transferReady (s : State) (n : Nat) : Bool :=
  let g := cage s n
  cageLive s && decide (g.state ≠ .absent) && decide (g.state ≠ .powerOn) && decide (g.state ≠ .mgmtInit)

/-- The transfer of a command: the bank, page and bytes of module memory that it reads, or writes with `data` (R163, R440). -/
def xferOf (id : Nat) (c : Cmd) (data : List Byte) : CageXfer :=
  { CageXfer.init with
    cmd := some id, write := decide (c.opcode = 0xD3), bank := c.byte 32, page := c.byte 33, offset := c.byte 34, data := data }

/-- Queues a transfer of a command; it completes with the transfer. -/
def queueTransfer (id : Nat) (c : Cmd) (data : List Byte) (s : State) : Ran :=
  { Ran.ok (modCage c.target (fun g => { g with i2c := g.i2c ++ [xferOf id c data] }) s) with done := false }

/-- CAGE_READ (R440). -/
def execCageRead (id : Nat) (s : State) : Host.Outcome State Fault Refusal :=
  .next (runCmd id 0xD2
    (fun c _ => firstFail [(transferBad c, .invalidField)])
    (fun c s =>
      if !transferReady s c.target then .fail .notReady s
      else if !dmaAllowed s c.indAddr c.indLen then .fail .permission s
      else queueTransfer id c [] s) s)

/-- Byte `b` of a page is a control that the device manages (R163), by the places CMIS gives it (log 18): bank and page
select, the low-power controls, and on page 10h DPDeactivate, OutputDisableTx, OutputDisableRx, the apply controls and
the staged control sets. -/
def managedByte (page b : Nat) : Bool :=
  decide (b = 26) || decide (b = 126) || decide (b = 127) ||
    (decide (page = 0x10) && (decide (b = 128) || decide (b = 130) || decide (b = 138) || (decide (143 ≤ b) && decide (b ≤ 212))))

/-- A write touches a managed control. -/
def writesManaged (c : Cmd) : Bool := (List.range' (c.byte 34) (c.byte 35)).any fun b => managedByte (c.byte 33) b

/-- CAGE_WRITE (R440, R163). -/
def execCageWrite (id : Nat) (host : HostRead) (s : State) : Host.Outcome State Fault Refusal :=
  .next (runCmd id 0xD3
    (fun c s => firstFail [
      (transferBad c, .invalidField),
      (match (cage s c.target).info with
       | none => false
       | some i => decide (i.maxWrite < c.byte 35), .invalidField)])
    (fun c s =>
      if !transferReady s c.target then .fail .notReady s
      else if writesManaged c then .fail .permission s
      else withHost c c.indLen host s fun b => queueTransfer id c b s) s)

/-- STATE as CAGE_STATUS encodes it (Table 16.9). -/
def CageState.code : CageState → Nat
  | .absent => 0
  | .powerOn => 1
  | .mgmtInit => 2
  | .lowPower => 3
  | .lanePrep => 4
  | .powerUp => 5
  | .ready => 6
  | .fault => 7

/-- The block of Table 16.9. -/
def cageBlock (s : State) (n : Nat) : List Byte :=
  let g := cage s n
  let out := !railUp s 8
  leBytes 1 (if out then 0 else g.state.code) ++ leBytes 1 g.cause ++
    leBytes 1 (b2n g.c2m + 2 * b2n g.fastUsed + 4 * b2n out) ++ leBytes 1 g.flags.length ++
    (g.readings ++ zeros 52).take 52 ++ g.prsGlitch.bytes ++
    ((g.flags.flatMap fun e => [e.1, e.2.1, e.2.2.1, e.2.2.2].map (BitVec.ofNat 8)) ++ zeros 256).take 256

/-- CAGE_STATUS: executes while VDDIO_CAGE is out of range, and not while the cage group is held (R441, R491). -/
def execCageStatus (id : Nat) (s : State) : Host.Outcome State Fault Refusal :=
  .next (runCmd id 0xD4
    (fun c _ => firstFail [(counterBlockBad c 31 320, .invalidField)])
    (fun c s =>
      if s.bed.cageHeld then .fail .notReady s
      else withBlock c (cageBlock s c.target) s fun s =>
        if clearWrapOn c then modCage c.target (fun g => { g with prsGlitch := { g.prsGlitch with wrap := false } }) s else s) s)

/-- CAGE_FLAG_CLEAR: the latched flag list is emptied (R441). -/
def execCageFlagClear (id : Nat) (s : State) : Host.Outcome State Fault Refusal :=
  .next (runCmd id 0xD5
    (fun c _ => firstFail [(plainBad c 31 0, .invalidField)])
    (fun c s =>
      if s.bed.cageHeld then .fail .notReady s else .ok (modCage c.target (fun g => { g with flags := [] }) s)) s)

end Sys2Proof.Machine
end

