-- ==== Sys2Proof/Machine/Frames.lean ====
section
/-! DEFINITION. Reading and changing Ethernet frames: the FCS, the headers that classification, marking, the flow hash
and the time actions look at, and their incremental checksum updates (R1, R250, R273, R274, R454). -/
namespace Sys2Proof.Machine

/-! ## The FCS -/

/-- One bit of the Ethernet CRC, least significant bit first (IEEE Std 802.3; log 20). -/
def fcsBit (crc : BitVec 32) (b : Bool) : BitVec 32 :=
  let t := crc.getLsbD 0 != b
  let sh := crc >>> 1
  if t then sh ^^^ 0xEDB88320 else sh

/-- One byte of the Ethernet CRC. -/
def fcsByte (crc : BitVec 32) (b : Byte) : BitVec 32 :=
  [0, 1, 2, 3, 4, 5, 6, 7].foldl (fun c i => fcsBit c (b.getLsbD i)) crc

/-- The four FCS bytes of a frame without its FCS. -/
def fcsOf (l : List Byte) : List Byte := leBytes 4 (~~~ (l.foldl fcsByte 0xFFFFFFFF)).toNat

/-- A frame without its last four bytes. -/
def body (l : List Byte) : List Byte := l.take (l.length - 4)

/-- The frame with its FCS recomputed (R179). -/
def withFcs (l : List Byte) : List Byte := body l ++ fcsOf (body l)

/-- The frame's FCS is correct. -/
def fcsOk (l : List Byte) : Bool := decide (4 ≤ l.length) && decide (l.drop (l.length - 4) = fcsOf (body l))

/-! ## Headers -/

/-- A VLAN tag's TPID (R250). -/
def isTpid (t : Nat) : Bool := decide (t = 0x8100) || decide (t = 0x88A8)

/-- The offset of the EtherType after at most two VLAN tags (R250, R273). -/
def etherOff (l : List Byte) : Nat :=
  if isTpid (wireAt l 12 2) then (if isTpid (wireAt l 16 2) then 20 else 16) else 12

/-- The EtherType after tags. -/
def etherType (l : List Byte) : Nat := wireAt l (etherOff l) 2
/-- The offset of what follows that EtherType. -/
def netOff (l : List Byte) : Nat := etherOff l + 2
/-- The frame carries IPv4. -/
def isV4 (l : List Byte) : Bool := decide (etherType l = 0x0800)
/-- The frame carries IPv6. -/
def isV6 (l : List Byte) : Bool := decide (etherType l = 0x86DD)

/-- The traffic class or type of service byte of an IP frame. -/
def ipTos (l : List Byte) : Nat :=
  let o := netOff l
  if isV4 l then byteAt l (o + 1) else byteAt l o % 16 * 16 + byteAt l (o + 1) / 16

/-- The IP protocol, or next header of the fixed header. -/
def ipProto (l : List Byte) : Nat := if isV4 l then byteAt l (netOff l + 9) else byteAt l (netOff l + 6)
/-- The length of the IP header before the payload; for IPv6 the fixed header. -/
def ipLen (l : List Byte) : Nat := if isV4 l then byteAt l (netOff l) % 16 * 4 else 40
/-- An IPv4 fragment that is not the first. -/
def laterFragment (l : List Byte) : Bool := isV4 l && decide (wireAt l (netOff l + 6) 2 % 8192 ≠ 0)

/-- The inputs of the flow hash (Table 9.14). Ports are included only for TCP or UDP that is no later fragment. -/
def hashInput (l : List Byte) : List Byte :=
  let o := netOff l
  let ports := if (ipProto l = 6 ∨ ipProto l = 17) ∧ laterFragment l = false then slice l (o + ipLen l) 4 else []
  if isV4 l then slice l (o + 9) 1 ++ slice l (o + 12) 8 ++ ports
  else if isV6 l then slice l (o + 6) 1 ++ slice l (o + 8) 32 ++ ports
  else if etherType l = 0x8847 then
    slice l o 2 ++ [BitVec.ofNat 8 (byteAt l (o + 2) / 16 * 16)]
  else slice l 0 6 ++ slice l 6 6 ++ slice l (etherOff l) 2

/-- FLOW_HASH (R250). -/
def flowHash (seed : BitVec 32) (l : List Byte) : BitVec 32 := crcFrom (0xFFFFFFFF ^^^ seed) (hashInput l)

/-! ## Checksums and marking -/

/-- Sum of two 16-bit numbers in ones' complement. -/
def onesAdd (a b : Nat) : Nat := if a + b < 65536 then a + b else a + b - 65535

/-- A checksum updated for one 16-bit word that changes from `m` to `m'`: HC' = ~(~HC + ~m + m'). -/
def sumUpdate (hc m m' : Nat) : Nat := 65535 - onesAdd (onesAdd (65535 - hc) (65535 - m)) m'

/-- The frame may be marked: IP whose ECN field is 01, 10 or 11 (R273). -/
def markable (l : List Byte) : Bool := (isV4 l || isV6 l) && decide (ipTos l % 4 ≠ 0)

/-- Sets the ECN field to 11, updating an IPv4 header checksum (R273). -/
def markEcn (l : List Byte) : List Byte :=
  let o := netOff l
  if isV4 l then
    let m := wireAt l o 2
    let m' := m ||| 3
    patch (patch l o (beBytes 2 m')) (o + 10) (beBytes 2 (sumUpdate (wireAt l (o + 10) 2) m m'))
  else patch l (o + 1) [BitVec.ofNat 8 (byteAt l (o + 1) ||| 0x30)]

/-! ## Classification (R274) -/

/-- The index into a port's map for a trust setting, if the frame has the field. -/
def classIndex (trust : Nat) (l : List Byte) : Option Nat :=
  match trust with
  | 1 => if isTpid (wireAt l 12 2) then let t := wireAt l 14 2; some (t / 8192 * 2 + t / 4096 % 2) else none
  | 2 => if isV4 l || isV6 l then some (ipTos l / 4) else none
  | 3 => if etherType l = 0x8847 ∨ etherType l = 0x8848 then some (wireAt l (netOff l) 4 / 512 % 8) else none
  | _ => none

/-! ## Time actions on a frame (R453, R454) -/

/-- The offset of the UDP header, when the frame carries UDP over IP and `off` lies in its payload (R454). -/
def udpAt (l : List Byte) (off : Nat) : Option Nat :=
  let u := netOff l + ipLen l
  if (isV4 l || isV6 l) && decide (ipProto l = 17) && !laterFragment l && decide (u + 8 ≤ off) then some u else none

/-- Writes a field and updates a non-zero UDP checksum incrementally over the words it touches (R454); a result of 0 is written as 0xFFFF
(PRESUMED, log 165). -/
def writeField (l : List Byte) (off : Nat) (w : List Byte) : List Byte :=
  let l' := patch l off w
  match udpAt l off with
  | none => l'
  | some u =>
    let hc := wireAt l (u + 6) 2
    if hc = 0 then l'
    else
      let rel := off - u
      let start := u + rel - rel % 2
      let n := (w.length + rel % 2 + 1) / 2
      let hc' := (List.range n).foldl (fun h i => sumUpdate h (wireAt l (start + 2 * i) 2) (wireAt l' (start + 2 * i) 2)) hc
      patch l' (u + 6) (beBytes 2 (if hc' = 0 then 65535 else hc'))

end Sys2Proof.Machine
end

