-- ==== Sys2Proof/Machine/CellOps.lean ====
section
/-! DEFINITION. Addressed memory: a list of address and byte pairs in one canonical form, addresses strictly rising and no
entry equal to the byte 0 that every unlisted address reads as (R76). -/
namespace Sys2Proof.Machine

/-- A memory, or board OTP: its bytes that differ from 0. -/
abbrev Memory := List Host.Cell

/-- The canonical form: addresses strictly rising from `lo`, no byte 0. -/
def Memory.wfFrom : Nat → Memory → Bool
  | _, [] => true
  | lo, (a, b) :: r => decide (lo ≤ a) && decide (b ≠ 0) && Memory.wfFrom (a + 1) r

/-- The canonical form. -/
def Memory.wf (m : Memory) : Bool := m.wfFrom 0

/-- The byte at an address. -/
def Memory.get : Memory → Nat → Byte
  | [], _ => 0
  | (a, b) :: r, k => if k = a then b else Memory.get r k

/-- The memory with one byte written: writing 0 removes the entry. -/
def Memory.put : Memory → Nat → Byte → Memory
  | [], k, v => if v = 0 then [] else [(k, v)]
  | (a, b) :: r, k, v =>
    if k < a then (if v = 0 then (a, b) :: r else (k, v) :: (a, b) :: r)
    else if k = a then (if v = 0 then r else (k, v) :: r)
    else (a, b) :: Memory.put r k v

/-- Bytes written from an address on. -/
def Memory.putBytes (m : Memory) (a : Nat) : List Byte → Memory
  | [] => m
  | b :: r => Memory.putBytes (m.put a b) (a + 1) r

/-- `n` bytes from an address on. -/
def Memory.getBytes (m : Memory) (a : Nat) : Nat → List Byte
  | 0 => []
  | n + 1 => m.get a :: Memory.getBytes m (a + 1) n

end Sys2Proof.Machine
end

