-- ==== Sys2Proof/Machine/Field.lean ====
section
/-! DEFINITION. Finite fields GF(2^m) and Reed-Solomon codes over them: the RS(544,514) code of the ports (R122) and the
code of the HBM units (R329) are the same operations with other parameters. -/
namespace Sys2Proof.Machine

/-- One step of a product in GF(2^m): the product so far doubled, less the field's polynomial where it overflows. -/
def gfDouble (m poly a : Nat) : Nat := if 2 ^ m ≤ 2 * a then (2 * a) ^^^ poly else 2 * a
/-- The product of two elements of GF(2^m) with polynomial `poly`, by the bits of the second from the highest. -/
def gfMul (m poly a b : Nat) : Nat :=
  (List.range m).reverse.foldl (fun r i => (gfDouble m poly r) ^^^ (if b.testBit i then a else 0)) 0
/-- The power of an element. -/
def gfPow (m poly a : Nat) : Nat → Nat
  | 0 => 1
  | k + 1 => gfMul m poly (gfPow m poly a k) a
/-- The sum of elements. -/
def gfSum (l : List Nat) : Nat := l.foldl (· ^^^ ·) 0

/-- A polynomial, its highest coefficient first, times (x + r). -/
def polyTimes (m poly r : Nat) (p : List Nat) : List Nat :=
  (p ++ [0]).zipWith (· ^^^ ·) (0 :: p.map (gfMul m poly r))
/-- The generator polynomial with the given roots, its highest coefficient first. -/
def rsGenerator (m poly : Nat) (roots : List Nat) : List Nat := roots.foldl (fun g r => polyTimes m poly r g) [1]
/-- One symbol into the division register of the encoder. -/
def rsShift (m poly : Nat) (g : List Nat) (reg : List Nat) (d : Nat) : List Nat :=
  let fb := reg.headD 0 ^^^ d
  (reg.drop 1 ++ [0]).zipWith (fun a b => a ^^^ gfMul m poly fb b) (g.drop 1)
/-- The check symbols of a systematic codeword: the remainder of the message by the generator. -/
def rsParity (m poly : Nat) (g : List Nat) (message : List Nat) : List Nat :=
  message.foldl (rsShift m poly g) (List.replicate (g.length - 1) 0)
/-- The value at `r` of a polynomial, its highest coefficient first. -/
def polyEval (m poly r : Nat) (p : List Nat) : Nat := p.foldl (fun v c => gfMul m poly v r ^^^ c) 0

/-- The polynomial of GF(2^10) that IEEE 802.3 uses: x^10 + x^3 + 1 (log 139). -/
def rs544Poly : Nat := 0x409
/-- The generator polynomial of RS(544,514): roots alpha^0 to alpha^29 (log 139). -/
def rs544Generator : List Nat := rsGenerator 10 rs544Poly ((List.range 30).map (gfPow 10 rs544Poly 2))
/-- The RS(544,514) codeword of 514 message symbols of 10 bits (R122). -/
def rs544Encode (message : List Nat) : List Nat := message ++ rsParity 10 rs544Poly rs544Generator message
/-- 544 symbols are a codeword: every root of the generator is a zero of theirs. -/
def rs544Ok (word : List Nat) : Bool := (List.range 30).all fun j => decide (polyEval 10 rs544Poly (gfPow 10 rs544Poly 2 j) word = 0)

end Sys2Proof.Machine
end

