-- ==== Sys2Proof/Machine/Codes.lean ====
section
/-! DEFINITION. The codes of the memories: the on-die code with its address signature, the Reed-Solomon code of the HBM units, what a poisoned
word holds, and the outcome of a read (R328 to R332, Table 13.3).

Both codes are linear, so that the outcome of a read depends only on how what is read differs from the intended word: on the bits that differ, on
the address that differs, and on the inversion that marks poison. -/
namespace Sys2Proof.Machine

/-! ## The on-die code (R328, R330) -/

/-- How many of the low `n` bits of a number are set. -/
def bitCount (n v : Nat) : Nat := ((List.range n).filter fun i => v.testBit i).length

/-- The columns of H of the data bits: the 56 values of weight 3, then those that R328 lists. -/
def dataColumns : List Nat := ((List.range 256).filter fun v => decide (bitCount 8 v = 3)) ++ [0x1F, 0x2F, 0x37, 0x3B, 0x3D, 0x3E, 0x4F, 0x57]
/-- The columns of H of the check bits. -/
def checkColumns : List Nat := (List.range 8).map fun i => 2 ^ i
/-- The values g_i of the address signature: the 7-bit values of odd weight, rising, each plus 0x80. -/
def signatureTerms : List Nat := ((List.range 128).filter fun v => decide (bitCount 7 v % 2 = 1)).map fun v => v + 0x80

/-- The sum of the listed values at the bits set in `x`. -/
def sumAt : List Nat → Nat → Nat
  | [], _ => 0
  | v :: l, x => (if x % 2 = 1 then v else 0) ^^^ sumAt l (x / 2)

/-- S(a), the signature of an address (R330). -/
def addressSignature (a : Nat) : Nat := sumAt signatureTerms a
/-- The check bits c = H·d ⊕ S(a) of data `d` at index `a` of its region (R328). -/
def onDieCheck (a d : Nat) : Nat := sumAt dataColumns d ^^^ addressSignature a
/-- The syndrome of a word of 64 data bits and, above them, 8 check bits, read at index `a`. -/
def onDieSyndrome (a w : Nat) : Nat := sumAt (dataColumns ++ checkColumns) w ^^^ addressSignature a
/-- The check bits of a poisoned word: all inverted (R332). -/
def onDiePoison : Nat := 0xFF

/-! ## The code of the HBM units (R329) -/

/-- The polynomial x^8 + x^4 + x^3 + x^2 + 1. -/
def hbmPoly : Nat := 0x11D
/-- α^k. -/
def hbmAlpha (k : Nat) : Nat := gfPow 8 hbmPoly 2 k
/-- The generator polynomial, its roots α^0 to α^3. -/
def hbmGenerator : List Nat := rsGenerator 8 hbmPoly ((List.range 4).map hbmAlpha)
/-- The four symbols of a number of 32 bits, most significant byte first. -/
def virtualSymbols (u : Nat) : List Nat := [3, 2, 1, 0].map fun i => u / 256 ^ i % 256
/-- The check symbols of a unit with a device-wide index and 32 data bytes. -/
def hbmCheck (unit : Nat) (data : List Nat) : List Nat := rsParity 8 hbmPoly hbmGenerator (virtualSymbols unit ++ data)
/-- The syndromes of 40 symbols, from the highest degree. -/
def hbmSyndromes (word : List Nat) : List Nat := (List.range 4).map fun j => polyEval 8 hbmPoly (hbmAlpha j) word
/-- What poison adds to the check symbols (R332). -/
def hbmPoison : List Nat := [0xFF, 0xFF, 0, 0]

/-! ## Reading (R331, R332, Table 13.3) -/

/-- The outcome of a read; of a corrected word, the data bits that the decoder inverts. -/
inductive ReadOutcome where
  /-- As written. -/
  | clean
  /-- Corrected. -/
  | corrected (fix : Nat)
  /-- Uncorrectable. -/
  | uncorrectable
deriving DecidableEq, Repr

/-- An on-die word read: `flips` are the bits that differ (0-63 data, 64-71 check), `slip` the address bits that differ. A syndrome that is a
column of H locates one bit; any other that is not zero is uncorrectable. -/
def onDieOutcome (poisoned : Bool) (flips slip : Nat) : ReadOutcome :=
  let y := onDieSyndrome slip flips ^^^ (if poisoned then onDiePoison else 0)
  if y = 0 then .clean
  else
    match (dataColumns ++ checkColumns).findIdx? (fun v => decide (v = y)) with
    | none => .uncorrectable
    | some j => .corrected (if j < 64 then 2 ^ j else 0)

/-- The difference of an HBM unit as 40 symbols: `flips` holds byte i of the data at bits 8i, check symbol j at bits 256 + 8j. -/
def hbmDifference (poisoned : Bool) (flips slip : Nat) : List Nat :=
  let check := (List.range 4).map fun j => flips / 256 ^ (32 + j) % 256
  virtualSymbols slip ++ ((List.range 32).map fun i => flips / 256 ^ i % 256) ++
    (if poisoned then check.zipWith (· ^^^ ·) hbmPoison else check)

/-- The degree of the one symbol that the syndromes locate, among the 36 stored ones. -/
def hbmLocate (y : List Nat) : Option Nat :=
  let a := y.getD 0 0
  if a = 0 then none
  else (List.range 36).find? fun p => (List.range 4).all fun j => decide (y.getD j 0 = gfMul 8 hbmPoly a (hbmAlpha (p * j)))

/-- An HBM unit read: one symbol in data or check is corrected; more, or one located in a virtual position, is uncorrectable. -/
def hbmOutcome (poisoned : Bool) (flips slip : Nat) : ReadOutcome :=
  let y := hbmSyndromes (hbmDifference poisoned flips slip)
  if y.all (fun v => decide (v = 0)) then .clean
  else
    match hbmLocate y with
    | none => .uncorrectable
    | some p => .corrected (if 4 ≤ p then y.getD 0 0 * 256 ^ (35 - p) else 0)

end Sys2Proof.Machine
end

