-- ==== Sys2Proof/Machine/MemOps.lean ====
section
/-! DEFINITION. What reads of the memories find, and the counts, events and health causes that follow (R333, R335, R341,
R344). -/
namespace Sys2Proof.Machine

/-- Region `r` of Table 16.7. -/
def region (s : State) (r : Nat) : Region := mget s.mem.regions r Region.init
/-- Changes region `r`. -/
def modRegion (r : Nat) (f : Region → Region) (s : State) : State :=
  s.mapMem fun m => { m with regions := mmod m.regions r Region.init f }
/-- Adds to counter `k` of a region: 0 CE_COUNT, 1 UE_COUNT, 2 MERGE_CORRECTED, 3 POISON_WRITES, 4 SCRUB_PASSES,
5 SCRUB_LATE. -/
def regionCount (r k n : Nat) (s : State) : State := modRegion r (fun g => { g with ctr := ctrAdd g.ctr k n }) s
/-- Stack `m`. -/
def stack (s : State) (m : Nat) : Stack := mget s.mem.hbmStacks m Stack.init
/-- Changes stack `m`. -/
def modStack (m : Nat) (f : Stack → Stack) (s : State) : State :=
  s.mapMem fun x => { x with hbmStacks := mmod x.hbmStacks m Stack.init f }
/-- Channel `ch` of stack `m`. -/
def channel (s : State) (k : Nat) : Channel := mget s.mem.channels k Channel.init
/-- Changes a channel, named by stack × 32 + channel. -/
def modChannel (k : Nat) (f : Channel → Channel) (s : State) : State :=
  s.mapMem fun x => { x with channels := mmod x.channels k Channel.init f }

/-- Nanoseconds in an hour. -/
def hourNs : Nat := 3600000000000

/-- A corrected word is counted for its region and for the clock hour (R333, R340). -/
def memCe (r : Nat) (s : State) : State := modRegion r (fun g => { g with ctr := ctrAdd g.ctr 0 1, ceHour := g.ceHour + 1 }) s

/-! ## Words and units (R325, R327) -/

/-- Bytes of a word or unit of a region. -/
def wordBytes (r : Nat) : Nat := if 65 ≤ r ∧ r ≤ 68 then 32 else 8
/-- The index of a region's first word or unit: TSRAM words count across banks, HBM units across stacks (R327, R328). -/
def unitBase (r : Nat) : Nat := if r = 0 ∨ 68 < r then 0 else if r ≤ 64 then (r - 1) * 2 ^ 18 else (r - 65) * 2 ^ 29
/-- Words or units of a region; the descriptor memory has one for each on-die cell, taken as one word (log 155), and the size of the
control-processor memories is internal. -/
def regionWords (r : Nat) : Nat := if r = 0 then 2 ^ 25 else if r ≤ 64 then 2 ^ 18 else if r ≤ 68 then 2 ^ 29 else if r = 69 then 2 ^ 20 else Config.cpWords
/-- Bytes of a region (Table 16.7). -/
def regionBytes (r : Nat) : Nat := regionWords r * wordBytes r
/-- The region of Table 16.7 whose counters and events a memory's errors belong to (Table 13.1). -/
def homeRegion (r : Nat) : Nat := if 68 < r then 0 else r
/-- The region of a memory of one kind that holds a word or unit index. -/
def regionAt (r u : Nat) : Nat := if r = 0 ∨ 68 < r then r else if r ≤ 64 then 1 + u / 2 ^ 18 else 65 + u / 2 ^ 29

/-- The 2 MiB bank of the on-die buffer that holds a word, or the TSRAM bank of one (Table 13.1): words lie in order (DEDUCED, log 155). -/
def bankOf (u : Nat) : Nat := u / 2 ^ 18
/-- The channel of its stack that holds an HBM unit: 256-byte blocks rotate across channels 0 to 31 (R327). -/
def channelOf (u : Nat) : Nat := u % 2 ^ 29 / 8 % 32
/-- The first unit of page `k` of the buffer partition: stack M(k mod 4), pages of 4 KiB from the stack's lowest address (R327). -/
def pageUnit (k : Nat) : Nat := k % 4 * 2 ^ 29 + k / 4 * 128
/-- The first unit of the table partition in a stack: the highest T/4 GiB (R327). -/
def tableUnit (part m : Nat) : Nat := m * 2 ^ 29 + 2 ^ 29 - part * 2 ^ 23
/-- The first unit of the quarter of table block `k` in stack `m` (R301, R327). -/
def blockUnit (part k m : Nat) : Nat := tableUnit part m + k * 2 ^ 17
/-- Units of a quarter of a block. -/
def quarterUnits : Nat := 2 ^ 17

/-- A word or unit was written poisoned. -/
def poisoned (s : State) (r u : Nat) : Bool := (region s r).bad.contains u
/-- The bytes of a word or unit as stored. -/
def storedBytes (s : State) (r u : Nat) : List Byte := Memory.getBytes (region s r).cells ((u - unitBase r) * wordBytes r) (wordBytes r)
/-- The check bits or symbols of a word or unit as stored, as one number: altered where it was written poisoned (R328, R329, R332). -/
def storedCheck (s : State) (r u : Nat) : Nat :=
  if wordBytes r = 8 then onDieCheck u (leNat (storedBytes s r u)) ^^^ (if poisoned s r u then onDiePoison else 0)
  else
    let c := hbmCheck u ((storedBytes s r u).map BitVec.toNat)
    let c := if poisoned s r u then c.zipWith (· ^^^ ·) hbmPoison else c
    (c.zipIdx.map fun x => x.1 * 256 ^ x.2).sum

/-- Writes whole words or units from `lo` to `hi` clean: poison is gone (R335). -/
def cleanse (r lo hi : Nat) (s : State) : State :=
  if (region s r).bad.any fun u => decide (lo ≤ u) && decide (u ≤ hi) then
    modRegion r (fun g => { g with bad := g.bad.filter fun u => decide (u < lo) || decide (hi < u) }) s
  else s
/-- Marks a word or unit as written poisoned (R332). -/
def poison (r u : Nat) (s : State) : State := modRegion r (fun g => { g with bad := linsert g.bad u }) s
/-- Writes a whole word or unit, poisoned or clean. -/
def writeWord (r u : Nat) (bytes : List Byte) (bad : Bool) (s : State) : State :=
  let s := modRegion r (fun g => { g with cells := Memory.putBytes g.cells ((u - unitBase r) * wordBytes r) (bytes.take (wordBytes r)) }) s
  if bad then poison r u s else cleanse r u u s

/-! ## Reads (R331, R333) -/

/-- The index of the word that a read selects, and its region. -/
def selected (f : Found) : Nat × Nat := (regionAt f.region (f.unit ^^^ f.slip), f.unit ^^^ f.slip)

/-- The outcome of one read (Table 13.3): the word selected was poisoned or not, and differs as the operand says. -/
def readOutcome (s : State) (f : Found) : ReadOutcome :=
  let p := poisoned s (selected f).1 (selected f).2
  if wordBytes f.region = 8 then onDieOutcome p f.flips f.slip else hbmOutcome p f.flips f.slip

/-- The word reads uncorrectable. -/
def unitBad (s : State) (f : Found) : Bool := decide (readOutcome s f = .uncorrectable)

/-- The data that one read gives: as stored where it is selected, with the bits that differ, less those that the code corrects. -/
def readData (s : State) (f : Found) : List Byte :=
  let w := wordBytes f.region
  let fix := match readOutcome s f with
    | .corrected x => x
    | _ => 0
  leBytes w (leNat (storedBytes s (selected f).1 (selected f).2) ^^^ f.flips % 256 ^ w ^^^ fix)

/-- The known poison of the words `lo` to `hi` of a region that a list does not name. -/
def poisonIn (s : State) (r lo hi : Nat) (l : List Found) : List Found :=
  ((region s r).bad.filter fun u => decide (lo ≤ u) && decide (u ≤ hi) && !l.any fun f => decide (f.region = r) && decide (f.unit = u)).map fun u =>
    { region := r, unit := u, flips := 0, slip := 0 }

/-- MEM_UE at most once per region and location in 24 h, with the requester (R333). -/
def postUe (w : Reader) (r unit : Nat) (s : State) : State :=
  let here := fun (p : UePost) => decide (p.region = r) && decide (p.unit = unit)
  if s.rep.ue.any fun p => here p && decide (s.now < p.time + 24 * hourNs) then s
  else
    post 0x4001 2 (homeRegion r) (unit % 2 ^ 32)
      (s.mapRep fun x => { x with ue := (x.ue.filter fun p => !here p) ++ [{ region := r, unit := unit, time := s.now, reader := w }] })

/-- An uncorrectable word is counted and posted (R333). -/
def memUe (w : Reader) (r unit : Nat) (s : State) : State := postUe w r unit (regionCount (homeRegion r) 1 1 s)

/-- An on-die buffer cell reads uncorrectable, which counts once for each write of its data: after two different writes it is withdrawn from
allocation, and more than 1,024 such cells set cause [12] (R341). -/
def cellUe (cell : Nat) (s : State) : State :=
  if s.mem.cellSeen.contains cell then s
  else
    let n := mget s.mem.cellUe cell 0 + 1
    let s := s.mapMem fun m => { m with cellUe := mput m.cellUe cell n, cellSeen := linsert m.cellSeen cell }
    if n ≠ 2 then s
    else
      let s := s.mapBuf fun b => { b with cellsOut := b.cellsOut + 1 }
      if 1024 < s.buf.cellsOut then setCause 4 s else s

/-- The cell's data is written: its next uncorrectable read is after another write (R341). -/
def cellWritten (cell : Nat) (s : State) : State :=
  if s.mem.cellSeen.contains cell then s.mapMem fun m => { m with cellSeen := m.cellSeen.filter fun c => decide (c ≠ cell) } else s

/-- A read of an HBM unit with an error is remembered for its row: an uncorrectable one until its row is repaired, a corrected one for 24 h
(R342). -/
def rowError (f : Found) (bad : Bool) (s : State) : State :=
  if 65 ≤ f.region ∧ f.region ≤ 68 then
    modStack (f.region - 65) (fun x =>
      { x with errs := (x.errs.filter fun e => decide (e.unit ≠ f.unit) && (e.bad || decide (s.now < e.time + 24 * hourNs))) ++
          [{ unit := f.unit, time := s.now, bad := bad || x.errs.any fun e => e.bad && decide (e.unit = f.unit) }] }) s
  else s

/-- One read, checked: a corrected word and an uncorrectable one are counted (R333), and remembered for the cell (R341) or the row (R342). -/
def memRead (w : Reader) (f : Found) (s : State) : State :=
  match readOutcome s f with
  | .clean => s
  | .corrected _ => rowError f false (memCe (homeRegion f.region) s)
  | .uncorrectable =>
    let s := rowError f true (memUe w f.region f.unit s)
    if f.region = 0 then cellUe (f.unit / 32) s else s

/-- The reads of one access. -/
def memReads (w : Reader) (l : List Found) (s : State) : State := l.foldl (fun s f => memRead w f s) s

/-- A partial write reads a word: MERGE_CORRECTED or POISON_WRITES is counted too (Table 13.4). -/
def mergeRead (w : Reader) (f : Found) (s : State) : State :=
  match readOutcome s f with
  | .clean => s
  | .corrected _ => regionCount (homeRegion f.region) 2 1 (memRead w f s)
  | .uncorrectable => regionCount (homeRegion f.region) 3 1 (memRead w f s)

/-- A word is read and written back: corrected, or poisoned with its data as read; a clean one and one already poisoned are left as they are
(R339, R342). -/
def writeBack (f : Found) (s : State) : State :=
  let data := readData s f
  match readOutcome s f with
  | .clean => s
  | .corrected _ => writeWord f.region f.unit data false (memRead .scrubber f s)
  | .uncorrectable => if poisoned s f.region f.unit then memRead .scrubber f s else writeWord f.region f.unit data true (memRead .scrubber f s)

/-- A packet reads uncorrectable: one of the words read for it is. -/
def anyBad (s : State) (l : List Found) : Bool := l.any (unitBad s)

/-- The reader of a word of a packet: its list entry or descriptor, or a cell (Table 13.5). -/
def packetReader (cell : Reader) (f : Found) : Reader := if f.region = 69 then .list else cell

/-- The reads of a departing packet's words; where the packet's cells were not named as it was stored (`named` false), each cell read counts
as written since its last read (log 155). -/
def packetReads (w : Reader) (named : Bool) (l : List Found) (s : State) : State :=
  let s := if named then s else l.foldl (fun s f => if f.region = 0 then cellWritten (f.unit / 32) s else s) s
  l.foldl (fun s f => memRead (packetReader w f) f s) s

/-- What the reads of words `lo` to `hi` of a region find: the operand's, and the words known to be poisoned. -/
def foundIn (s : State) (r lo hi : Nat) (found : List Found) : List Found :=
  let here := found.filter fun f => decide (f.region = r) && decide (lo ≤ f.unit) && decide (f.unit ≤ hi)
  here ++ poisonIn s r lo hi here

/-- `len` bytes of a region from offset `off` as read: as stored, but where the list names a word, what that read gives (R337). -/
def asRead (s : State) (r off len : Nat) (l : List Found) : List Byte :=
  let stored := fun (i : Nat) => Memory.get (region s r).cells i
  let byte := fun (i : Nat) =>
    match l.find? fun f => decide (f.unit = unitBase r + i / wordBytes r) with
    | none => stored i
    | some f => (readData s f).getD (i % wordBytes r) 0
  if l.isEmpty then Memory.getBytes (region s r).cells off len else (List.range' off len).map byte

/-- Rows of a stack under soft or hard repair. -/
def repairedRows (s : State) (m : Nat) : Nat :=
  (s.rep.soft.filter fun r => decide (r.1 / 512 = m)).length + (s.otp.hard.filter fun r => decide (r.1 = m)).length

/-- REPAIR_USE of a stack in percent (R344). -/
def repairUse (s : State) (m : Nat) : Nat := if (stack s m).resources = 0 then 0 else 100 * repairedRows s m / (stack s m).resources

/-- Cause [11] as the stacks stand: use above 75 % in any stack (R344). -/
def repairCause (s : State) : State :=
  putCause 3 ([0, 1, 2, 3].any fun m => decide (0 < (stack s m).resources) && decide (3 * (stack s m).resources < 4 * repairedRows s m)) s

/-- Packets or tables are stored in regions: the bytes there are free values from now on, their layout not being published. -/
def mixRegions (l : List Nat) (s : State) : State := l.foldl (fun s r => modRegion r (fun g => { g with mixed := true }) s) s

end Sys2Proof.Machine
end

