-- ==== Sys2Proof/Machine/TimeOps.lean ====
section
/-! DEFINITION. The hardware clock: its advance, exact dyadic numbers for the servo, and the timestamps of frames
(R445, R448, R450). -/
namespace Sys2Proof.Machine

/-! ## Exact dyadic numbers -/

/-- An integer as a dyadic number. -/
def Dyad.ofInt (n : Int) : Dyad := { num := n, exp := 0 }
/-- Sum. -/
def Dyad.add (a b : Dyad) : Dyad :=
  { num := a.num * 2 ^ (max a.exp b.exp - a.exp) + b.num * 2 ^ (max a.exp b.exp - b.exp), exp := max a.exp b.exp }
/-- Difference. -/
def Dyad.sub (a b : Dyad) : Dyad := a.add { num := -b.num, exp := b.exp }
/-- Clamped to the range from `-n` to `n`. -/
def Dyad.clamp (a : Dyad) (n : Nat) : Dyad :=
  if (n : Int) * 2 ^ a.exp < a.num then .ofInt n else if a.num < -((n : Int) * 2 ^ a.exp) then .ofInt (-n) else a

/-! ## The clock -/

/-- The clock since its second 0, in 2^-32 ns. -/
def clockUnits (s : State) : Int := ((s.tim.sec.toNat : Int) * 1000000000 + s.tim.ns) * 2 ^ 32 + s.tim.frac

/-- Sets the clock from a number of 2^-32 ns since second 0; SECONDS has 64 bits. -/
def setClock (u : Int) (t : Tim) : Tim :=
  { t with
    sec := BitVec.ofInt 64 (u / (1000000000 * 2 ^ 32))
    ns := (u / 2 ^ 32 % 1000000000).toNat
    frac := (u % 2 ^ 32).toNat }

/-- After a set or step of the clock, a command not begun whose time lies ahead waits for it again (R461). -/
def rewait (s : State) : State :=
  let back := fun (_ : Nat) (c : Cmd) =>
    if c.flag 0 ∧ c.phase ≠ .executing ∧ clockTotal s < c.due then { c with phase := .waiting } else c
  s.mapFl fun f => { f with cmds := mmap f.cmds back }

/-- One nanosecond of the nominal rate passes: the clock advances by (1 + f x 10^-9) ns, losing no fraction (R445). -/
def clockTick (s : State) : State :=
  if !s.tim.running then s
  else
    let x := ((⟨s.tim.f.num * 2 ^ 32, 1000000000 * 2 ^ s.tim.f.exp - 1⟩ : Frac).add s.tim.rem).norm
    let whole := x.num / x.den
    s.mapTim fun t => { setClock (clockUnits s + 2 ^ 32 + whole) t with rem := ⟨x.num % x.den, x.less⟩ }

/-! ## Timestamps (R450, R451) -/

/-- A moment as seconds, nanoseconds and fraction. -/
structure Stamp where
  /-- Seconds. -/
  sec : Nat
  /-- Nanoseconds. -/
  ns : Nat
  /-- In 2^-32 ns. -/
  frac : Nat
deriving DecidableEq, Repr

/-- The moment at a number of 10^-3 x 2^-32 ns since second 0, rounded down to 2^-32 ns. -/
def stampOf (x : Int) : Stamp :=
  let u := x / 1000
  { sec := (u / (1000000000 * 2 ^ 32) % 2 ^ 48).toNat, ns := (u / 2 ^ 32 % 1000000000).toNat, frac := (u % 2 ^ 32).toNat }

/-- The receive timestamp of a frame of port `p`: t_PCS less the first lane's latency, the deskew delay the PCS applies
to it, and RX_ASYM (R450). -/
def rxStamp (s : State) (p deskew : Nat) : Stamp :=
  stampOf (clockUnits s * 1000 - (((lane s p).latency + deskew : Nat) + (portD s p).rxAsym) * 2 ^ 32)

/-- The transmit timestamp of a frame of port `p`: t_PCS plus the first lane's transmit latency, which is fused for its
lane mode, media mode and TX_MASK (free values of Config), and TX_ASYM (R450). -/
def txStamp (s : State) (p : Nat) : Stamp :=
  let l := lane s p
  stampOf (clockUnits s * 1000 + Config.txLatency p l.opMode (cage s (p / 8)).c2m l.set.txMask * 1000 + (portD s p).txAsym * 2 ^ 32)

/-- A capture record (R430), or its loss while 4,096 are unread (R455). -/
def capture (port : Nat) (info : List Byte) (t : Stamp) (s : State) : State :=
  let rec32 := leBytes 2 port ++ zeros 2 ++ info ++ leBytes 6 t.sec ++ zeros 2 ++ leBytes 4 t.ns ++ leBytes 4 t.frac ++ zeros 8
  if s.tim.caps.length < 4096 then s.mapTim fun x => { x with caps := x.caps ++ [rec32] }
  else s.mapTim fun x => { x with capsLost := x.capsLost + 1 }

end Sys2Proof.Machine
end

