-- ==== Sys2Proof/Machine/TraceOps.lean ====
section
/-! DEFINITION. Mica trace: tagging, stages, and writing trace records to the ring (R519 to R521). -/
namespace Sys2Proof.Machine

/-- The clock that traces use: the hardware clock while it runs, otherwise a count from FW_READY, in ns (R520). -/
def traceClock (s : State) : Nat := if s.tim.running then clockTotal s else s.now - s.obs.cycles

/-- Tags a packet when the 30-bit draw falls below 2^(30 - k_p) (R519). -/
def traceTag (s : State) (egress : Bool) (port queue len : Nat) (info : BitVec 32) (draw : Nat) : Option Trace :=
  let k := mget s.obs.traceK port 0
  if k ≠ 0 ∧ draw < 2 ^ (30 - k) then
    some { Trace.init with
      egress := egress, port := port, queue := queue, len := len, info := info, clockOk := s.tim.running
      baseNs := if s.tim.running then s.tim.ns else (s.now - s.obs.cycles) % 2 ^ 32, base := traceClock s }
  else none

/-- A tagged packet reaches a stage; the first time counts. -/
def traceStage (s : State) (k : Nat) (t : Option Trace) : Option Trace :=
  t.map fun t => if mhas t.stages k then t else { t with stages := mput t.stages k (traceClock s - t.base) }

/-- A trace record (Table 21.6). -/
def Trace.bytes (t : Trace) (seq cause : Nat) (phase : Bool) : List Byte :=
  let off := fun k => leBytes 4 (match mfind t.stages k with
    | none => 0xFFFFFFFF
    | some d => min d 0xFFFFFFFE)
  leBytes 4 seq ++ leBytes 1 (b2n t.egress + 2 * b2n (decide (cause ≠ 0)) + 4 * b2n t.spilled + 8 * b2n t.clockOk) ++
    leBytes 1 cause ++ leBytes 2 t.port ++ leBytes 4 t.queue ++ leBytes 2 t.len ++ zeros 2 ++ leBytes 4 t.info.toNat ++
    leBytes 4 t.baseNs ++ ([2, 3, 4, 5, 6, 7, 8, 9, 10].flatMap off) ++ zeros 3 ++ leBytes 1 (b2n phase)

/-- A trace record is lost (R521). -/
def traceLose (s : State) : State := s.mapObs fun o => { o with trLost := o.trLost.add 1, trUnposted := o.trUnposted + 1 }

/-- The admission of records, refilled at 10^6 records per second up to 1,024 (R521). -/
def traceTokens (s : State) : Nat := min (1024 * 1000) (s.obs.trTokens.1 + (s.now - s.obs.trTokens.2))

/-- Writes the record of a tagged packet that has passed its last stage (cause 0) or was dropped; it is lost beyond the
rate, without a ring, with a full ring, or with the ring outside the DMA windows (R521). -/
def traceWrite (t : Option Trace) (cause : Nat) (s : State) : State :=
  match t with
  | none => s
  | some t =>
    let tok := traceTokens s
    if tok < 1000 then traceLose s
    else
      let s := s.mapObs fun o => { o with trTokens := (tok - 1000, s.now) }
      match s.obs.ring with
      | none => traceLose s
      | some (base, depth) =>
        let n := 2 ^ depth
        let i := s.obs.trIndex
        if (i + n - s.obs.trHead) % n = n - 1 ∨ dmaAllowed s (base + 64 * i) 64 = false ∨ s.boot.d3hot = true then traceLose s
        else
          (hostWrite (base + 64 * i) (t.bytes s.obs.trSeq cause s.obs.trPhase) s).mapObs fun o =>
            { o with
              trIndex := (i + 1) % n
              trPhase := if i + 1 = n then !o.trPhase else o.trPhase
              trSeq := (o.trSeq + 1) % 2 ^ 32, trWritten := o.trWritten.add 1 }

end Sys2Proof.Machine
end

