-- ==== Sys2Proof/Machine/BufferOps.lean ====
section
/-! DEFINITION. The packet buffer: depths, pools and pages, admission, WRED and marking, the prefetch of queued cells,
departure, drops and flushes (chapter 10). -/
namespace Sys2Proof.Machine

/-! ## Access. A queue is named by its direction (`true` for egress) and its number. -/

/-- Queue `q` of a direction, if it exists. -/
def queue? (s : State) (eg : Bool) (q : Nat) : Option Queue := mfind (if eg then s.buf.eq else s.buf.iq) q
/-- Changes a queue that exists. -/
def modQueue (eg : Bool) (q : Nat) (f : Queue → Queue) (s : State) : State :=
  match queue? s eg q with
  | none => s
  | some x => s.mapBuf fun b => if eg then { b with eq := mput b.eq q (f x) } else { b with iq := mput b.iq q (f x) }
/-- Admission profile `n`. -/
def profile (s : State) (n : Nat) : Profile := mget s.buf.profiles n Profile.init

/-- A scheduling node by its TARGET. -/
def node? (s : State) (t : Nat) : Option Node := mfind s.sched.nodes t
/-- The tier of a node's TARGET: 0 port node, 1 channel, 2 group, 3 subscriber, 4 queue (Table 16.3). -/
def tierOf (t : Nat) : Nat := t / 2 ^ 28
/-- The number of a node's TARGET. -/
def numberOf (t : Nat) : Nat := t % 2 ^ 28
/-- The TARGET of an egress queue's node. -/
def eqNode (q : Nat) : Nat := 4 * 2 ^ 28 + q
/-- The TARGET of the parent of node `t`, whose PARENT is `n.parent`. -/
def parentOf (t : Nat) (n : Node) : Nat := (tierOf t - 1) * 2 ^ 28 + n.parent
/-- The node `k` tiers above `t`. -/
def above (s : State) : Nat → Nat → Nat
  | 0, t => t
  | k + 1, t =>
    match node? s t with
    | none => t
    | some n => above s k (parentOf t n)
/-- The port number under whose port node an egress queue lies. -/
def eqPort (s : State) (q : Nat) : Nat := above s 4 (eqNode q)
/-- The port of a queue. -/
def queuePort (s : State) (eg : Bool) (q : Nat) : Nat := if eg then eqPort s q else q / 8

/-! ## Depths and pools (R257 to R262, Table 10.1) -/

/-- Cells that a frame of `n` bytes occupies on-die, and the credits it uses (R257, R244). -/
def cellsOf (n : Nat) : Nat := (n + 255) / 256
/-- Cells that it occupies in HBM, behind its descriptor (R257). -/
def hbmCellsOf (n : Nat) : Nat := (n + 16 + 255) / 256

/-- On-die cells of a packet. -/
def Pkt.od (p : Pkt) : Nat := p.res + p.shr
/-- Cells of a packet in a state. -/
def Pkt.inState (p : Pkt) (c : CellSt) : Nat := (p.cells.filter fun x => decide (x = c)).length
/-- D_od of a queue. -/
def Queue.od (q : Queue) : Nat := q.pkts.foldl (fun n p => n + p.od) 0
/-- D_hbm of a queue. -/
def Queue.hbm (q : Queue) : Nat := q.pkts.foldl (fun n p => n + p.cells.length) 0
/-- D of a queue (R262). -/
def Queue.depth (q : Queue) : Nat := q.od + q.hbm
/-- E_od of a queue: its cells charged to the on-die shared pool. -/
def Queue.shared (q : Queue) : Nat := q.pkts.foldl (fun n p => n + p.shr) 0
/-- Its cells charged to the reserve. -/
def Queue.reserved (q : Queue) : Nat := q.pkts.foldl (fun n p => n + p.res) 0
/-- Its cells in a state. -/
def Queue.inState (q : Queue) (c : CellSt) : Nat := q.pkts.foldl (fun n p => n + p.inState c) 0

/-- Sum over the queues of a direction. -/
def sumOver (m : Map Queue) (f : Queue → Nat) : Nat := m.foldl (fun n p => n + f p.2) 0
/-- Sum over every queue. -/
def sumAll (s : State) (f : Queue → Nat) : Nat := sumOver s.buf.iq f + sumOver s.buf.eq f

/-- On-die occupancy (R263). -/
def ondieOccupancy (s : State) : Nat := sumAll s Queue.od
/-- The on-die shared pool, less the cells withdrawn (Table 10.1, R341). -/
def sharedPool (s : State) : Nat :=
  1048576 - 32768 - 1024 * (s.buf.ingReserve + s.buf.egrLanding + s.buf.egrMinPool) - s.buf.cellsOut
/-- F_od: its free cells. -/
def sharedFree (s : State) : Nat := sharedPool s - sumAll s Queue.shared
/-- Spill staging in use. -/
def stagingUsed (s : State) : Nat := sumAll s fun q => q.inState .staged
/-- Prefetch area in use: cells asked for and arrived. -/
def prefetchUsed (s : State) : Nat := sumAll s fun q => q.inState .requested + q.inState .ready
/-- HBM pages of the buffer partition (R258). -/
def totalPages (s : State) : Nat := (64 - s.mem.part) * 262144
/-- Free HBM pages. -/
def freePages (s : State) : Nat := totalPages s - s.buf.pagesOut.length - sumAll s fun q => q.pages.length

/-! ## Pages (R258) -/

/-- The queue has an open page. -/
def Queue.hasOpen (q : Queue) : Bool := q.pages.any fun g => g.opened
/-- One more cell of the queue placed in HBM: in its open page, which closes at 16, or in a new page, of number `k` where it is given. -/
def Queue.place (k : Option Nat) (q : Queue) : Queue :=
  if q.hasOpen then
    { q with
      placed := q.placed + 1
      pages := q.pages.map fun g => if g.opened then { g with count := g.count + 1, opened := decide (g.count + 1 < 16) } else g }
  else { q with placed := q.placed + 1, pages := q.pages ++ [{ Page.init with first := q.placed, count := 1, opened := true, num := k }] }
/-- `n` more cells, new pages being taken from a list. -/
def Queue.placeN : Nat → List Nat → Queue → Queue
  | 0, _, q => q
  | n + 1, room, q => Queue.placeN n (if q.hasOpen then room else room.drop 1) (q.place room.head?)
/-- Room left in the queue's open page. -/
def Queue.openRoom (q : Queue) : Nat := q.pages.foldl (fun n g => if g.opened then n + (16 - g.count) else n) 0
/-- New pages that `n` more cells need. -/
def Queue.newPages (q : Queue) (n : Nat) : Nat := (n - q.openRoom + 15) / 16
/-- The page holds a cell of a packet still in the queue. -/
def Queue.pageLive (q : Queue) (g : Page) : Bool :=
  q.pkts.any fun p => p.spill && decide (p.firstCell < g.first + g.count) && decide (g.first < p.firstCell + p.cells.length)
/-- Frees the pages whose cells have all been read for departure (R258). -/
def Queue.freePages (q : Queue) : Queue := { q with pages := q.pages.filter q.pageLive }

/-! ## Prefetch and the head of a queue (R266, R267) -/

/-- Changes the first `n` cells in state `a` of a list to state `b`; answers what is left of `n`. -/
def moveCells (a b : CellSt) : Nat → List CellSt → List CellSt × Nat
  | n, [] => ([], n)
  | 0, l => (l, 0)
  | n + 1, c :: r =>
    if c = a then
      let p := moveCells a b n r
      (b :: p.1, p.2)
    else
      let p := moveCells a b (n + 1) r
      (c :: p.1, p.2)
/-- The same over packets in order. -/
def movePkts (a b : CellSt) : Nat → List Pkt → List Pkt
  | _, [] => []
  | n, p :: r =>
    let m := moveCells a b n p.cells
    { p with cells := m.1 } :: movePkts a b m.2 r

/-- Asks for the cells of a queue in list order while fewer than 1,024 of its cells are prefetched, requested or staged
and the prefetch area has room (R266). -/
def requestQueue (eg : Bool) (q : Nat) (s : State) : State :=
  match queue? s eg q with
  | none => s
  | some x =>
    if x.inState .hbm = 0 then s
    else
      let n := min (1024 - (x.hbm - x.inState .hbm)) (16384 - prefetchUsed s)
      if n = 0 then s else modQueue eg q (fun x => { x with pkts := movePkts .hbm .requested n x.pkts }) s
/-- Every queue asks, in the order of their numbers, ingress first. -/
def requestAll (s : State) : State :=
  let s := forEach (s.buf.iq.map (·.1)) (requestQueue false) s
  forEach (s.buf.eq.map (·.1)) (requestQueue true) s

/-- The packet is wholly on-die, staged or prefetched (R266, R267). -/
def Pkt.here (p : Pkt) : Bool := p.cells.all fun c => decide (c = .staged) || decide (c = .ready)
/-- The head packet, if the queue does not count as empty (R267). -/
def Queue.head? (q : Queue) : Option Pkt :=
  match q.pkts with
  | [] => none
  | p :: _ => if p.here then some p else none

/-- The head packet's trace notes that it is the head: ingress at stage 5, egress at stage 4 once it is wholly here
(Table 21.5). -/
def markHead (eg : Bool) (q : Nat) (s : State) : State :=
  modQueue eg q (fun x =>
    match x.pkts with
    | [] => x
    | p :: r =>
      if eg then if p.here then { x with pkts := { p with trace := traceStage s 4 p.trace } :: r } else x
      else { x with pkts := { p with trace := traceStage s 5 p.trace } :: r }) s

/-- Takes the first packet of a queue away: its cells and pages are free, further cells are asked for (R258, R266). -/
def popHead (eg : Bool) (q : Nat) (s : State) : State :=
  let s := modQueue eg q (fun x =>
    let x := { x with pkts := x.pkts.drop 1 }
    let x := x.freePages
    if x.pkts.isEmpty then { x with emptyAt := s.now } else x) s
  markHead eg q (requestAll s)

/-! ## Drops (R280 to R282, R512) -/

/-- Adds to the drop cause `k` (row order of Table 10.9) of a port number and direction. -/
def causeCount (port : Nat) (eg : Bool) (k n : Nat) (s : State) : State :=
  s.mapBuf fun b => { b with causes := mmod b.causes (port * 2 + b2n eg) [] fun c => ctrAdd c k n }

/-- A queue's drop counters (Table 21.1). -/
def queueDrop (eg : Bool) (q len : Nat) (s : State) : State :=
  modQueue eg q (fun x => { x with ctr := ctrAdd (ctrAdd x.ctr 2 1) 3 len }) s

/-- A packet of a queue is dropped under cause `k` of Table 10.9, with the cause `tc` in its trace record (Table 21.6). -/
def dropCause (eg : Bool) (q len k tc : Nat) (t : Option Trace) (s : State) : State :=
  let p := queuePort s eg q
  traceWrite t tc (profEvent 0x0E p 1 (causeCount p eg k 1 (queueDrop eg q len s)))

/-- The first packet of ingress queue `q` is being sent: its record has begun on the port's home link, and the packet leaves the queue
when its last byte is in a flit (R262, R232). -/
def inTransit (s : State) (q : Nat) : Bool := s.gar.links.any fun l => decide (l.2.txQueue = some q)
/-- How many packets of a queue are being sent: 0, or 1 for an ingress queue whose first packet is. -/
def sending (s : State) (eg : Bool) (q : Nat) : Nat := b2n (!eg && inTransit s q)
/-- The packets of a queue that wait: those whose record has not begun. -/
def waiting (s : State) (eg : Bool) (q : Nat) : List Pkt :=
  match queue? s eg q with
  | none => []
  | some x => x.pkts.drop (sending s eg q)
/-- The scheduler's pick of ingress queue `q` is void, as its packet is gone. -/
def unpick (q : Nat) (s : State) : State :=
  s.mapGar fun g => { g with links := mmap g.links fun _ l => if l.pkt = some q then { l with pkt := none } else l }
/-- Takes the first waiting packet of a queue away, the one that is being sent staying. -/
def popWaiting (eg : Bool) (q : Nat) (s : State) : State :=
  let k := sending s eg q
  let s := if eg then s else unpick q s
  if k = 0 then popHead eg q s
  else requestAll (modQueue eg q (fun x => ({ x with pkts := x.pkts.take 1 ++ x.pkts.drop 2 } : Queue).freePages) s)

/-- Every waiting packet of a queue is flushed: counted in DROP_FLUSH, cells and pages freed; a record that has begun goes on (R232,
R282). -/
def flushQueue (eg : Bool) (q : Nat) (s : State) : State :=
  match queue? s eg q with
  | none => s
  | some x =>
    let k := sending s eg q
    let s := (x.pkts.drop k).foldl (fun s p => dropCause eg q p.bytes.length 7 8 p.trace s) s
    let s := if eg then s else unpick q s
    requestAll (modQueue eg q (fun x =>
      let x := { x with pkts := x.pkts.take k }
      { x.freePages with emptyAt := if k = 0 then s.now else x.emptyAt }) s)

/-! ## WRED (R272) -/

/-- The update of the average at an arrival: `m` updates with D = 0 for a queue empty for `m` whole us, then one with D. -/
def wredAverage (w d m : Nat) (a : Nat × Nat) : Nat × Nat :=
  let a := if a.1 = 0 then (0, 0) else (a.1 * (2 ^ w - 1) ^ m, a.2 + w * m)
  (a.1 * (2 ^ w - 1) + d * 2 ^ a.2, a.2 + w)

/-- Selected by the curve of the colour: R < P × 65,536, with 16-bit draws R; A is `a.1 / 2 ^ a.2` cells and QMAX
`qmax × 16` cells. -/
def wredSelect (c : Nat × Nat × Nat) (qmax : Nat) (a : Nat × Nat) (r : Nat) : Bool :=
  let lo := c.1 * qmax * 2 ^ a.2
  let hi := c.2.1 * qmax * 2 ^ a.2
  let x := 16 * a.1
  if x < lo then false
  else if hi ≤ x then true
  else decide (r * 256 * (hi - lo) < 65536 * (c.2.2 * (x - lo)))

/-- The queue's average brought up to date at an arrival. -/
def wredArrive (p : Profile) (eg : Bool) (q : Nat) (s : State) : State :=
  if p.wred = 0 then s
  else
    let w := (mget s.buf.wred (p.wred - 1) Wred.init).w
    modQueue eg q (fun x =>
      let m := if x.pkts.isEmpty then (s.now - x.emptyAt) / 1000 else 0
      { x with avg := wredAverage w x.depth m x.avg }) s

/-- WRED selects the arriving packet of a colour. -/
def wredPicks (s : State) (p : Profile) (x : Queue) (colour draw : Nat) : Bool :=
  decide (p.wred ≠ 0) &&
    wredSelect (((mget s.buf.wred (p.wred - 1) Wred.init).curves[colour]?).getD (0, 0, 0)) p.qmax x.avg (draw % 65536)

/-! ## Admission (R263 to R271) -/

/-- The tier that placement gives a packet (R263, R265, R81). -/
inductive Tier where
  /-- On-die by R263. -/
  | ondie
  /-- HBM. -/
  | hbm
  /-- On-die because spill is disabled. -/
  | spillOff
  /-- On-die because the staging lacks room. -/
  | spillFull
deriving DecidableEq, Repr

/-- R263 and R265 for a packet that would need `n` cells of the staging. -/
def placement (s : State) (p : Profile) (x : Queue) (n : Nat) : Tier :=
  if s.buf.spillEn && p.spill && (decide (p.odThresh < x.depth) || decide (s.buf.hwm * 1024 < ondieOccupancy s)) then
    if !spillEnabled s then .spillOff
    else if 16384 < stagingUsed s + n then .spillFull
    else .hbm
  else .ondie

/-- The cause, in row order of Table 10.9, of a packet of a tier that fails its pool: DROP_SHARED, DROP_SPILL_OFF or
DROP_SPILL_FULL. -/
def Tier.cause : Tier → Nat
  | .ondie => 1
  | .hbm => 1
  | .spillOff => 3
  | .spillFull => 4

/-- The limit of a dynamic threshold for the `m` cells that remain beyond the reserve, if any: E + m ≤ α × F and m ≤ F (R269). -/
def fits (alpha e m f : Nat) : Bool := decide (m = 0) || (decide ((e + m) * 128 ≤ f * 2 ^ alpha) && decide (m ≤ f))

/-- Cells of `n` that go to the reserve: up to QMIN − D_od. -/
def toReserve (p : Profile) (x : Queue) (n : Nat) : Nat := min n (p.qmin - x.od)

/-- Step 4 for a packet that takes `n` cells in HBM (DEDUCED, log 32): the new pages are free and D_hbm + n ≤ α × F_hbm. -/
def hbmFits (s : State) (p : Profile) (x : Queue) (n : Nat) : Bool :=
  decide (x.newPages n ≤ freePages s) && decide ((x.hbm + n) * 128 ≤ 16 * freePages s * 2 ^ p.alpha)

/-- What admission decides: the drop cause, or the charge of the admitted packet: its tier, reserve and shared cells. -/
inductive Admit where
  | drop (cause : Nat)
  | take (spill : Bool) (res shr : Nat)
deriving DecidableEq, Repr

/-- Steps 1 to 4 of R269 for a packet of `len` bytes as a whole. -/
def admitWhole (s : State) (p : Profile) (x : Queue) (len : Nat) : Admit :=
  let n := cellsOf len
  if p.qmax * 16 < x.depth + n then .drop 0
  else
    let t := placement s p x (hbmCellsOf len)
    if t = .hbm then if hbmFits s p x (hbmCellsOf len) then .take true 0 0 else .drop 1
    else
      let r := toReserve p x n
      if fits p.alpha x.shared (n - r) (sharedFree s) then .take false r (n - r) else .drop t.cause

/-- The first cell of an ingress frame chooses the tier; each cell passes steps 1 and 3 or 4 as it arrives (R271). The
frame's cells arrive with nothing between them, so the `k` cells before are added to what the queue holds. -/
def admitCells (s : State) (p : Profile) (x : Queue) (t : Tier) : Nat → Nat → Nat → Nat → Admit
  | 0, _, r, m => .take (decide (t = .hbm)) r m
  | n + 1, k, r, m =>
    if p.qmax * 16 < x.depth + k + 1 then .drop 0
    else if t = .hbm then
      if 16384 < stagingUsed s + k + 1 then .drop 4
      else
        let free := freePages s - x.newPages k
        let need := x.newPages (k + 1) - x.newPages k
        if need ≤ free ∧ (x.hbm + k + 1) * 128 ≤ 16 * free * 2 ^ p.alpha then admitCells s p x t n (k + 1) r m else .drop 1
    else if x.od + k < p.qmin then admitCells s p x t n (k + 1) (r + 1) m
    else if fits p.alpha (x.shared + m) 1 (sharedFree s - m) then admitCells s p x t n (k + 1) r (m + 1)
    else .drop t.cause

/-- Steps 1 to 4 for an ingress frame of `len` bytes, and whether its first cell passed them (so that step 5 was reached). -/
def admitIngress (s : State) (p : Profile) (x : Queue) (len : Nat) : Admit × Bool :=
  let t := placement s p x 1
  let first := match admitCells s p x t 1 0 0 0 with
    | .drop _ => false
    | .take _ _ _ => true
  (admitCells s p x t (if t = .hbm then hbmCellsOf len else cellsOf len) 0 0 0, first)

/-- An on-die cell holds no packet and is not withdrawn (R257, R341). -/
def cellFree (s : State) (c : Nat) : Bool :=
  let holds := fun (m : Map Queue) => m.any fun q => q.2.pkts.any fun p => p.odCells.contains c
  decide (c < 1048576) && decide (mget s.mem.cellUe c 0 < 2) && !holds s.buf.iq && !holds s.buf.eq
/-- A page of the buffer partition is free and not withdrawn (R258, R344). -/
def pageFree (s : State) (k : Nat) : Bool :=
  let holds := fun (m : Map Queue) => m.any fun q => q.2.pages.any fun g => decide (g.num = some k)
  decide (k < totalPages s) && !s.buf.pagesOut.contains k && !holds s.buf.iq && !holds s.buf.eq

/-- Writes a frame to its on-die cells, each whole, the bytes after the last zero (R334). -/
def writeCells : List Nat → List Byte → State → State
  | [], _, s => s
  | c :: r, l, s =>
    let s := modRegion 0 (fun g => { g with cells := Memory.putBytes g.cells (256 * c) ((l ++ zeros 256).take 256) }) s
    writeCells r (l.drop 256) (cleanse 0 (32 * c) (32 * c + 31) (cellWritten c s))

/-- The region and the first unit of the queue's HBM cell `n`, where its page's number is known. -/
def Queue.cellUnit (q : Queue) (n : Nat) : Option (Nat × Nat) :=
  match q.pages.find? fun g => decide (g.first ≤ n) && decide (n < g.first + 16) with
  | none => none
  | some g => g.num.map fun k => (65 + k % 4, pageUnit k + 8 * (n - g.first))

/-- The reads of a packet's on-die cells: what an operand names, and the known poison of the others. -/
def packetFound (s : State) (p : Pkt) (l : List Found) : List Found :=
  l ++ p.odCells.flatMap fun c => poisonIn s 0 (32 * c) (32 * c + 31) l

/-- Stores an admitted packet at the tail of its queue: on-die in free cells that the list gives, or its HBM cells in the staging (R264), new
pages being taken from the list. Where a cell is not given its place, what ONDIE_BUF holds is a free value, as it is for the staging. -/
def enqueue (eg : Bool) (q : Nat) (spill : Bool) (res shr : Nat) (room : List Nat) (p : Pkt) (s : State) : State :=
  let n := if spill then hbmCellsOf p.bytes.length else 0
  let room := (room.filter (if spill then pageFree s else cellFree s)).eraseDups
  let at' := if spill then [] else room.take (cellsOf p.bytes.length)
  let exact := !spill && decide (at'.length = cellsOf p.bytes.length)
  let s := if exact then s else mixRegions (if spill then [0, 65, 66, 67, 68] else [0]) s
  let s := writeCells at' p.bytes s
  let s := modQueue eg q (fun x =>
    let p := { p with
      spill := spill, res := res, shr := shr, odCells := at', cells := List.replicate n CellSt.staged, firstCell := x.placed, since := s.now
      trace := p.trace.map fun t => { t with spilled := spill } }
    Queue.placeN n room { x with pkts := x.pkts ++ [p] }) s
  match queue? s eg q with
  | some x => if x.pkts.length = 1 then markHead eg q s else s
  | none => s

/-- A packet's departure is counted (Table 21.1). -/
def passCount (eg : Bool) (q len : Nat) (s : State) : State :=
  modQueue eg q (fun x => { x with ctr := ctrAdd (ctrAdd x.ctr 0 1) 1 len }) s

/-! ## The sums of QMIN (R262) -/

/-- The sum of QMIN over the queues of a map with the profiles of `pr`. -/
def qminSum (pr : Nat → Profile) (m : Map Queue) : Nat := m.foldl (fun n q => n + (pr q.2.prof).qmin) 0
/-- R262 holds for reserves in units of 1,024 cells. -/
def qminFits (pr : Nat → Profile) (iq eq : Map Queue) (ing egr : Nat) : Bool :=
  decide (qminSum pr iq ≤ ing * 1024) && decide (qminSum pr eq ≤ egr * 1024)

end Sys2Proof.Machine
end

