-- ==== Sys2Proof/Machine/LinkOps.lean ====
section
/-! DEFINITION. Access to the Garnet links and the Geode link (as link 128), and the fields of card headers. -/
namespace Sys2Proof.Machine

/-- The Geode link's key. -/
def geodeLink : Nat := 128
/-- Link `n`. -/
def link (s : State) (n : Nat) : Link := mget s.gar.links n Link.init
/-- Changes link `n`. -/
def modLink (n : Nat) (f : Link → Link) (s : State) : State := s.mapGar fun g => { g with links := mmod g.links n Link.init f }
/-- Pair `i` of link `n`. -/
def pair (s : State) (n i : Nat) : Pair := mget (link s n).pairs i Pair.init
/-- Changes a pair. -/
def modPair (n i : Nat) (f : Pair → Pair) (s : State) : State :=
  modLink n (fun l => { l with pairs := mmod l.pairs i Pair.init f }) s
/-- Adds to counter `k` of a link (row order of Table 9.19). -/
def linkCount (n k a : Nat) (s : State) : State := modLink n (fun l => { l with ctr := ctrAdd l.ctr k a }) s
/-- Adds to counter `k` of a pair (row order of Table 8.12). -/
def pairCount (n i k a : Nat) (s : State) : State := modPair n i (fun p => { p with ctr := ctrAdd p.ctr k a }) s
/-- The number of pairs of a link: four, and eight on the Geode link (R20, R225). -/
def pairsOf (n : Nat) : Nat := if n = geodeLink then 8 else 4
/-- The pair indices of a link. -/
def pairIdx (n : Nat) : List Nat := List.range (pairsOf n)
/-- The OBJECT of a Garnet event for a link and pair; the Geode link is 0x80 (R414). -/
def linkObj (n i : Nat) : Nat := n * 65536 + i
/-- The link runs in standard-engine mode: GAR_MODE 2; the Geode link never does (R25, R225). -/
def stdMode (s : State) (n : Nat) : Bool := decide (s.gar.mode = 2) && decide (n ≠ geodeLink)
/-- The instance of a link in the event-bus codes (Table 21.4). -/
def linkInst (n : Nat) : Nat := n

/-! ## Outer frames (R254, R255) -/

/-- An outer frame of records, padded to 60 bytes before its FCS (Table 9.18). -/
def outerFrame (s : State) (recs : List Byte) : List Byte :=
  let l := beBytes 6 s.gar.feMac.toNat ++ beBytes 6 s.gar.devMac.toNat ++ beBytes 2 s.gar.etherType.toNat ++ recs
  let l := l ++ zeros (60 - l.length)
  l ++ fcsOf l

/-- An outer frame is sent on a standard-engine link. -/
def sendOuter (n : Nat) (recs : List Byte) (s : State) : State := modLink n (fun l => { l with lastOuter := outerFrame s recs }) s

/-! ## Card headers -/

/-- The card header towards the FE (Table 9.12). -/
def headerToFe (port cls colour : Nat) (bad ts : Bool) (ns len : Nat) (hash : BitVec 32) : List Byte :=
  [0x11, BitVec.ofNat 8 port, BitVec.ofNat 8 (cls * 32 + colour * 8 + b2n bad * 4 + b2n ts * 2), 0] ++
    beBytes 4 (if ts then ns else 0) ++ beBytes 2 len ++ beBytes 2 (8 * port + cls) ++ beBytes 4 hash.toNat

/-- ECN_CAPABLE of a card header from the FE (Table 9.13). -/
def hdrEcn (h : List Byte) : Bool := bitOf (byteAt h 1) 7
/-- DROP_PREC. -/
def hdrColour (h : List Byte) : Nat := byteAt h 1 / 32 % 4
/-- TS_ACTION: 0 NONE, 1 ONE_STEP_CF, 2 TWO_STEP_CAPTURE, 3 ONE_STEP_ORIGIN. -/
def hdrAction (h : List Byte) : Nat := byteAt h 1 / 8 % 4
/-- EQ. -/
def hdrEq (h : List Byte) : Nat := byteAt h 1 % 2 * 65536 + wireAt h 2 2
/-- TS_OFFSET. -/
def hdrOffset (h : List Byte) : Nat := wireAt h 4 2 % 16384
/-- LENGTH. -/
def hdrLen (h : List Byte) : Nat := wireAt h 6 2 % 16384
/-- TS_REF. -/
def hdrRef (h : List Byte) : Nat := wireAt h 8 4
/-- FE_METADATA. -/
def hdrMeta (h : List Byte) : Nat := wireAt h 12 4

end Sys2Proof.Machine
end

