-- ==== Sys2Proof/Machine/SchedOps.lean ====
section
/-! DEFINITION. The egress scheduler's tree: shaping states, readiness, the choice inside a node, debits and tags
(chapter 11), and the drop of a frame at a queue head. -/
namespace Sys2Proof.Machine

/-! ## Shapers (R288, R289). Buckets are kept in 10^-6 byte: a rate of value × 8 kb/s fills value of them each ns. -/

/-- Bytes of a bucket size field, in 10^-6 byte. -/
def bucketSize (v : Nat) : Int := (v * 64 * 1000000 : Nat)
/-- The node's buckets brought up to the time `now`; a bucket whose rate is zero is not used and stays. -/
def Node.fill (n : Node) (now : Nat) : Node :=
  let d : Int := (now - n.filledAt : Nat)
  { n with
    cTok := if n.cir = 0 then n.cTok else min (bucketSize n.cbs) (n.cTok + n.cir * d)
    pTok := if n.pir = 0 then n.pTok else min (bucketSize n.pbs) (n.pTok + n.pir * d)
    filledAt := now }
/-- The shaping state of a node filled to the present: 0 committed, 1 excess, 2 blocked (R288). -/
def Node.shape (n : Node) : Nat :=
  if n.pir ≠ 0 ∧ n.pTok < 0 then 2 else if n.cir ≠ 0 ∧ 0 ≤ n.cTok then 0 else 1
/-- A node as it stands now. -/
def nodeNow (s : State) (t : Nat) : Node := ((node? s t).getD Node.init).fill s.now
/-- The nodes whose parent is node `t`. -/
def childrenOf (s : State) (t : Nat) : List Nat :=
  (s.sched.nodes.filter fun p => decide (tierOf p.1 = tierOf t + 1) && decide (parentOf p.1 p.2 = t)).map (·.1)
/-- The bytes that a frame of `len` bytes debits from a node, in 10^-6 byte. -/
def Node.cost (n : Node) (len : Nat) : Int := ((len : Int) + n.overhead) * 1000000
/-- The debit of a frame that leaves: both buckets in the committed band, the PIR bucket in the excess band (R289); a bucket not used
is not debited, and a bucket never holds more than its size. -/
def Node.debit (n : Node) (committed : Bool) (len : Nat) : Node :=
  let c := n.cost len
  { n with
    cTok := if committed ∧ n.cir ≠ 0 then min (bucketSize n.cbs) (n.cTok - c) else n.cTok
    pTok := if n.pir ≠ 0 then min (bucketSize n.pbs) (n.pTok - c) else n.pTok }
/-- Changes a node that exists, filled to the present. -/
def modNode (t : Nat) (f : Node → Node) (s : State) : State :=
  match node? s t with
  | none => s
  | some n => s.mapSched fun c => { c with nodes := mput c.nodes t (f (n.fill s.now)) }

/-! ## Readiness and choice (R291, R292) -/

/-- The node is ready; `k` is at least its height above the queues (R291). -/
def nodeReady (s : State) : Nat → Nat → Bool
  | 0, _ => false
  | k + 1, t =>
    (decide (tierOf t = 0) || decide ((nodeNow s t).shape ≠ 2)) &&
      if tierOf t = 4 then
        match queue? s true (numberOf t) with
        | none => false
        | some q => q.head?.isSome
      else (childrenOf s t).any (nodeReady s k)

/-- The key of a band and priority. -/
def bandKey (committed : Bool) (prio : Nat) : Nat := (if committed then 8 else 0) + prio
/-- V of a node or port node for a band and priority. -/
def virtOf (s : State) (t k : Nat) : Frac :=
  if tierOf t = 0 then mget (mget s.sched.portVirt t []) k ⟨0, 0⟩ else mget ((node? s t).getD Node.init).virt k ⟨0, 0⟩
/-- The tag with which child `c` competes: max(V, F), which is what a child that becomes ready takes and what a ready
child has (R292). -/
def tagOf (s : State) (t c k : Nat) : Frac := (virtOf s t k).max (mget ((node? s c).getD Node.init).tags k ⟨0, 0⟩)

/-- Does child `a` go before child `b` of node `t`? The committed band, then the higher PRIO, then the smaller tag, then
the lower number (R291, R292). -/
def goesBefore (s : State) (t a b : Nat) : Bool :=
  let na := nodeNow s a
  let nb := nodeNow s b
  let ca := decide (na.shape = 0)
  let cb := decide (nb.shape = 0)
  if ca ≠ cb then ca
  else if na.prio ≠ nb.prio then decide (nb.prio < na.prio)
  else
    let k := bandKey ca na.prio
    let fa := tagOf s t a k
    let fb := tagOf s t b k
    if fa.lt fb then true else if fb.lt fa then false else decide (numberOf a < numberOf b)

/-- The first of a list of children. -/
def firstChild (s : State) (t : Nat) : List Nat → Option Nat
  | [] => none
  | c :: r =>
    match firstChild s t r with
    | none => some c
    | some d => if goesBefore s t c d then some c else some d

/-- The path from node `t` to a queue: each node chosen and whether in the committed band. -/
def choosePath (s : State) : Nat → Nat → List (Nat × Bool)
  | 0, _ => []
  | k + 1, t =>
    match firstChild s t ((childrenOf s t).filter (nodeReady s 5)) with
    | none => []
    | some c => (c, decide ((nodeNow s c).shape = 0)) :: choosePath s k c

/-- Debits the buckets along a path for a frame that leaves through it (R289). -/
def debitPath (path : List (Nat × Bool)) (len : Nat) (s : State) : State :=
  path.foldl (fun s p => modNode p.1 (fun n => n.debit p.2 len) s) s

/-- Sets V of node `t`. -/
def setVirt (t k : Nat) (v : Frac) (s : State) : State :=
  if tierOf t = 0 then s.mapSched fun c => { c with portVirt := mmod c.portVirt t [] fun m => mput m k v }
  else modNode t (fun n => { n with virt := mput n.virt k v }) s

/-- The tags after a frame of `len` bytes has left along a path under node `t` (R292). -/
def tagPath (len : Nat) : Nat → List (Nat × Bool) → State → State
  | _, [], s => s
  | t, (c, b) :: r, s =>
    let n := (node? s c).getD Node.init
    let k := bandKey b n.prio
    let f := tagOf s t c k
    let f' := (f.add ⟨(len : Int) + n.overhead, n.weight - 1⟩).norm
    tagPath len c r (modNode c (fun n => { n with tags := mput n.tags k f' }) (setVirt t k f s))

/-! ## Queue heads (R176, R180, R187, R295, R560) -/

/-- The device lets egress packets leave: ACTIVE, or draining towards QUIESCE (R478, R479). -/
def egressRuns (s : State) : Bool := decide (s.boot.state = .active)

/-- The port node may send (R295, R479). -/
def portSends (s : State) (p : Nat) : Bool :=
  match port? s p with
  | none => false
  | some q => canTransmit q && !isSecondary s && egressRuns s && !q.deleting

/-- The first of the reasons that need no cell to be read for which port `p` drops a head frame of `len` bytes, as the
port counter's index (R560). -/
def headReason (s : State) (p len : Nat) : Option Nat :=
  match port? s p with
  | none => none
  | some q =>
    if q.deleting || !egressRuns s then none
    else if q.loopback = 3 then some 31
    else if (!canTransmit q || isSecondary s) && !q.hold then some 28
    else if len < 64 ∨ q.maxFrame < len then some 30
    else none

/-- DROP_CAUSE of a trace record for a port counter's index (Table 21.6). -/
def headTrace (k : Nat) : Nat := if k = 31 then 13 else if k = 28 then 10 else if k = 30 then 12 else 11

/-- The port's chosen frame is forgotten when it is the head of queue `q`; its choice has debited no bucket (R289). -/
def forgetChosen (q : Nat) (s : State) : State := s.mapSched fun x => { x with chosen := x.chosen.filter fun c => decide (c.2.eq ≠ q) }

/-- The head of an egress queue is dropped under the port counter `k` (R560). -/
def dropHead (q k : Nat) (s : State) : State :=
  match queue? s true q with
  | none => s
  | some x =>
    match x.pkts with
    | [] => s
    | p :: _ =>
      let s := forgetChosen q s
      let s := popHead true q (portCount (eqPort s q) k 1 (queueDrop true q p.bytes.length s))
      traceWrite p.trace (headTrace k) s

/-! ## What the MAC counts -/

/-- Adds the bits of a frame to the bandwidth window of port `p` (R518). -/
def bwFrame (p len : Nat) (tx : Bool) (s : State) : State :=
  s.mapObs fun o =>
    let w := mget o.bw p Bw.init
    let i := (s.now - max w.began o.cycles) / 100000
    let add := fun m => mmod m i 0 fun b => b + (len + 20) * 8
    { o with bw := mput o.bw p (if tx then { w with tx := add w.tx } else { w with rx := add w.rx }) }

/-- The cast counter of a frame: 0 unicast, 1 multicast, 2 broadcast. -/
def castOf (l : List Byte) : Nat :=
  if (l.take 6).all (· == 0xFF) then 2 else if bitOf (byteAt l 0) 0 then 1 else 0

/-- A frame is sent on port `p` (Table 7.6). -/
def countSent (p : Nat) (l : List Byte) (s : State) : State :=
  let n := l.length
  let s := portCount p 23 1 (portCount p 24 n (portCount p (25 + castOf l) 1 s))
  let s := modPort p (fun q => { q with lastTx := l }) s
  bwFrame p n true (profEvent 0x04 p 1 (profEvent 0x06 p n s))

end Sys2Proof.Machine
end

