-- ==== Sys2Proof/Machine/Transmit.lean ====
section
/-! DEFINITION. The transmit chain of a lane: the code, the precoder, the polarity, the 7-tap FIR, the mask filter, the ramp and the
swing (R136 to R148). -/
namespace Sys2Proof.Machine

/-- The seven taps as signed numbers. -/
def tapInts (l : List Byte) : List Int := l.map fun b => b.toInt

/-- The taps of FORERUNNER preset `p`, -3 to +3, in 1/64 (R140). -/
def forerunnerTaps (p : Nat) : List Int :=
  let pre : Int := ((4 * (p % 4) : Nat) : Int)
  let next : Int := ((4 * (p / 4) : Nat) : Int)
  [0, 0, -pre, 64 - pre - next, -next, 0, 0]

/-- The taps in force of a lane in a lane mode, -3 to +3, in 1/64: by TX_FIR_SRC (R137, R138, R140, R141). -/
def txTaps (l : LaneSet) (mode : Nat) : List Int :=
  if l.firSrc = 0 then tapInts l.taps else if l.firSrc = 1 then forerunnerTaps l.txPreset else Config.c2mTaps mode l.txPreset

/-- The amplitude of a level in 1/3: -1, -1/3, +1/3, +1 for levels 0 to 3 (R136). -/
def levelAmp (l : Nat) : Int := 2 * (l : Int) - 3
/-- The FIR output for symbol `n` of a run of levels, in 1/192: the sum of c_i a_(n-i) for i from -3 to +3 (R136). -/
def firOut (taps : List Int) (ls : List Nat) (n : Nat) : Int :=
  ((List.range 7).map fun k => taps.getD k 0 * (if n + 3 < k then 0 else ((ls[n + 3 - k]?).map levelAmp).getD 0)).foldl (· + ·) 0
/-- The two DAC samples of a FIR output, in 1/384: OFF repeats it and FORERUNNER goes half way to the next; the raised-cosine filters are
not given by their coefficients (Table 6.2; log 136). -/
def maskSamples (mask : Nat) (ys : List Int) (n : Nat) : Int × Int :=
  let y := ys.getD n 0
  if mask = 0 then (2 * y, 2 * y)
  else if mask = 3 then (2 * y, y + ys.getD (n + 1) 0)
  else Config.rolledSamples mask ys n

/-- The ramp factor after `k` of the 64 steps up, (1 - cos(pi k/64))/2 to the nearest 1/65536 (R143; log 136). -/
def rampFactor (k : Nat) : Nat :=
  ([0, 39, 158, 355, 630, 982, 1411, 1915, 2494, 3146, 3869, 4662, 5522,
    6448, 7438, 8489, 9598, 10762, 11980, 13248, 14563, 15922, 17321, 18758, 20228, 21729,
    23256, 24806, 26375, 27960, 29556, 31160, 32768, 34376, 35980, 37576, 39161, 40730, 42280,
    43807, 45308, 46778, 48215, 49614, 50973, 52288, 53556, 54774, 55938, 57047, 58098, 59088,
    60014, 60874, 61667, 62390, 63042, 63621, 64125, 64554, 64906, 65181, 65378, 65497, 65536]).getD k 65536
/-- The ramp factor of a lane's output, or none at high impedance (R143, R144). -/
def rampNow (l : Lane) : Option Nat :=
  match l.tx with
  | .hiZ => none
  | .muted => some 0
  | .stopping => some 0
  | .transmitting => some (rampFactor 64)
  | .rampUp => some (rampFactor l.step)
  | .rampDown => some (rampFactor l.step)
/-- The full-scale swing of a TX_AMPL value in mV (Table 6.1). -/
def swingOf (ampl : Nat) : Nat := 300 + 10 * ampl
/-- The full-scale swing in force in 1/64 mV: a change moves it in 64 equal steps (R148). -/
def swingNow (l : Lane) : Int :=
  64 * (swingOf l.amplOld : Int) + ((swingOf l.set.txAmpl : Int) - swingOf l.amplOld) * min l.amplStep 64

/-- The levels that a lane sends for line bits, with the precoder's last level: Gray code, then the precoder in C2M media mode when it is
enabled, then the polarity (R124, R129, R136). -/
def sendLevels (set : LaneSet) (c2m : Bool) (pre : Nat) (bits : List Bool) : List Nat × Nat :=
  let ls := grayLevels bits
  let ps := if c2m && set.txPrecode then precode pre ls else ls
  (if set.txInvert then ps.map (3 - ·) else ps, ps.getLastD pre)

/-- A lane sends bits of its port's codeword stream, whatever its transmitter's state: its code, then its levels (R122, R136, R143,
R185). -/
def laneSend (n : Nat) (bits : List Bool) (s : State) : State :=
  let l := lane s n
  let c2m := (cage s (n / 8)).c2m
  let b := lineBits (innerCode l.opMode c2m) l.convMem bits
  let v := sendLevels l.set c2m l.txPre b.1
  modLane n (fun l => { l with txLevels := v.1, convMem := b.2, txPre := v.2 }) s

/-- The DAC samples that a lane's last levels give before the ramp, in 1/384 of full scale (R136, R139). -/
def laneSamples (s : State) (n : Nat) : List (Int × Int) :=
  let l := lane s n
  let ys := (List.range l.txLevels.length).map (firOut (txTaps l.set l.opMode) l.txLevels)
  (List.range ys.length).map (maskSamples l.set.txMask ys)

/-- The lanes of a list send the bits of a list each. -/
def lanesSend : List Nat → List (List Bool) → State → State
  | n :: ns, b :: bs, s => lanesSend ns bs (laneSend n b s)
  | _, _, s => s

end Sys2Proof.Machine
end

