-- ==== Sys2Proof/Machine/Egress.lean ====
section
/-! DEFINITION. The meanings of the egress rows: choosing a frame, dropping a head, starting a frame at the MAC with its
time action, and the buckets (chapters 07, 11 and 17). -/
namespace Sys2Proof.Machine

/-- SCHEDULER_CHOOSE: the port's scheduler chooses the frame that leaves next; a head that must be dropped is dropped (R291, R560,
R295). -/
def execSchedulerChoose (port : Nat) (s : State) : Host.Outcome State Fault Refusal :=
  .next (
    if !portSends s port || mhas s.sched.chosen port || (portD s port).loopback = 3 then s
    else
      let path := choosePath s 4 port
      match path.getLast? with
      | none => s
      | some (t, _) =>
        let q := numberOf t
        match (queue? s true q).bind Queue.head? with
        | none => s
        | some p =>
          match headReason s port p.bytes.length with
          | some k => dropHead q k s
          | none =>
            let s := modQueue true q (fun x =>
              { x with pkts := match x.pkts with
                  | [] => []
                  | p :: r => { p with trace := traceStage s 5 p.trace } :: r }) s
            s.mapSched fun c => { c with chosen := mput c.chosen port { Chosen.init with eq := q, path := path } })

/-- The head of an egress queue is dropped for poison; where the link to the next packet is lost, every packet of the queue (R337). -/
def dropPoisoned (q : Nat) (all : Bool) (s : State) : State :=
  if all then
    match queue? s true q with
    | none => s
    | some x => x.pkts.foldl (fun s _ => dropHead q 29 s) s
  else dropHead q 29 s

/-- QUEUE_HEAD_DROP: the head of an egress queue is dropped once, under the first reason that applies; its cells are read
for the last one only (R560). -/
def execQueueHeadDrop (queue : Nat) (found : List Found) (linkLost : Bool) (s : State) : Host.Outcome State Fault Refusal :=
  .next (
    match (queue? s true queue).bind (fun x => x.pkts.head?) with
    | none => s
    | some p =>
      match headReason s (eqPort s queue) p.bytes.length with
      | some k => dropHead queue k s
      | none =>
        let l := packetFound s p found
        if p.here && portSends s (eqPort s queue) && (p.poison || anyBad s l) then dropPoisoned queue (anyBad s l && linkLost) (packetReads .mac (!p.odCells.isEmpty) l s)
        else s)

/-! ## Time actions (R453, R454) -/

/-- The transmit timestamp of a frame; while the clock does not run it is a free value (log 9). -/
def sendStamp (s : State) (p : Nat) : Stamp × State :=
  if s.tim.running then (txStamp s p, s)
  else
    ({ sec := Config.freeNat s.free % 2 ^ 48, ns := Config.freeNat (s.free + 1) % 1000000000, frac := Config.freeNat (s.free + 2) % 2 ^ 32 },
     s.tick.tick.tick)

/-- ONE_STEP_CF: the residence, in units of 2^-16 ns rounded to nearest, is added to the correctionField (R453). -/
def addResidence (l : List Byte) (off ref : Nat) (t : Stamp) : List Byte :=
  let m := 1000000000 * 2 ^ 32
  let r := (t.ns * 2 ^ 32 + t.frac + m - ref * 2 ^ 32 % m) % m
  writeField l off (beBytes 8 ((wireAt l off 8 + (r + 2 ^ 15) / 2 ^ 16) % 2 ^ 64))

/-- ONE_STEP_ORIGIN: the timestamp rounded to the nearest ns, as 48-bit seconds and 32-bit nanoseconds (R453). -/
def writeOrigin (l : List Byte) (off : Nat) (t : Stamp) : List Byte :=
  let n := t.sec * 1000000000 + t.ns + b2n (decide (2 ^ 31 ≤ t.frac))
  writeField l off (beBytes 6 (n / 1000000000) ++ beBytes 4 (n % 1000000000))

/-- Applies TS_ACTION to a frame that the MAC starts: the frame to send, and the state with any capture record (R453). -/
def timeAction (p : Nat) (h l : List Byte) (s : State) : List Byte × State :=
  if hdrAction h = 0 then (l, s)
  else
    let t := sendStamp s p
    if hdrAction h = 1 then (addResidence l (hdrOffset h) (hdrRef h) t.1, t.2)
    else if hdrAction h = 3 then (writeOrigin l (hdrOffset h) t.1, t.2)
    else (l, capture p (beBytes 4 (hdrMeta h)) t.1 t.2)

/-- MAC_FRAME_START: the frame chosen is started once its cells have been read and checked: its time action, its FCS, its
counts, its departure, the debits along its path in the bands it was chosen in, and its tags; a poisoned one, or one with a reason to be dropped by now, is dropped instead (R179,
R453, R289, R292, R560). -/
def execMacFrameStart (port : Nat) (found : List Found) (linkLost : Bool) (lines : List (List Bool)) (s : State) : Host.Outcome State Fault Refusal :=
  .next (
    match mfind s.sched.chosen port with
    | none => s
    | some c =>
      match (queue? s true c.eq).bind Queue.head? with
      | none => s
      | some p =>
        match headReason s port p.bytes.length with
        | some k => dropHead c.eq k s
        | none =>
          if !portSends s port then s
          else
            let l := packetFound s p found
            let bad := anyBad s l
            let s := packetReads .mac (!p.odCells.isEmpty) l s
            if p.poison || bad then dropPoisoned c.eq (bad && linkLost) s
            else
              let a := timeAction port p.header p.bytes s
              let s := lanesSend (portLanes s port) lines (countSent port (withFcs a.1) a.2)
              let s := tagPath p.bytes.length port c.path (debitPath c.path p.bytes.length s)
              let s := s.mapSched fun x => { x with chosen := mdel x.chosen port }
              let s := popHead true c.eq (passCount true c.eq p.bytes.length s)
              traceWrite (traceStage s 7 (traceStage s 6 p.trace)) 0 s)

/-- NODE_READY_AGAIN: a node's buckets are brought up to the present, its PIR bucket having reached zero (R288). -/
def execNodeReadyAgain (node : Nat) (s : State) : Host.Outcome State Fault Refusal := .next (modNode node id s)

end Sys2Proof.Machine
end

