-- ==== Sys2Proof/Machine/GarLine.lean ====
section
/-! DEFINITION. What a Garnet pair puts on the line: page frames, training frames, wake preambles and markers, and the RS(272,257)
codewords with their scrambler (R196, R200, R210, R212, R226 to R228). A level is a number from 0 to 3; NRZ uses 0 and 3. -/
namespace Sys2Proof.Machine

/-! ## Bits -/

/-- The bits of a byte, most significant first. -/
def bitsOfByte (b : Byte) : List Bool := [7, 6, 5, 4, 3, 2, 1, 0].map fun i => b.getLsbD i
/-- The bits of bytes in the order sent: byte 0 first, most significant bit first (R12, R196). -/
def bitsOf (l : List Byte) : List Bool := l.flatMap bitsOfByte
/-- The `k` low bits of a number, most significant first. -/
def bitsOfNat (k n : Nat) : List Bool := ((List.range k).reverse).map fun i => n.testBit i
/-- The number that bits spell, most significant first. -/
def natOfBits (l : List Bool) : Nat := l.foldl (fun n b => 2 * n + b2n b) 0
/-- Bits at levels 3 and 0 (R200, R212). -/
def twoLevels (l : List Bool) : List Nat := l.map fun b => if b then 3 else 0

/-! ## Generators -/

/-- `k` bits of a generator whose polynomial has the powers `taps`, the first the degree: each bit is the sum of those that many bits
before it, and bit `j` of the state is the bit `j + 1` before (log 149). Answers the bits and the state after them. -/
def lfsrRun (taps : List Nat) : Nat → Nat → List Bool × Nat
  | 0, st => ([], st)
  | k + 1, st =>
    let b := taps.foldl (fun v t => v != st.testBit (t - 1)) false
    let r := lfsrRun taps k ((2 * st + b2n b) % 2 ^ taps.headD 1)
    (b :: r.1, r.2)
/-- Bits XORed with others. -/
def xorBits (a b : List Bool) : List Bool := a.zipWith (· != ·) b

/-! ## Step 1 and training (R196, R200) -/

/-- The start word of page frames and training frames. -/
def startWord : Nat := 0xE2F34A1D
/-- The bits of one page frame: 64 alternating bits, the start word, and the page scrambled from all ones (R196). -/
def pageFrame (page : List Byte) : List Bool :=
  ((List.range 64).map fun i => decide (i % 2 = 0)) ++ bitsOfNat 32 startWord ++
    xorBits (bitsOf page) (lfsrRun [13, 4, 3, 1] 256 (2 ^ 13 - 1)).1
/-- A burst: 16 page frames (R196). -/
def pageBurst (page : List Byte) : List Nat := twoLevels ((List.replicate 16 (pageFrame page)).flatten)

/-- The CRC-8 of a status word over its bits [31:8] (Table 8.5). -/
def statusCrc (w : Nat) : Nat :=
  (List.range 24).foldl (fun c k =>
    let t := c.testBit 7 != w.testBit (31 - k)
    let c' := c * 2 % 256
    if t then Nat.xor c' 7 else c') 0
/-- A status word with its CRC-8 (Table 8.5). -/
def trainWord (step : Nat) (rx ec retrain : Bool) (count : Nat) : Nat :=
  let w := step * 2 ^ 28 + b2n rx * 2 ^ 27 + b2n ec * 2 ^ 26 + b2n retrain * 2 ^ 25 + count * 2 ^ 16
  w + statusCrc w
/-- Symbols 0 to 63 of a training frame, which are also a marker (R200, R210). -/
def frameHead (word : Nat) : List Nat := twoLevels (bitsOfNat 32 startWord ++ bitsOfNat 32 word)
/-- Frame `k` of a phase: its head, and PRBS31 from all ones at the phase's start, running on across the frames (R200). -/
def trainingFrame (word k : Nat) : List Nat :=
  frameHead word ++ grayLevels (lfsrRun [31, 28] 32640 (lfsrRun [31, 28] (32640 * k) (2 ^ 31 - 1)).2).1

/-! ## Wakes and tests (R212, R221) -/

/-- The generator of a pair index's preamble (Table 8.9). -/
def wakeTaps (i : Nat) : List Nat := match i % 4 with
  | 0 => [7, 6]
  | 1 => [7, 4]
  | 2 => [7, 3]
  | _ => [7, 1]
/-- One repetition of a pair's wake preamble (R212). -/
def wakePreamble (i : Nat) : List Nat := twoLevels (lfsrRun (wakeTaps i) 127 127).1
/-- `k` symbols of the test patterns PRBS13Q and PRBS31Q (R221; log 149). -/
def prbsLevels (test k : Nat) : List Nat :=
  grayLevels (if test = 1 then lfsrRun [13, 12, 2, 1] (2 * k) (2 ^ 13 - 1) else lfsrRun [31, 28] (2 * k) (2 ^ 31 - 1)).1

/-! ## Codewords (R226 to R228) -/

/-- The generator polynomial of RS(272,257) over GF(2^10) with x^10 + x^3 + 1: roots alpha^0 to alpha^14 (R226). -/
def rs272Generator : List Nat := rsGenerator 10 0x409 ((List.range 15).map (gfPow 10 0x409 2))
/-- The 10-bit symbols of a string of bits, each most significant bit first. -/
def symbols10 : Nat → List Bool → List Nat
  | 0, _ => []
  | k + 1, l => natOfBits (l.take 10) :: symbols10 k (l.drop 10)
/-- The 2,720 bits of the codeword of 2,570 message bits, highest degree first (R226). -/
def rs272Bits (message : List Bool) : List Bool :=
  let m := symbols10 257 message
  (m ++ rsParity 10 0x409 rs272Generator m).flatMap (bitsOfNat 10)
/-- 272 symbols are a codeword. -/
def rs272Ok (word : List Nat) : Bool := (List.range 15).all fun j => decide (polyEval 10 0x409 (gfPow 10 0x409 2 j) word = 0)
/-- The preset of the scrambler at a pair's first codeword after a START marker (R227). -/
def scramblePreset (i : Nat) : Nat := 2 ^ 58 - 16 + i
/-- The scrambler's polynomial: towards the FE, and from the leader of a Geode pair, x^58 + x^39 + 1; otherwise x^58 + x^19 + 1 (R227). -/
def scrambleTaps (first : Bool) : List Nat := [58, if first then 39 else 19]
/-- A codeword's levels on the line, and the scrambler after it (R226, R227, R129). -/
def codewordLevels (first : Bool) (st : Nat) (message : List Bool) : List Nat × Nat :=
  let r := lfsrRun (scrambleTaps first) 2720 st
  (grayLevels (xorBits (rs272Bits message) r.1), r.2)

end Sys2Proof.Machine
end

