-- ==== Sys2Proof/Machine/GarOps.lean ====
section
/-! DEFINITION. The Garnet physical layer and the start and end of the link protocol: pair states, bring-up, training,
sleep, retrain, and what each settles (chapter 08, R240 to R242). -/
namespace Sys2Proof.Machine

/-! ## Conditions -/

/-- The pairs of a link may start: the firmware is ready (R79), VDD_GAR is in range and REFCLK_GAR valid, and GAR_MODE is not
OFF, or for the Geode link a role is held (Table 8.7, R465). -/
def garReady (s : State) (n : Nat) : Bool :=
  s.boot.fwReady && railUp s 7 && s.bed.refOk.getLsbD 1 && (if n = geodeLink then holdsRole s else decide (s.gar.mode ≠ 0))

/-- The state counts for LINK_UP (R205). -/
def PairState.live : PairState → Bool
  | .active => true
  | .sleepEntry => true
  | .sleep => true
  | .refresh => true
  | .waking => true
  | _ => false

/-- The state is one of sleep (R208). -/
def PairState.asleep : PairState → Bool
  | .sleepEntry => true
  | .sleep => true
  | .refresh => true
  | _ => false

/-- The ACTIVE pairs of a link. -/
def activePairs (s : State) (n : Nat) : List Nat := (pairIdx n).filter fun i => decide ((pair s n i).state = .active)
/-- Low-power idle is in effect on a link (R198, R209): never in standard-engine mode and never on the Geode link. -/
def lpiOn (s : State) (n : Nat) : Bool :=
  (link s n).lpi && (link s n).set.lpiEn && !stdMode s n && decide (n ≠ geodeLink)
/-- The effective MIN_ACTIVE (R198). -/
def effMin (s : State) (n : Nat) : Nat := max (link s n).set.minActive (link s n).peerMin
/-- The lowest-numbered pair that is not FAILED, which never sleeps (R208). -/
def lowestPair (s : State) (n : Nat) : Option Nat := (pairIdx n).find? fun i => decide ((pair s n i).state ≠ .failed)
/-- The highest-numbered ACTIVE pair. -/
def highestActive (s : State) (n : Nat) : Option Nat := (activePairs s n).getLast?

/-! ## Health causes [14] and [18] -/

/-- Causes [14] and [18] as the pairs stand (R217, Table 8.7, Table 19.6). -/
def garnetCauses (s : State) : State :=
  let anyPair := fun (p : Pair → Bool) => s.gar.links.any fun l => l.2.pairs.any fun x => p x.2
  let a := anyPair (·.retrained)
  let f := anyPair fun x => decide (x.state = .failed)
  setCauses ((s.health.causes &&& ~~~ 0x440) ||| BitVec.ofNat 12 (64 * b2n a + 1024 * b2n f)) s

/-! ## The link protocol's start and end (R242) -/

/-- A pair still in PAGE that holds a partner page whose PROTO differs from the one accepted stays there: GARNET_PROTO_MISMATCH is posted
once and the page is dropped (R241). -/
def protoSweep (n : Nat) (s : State) : State :=
  forEach (pairIdx n) (fun j s =>
    let p := pair s n j
    if p.state = .page ∧ p.page ≠ [] ∧ slice p.page 16 8 ≠ (link s n).accepted then
      let s := modPair n j (fun p => { p with page := [], ackSent := false, echoed := false, lastBurst := false, wait2a := false, protoBad := true }) s
      if p.protoBad then s else post 0x3005 2 (linkObj n j) 0 s
    else s) s

/-- The protocol of a link starts with pair `i`, whose page's PROTO is the one accepted (R241): SEQ, E, A, every limit and count 0, no tag
in flight. Lookups that an earlier protocol left in flight complete without a response, under keys from 1,024 up. A stall episode goes on
until its pool's LIMIT advances (R246). -/
def protoStart (n i : Nat) (s : State) : State :=
  let s := modLink n (fun l =>
    { l with
      running := true, heard := false, up := false, ending := none, e := 0, nakWait := false, ahead := [], part := [], skip := false
      a := 0, next := 0, replay := [], resend := [], replays := 0, replayAt := none, txPart := [], txPkt := false, txTrace := none, txAccept := none
      limit := [], used := [], credSeen := false, adv := 0, arrived := 0, freed := 0, idleSeq := none
      accepted := slice (mget l.pairs i Pair.init).page 16 8 }) s
  if stdMode s n then s else protoSweep n s

/-- The traces of the packets that the end of the protocol loses: those sent and not wholly acknowledged, the one being sent, and from the
FE the one partly received and those not yet taken (R242; log 150). -/
def lostPackets (l : Link) : List (Option Trace) :=
  l.sent.map (·.trace) ++ (if l.txPkt && !l.txPart.isEmpty then [l.txTrace] else []) ++
    ((if l.part.isEmpty then [] else [l.part]) ++ l.recs).filterMap fun r => if byteAt r 0 = 0x11 then some none else none

/-- A packet whose record was being sent is out of its ingress queue (R262). -/
def txDone (n : Nat) (s : State) : State :=
  match (link s n).txQueue with
  | none => s
  | some q => popHead false q (modLink n (fun l => { l with txQueue := none }) s)

/-- The protocol of a link ends: buffers and partial records are discarded, the packets lost are counted in LINK_DOWN_DROP, the
lookups in flight will have no response, and the link's landing cells are free (R242, R277). A packet picked and not begun waits in its
queue. GARNET_LINK_DOWN, or for the Geode link GEODE_LINK_DOWN, is posted when LINK_UP was set. -/
def protoEnd (n reason : Nat) (s : State) : State :=
  let l := link s n
  if !l.running && !l.up then s
  else
    let was := l.up || l.ending = some true
    let lost := lostPackets l
    let s := linkCount n 14 lost.length s
    let s := lost.foldl (fun s t => traceWrite t 14 s) s
    let s := modLink n (fun l =>
      { l with
        running := false, up := false, ending := none, heard := false, nakWait := false, ahead := [], part := [], skip := false, recs := []
        replay := [], resend := [], replays := 0, replayAt := none, txPart := [], txPkt := false, txTrace := none, txAccept := none, ctl := [], resp := []
        pkt := none, sent := [], propose := none, accepted := [], idleSeq := none
        lookups := l.lookups.map (fun p => (p.1 + 1024, p.2)), inq := l.inq.map (· + 1024) }) (txDone n s)
    if !was then s
    else if n = geodeLink then post 0xB003 1 0 0 s
    else post 0x300A 1 (linkObj n 0) reason s

/-- LINK_UP clears once no pair of the link is ACTIVE, asleep or waking (R205). -/
def linkCheck (n : Nat) (s : State) : State :=
  let l := link s n
  if l.running && l.ending.isNone && !(pairIdx n).any fun i => (pair s n i).state.live then
    modLink n (fun l => { l with ending := some l.up, up := false }) s
  else s

/-! ## Bring-up -/

/-- A 32-bit random number: a free value (log 9). -/
def drawNonce (s : State) : BitVec 32 × State := (BitVec.ofNat 32 (Config.freeNat s.free), s.tick)

/-- The sensor that a link's converters follow: TS(32 + k) of strip k, TS35 for the Geode pairs (Table 8.1, R225). -/
def linkSensor (n : Nat) : Nat := if n = geodeLink then 35 else 32 + n / 16

/-- The temperature that a converter takes when it is powered: its sensor, the hottest valid one, or +40 degC, in the manner of R93. -/
def linkTemp (s : State) (n : Nat) : Int := (sensor s (linkSensor n)).getD ((hottest s).getD 640)

/-- The time that a pair has been asleep is added to SLEEP_TIME when the sleep ends (Table 8.12). -/
def sleepBank (n i : Nat) (s : State) : State :=
  let p := pair s n i
  if p.state = .sleep ∨ p.state = .refresh then pairCount n i 10 ((s.now - p.sleptAt) / 1000) s else s

/-- A pair enters PAGE: step 1 begins with a new NONCE, and GAR_SWING takes effect (Table 8.7, R193, R198). A converter that was off takes
its temperature. -/
def pairPage (n i : Nat) (s : State) : State :=
  let d := drawNonce (sleepBank n i s)
  let t := linkTemp s n
  modLink n (fun l =>
    { l with
      pairs := mmod l.pairs i Pair.init fun p =>
        { p with
          state := .page, nonce := d.1, page := [], ackSent := false, echoed := false, lastBurst := false, wait2a := false, wiring := false
          protoBad := false, count := none, both := 0, resumed := false, refreshDue := false, swingOn := l.set.swing
          trimT := if p.state = .off then t else p.trimT, rxReady := false, ecReady := false } }) d.2

/-- The pairs of a link start where their conditions hold: in PAGE, or in standard-engine mode transmitting and acquiring
(Table 8.7, R224); elsewhere they stay OFF. -/
def linkStart (n : Nat) (s : State) : State :=
  if !garReady s n then s
  else
    forEach (pairIdx n) (fun i s =>
      if (pair s n i).state ≠ .off then s
      else if stdMode s n then
        modPair n i (fun p => { p with state := if i < 2 then .stdTransmit else .stdLost, trimT := linkTemp s n }) s
      else pairPage n i s) s

/-- Ends the commands that wait on a link's pairs as ABORTED (Table 15.13). -/
def abortPairCmds (n : Nat) (s : State) : State :=
  finishAll (cmdsWhere s fun c =>
    (decide (c.opcode = 0x32) || decide (c.opcode = 0x34) || decide (c.opcode = 0x35)) && decide (c.target = n) &&
      decide (c.phase = .executing)) .aborted true s

/-- Every pair of a link enters OFF and the protocol has ended; at the loss of a rail or clock a FAILED pair stays FAILED until the return,
and otherwise its failures are forgotten (Table 8.7, R408). -/
def linkClear (lost : Bool) (n reason : Nat) (s : State) : State :=
  let s := forEach (pairIdx n) (sleepBank n) (protoEnd n reason s)
  let s := modLink n (fun l =>
    { l with
      test := 0, proto := [], lpi := false, peerMin := 1
      pairs := mmap l.pairs fun _ p =>
        { p with
          state := if lost ∧ p.state = .failed then .failed else .off
          fails := if lost ∧ p.state = .failed then p.fails else 0
          page := [], agreed := false, marker := false, detecting := false, wakeDue := false, refreshDue := false
          echo := [], features := [], message := [] } }) s
  garnetCauses s

/-- Every pair of a link enters OFF: its failures are forgotten. -/
def linkOff (n reason : Nat) (s : State) : State := linkClear false n reason s

/-- A rail or clock returns: the FAILED pairs of a link are OFF again, their failures forgotten (Table 8.7). -/
def unfailPairs (n : Nat) (s : State) : State :=
  garnetCauses (modLink n (fun l =>
    { l with pairs := mmap l.pairs fun _ p => if p.state = .failed then { p with state := .off, fails := 0 } else p }) s)

/-- Restarts every pair of a link from OFF (R408). -/
def linkRestart (n reason : Nat) (s : State) : State := linkStart n (linkOff n reason s)

/-! ## What a pair's new state settles for commands -/

/-- t0 of a pair in 1/8 symbol period, fused (R219). -/
def pairT0 (s : State) (n i : Nat) : Nat := mget s.fuse.garT0 (n * 8 + i) 0
/-- A feature's distance in 0.1 mm at a velocity in mm/ns: half the velocity times the lag past t0, lags in 1/8 of a 113.4375 GBd symbol
period, to the nearest; before the ball it is 0 (R219; log 151). -/
def tdrDistance (v lag t0 : Nat) : Nat := (v * (lag - t0) * 4 + 363) / 726
/-- The features that the block reports: those less than 10 mm past one reported join it, and at most eight (R219; log 151). -/
def tdrJoin (v t0 : Nat) : Nat → Option Nat → List (Nat × Int) → List (Nat × Int)
  | _, _, [] => []
  | 0, _, _ => []
  | k + 1, last, f :: r =>
    let d := tdrDistance v f.1 t0
    let near := match last with
      | none => false
      | some x => decide (d < x + 100)
    if near then tdrJoin v t0 (k + 1) last r else f :: tdrJoin v t0 k (some d) r
/-- The GARNET_TDR block (Table 15.12). -/
def tdrBlock (i : Nat) (stale : Bool) (t0 v : Nat) (features : List (Nat × Int)) (echo : List Int) : List Byte :=
  let fs := tdrJoin v t0 8 none features
  leBytes 1 i ++ leBytes 1 (b2n stale) ++ leBytes 1 fs.length ++ [0] ++ leBytes 2 t0 ++ leBytes 2 v ++
    (fs.flatMap fun f => leBytes 4 (tdrDistance v f.1 t0) ++ leBytes 2 (unsigned 16 f.2) ++ leBytes 2 f.1) ++ zeros (64 - 8 * fs.length) ++
    (List.range 2048).flatMap fun k => leBytes 2 (unsigned 16 (max (-32768) (min 32767 (echo.getD k 0))))
/-- The response of a pair's last step 3, marked STALE. -/
def tdrStale (s : State) (n i : Nat) : List Byte :=
  let p := pair s n i
  tdrBlock i true (pairT0 s n i) p.velocity p.features p.echo

/-- A block has been woken for a timed command, which is late where the wake took it more than 1 us past its time (Table 17.4). -/
def wokenFor (id : Nat) (s : State) : State := modCmd id (fun c => { c with late := c.late || beginsLate s c }) s

/-- GARNET_TDR commands that wait for pair `i` complete: with the measured block when it is ACTIVE, otherwise with the response
of its last step 3 marked STALE, or NOT_READY (R411). -/
def tdrSettle (n i : Nat) (s : State) : State :=
  forEach (cmdsWhere s fun c => decide (c.opcode = 0x34) && decide (c.target = n) && decide (c.phase = .executing) && decide (c.aux = [i])) (fun id s =>
    match mfind s.fl.cmds id with
    | none => s
    | some c =>
      let s := wokenFor id s
      if (pair s n i).state = .active then finish id .success 0 0 true (writeBlock c c.data s)
      else if (pair s n i).echo = [] then finish id .notReady 0 0 false s
      else finish id .success 0 0 true (writeBlock c (tdrStale s n i) s)) s

/-- The GARNET_RETRAIN commands that wait for the end of a retrain of pair `i`. -/
def retrainWaiters (s : State) (n i : Nat) : List Nat :=
  cmdsWhere s fun c => decide (c.opcode = 0x32) && decide (c.target = n) && decide (c.phase = .executing) && decide (c.aux = [i, 0])

/-- A retrain of pair `i` begins: the adapted values are held, it stops transmitting, and GAR_SWING takes effect; more than 16 within 60 min
set cause [14] (R193, R216, R217). -/
def pairRetrain (n i cause : Nat) (s : State) : State :=
  let s := modLink n (fun l =>
    { l with
      pairs := mmod l.pairs i Pair.init fun p =>
        { p with
          state := .retrain, phase := .rest, loss := cause, agreed := false, marker := false, wakeDue := false, detecting := false, both := 0
          count := none, swingOn := l.set.swing, message := [] } }) s
  let k := n * 8 + i
  let ts := (mget s.health.garRetr k []).filter fun t => decide (s.now ≤ t + hourNs)
  let s := s.mapHealth fun h => { h with garRetr := mput h.garRetr k (s.now :: ts.take 16) }
  let s := if 16 ≤ ts.length then modPair n i (fun p => { p with retrained := true }) s else s
  linkCheck n (garnetCauses (post 0x3003 1 (linkObj n i) cause s))

/-- A pair starts a wake with its preamble (R212, R214, R215): from SLEEP or during a refresh at once, at the end of a sleep entry
otherwise. -/
def pairWake (n i : Nat) (s : State) : State :=
  let p := pair s n i
  if p.state = .sleepEntry ∨ (p.state = .active ∧ p.agreed = true) then modPair n i (fun p => { p with wakeDue := true }) s
  else if p.state = .sleep ∨ p.state = .refresh then
    let s := pairCount n i 6 1 (sleepBank n i s)
    modPair n i (fun p =>
      { p with
        state := .waking, tries := 0, startRx := false, startTx := false, detecting := false, wakeDue := false, refreshDue := false
        line := wakePreamble i }) s
  else s

/-- The lowest-numbered sleeping pair of a link. -/
def lowestAsleep (s : State) (n : Nat) : Option Nat := (pairIdx n).find? fun i => (pair s n i).state.asleep

/-- Wakes the lowest-numbered sleeping pair, if any. -/
def wakeLowest (n : Nat) (s : State) : State :=
  match lowestAsleep s n with
  | none => s
  | some i => pairWake n i s

/-- GARNET_RETRAIN `id` goes on: the retrain begins unless the pair is the link's only ACTIVE one, which first wakes another or
completes BUSY; a pair asleep is woken first (R217, R409). -/
def retrainGo (id n i : Nat) (s : State) : State :=
  let p := pair s n i
  if p.state = .active then
    if activePairs s n ≠ [i] then modCmd id (fun c => { c with aux := [i, 0] }) (pairRetrain n i 4 s)
    else if (pairIdx n).any fun j =>
        (pair s n j).state.asleep || decide ((pair s n j).state = .waking) || decide ((pair s n j).state = .retrain) then
      modCmd id (fun c => { c with aux := [i, 2] }) (wakeLowest n s)
    else finish id .busy 0 0 false s
  else if p.state = .retrain then modCmd id (fun c => { c with aux := [i, 0] }) s
  else modCmd id (fun c => { c with aux := [i, 1] }) (pairWake n i s)

/-- The GARNET_RETRAIN commands that wait for another pair than `i` to become ACTIVE, and with `own` those that wait for pair `i` itself. -/
def retrainQueue (own : Bool) (n i : Nat) (s : State) : List (Nat × Nat) :=
  s.fl.cmds.filterMap fun e =>
    if e.2.opcode = 0x32 ∧ e.2.target = n ∧ e.2.phase = .executing then
      match e.2.aux with
      | [j, 1] => if own && decide (j = i) then some (e.1, j) else none
      | [j, 2] => if j ≠ i then some (e.1, j) else none
      | _ => none
    else none

/-- The GARNET_RETRAIN commands that wait for pair `i`, or for any other pair, to become ACTIVE go on. -/
def retrainSettle (n i : Nat) (s : State) : State := (retrainQueue true n i s).foldl (fun s x => retrainGo x.1 n x.2 (if x.2 = i then wokenFor x.1 s else s)) s
/-- Pair `i` cannot become ACTIVE now: the GARNET_RETRAIN commands that wait for any pair but their own look for another, or complete BUSY
(R217). -/
def retrainAgain (n i : Nat) (s : State) : State := (retrainQueue false n i s).foldl (fun s x => retrainGo x.1 n x.2 s) s

/-! ## Training (R201 to R203) -/

/-- The end transmits in a phase (Table 8.3). -/
def sendsIn (leader : Bool) : TrainPhase → Bool
  | .p2a => leader
  | .p2b => !leader
  | .p3a => leader
  | .p3b => !leader
  | .p4 => true
  | .rest => false
  | .await => false

/-- The STEP that a phase's frames carry (Table 8.5). -/
def phaseStep : TrainPhase → Nat
  | .p2a => 2
  | .p2b => 2
  | .p3a => 3
  | .p3b => 3
  | .p4 => 4
  | .rest => 3
  | .await => 3

/-- Frames of a phase, and its symbol rate in kBd (Table 8.6). -/
def phaseFrames : TrainPhase → Nat × Nat
  | .p2a => (32768, 53125000)
  | .p2b => (32768, 53125000)
  | .p4 => (524288, 113437500)
  | _ => (262144, 113437500)

/-- The frame of its phase that a pair is sending, from 0 (R200, R201). -/
def frameNow (s : State) (p : Pair) : Nat := (s.now - p.phaseAt) * (phaseFrames p.phase).2 / 16384000000
/-- COUNTDOWN of this end's frames: in step 4 as R202 states, otherwise over the last 255 frames of a phase that it sends (R201). -/
def ownCount (s : State) (p : Pair) : Nat :=
  if p.phase = .p4 then p.count.getD 255
  else
    let left := (phaseFrames p.phase).1 - 1 - frameNow s p
    if sendsIn p.leader p.phase && decide (left < 255) then left else 255
/-- The status word of this end's frames and markers (Table 8.5). -/
def ownStatus (s : State) (p : Pair) : Nat :=
  match p.state with
  | .sleepEntry => trainWord 6 p.rxReady p.ecReady false 255
  | .refresh => trainWord 7 p.rxReady p.ecReady false 255
  | .waking => trainWord 4 p.rxReady p.ecReady false 0
  | _ => trainWord (phaseStep p.phase) p.rxReady p.ecReady (decide (p.state = .retrain)) (ownCount s p)

/-- A pair enters a phase of TRAIN or RETRAIN, with its frames' ready bits; an end that sends in it starts with its first frame. -/
def enterPhase (n i : Nat) (ph : TrainPhase) (rx ec : Bool) (s : State) : State :=
  modPair n i (fun p =>
    let p :=
      { p with
        phase := ph, phaseAt := s.now, froze := s.bed.boActive, allReady := true, both := 0, count := none, rxReady := rx, ecReady := ec
        heardLow := false, heardHigh := false }
    if sendsIn p.leader ph then { p with line := trainingFrame (ownStatus s p) 0 } else p) s

/-- A pair becomes ACTIVE (Table 8.7): its codewords start afresh with the scrambler preset (R227, R228); after a full bring-up
GARNET_PAIR_UP is posted; the protocol starts with the link's first ACTIVE pair (R242); commands that wait go on. -/
def pairActive (n i : Nat) (s : State) : State :=
  let p := pair s n i
  let s := if (link s n).ending.isSome then protoEnd n 0 s else s
  let s := modPair n i (fun q =>
    { q with
      state := .active, fails := 0, retrained := q.retrained && decide (p.state ≠ .train), agreed := false, marker := false, wakeDue := false
      startRx := false, startTx := false, message := [], scramble := scramblePreset i }) s
  let s := if p.state = .train then garnetCauses (post 0x3001 0 (linkObj n i) 0 s) else s
  let s := if p.state = .retrain then pairCount n i 5 1 s else s
  let s := if !(link s n).running && decide ((link s n).set.loopback = 0) && decide ((link s n).test = 0) then protoStart n i s else s
  let s := finishAll (retrainWaiters s n i) .success true s
  tdrSettle n i (retrainSettle n i s)

/-- A phase of TRAIN or RETRAIN fails: QUIET, TRAIN_FAIL counted, and a failure unless a brownout freeze was in force during the
phase (R203, R409). -/
def pairFail (n i : Nat) (s : State) : State :=
  let p := pair s n i
  let s := modPair n i (fun q => { q with state := .quiet, fails := if p.froze then q.fails else q.fails + 1 }) (pairCount n i 4 1 s)
  let s := (retrainWaiters s n i).foldl (fun s id => finish id .hwError 3 0 true s) s
  linkCheck n (retrainAgain n i (tdrSettle n i s))

/-- STEP of a status word. -/
def stepOf (w : Nat) : Nat := w / 2 ^ 28 % 16
/-- COUNTDOWN of a status word. -/
def countOf (w : Nat) : Nat := w / 2 ^ 16 % 256
/-- The status word is used: its CRC-8 is right and its STEP is not reserved (R200). -/
def statusOk (w : Nat) : Bool := decide (w % 256 = statusCrc w) && [2, 3, 4, 6, 7].contains (stepOf w)

/-! ## Placement and adaptation (R189 to R191) -/

/-- The sums of the first elements of a list, from none to all. -/
def prefixSums : Int → List Int → List Int
  | a, [] => [a]
  | a, x :: r => a :: prefixSums (a + x) r
/-- The energy of each window of `k` lags of a response, by its start. -/
def windowEnergy (k : Nat) (h : List Int) : List Int :=
  let p := prefixSums 0 (h.map fun x => x * x)
  (p.drop k).zipWith (· - ·) p
/-- The start with the greatest value among those allowed, the earliest on a tie. -/
def greatest (ok : Nat → Bool) (e : List Int) : Nat :=
  (e.zipIdx.foldl (fun (m : Option (Int × Nat)) x =>
    if !ok x.2 then m
    else match m with
      | none => some x
      | some y => if y.1 < x.1 then some x else m) none).elim 0 (·.2)
/-- The starts of blocks 1 and 2: the window of 32 lags with the greatest echo energy outside block 0, then the greatest that does not
overlap it; block 1 is the earlier (R190; log 152). -/
def echoBlocks (h : List Int) : Nat × Nat :=
  let e := windowEnergy 32 ((h ++ List.replicate 2048 0).take 2048)
  let a := greatest (fun d => decide (32 ≤ d)) e
  let b := greatest (fun d => decide (32 ≤ d) && (decide (d + 32 ≤ a) || decide (a + 32 ≤ d))) e
  (min a b, max a b)
/-- The start of a crosstalk canceller: the window of 24 lags with the greatest energy, from 0 to 232 (R190). -/
def talkStart (h : List Int) : Nat := greatest (fun _ => true) (windowEnergy 24 ((h ++ List.replicate 256 0).take 256))

/-- Pair `i` of link `n` has the lower- and higher-numbered neighbour in its strip or row (R190, R225). -/
def neighbours (n i : Nat) : Bool × Bool :=
  if n = geodeLink then (decide (i % 4 ≠ 0), decide (i % 4 ≠ 3))
  else (decide ((4 * n + i) % 64 ≠ 0), decide ((4 * n + i) % 64 ≠ 63))
/-- A pair drives symbols (Tables 8.3 and 8.7). -/
def Pair.sends (p : Pair) : Bool :=
  match p.state with
  | .page => !p.wait2a
  | .train => sendsIn p.leader p.phase
  | .retrain => sendsIn p.leader p.phase
  | .active => true
  | .sleepEntry => true
  | .refresh => true
  | .waking => true
  | .stdTransmit => true
  | _ => false
/-- The lower- and the higher-numbered neighbour of a pair transmit (R190, R191). -/
def neighbourSends (s : State) (n i : Nat) : Bool × Bool :=
  let nb := neighbours n i
  let at' := fun (k : Nat) => if n = geodeLink then (pair s n k).sends else (pair s (k / 4) (k % 4)).sends
  let p := if n = geodeLink then i else 4 * n + i
  (nb.1 && at' (p - 1), nb.2 && at' (p + 1))

/-- Adaptation of a pair is held: in a brownout freeze, and while it sleeps (R191). -/
def pairHeld (s : State) (p : Pair) : Bool := s.bed.boActive || decide (p.state = .sleepEntry) || decide (p.state = .sleep)
/-- What a pair's receiver has reached in full duplex is taken: the measures, and unless they are held the echo canceller, the FFE and
the DFE, and the crosstalk canceller of a neighbour that transmits (R191, R218). -/
def pairAdapt (n i : Nat) (m : PairMeas) (s : State) : State :=
  let nb := neighbourSends s n i
  modPair n i (fun p =>
    { p with
      snr := m.snr, residual := m.residual, uncovered := m.uncovered, nextLow := m.nextLow, nextHigh := m.nextHigh
      eq :=
        if pairHeld s p then p.eq
        else
          { p.eq with
            ec := m.eq.ec, ffe := m.eq.ffe, dfe := m.eq.dfe
            xtLow := if nb.1 then m.eq.xtLow else p.eq.xtLow, xtHigh := if nb.2 then m.eq.xtHigh else p.eq.xtHigh } }) s
/-- The end of this end's own phase of step 2: the balance network is tuned and HYBRID_DEPTH measured (Table 8.1, Table 8.12). -/
def hybridTake (n i : Nat) (m : PairMeas) (s : State) : State :=
  modPair n i (fun p => { p with depth := m.depth, eq := { p.eq with balance := m.eq.balance } }) s
/-- The end of this end's own phase of step 3: the echo response is held, and blocks 1 and 2 are placed and trained (R190, R191, R219). -/
def echoTake (n i : Nat) (m : PairMeas) (s : State) : State :=
  let v := (link s n).set.velocity
  let b := echoBlocks m.echo
  modPair n i (fun p =>
    { p with
      echo := (m.echo ++ List.replicate 2048 0).take 2048, features := m.features, velocity := v, block1 := b.1, block2 := b.2
      residual := m.residual, uncovered := m.uncovered, eq := if pairHeld s p then p.eq else { p.eq with ec := m.eq.ec } }) s
/-- The end of the partner's phase of step 2 or 3: the CTLE is chosen, and the FFE and DFE have adapted (Table 8.1, Table 8.3). -/
def receiverTake (n i : Nat) (m : PairMeas) (s : State) : State :=
  modPair n i (fun p =>
    { p with
      snr := m.snr, eq := if pairHeld s p then p.eq else { p.eq with ctle := m.eq.ctle, ffe := m.eq.ffe, dfe := m.eq.dfe } }) s
/-- A frame of step 4 has come: a neighbour that transmits now has not been silent throughout it (R190). -/
def hearNeighbours (n i : Nat) (s : State) : State :=
  let nb := neighbourSends s n i
  modPair n i (fun p => { p with heardLow := p.heardLow || nb.1, heardHigh := p.heardHigh || nb.2 }) s
/-- The crosstalk cancellers are placed in step 4; one whose neighbour was silent throughout starts at delay 0 (R190). -/
def talkTake (n i : Nat) (m : PairMeas) (s : State) : State :=
  modPair n i (fun p =>
    { p with
      xtLow := if p.heardLow then talkStart m.talkLow else 0, xtHigh := if p.heardHigh then talkStart m.talkHigh else 0 }) s

/-! ## Frames (R201, R202) -/

/-- The switch to data of R202: the crosstalk cancellers are placed, what has been reached is taken, and the pair is ACTIVE. -/
def duplexEnd (n i : Nat) (m : PairMeas) (s : State) : State := pairActive n i (pairAdapt n i m (talkTake n i m s))

/-- A frame of step 4, with this end's own ready bits: 64 frames in a row with both bits set in both directions start the leader's
countdown, the follower follows it, a bit that clears stops it, and the pair is ACTIVE after COUNTDOWN 0 in both directions (R202). -/
def duplexFrame (n i w : Nat) (rx ec : Bool) (m : PairMeas) (s : State) : State :=
  let s := hearNeighbours n i (modPair n i (fun p => { p with rxReady := rx, ecReady := ec }) s)
  let p := pair s n i
  let ok := w.testBit 27 && w.testBit 26 && rx && ec
  if !ok then modPair n i (fun p => { p with both := 0, count := none }) s
  else
    let k := countOf w
    let both := min 64 (p.both + 1)
    if p.leader then
      let c := match p.count with
        | none => if both = 64 then some 254 else none
        | some c => some (c - 1)
      let s := modPair n i (fun p => { p with both := both, count := c }) s
      if k = 0 ∧ c = some 0 then duplexEnd n i m s else s
    else
      let c := if k = 255 then none else some (k - 1)
      let s := modPair n i (fun p => { p with both := both, count := c }) s
      if k = 0 then duplexEnd n i m s else s

/-- The last frame of a phase has come from the partner: what this end's receiver reached is taken, the phase's condition is judged and
the next phase begins at this end (R201, Table 8.6). The condition of phase 3a is carried in 3b and judged at its end (DEDUCED, log 153). -/
def partnerPhaseEnd (n i w : Nat) (rx ec : Bool) (m : PairMeas) (s : State) : State :=
  let p := pair s n i
  let r := receiverTake n i m s
  match p.phase with
  | .p2a => if p.leader then s else enterPhase n i .p2b rx ec r
  | .p2b => if !p.leader then s else if p.allReady then enterPhase n i .p3a rx ec r else pairFail n i r
  | .p3a => if p.leader then s else enterPhase n i .p3b rx ec r
  | .p3b => if !p.leader then s else if w.testBit 27 && w.testBit 26 then enterPhase n i .p4 rx ec r else pairFail n i r
  | _ => s

/-- A frame in TRAIN or RETRAIN (R200 to R202). The frames of a retrain carry RETRAIN, and no others do. -/
def trainFrame (n i w : Nat) (rx ec : Bool) (m : PairMeas) (s : State) : State :=
  let p := pair s n i
  if stepOf w ≠ phaseStep p.phase ∨ (w.testBit 25) ≠ decide (p.state = .retrain) then s
  else if p.phase = .p4 then duplexFrame n i w rx ec m s
  else if p.phase = .await then enterPhase n i .p3a rx ec s
  else
    let s := if countOf w = 255 then s else modPair n i (fun p => { p with allReady := p.allReady && w.testBit 27 }) s
    if countOf w = 0 then partnerPhaseEnd n i w rx ec m s else s

/-! ## Flits and codewords (R226 to R230) -/

/-- The acknowledgement that this end's headers carry: AN and ACKSEQ (R236, R242). -/
def ownAck (l : Link) : Nat × Nat := if !l.heard then (0, 0x7FF) else (if l.nakWait then 2 else 1, (l.e + 2047) % 2048)

/-- A flit with its header and CRC (Table 9.2). -/
def flitBytes (l : Link) (seq first : Nat) (payload : List Byte) : List Byte :=
  let a := ownAck l
  let b := beBytes 4 (seq * 2 ^ 21 + a.1 * 2 ^ 19 + a.2 * 2 ^ 8 + first) ++ payload
  b ++ beBytes 4 (crc32c b).toNat

/-- Bits are sent on a pair: they fill message bits without gaps, and a codeword whose 2,570 message bits are there goes out (R226 to
R228). -/
def pairSend (n i : Nat) (bits : List Bool) (s : State) : State :=
  modPair n i (fun p =>
    let b := p.message ++ bits
    if b.length < 2570 then { p with message := b }
    else
      let c := codewordLevels (decide (n ≠ geodeLink) || p.leader) p.scramble (b.take 2570)
      { p with message := b.drop 2570, line := c.1, scramble := c.2 }) s

end Sys2Proof.Machine
end

