-- ==== Sys2Proof/Machine/Garnet.lean ====
section
/-! DEFINITION. The commands of the Garnet physical layer: step 1, training, low-power idle, loss and retrain, standard-engine
pairs (chapter 08), and the GARNET commands (R405 to R412). -/
namespace Sys2Proof.Machine

/-! ## Step 1 (R195 to R199) -/

/-- Byte 3 of a pair's own pages: LINK_KIND and PAIR_INDEX (Table 8.4). -/
def kindIndex (n i : Nat) : Nat := (if n = geodeLink then 64 else 0) + i

/-- PROTO as the device sends it (Table 9.8; on the Geode link LOOKUP_TAGS is 0, R468). -/
def ownProto (n : Nat) : List Byte := [1, 0] ++ beBytes 2 (if n = geodeLink then 0 else 0x400) ++ zeros 4

/-- The capability page that a pair sends (Table 8.4, R198). -/
def ownPage (s : State) (n i : Nat) : List Byte :=
  let p := pair s n i
  let set := (link s n).set
  let body :=
    [0x11, 2] ++ beBytes 1 (if n = geodeLink then 0 else n) ++ beBytes 1 (kindIndex n i) ++ beBytes 4 p.nonce.toNat ++
      (if p.page.isEmpty then zeros 4 else slice p.page 4 4) ++
      beBytes 1 (128 * b2n (!p.page.isEmpty) + 64 * b2n (set.lpiEn && decide (n ≠ geodeLink))) ++ beBytes 1 set.minActive ++ zeros 2 ++
      ownProto n ++ zeros 4
  body ++ beBytes 4 (crc32c body).toNat

/-- A page is valid: its CRC, VERSION, and no reserved value (R197, R241). -/
def pageValid (b : List Byte) : Bool :=
  decide (b.length = 32) && decide (wireAt b 28 4 = (crc32c (b.take 28)).toNat) && decide (byteAt b 0 = 0x11) &&
    (decide (byteAt b 1 = 1) || decide (byteAt b 1 = 2)) && decide (byteAt b 3 < 128) && decide (byteAt b 3 / 8 % 8 = 0) &&
    (decide (64 ≤ byteAt b 3) || decide (byteAt b 3 < 4)) && decide (byteAt b 12 % 64 = 0) && decide (1 ≤ byteAt b 13) &&
    decide (byteAt b 13 ≤ 4) && allZero (slice b 14 2) && decide (byteAt b 16 = 1) && decide (byteAt b 17 ≤ 1) && allZero (slice b 20 8)

/-- A follower has finished its own exchange: it stops transmitting and waits for step 2a, once in a step 1 (R198). -/
def followerWait (n i : Nat) (s : State) : State :=
  modPair n i (fun p => { p with wait2a := p.wait2a || (!p.leader && p.echoed && p.ackSent && !p.resumed) }) s

/-- PAGE_BURST_SEND: a burst of 16 page frames (R196, R198). -/
def execPageBurstSend (n i : Nat) (s : State) : Host.Outcome State Fault Refusal :=
  .next (
    let p := pair s n i
    if p.state ≠ .page ∨ p.wait2a ∨ p.lastBurst then s
    else
      let page := ownPage s n i
      followerWait n i (modPair n i (fun p =>
        { p with sentPage := page, line := pageBurst page, ackSent := p.ackSent || !p.page.isEmpty, lastBurst := p.leader && p.echoed }) s))

/-- A valid page that matches the pair is held; the leader is chosen, and equal nonces restart step 1 (R195, R198). -/
def pageHold (n i : Nat) (b : List Byte) (s : State) : State :=
  let p := pair s n i
  let nonce := wireAt b 4 4
  if byteAt b 1 = 2 ∧ nonce = p.nonce.toNat then pairPage n i s
  else
    let leads := decide (byteAt b 1 < 2) || decide (nonce < p.nonce.toNat)
    let echo := bitOf (byteAt b 12) 7 && decide (wireAt b 8 4 = p.nonce.toNat)
    let s := modLink n (fun l =>
      { l with proto := slice b 16 8, lpi := bitOf (byteAt b 12) 6 && l.set.lpiEn, peerMin := byteAt b 13 }) s
    followerWait n i (modPair n i (fun p => { p with page := b, leader := leads, echoed := p.echoed || echo }) s)

/-- PAGE_FRAME_RECEIVE: a page frame found by its start word (R197 to R199, R241). -/
def execPageFrameReceive (n i : Nat) (page : List Byte) (s : State) : Host.Outcome State Fault Refusal :=
  .next (
    let p := pair s n i
    let l := link s n
    if p.state ≠ .page then s
    else if !pageValid page then pairCount n i 3 1 s
    else if byteAt page 3 ≠ kindIndex n i then
      if p.wiring then s
      else post 0x3004 2 (linkObj n i) (kindIndex n i * 256 + byteAt page 3) (modPair n i (fun p => { p with wiring := true }) s)
    else if l.accepted ≠ [] ∧ slice page 16 8 ≠ l.accepted then
      if p.protoBad then s else post 0x3005 2 (linkObj n i) 0 (modPair n i (fun p => { p with protoBad := true }) s)
    else pageHold n i page s)

/-- FOLLOWER_STEP2_TIMEOUT: the follower resumes sending bursts (R198). -/
def execFollowerStep2Timeout (n i : Nat) (s : State) : Host.Outcome State Fault Refusal :=
  .next (
    if (pair s n i).state = .page ∧ (pair s n i).wait2a then modPair n i (fun p => { p with wait2a := false, resumed := true }) s else s)

/-- A pair leaves PAGE for TRAIN at step 2a. -/
def trainStart (n i : Nat) (s : State) : State := enterPhase n i .p2a false false (modPair n i (fun p => { p with state := .train }) s)

/-- TRAINING_STEP2A_START: the leader begins step 2a (R198). -/
def execTrainingStep2aStart (n i : Nat) (s : State) : Host.Outcome State Fault Refusal :=
  .next (
    let p := pair s n i
    if p.state = .page ∧ p.leader ∧ p.lastBurst then trainStart n i s else s)

/-! ## Training frames, sleep and refresh markers (R200 to R203, R210, R211) -/

/-- A pair enters SLEEP; a wake decision made during the entry starts now (Table 8.11). -/
def pairSleep (n i : Nat) (s : State) : State :=
  let due := (pair s n i).wakeDue
  let s := modPair n i (fun p =>
    { p with state := .sleep, sleptAt := s.now, agreed := false, marker := false, wakeDue := false, detecting := false, message := [] }) s
  if due then pairWake n i s else s

/-- TRAINING_FRAME_RECEIVE: a status word, in training, at sleep entry and at the end of a refresh. -/
def execTrainingFrameReceive (n i word : Nat) (rx ec : Bool) (m : PairMeas) (s : State) : Host.Outcome State Fault Refusal :=
  .next (
    let p := pair s n i
    if !statusOk word then s
    else
      match p.state with
      | .page =>
        if stepOf word = 2 ∧ !word.testBit 25 ∧ !p.leader ∧ !p.page.isEmpty ∧ p.ackSent then trainStart n i s else s
      | .train => trainFrame n i word rx ec m s
      | .retrain => trainFrame n i word rx ec m s
      | .active => if stepOf word = 6 ∧ p.agreed then modPair n i (fun p => { p with marker := true }) s else s
      | .sleepEntry => if stepOf word = 6 then pairSleep n i s else s
      | .refresh => if stepOf word = 6 then modPair n i (fun p => { p with state := .sleep }) (pairAdapt n i m s) else s
      | _ => s)

/-- TRAINING_PHASE_END: this end's frames of a phase end: the hybrid is tuned, or the echo response is held and the echo canceller placed;
the follower's condition is judged and the next phase begins (R190, R201, Tables 8.1 and 8.6). -/
def execTrainingPhaseEnd (n i : Nat) (rx ec : Bool) (m : PairMeas) (s : State) : Host.Outcome State Fault Refusal :=
  .next (
    let p := pair s n i
    if p.state ≠ .train ∧ p.state ≠ .retrain then s
    else
      match p.leader, p.phase with
      | true, .p2a => enterPhase n i .p2b rx ec (hybridTake n i m s)
      | true, .p3a => enterPhase n i .p3b rx ec (echoTake n i m s)
      | false, .p2b => if rx then enterPhase n i .p3a rx ec (hybridTake n i m s) else pairFail n i (hybridTake n i m s)
      | false, .p3b => if rx && ec then enterPhase n i .p4 rx ec (echoTake n i m s) else pairFail n i (echoTake n i m s)
      | _, _ => s)

/-- TRAINING_PHASE_FAIL: a condition failed, the step-4 budget ended, or the partner's signal stayed absent (R203). -/
def execTrainingPhaseFail (n i : Nat) (s : State) : Host.Outcome State Fault Refusal :=
  .next (
    let p := pair s n i
    if p.state = .train ∨ (p.state = .retrain ∧ p.phase ≠ .rest) then pairFail n i s else s)

/-- QUIET_END: PAGE again, or FAILED after the third failure in a row (Table 8.7). -/
def execQuietEnd (n i : Nat) (s : State) : Host.Outcome State Fault Refusal :=
  .next (
    let p := pair s n i
    if p.state ≠ .quiet then s
    else if 3 ≤ p.fails then garnetCauses (post 0x3002 2 (linkObj n i) 0 (modPair n i (fun p => { p with state := .failed }) s))
    else pairPage n i s)

/-- RETRAIN_QUIET_END: the leader starts 3a, the follower waits for it (Table 8.7, R216). -/
def execRetrainQuietEnd (n i : Nat) (s : State) : Host.Outcome State Fault Refusal :=
  .next (
    let p := pair s n i
    if p.state = .retrain ∧ p.phase = .rest then enterPhase n i (if p.leader then .p3a else .await) false false s else s)

/-! ## Low-power idle (R208 to R215) -/

/-- The grow condition over 1 us (R208): load above LPI_GROW percent of the ACTIVE pairs at 207.66 Gb/s each, or too few of
them. -/
def growMet (s : State) (n tx rx : Nat) : Bool :=
  let k := (activePairs s n).length
  decide ((link s n).set.grow * (k * 207660) < max tx rx * 100) || decide (k < effMin s n)

/-- LPI_SHRINK_TEST: the device proposes sleep for the highest-numbered ACTIVE pair (R208, R247). -/
def execLpiShrinkTest (n tx rx : Nat) (s : State) : Host.Outcome State Fault Refusal :=
  .next (
    let l := link s n
    let k := (activePairs s n).length
    let quiet := decide (max tx rx * 100 < l.set.shrink * ((k - 1) * 207660 * l.set.window))
    let apart := match l.sleepAt with
      | none => true
      | some t => decide (t + 10000 ≤ s.now)
    match highestActive s n with
    | none => s
    | some i =>
      if lpiOn s n && decide (l.test = 0) && l.propose.isNone && apart && quiet && decide (max 1 (effMin s n) ≤ k - 1) &&
          decide (lowestPair s n ≠ some i) && !(pair s n i).agreed then
        modLink n (fun l => { l with propose := some i, ctl := l.ctl ++ [[0x51, 1, BitVec.ofNat 8 i, 0, 0, 0, 0, 0]] }) s
      else s)

/-- LPI_GROW_TEST: the lowest-numbered sleeping pair wakes (R208). -/
def execLpiGrowTest (n tx rx : Nat) (s : State) : Host.Outcome State Fault Refusal :=
  .next (if growMet s n tx rx then wakeLowest n s else s)

/-- The current codeword is finished at sleep entry: with an IDLE flit while a whole one fits, then with zero bits (R229). -/
def fillCodeword (n i : Nat) (s : State) : State :=
  let room := 2570 - (pair s n i).message.length
  if room = 2570 then s
  else
    let idle := if 2048 ≤ room then bitsOf (flitBytes (link s n) (link s n).next 0xFD (zeros 248)) else []
    pairSend n i (idle ++ List.replicate (room - idle.length) false) s

/-- SLEEP_ENTRY: the agreed flit boundary, where this end finishes its codeword and sends its four sleep markers (R210, R229). -/
def execSleepEntry (n i : Nat) (s : State) : Host.Outcome State Fault Refusal :=
  .next (
    let p := pair s n i
    if p.state ≠ .active ∨ !p.agreed then s
    else
      let s := modLink n (fun l => { l with sleepAt := some s.now }) (fillCodeword n i s)
      let s := modPair n i (fun p =>
        let p := { p with state := .sleepEntry }
        { p with line := (List.replicate 4 (frameHead (ownStatus s p))).flatten }) s
      if p.marker then pairSleep n i s else s)

/-- A refresh begins, at the leader or by its preamble (R211). -/
def refreshStart (n i : Nat) (s : State) : State :=
  pairCount n i 9 1 (modPair n i (fun p => { p with state := .refresh, detecting := false, refreshDue := false, line := wakePreamble i }) s)

/-- REFRESH_DUE: the leader refreshes a sleeping pair; during a brownout freeze the refresh is deferred until the freeze ends (R211). -/
def execRefreshDue (n i : Nat) (s : State) : Host.Outcome State Fault Refusal :=
  .next (
    let p := pair s n i
    if p.state ≠ .sleep ∨ !p.leader then s
    else if s.bed.boActive then modPair n i (fun p => { p with refreshDue := true }) s
    else refreshStart n i s)

/-- PREAMBLE_DETECT: energy starts a confirmation; a confirmed preamble wakes the pair, or starts the leader's refresh (R212,
R213, Table 8.7). -/
def execPreambleDetect (n i : Nat) (confirmed refresh : Bool) (s : State) : Host.Outcome State Fault Refusal :=
  .next (
    let p := pair s n i
    if !confirmed then
      if p.state = .sleep then modPair n i (fun p => { p with detecting := true }) s else s
    else if refresh && !p.leader && decide (p.state = .sleep) then
      refreshStart n i s
    else if p.state.asleep then pairWake n i s else s)

/-- FALSE_WAKE_ABANDON: a detection not confirmed within 80 ns (R213). -/
def execFalseWakeAbandon (n i : Nat) (s : State) : Host.Outcome State Fault Refusal :=
  .next (
    let p := pair s n i
    if p.state = .sleep ∧ p.detecting then pairCount n i 8 1 (modPair n i (fun p => { p with detecting := false }) s) else s)

/-- START_MARKER_RECEIVE: one direction of a wake has passed its START marker (R214). -/
def execStartMarkerReceive (n i : Nat) (own : Bool) (s : State) : Host.Outcome State Fault Refusal :=
  .next (
    if (pair s n i).state ≠ .waking then s
    else
      let s := modPair n i (fun p =>
        { p with
          startTx := p.startTx || own, startRx := p.startRx || !own, line := if own then frameHead (ownStatus s p) else p.line }) s
      if (pair s n i).startTx && (pair s n i).startRx then pairActive n i s else s)

/-- WAKE_TIMEOUT: the wake restarts, and its third failure retrains the pair (Table 8.7). -/
def execWakeTimeout (n i : Nat) (s : State) : Host.Outcome State Fault Refusal :=
  .next (
    let p := pair s n i
    if p.state ≠ .waking then s
    else if p.tries < 2 then modPair n i (fun p => { p with tries := p.tries + 1, startRx := false, startTx := false }) s
    else pairRetrain n i 0 (pairCount n i 7 1 s))

/-! ## Loss (R215 to R217) -/

/-- PAIR_LOSS: an ACTIVE pair is lost by SIGNAL or ALIGNMENT; with no ACTIVE pair left a sleeping one wakes (R216, Table 8.11). -/
def execPairLoss (n i : Nat) (alignment : Bool) (s : State) : Host.Outcome State Fault Refusal :=
  .next (
    if (pair s n i).state ≠ .active then s
    else
      let s := pairRetrain n i (if alignment then 2 else 1) s
      if activePairs s n = [] then wakeLowest n s else s)

/-- SNR_RETRAIN: SNR below 18.5 dB for 10 ms (R217). -/
def execSnrRetrain (n i : Nat) (s : State) : Host.Outcome State Fault Refusal :=
  .next (if (pair s n i).state = .active then pairRetrain n i 3 s else s)

/-! ## Standard-engine pairs (R224, R255) -/

/-- LINK_UP of a standard-engine link: its receive PCS holds alignment, here both receive pairs acquired, and receives no Local
Fault (R255). -/
def stdCheck (n : Nat) (s : State) : State :=
  let l := link s n
  let ok := decide ((pair s n 2).state = .stdAcquired) && decide ((pair s n 3).state = .stdAcquired) && !l.stdFault &&
    decide (l.set.loopback = 0) && decide (l.test = 0)
  if ok then
    let s := if l.ending.isSome then protoEnd n 0 s else s
    if (link s n).running then s
    else post 0x3009 0 (linkObj n 0) 0 (modLink n (fun l => { l with up := true }) (protoStart n 2 s))
  else if l.running && l.ending.isNone then modLink n (fun l => { l with ending := some l.up, up := false }) s
  else s

/-- STD_PAIR_ACQUIRED: signal, CDR lock and codeword alignment (R224). -/
def execStdPairAcquired (n i : Nat) (s : State) : Host.Outcome State Fault Refusal :=
  .next (
    if (pair s n i).state = .stdLost then stdCheck n (modPair n i (fun p => { p with state := .stdAcquired }) s) else s)

/-- STD_PAIR_LOST: amplitude loss for 1 us or loss of alignment (R224). -/
def execStdPairLost (n i : Nat) (s : State) : Host.Outcome State Fault Refusal :=
  .next (
    if (pair s n i).state = .stdAcquired then stdCheck n (modPair n i (fun p => { p with state := .stdLost }) s) else s)

/-- STD_LINK_LOCAL_FAULT: the receive PCS of a link receives Local Fault, or no longer does (R255). -/
def execStdLinkLocalFault (n : Nat) (present : Bool) (s : State) : Host.Outcome State Fault Refusal :=
  .next (if stdMode s n then stdCheck n (modLink n (fun l => { l with stdFault := present }) s) else s)

/-! ## GARNET_SET (R405, R406) -/

/-- TARGET names a Garnet link or the Geode link (R407). -/
def linkTarget (t : Nat) : Bool := decide (t < 64) || decide (t = geodeLink)

/-- Link field group `k` of Table 15.10 is outside its encodings (Tables 8.2, 9.17, 10.7). -/
def linkFieldBad (c : Cmd) (k : Nat) : Bool :=
  match k with
  | 0 => decide (2 < c.byte 36)
  | 1 =>
    decide (1 < c.byte 37) || decide (c.byte 38 < 1) || decide (4 < c.byte 38) || decide (0x64 < c.byte 39) || decide (c.byte 40 < 1) ||
      decide (0x64 < c.byte 40) || decide (c.byte 40 ≤ c.byte 39) || decide (c.byte 41 < 1) || decide (0x64 < c.byte 41) ||
      decide (c.inl 42 2 < 1) || decide (0x3E8 < c.inl 42 2)
  | 2 => decide (c.inl 44 2 < 0x32) || decide (0x12C < c.inl 44 2)
  | 3 => decide (15 < c.byte 46) || !Config.stdPreset (c.byte 46) || decide (3 < c.byte 47)
  | 4 => decide (2 < c.byte 48)
  | 5 => decide (c.byte 49 < 1)
  | _ => decide (c.inl 50 2 < 0x10) || decide (0x800 < c.inl 50 2)

/-- A device-wide field of Table 15.9 is outside its encodings (Tables 8.2, 9.17). -/
def garFieldBad (c : Cmd) (k : Nat) : Bool :=
  match k with
  | 0 => decide (2 < c.byte 36)
  | 1 => false
  | 2 => decide (c.inl 38 2 < 0x600) || [0x0800, 0x86DD, 0x8100, 0x88A8, 0x8808].contains (c.inl 38 2)
  | 3 => bitOf (c.inl 44 6) 40
  | _ => bitOf (c.inl 50 6) 40

/-- GARNET_SET's TARGET and fields are bad (R405). -/
def garnetSetBad (c : Cmd) : Bool :=
  let v := c.inl 32 4
  let linkBad := decide (128 ≤ v) || !c.inlZero 52 12 || (List.range 7).any fun k => sel v k && linkFieldBad c k
  decide (c.indLen ≠ 0) ||
    (if c.target ≤ 64 then linkBad
    else if c.target = geodeLink then linkBad || decide (v % 128 - v % 2 - v / 4 % 2 * 4 - v / 16 % 2 * 16 ≠ 0)
    else if c.target = 0x100 then
      decide (32 ≤ v) || decide (c.byte 37 ≠ 0) || !c.inlZero 56 8 || (List.range 5).any fun k => sel v k && garFieldBad c k
    else true)

/-- The settings of a link after the selected fields of Table 15.10. -/
def linkSettings (c : Cmd) (x : LinkSet) : LinkSet :=
  let v := c.inl 32 4
  { x with
    swing := c.opt v 0 36 1 x.swing
    lpiEn := if sel v 1 then bitOf (c.byte 37) 0 else x.lpiEn
    minActive := c.opt v 1 38 1 x.minActive, shrink := c.opt v 1 39 1 x.shrink, grow := c.opt v 1 40 1 x.grow
    refresh := c.opt v 1 41 1 x.refresh, window := c.opt v 1 42 2 x.window, velocity := c.opt v 2 44 2 x.velocity
    stdPreset := c.opt v 3 46 1 x.stdPreset
    stdTxPre := if sel v 3 then bitOf (c.byte 47) 0 else x.stdTxPre
    stdRxPre := if sel v 3 then bitOf (c.byte 47) 1 else x.stdRxPre
    loopback := c.opt v 4 48 1 x.loopback, creditTimeout := c.opt v 5 49 1 x.creditTimeout, credits := c.opt v 6 50 2 x.credits }

/-- Puts the settings of a link in force; a loopback clears LINK_UP, and its end restarts bring-up (R220). -/
def setLink (c : Cmd) (n : Nat) (s : State) : State :=
  let old := (link s n).set.loopback
  let s := modLink n (fun l => { l with set := linkSettings c l.set }) s
  let new := (link s n).set.loopback
  if old = new then s
  else if new = 0 then linkRestart n 2 s
  else if old = 0 then protoEnd n 2 s
  else s

/-- The sum of LINK_CREDITS over the links after a setting (R277, R406). -/
def creditSum (c : Cmd) (s : State) : Nat :=
  if c.target = 64 then 64 * c.inl 50 2
  else ((List.range 64).map fun n => if n = c.target then c.inl 50 2 else (link s n).set.credits).sum

/-- A change of GAR_MODE takes every Garnet link down and restarts bring-up (R193, R406). -/
def setGarMode (m : Nat) (s : State) : State :=
  if m = s.gar.mode then s
  else
    let s := forEach (List.range 64) (fun n s => linkOff n 2 (abortPairCmds n s)) s
    forEach (List.range 64) linkStart (s.mapGar fun g => { g with mode := m })

/-- GARNET_SET (R405). -/
def execGarnetSet (id : Nat) (s : State) : Host.Outcome State Fault Refusal :=
  .next (runCmd id 0x30
    (fun c _ => firstFail [(garnetSetBad c, .invalidField)])
    (fun c s =>
      let v := c.inl 32 4
      if c.target = 0x100 then
        let s := s.mapGar fun g =>
          { g with
            hashSeed := if sel v 1 then BitVec.ofNat 32 (c.inl 40 4) else g.hashSeed
            etherType := if sel v 2 then BitVec.ofNat 16 (c.inl 38 2) else g.etherType
            feMac := if sel v 3 then BitVec.ofNat 48 (c.inl 44 6) else g.feMac
            devMac := if sel v 4 then BitVec.ofNat 48 (c.inl 50 6) else g.devMac }
        .ok (if sel v 0 then setGarMode (c.byte 36) s else s)
      else if c.target ≠ geodeLink ∧ sel v 6 ∧ s.buf.egrLanding * 1024 < creditSum c s then .fail .noResource s
      else if c.target = 64 then .ok (forEach (List.range 64) (setLink c) s)
      else .ok (setLink c c.target s)) s)

/-! ## GARNET_RESTART and GARNET_RETRAIN (R407 to R409) -/

/-- The Geode link is named and the device holds no role (R407). -/
def geodeOff (c : Cmd) (s : State) : Bool := decide (c.target = geodeLink) && !holdsRole s

/-- GARNET_RESTART (R408). -/
def execGarnetRestart (id : Nat) (s : State) : Host.Outcome State Fault Refusal :=
  .next (runCmd id 0x31
    (fun c s => firstFail [(!linkTarget c.target || !noFields c, .invalidField), (geodeOff c s, .notReady)])
    (fun c s =>
      let n := c.target
      let s := linkOff n 2 (abortPairCmds n s)
      .ok (linkStart n (modLink n (fun l =>
        { l with ctr := [], violations := Ctr.init, pairs := mmap l.pairs fun _ p => { p with ctr := [] } }) s))) s)

/-- PAIR in inline byte 32 is outside the link's pairs, or TARGET names no link (R407, R409). -/
def pairBad (c : Cmd) : Bool := !linkTarget c.target || decide (pairsOf c.target ≤ c.byte 32) || !c.inlZero 33 31

/-- The pair state cannot retrain (R409). -/
def PairState.unready : PairState → Bool
  | .off => true
  | .page => true
  | .train => true
  | .quiet => true
  | .failed => true
  | _ => false

/-- GARNET_RETRAIN (R409). -/
def execGarnetRetrain (id : Nat) (s : State) : Host.Outcome State Fault Refusal :=
  .next (runCmd id 0x32
    (fun c s => firstFail [
      (pairBad c || decide (c.indLen ≠ 0) || stdMode s c.target, .invalidField),
      (geodeOff c s || (pair s c.target (c.byte 32)).state.unready, .notReady),
      (c.flag 2 && (pair s c.target (c.byte 32)).state.asleep, .blockOff)])
    (fun c s => { Ran.ok (retrainGo id c.target (c.byte 32) (awaitEnd id [c.byte 32, 0] s)) with done := false }) s)

/-! ## GARNET_STATUS (R410) -/

/-- STATE of a pair as reported (Table 15.11). -/
def PairState.code : PairState → Nat
  | .off => 0
  | .page => 1
  | .train => 2
  | .quiet => 3
  | .failed => 4
  | .active => 5
  | .sleepEntry => 6
  | .sleep => 7
  | .refresh => 8
  | .waking => 9
  | .retrain => 10
  | .stdTransmit => 11
  | .stdAcquired => 12
  | .stdLost => 13

/-- SLEEP_TIME counts the time in SLEEP and REFRESH up to now (Table 8.12). -/
def pairCounters (s : State) (p : Pair) : Map Ctr :=
  if p.state = .sleep ∨ p.state = .refresh then ctrAdd p.ctr 10 ((s.now - p.sleptAt) / 1000) else p.ctr

/-- The pair block of 128 bytes (Table 15.11). -/
def pairBlock (s : State) (n i : Nat) : List Byte :=
  let p := pair s n i
  let nb := neighbours n i
  let two := fun (x : Int) => leBytes 2 (unsigned 16 x)
  leBytes 1 (p.state.code + 16 * p.loss + 128 * b2n p.leader) ++ zeros 1 ++ two p.snr ++ two p.depth ++ two p.residual ++ two p.uncovered ++
    leBytes 2 p.block1 ++ leBytes 2 p.block2 ++ (if nb.1 then two p.nextLow else [0, 0x80]) ++ (if nb.2 then two p.nextHigh else [0, 0x80]) ++
    zeros 6 ++ ctrBlock (pairCounters s p) 11 ++ zeros 16

/-- What the receivers of a link's ACTIVE pairs have reached is taken, pair by pair (R191, R218). -/
def linkAdapt (n : Nat) : Nat → List PairMeas → State → State
  | _, [], s => s
  | i, m :: r, s => linkAdapt n (i + 1) r (if (pair s n i).state = .active then pairAdapt n i m s else s)

/-- The GARNET_STATUS block (R410). -/
def garnetBlock (s : State) (n : Nat) : List Byte :=
  let l := link s n
  leBytes 1 (b2n l.up + 2 * s.gar.mode + 8 * l.set.loopback + 32 * b2n (lpiOn s n) + 64 * b2n (decide (l.test ≠ 0))) ++
    leBytes 1 (activePairs s n).length ++ leBytes 1 (effMin s n) ++ leBytes 1 (pairsOf n) ++ leBytes 2 l.set.credits ++
    leBytes 1 l.set.creditTimeout ++ zeros 1 ++ (if l.proto.isEmpty then zeros 8 else l.proto) ++ zeros 16 ++
    (pairIdx n).flatMap (pairBlock s n) ++ ctrBlock l.ctr 18

/-- GARNET_STATUS (R410). -/
def execGarnetStatus (id : Nat) (ms : List PairMeas) (s : State) : Host.Outcome State Fault Refusal :=
  .next (runCmd id 0x33
    (fun c _ => firstFail [
      (!linkTarget c.target || counterBlockBad c geodeLink (176 + 128 * pairsOf c.target), .invalidField)])
    (fun c s =>
      let s := linkAdapt c.target 0 ms s
      withBlock c (garnetBlock s c.target) s fun s =>
        if clearWrapOn c then
          modLink c.target (fun l =>
            { l with ctr := ctrClearWrap l.ctr, pairs := mmap l.pairs fun _ p => { p with ctr := ctrClearWrap p.ctr } }) s
        else s) s)

/-! ## GARNET_TDR and GARNET_DIAG (R411, R412) -/

/-- GARNET_TDR (R219, R411). -/
def execGarnetTdr (id : Nat) (m : PairMeas) (s : State) : Host.Outcome State Fault Refusal :=
  .next (runCmd id 0x34
    (fun c s => firstFail [
      (pairBad c || decide (c.indLen < 4168) || stdMode s c.target, .invalidField),
      (geodeOff c s, .notReady),
      (!dmaAllowed s c.indAddr 4168, .permission),
      (c.flag 2 && (pair s c.target (c.byte 32)).state.asleep, .blockOff),
      (many s.fl.cmds fun j d =>
        decide (j ≠ id) && decide (d.opcode = 0x34) && decide (d.target = c.target) && decide (d.phase = .executing), .busy)])
    (fun c s =>
      let n := c.target
      let i := c.byte 32
      let p := pair s n i
      let b := tdrBlock i false (pairT0 s n i) (link s n).set.velocity m.features m.echo
      if p.state = .active then .ok (writeBlock c b s)
      else if p.state.asleep ∨ p.state = .waking then
        let s := modCmd id (fun c => { c with data := b }) (awaitEnd id [i] s)
        { Ran.ok (pairWake n i s) with done := false }
      else if p.echo = [] then .fail .notReady s
      else .ok (writeBlock c (tdrStale s n i) s)) s)

/-- Adds what a pair's PRBS checker has counted; in NEAR_DIGITAL the detector has the pair's own symbols, so no bit is in error (R220, R221;
DEDUCED, log 154). -/
def prbsAdd (n : Nat) (counts : List (Nat × Nat)) (i : Nat) (s : State) : State :=
  let k := (counts[i]?).getD (0, 0)
  let bad := if (link s n).set.loopback = 1 then 0 else k.2
  modPair n i (fun p => { p with prbs := (p.prbs.1.add k.1, p.prbs.2.add bad) }) s

/-- The pairs of a link send a test pattern: each ACTIVE pair, or each transmit pair in standard-engine mode (R412). -/
def prbsStart (n test : Nat) (s : State) : State :=
  modLink n (fun l =>
    { l with
      pairs := mmap l.pairs fun _ p =>
        if p.state = .active ∨ p.state = .stdTransmit then { p with line := prbsLevels test 1360, message := [] } else p }) s

/-- GARNET_DIAG (R221, R412). -/
def execGarnetDiag (id : Nat) (counts : List (Nat × Nat)) (s : State) : Host.Outcome State Fault Refusal :=
  .next (runCmd id 0x35
    (fun c s =>
      let op := c.byte 32
      firstFail [
        (!linkTarget c.target || decide (3 < op) || !c.inlZero 33 30 ||
          (if op = 3 then decide (c.indLen < 128) || clearWrapBad c else decide (c.indLen ≠ 0) || decide (c.byte 63 ≠ 0)), .invalidField),
        (geodeOff c s || (decide (op = 3) && decide ((link s c.target).test = 0)), .notReady)])
    (fun c s =>
      let n := c.target
      let op := c.byte 32
      let near := decide ((link s n).set.loopback = 1)
      if op = 3 then
        let s := forEach (pairIdx n) (prbsAdd n counts) s
        let blk := (List.range 8).flatMap fun i => (pair s n i).prbs.1.bytes ++ (pair s n i).prbs.2.bytes
        withBlock c blk s fun s =>
          if clearWrapOn c then
            modLink n (fun l =>
              { l with pairs := mmap l.pairs fun _ p => { p with prbs := ({ p.prbs.1 with wrap := false }, { p.prbs.2 with wrap := false }) } }) s
          else s
      else if op = 0 then
        if (link s n).test = 0 then .ok s
        else
          let s := modLink n (fun l => { l with test := 0 }) s
          .ok (if near then s else linkRestart n 2 s)
      else
        let s := prbsStart n op (modLink n (fun l => { l with test := op }) s)
        .ok (if near then s else protoEnd n 2 s)) s)

end Sys2Proof.Machine
end

