-- ==== Sys2Proof/Machine/Lanes.lean ====
section
/-! DEFINITION. The meanings of the lane rows: calibration, trims, slice rotation, noise floor, acquisition and loss,
X200 fallback, and the lane commands (chapters 04, 05 and 15). -/
namespace Sys2Proof.Machine

/-! ## Foreground calibration (R78, R95 to R103, R121) -/

/-- The step size of a lane's LMS as the exponent of 2^-v: MU_TRK while it is acquired, 16 x MU_TRK in a warm start, MU_ACQ in an
attempt (R110). -/
def stepSize (l : Lane) : Nat :=
  if laneUp l then l.set.muTrk else if l.state = .warm then l.set.muTrk - 4 else l.set.muAcq

/-- The inner code that a lane's receiver decodes (Table 5.6). -/
def rxCode (s : State) (n : Nat) : InnerCode := innerCode (rxMode (lane s n)) (cage s (n / 8)).c2m

/-- A lane's samples as the FFE takes them: RX_INVERT acts on the converter output ahead of it (R137). -/
def rxSamples (l : Lane) (bs : List (List Int)) : List (List Int) := if l.set.rxInvert then bs.map (·.map (- ·)) else bs

/-- What a lane's receiver has met takes effect: its measures, the CDR's frequency unless a loss has frozen it, and, unless adaptation is
frozen, the VGA code and the coefficients after the LMS of the blocks (R85, R110, R111, R113, Table 5.11). Its detector and decoder give
the bits that the blocks carried (R109, R122). -/
def laneUpdate (n : Nat) (m : LaneMeas) (s : State) : State :=
  let l := lane s n
  let frozen := laneFrozen s l
  let mlse := decide (l.eqOn = 1)
  let bs := rxSamples l m.blocks
  let c := if frozen then l.coef else adapt l.cursorOn mlse (stepSize l) bs l.coef
  let rx := lineReceive (rxCode s n) mlse l.set.rxPrecode c l.rxPre (ffeRun c l.cursorOn [] bs.flatten)
  modLane n (fun l =>
    { l with
      snr := m.snr, vga := if frozen then l.vga else min m.vga 0x48, freqOff := if lossFrozen l then l.freqOff else cdrTrack m.freq
      coef := c, rxInfo := rx.1, rxPre := rx.2 }) s

/-- The equaliser mode that an attempt starting now would take: 1 MLSE, 2 DFE; in AUTO by the mode that the receiver runs (R107). -/
def nextEq (l : Lane) (c2m : Bool) : Nat := if l.set.eqMode ≠ 0 then l.set.eqMode else if rxMode l = 0 ∨ c2m = true then 2 else 1
/-- The detector in force: 0 on a gated lane; from the start of an attempt the one it took, as a change of EQ_MODE waits for the next
(R107, R112); before an attempt the one that the settings give (DEDUCED, log 35). -/
def detector (l : Lane) (c2m : Bool) : Nat :=
  if l.state = .off then 0
  else if l.eqOn = 0 ∨ l.state = .calibrating ∨ l.state = .noSignal ∨ l.state = .expired then nextEq l c2m
  else l.eqOn

/-- The held set of a lane that enters LOS: what its receiver had learned, with the time and T (R120). -/
def heldSet (s : State) (n : Nat) : Held :=
  let l := lane s n
  { since := s.now, ctle := l.ctle, vga := l.vga, coef := l.coef, freq := l.freqOff, temp := laneTemp s n, mode := rxMode l
    eqMode := detector l (cage s (n / 8)).c2m }

/-- LOS is declared with a cause: the held set is stored, LANE_LOS posted, the port goes down, and the lane is in
LOS_HELD; a rotation step before its switch is abandoned (R101, R119, R120, Table 5.4). -/
def losDeclare (n cause : Nat) (s : State) : State :=
  let held := heldSet s n
  let s := modLane n (fun l =>
    { l with state := .losHeld, losCause := cause, held := some held, rot := keptStep l, noisePosted := false, noiseHigh := 0 }) s
  let s := post 0x1002 1 n cause (laneCount n 24 1 s)
  portLaneLost n (squelchSynce n s)

/-- The calibrations that hold one of the 64 slots (R78). -/
def slotsUsed (s : State) : Nat := (s.lanes.tab.filter fun p => p.2.cal.isSome && !p.2.waitSlot).length

/-- The state a lane takes when a calibration ends: LOS_HELD from an acquired lane or from LOS_HELD, NO_SIGNAL
otherwise (R121). -/
def calBack (l : Lane) : LaneState := if laneUp l ∨ l.state = .losHeld then .losHeld else .noSignal

/-- A foreground calibration begins: the switch opens; an acquired lane enters LOS with cause CALIBRATION, with what its receiver had
reached in the held set (R95, R121). -/
def calStart (n : Nat) (m : LaneMeas) (s : State) : State :=
  let l := lane s n
  let back := calBack l
  let s := if l.state = .acquired then laneUpdate n m s else s
  let s := if laneUp l then losDeclare n 3 s else s
  modLane n (fun l =>
    { l with
      waitSlot := false, swOpen := true, state := .calibrating, rot := none
      cal := l.cal.map fun c =>
        { c with attempt := 1, running := true, runs := [], failed1 := [], geode := holdsRole s, back := back
                 spares := ((bankSpares l 0).length, (bankSpares l 1).length) } }) s

/-- CALIBRATION_SLOT_START: the lowest-numbered lane that waits takes a free slot (R78, R402). -/
def execCalibrationSlotStart (m : LaneMeas) (s : State) : Host.Outcome State Fault Refusal :=
  .next (
    match s.lanes.tab.find? fun p => p.2.waitSlot && p.2.cal.isSome with
    | none => s
    | some (n, _) =>
      if slotsUsed s < 64 ∧ s.bed.boActive = false ∧ railUp s 5 = true ∧ railUp s 6 = true then calStart n m s else s)

/-- A calibration has ended: the switch closes, LANE_READY sets, the result is reported, the requesting command
completes, and cage and port go on (R95, R97, R103). -/
def calFinish (n result : Nat) (s : State) : State :=
  let l := lane s n
  let c := l.cal.getD Cal.init
  let s := modLane n (fun l =>
    { l with
      cal := none, swOpen := l.loop, fgResult := result, ready := !l.withdrawn, state := c.back
      rejFlag := decide (result = 2) }) s
  let s := recomputeTrims n (laneTemp s n) s
  let s := if result = 2 then post 0x1003 1 n 0 s else s
  let s := laneCauses s
  let s := match c.cmd with
    | none => s
    | some id => finish id (if result = 2 then .calRejected else .success) 0 0 true s
  laneReadyHook n s

/-- Slices that fail within an attempt: those for which the decision over their own trims rejects (R97). -/
def failedSlices (s : State) (n : Nat) (geode : Bool) (runs : List FgRun) : List Nat :=
  (List.range 68).filter fun i =>
    decide (decideRuns geode (fun r => fgSliceOk s n i r) (fun a b => sliceAgree a b i) runs = .reject)

/-- The set of failing slices allows the exception of R97. -/
def retireAllowed (c : Cal) (failed : List Nat) : Bool :=
  !failed.isEmpty && decide (failed = c.failed1) && decide ((failed.filter fun i => sliceBank i = 0).length ≤ c.spares.1) &&
    decide ((failed.filter fun i => sliceBank i = 1).length ≤ c.spares.2)

/-- FOREGROUND_RUN_END: a run ends and the decision accepts, needs another run, rejects for a retry with the switch closed meanwhile,
retires slices, or rejects the calibration (R95, R97, R99). A run held by a brownout freeze does not end (R63). -/
def execForegroundRunEnd (lane' : Nat) (meas : List Meas) (t0 t1 : Int) (own : Nat) (s : State) :
    Host.Outcome State Fault Refusal :=
  let n := lane'
  .next (
    match (lane s n).cal with
    | none => s
    | some c =>
      if (lane s n).waitSlot || !c.running || s.bed.boActive then s
      else
        let runs := c.runs ++ [{ meas := meas, t0 := t0, t1 := t1 }]
        let s := modLane n (fun l => { l with ownNoise := own }) s
        match decideRuns c.geode (fgRunOk s n) runAgree runs with
        | .more => modLane n (fun l => { l with cal := some { c with runs := runs } }) s
        | .take a b => calFinish n 1 (acceptSlices n (List.range 68) (fun _ => .take a b) s)
        | .reject =>
          let s := laneCount n 0 1 s
          let failed := failedSlices s n c.geode runs
          if c.attempt = 1 then
            modLane n (fun l =>
              { l with cal := some { c with attempt := 2, running := false, runs := [], failed1 := failed }, swOpen := l.loop }) s
          else if retireAllowed c failed then
            let s := forEach failed (markFaulty n) s
            let good := (List.range 68).filter fun i => !failed.contains i
            calFinish n 3 (acceptSlices n good
              (fun i => decideRuns c.geode (fun r => fgSliceOk s n i r) (fun a b => sliceAgree a b i) runs) s)
          else calFinish n 2 s)

/-- CAL_RETRY: 1.5 to 2.0 ms after the first rejection, the calibration runs once more, with the switch OPEN (R95, R97). -/
def execCalRetry (lane' : Nat) (s : State) : Host.Outcome State Fault Refusal :=
  .next (
    match (lane s lane').cal with
    | none => s
    | some c =>
      if c.attempt = 2 ∧ c.running = false ∧ s.bed.boActive = false then
        modLane lane' (fun l => { l with cal := some { c with running := true }, swOpen := true }) s
      else s)

/-! ## Trims (R93) -/

/-- TRIM_UPDATE: the lane reads its sensor and applies every recomputed trim together (R93). -/
def execTrimUpdate (lane' : Nat) (reading : Option Int) (s : State) : Host.Outcome State Fault Refusal :=
  .next (
    if (lane s lane').state = .off then s
    else
      let s := readSensor (lane' / 8) reading s
      recomputeTrims lane' (laneTemp s lane') s)

/-! ## Background rotation (R99 to R103) -/

/-- The bank that takes the next step: the other one, or the one with a spare (R100). -/
def nextBank (l : Lane) : Option Nat :=
  let b := 1 - l.lastBank
  if bankSpares l b ≠ [] then some b else if bankSpares l (1 - b) ≠ [] then some (1 - b) else none

/-- ROTATION_STEP_START: selects the outgoing slice and the incoming spare (R100, R101). -/
def execRotationStepStart (lane' : Nat) (s : State) : Host.Outcome State Fault Refusal :=
  let l := lane s lane'
  .next (
    if l.state ≠ .acquired ∨ laneFrozen s l = true ∨ l.forced = true ∨ l.rot ≠ none then s
    else
      match nextBank l with
      | none => s
      | some b =>
        match longest l (bankInService l b), longest l (bankSpares l b) with
        | some o, some i => modLane lane' (fun l => { l with rot := some { Rot.init with out := o, inc := i } }) s
        | _, _ => s)

/-- A background measurement of slice `i` is plausible; a slice without an accepted calibration has the previous correction zero
(R98; DESIGN CHOICE, log 141). -/
def bgOk (s : State) (n i : Nat) (skewOnly : Bool) (r : BgRun) : Bool :=
  let f := factory s n i (r.t0 + r.t1)
  let d := mget (lane s n).delta i Trim.init
  sensorSteady r.t0 r.t1 &&
    (if skewOnly then valueOk r.skew f.skew d.skew 3 1 2 5 true
     else valueOk r.offset f.offset d.offset 16 4 3 2 true && valueOk r.gain f.gain d.gain 6 2 3 4 true)
/-- Two background measurements agree in the quantities measured (R99). -/
def bgAgree (skewOnly : Bool) (a b : BgRun) : Bool :=
  if skewOnly then (a.skew.sub b.skew).within 3 20
  else (a.offset.sub b.offset).within 1 1 && (a.gain.sub b.gain).within 1 2
/-- The decision of R99 over background measurements: the run to take with the second whose mean is taken, or none on rejection. -/
def bgDecide (geode : Bool) (ok : BgRun → Bool) (ag : BgRun → BgRun → Bool) : List BgRun → Option (BgRun × Option BgRun)
  | [] => none
  | [a] => if !geode && ok a then some (a, none) else none
  | a :: b :: r =>
    if !geode then (if ok a then some (a, none) else none)
    else if ok a && ok b && ag a b then some (a, some b)
    else
      match r with
      | [] => none
      | c :: _ => if ok c && ok a && ag a c then some (a, some c) else if ok c && ok b && ag b c then some (b, some c) else none
/-- The correction that accepted background runs set: with two runs, the mean rounded as q (R99). -/
def bgDelta (s : State) (n i : Nat) (skewOnly : Bool) (a : BgRun) (b : Option BgRun) : Trim :=
  let d := mget (lane s n).delta i Trim.init
  let y := b.getD a
  let f := factory s n i ((a.t0 + a.t1 + y.t0 + y.t1) / 2)
  let mean := fun (x z : Frac) (k : Nat) => if b.isSome then ((x.add z).scale 1 2).quant k else x
  if skewOnly then { d with skew := (mean a.skew y.skew 64).sub f.skew }
  else { d with offset := (mean a.offset y.offset 16).sub f.offset, gain := (mean a.gain y.gain 64).sub f.gain }
/-- A background decision rejects: counted, and the third in a row marks the slice faulty; more than 16 of the lane
within 60 minutes set cause [9] (R102, R103). -/
def bgReject (n i : Nat) (s : State) : State :=
  let s := laneCount n 1 1 s
  let recent := (s.now :: mget s.health.calRej n []).filter fun t => s.now - t ≤ 3600000000000
  let s := s.mapHealth fun h => { h with calRej := mput h.calRej n recent }
  let k := mget (lane s n).bgRej i 0 + 1
  let s := modLane n (fun l => { l with bgRej := mput l.bgRej i k, rejFlag := l.rejFlag || decide (16 < recent.length) }) s
  let s := if 3 ≤ k then markFaulty n i s else s
  laneCauses s
/-- A background decision accepts: the correction is set and the count of rejections in a row restarts (R94, R102). -/
def bgAccept (n i : Nat) (d : Trim) (s : State) : State :=
  recomputeTrims n (laneTemp s n) (modLane n (fun l => { l with delta := mput l.delta i d, bgRej := mdel l.bgRej i }) s)
/-- Decides a background measurement of slice `i`. -/
def bgMeasured (n i : Nat) (skewOnly : Bool) (runs : List BgRun) (s : State) : State :=
  match bgDecide (holdsRole s) (bgOk s n i skewOnly) (bgAgree skewOnly) runs with
  | none => bgReject n i s
  | some (a, b) => bgAccept n i (bgDelta s n i skewOnly a b) s

/-- ROTATION_SHADOW_END: the incoming slice's skew is decided, and the map switches at the next frame boundary; on a
rejection the step continues, unless the incoming slice has become faulty (R100, R102). -/
def execRotationShadowEnd (lane' : Nat) (runs : List BgRun) (s : State) : Host.Outcome State Fault Refusal :=
  .next (
    match (lane s lane').rot with
    | none => s
    | some r =>
      if r.phase ≠ .shadow ∨ laneFrozen s (lane s lane') = true then s
      else
        let s := bgMeasured lane' r.inc true runs (modLane lane' (fun l => { l with lastBank := sliceBank r.inc }) s)
        let l := lane s lane'
        if l.withdrawn then s
        else if l.sliceFault.getLsbD r.inc || !l.sliceMap.getLsbD r.out then modLane lane' (fun l => { l with rot := none }) s
        else modLane lane' (fun l => { switchMap r.out r.inc l with rot := some { r with phase := .standby } }) s)

/-- STANDBY_MEASUREMENT_END: the outgoing slice's offset and gain are decided and the step ends; while rotation pauses it does not end
(R100, R101). -/
def execStandbyMeasurementEnd (lane' : Nat) (runs : List BgRun) (s : State) : Host.Outcome State Fault Refusal :=
  .next (
    match (lane s lane').rot with
    | none => s
    | some r =>
      if r.phase ≠ .standby ∨ (lane s lane').state ≠ .acquired ∨ laneFrozen s (lane s lane') = true then s
      else bgMeasured lane' r.out false runs (modLane lane' (fun l => { l with rot := none }) s))

/-! ## Noise floor (R105, R106) -/

/-- The integer square root, by bits from the 32nd down. -/
def isqrt (x : Nat) : Nat :=
  (List.range 33).reverse.foldl (fun r b => if (r + 2 ^ b) * (r + 2 ^ b) ≤ x then r + 2 ^ b else r) 0
/-- NOISE_RMS in whole uV, to the nearest, from P_tot and P_own in 10^-6 LSB: one LSB is 785 uV (R105). -/
def noiseRms (ptot own : Nat) : Nat := (isqrt (4 * 785 * 785 * (ptot * ptot - own * own) / 1000000000000) + 1) / 2

/-- NOISE_MEASUREMENT: in NO_SIGNAL and LOS_HELD with the switch CLOSED, NOISE_RMS is measured; the third in a row above
the threshold posts NOISE_FLOOR_HIGH once per episode (R105, R106). -/
def execNoiseMeasurement (lane' : Nat) (ptot : Nat) (s : State) : Host.Outcome State Fault Refusal :=
  let l := lane s lane'
  .next (
    if noiseRuns l = false then s
    else
      let rms := noiseRms ptot l.ownNoise
      let high := if l.set.noiseThresh ≠ 0 ∧ l.set.noiseThresh < rms then l.noiseHigh + 1 else 0
      let fire := decide (3 ≤ high) && !l.noisePosted
      let s := modLane lane' (fun l =>
        { l with noise := rms, noiseAt := s.now, belowOwn := decide (ptot < l.ownNoise), noiseHigh := high, noisePosted := l.noisePosted || fire }) s
      if fire then post 0x1007 1 lane' rms s else s)

/-! ## Acquisition and loss (Table 5.4) -/

/-- A lane attempts acquisition: LANE_READY, a port, and an input path (the switch CLOSED, or the NEAR_SERIAL loop). -/
def mayAttempt (s : State) (l : Lane) : Bool :=
  l.ready && l.port.isSome && (!l.swOpen || l.loop) && railUp s 5 && railUp s 6

/-- The warm conditions of R120. -/
def warmOk (s : State) (n : Nat) : Bool :=
  let l := lane s n
  match l.held with
  | none => false
  | some h =>
    decide (s.now - h.since ≤ 60000000000) && decide ((laneTemp s n - h.temp).natAbs < 80) && decide (h.mode = rxMode l) &&
      decide (h.eqMode = nextEq l (cage s (n / 8)).c2m)

/-- The amplitude detector asserts signal present: the RMS input in uV exceeds SD_THRESH (R114). -/
def amplitudePresent (l : Lane) (rms : Nat) : Bool := decide (l.set.sdThresh * 1000 < rms)
/-- The amplitude detector finds loss: the RMS input falls below SD_THRESH/2 (R114). -/
def amplitudeLost (l : Lane) (rms : Nat) : Bool := decide (2 * rms < l.set.sdThresh * 1000)

/-- CTLE_SEARCH begins: no held set, and the FFE at the main cursor alone (Table 5.4). -/
def searchFrom (l : Lane) : Lane := { l with state := .ctleSearch, held := none, warmFreq := false, coef := Coef.init }
/-- WARM begins from the held set (Table 5.4, R120). -/
def warmFrom (h : Held) (l : Lane) : Lane :=
  { l with state := .warm, warmFreq := false, ctle := h.ctle, vga := h.vga, coef := h.coef, freqOff := h.freq }

/-- SIGNAL_PRESENT: a cold or warm acquisition starts, and the X200 window with it (R114, R116, R120, R132). -/
def execSignalPresent (lane' rms : Nat) (s : State) : Host.Outcome State Fault Refusal :=
  let l := lane s lane'
  .next (
    if mayAttempt s l = false ∨ (l.state ≠ .noSignal ∧ l.state ≠ .losHeld) ∨ amplitudePresent l rms = false then s
    else
      let start := match l.held with
        | none => searchFrom
        | some h => if l.state = LaneState.losHeld ∧ warmOk s lane' = true then warmFrom h else searchFrom
      modLane lane' (fun l =>
        { start l with
          presentAt := s.now, eqOn := nextEq l (cage s (lane' / 8)).c2m, cursorOn := l.set.ffeCursor
          xwin := if l.opMode = 2 then some (l.xwin.getD s.now) else none }) s)

/-- The place of the largest of a list of numbers, the first on a tie (log 143). -/
def argMax : List Nat → Nat
  | [] => 0
  | x :: r => if r.all fun y => decide (y ≤ x) then 0 else argMax r + 1

/-- CTLE_SEARCH_DONE: in AUTO mode the code with the largest vertical eye opening of 0x00-0x20 is kept; in FIXED mode the set code
stands (R84, Table 5.4). -/
def execCtleSearchDone (lane' : Nat) (eyes : List Nat) (s : State) : Host.Outcome State Fault Refusal :=
  let l := lane s lane'
  .next (
    if l.state ≠ .ctleSearch ∨ s.bed.boActive = true ∨ (l.set.ctleMode = 0 ∧ eyes.length ≠ 33) then s
    else modLane lane' (fun l => { l with state := .freq, ctle := if l.set.ctleMode = 0 then argMax eyes else l.set.ctleCode }) s)

/-- FREQ_LOCK: the CDR is within 5 ppm of an incoming rate that it can track; phase tracking starts, and the detector coefficients start
at alpha 0.5 (R113, Table 5.4). It goes on in a brownout freeze (R118). -/
def execFreqLock (lane' : Nat) (freq : Int) (s : State) : Host.Outcome State Fault Refusal :=
  .next (
    if (lane s lane').state = .freq ∧ cdrInRange freq = true then
      modLane lane' (fun l => { l with state := .converge, freqOff := freq, coef := l.coef.converge }) s
    else s)

/-- The mean square error of 8 consecutive blocks of 2^16 symbols is stable within 0.5 dB (Table 5.4). -/
def mseStable (mse : List Int) : Bool := decide (mse.length = 8) && mse.all fun a => mse.all fun b => decide (a - b ≤ 50)

/-- CONVERGE_DONE: the attempt moves to QUALIFY, with the coefficients that it reached (Table 5.4). -/
def execConvergeDone (lane' : Nat) (m : LaneMeas) (mse : List Int) (s : State) : Host.Outcome State Fault Refusal :=
  .next (
    if (lane s lane').state ≠ .converge ∨ s.bed.boActive = true ∨ mseStable mse = false then s
    else modLane lane' (fun l => { l with state := .qualify }) (laneUpdate lane' m s))

/-- The lane becomes ACQUIRED: its latency is fixed, LANE_ACQUIRED posted, and its port may align (R115, R116, R134,
R174). -/
def laneAcquired (n : Nat) (warm : Bool) (m : LaneMeas) (latency : Nat) (s : State) : State :=
  let us := (s.now - (lane s n).presentAt) / 1000
  let s := laneUpdate n m s
  let s := modLane n (fun l =>
    { l with state := .acquired, warmLast := warm, acqUs := us, latency := latency, xwin := none, held := none, noisePosted := false, noiseHigh := 0 }) s
  let s := post 0x1001 0 n (b2n warm + 2 * (us % 2 ^ 31)) s
  match (lane s n).port with
  | none => s
  | some p => portTryAlign p s

/-- The SNR of Table 5.11 is at least 10.0 dB (R115). -/
def snrOk (m : LaneMeas) : Bool := decide (100 ≤ m.snr.toInt)

/-- An attempt qualifies: two consecutive markers at their spacing, the inner-code alignment at them where there is an inner code, at
most 1 of the 1,024 codewords after them uncorrectable, and the SNR (R115). -/
def qualified (s : State) (n : Nat) (m : LaneMeas) (q : Qual) : Bool :=
  decide (2 ≤ q.markers) && (decide (rxCode s n = .none) || q.inner) && decide (q.bad ≤ 1) && snrOk m

/-- QUALIFY_PASS (R115, R116). -/
def execQualifyPass (lane' : Nat) (m : LaneMeas) (q : Qual) (latency : Nat) (s : State) : Host.Outcome State Fault Refusal :=
  .next (
    if (lane s lane').state ≠ .qualify ∨ s.bed.boActive = true ∨ qualified s lane' m q = false then s
    else laneAcquired lane' false m latency s)

/-- The attempt expires: counted, with the FFE and detector coefficients reset (Table 5.4). -/
def expire (n : Nat) (s : State) : State :=
  modLane n (fun l => { l with state := .expired, coef := Coef.init, ctr := ctrAdd l.ctr 21 1 }) s

/-- QUALIFY_WINDOW_END: t_qual ended without qualification (Table 5.4). -/
def execQualifyWindowEnd (lane' : Nat) (s : State) : Host.Outcome State Fault Refusal :=
  .next (if (lane s lane').state = .qualify ∧ s.bed.boActive = false then expire lane' s else s)

/-- PHASE_BUDGET_EXPIRY: a phase exceeds its budget, or the signal has been below SD_THRESH/2 for 1 us (Table 5.4). The absence ends the
X200 window in every state that is not ACQUIRED (R132). A paused attempt, in a brownout freeze, stays where it is (R118; log 143). -/
def execPhaseBudgetExpiry (lane' rms : Nat) (s : State) : Host.Outcome State Fault Refusal :=
  let l := lane s lane'
  .next (
    let s := if amplitudeLost l rms = true ∧ l.state ≠ .acquired then modLane lane' (fun l => { l with xwin := none }) s else s
    if l.state = .freq ∨ ((l.state = .ctleSearch ∨ l.state = .converge) ∧ s.bed.boActive = false) then expire lane' s else s)

/-- ACQ_GAP_END: after t_gap the lane returns to NO_SIGNAL (Table 5.4). -/
def execAcqGapEnd (lane' : Nat) (s : State) : Host.Outcome State Fault Refusal :=
  .next (if (lane s lane').state = .expired then modLane lane' (fun l => { l with state := .noSignal }) s else s)

/-- AMPLITUDE_LOSS: the RMS input over 32 ns is below SD_THRESH/2; an acquired lane freezes with what it had reached and waits in
LOS_PENDING; a rotation step that has not switched is abandoned; a SyncE output it feeds is squelched (R85, R101, R114, R116, R458). -/
def execAmplitudeLoss (lane' rms : Nat) (m : LaneMeas) (s : State) : Host.Outcome State Fault Refusal :=
  .next (
    if (lane s lane').state ≠ .acquired ∨ amplitudeLost (lane s lane') rms = false then s
    else
      squelchSynce lane' (modLane lane' (fun l => { l with state := .losPending, rot := keptStep l }) (laneUpdate lane' m s)))

/-- AMPLITUDE_RETURN: the RMS input is back above SD_THRESH with no uncorrectable codeword in the last 64: the lane returns to ACQUIRED
and counts SIGNAL_GLITCH (R114, Table 5.4). -/
def execAmplitudeReturn (lane' rms bad : Nat) (s : State) : Host.Outcome State Fault Refusal :=
  .next (
    if (lane s lane').state ≠ .losPending ∨ amplitudePresent (lane s lane') rms = false ∨ bad ≠ 0 then s
    else
      let s := laneCount lane' 23 1 (modLane lane' (fun l => { l with state := .acquired }) s)
      match (lane s lane').port with
      | none => s
      | some p => portTryAlign p s)

/-- LOS_PENDING_TIMEOUT: LOS with cause AMPLITUDE (Table 5.4). -/
def execLosPendingTimeout (lane' : Nat) (s : State) : Host.Outcome State Fault Refusal :=
  .next (if (lane s lane').state = .losPending then losDeclare lane' 1 s else s)

/-- ALIGNMENT_LOSS: eight consecutive uncorrectable codewords or two consecutive missing markers: LOS with cause ALIGNMENT
(Table 5.4). -/
def execAlignmentLoss (lane' bad missing : Nat) (m : LaneMeas) (s : State) : Host.Outcome State Fault Refusal :=
  .next (if (lane s lane').state = .acquired ∧ (8 ≤ bad ∨ 2 ≤ missing) then losDeclare lane' 2 (laneUpdate lane' m s) else s)

/-- LOS_HELD_TIMEOUT: 60 s since LOS, the held set is cleared (Table 5.4). -/
def execLosHeldTimeout (lane' : Nat) (s : State) : Host.Outcome State Fault Refusal :=
  .next (if (lane s lane').state = .losHeld then modLane lane' (fun l => { l with state := .noSignal, held := none }) s else s)

/-- WARM_FREQ_CHECK: the CDR of a warm start is within 5 ppm of an incoming rate that it can track, and the FFE is refined from then on
(R113, Table 5.4). -/
def execWarmFreqCheck (lane' : Nat) (freq : Int) (s : State) : Host.Outcome State Fault Refusal :=
  .next (
    if (lane s lane').state = .warm ∧ s.bed.boActive = false ∧ cdrInRange freq = true then
      modLane lane' (fun l => { l with warmFreq := true, freqOff := freq }) s
    else s)

/-- WARM_QUALIFY: a warm start that passed its frequency check and refined its FFE meets R115 (Table 5.4). -/
def execWarmQualify (lane' : Nat) (m : LaneMeas) (q : Qual) (latency : Nat) (s : State) : Host.Outcome State Fault Refusal :=
  let l := lane s lane'
  .next (
    if l.state ≠ .warm ∨ l.warmFreq = false ∨ s.bed.boActive = true ∨ qualified s lane' m q = false then s
    else laneAcquired lane' true m latency s)

/-- WARM_FAILED: the held set is cleared, WARM_FAILED counted, and the lane starts cold (Table 5.4). -/
def execWarmFailed (lane' : Nat) (s : State) : Host.Outcome State Fault Refusal :=
  .next (
    if (lane s lane').state ≠ .warm ∨ s.bed.boActive = true then s
    else laneCount lane' 22 1 (modLane lane' (fun l => { searchFrom l with presentAt := s.now }) s))

/-- X200_FALLBACK: a lane of an X200 port has not reached ACQUIRED within t_acq of signal present, so every lane of the
port runs S200 and restarts cold (R132). The secondary follows R133 instead. A brownout freeze extends t_acq (R118). -/
def execX200Fallback (lane' : Nat) (s : State) : Host.Outcome State Fault Refusal :=
  let l := lane s lane'
  .next (
    match l.port with
    | none => s
    | some p =>
      if l.opMode ≠ 2 ∨ l.xwin = none ∨ l.state = .acquired ∨ isSecondary s = true ∨ s.bed.boActive = true then s
      else
        let s := forEach (portLanes s p) (fun n s => laneCold n (modLane n (laneMode 1) s)) s
        post 0x1008 1 p lane' (modPort p (fun q => { q with fallback := true }) s))

/-- X200_RX_ALTERNATE: on the secondary, a receiver not acquired within t_acq changes between X200 and S200 attempts,
and posts X200_FALLBACK at its first switch (R118, R133). -/
def execX200RxAlternate (lane' : Nat) (s : State) : Host.Outcome State Fault Refusal :=
  let l := lane s lane'
  .next (
    match l.port with
    | none => s
    | some p =>
      if l.opMode ≠ 2 ∨ l.xwin = none ∨ l.state = .acquired ∨ isSecondary s = false ∨ s.bed.boActive = true then s
      else
        let first := !l.altPosted
        let s := laneCold lane' (modLane lane' (fun l => { l with rxAlt := !l.rxAlt, altPosted := true }) s)
        if first then post 0x1008 1 p lane' s else s)

/-- What a device that takes the primary role does with receivers that alternate: a port with one that runs S200 runs S200 as in R132, and
its lanes that do not run it yet restart cold (DESIGN CHOICE, log 144). -/
def endAlternate (p : Nat) (s : State) : State :=
  let ls := portLanes s p
  if ls.any (fun n => (lane s n).rxAlt) then
    let s := forEach ls (fun n s =>
      if (lane s n).rxAlt then modLane n (laneMode 1) s else laneCold n (modLane n (laneMode 1) s)) s
    modPort p (fun q => { q with fallback := true }) s
  else s

/-! ## LANE_SET (R398, R399) -/

/-- A CUSTOM tap set is accepted (R138): TX_TAP0 is the fourth of the seven. -/
def tapsOk (l : List Byte) : Bool :=
  let t := tapInts l
  let c0 := (t[3]?).getD 0
  decide (32 ≤ c0) && decide (c0 ≤ 64) && (t.eraseIdx 3).all (fun c => decide (c.natAbs ≤ 32)) &&
    decide ((t.map Int.natAbs).foldl (· + ·) 0 ≤ 64)
/-- No tap byte holds a reserved value (Table 6.1). -/
def tapsCoded (l : List Byte) : Bool := l.all fun b => decide (b.toNat ≤ 0x40) || decide (0xC0 ≤ b.toNat)

/-- The checks of LANE_SET (R398, Tables 4.3, 5.3, 6.1); the C2M presets of a lane of no port are those of S100 (log 163). -/
def laneSetCheck (c : Cmd) (s : State) : Option Status :=
  let v := c.inl 32 4
  let n := c.target
  let l := lane s n
  let c2m := (cage s (n / 8)).c2m
  let b := fun i => byteAt c.entry i
  let taps := slice c.entry 48 7
  let bad := fun (i : Nat) (p : Bool) => (sel v i && p, Status.invalidField)
  firstFail [
    (decide (255 < n) || decide (c.indLen ≠ 0) || decide (2 ^ 14 ≤ v) || !c.inlZero 57 1 || !c.inlZero 62 2, .invalidField),
    bad 0 (decide (1 < b 36) || decide (0x20 < b 37)),
    bad 1 (decide (2 < b 38) || (decide (b 38 = 2) && l.port.isSome && decide (l.cfgMode = 2))),
    bad 2 (decide (b 39 < 3) || decide (0x14 < b 39)),
    bad 3 (decide (b 40 < 6) || decide (0x14 < b 40) || decide (b 41 < 6) || decide (0x14 < b 41)),
    bad 4 (decide (2 < b 42)),
    bad 5 (decide (b 43 < 4) || decide (0x3F < b 43)),
    bad 6 (decide (1 < b 44)),
    bad 7 (decide (0x5A < b 45)),
    bad 8 (decide (2 < b 46) || decide (0xF < b 47) || !tapsCoded taps || (decide (b 46 = 0) && !tapsOk taps) ||
      (decide (b 46 = 2) && (!c2m || decide (b 47 = 0) || !Config.c2mPreset l.cfgMode (b 47)))),
    bad 9 (decide (3 < b 55)),
    bad 10 (decide (b 56 % 4 ≠ 0) && !c2m),
    bad 11 (decide (16 ≤ b 56)),
    bad 12 (decide (c.inl 58 2 = 0) || decide (0x3E8 < c.inl 58 2))]

/-- The settings after a LANE_SET: each selected field applied. -/
def laneSetApply (c : Cmd) (t : LaneSet) : LaneSet :=
  let v := c.inl 32 4
  let b := fun i => byteAt c.entry i
  let pick := fun {α : Type} (i : Nat) (new old : α) => if sel v i then new else old
  { ctleMode := pick 0 (b 36) t.ctleMode, ctleCode := pick 0 (b 37) t.ctleCode, eqMode := pick 1 (b 38) t.eqMode
    ffeCursor := pick 2 (b 39) t.ffeCursor, muAcq := pick 3 (b 40) t.muAcq, muTrk := pick 3 (b 41) t.muTrk
    cdrBw := pick 4 (b 42) t.cdrBw, sdThresh := pick 5 (b 43) t.sdThresh, adaptHold := pick 6 (decide (b 44 = 1)) t.adaptHold
    txAmpl := pick 7 (b 45) t.txAmpl, firSrc := pick 8 (b 46) t.firSrc, txPreset := pick 8 (b 47) t.txPreset
    taps := pick 8 (slice c.entry 48 7) t.taps, txMask := pick 9 (b 55) t.txMask
    txPrecode := pick 10 (bitOf (b 56) 0) t.txPrecode, rxPrecode := pick 10 (bitOf (b 56) 1) t.rxPrecode
    txInvert := pick 11 (bitOf (b 56) 2) t.txInvert, rxInvert := pick 11 (bitOf (b 56) 3) t.rxInvert
    rampTime := pick 12 (c.inl 58 2) t.rampTime, noiseThresh := pick 13 (c.inl 60 2) t.noiseThresh }

/-- LANE_SET: the settings are stored; in FIXED mode CTLE_CODE takes effect at once, and a change of TX_AMPL of a
transmitting lane moves the swing in steps, a second change from the setting before it (R84, R148, R399; log 163). ADAPT_HOLD holds what the lane has reached by then (R112). It never wakes
a lane. -/
def execLaneSet (id : Nat) (m : LaneMeas) (s : State) : Host.Outcome State Fault Refusal :=
  .next (runCmd id 0x18 laneSetCheck
    (fun c s => .ok (modLane c.target (fun l =>
      let t := laneSetApply c l.set
      { l with
        set := t
        ctle := if t.ctleMode = 1 ∧ l.state ≠ .off then t.ctleCode else l.ctle
        amplOld := if t.txAmpl ≠ l.set.txAmpl then l.set.txAmpl else l.amplOld
        amplStep := if t.txAmpl ≠ l.set.txAmpl ∧ l.tx = .transmitting then 0 else l.amplStep })
      (if sel (c.inl 32 4) 6 ∧ (lane s c.target).state = .acquired then laneUpdate c.target m s else s))) s)

/-! ## LANE_STATUS (R400) -/

/-- STATE as LANE_STATUS encodes it (Table 15.7). -/
def LaneState.code : LaneState → Nat
  | .off => 0
  | .calibrating => 1
  | .noSignal => 2
  | .ctleSearch => 3
  | .freq => 4
  | .converge => 5
  | .qualify => 6
  | .expired => 7
  | .acquired => 8
  | .losPending => 9
  | .los => 10
  | .losHeld => 11
  | .warm => 12

/-- The settings as LANE_SET bytes 36-63 lay them out. -/
def LaneSet.bytes (t : LaneSet) : List Byte :=
  ([t.ctleMode, t.ctleCode, t.eqMode, t.ffeCursor, t.muAcq, t.muTrk, t.cdrBw, t.sdThresh, b2n t.adaptHold, t.txAmpl, t.firSrc,
    t.txPreset].map (BitVec.ofNat 8)) ++ t.taps ++
  ([t.txMask, b2n t.txPrecode + 2 * b2n t.rxPrecode + 4 * b2n t.txInvert + 8 * b2n t.rxInvert, 0].map (BitVec.ofNat 8)) ++
  leBytes 2 t.rampTime ++ leBytes 2 t.noiseThresh ++ zeros 2

/-- The block of Table 15.7. While a secondary's receiver alone runs S200 it reports the operating mode X200, and FALLBACK clear (DESIGN
CHOICE, log 144). -/
def laneBlock (s : State) (n : Nat) : List Byte :=
  let l := lane s n
  let c2m := (cage s (n / 8)).c2m
  let one := fun k => leBytes 1 k
  let ff := l.coef.bytes (if l.cursorOn = 0 then l.set.ffeCursor else l.cursorOn)
  one (l.state.code + 16 * l.losCause) ++
  one (b2n l.ready + 2 * b2n (decide (l.cfgMode ≠ l.opMode)) + 4 * b2n l.warmLast + 8 * b2n l.belowOwn + 16 * b2n l.forced +
    32 * b2n (laneFrozen s l)) ++
  one (l.cfgMode + 4 * l.opMode + 16 * b2n c2m) ++ one (detector l c2m) ++ leBytes 2 l.snr.toNat ++ one (vgaOn l) ++ one l.fgResult ++
  leBytes 4 (unsigned 32 l.freqOff) ++ leBytes 4 l.acqUs ++ ff ++
  one ((bankSpares l 0).length + 16 * (bankSpares l 1).length) ++ one (ctleOn l) ++
  leBytes 9 l.sliceMap.toNat ++ leBytes 9 l.sliceFault.toNat ++ leBytes 2 (sat 16 l.noise) ++
  leBytes 4 (sat 32 ((s.now - l.noiseAt) / 1000000)) ++ leBytes 4 l.latency ++ leBytes 2 (unsigned 16 l.trimT) ++ zeros 2 ++
  l.set.bytes ++ zeros 4 ++ ctrBlock l.ctr 25

/-- A lane whose measures move until they are read: it runs an attempt past its frequency lock, or is acquired; a freeze holds only what
it holds (R111, R113, R135). -/
def laneMoves (l : Lane) : Bool :=
  decide (l.state = .acquired) || decide (l.state = .converge) || decide (l.state = .qualify) || decide (l.state = .warm)

/-- LANE_STATUS: writes the block with the measures of the moment (Table 5.11). -/
def execLaneStatus (id : Nat) (m : LaneMeas) (s : State) : Host.Outcome State Fault Refusal :=
  .next (runCmd id 0x19
    (fun c _ => firstFail [(decide (255 < c.target) || decide (c.indLen < 368) || !c.inlZero 32 31 || clearWrapBad c, .invalidField)])
    (fun c s =>
      if !dmaAllowed s c.indAddr 368 then .fail .permission s
      else
        let s := if laneMoves (lane s c.target) then laneUpdate c.target m s else s
        let s := writeBlock c (laneBlock s c.target) s
        .ok (if bitOf (byteAt c.entry 63) 0 then modLane c.target (fun l => { l with ctr := ctrClearWrap l.ctr }) s else s)) s)

/-! ## LANE_CALIBRATE, LANE_MUTE, LANE_DIAG (R401 to R404) -/

/-- LANE_CALIBRATE: queues a foreground calibration; it completes when that ends (R401, R402). -/
def execLaneCalibrate (id : Nat) (s : State) : Host.Outcome State Fault Refusal :=
  .next (runCmd id 0x1A
    (fun c s => firstFail [
      (decide (255 < c.target) || !noFields c, .invalidField),
      ((lane s c.target).port.isNone, .objectNotFound)])
    (fun c s =>
      let l := lane s c.target
      if railUp s 5 = false ∨ railUp s 6 = false then .fail .notReady s
      else if l.ready = false ∨ l.cal.isSome = true then .fail .busy s
      else
        let s := modLane c.target (fun l => { l with waitSlot := true, cal := some { Cal.init with cmd := some id } }) s
        { Ran.ok (awaitEnd id [] s) with done := false }) s)

/-- A lane's unmute lets it ramp up: it is muted, or its port's data-path step has passed it by. -/
def unmuteRamps (s : State) (n : Nat) : Bool :=
  let l := lane s n
  decide (l.tx = .muted) || (decide (l.tx = .rampDown) && !l.rampStop) ||
    (match l.port with
     | none => false
     | some p => decide ((portD s p).dp ≠ .idle))

/-- Mutes or unmutes a lane (R146, R403). -/
def setMute (n : Nat) (on : Bool) (s : State) : State :=
  if on then laneRampDown n false (modLane n (fun l => { l with mute := true }) s)
  else
    let up := unmuteRamps s n
    let s := modLane n (fun l => { l with mute := false }) s
    if up then laneRampUp n s else s

/-- LANE_MUTE: completes when every ramp it started has ended, or at once (R403). -/
def execLaneMute (id : Nat) (s : State) : Host.Outcome State Fault Refusal :=
  .next (runCmd id 0x1B
    (fun c s => firstFail [
      (decide (255 < c.target) || decide (c.indLen ≠ 0) || decide (3 < byteAt c.entry 32) || !c.inlZero 33 31, .invalidField),
      (bitOf (byteAt c.entry 32) 1 && (lane s c.target).port.isNone, .objectNotFound)])
    (fun c s =>
      let on := bitOf (byteAt c.entry 32) 0
      let ls := if bitOf (byteAt c.entry 32) 1 then portLanes s ((lane s c.target).port.getD 0) else [c.target]
      if !on && isSecondary s then .fail .permission s
      else
        let s' := forEach ls (fun n s => setMute n on s) s
        let wait := ls.filter fun n => laneRamping (lane s' n) && decide ((lane s' n).tx ≠ (lane s n).tx)
        if wait = [] then .ok s' else { Ran.ok (awaitEnd id wait s') with done := false }) s)

/-- LANE_DIAG: FORCE puts a slice map in force; background rotation stops, so a step before its switch is abandoned, and one past it ends
where its outgoing slice is in service again; RELEASE ends the force (R90, R404). -/
def execLaneDiag (id : Nat) (s : State) : Host.Outcome State Fault Refusal :=
  .next (runCmd id 0x1C
    (fun c s => firstFail [
      (decide (255 < c.target) || decide (c.indLen ≠ 0) || decide (1 < byteAt c.entry 32) || decide (16 ≤ byteAt c.entry 41) ||
        !c.inlZero 42 22, .invalidField),
      ((lane s c.target).port.isNone, .objectNotFound),
      (decide (byteAt c.entry 32 = 1) && !mapValid (lane s c.target) (BitVec.ofNat 68 (c.inl 33 9)), .invalidField)])
    (fun c s =>
      let m := BitVec.ofNat 68 (c.inl 33 9)
      if byteAt c.entry 32 = 1 then
        .ok (modLane c.target (fun l =>
          let moved := (List.range 68).filter fun i => l.sliceMap.getLsbD i != m.getLsbD i
          { l with
            sliceMap := m, forced := true, mapSeq := l.mapSeq + 1
            rot := (keptStep l).filter fun r => !m.getLsbD r.out
            since := moved.foldl (fun t i => mput t i (l.mapSeq + 1)) l.since }) s)
      else .ok (modLane c.target (fun l => { l with forced := false }) s)) s)

end Sys2Proof.Machine
end

