-- ==== Sys2Proof/Machine/Ingress.lean ====
section
/-! DEFINITION. The meanings of the ingress rows: receiving frames, scheduling them towards the FE, the credit watchdog,
and the spill and prefetch of queued cells (chapters 07, 09 and 10). -/
namespace Sys2Proof.Machine

/-! ## Receiving frames (R181, R274, R271) -/

/-- The counter of the range that a frame's length lies in, if any (Table 7.6). -/
def sizeCounter (n mx : Nat) : Option Nat :=
  if n < 64 ∨ mx < n then none
  else if n = 64 then some 5 else if n ≤ 127 then some 6 else if n ≤ 255 then some 7 else if n ≤ 511 then some 8
  else if n ≤ 1023 then some 9 else if n ≤ 1518 then some 10 else if n ≤ 2047 then some 11 else if n ≤ 4095 then some 12
  else some 13

/-- The row of Table 7.5 after the first, as the counter it names: 15, 16, 17, 18, 19, 14, or 0 for RX_FRAMES_OK. -/
def rxRow (l : List Byte) (mx : Nat) (bad : Bool) : Nat :=
  if l.length < 64 then if bad then 16 else 15
  else if mx < l.length then if bad then 18 else 17
  else if wireAt l 12 2 = 0x8808 then 19
  else if bad then 14 else 0

/-- What a received frame counts on its port (Table 7.6). -/
def countReceived (p : Nat) (l : List Byte) (row : Nat) (s : State) : State :=
  let n := l.length
  let s := match sizeCounter n (portD s p).maxFrame with
    | none => s
    | some k => portCount p k 1 s
  let s := if row = 0 then portCount p 0 1 (portCount p 1 n (portCount p (2 + castOf l) 1 s)) else portCount p row 1 s
  bwFrame p n false (profEvent 0x03 p 1 (profEvent 0x05 p n s))

/-- CLASS and COLOUR of a received frame (R274). -/
def classifyFrame (s : State) (p : Nat) (l : List Byte) : Nat × Nat :=
  let c := mget s.buf.classify p Classify.init
  match classIndex c.trust l with
  | none => (c.cls, c.colour)
  | some i =>
    let m := (c.map[i]?).getD 0
    (m / 4, m % 4)

/-- Ingress admission of a delivered frame (R269, R271), with its header of Table 9.12. -/
def ingressAdmit (q colour draw : Nat) (room : List Nat) (hdr l : List Byte) (bad : Bool) (t : Option Trace) (s : State) : State :=
  match queue? s false q with
  | none => s
  | some x0 =>
    let p := profile s x0.prof
    let s := wredArrive p false q s
    let x := (queue? s false q).getD x0
    let n := l.length
    let v := admitIngress s p x n
    if v.2 && wredPicks s p x colour draw then dropCause false q n 2 3 t s
    else
      match v.1 with
      | .drop k => dropCause false q n k (k + 1) t s
      | .take spill r m =>
        enqueue false q spill r m room
          { Pkt.init with bytes := l, header := hdr, badFcs := bad, trace := traceStage s 4 (traceStage s 3 t) } s

/-- The return of a frame in FAR (R187). -/
def farReturn (p : Nat) (l : List Byte) (s : State) : State := if (portD s p).loopback = 3 then countSent p l s else s

/-- Frames are delivered: not as the Geode secondary, and with ingress admission running (R26, R478). -/
def ingressRuns (s : State) : Bool := decide (s.boot.state = .active) && !s.buf.drain

/-- FRAME_RECEIVE: a frame received on an UP port, or the one that its leaving UP or its deletion ended with a forced FCS error (R119, R182),
is classified by Table 7.5, counted, returned in FAR, and admitted to its
ingress queue, dropped or discarded (R181, R187, R271, R274, R478). -/
def execFrameReceive (port : Nat) (bytes : List Byte) (forced : Bool) (deskew draw tagDraw : Nat) (room : List Nat) (s : State) :
    Host.Outcome State Fault Refusal :=
  .next (
    match port? s port with
    | none => s
    | some q =>
      if (q.state ≠ .up ∨ q.deleting = true) ∧ (forced = false ∨ q.cut = false) then s
      else
        let s := if q.state ≠ .up ∨ q.deleting = true then modPort port (fun q => { q with cut := false }) s else s
        let bad := forced || !fcsOk bytes
        let row := rxRow bytes q.maxFrame bad
        let cc := classifyFrame s port bytes
        let iq := 8 * port + cc.1
        let hash := flowHash s.gar.hashSeed bytes
        let t := traceStage s 2 (traceTag s false port iq bytes.length hash tagDraw)
        let s := farReturn port bytes (countReceived port bytes row s)
        let s := if isSecondary s then portCount port 20 1 s else s
        if isSecondary s || !ingressRuns s || (decide (row ≠ 0) && decide (row ≠ 14)) then traceWrite t 15 s
        else
          let ts := rxStamp s port deskew
          let hdr := headerToFe port cc.1 cc.2 bad s.tim.running ts.ns bytes.length hash
          ingressAdmit iq cc.2 draw room hdr bytes bad t s)

/-! ## Towards the FE (R276, R244) -/

/-- Credits of a packet are there: LIMIT less CONSUMED, modulo 2^32, is at least its credits and below 2^31; before the
first CREDIT record of a standard-engine link the pools are unlimited (R244, R255). -/
def creditsFor (s : State) (n cls len : Nat) : Bool :=
  let l := link s n
  let room := (mget l.limit cls 0 - mget l.used cls 0).toNat
  (stdMode s n && !l.credSeen) || (decide (cellsOf len ≤ room) && decide (room < 2 ^ 31))

/-- The head packet of class `cls` of a port, if one waits and is here (R267). -/
def ingressHead (s : State) (p cls : Nat) : Option Pkt := (waiting s false (8 * p + cls)).head?.filter Pkt.here

/-- The ports whose home link is `n`, in order. -/
def homePorts (s : State) (n : Nat) : List Nat := (s.ports.tab.filter fun p => decide (p.2.home = n)).map (·.1)

/-- The ports of a link whose class `cls` has a head packet with enough credits. -/
def ingressReady (s : State) (n cls : Nat) : List Nat :=
  (homePorts s n).filter fun p =>
    match ingressHead s p cls with
    | none => false
    | some k => creditsFor s n cls k.bytes.length

/-- The port after `p` of a list in rising order, the first after the last. -/
def nextIn (l : List Nat) (p : Nat) : Option Nat :=
  match l.find? fun x => decide (p < x) with
  | some x => some x
  | none => l.head?

/-- Deficit round robin with quanta of 2,048 bytes: the port whose turn it is sends while its deficit covers its head;
otherwise the turn passes on and the next port gains a quantum. Answers the port and the deficits (R276). -/
def drrPick (s : State) (cls : Nat) (ready : List Nat) : Nat → Nat → Map Nat → Option (Nat × Map Nat)
  | 0, _, _ => none
  | k + 1, cur, d =>
    let size := match ingressHead s cur cls with
      | none => 0
      | some p => p.bytes.length
    if ready.contains cur ∧ size ≤ mget d (cls * 256 + cur) 0 then
      some (cur, mput d (cls * 256 + cur) (mget d (cls * 256 + cur) 0 - size))
    else
      match nextIn ready cur with
      | none => none
      | some p => drrPick s cls ready k p (mput d (cls * 256 + p) (mget d (cls * 256 + p) 0 + 2048))

/-- The classes in strict priority, 7 first: the port chosen, its class, and the deficits (R276). A queue that has nothing
to send loses its deficit. -/
def ingressPick (s : State) (n : Nat) : List Nat → Option (Nat × Nat × Map Nat)
  | [] => none
  | cls :: r =>
    match ingressReady s n cls with
    | [] => ingressPick s n r
    | p :: ps =>
      let l := link s n
      let d := l.drr.filter fun e => decide (e.1 / 256 ≠ cls) || (ingressHead s (e.1 % 256) cls).isSome
      let cur := mget l.drrNext cls 256
      match drrPick s cls (p :: ps) (8 * (ps.length + 1) + 2) cur d with
      | none => none
      | some (q, d') => some (q, cls, d')

/-- The record of a packet towards the FE: its card header and its frame (R248). -/
def packetRecord (p : Pkt) : List Byte := p.header ++ p.bytes

/-- A link may schedule a packet: it is up, none is picked, no control, credit or lookup record waits, the record in progress ends in the
next flit, and the device is not the Geode secondary (R23, R26). -/
def mayPick (s : State) (n : Nat) : Bool :=
  let l := link s n
  l.up && l.pkt.isNone && decide (n < 64) && !isSecondary s && l.ctl.isEmpty && l.resp.isEmpty && decide (l.txPart.length < 248)

/-- The link to the next packet of an ingress queue is lost: every waiting packet is dropped and counted as for a poisoned cell (R337). -/
def dropList (q : Nat) (s : State) : State :=
  (waiting s false q).foldl (fun s p => popWaiting false q (dropCause false q p.bytes.length 5 6 p.trace s)) s

/-- INGRESS_SCHEDULE: the link's scheduler picks a head packet with enough credits; every cell is checked, and a packet with a
poisoned cell is dropped. The packet waits in its queue until its record begins, in the next flit that carries no record before it; in
standard-engine mode its credits are consumed and it goes at once, in an outer frame of its own (R23, R276, R244, R254, R262, R337). -/
def execIngressSchedule (link' : Nat) (found : List Found) (linkLost : Bool) (s : State) : Host.Outcome State Fault Refusal :=
  let n := link'
  .next (
    if !mayPick s n then s
    else
      match ingressPick s n [7, 6, 5, 4, 3, 2, 1, 0] with
      | none => s
      | some (p, cls, d) =>
        match ingressHead s p cls with
        | none => s
        | some k =>
          let q := 8 * p + cls
          let len := k.bytes.length
          let l := packetFound s k found
          let bad := anyBad s l
          let s := packetReads .ingress (!k.odCells.isEmpty) l s
          if bad && linkLost then dropList q s
          else if k.poison || bad then popWaiting false q (dropCause false q len 5 6 k.trace s)
          else
            let s := modLink n (fun l => { l with drr := d, drrNext := mput l.drrNext cls p }) s
            if stdMode s n then
              let s := modLink n (fun l => { l with used := mmod l.used cls 0 fun u => u + BitVec.ofNat 32 (cellsOf len) }) s
              let s := popWaiting false q (passCount false q len s)
              traceWrite (traceStage s 7 (traceStage s 6 k.trace)) 0 (sendOuter n (packetRecord k) s)
            else modLink n (fun l => { l with pkt := some q }) s)

/-! ## The credit watchdog (R246) -/

/-- CREDIT_TIMEOUT of a link in ns. -/
def creditTimeout (s : State) (n : Nat) : Nat := (link s n).set.creditTimeout * 100000

/-- Does a packet wait at a queue head for pool `cls` of link `n`, with too few credits, for CREDIT_TIMEOUT? -/
def creditStalled (s : State) (n cls : Nat) : Bool :=
  (homePorts s n).any fun p =>
    match (waiting s false (8 * p + cls)).head? with
    | none => false
    | some k => decide (k.since + creditTimeout s n ≤ s.now) && !creditsFor s n cls k.bytes.length

/-- Drops the waiting packets of ingress queue `q` that have waited CREDIT_TIMEOUT; they stand at its head, in admission order. -/
def dropWaiters (n q : Nat) : Nat → State → State
  | 0, s => s
  | k + 1, s =>
    match (waiting s false q).head? with
    | none => s
    | some p =>
      if s.now < p.since + creditTimeout s n then s
      else
        let s := linkCount n 13 1 (queueDrop false q p.bytes.length s)
        dropWaiters n q k (traceWrite p.trace 9 (popWaiting false q s))

/-- CREDIT_WATCHDOG: an episode begins, or goes on, and discards the packets whose wait has reached CREDIT_TIMEOUT (R246). -/
def execCreditWatchdog (link' pool : Nat) (s : State) : Host.Outcome State Fault Refusal :=
  let n := link'
  .next (
    if decide (64 ≤ n) || decide (8 ≤ pool) then s
    else
      let s :=
        if (link s n).stalls.contains pool then s
        else if creditStalled s n pool then
          post 0x3007 1 (n * 65536) pool (linkCount n 12 1 (modLink n (fun l => { l with stalls := linsert l.stalls pool }) s))
        else s
      if (link s n).stalls.contains pool then
        forEach (homePorts s n) (fun p s =>
          let q := 8 * p + pool
          dropWaiters n q ((queue? s false q).getD Queue.init).pkts.length s) s
      else s)

/-! ## Spill and prefetch (R264, R266) -/

/-- The staged cells of a queue that its oldest page with staged cells holds, as a range of cell numbers. -/
def spillRange (q : Queue) : Option (Nat × Nat) :=
  (q.pages.find? fun g =>
    q.pkts.any fun p => (List.range p.cells.length).any fun i =>
      decide (p.cells[i]? = some CellSt.staged) && decide (g.first ≤ p.firstCell + i) && decide (p.firstCell + i < g.first + g.count)).map
    fun g => (g.first, g.first + g.count)

/-- Writes the staged cells of a range to HBM. -/
def spillCells (r : Nat × Nat) (first : Nat) : List CellSt → List CellSt
  | [] => []
  | c :: l => (if c = .staged ∧ r.1 ≤ first ∧ first < r.2 then .hbm else c) :: spillCells r (first + 1) l

/-- SPILL_WRITE: the staged cells of a page of a queue are written to HBM; the page stays open while it is not full
(R264). -/
def execSpillWrite (egress : Bool) (queue : Nat) (s : State) : Host.Outcome State Fault Refusal :=
  .next (
    match queue? s egress queue with
    | none => s
    | some x =>
      match spillRange x with
      | none => s
      | some r =>
        let before := x.inState .staged
        let s := (List.range' r.1 (r.2 - r.1)).foldl (fun s n =>
          match x.cellUnit n with
          | none => s
          | some (h, u) => cleanse h u (u + 7) s) s
        let s := modQueue egress queue (fun x =>
          { x with pkts := x.pkts.map fun p =>
              let cs := spillCells r p.firstCell p.cells
              let had := p.cells.contains .staged
              { p with
                cells := cs
                trace := if egress && had && !cs.contains .staged then traceStage s 3 p.trace else p.trace } }) s
        let after := ((queue? s egress queue).getD Queue.init).inState .staged
        requestAll (profEvent 0x0F 0 (before - after) s))

/-- The first requested cells arrive, one for each element of the list, which says whether it read uncorrectable; a packet with such a cell is
poisoned. -/
def arriveCells : List Bool → List CellSt → List CellSt × List Bool × Bool
  | f, [] => ([], f, false)
  | [], l => (l, [], false)
  | f :: fs, c :: r =>
    if c = .requested then
      let m := arriveCells fs r
      (.ready :: m.1, m.2.1, m.2.2 || f)
    else
      let m := arriveCells (f :: fs) r
      (c :: m.1, m.2.1, m.2.2)
/-- The same over the packets of a queue. -/
def arrivePkts : List Bool → List Pkt → List Pkt
  | _, [] => []
  | f, p :: r =>
    let m := arriveCells f p.cells
    { p with cells := m.1, poison := p.poison || m.2.2 } :: arrivePkts m.2.1 r

/-- The reads of an arriving HBM cell: what an operand names, and the known poison of its units. -/
def cellFound (s : State) (x : Queue) (n : Nat) (l : List Found) : List Found :=
  match x.cellUnit n with
  | none => l
  | some (r, u) => l ++ poisonIn s r u (u + 7) l

/-- The numbers of a queue's requested cells, in list order. -/
def requestedCells (x : Queue) : List Nat :=
  x.pkts.flatMap fun p => (p.cells.zipIdx.filter fun c => decide (c.1 = CellSt.requested)).map fun c => p.firstCell + c.2

/-- PREFETCH_DONE: requested cells of a queue arrive in the prefetch area, in list order (R266, R333). -/
def execPrefetchDone (egress : Bool) (queue : Nat) (cells : List (List Found)) (s : State) : Host.Outcome State Fault Refusal :=
  .next (
    match queue? s egress queue with
    | none => s
    | some x =>
      let n := min cells.length (x.inState .requested)
      let cells := ((cells.take n).zip (requestedCells x)).map fun c => cellFound s x c.2 c.1
      let bad := cells.map (anyBad s)
      let s := memReads (if egress then .mac else .ingress) cells.flatten s
      let s := modQueue egress queue (fun x => { x with pkts := arrivePkts bad x.pkts }) s
      markHead egress queue (requestAll (profEvent 0x10 0 n s)))

end Sys2Proof.Machine
end

