-- ==== Sys2Proof/Machine/TableOps.lean ====
section
/-! DEFINITION. The table engine: storage, update entries, their preconditions and staging, the match of a key, the response
of a lookup, and the switch of an epoch (chapter 12). -/
namespace Sys2Proof.Machine

/-! ## Access and storage (R301, R305 to R307) -/

/-- Table `n`, if it exists. -/
def table? (s : State) (n : Nat) : Option Table := mfind s.tbl.tables n
/-- Changes a table that exists. -/
def modTable (n : Nat) (f : Table → Table) (s : State) : State :=
  match table? s n with
  | none => s
  | some t => s.mapTbl fun x => { x with tables := mput x.tables n (f t) }
/-- Adds to counter `k` of a table: 0 LOOKUPS, 1 HITS, 2 MISSES, 3 NOT_READY, 4 POISONED, 7 UPDATES_COMMITTED. -/
def tableCount (n k a : Nat) (s : State) : State := modTable n (fun t => { t with ctr := ctrAdd t.ctr k a }) s

/-- `a / b` rounded up. -/
def ceilDiv (a b : Nat) : Nat := (a + b - 1) / b

/-- Entry bytes E of a TERNARY table (R307). -/
def ternaryBytes (keyLen : Nat) : Nat := 64 * ceilDiv (2 * keyLen + 16) 64

/-- Banks of a table before REPLICAS (Table 12.4). -/
def banksFor (kind : Nat) (hbm : Bool) (size keyLen : Nat) : Nat :=
  match kind, hbm with
  | 0, false => ceilDiv size 131072
  | 0, true => ceilDiv size 2097152
  | 1, false => ceilDiv size 65536
  | 1, true => ceilDiv size 1048576
  | 2, false => ceilDiv size 32768
  | 3, false => ceilDiv size 131072 + ceilDiv (size * ternaryBytes keyLen) 2097152
  | 3, true => ceilDiv size 131072
  | 4, false => ceilDiv size 262144
  | _, _ => 0

/-- Blocks of a table (Table 12.4). -/
def blocksFor (kind : Nat) (hbm : Bool) (size keyLen : Nat) : Nat :=
  match kind, hbm with
  | 0, true => ceilDiv size 262144
  | 1, true => ceilDiv size 131072
  | 2, true => ceilDiv size 262144
  | 3, true => ceilDiv (size * ternaryBytes keyLen) 16777216
  | 4, true => ceilDiv size 2097152
  | _, _ => 0

/-- The banks in use: of tables, and of deleted tables not yet free. -/
def banksUsed (s : State) : List Nat := s.tbl.tables.flatMap (fun t => t.2.banks) ++ s.tbl.gone.flatMap (fun g => g.2.banks)
/-- The blocks in use. -/
def blocksUsed (s : State) : List Nat := s.tbl.tables.flatMap (fun t => t.2.blocks) ++ s.tbl.gone.flatMap (fun g => g.2.blocks)
/-- The free banks, lowest first. -/
def freeBanks (s : State) : List Nat := (List.range 64).filter fun b => !(banksUsed s).contains b
/-- The free blocks, lowest first; a partition of T GiB holds 64 × T. -/
def freeBlocks (s : State) : List Nat := (List.range (64 * s.mem.part)).filter fun b => !(blocksUsed s).contains b
/-- Every bank and block of a table lies in a region with INIT_DONE. -/
def tableReady (s : State) (t : Table) : Bool :=
  t.banks.all (fun b => initDone s (1 + b)) && (t.blocks.isEmpty || spillEnabled s)

/-! ## Entries (R303, R304, Table 16.5) -/

/-- A length rounded up to a multiple of 8. -/
def round8 (n : Nat) : Nat := 8 * ceilDiv n 8
/-- The length L_e of an update entry of a table (R426). -/
def Table.entryLen (t : Table) : Nat := if t.kind = 3 then 16 + 2 * round8 t.keyLen else 16 + round8 t.keyLen
/-- The kind is LPM. -/
def Table.lpm (t : Table) : Bool := decide (t.kind ≤ 1)

/-- The update that an entry's bytes hold. -/
def parseUpdate (n : Nat) (t : Table) (b : List Byte) : Update :=
  { table := n, op := byteAt b 0
    entry :=
      { vrf := fieldAt b 2 2, plen := byteAt b 1, prio := fieldAt b 4 3, key := slice b 16 t.keyLen
        mask := if t.kind = 3 then slice b (16 + round8 t.keyLen) t.keyLen else []
        result := BitVec.ofNat 64 (fieldAt b 8 8), words := [] } }

/-- The bytes of an update entry (Table 16.5). -/
def updateBytes (t : Table) (u : Update) : List Byte :=
  let pad := fun (l : List Byte) => (l ++ zeros (round8 t.keyLen)).take (round8 t.keyLen)
  leBytes 1 u.op ++ leBytes 1 u.entry.plen ++ leBytes 2 u.entry.vrf ++ leBytes 3 u.entry.prio ++ [0] ++
    leBytes 8 u.entry.result.toNat ++ pad u.entry.key ++ (if t.kind = 3 then pad u.entry.mask else [])

/-- The two entries are the same entry of a table: LPM prefix, EXACT key, TERNARY PRIORITY or DIRECT index (R316). -/
def sameEntry (kind : Nat) (a b : Entry) : Bool :=
  if kind ≤ 1 then decide (a.vrf = b.vrf) && decide (a.plen = b.plen) && decide (a.key = b.key)
  else if kind = 3 then decide (a.prio = b.prio)
  else decide (a.key = b.key)

/-- An entry breaks Table 16.5, R304 or Table 12.9. -/
def entryBad (t : Table) (u : Update) (b : List Byte) : Bool :=
  let e := u.entry
  let width := 8 * t.keyLen
  decide (3 < u.op) || (decide (u.op = 3) != decide (t.kind = 4)) || decide (byteAt b 7 ≠ 0) ||
    (decide (u.op = 2) && decide (e.result ≠ 0)) ||
    !allZero (slice b (16 + t.keyLen) (round8 t.keyLen - t.keyLen)) ||
    (if t.lpm then decide (width < e.plen) || decide (beNat e.key % 2 ^ (width - e.plen) ≠ 0) else decide (e.plen ≠ 0) || decide (e.vrf ≠ 0)) ||
    (if t.kind = 3 then
      !allZero (slice b (16 + round8 t.keyLen + t.keyLen) (round8 t.keyLen - t.keyLen)) ||
        (e.key.zip e.mask).any (fun p => decide (p.1 &&& ~~~ p.2 ≠ 0))
    else decide (e.prio ≠ 0)) ||
    (decide (t.kind = 4) && decide (t.size ≤ beNat e.key))

/-! ## The words of entries (R315, R334 to R336) -/

/-- An entry's words share units with other data: in HBM, all but those of TERNARY entries (R307, R336). -/
def sharesUnits (t : Table) : Bool := t.hbm && decide (t.kind ≠ 3)

/-- An entry holds a word that was written poisoned. -/
def entryPoisoned (s : State) (e : Entry) : Bool := e.words.any fun w => poisoned s w.1 w.2

/-- Writes the words of an entry, the row's operand naming them (log 162): one written whole is clean, one written in part is read and merged as Table 13.4 states, and all are poisoned
where the entry is to be written poisoned; answers whether a merge read an uncorrectable word. On-die every write is of whole words. -/
def writePlaces (w : Reader) (bad : Bool) (merged : List Found) : List Place → State → Bool × State
  | [], s => (false, s)
  | p :: r, s =>
    let one : Bool × State :=
      if p.whole || decide (p.region ≤ 64) then (false, if bad then poison p.region p.unit s else cleanse p.region p.unit p.unit s)
      else
        let f := ((merged.filter fun f => decide (f.region = p.region) && decide (f.unit = p.unit)) ++
          poisonIn s p.region p.unit p.unit merged).headD { region := p.region, unit := p.unit, flips := 0, slip := 0 }
        let d := unitBad s f
        let s := mergeRead w f s
        (d, if d || bad then poison p.region p.unit s else cleanse p.region p.unit p.unit s)
    let rest := writePlaces w bad merged r one.2
    (one.1 || rest.1, rest.2)

/-- Writes the words of an update's entry and notes them in it. Where the entry that it replaces lies in a poisoned unit shared with others, and
no write here covers that unit whole, the unit stays the entry's (R315, R336). Answers the update, whether a merge read poison, and the state. -/
def writeEntry (w : Reader) (bad : Bool) (t : Table) (u : Update) (places : List Place) (merged : List Found) (s : State) :
    Update × Bool × State :=
  let old := match t.entries.find? fun x => sameEntry t.kind x u.entry with
    | none => []
    | some e => e.words.filter fun x =>
        sharesUnits t && poisoned s x.1 x.2 && !places.any fun p => decide (p.region = x.1) && decide (p.unit = x.2)
  let r := writePlaces w bad merged (places ++ old.map fun x => { region := x.1, unit := x.2, whole := false }) s
  let words := places.map (fun p => (p.region, p.unit)) ++ old
  ({ u with entry := { u.entry with words := if u.op = 2 then [] else words } }, r.1, r.2)

/-! ## Staging (R316 to R318) -/

/-- The update of an entry that a list stages. -/
def stagedOf (kind n : Nat) (l : List Update) (e : Entry) : Option Update :=
  l.find? fun u => decide (u.table = n) && sameEntry kind u.entry e
/-- The committed entry. -/
def committed (t : Table) (e : Entry) : Option Entry := t.entries.find? fun x => sameEntry t.kind x e

/-- The entry exists after the committed contents and the updates already staged in the same epoch (R316). -/
def entryExists (n : Nat) (t : Table) (l : List Update) (e : Entry) : Bool :=
  match stagedOf t.kind n l e with
  | some u => decide (u.op ≠ 2)
  | none => (committed t e).isSome

/-- An update of the entry is staged under another handle, or executed and not switched (R318). -/
def entryLocked (s : State) (h n : Nat) (t : Table) (e : Entry) : Bool :=
  (s.tbl.handles.any fun x => decide (x.1 ≠ h) && (stagedOf t.kind n x.2.staged e).isSome) ||
    s.tbl.commits.any fun c => (stagedOf t.kind n c.updates e).isSome

/-- Every update staged under an open handle, or executed and not switched. -/
def stagedAll (s : State) : List Update :=
  (s.tbl.handles.flatMap fun x => if x.2.committing then [] else x.2.staged) ++ s.tbl.commits.flatMap fun c => c.updates

/-- INSERTs staged for a table. -/
def insertsIn (n : Nat) (l : List Update) : Nat := (l.filter fun u => decide (u.table = n) && decide (u.op = 0)).length

/-- A staged list after one more update: a later one of an entry replaces an earlier one (R316). A DELETE that replaces an INSERT
leaves no entry, and counts as the one update staged of it; a MODIFY of an INSERT is an INSERT (DEDUCED, log 34). -/
def stageOne (n : Nat) (t : Table) (l : List Update) (u : Update) : List Update :=
  let rest := l.filter fun x => !(decide (x.table = n) && sameEntry t.kind x.entry u.entry)
  if u.op = 1 then
    match stagedOf t.kind n l u.entry with
    | some x => rest ++ [{ x with entry := { x.entry with result := u.entry.result, words := u.entry.words } }]
    | none => rest ++ [u]
  else rest ++ [u]

/-- The first check that an update of handle `h` fails, `own` being what its epoch has staged (R308, R316, R318). -/
def updateFails (s : State) (h n : Nat) (t : Table) (own : List Update) (u : Update) (b : List Byte) : Option Status :=
  let isIn := entryExists n t own u.entry
  let other := stagedAll s
  let all := if h = 0 then other ++ own else other
  firstFail [
    (entryBad t u b, .invalidField),
    (decide (u.op = 0) && isIn, .objectExists),
    ((decide (u.op = 1) || decide (u.op = 2)) && !isIn, .objectNotFound),
    (entryLocked s h n t u.entry, .busy),
    ((decide (262144 ≤ all.length) && (stagedOf t.kind n own u.entry).isNone) || (decide (u.op = 0) && decide (t.size < t.entries.length + insertsIn n all + 1)), .noResource)]

/-- Checks and stages entries in order under handle `h`; answers how many were staged, the failure that stopped it, what the epoch
has staged, the words that its entries write poisoned, and the state (R318). Under handle 0 the staged list is kept beside the state until its
commit. Each entry writes the words that its element of `places` names. -/
def stageAll (h n : Nat) (t : Table) (places : List (List Place)) (merged : List Found) :
    List (List Byte) → Nat → List Update → Bool → State → Nat × Option Status × List Update × Bool × State
  | [], k, own, dirty, s => (k, none, own, dirty, s)
  | b :: r, k, own, dirty, s =>
    let u := parseUpdate n t b
    match updateFails s h n t own u b with
    | some st => (k, some st, own, dirty, s)
    | none =>
      let w := writeEntry .update false t u (places.getD k []) merged s
      let own := stageOne n t own w.1
      let s := w.2.2
      let s := if h = 0 then s else s.mapTbl fun x => { x with handles := mmod x.handles h Handle.init fun y => { y with staged := own } }
      stageAll h n t places merged r (k + 1) own (dirty || w.2.1) s

/-! ## The switch of an epoch (R315, R319) -/

/-- One update applied to the entries of its table. -/
def applyUpdate (t : Table) (u : Update) : List Entry :=
  let rest := t.entries.filter fun x => !sameEntry t.kind x u.entry
  if u.op = 2 then rest
  else if u.op = 1 then
    t.entries.map fun x => if sameEntry t.kind x u.entry then { x with result := u.entry.result, words := u.entry.words } else x
  else rest ++ [u.entry]

/-- Switches updates into effect at one instant and counts them. -/
def switchUpdates (l : List Update) (s : State) : State :=
  l.foldl (fun s u => modTable u.table (fun t => { t with entries := applyUpdate t u, ctr := ctrAdd t.ctr 7 1 }) s) s

/-! ## Lookups (R303, R313, R314, R320) -/

/-- A prefix covers an address: the same first `plen` bits. -/
def covers (plen : Nat) (p a : List Byte) : Bool :=
  let w := 8 * p.length
  decide (beNat p / 2 ^ (w - plen) = beNat a / 2 ^ (w - plen))

/-- A key matches an entry (Table 12.1). -/
def entryMatches (t : Table) (vrf : Nat) (key : List Byte) (e : Entry) : Bool :=
  if t.lpm then decide (e.vrf = vrf) && covers e.plen e.key key
  else if t.kind = 3 then decide ((key.zip e.mask).map (fun p => p.1 &&& p.2) = e.key)
  else decide (e.key = key)

/-- The entry preferred of two matches: the longer prefix, or the greater PRIORITY. -/
def better (t : Table) (a b : Entry) : Bool := if t.lpm then decide (a.plen < b.plen) else decide (a.prio < b.prio)

/-- The entry that a key matches, if any. -/
def bestMatch (t : Table) (vrf : Nat) (key : List Byte) : Option Entry :=
  (t.entries.filter (entryMatches t vrf key)).foldl (fun o e =>
    match o with
    | none => some e
    | some x => if better t x e then some e else some x) none

/-- The match reads a poisoned entry: the one it finds, and for TERNARY any that matches (R314). -/
def matchPoisoned (s : State) (t : Table) (vrf : Nat) (key : List Byte) : Bool :=
  if t.kind = 3 then t.entries.any fun e => entryPoisoned s e && entryMatches t vrf key e
  else match bestMatch t vrf key with
    | none => false
    | some e => entryPoisoned s e

/-- The words of the entries that a key reads: the one it matches, and for TERNARY every one that matches. -/
def matchWords (t : Table) (vrf : Nat) (key : List Byte) : List (Nat × Nat) :=
  if t.kind = 3 then (t.entries.filter (entryMatches t vrf key)).flatMap (·.words)
  else match bestMatch t vrf key with
    | none => []
    | some e => e.words

/-- The outcome of a lookup of a table with nothing poisoned but what is known to be: status, result and match length (Table 12.8
from row 5). -/
def matchOutcome (s : State) (t : Table) (vrf : Nat) (key : List Byte) : Nat × Nat × Nat :=
  if matchPoisoned s t vrf key then (3, 0, 0)
  else match bestMatch t vrf key with
    | some e => (0, e.result.toNat, if t.lpm then e.plen else 0)
    | none => if t.kind = 4 ∧ beNat key < t.size then (0, 0, 0) else (1, 0, 0)

/-- A request has a reserved value in a field other than KEY and VRF (Table 12.8 row 1). -/
def requestBad (r : List Byte) : Bool :=
  decide (byteAt r 1 ≠ 0) || decide (1023 < wireAt r 2 2) || decide (byteAt r 5 = 0) || decide (80 < byteAt r 5) || !allZero (slice r 16 16)

/-- The outcome of a request against table `t?`: the first row of Table 12.8 that applies. -/
def lookupOutcome (s : State) (t? : Option Table) (r : List Byte) : Nat × Nat × Nat :=
  if requestBad r then (5, 0, 0)
  else
    match t? with
    | none => (4, 0, 0)
    | some t =>
      if byteAt r 5 ≠ t.keyLen ∨ (!t.lpm ∧ wireAt r 6 2 ≠ 0) then (5, 0, 0)
      else if !tableReady s t then (2, 0, 0)
      else matchOutcome s t (wireAt r 6 2) (slice r 32 t.keyLen)

/-- The LOOKUP_RESP of a request (Table 9.16). -/
def lookupResp (r : List Byte) (o : Nat × Nat × Nat) (epoch : Nat) : List Byte :=
  [0x31, BitVec.ofNat 8 o.1] ++ slice r 2 2 ++ slice r 4 1 ++ [BitVec.ofNat 8 o.2.2] ++ zeros 2 ++ slice r 8 8 ++ beBytes 8 o.2.1 ++
    beBytes 4 epoch ++ zeros 4

/-- The response of a request at the current epoch, poison of reads not regarded. -/
def lookupNow (s : State) (t? : Option Table) (r : List Byte) : List Byte :=
  lookupResp r (lookupOutcome s t? r) (s.tbl.epoch.toNat % 2 ^ 32)

/-- A response turned POISONED: only HIT and MISS read table words, and an EXACT key held in a clean slot stays a HIT (R314). -/
def poisonResp (exact clean : Bool) (b : List Byte) : List Byte :=
  let st := byteAt b 1
  if st = 0 ∧ exact ∧ clean then b
  else if st ≤ 1 then [0x31, 3] ++ slice b 2 3 ++ zeros 3 ++ slice b 8 8 ++ zeros 8 ++ slice b 24 8
  else b

/-- TABLE_POISON, once per table and location (R314): for a table that exists, or deletion `g` of a table that a lookup in flight still
reads. -/
def tablePoison (n : Nat) (g : Option Nat) (f : Found) (s : State) : State :=
  let at' := (f.region, f.unit)
  match g with
  | none =>
    match table? s n with
    | none => s
    | some t =>
      if t.posted.contains at' then s
      else post 0x6001 2 n (f.unit % 2 ^ 32) (modTable n (fun t => { t with posted := t.posted ++ [at'] }) s)
  | some g =>
    match mfind s.tbl.gone g with
    | none => s
    | some x =>
      if x.posted.contains at' then s
      else
        post 0x6001 2 x.table (f.unit % 2 ^ 32)
          (s.mapTbl fun t => { t with gone := mput t.gone g { x with posted := x.posted ++ [at'] } })

/-- What the reads of entries find: what an operand names, and the known poison of their words. -/
def wordsFound (s : State) (words : List (Nat × Nat)) (l : List Found) : List Found :=
  l ++ (words.eraseDups.filter fun w => poisoned s w.1 w.2 && !l.any fun f => decide (f.region = w.1) && decide (f.unit = w.2)).map fun w =>
    { region := w.1, unit := w.2, flips := 0, slip := 0 }

/-- What the reads of a lookup found: counted, and each uncorrectable word posted for its table (R314, R333). -/
def tableReads (n : Nat) (g : Option Nat) (l : List Found) (s : State) : State :=
  (l.filter (unitBad s)).foldl (fun s f => tablePoison n g f s) (memReads .lookup l s)

/-- Counts a response for its table by its status, and LOOKUP_NO_TABLE (R324). -/
def countResp (n : Nat) (b : List Byte) (s : State) : State :=
  let st := byteAt b 1
  if st = 4 then s.mapTbl fun x => { x with noTable := x.noTable.add 1 }
  else if st = 5 then s
  else
    let s := tableCount n 0 1 (tableCount n (1 + st) 1 s)
    if st = 0 then profEvent 0x0B n 1 s else s

/-! ## Mirrored epochs (R469, R470) -/

/-- The EPOCH_BEGIN record (Table 18.2). -/
def epochBegin (full : Bool) (num count : Nat) : List Byte := [0x65, if full then 1 else 0] ++ zeros 6 ++ beBytes 8 num ++ beBytes 4 count ++ zeros 4
/-- The EPOCH_ENTRY record of an update. -/
def epochEntry (t : Table) (poison : Bool) (u : Update) : List Byte :=
  [0x66, BitVec.ofNat 8 u.table, if poison then 1 else 0] ++ zeros 5 ++ updateBytes t u
/-- The EPOCH_END record. -/
def epochEnd (num : Nat) : List Byte := [0x67] ++ zeros 7 ++ beBytes 8 num

/-- The primary sends an epoch to its secondary: each entry is read from its storage, and one with a word that reads uncorrectable carries
POISON (R469, R337); `found` says what those reads found. -/
def mirrorEpoch (full : Bool) (num : Nat) (found : List (List Found)) (l : List Update) (s : State) : State :=
  if !mirrorOpen s then s
  else
    let s := mirrorPush 1 num (epochBegin full num l.length) s
    let s := (l.zipIdx).foldl (fun s x =>
      match table? s x.1.table with
      | none => s
      | some t =>
        let f := wordsFound s x.1.entry.words (found.getD x.2 [])
        let bad := anyBad s f
        mirrorPush 1 num (epochEntry t bad x.1) (memReads .mirror f s)) s
    (mirrorPush 1 num (epochEnd num) s).mapGeo fun g => { g with mirrored := BitVec.ofNat 64 num }

/-- A mirrored record has failed: the secondary clears IN_SYNC, and a resync under way cannot set it (R470). -/
def loseSync (s : State) : State := s.mapGeo fun g => { g with inSync := false, resync := false }

/-- A received epoch whose EPOCH_END has come switches under the primary's number, deferred by a brownout freeze; a full one puts
the secondary in sync, and a wrong count takes it out (R470, R476). -/
def switchMirrored (s : State) : State :=
  match s.geo.epochIn with
  | none => s
  | some e =>
    if !e.ended || s.bed.boActive then s
    else
      let ok := decide (e.count = e.updates.length)
      let s := (switchUpdates e.updates s).mapTbl fun x => { x with epoch := BitVec.ofNat 64 e.num }
      s.mapGeo fun g =>
        { g with
          epochIn := none, mirrored := BitVec.ofNat 64 e.num
          inSync := ok && (g.inSync || (e.full && g.resync)), resync := g.resync && !e.full }

end Sys2Proof.Machine
end

