-- ==== Sys2Proof/Machine/LinkRows.lean ====
section
/-! DEFINITION. The link protocol: flits, replay, records, credits, link control, and outer frames (chapter 09). -/
namespace Sys2Proof.Machine

/-! ## Records (R233, R234) -/

/-- What the first bytes of a record say of its length. -/
inductive RecSize where
  /-- More bytes are needed. -/
  | more
  /-- Its length in bytes. -/
  | len (n : Nat)
  /-- PAD: the rest of the payload. -/
  | pad
  /-- A reserved type: it cannot be measured. -/
  | bad
deriving DecidableEq, Repr

/-- The length of a record whose length lies in its first `k` bytes. -/
def sized (b : List Byte) (k : Nat) (n : Nat) : RecSize := if b.length < k then .more else .len n

/-- The entry length of table `tb` on the Geode secondary: as the last TABLE_CREATE among the CONFIG records delivered and not yet
applied gives it, or as the table has it. -/
def geoEntryLen (s : State) (tb : Nat) : Option Nat :=
  let made := ((link s geodeLink).recs.filter fun r =>
    decide (byteAt r 0 = 0x64) && decide (byteAt r 1 = 0x60) && decide (wireAt r 8 4 = tb)).getLast?
  match made with
  | some r => some ({ Table.init with kind := byteAt r 16, keyLen := byteAt r 18 } : Table).entryLen
  | none => (table? s tb).map (·.entryLen)

/-- The length of a record (Tables 9.4 and 18.2). The length of an EPOCH_ENTRY depends on the table it names; of an unknown table
it cannot be measured. -/
def recSize (s : State) (n : Nat) (b : List Byte) : RecSize :=
  let g := decide (n = geodeLink)
  match b with
  | [] => .more
  | t :: _ =>
    let t := t.toNat
    if t = 0x00 then .pad
    else if t = 0x11 then sized b 8 (16 + hdrLen b)
    else if t = 0x21 then sized b 6 (32 + round8 (byteAt b 5))
    else if t = 0x31 then .len 32
    else if t = 0x41 then .len 40
    else if t = 0x51 then .len 8
    else if !g then .bad
    else if t = 0x60 then .len 32
    else if t = 0x61 ∨ t = 0x62 ∨ t = 0x63 then .len 8
    else if t = 0x64 then sized b 16 (48 + round8 (wireAt b 12 4))
    else if t = 0x65 then .len 24
    else if t = 0x66 then
      if b.length < 2 then .more
      else match geoEntryLen s (byteAt b 1) with
        | none => .bad
        | some k => .len (8 + k)
    else if t = 0x67 then .len 16
    else if t = 0x68 then .len 32
    else .bad

/-- A record of a known type is counted in RECORD_ERR and skipped: it travels in the wrong direction, or is a LINK_CTRL whose OP or
PAIR is reserved or not for this link (R234, R255, R468). -/
def recordErr (s : State) (n : Nat) (b : List Byte) : Bool :=
  let t := byteAt b 0
  let op := byteAt b 1
  let g := decide (n = geodeLink)
  decide (t = 0x31) || (g && (decide (t = 0x11) || decide (t = 0x21))) ||
    (decide (t = 0x51) && (decide (op < 1) || decide (5 < op) || (decide (op ≤ 3) && (decide (3 < byteAt b 2) || g || stdMode s n))))

/-- A whole record is delivered, or counted and skipped. CREDIT records on the Geode link are ignored (R468). -/
def deliverRecord (n : Nat) (b : List Byte) (s : State) : State :=
  if recordErr s n b then linkCount n 9 1 s
  else if n = geodeLink ∧ byteAt b 0 = 0x41 then s
  else modLink n (fun l => { l with recs := l.recs ++ [b] }) s

/-- Takes records from the bytes of a payload, `b` being what is left of the record in progress and of the payload. The fuel is the
number of bytes. -/
def takeRecords (n : Nat) : Nat → List Byte → State → State
  | 0, _, s => s
  | k + 1, b, s =>
    match b with
    | [] => modLink n (fun l => { l with part := [] }) s
    | _ :: _ =>
      match recSize s n b with
      | .more => modLink n (fun l => { l with part := b }) s
      | .len m =>
        if b.length < m then modLink n (fun l => { l with part := b }) s
        else takeRecords n k (b.drop m) (deliverRecord n (b.take m) s)
      | .pad =>
        let s := modLink n (fun l => { l with part := [] }) s
        if allZero b then s else linkCount n 9 1 s
      | .bad =>
        let s := modLink n (fun l => { l with part := [], skip := true }) (linkCount n 9 1 s)
        if n = geodeLink then loseSync s else s

/-- A DATA flit is delivered in order (R230, R234, R237). -/
def deliverFlit (n : Nat) (f : Flit) (s : State) : State :=
  let s := modLink n (fun l => { l with e := (l.e + 1) % 2048 }) s
  let s := profEvent 0x08 (linkInst n) 1 (linkCount n 1 1 s)
  let l := link s n
  if l.skip || l.part.isEmpty then
    if f.first ≤ 0xF7 then takeRecords n 256 (f.payload.drop f.first) (modLink n (fun l => { l with skip := false, part := [] }) s) else s
  else takeRecords n 256 (l.part ++ f.payload) s

/-- Every held flit that is now in order is delivered. -/
def deliverHeld (n : Nat) : Nat → State → State
  | 0, s => s
  | k + 1, s =>
    match mfind (link s n).ahead (link s n).e with
    | none => s
    | some f =>
      let s := modLink n (fun l => { l with ahead := mdel l.ahead f.seq }) s
      deliverHeld n k (deliverFlit n f s)

/-! ## The sender (R235, R238) -/

/-- Every pair of the link that has started starts again from PAGE, a FAILED one with its failures forgotten (R242, Table 8.7). -/
def restartPairs (n : Nat) (s : State) : State :=
  let s := garnetCauses (modLink n (fun l =>
    { l with pairs := mmap l.pairs fun _ p => if p.state = .failed then { p with state := .quiet, fails := 0 } else p }) s)
  forEach (pairIdx n) (fun i s => if (pair s n i).state = .off then s else pairPage n i s) s

/-- A replay of A starts, or after eight of them without A advancing the protocol ends (Table 9.6, R242). -/
def startReplay (n : Nat) (s : State) : State :=
  let l := link s n
  if 8 ≤ l.replays then restartPairs n (protoEnd n 1 (post 0x3006 2 (linkObj n 0) l.a s))
  else modLink n (fun l => { l with resend := l.replay, replays := l.replays + 1, replayAt := some s.now }) s

/-- The flits up to an acknowledgement are released; a packet wholly acknowledged has passed its last stage (R238, Table 21.5). -/
def releaseFlits (n d : Nat) (s : State) : State :=
  let l := link s n
  let gone := (l.replay.take d).map (·.seq)
  let acked := l.sent.filter fun x => gone.contains x.lastSeq
  let s := modLink n (fun l =>
    { l with
      a := (l.a + d) % 2048, replay := l.replay.drop d, resend := l.resend.filter fun f => !gone.contains f.seq
      sent := l.sent.filter fun x => !gone.contains x.lastSeq, replays := 0, replayAt := none }) s
  acked.foldl (fun s x => traceWrite (traceStage s 8 x.trace) 0 s) s

/-- The acknowledgement of a good flit's header (R238). -/
def takeAck (n an ackseq : Nat) (s : State) : State :=
  let l := link s n
  let d := (ackseq + 1 + 2048 - l.a) % 2048
  if an = 0 ∨ 1023 < d ∨ l.replay.length < d then s
  else
    let s := if d = 0 then s else releaseFlits n d s
    let l := link s n
    let recent := match l.replayAt with
      | none => false
      | some t => decide (s.now < t + 1000)
    if an = 2 ∧ l.resend = [] ∧ !recent then startReplay n (linkCount n 6 1 s) else s

/-! ## FLIT_RECEIVE (R231, R236, R237) -/

/-- What the Geode controller forgets when its link comes up: the peer is unknown until its HELLO, and IN_SYNC is clear until a resync
(R437, R471, R476). -/
def geodeUp (s : State) : State :=
  s.mapGeo fun g =>
    { g with
      peer := none, timeSet := false, resynced := false, lossSince := none, wasUp := true, inSync := false, seqKnown := false, resync := false
      epochIn := none, echoAt := none }

/-- LINK_UP is set with the first good flit that carries an acknowledgement (R205, R242). -/
def linkUp (n : Nat) (s : State) : State :=
  if (link s n).up then s
  else
    let s := modLink n (fun l => { l with up := true }) s
    if n = geodeLink then post 0xB002 0 0 0 (geodeUp s) else post 0x3009 0 (linkObj n 0) 0 s

/-- SEQ `q` lies ahead of E. -/
def seqAhead (l : Link) (q : Nat) : Bool := let d := (q + 2048 - l.e) % 2048; decide (1 ≤ d) && decide (d ≤ 1023)
/-- An IDLE flit has come with SEQ ahead of E. -/
def idleAhead (l : Link) : Bool :=
  match l.idleSeq with
  | none => false
  | some q => seqAhead l q
/-- The SEQ of an IDLE flit counts while it lies ahead of E (R237). -/
def idleKeep (n : Nat) (s : State) : State := modLink n (fun l => { l with idleSeq := if idleAhead l then l.idleSeq else none }) s
/-- A good IDLE flit with SEQ `q`: the furthest ahead of E is kept (R237). -/
def takeIdle (q : Nat) (l : Link) : Link :=
  let far := match l.idleSeq with
    | none => true
    | some r => decide ((r + 2048 - l.e) % 2048 < (q + 2048 - l.e) % 2048)
  if seqAhead l q && far then { l with idleSeq := some q } else l

/-- A good DATA flit with `seq` is in order, ahead, or neither (R236, Table 9.5). -/
def takeData (n : Nat) (f : Flit) (s : State) : State :=
  let l := link s n
  let d := (f.seq + 2048 - l.e) % 2048
  if d = 0 then
    idleKeep n (deliverHeld n 1024 (deliverFlit n f (modLink n (fun l => { l with nakWait := false }) s)))
  else if l.nakWait then linkCount n 4 1 s
  else if d < 1024 then modLink n (fun l => { l with ahead := mput l.ahead f.seq f }) s
  else linkCount n 3 1 s

/-- FLIT_RECEIVE: the codewords of the pair are counted, and in FAR go back on its own transmit path (R220); a flit that fails its check is
discarded, and so is one with a bit in an uncorrectable codeword (R229, R231); otherwise its acknowledgement and its payload are taken. In
NEAR_DIGITAL the pair's detector does not hear the partner. -/
def execFlitReceive (n i : Nat) (flit : List Byte) (total corrected uncorrectable : Nat) (hit : Bool) (s : State) :
    Host.Outcome State Fault Refusal :=
  .next (
    if (pair s n i).state ≠ .active ∨ (link s n).set.loopback = 1 then s
    else
      let s := pairCount n i 0 total (pairCount n i 1 corrected (pairCount n i 2 uncorrectable s))
      let s := if (link s n).set.loopback = 2 then pairSend n i (bitsOf flit) s else s
      if !(link s n).running || hit then s
      else
        let h := wireAt flit 0 4
        let first := h % 256
        let an := h / 2 ^ 19 % 4
        let reserved := decide (an = 3) || (decide (0xF8 ≤ first) && decide (first ≤ 0xFC)) || decide (first = 0xFE)
        if flit.length ≠ 256 ∨ wireAt flit 252 4 ≠ (crc32c (flit.take 252)).toNat ∨ reserved then linkCount n 2 1 s
        else
          let s := modLink n (fun l => { l with heard := true }) s
          let s := if an = 0 then s else linkUp n s
          let s := takeAck n an (h / 2 ^ 8 % 2048) s
          let seq := h / 2 ^ 21
          if !(link s n).running then s
          else if first = 0xFD then modLink n (takeIdle seq) s
          else takeData n { seq := seq, first := first, payload := slice flit 4 248 } s)

/-- REORDER_TIMEOUT: E is still missing after t_reorder: NAK_WAIT (Table 9.5). -/
def execReorderTimeout (link' : Nat) (s : State) : Host.Outcome State Fault Refusal :=
  let n := link'
  .next (
    let l := link s n
    if l.running && !l.nakWait && (!l.ahead.isEmpty || idleAhead l) then
      linkCount n 5 1 (modLink n (fun l => { l with nakWait := true, ahead := [], idleSeq := none }) s)
    else s)

/-- RENAK_TIMEOUT: t_renak in NAK_WAIT without an in-order flit (Table 9.5). -/
def execRenakTimeout (link' : Nat) (s : State) : Host.Outcome State Fault Refusal :=
  .next (if (link s link').nakWait then linkCount link' 5 1 s else s)

/-- ACK_TIMEOUT: flit A unacknowledged for t_ack; t_ack does not run while no pair is ACTIVE (Table 9.6, R240). -/
def execAckTimeout (link' : Nat) (s : State) : Host.Outcome State Fault Refusal :=
  let n := link'
  .next (
    let l := link s n
    if l.running && !l.replay.isEmpty && l.resend.isEmpty && !(activePairs s n).isEmpty then startReplay n (linkCount n 7 1 s) else s)

/-- PROTOCOL_END: LINK_UP has cleared and the protocol ends (R242). -/
def execProtocolEnd (link' : Nat) (s : State) : Host.Outcome State Fault Refusal :=
  .next (if (link s link').ending.isSome then protoEnd link' 0 s else s)

/-! ## FLIT_SEND (R23, R230, R232, R235, R236) -/

/-- The record of the packet picked begins: its credits are consumed, and it stays in its queue until its end (R244, R262). -/
def beginPacket (s : State) (l : Link) (q : Nat) : Option Link :=
  match (waiting s false q).head? with
  | none => none
  | some k =>
    some { l with
      pkt := none, txQueue := some q, txPart := packetRecord k, txPkt := true, txTrace := traceStage s 6 k.trace, txAccept := none
      used := mmod l.used (q % 8) 0 fun u => u + BitVec.ofNat 32 (cellsOf k.bytes.length) }

/-- A TIME record carries the clock as the flit with its first byte leaves (Table 18.2). -/
def stampRecord (s : State) (r : List Byte) : List Byte :=
  if byteAt r 0 = 0x68 then slice r 0 8 ++ beBytes 8 s.tim.sec.toNat ++ beBytes 4 s.tim.ns ++ beBytes 4 s.tim.frac ++ r.drop 24 else r

/-- Begins the next record in the precedence of R23, if one is ready. -/
def beginRecord (s : State) (l : Link) : Option Link :=
  match l.ctl, l.resp, l.pkt with
  | r :: ctl, _, _ =>
    let accept := if byteAt r 0 = 0x51 ∧ byteAt r 1 = 2 then some (byteAt r 2) else none
    some { l with ctl := ctl, txPart := r, txPkt := false, txTrace := none, txAccept := accept }
  | [], r :: resp, _ => some { l with resp := resp, txPart := stampRecord s r, txPkt := false, txTrace := none, txAccept := none }
  | [], [], some q => beginPacket s l q
  | [], [], none => none

/-- A record has been placed to its last byte in the flit with SEQ `seq`: a packet waits for its acknowledgement, and a SLEEP_ACCEPT
lets its pair sleep at the next flit boundary (R242, R247). -/
def endRecord (s : State) (seq : Nat) (l : Link) : Link :=
  let l :=
    if l.txPkt then
      { l with sent := l.sent ++ [{ lastSeq := seq, trace := traceStage s 7 l.txTrace }], txPkt := false, txTrace := none, txQueue := none }
    else l
  match l.txAccept with
  | none => l
  | some i => { l with txAccept := none, pairs := mmod l.pairs i Pair.init fun p => { p with agreed := true } }

/-- Fills a payload with records back to back, then PAD: answers the payload, FIRST_REC, and the link; nothing when no record is
ready (R232). -/
def fillPayload (s : State) (seq : Nat) : Nat → List Byte → Option Nat → Link → Option (List Byte × Nat × Link)
  | 0, acc, first, l => some (acc, first.getD 0xFF, l)
  | k + 1, acc, first, l =>
    let room := 248 - acc.length
    if room = 0 then some (acc, first.getD 0xFF, l)
    else
      match l.txPart with
      | _ :: _ =>
        let m := min room l.txPart.length
        let l' := { l with txPart := l.txPart.drop m }
        fillPayload s seq k (acc ++ l.txPart.take m) first (if l'.txPart.isEmpty then endRecord s seq l' else l')
      | [] =>
        match beginRecord s l with
        | some l' => fillPayload s seq k acc (some (first.getD acc.length)) l'
        | none => if acc.isEmpty then none else some (acc ++ zeros room, first.getD acc.length, l)

/-- The first packet of ingress queue `q`, if the queue is named, has been read into flits to its end: it is counted and leaves (R262). -/
def packetOut : Option Nat → State → State
  | none, s => s
  | some q, s =>
    match (queue? s false q).bind (fun x => x.pkts.head?) with
    | none => s
    | some k => popHead false q (passCount false q k.bytes.length s)
/-- The packets whose records a flit ended are out of their ingress queues: the one in progress before it, and the one picked (R262). -/
def packetsOut (before after : Link) (s : State) : State :=
  let s := if before.txPart.length ≤ 248 then packetOut before.txQueue s else s
  if after.pkt.isNone && after.txQueue.isNone then packetOut before.pkt s else s

/-- A flit goes out on pair `i`: its bits join the pair's codewords (R228, R230). -/
def flitOut (n i : Nat) (b : List Byte) (s : State) : State := pairSend n i (bitsOf b) (modLink n (fun l => { l with lastFlit := b }) s)

/-- FLIT_SEND: at a flit boundary of an ACTIVE pair: a replayed flit, a new DATA flit while fewer than 1,024 are unacknowledged, or
IDLE. -/
def execFlitSend (n i : Nat) (s : State) : Host.Outcome State Fault Refusal :=
  .next (
    let l := link s n
    if (pair s n i).state ≠ .active ∨ !l.running ∨ stdMode s n then s
    else
      match l.resend with
      | f :: r =>
        profEvent 0x09 (linkInst n) 1 (linkCount n 8 1 (flitOut n i (flitBytes l f.seq f.first f.payload) (modLink n (fun l =>
          { l with resend := r }) s)))
      | [] =>
        let filled := if l.up && decide (l.replay.length < 1024) then fillPayload s l.next 256 [] none l else none
        match filled with
        | none => flitOut n i (flitBytes l l.next 0xFD (zeros 248)) s
        | some (payload, first, l') =>
          let f : Flit := { seq := l.next, first := first, payload := payload }
          let s := modLink n (fun _ => { l' with next := (l.next + 1) % 2048, replay := l'.replay ++ [f] }) s
          profEvent 0x07 (linkInst n) 1 (linkCount n 0 1 (flitOut n i (flitBytes l' f.seq f.first f.payload) (packetsOut l l' s))))

/-! ## Taking records -/

/-- The first delivered record of a link that satisfies `p`, and the state without it. -/
def takeRecord (n : Nat) (p : List Byte → Bool) (s : State) : Option (List Byte × State) :=
  let l := link s n
  match l.recs.find? p with
  | none => none
  | some r => some (r, modLink n (fun l => { l with recs := l.recs.erase r }) s)

/-- Runs `f` on the first record of a type, if there is one. -/
def withRecord (n : Nat) (p : List Byte → Bool) (s : State) (f : List Byte → State → State) : State :=
  match takeRecord n p s with
  | none => s
  | some (r, s) => f r s

/-- The record has this type. -/
def isType (t : Nat) (r : List Byte) : Bool := decide (byteAt r 0 = t)
/-- The record is a LINK_CTRL with this OP. -/
def isCtl (op : Nat) (r : List Byte) : Bool := isType 0x51 r && decide (byteAt r 1 = op)

/-! ## Packets from the FE (R249, R561, R269, R273, R278) -/

/-- A header check of R249 fails. -/
def headerBad (h : List Byte) : Bool :=
  decide (hdrColour h = 3) || decide (byteAt h 1 / 2 % 4 ≠ 0) || decide (64 ≤ byteAt h 6) || decide (64 ≤ byteAt h 4) ||
    decide (hdrLen h < 64) || decide (10240 < hdrLen h) ||
    (decide (hdrAction h = 1) && decide (hdrLen h < hdrOffset h + 8 + 4)) ||
    (decide (hdrAction h = 3) && decide (hdrLen h < hdrOffset h + 10 + 4))

/-- What is left of the LIMIT last advertised. -/
def creditRoom (l : Link) : Nat := let d := (l.adv - l.arrived).toNat; if d < 2 ^ 31 then d else 0

/-- A packet's credits are used by its arrival, and returned at once as admission is decided here (R245, R277). -/
def useCredits (n k : Nat) (s : State) : State :=
  modLink n (fun l => { l with arrived := l.arrived + BitVec.ofNat 32 k, freed := l.freed + BitVec.ofNat 32 k }) s

/-- DROP_CREDIT_VIOLATION, and GARNET_CREDIT_VIOLATION once per 60 s (R278). -/
def creditViolation (n : Nat) (s : State) : State :=
  let s := modLink n (fun l => { l with violations := l.violations.add 1 }) s
  let l := link s n
  let quiet := match l.violAt with
    | none => false
    | some t => decide (s.now < t + 60000000000)
  if quiet then s
  else post 0x3008 1 (linkObj n 0) (l.violations.val.toNat % 2 ^ 32) (modLink n (fun l => { l with violAt := some s.now }) s)

/-- Egress admission (R269, R272, R273). -/
def egressAdmit (q draw : Nat) (room : List Nat) (hdr l : List Byte) (t : Option Trace) (s : State) : State :=
  match queue? s true q with
  | none => s
  | some x0 =>
    let p := profile s x0.prof
    let s := wredArrive p true q s
    let x := (queue? s true q).getD x0
    let n := l.length
    let t := traceStage s 2 t
    match admitWhole s p x n with
    | .drop k => dropCause true q n k (k + 1) t s
    | .take spill r m =>
      let put := fun (b : List Byte) (s : State) => enqueue true q spill r m room { Pkt.init with bytes := b, header := hdr, trace := t } s
      if !wredPicks s p x (hdrColour hdr) draw then put l s
      else if p.ecn && hdrEcn hdr && markable l then put (markEcn l) (causeCount (eqPort s q) true 8 1 s)
      else dropCause true q n 2 3 t s

/-- The egress direction admits packets: not in QUIESCE, nor on a detached queue, whose port does not exist or is being deleted (R285,
R479). -/
def egressRuns' (s : State) (q : Nat) : Bool :=
  decide (s.boot.state = .active) &&
    match port? s (eqPort s q) with
    | none => false
    | some p => !p.deleting

/-- A packet from the FE passes the checks of R561 in order. -/
def packetArrives (n draw tagDraw : Nat) (room : List Nat) (r : List Byte) (s : State) : State :=
  let h := r.take 16
  let len := hdrLen h
  let k := cellsOf len
  let q := hdrEq h
  let left := creditRoom (link s n)
  let t := match queue? s true q with
    | none => none
    | some _ => traceTag s true (eqPort s q) q len (BitVec.ofNat 32 (hdrMeta h)) tagDraw
  if headerBad h then linkCount n 10 1 (useCredits n (min k left) s)
  else if left < k then traceWrite t 7 (creditViolation n s)
  else
    let s := useCredits n k s
    if (queue? s true q).isNone then linkCount n 11 1 s
    else if !egressRuns' s q then dropCause true q len 7 8 (traceStage s 2 t) s
    else egressAdmit q draw room h (r.drop 16) t s

/-- PACKET_RECORD_RECEIVE. -/
def execPacketRecordReceive (link' draw tagDraw : Nat) (room : List Nat) (s : State) : Host.Outcome State Fault Refusal :=
  .next (withRecord link' (isType 0x11) s (packetArrives link' draw tagDraw room))

/-! ## Lookup requests (R252, R310) -/

/-- LOOKUP_REQ_RECEIVE: a request whose tag is in flight is discarded; otherwise it joins the link's input queue. -/
def execLookupReqReceive (link' : Nat) (s : State) : Host.Outcome State Fault Refusal :=
  let n := link'
  .next (withRecord n (isType 0x21) s fun r s =>
    let tag := wireAt r 2 2 % 1024
    if mhas (link s n).lookups tag then linkCount n 15 1 s
    else
      let t := byteAt r 4
      let s := if (table? s t).isSome then profEvent 0x0A t 1 s else s
      modLink n (fun l => { l with lookups := mput l.lookups tag { Lookup.init with req := r, table := t }, inq := l.inq ++ [tag] }) s)

/-! ## Credits (R243 to R246, R277) -/

/-- One LIMIT of a CREDIT record: ignored when it lies behind; an advance ends the pool's stall. -/
def takeLimit (i : Nat) (v : BitVec 32) (l : Link) : Link :=
  let old := mget l.limit i 0
  if 2 ^ 31 ≤ (v - old).toNat then l
  else { l with limit := mput l.limit i v, stalls := if v = old then l.stalls else l.stalls.filter (· ≠ i) }

/-- CREDIT_RECEIVE. -/
def execCreditReceive (link' : Nat) (s : State) : Host.Outcome State Fault Refusal :=
  let n := link'
  .next (withRecord n (isType 0x41) s fun r s =>
    modLink n (fun l =>
      let l := (List.range 8).foldl (fun l i =>
        if bitOf (byteAt r 1) i then takeLimit i (BitVec.ofNat 32 (wireAt r (4 + 4 * i) 4)) l else l) l
      { l with credSeen := true }) s)

/-- CREDIT_ADVERTISE: the pool-0 LIMIT, which runs at most the link's share ahead of what has been freed, never goes back, and does
not advance from the start of a POWER_STATE to QUIESCE (R245, R277, R478). -/
def execCreditAdvertise (link' : Nat) (s : State) : Host.Outcome State Fault Refusal :=
  let n := link'
  .next (
    if 64 ≤ n ∨ !(link s n).up then s
    else
      modLink n (fun l =>
        let v := l.freed + BitVec.ofNat 32 l.set.credits
        let v := if ingressRuns s && decide ((v - l.adv).toNat < 2 ^ 31) then v else l.adv
        { l with adv := v, ctl := l.ctl ++ [[0x41, 1, 0, 0] ++ beBytes 4 v.toNat ++ zeros 32] }) s)

/-! ## Link control (R247, R209) -/

/-- A LINK_CTRL record. -/
def ctlRecord (op i : Nat) (data : List Byte) : List Byte := [0x51, BitVec.ofNat 8 op, BitVec.ofNat 8 i, 0] ++ data

/-- Sleep on a pair is agreed at this end: it enters at the next flit boundary (R247). -/
def agreeSleep (n i : Nat) (s : State) : State :=
  if (pair s n i).state = .active then modPair n i (fun p => { p with agreed := true }) s else s

/-- SLEEP_PROPOSE_RECEIVE: crossing proposals of one pair agree; otherwise the device answers under R209. -/
def execSleepProposeReceive (link' tx rx : Nat) (s : State) : Host.Outcome State Fault Refusal :=
  let n := link'
  .next (withRecord n (isCtl 1) s fun r s =>
    let i := byteAt r 2
    let l := link s n
    if l.propose = some i then agreeSleep n i (modLink n (fun l => { l with propose := none }) s)
    else
      let ok := lpiOn s n && decide (highestActive s n = some i) && decide (effMin s n ≤ (activePairs s n).length - 1) && !growMet s n tx rx
      modLink n (fun l => { l with ctl := l.ctl ++ [ctlRecord (if ok then 2 else 3) i (zeros 4)] }) s)

/-- SLEEP_ACCEPT_RECEIVE: the answer to an open proposal; a late one is ignored. -/
def execSleepAcceptReceive (link' : Nat) (s : State) : Host.Outcome State Fault Refusal :=
  let n := link'
  .next (withRecord n (isCtl 2) s fun r s =>
    let i := byteAt r 2
    if (link s n).propose = some i then agreeSleep n i (modLink n (fun l => { l with propose := none }) s) else s)

/-- SLEEP_REFUSE_RECEIVE: the proposal ends without sleep. -/
def execSleepRefuseReceive (link' : Nat) (s : State) : Host.Outcome State Fault Refusal :=
  let n := link'
  .next (withRecord n (isCtl 3) s fun r s =>
    if (link s n).propose = some (byteAt r 2) then modLink n (fun l => { l with propose := none }) s else s)

/-- SLEEP_PROPOSE_TIMEOUT: a proposal not answered within 4 us is abandoned. -/
def execSleepProposeTimeout (link' : Nat) (s : State) : Host.Outcome State Fault Refusal :=
  .next (modLink link' (fun l => { l with propose := none }) s)

/-- ECHO_REQ_RECEIVE: answered with the same DATA ahead of every record but CREDIT and LINK_CTRL. -/
def execEchoReqReceive (link' : Nat) (s : State) : Host.Outcome State Fault Refusal :=
  let n := link'
  .next (withRecord n (isCtl 4) s fun r s => modLink n (fun l => { l with ctl := l.ctl ++ [ctlRecord 5 0 (slice r 4 4)] }) s)

/-- ECHO_RESP_RECEIVE: on the Geode link it closes the measurement of the round trip, half of which is the one-way delay (R471);
on a Garnet link the device has sent no request. -/
def execEchoRespReceive (link' : Nat) (s : State) : Host.Outcome State Fault Refusal :=
  let n := link'
  .next (withRecord n (isCtl 5) s fun _ s =>
    match s.geo.echoAt with
    | none => s
    | some t => if n = geodeLink then s.mapGeo fun g => { g with echoAt := none, oneWay := (s.now - t) / 2 } else s)

/-! ## Outer frames (R254, R255) -/

/-- The records of an outer frame, or none when one extends past its end. A record that cannot be measured ends the list. -/
def outerRecords (s : State) (n : Nat) : Nat → List Byte → Option (List (List Byte))
  | 0, _ => some []
  | k + 1, b =>
    match b with
    | [] => some []
    | _ :: _ =>
      match recSize s n b with
      | .more => none
      | .len m => if b.length < m then none else (outerRecords s n k (b.drop m)).map (b.take m :: ·)
      | .pad => some [b]
      | .bad => some [b]

/-- One record of an outer frame. -/
def outerRecord (n : Nat) (b : List Byte) (s : State) : State :=
  match recSize s n b with
  | .len _ => deliverRecord n b s
  | .pad => if allZero b then s else linkCount n 9 1 s
  | _ => linkCount n 9 1 s

/-- OUTER_FRAME_RECEIVE: in FAR what the acquired receive pairs bring goes back on the transmit pairs (R220); a frame with a wrong FCS, another EtherType or a record past its end is discarded whole; so is one longer than
10,274 bytes (log 23). -/
def execOuterFrameReceive (link' : Nat) (frame : List Byte) (s : State) : Host.Outcome State Fault Refusal :=
  let n := link'
  .next (
    if !stdMode s n then s
    else if (link s n).set.loopback = 2 then
      if (pair s n 2).state = .stdAcquired ∧ (pair s n 3).state = .stdAcquired then modLink n (fun l => { l with lastOuter := frame }) s else s
    else if !(link s n).running then s
    else
      let body := slice frame 14 (frame.length - 18)
      match outerRecords s n body.length body with
      | none => linkCount n 17 1 s
      | some recs =>
        if 10274 < frame.length ∨ !fcsOk frame ∨ wireAt frame 12 2 ≠ s.gar.etherType.toNat then linkCount n 17 1 s
        else recs.foldl (fun s b => outerRecord n b s) s)

/-- The records that fit an outer frame of at most 1,518 bytes, and those left (R255). -/
def fitRecords : List (List Byte) → Nat → List (List Byte) × List (List Byte)
  | [], _ => ([], [])
  | r :: l, room =>
    if r.length ≤ room then
      let p := fitRecords l (room - r.length)
      (r :: p.1, p.2)
    else ([], r :: l)

/-- OUTER_FRAME_CLOSE: a frame of ready records other than packets, control before lookup responses (R23, R255). -/
def execOuterFrameClose (link' : Nat) (s : State) : Host.Outcome State Fault Refusal :=
  let n := link'
  .next (
    let l := link s n
    if !stdMode s n || !l.up || (l.ctl.isEmpty && l.resp.isEmpty) then s
    else
      let p := fitRecords (l.ctl ++ l.resp) 1500
      let k := p.1.length
      sendOuter n p.1.flatten (modLink n (fun l => { l with ctl := l.ctl.drop k, resp := l.resp.drop (k - l.ctl.length) }) s))

end Sys2Proof.Machine
end

