-- ==== Sys2Proof/Machine/TmCmds.lean ====
section
/-! DEFINITION. The traffic-manager commands: buffer, profiles, WRED, classification, ingress queues, memory settings,
their status, and the scheduler nodes (R416, R418 to R424). A command that the Geode primary mirrors is split into its
checks of steps 3 and 4 and its body, so that the secondary applies it without the check of R416 (R470). -/
namespace Sys2Proof.Machine

/-- R416: the command is refused to the Geode secondary, but not when it is mirrored. -/
def roleBad (mir : Bool) (s : State) : Bool := !mir && isSecondary s

/-! ## Buffer, profiles, WRED (R418, Table 16.2) -/

/-- Checks of BUFFER_SET. -/
def bufferSetPre (c : Cmd) (_ : State) : Option Status :=
  let v := c.byte 32
  firstFail [
    (plainBad c 0 7 || decide (31 < v) || c.optBad v 0 33 1 0 0x80 || c.optBad v 1 34 1 0x10 0x80 || c.optBad v 2 35 1 0 0x80 ||
      c.optBad v 3 36 2 0 0x3C0 || c.optBad v 4 38 1 0 1, .invalidField)]

/-- The sum of the LINK_CREDITS shares of the 64 links (R260, R277). -/
def shareSum (s : State) : Nat := (List.range 64).foldl (fun n i => n + (link s i).set.credits) 0

/-- The effect of BUFFER_SET (R260, R262). -/
def bufferSetBody (mir : Bool) (c : Cmd) (s : State) : Ran :=
  let v := c.byte 32
  let ing := c.opt v 0 33 1 s.buf.ingReserve
  let land := c.opt v 1 34 1 s.buf.egrLanding
  let mn := c.opt v 2 35 1 s.buf.egrMinPool
  if roleBad mir s then .fail .permission s
  else if (sel v 0 || sel v 1 || sel v 2) && !s.ports.tab.isEmpty &&
      !(mir && decide ((ing, land, mn) = (s.buf.ingReserve, s.buf.egrLanding, s.buf.egrMinPool))) then .fail .busy s
  else if land * 1024 < shareSum s ∨ qminFits (profile s) s.buf.iq s.buf.eq ing mn = false then .fail .noResource s
  else .ok (s.mapBuf fun b =>
    { b with
      ingReserve := ing, egrLanding := land, egrMinPool := mn
      hwm := c.opt v 3 36 2 b.hwm
      spillEn := if sel v 4 then bitOf (c.byte 38) 0 else b.spillEn })

/-- BUFFER_SET. -/
def execBufferSet (id : Nat) (s : State) : Host.Outcome State Fault Refusal :=
  .next (runCmd id 0x40 bufferSetPre (bufferSetBody false) s)

/-- Checks of PROFILE_SET. -/
def profileSetPre (c : Cmd) (_ : State) : Option Status :=
  let v := c.byte 32
  firstFail [
    (plainBad c 1023 13 || decide (127 < v) || decide (c.byte 33 ≠ 0) || c.optBad v 1 36 4 1 0x1000000 || c.optBad v 2 40 1 0 10 ||
      c.optBad v 5 41 1 0 3 || decide (3 < c.byte 44), .invalidField)]

/-- The effect of PROFILE_SET: R262 is checked against every queue that uses the profile. -/
def profileSetBody (mir : Bool) (c : Cmd) (s : State) : Ran :=
  let v := c.byte 32
  let o := profile s c.target
  let p : Profile := {
    qmin := c.opt v 0 34 2 o.qmin, qmax := c.opt v 1 36 4 o.qmax, alpha := c.opt v 2 40 1 o.alpha
    odThresh := c.opt v 3 42 2 o.odThresh
    spill := if sel v 4 then bitOf (c.byte 44) 0 else o.spill
    wred := c.opt v 5 41 1 o.wred
    ecn := if sel v 6 then bitOf (c.byte 44) 1 else o.ecn }
  let pr := fun n => if n = c.target then p else profile s n
  if roleBad mir s then .fail .permission s
  else if !qminFits pr s.buf.iq s.buf.eq s.buf.ingReserve s.buf.egrMinPool then .fail .noResource s
  else .ok (s.mapBuf fun b => { b with profiles := mput b.profiles c.target p })

/-- PROFILE_SET. -/
def execProfileSet (id : Nat) (s : State) : Host.Outcome State Fault Refusal :=
  .next (runCmd id 0x41 profileSetPre (profileSetBody false) s)

/-- The curve of colour `k` in WRED_SET, if selected. -/
def wredCurve (c : Cmd) (k : Nat) (old : Nat × Nat × Nat) : Nat × Nat × Nat :=
  if sel (c.byte 32) (1 + k) then (c.byte (34 + 3 * k), c.byte (35 + 3 * k), c.byte (36 + 3 * k)) else old

/-- Checks of WRED_SET (R272). -/
def wredSetPre (c : Cmd) (_ : State) : Option Status :=
  let v := c.byte 32
  let bad := fun k => sel v (1 + k) && decide (c.byte (35 + 3 * k) ≤ c.byte (34 + 3 * k))
  firstFail [(plainBad c 2 11 || decide (15 < v) || c.optBad v 0 33 1 0 15 || bad 0 || bad 1 || bad 2, .invalidField)]

/-- The effect of WRED_SET. -/
def wredSetBody (mir : Bool) (c : Cmd) (s : State) : Ran :=
  let o := mget s.buf.wred c.target Wred.init
  let old := fun k => (o.curves[k]?).getD (0, 0, 0)
  let w : Wred := { w := c.opt (c.byte 32) 0 33 1 o.w, curves := [wredCurve c 0 (old 0), wredCurve c 1 (old 1), wredCurve c 2 (old 2)] }
  if roleBad mir s then .fail .permission s
  else .ok (s.mapBuf fun b => { b with wred := mput b.wred c.target w })

/-- WRED_SET. -/
def execWredSet (id : Nat) (s : State) : Host.Outcome State Fault Refusal :=
  .next (runCmd id 0x42 wredSetPre (wredSetBody false) s)

/-- Checks of CLASSIFY_SET. -/
def classifySetPre (c : Cmd) (_ : State) : Option Status :=
  let v := c.byte 32
  firstFail [
    (shapeBad c 255 4 || decide (7 < v) || c.optBad v 0 33 1 0 3 || c.optBad v 1 34 1 0 7 || c.optBad v 1 35 1 0 2 ||
      decide (c.indLen ≠ if sel v 2 then 64 else 0), .invalidField)]

/-- The indirect data of a command: what the CONFIG record carries where it is mirrored, read from host memory otherwise. -/
def withData (mir : Bool) (c : Cmd) (len : Nat) (host : HostRead) (s : State) (k : List Byte → Ran) : Ran :=
  if mir then k ((c.data ++ zeros len).take len) else withHost c len host s k

/-- The effect of CLASSIFY_SET (R274): a map entry with colour 3, or above 5 bits, is reserved. -/
def classifySetBody (mir : Bool) (host : HostRead) (c : Cmd) (s : State) : Ran :=
  let v := c.byte 32
  let put := fun (mp : List Nat → List Nat) =>
    let o := mget s.buf.classify c.target Classify.init
    let x : Classify := { trust := c.opt v 0 33 1 o.trust, cls := c.opt v 1 34 1 o.cls, colour := c.opt v 1 35 1 o.colour, map := mp o.map }
    Ran.ok (s.mapBuf fun b => { b with classify := mput b.classify c.target x })
  if roleBad mir s then .fail .permission s
  else if sel v 2 then
    withData mir c 64 host s fun bytes =>
      let m := bytes.map (·.toNat)
      if m.any (fun e => decide (31 < e) || decide (e % 4 = 3)) then .fail .invalidField s else put fun _ => m
  else put fun m => m

/-- Keeps the indirect data of a command that the primary mirrors (R469). -/
def keepData (id : Nat) (host : HostRead) (s : State) : State :=
  match host with
  | .data b => modCmd id (fun c => { c with data := b }) s
  | .error => s
  | .timeout => s

/-- CLASSIFY_SET. -/
def execClassifySet (id : Nat) (host : HostRead) (s : State) : Host.Outcome State Fault Refusal :=
  .next (runCmd id 0x43 classifySetPre (fun c s => classifySetBody false host c (keepData id host s)) s)

/-- Checks of IQ_SET. -/
def iqSetPre (c : Cmd) (s : State) : Option Status :=
  firstFail [
    (plainBad c 2047 2 || decide (1023 < c.inl 32 2), .invalidField),
    ((queue? s false c.target).isNone, .objectNotFound)]

/-- The effect of IQ_SET (R261, R262). -/
def iqSetBody (mir : Bool) (c : Cmd) (s : State) : Ran :=
  let iq := match queue? s false c.target with
    | none => s.buf.iq
    | some q => mput s.buf.iq c.target { q with prof := c.inl 32 2 }
  if roleBad mir s then .fail .permission s
  else if !qminFits (profile s) iq s.buf.eq s.buf.ingReserve s.buf.egrMinPool then .fail .noResource s
  else .ok (s.mapBuf fun b => { b with iq := iq })

/-- IQ_SET. -/
def execIqSet (id : Nat) (s : State) : Host.Outcome State Fault Refusal := .next (runCmd id 0x44 iqSetPre (iqSetBody false) s)

/-! ## MEMORY_SET (R326, R349) -/

/-- BUDGET[k] of MEMORY_SET. -/
def budgetField (c : Cmd) (k : Nat) : Nat := c.inl 44 18 / 2 ^ (20 * k) % 2 ^ 20

/-- Checks of MEMORY_SET (Table 13.2). -/
def memorySetPre (c : Cmd) (_ : State) : Option Status :=
  let v := c.inl 32 4
  let bad := fun k => sel v (5 + k) && (decide (budgetField c k = 0) || decide (1000000 < budgetField c k))
  firstFail [
    (plainBad c 0 30 || decide (4095 < v) || decide (c.byte 39 ≠ 0) || c.optBad v 0 36 1 0 0x20 || c.optBad v 1 37 1 1 0xA8 ||
      c.optBad v 2 38 1 1 0xA8 || (List.range 7).any bad || decide (15 < c.byte 61), .invalidField)]

/-- Every HBM region has INIT_DONE. -/
def hbmReady (s : State) : Bool := [65, 66, 67, 68].all (initDone s)

/-- The effect of MEMORY_SET: a new partition is in force at once, or once every stack has INIT_DONE (Table 13.8). -/
def memorySetBody (mir : Bool) (c : Cmd) (s : State) : Ran :=
  let v := c.inl 32 4
  if roleBad mir s then .fail .permission s
  else if sel v 0 && (!s.ports.tab.isEmpty || many s.tbl.tables fun _ t => t.hbm) &&
      !(mir && decide (c.byte 36 = s.mem.partNext)) then .fail .busy s
  else
    let part := c.opt v 0 36 1 s.mem.partNext
    let now := hbmReady s
    let bud := s.mem.budget.mapIdx fun k b => if sel v (5 + k) then budgetField c k else b
    .ok (s.mapMem fun m =>
      { m with
        partNext := part, part := if now then part else m.part
        scrubOd := c.opt v 1 37 1 m.scrubOd, scrubHbm := c.opt v 2 38 1 m.scrubHbm
        ceOd := c.opt v 3 40 2 m.ceOd, ceHbm := c.opt v 4 42 2 m.ceHbm
        budget := bud })

/-- MEMORY_SET. -/
def execMemorySet (id : Nat) (s : State) : Host.Outcome State Fault Refusal :=
  .next (runCmd id 0x45 memorySetPre (memorySetBody false) s)

/-! ## Status (R419, R420) -/

/-- Cells of the landing area that packets from the FE hold until their admission (R277). -/
def landingUsed (s : State) : Nat :=
  s.gar.links.foldl (fun n l => l.2.recs.foldl (fun n r => if byteAt r 0 = 0x11 then n + cellsOf (hdrLen r) else n) n) 0

/-- The 64 bytes of levels (R419). -/
def bufferLevels (s : State) : List Byte :=
  leBytes 4 (ondieOccupancy s) ++ leBytes 4 (sharedFree s) ++ leBytes 4 (sumOver s.buf.iq Queue.reserved) ++
    leBytes 4 (sumOver s.buf.eq Queue.reserved) ++ leBytes 4 (landingUsed s) ++ leBytes 4 (stagingUsed s) ++
    leBytes 4 (prefetchUsed s) ++ leBytes 4 (freePages s) ++ leBytes 4 (totalPages s) ++ leBytes 1 (b2n (spillEnabled s)) ++ zeros 27

/-- BUFFER_STATUS (R419). -/
def execBufferStatus (id : Nat) (s : State) : Host.Outcome State Fault Refusal :=
  .next (runCmd id 0x46
    (fun c _ => firstFail [
      (if c.target = 0x100 then blockBad c 0x100 64
       else decide (255 < c.target) || decide (c.indLen < 72) || decide (1 < c.byte 32) || !c.inlZero 33 30 || clearWrapBad c,
       .invalidField)])
    (fun c s =>
      if c.target = 0x100 then withBlock c (bufferLevels s) s (fun s => s)
      else
        let k := c.target * 2 + c.byte 32
        let m := mget s.buf.causes k []
        withBlock c (ctrBlock m 9) s fun s =>
          if clearWrapOn c then s.mapBuf fun b => { b with causes := mmod b.causes k [] ctrClearWrap } else s) s)

/-- QUEUE_STATUS (R420). -/
def execQueueStatus (id : Nat) (s : State) : Host.Outcome State Fault Refusal :=
  let eg := fun (c : Cmd) => decide (c.target < 2 ^ 31)
  let q := fun (c : Cmd) => c.target % 2 ^ 31
  .next (runCmd id 0x47
    (fun c s => firstFail [
      (decide ((if eg c then 131071 else 2047) < q c) || decide (c.indLen < 64) || !c.inlZero 32 31 || clearWrapBad c, .invalidField),
      ((queue? s (eg c) (q c)).isNone, .objectNotFound)])
    (fun c s =>
      let x := (queue? s (eg c) (q c)).getD Queue.init
      let block := leBytes 4 x.depth ++ leBytes 4 x.hbm ++ leBytes 4 (x.avg.1 / 2 ^ x.avg.2) ++ leBytes 2 x.prof ++ zeros 2 ++
        ctrBlock x.ctr 4 ++ zeros 16
      withBlock c block s fun s =>
        if clearWrapOn c then modQueue (eg c) (q c) (fun x => { x with ctr := ctrClearWrap x.ctr }) s else s) s)

/-! ## Scheduler nodes (R284 to R288, R296, R297, R421 to R424) -/

/-- The nodes of a tier. -/
def tierSize (t : Nat) : Nat := if t = 0 then 256 else if t = 1 then 4096 else if t = 2 then 16384 else if t = 3 then 65536 else 131072
/-- A TARGET names no channel, group, subscriber or queue (Table 16.3). -/
def nodeTargetBad (t : Nat) : Bool := decide (tierOf t < 1) || decide (4 < tierOf t) || decide (tierSize (tierOf t) ≤ numberOf t)

/-- The fields of Table 16.4, read from bytes 32 to 63 of an entry. -/
structure NodeFields where
  /-- VALID. -/
  valid : Nat
  /-- PARENT. -/
  parent : Nat
  /-- PRIO. -/
  prio : Nat
  /-- OVERHEAD as carried. -/
  overhead : Nat
  /-- WEIGHT. -/
  weight : Nat
  /-- PROFILE. -/
  prof : Nat
  /-- CIR. -/
  cir : Nat
  /-- PIR. -/
  pir : Nat
  /-- CBS. -/
  cbs : Nat
  /-- PBS. -/
  pbs : Nat
  /-- Bytes 60 to 63 are zero. -/
  tailZero : Bool
deriving DecidableEq, Repr

/-- Reads the 32 bytes of Table 16.4. -/
def nodeFields (b : List Byte) : NodeFields :=
  { valid := fieldAt b 0 4, parent := fieldAt b 4 2, prio := fieldAt b 6 1, overhead := fieldAt b 7 1, weight := fieldAt b 8 2
    prof := fieldAt b 10 2, cir := fieldAt b 12 4, pir := fieldAt b 16 4, cbs := fieldAt b 20 4, pbs := fieldAt b 24 4
    tailZero := allZero (slice b 28 4) }

/-- A selected field is outside its encoding (Table 11.2). -/
def fieldsBad (tier v : Nat) (f : NodeFields) : Bool :=
  (sel v 0 && decide (tierSize (tier - 1) ≤ f.parent)) || (sel v 1 && decide (7 < f.prio)) ||
    (sel v 2 && (decide (f.weight = 0) || decide (1023 < f.weight))) || (sel v 3 && decide (0xBEBC200 < f.cir)) ||
    (sel v 4 && decide (0xBEBC200 < f.pir)) || (sel v 5 && (decide (f.cbs < 0xA0) || decide (0x40000 < f.cbs))) ||
    (sel v 6 && (decide (f.pbs < 0xA0) || decide (0x40000 < f.pbs))) || (sel v 7 && decide (127 < f.overhead)) ||
    (sel v 8 && decide (1023 < f.prof)) || !f.tailZero

/-- CIR and PIR are both set and CIR exceeds PIR (R287). -/
def ratesBad (cir pir : Nat) : Bool := decide (cir ≠ 0) && decide (pir ≠ 0) && decide (pir < cir)

/-- The parent that a node would have does not exist (R284). -/
def parentMissing (s : State) (t parent : Nat) : Bool :=
  decide (tierOf t ≠ 1) && (node? s ((tierOf t - 1) * 2 ^ 28 + parent)).isNone

/-- The bytes 32 to 63 of a command. -/
def inlBytes (c : Cmd) : List Byte := slice c.entry 32 32

/-- Checks of NODE_CREATE: every field is read and VALID is ignored (R422). -/
def nodeCreatePre (c : Cmd) (s : State) : Option Status :=
  let f := nodeFields (inlBytes c)
  firstFail [
    (nodeTargetBad c.target || decide (c.indLen ≠ 0) || fieldsBad (tierOf c.target) 0x1FF f || ratesBad f.cir f.pir ||
      (decide (tierOf c.target ≠ 4) && decide (f.prof ≠ 0)), .invalidField),
    ((node? s c.target).isSome, .objectExists),
    (parentMissing s c.target f.parent, .objectNotFound)]

/-- The effect of NODE_CREATE (R284, R288, R262). -/
def nodeCreateBody (mir : Bool) (c : Cmd) (s : State) : Ran :=
  let f := nodeFields (inlBytes c)
  let n : Node := { Node.init with
    parent := f.parent, prio := f.prio, weight := f.weight, cir := f.cir, pir := f.pir, cbs := f.cbs, pbs := f.pbs
    overhead := signed 7 f.overhead, cTok := bucketSize f.cbs, pTok := bucketSize f.pbs, filledAt := s.now }
  let q := { Queue.init with prof := f.prof, emptyAt := s.now }
  let eq := if tierOf c.target = 4 then mput s.buf.eq (numberOf c.target) q else s.buf.eq
  if roleBad mir s then .fail .permission s
  else if !qminFits (profile s) s.buf.iq eq s.buf.ingReserve s.buf.egrMinPool then .fail .noResource s
  else .ok ((s.mapSched fun x => { x with nodes := mput x.nodes c.target n }).mapBuf fun b => { b with eq := eq })

/-- NODE_CREATE. -/
def execNodeCreate (id : Nat) (s : State) : Host.Outcome State Fault Refusal :=
  .next (runCmd id 0x50 nodeCreatePre (nodeCreateBody false) s)

/-- Frames chosen and not started whose path goes through node `t` are chosen anew (R297). -/
def unchoose (t : Nat) (s : State) : State :=
  s.mapSched fun x => { x with chosen := x.chosen.filter fun c => !c.2.path.any fun p => decide (p.1 = t) }

/-- Checks of NODE_DELETE. -/
def nodeDeletePre (c : Cmd) (s : State) : Option Status :=
  firstFail [
    (nodeTargetBad c.target || !noFields c, .invalidField),
    ((node? s c.target).isNone, .objectNotFound)]

/-- The effect of NODE_DELETE: a queue's packets are flushed (R284, R282). -/
def nodeDeleteBody (mir : Bool) (c : Cmd) (s : State) : Ran :=
  if roleBad mir s then .fail .permission s
  else if childrenOf s c.target ≠ [] then .fail .busy s
  else
    let s := unchoose c.target s
    let s := if tierOf c.target = 4 then flushQueue true (numberOf c.target) s else s
    let s := if tierOf c.target = 4 then s.mapBuf fun b => { b with eq := mdel b.eq (numberOf c.target) } else s
    .ok (s.mapSched fun x => { x with nodes := mdel x.nodes c.target })

/-- NODE_DELETE. -/
def execNodeDelete (id : Nat) (s : State) : Host.Outcome State Fault Refusal :=
  .next (runCmd id 0x51 nodeDeletePre (nodeDeleteBody false) s)

/-- A bucket after a change of its rate from `r` to `r'` and of its size to `size` (R296). -/
def bucketSet (tok : Int) (r r' size : Nat) : Int :=
  if r = 0 ∧ r' ≠ 0 then bucketSize size else min (bucketSize size) tok

/-- A node after the selected changes (R296). Its tags are kept by its parent, so a node that moves has none yet with its new one and
competes there with V, as a child that becomes ready does (R292, R297; DEDUCED, log 33). -/
def Node.change (n : Node) (f : NodeFields) (v : Nat) : Node :=
  let cir := if sel v 3 then f.cir else n.cir
  let pir := if sel v 4 then f.pir else n.pir
  let cbs := if sel v 5 then f.cbs else n.cbs
  let pbs := if sel v 6 then f.pbs else n.pbs
  { n with
    parent := if sel v 0 then f.parent else n.parent
    prio := if sel v 1 then f.prio else n.prio
    weight := if sel v 2 then f.weight else n.weight
    overhead := if sel v 7 then signed 7 f.overhead else n.overhead
    cir := cir, pir := pir, cbs := cbs, pbs := pbs
    tags := if sel v 0 && decide (f.parent ≠ n.parent) then [] else n.tags
    cTok := bucketSet n.cTok n.cir cir cbs, pTok := bucketSet n.pTok n.pir pir pbs }

/-- The checks of a change of node `t` that need no state (R422). -/
def nodeSetBad (t : Nat) (f : NodeFields) : Bool :=
  nodeTargetBad t || decide (511 < f.valid) || fieldsBad (tierOf t) f.valid f || (decide (tierOf t ≠ 4) && sel f.valid 8)

/-- The other checks of a change: the node, its parent, and after step 4 the rates as they would be (R380, R422). -/
def nodeSetCheck (t : Nat) (f : NodeFields) (s : State) : Option Status :=
  match node? s t with
  | none => some .objectNotFound
  | some n =>
    let m := n.change f f.valid
    firstFail [
      (sel f.valid 0 && parentMissing s t f.parent, .objectNotFound),
      (ratesBad m.cir m.pir, .invalidField)]

/-- Applies a checked change, or says that R262 refuses it. -/
def nodeSetApply (t : Nat) (f : NodeFields) (s : State) : Option State :=
  let eq := if sel f.valid 8 then mmod s.buf.eq (numberOf t) Queue.init fun q => { q with prof := f.prof } else s.buf.eq
  if !qminFits (profile s) s.buf.iq eq s.buf.ingReserve s.buf.egrMinPool then none
  else
    let s := if sel f.valid 0 then unchoose t s else s
    some (modNode t (fun n => n.change f f.valid) (s.mapBuf fun b => { b with eq := eq }))

/-- Checks of NODE_SET. -/
def nodeSetPre (c : Cmd) (s : State) : Option Status :=
  let f := nodeFields (inlBytes c)
  if nodeSetBad c.target f || decide (c.indLen ≠ 0) then some .invalidField else nodeSetCheck c.target f s

/-- The effect of NODE_SET. -/
def nodeSetBody (mir : Bool) (c : Cmd) (s : State) : Ran :=
  if roleBad mir s then .fail .permission s
  else
    match nodeSetApply c.target (nodeFields (inlBytes c)) s with
    | none => .fail .noResource s
    | some s' => .ok s'

/-- NODE_SET. -/
def execNodeSet (id : Nat) (s : State) : Host.Outcome State Fault Refusal :=
  .next (runCmd id 0x52 nodeSetPre (nodeSetBody false) s)

/-- The entries of a batch applied in order; answers the index and status of the first that fails (R423). -/
def batchRun : Nat → List Nat → List (List Byte) → State → State ⊕ (Nat × Status)
  | _, _, [], s => .inl s
  | i, seen, e :: r, s =>
    let t := fieldAt e 0 4
    let f := nodeFields (slice e 8 32)
    if fieldAt e 4 4 ≠ 0 ∨ nodeSetBad t f = true ∨ seen.contains t = true then .inr (i, .invalidField)
    else
      match nodeSetCheck t f s with
      | some st => .inr (i, st)
      | none =>
        match nodeSetApply t f s with
        | none => .inr (i, .noResource)
        | some s' => batchRun (i + 1) (t :: seen) r s'

/-- Checks of NODE_BATCH. -/
def nodeBatchPre (c : Cmd) (_ : State) : Option Status :=
  let n := c.inl 32 2
  firstFail [(shapeBad c 0 2 || decide (n = 0) || decide (256 < n) || decide (c.indLen ≠ 40 * n), .invalidField)]

/-- The effect of NODE_BATCH: all of its entries, or none with the index of the one that fails in RESULT0. -/
def nodeBatchBody (mir : Bool) (host : HostRead) (c : Cmd) (s : State) : Ran :=
  let n := c.inl 32 2
  if roleBad mir s then .fail .permission s
  else
    withData mir c (40 * n) host s fun bytes =>
      match batchRun 0 [] ((List.range n).map fun i => slice bytes (40 * i) 40) s with
      | .inl s' => .ok s'
      | .inr (i, st) => { Ran.fail st s with r0 := BitVec.ofNat 64 i }

/-- NODE_BATCH. -/
def execNodeBatch (id : Nat) (host : HostRead) (s : State) : Host.Outcome State Fault Refusal :=
  .next (runCmd id 0x53 nodeBatchPre (fun c s => nodeBatchBody false host c (keepData id host s)) s)

/-- A bucket's level in bytes as NODE_STATUS reports it: signed, rounded down, zero when not used (R424). -/
def bucketBytes (rate : Nat) (tok : Int) : Nat := if rate = 0 then 0 else unsigned 32 (tok / 1000000)

/-- NODE_STATUS (R424). -/
def execNodeStatus (id : Nat) (s : State) : Host.Outcome State Fault Refusal :=
  .next (runCmd id 0x54
    (fun c s => firstFail [
      (decide (4 < tierOf c.target) || decide (tierSize (tierOf c.target) ≤ numberOf c.target) || !noFields c, .invalidField),
      (decide (tierOf c.target ≠ 0) && (node? s c.target).isNone, .objectNotFound)])
    (fun c s =>
      let t := c.target
      let n := nodeNow s t
      let kids := (childrenOf s t).length * 2 ^ 20
      let rdy := b2n (nodeReady s 5 t) * 4
      if tierOf t = 0 then { Ran.ok s with r1 := BitVec.ofNat 64 (rdy + kids) }
      else
        let det := b2n ((port? s (above s (tierOf t) t)).isNone) * 8
        { Ran.ok s with
          r0 := BitVec.ofNat 64 (bucketBytes n.cir n.cTok + bucketBytes n.pir n.pTok * 2 ^ 32)
          r1 := BitVec.ofNat 64 (n.shape + rdy + det + kids) }) s)

end Sys2Proof.Machine
end

