-- ==== Sys2Proof/Machine/Tables.lean ====
section
/-! DEFINITION. The commands of the table engine: lookups through the pipelines, epochs and their switch, and the table commands
(chapter 12, R425 to R429). -/
namespace Sys2Proof.Machine

/-! ## Lookups (R310, R313, R320) -/

/-- The turn of the TABLE_LOOKUP commands among the input queues, after link 63 (R312 gives them the same pipelines and no turn: DEDUCED, log
36). -/
def diagTurn : Nat := 64

/-- The input queues in the order in which a pipeline serves them after turn `n`. -/
def linkTurns (n : Nat) : List Nat := List.range' (n + 1) (64 - n) ++ List.range (n + 1)

/-- The requests that wait in an input queue, oldest first, by tag or by the command's id. -/
def inputQueue (s : State) (n : Nat) : List Nat := if n = diagTurn then s.tbl.diagQueue else (link s n).inq

/-- A lookup in flight, by its input queue and tag. -/
def lookupAt (s : State) (n tag : Nat) : Option Lookup := mfind (if n = diagTurn then s.tbl.diag else (link s n).lookups) tag

/-- The request leaves its input queue, its lookup being `x`. -/
def takeLookup (n tag : Nat) (x : Lookup) (s : State) : State :=
  if n = diagTurn then s.mapTbl fun t => { t with diagQueue := t.diagQueue.drop 1, diag := mput t.diag tag x }
  else modLink n (fun l => { l with inq := l.inq.drop 1, lookups := mput l.lookups tag x }) s

/-- The table that a lookup reads: the one it named, deleted since or not. -/
def lookupTable (s : State) (x : Lookup) : Option Table :=
  match x.old with
  | some t => some t
  | none => table? s (byteAt x.req 4)

/-- LOOKUP_PIPELINE_TAKE: a pipeline takes the oldest request of the next input queue that has one and stamps it with the current epoch: what
it finds, and the words of the entries that it reads (R310, R320). -/
def execLookupPipelineTake (s : State) : Host.Outcome State Fault Refusal :=
  .next (
    match (linkTurns s.gar.rrLink).find? fun n => !(inputQueue s n).isEmpty with
    | none => s
    | some n =>
      let s := s.mapGar fun g => { g with rrLink := n }
      match inputQueue s n with
      | [] => s
      | tag :: _ =>
        let x := (lookupAt s n tag).getD Lookup.init
        let t := lookupTable s x
        let words := match t with
          | none => []
          | some t => matchWords t (wireAt x.req 6 2) (slice x.req 32 t.keyLen)
        takeLookup n tag { x with taken := some (lookupNow s t x.req), words := words } s)

/-- The end of a lookup taken by a pipeline: its reads are counted and judged (R313, R314, R324). Answers its response. -/
def lookupEnd (x : Lookup) (resp : List Byte) (found : List Found) (clean : Bool) (s : State) : List Byte × State :=
  let reads := decide (byteAt resp 1 ≤ 1) || decide (byteAt resp 1 = 3)
  let exact := match lookupTable s x with
    | some t => decide (t.kind = 2)
    | none => false
  let l := wordsFound s x.words found
  let resp := if reads && anyBad s l then poisonResp exact clean resp else resp
  let s := if reads then tableReads x.table x.waits l s else s
  (resp, countResp x.table resp s)

/-- LOOKUP_COMPLETE: a lookup taken by a pipeline ends, and its response goes to its link, or nowhere once the protocol it came over has ended;
that of a TABLE_LOOKUP is written to its record, and the command completes (R313, R314, R324, R242, R429). -/
def execLookupComplete (link' tag : Nat) (found : List Found) (clean : Bool) (s : State) : Host.Outcome State Fault Refusal :=
  let n := link'
  .next (
    match lookupAt s n tag with
    | none => s
    | some x =>
      match x.taken with
      | none => s
      | some resp =>
        let e := lookupEnd x resp found clean s
        let resp := e.1
        let s := e.2
        if n = diagTurn then
          let s := s.mapTbl fun t => { t with diag := mdel t.diag tag }
          match mfind s.fl.cmds tag with
          | none => s
          | some c => finish tag .success 0 0 true (writeBlock c resp s)
        else
          modLink n (fun l =>
            let l := { l with lookups := mdel l.lookups tag }
            if tag < 1024 then
              { l with resp := l.resp ++ [resp], ctr := if byteAt resp 1 = 5 then ctrAdd l.ctr 16 1 else l.ctr }
            else l) s)

/-! ## Epochs (R317, R319, R322) -/

/-- The front commit switches: it takes the next number, its updates take effect, its handle is free, it is mirrored, and its
command completes. -/
def switchFront (found : List (List Found)) (s : State) : State :=
  match s.tbl.commits with
  | [] => s
  | c :: r =>
    let e := s.tbl.epoch + 1
    let s := s.mapTbl fun x => { x with commits := r, epoch := e, handles := if c.handle = 0 then x.handles else mdel x.handles c.handle }
    let s := mirrorEpoch false e.toNat found c.updates (switchUpdates c.updates s)
    if c.handle = 0 then finish c.cmd c.status (BitVec.ofNat 64 c.staged) e true s else finish c.cmd c.status e 0 true s

/-- EPOCH_SWITCH: the oldest commit that has executed switches, deferred by a brownout freeze; on the secondary, which has no commits of its own
(R323), a mirrored epoch that a freeze deferred (R319, R63, R470). -/
def execEpochSwitch (found : List (List Found)) (s : State) : Host.Outcome State Fault Refusal :=
  .next (if s.bed.boActive then s else if isSecondary s then switchMirrored s else switchFront found s)

/-- A commit executes: its command completes after the switch. A timed one that a brownout defers completes LATE_EXECUTED (R64). -/
def queueCommit (id h : Nat) (l : List Update) (st : Status) (staged : Nat) (s : State) : State :=
  let s := modCmd id (fun c => { c with late := c.late || (c.flag 0 && s.bed.boActive) }) s
  s.mapTbl fun x => { x with commits := x.commits ++ [{ cmd := id, handle := h, updates := l, status := st, staged := staged }] }

/-- A lookup in flight waits for deletion `g`. -/
def waitsFor (s : State) (g : Nat) : Bool :=
  let waits := fun (m : Map Lookup) => m.any fun x => decide (x.2.waits = some g)
  waits s.tbl.diag || s.gar.links.any fun l => waits l.2.lookups

/-- STORAGE_FREE: the storage of deleted tables that no lookup in flight waits for becomes free (R322). -/
def execStorageFree (s : State) : Host.Outcome State Fault Refusal :=
  .next (s.mapTbl fun x => { x with gone := x.gone.filter fun g => waitsFor s g.1 })

/-! ## TABLE_CREATE and TABLE_DELETE (R305, R322, R425) -/

/-- The most entries of one table of a type (Table 12.3). -/
def perTable (kind : Nat) : Nat :=
  match kind with
  | 0 => 8388608
  | 1 => 4194304
  | 2 => 536870912
  | 3 => 524288
  | _ => 33554432

/-- KEY_LEN suits TABLE_TYPE (Table 12.2). -/
def keyLenOk (kind k : Nat) : Bool :=
  match kind with
  | 0 => decide (k = 4)
  | 1 => decide (k = 16)
  | 2 => decide (1 ≤ k) && decide (k ≤ 40)
  | 3 => decide (1 ≤ k) && decide (k ≤ 80)
  | _ => decide (k = 4)

/-- Checks of TABLE_CREATE. -/
def tableCreatePre (c : Cmd) (s : State) : Option Status :=
  let kind := c.byte 32
  let size := c.inl 36 4
  firstFail [
    (plainBad c 255 8 || decide (4 < kind) || decide (1 < c.byte 33) || !keyLenOk kind (c.byte 34) || decide (c.byte 35 < 1) ||
      decide (4 < c.byte 35) || decide (size < 1) || decide (perTable kind < size) ||
      (decide (c.byte 35 ≠ 1) && decide (c.byte 33 = 1) && (decide (kind = 2) || decide (kind = 4))), .invalidField),
    ((table? s c.target).isSome, .objectExists)]

/-- The sum of SIZE over the tables of a type. -/
def sizeSum (s : State) (kind : Nat) : Nat := (s.tbl.tables.map fun t => if t.2.kind = kind then t.2.size else 0).sum

/-- The storage that a new table takes is cleared: its banks, and its blocks' quarters in the four stacks (R305, R327, R336). -/
def clearStorage (banks blocks : List Nat) (s : State) : State :=
  let part := s.mem.part
  let s := forEach banks (fun b s => cleanse (1 + b) (b * 2 ^ 18) (b * 2 ^ 18 + 2 ^ 18 - 1) s) s
  forEach blocks (fun k s =>
    forEach [0, 1, 2, 3] (fun m s => cleanse (65 + m) (blockUnit part k m) (blockUnit part k m + quarterUnits - 1) s) s) s

/-- The effect of TABLE_CREATE. -/
def tableCreateBody (mir : Bool) (c : Cmd) (s : State) : Ran :=
  let kind := c.byte 32
  let hbm := decide (c.byte 33 = 1)
  let size := c.inl 36 4
  let nb := banksFor kind hbm size (c.byte 34) * c.byte 35
  let nk := blocksFor kind hbm size (c.byte 34)
  let banks := (freeBanks s).take nb
  let blocks := if nk = 0 then [] else (freeBlocks s).take nk
  if (decide (0 < nk) && !spillEnabled s) || banks.any (fun b => !initDone s (1 + b)) then .fail .notReady s
  else if roleBad mir s then .fail .permission s
  else if banks.length < nb ∨ blocks.length < nk ∨ (kind ≠ 2 ∧ perTable kind < sizeSum s kind + size) then .fail .noResource s
  else
    let t : Table := { Table.init with kind := kind, hbm := hbm, keyLen := c.byte 34, replicas := c.byte 35, size := size, banks := banks, blocks := blocks }
    let s := clearStorage banks blocks (mixRegions (banks.map (1 + ·) ++ if nk = 0 then [] else [65, 66, 67, 68]) s)
    { Ran.ok (s.mapTbl fun x => { x with tables := mput x.tables c.target t }) with r0 := BitVec.ofNat 64 (nb + 65536 * nk) }

/-- TABLE_CREATE. -/
def execTableCreate (id : Nat) (s : State) : Host.Outcome State Fault Refusal :=
  .next (runCmd id 0x60 tableCreatePre (tableCreateBody false) s)

/-- Checks of TABLE_DELETE. -/
def tableDeletePre (c : Cmd) (s : State) : Option Status :=
  firstFail [(decide (255 < c.target) || !noFields c, .invalidField), ((table? s c.target).isNone, .objectNotFound)]

/-- A lookup in flight of a table that is deleted completes on the table's contents, and the storage waits for it. -/
def Lookup.keep (n g : Nat) (t : Table) (x : Lookup) : Lookup :=
  if byteAt x.req 4 = n ∧ x.old.isNone ∧ x.waits.isNone then { x with old := some t, waits := some g, table := 256 } else x

/-- The table goes; its storage is free once the lookups in flight have completed. -/
def removeTable (n : Nat) (t : Table) (s : State) : State :=
  let g := s.tbl.goneNext
  let s := s.mapTbl fun x =>
    { x with
      tables := mdel x.tables n, goneNext := g + 1, diag := mmap x.diag fun _ y => y.keep n g t
      gone := mput x.gone g { table := n, banks := t.banks, blocks := t.blocks, posted := t.posted } }
  s.mapGar fun x => { x with links := mmap x.links fun _ l => { l with lookups := mmap l.lookups fun _ y => y.keep n g t } }

/-- The effect of TABLE_DELETE. -/
def tableDeleteBody (mir : Bool) (c : Cmd) (s : State) : Ran :=
  match table? s c.target with
  | none => .fail .objectNotFound s
  | some t =>
    if roleBad mir s then .fail .permission s
    else if (stagedAll s).any fun u => decide (u.table = c.target) then .fail .busy s
    else .ok (removeTable c.target t s)

/-- TABLE_DELETE. -/
def execTableDelete (id : Nat) (s : State) : Host.Outcome State Fault Refusal :=
  .next (runCmd id 0x61 tableDeletePre (tableDeleteBody false) s)

/-! ## TABLE_UPDATE (R316 to R318, R335, R336, R426) -/

/-- Splits indirect data into `n` entries of `k` bytes. -/
def chunks (k : Nat) : Nat → List Byte → List (List Byte)
  | 0, _ => []
  | n + 1, l => l.take k :: chunks k n (l.drop k)

/-- Checks of TABLE_UPDATE: IND_LEN depends on the table. -/
def tableUpdatePre (c : Cmd) (s : State) : Option Status :=
  let h := c.byte 32
  firstFail [
    (shapeBad c 255 8 || decide (16 < h) || !c.inlZero 33 3 || decide (c.inl 36 4 < 1) || decide (65536 < c.inl 36 4), .invalidField),
    ((table? s c.target).isNone || (decide (h ≠ 0) && (match mfind s.tbl.handles h with
      | none => true
      | some x => x.committing)), .objectNotFound),
    (match table? s c.target with
      | none => false
      | some t => decide (c.indLen ≠ c.inl 36 4 * t.entryLen), .invalidField)]

/-- TABLE_UPDATE: its entries are checked, written and staged in order; under handle 0 what was staged commits; a partial write that reads an
uncorrectable unit makes it DATA_POISONED (R318, R335, R336, R426). -/
def execTableUpdate (id : Nat) (host : HostRead) (places : List (List Place)) (merged : List Found) (s : State) : Host.Outcome State Fault Refusal :=
  .next (runCmd id 0x62 tableUpdatePre
    (fun c s =>
      let h := c.byte 32
      let n := c.target
      match table? s n with
      | none => .fail .objectNotFound s
      | some t =>
        if !tableReady s t then .fail .notReady s
        else if isSecondary s then .fail .permission s
        else
          withHost c c.indLen host s fun bytes =>
            let own := if h = 0 then [] else (mget s.tbl.handles h Handle.init).staged
            let r := stageAll h n t places merged (chunks t.entryLen (c.inl 36 4) bytes) 0 own false s
            let s := r.2.2.2.2
            let dirty := r.2.2.2.1
            let st := match r.2.1 with
              | some st => st
              | none => if dirty then .dataPoisoned else .success
            let cur := s.tbl.epoch
            if h ≠ 0 then { st := st, r0 := BitVec.ofNat 64 r.1, s := s, eff := decide (r.1 ≠ 0) }
            else if r.2.2.1.isEmpty then { st := st, r0 := BitVec.ofNat 64 r.1, r1 := cur, s := s, eff := false }
            else { Ran.ok (queueCommit id 0 r.2.2.1 st r.1 s) with done := false }) s)

/-! ## Epoch commands (R317, R427) -/

/-- The lowest free handle. -/
def freeHandle (s : State) : Option Nat := (List.range' 1 16).find? fun h => !mhas s.tbl.handles h

/-- EPOCH_OPEN. -/
def execEpochOpen (id : Nat) (s : State) : Host.Outcome State Fault Refusal :=
  .next (runCmd id 0x63
    (fun c _ => firstFail [(decide (c.target ≠ 0) || !noFields c, .invalidField)])
    (fun _ s =>
      if isSecondary s then .fail .permission s
      else match freeHandle s with
        | none => .fail .noResource s
        | some h =>
          { Ran.ok (s.mapTbl fun x => { x with handles := mput x.handles h { Handle.init with since := s.now } }) with r0 := BitVec.ofNat 64 h }) s)

/-- Checks that EPOCH_COMMIT and EPOCH_ABORT share: a handle that is open. -/
def handlePre (c : Cmd) (s : State) : Option Status :=
  firstFail [
    (decide (c.target < 1) || decide (16 < c.target) || !noFields c, .invalidField),
    (match mfind s.tbl.handles c.target with
      | none => true
      | some x => x.committing, .objectNotFound)]

/-- EPOCH_COMMIT: with nothing staged it completes with the current number; otherwise after its switch (R319). -/
def execEpochCommit (id : Nat) (s : State) : Host.Outcome State Fault Refusal :=
  .next (runCmd id 0x64 handlePre
    (fun c s =>
      let l := (mget s.tbl.handles c.target Handle.init).staged
      if isSecondary s then .fail .permission s
      else if l.isEmpty then { Ran.ok (s.mapTbl fun x => { x with handles := mdel x.handles c.target }) with r0 := s.tbl.epoch }
      else
        let s := s.mapTbl fun x => { x with handles := mmod x.handles c.target Handle.init fun y => { y with committing := true } }
        { Ran.ok (queueCommit id c.target l .success 0 s) with done := false }) s)

/-- EPOCH_ABORT: the handle's staged updates are discarded and it is free. -/
def execEpochAbort (id : Nat) (s : State) : Host.Outcome State Fault Refusal :=
  .next (runCmd id 0x65 handlePre
    (fun c s =>
      if isSecondary s then .fail .permission s else .ok (s.mapTbl fun x => { x with handles := mdel x.handles c.target })) s)

/-- The EPOCH_STATUS block (R427). -/
def epochBlock (s : State) : List Byte :=
  leBytes 8 s.tbl.epoch.toNat ++ leBytes 4 (stagedAll s).length ++ zeros 4 ++
    (List.range' 1 16).flatMap fun h =>
      match mfind s.tbl.handles h with
      | none => zeros 16
      | some x => [1, 0, 0, 0] ++ leBytes 4 x.staged.length ++ leBytes 8 (sat 64 (s.now - x.since))

/-- EPOCH_STATUS. -/
def execEpochStatus (id : Nat) (s : State) : Host.Outcome State Fault Refusal :=
  .next (runCmd id 0x66
    (fun c _ => firstFail [(blockBad c 0 272, .invalidField)])
    (fun c s => withBlock c (epochBlock s) s fun s => s) s)

/-! ## TABLE_STATUS and TABLE_LOOKUP (R428, R429) -/

/-- The TABLE_STATUS block: ENTRIES and STAGED are levels. -/
def tableBlock (s : State) (n : Nat) (t : Table) : List Byte :=
  let level := fun k => leBytes 8 (sat 48 k)
  leBytes 1 t.kind ++ leBytes 1 (b2n t.hbm) ++ leBytes 1 t.keyLen ++ leBytes 1 t.replicas ++ leBytes 4 t.size ++
    leBytes 2 t.banks.length ++ leBytes 2 t.blocks.length ++ zeros 4 ++ ctrBlock t.ctr 5 ++
    level (if t.kind = 4 then t.size else t.entries.length) ++
    level ((stagedAll s).filter fun u => decide (u.table = n)).length ++ (ctrOf t.ctr 7).bytes

/-- TABLE_STATUS. -/
def execTableStatus (id : Nat) (s : State) : Host.Outcome State Fault Refusal :=
  .next (runCmd id 0x67
    (fun c s => firstFail [(counterBlockBad c 255 80, .invalidField), ((table? s c.target).isNone, .objectNotFound)])
    (fun c s =>
      withBlock c (tableBlock s c.target ((table? s c.target).getD Table.init)) s fun s =>
        if clearWrapOn c then modTable c.target (fun t => { t with ctr := ctrClearWrap t.ctr }) s else s) s)

/-- TABLE_LOOKUP: a lookup by system software joins the others in the pipelines, at most 64 at a time; it completes with LOOKUP_COMPLETE
(R312, R415, R429). -/
def execTableLookup (id : Nat) (host : HostRead) (s : State) : Host.Outcome State Fault Refusal :=
  .next (runCmd id 0x68
    (fun c _ => firstFail [(shapeBad c 255 0 || decide (c.indLen < 32), .invalidField)])
    (fun c s =>
      if !dmaAllowed s c.indAddr c.indLen then .fail .permission s
      else if 64 ≤ s.tbl.diag.length then .fail .busy s
      else
        withHost c c.indLen host s fun r =>
          if byteAt r 0 ≠ 0x21 ∨ c.indLen ≠ 32 + round8 (byteAt r 5) ∨ byteAt r 4 ≠ c.target then .fail .invalidField s
          else
            let s := awaitEnd id [] (if (table? s c.target).isSome then profEvent 0x0A c.target 1 s else s)
            { Ran.ok (s.mapTbl fun t =>
              { t with diag := mput t.diag id { Lookup.init with req := r, table := c.target }, diagQueue := t.diagQueue ++ [id] }) with
              done := false }) s)

end Sys2Proof.Machine
end

