-- ==== Sys2Proof/Machine/TimeCmds.lean ====
section
/-! DEFINITION. The clock's commands, the servo, the time pins and their events (chapter 17, R430). -/
namespace Sys2Proof.Machine

/-- Checks 5 to 7 of a time command: the clock where it needs one, the Geode role where it is refused to a secondary, and
NO_WAKE towards a time block that is off (R446, R416, R370, R533); then the block is on. -/
def timeCmd (needsClock refused : Bool) (c : Cmd) (s : State) (k : State → Ran) : Ran :=
  if needsClock && !s.tim.running then .fail .notReady s
  else if refused && isSecondary s then .fail .permission s
  else if c.flag 2 && !s.tim.blockOn then .fail .blockOff s
  else k (s.mapTim fun t => { t with blockOn := true })

/-- The time that TIME_SET carries, in 2^-32 ns. -/
def setUnits (c : Cmd) : Int := (c.inl 34 6 * 1000000000 + c.inl 40 4) * 2 ^ 32 + c.inl 44 4

/-- TIME_SET (R447, R461). -/
def execTimeSet (id : Nat) (s : State) : Host.Outcome State Fault Refusal :=
  .next (runCmd id 0x80
    (fun c s => firstFail [
      (plainBad c 0 16 || decide (2 < c.byte 32) || decide (c.byte 33 ≠ 0) || decide (999999999 < c.inl 40 4) ||
        (decide (c.byte 32 = 2) && s.tim.running && decide (clockUnits s < setUnits c)), .invalidField)])
    (fun c s => timeCmd (decide (c.byte 32 ≠ 0)) true c s fun s =>
      .ok (rewait <| s.mapTim fun t =>
        if c.byte 32 = 0 then { setClock (setUnits c) t with running := true, rem := ⟨0, 0⟩ }
        else if c.byte 32 = 1 then setClock (clockUnits s + setUnits c) t
        else setClock (clockUnits s - setUnits c) t)) s)

/-! ## The servo (R448, R449) -/

/-- One accepted feed of the PI loop: `e` is minus OFFSET, in 2^-16 ns; the gains are in 2^-24 ppb per ns. -/
def servoStep (offset : Int) (t : Tim) : Tim :=
  let term := fun (k : Nat) => ({ num := (k : Int) * -offset, exp := 40 } : Dyad)
  let i := (t.i.add (term t.ki)).clamp 500000
  let f := ((term t.kp).add i).clamp 500000
  let d := f.sub t.favg
  { t with i := i, f := f, favg := t.favg.add { d with exp := d.exp + 6 } }

/-- A feed by state: it acts in TRACKING, and in FREE_RUN while ENABLE is 1 (Table 17.1). -/
def servoFeed (offset : Int) (t : Tim) : Tim :=
  match t.servo with
  | .off => t
  | .freeRun => if t.enable then { servoStep offset { t with i := t.favg } with servo := .tracking } else t
  | .tracking => servoStep offset t

/-- SERVO_FEED (R448). -/
def execServoFeed (id : Nat) (s : State) : Host.Outcome State Fault Refusal :=
  .next (runCmd id 0x81
    (fun c _ => firstFail [(plainBad c 0 8 || decide (1000000000 * 2 ^ 16 ≤ (signed 64 (c.inl 32 8)).natAbs), .invalidField)])
    (fun c s => timeCmd true true c s fun s => .ok (s.mapTim (servoFeed (signed 64 (c.inl 32 8))))) s)

/-- TRACKING ends: f takes f_avg, and TIME_FREE_RUN is posted (Table 17.1). -/
def servoFree (s : State) : State := post 0x8001 1 0 0 (s.mapTim fun t => { t with servo := .freeRun, f := t.favg })

/-- SERVO_SET (R449): the gains, and the state by ENABLE. -/
def execServoSet (id : Nat) (s : State) : Host.Outcome State Fault Refusal :=
  .next (runCmd id 0x82
    (fun c _ => firstFail [(plainBad c 0 12 || decide (1 < c.byte 32) || !c.inlZero 33 3, .invalidField)])
    (fun c s => timeCmd false true c s fun s =>
      let on := bitOf (c.byte 32) 0
      let old := s.tim.servo
      let s := s.mapTim fun t => { t with kp := c.inl 36 4, ki := c.inl 40 4, enable := on }
      .ok (match old with
        | .off => if on then s.mapTim fun t => { t with servo := .freeRun, f := t.favg } else s
        | .freeRun => if on then s else s.mapTim fun t => { t with servo := .off }
        | .tracking => if on then s else servoFree s)) s)

/-- SERVO_FEED_TIMEOUT: 8 s without an accepted feed in TRACKING (Table 17.1). -/
def execServoFeedTimeout (s : State) : Host.Outcome State Fault Refusal :=
  .next (if s.tim.servo = .tracking then servoFree s else s)

/-! ## TIME_GET and TIME_STATUS -/

/-- TIME_GET (R447, Table 16.6). -/
def execTimeGet (id : Nat) (s : State) : Host.Outcome State Fault Refusal :=
  .next (runCmd id 0x83
    (fun c _ => firstFail [(plainBad c 0 0, .invalidField)])
    (fun c s => timeCmd false false c s fun s =>
      { Ran.ok s with
        r0 := BitVec.ofNat 64 (s.tim.sec.toNat % 2 ^ 48)
        r1 := BitVec.ofNat 64 (s.tim.ns * 2 ^ 32 + s.tim.frac) }) s)

/-- The code of a servo state (Table 16.6). -/
def Servo.code : Servo → Nat
  | .off => 0
  | .tracking => 1
  | .freeRun => 2

/-- The frequency adjustment in force, signed, in 2^-16 ppb, rounded down. -/
def freqWord (t : Tim) : BitVec 64 := BitVec.ofInt 64 (t.f.num * 2 ^ 16 / 2 ^ t.f.exp)

/-- TIME_STATUS (Table 16.6). -/
def execTimeStatus (id : Nat) (s : State) : Host.Outcome State Fault Refusal :=
  .next (runCmd id 0x87
    (fun c _ => firstFail [(plainBad c 0 0, .invalidField)])
    (fun c s => timeCmd false false c s fun s =>
      { Ran.ok s with
        r0 := BitVec.ofNat 64 (s.tim.servo.code + 4 * b2n s.tim.ppsHere + 8 * b2n s.tim.running)
        r1 := freqWord s.tim }) s)

/-! ## The time pins (R456 to R458) -/

/-- SYNCE0 and SYNCE1 of TIME_PINS are enabled with a source lane whose cage has no port (R430). -/
def synceMissing (c : Cmd) (s : State) : Bool :=
  (bitOf (c.byte 32) 3 && (cagePorts s (c.byte 33 / 8)).isEmpty) || (bitOf (c.byte 32) 4 && (cagePorts s (c.byte 34 / 8)).isEmpty)

/-- TIME_PINS (R456): an output not enabled is released or driven low; a new source lane squelches its output first (R458);
a pulse in progress completes its old width. -/
def execTimePins (id : Nat) (s : State) : Host.Outcome State Fault Refusal :=
  .next (runCmd id 0x84
    (fun c s => firstFail [
      (plainBad c 0 8 || decide (31 < c.byte 32) || decide (c.byte 35 ≠ 0) || decide (c.inl 36 4 < 1) ||
        decide (500000 < c.inl 36 4), .invalidField),
      (synceMissing c s, .objectNotFound)])
    (fun c s => timeCmd false false c s fun s =>
      .ok (s.mapTim fun t =>
        let en : BitVec 5 := BitVec.ofNat 5 (c.byte 32)
        let keep0 := en.getLsbD 3 && decide (t.src0 = c.byte 33)
        let keep1 := en.getLsbD 4 && decide (t.src1 = c.byte 34)
        { t with
          pins := en
          src0 := c.byte 33
          src1 := c.byte 34
          width := c.inl 36 4
          ppsOut := t.ppsOut &&& BitVec.ofNat 2 (c.byte 32 / 2)
          synceOn := t.synceOn &&& BitVec.ofNat 2 (b2n keep0 + 2 * b2n keep1) })) s)

/-- PPS_OUT_EDGE: the running clock passes a whole second: the enabled outputs rise (R456). -/
def execPpsOutEdge (s : State) : Host.Outcome State Fault Refusal :=
  .next (
    if s.tim.running then s.mapTim fun t => { t with ppsOut := t.ppsOut ||| BitVec.ofNat 2 (t.pins.toNat / 2) } else s)

/-- PPS_OUT_PULSE_END: the pulse width of an output has run out (R456). -/
def execPpsOutPulseEnd (pin : Nat) (s : State) : Host.Outcome State Fault Refusal :=
  .next (s.mapTim fun t => { t with ppsOut := t.ppsOut &&& ~~~ ((1 : BitVec 2) <<< pin) })

/-- The time between two PPS_IN edges: on the clock where it ran at both, otherwise on the device's time base. -/
def ppsApart (s : State) : Option Nat :=
  match s.tim.ppsAt with
  | none => none
  | some a =>
    match s.tim.ppsClock with
    | some x => some (if s.tim.running then clockTotal s - x else s.now - a)
    | none => some (s.now - a)

/-- PPS_IN_EDGE: an accepted edge stores a capture record, counts toward presence and triggers the ADC where PPS_IN is its
source (R457, R510). An unpowered pin sees none (R44). -/
def execPpsInEdge (s : State) : Host.Outcome State Fault Refusal :=
  .next (
    if !s.tim.pins.getLsbD 0 ∨ !railUp s 11 ∨ s.tim.ppsAt.any (fun a => decide (s.now < a + 100000000)) then s
    else
      let near := (ppsApart s).any fun d => decide (900000000 ≤ d) && decide (d ≤ 1100000000)
      let was := s.tim.ppsHere
      let s :=
        if s.tim.running then capture 0x0100 (zeros 4) { sec := s.tim.sec.toNat % 2 ^ 48, ns := s.tim.ns, frac := s.tim.frac } s
        else s
      let s := s.mapTim fun t =>
        { t with ppsAt := some s.now, ppsClock := if t.running then some (clockTotal s) else none, ppsHere := t.ppsHere || near }
      adcSource 2 (if near && !was then post 0x8003 0 0 0 s else s))

/-- PPS_IN_LOST: no edge for 1.5 s (R457). -/
def execPpsInLost (s : State) : Host.Outcome State Fault Refusal :=
  .next (if s.tim.ppsHere then post 0x8002 1 0 0 (s.mapTim fun t => { t with ppsHere := false }) else s)

/-- SYNCE_UNSQUELCH: 10 ms of a source lane that is ACQUIRED and belongs to a port (R458). -/
def execSynceUnsquelch (output : Nat) (s : State) : Host.Outcome State Fault Refusal :=
  .next (
    let l := lane s (if output = 0 then s.tim.src0 else s.tim.src1)
    if output < 2 ∧ s.tim.pins.getLsbD (3 + output) = true ∧ l.state = .acquired ∧ l.port.isSome = true then
      s.mapTim fun t => { t with synceOn := t.synceOn ||| ((1 : BitVec 2) <<< output) }
    else s)

/-! ## Corrections and captures -/

/-- PORT_TS_SET: its fields and its port (R450). -/
def portTsSetPre (c : Cmd) (s : State) : Option Status :=
  firstFail [
    (plainBad c 255 8 || decide (100000 < (signed 32 (c.inl 32 4)).natAbs) || decide (100000 < (signed 32 (c.inl 36 4)).natAbs),
      .invalidField),
    ((port? s c.target).isNone, .objectNotFound)]

/-- PORT_TS_SET: its effect (R450, R446, R416). -/
def portTsSetBody (mir : Bool) (c : Cmd) (s : State) : Ran :=
  timeCmd (!mir) (!mir) c s fun s =>
    .ok (modPort c.target (fun q => { q with rxAsym := signed 32 (c.inl 32 4), txAsym := signed 32 (c.inl 36 4) }) s)

/-- PORT_TS_SET (R450). -/
def execPortTsSet (id : Nat) (s : State) : Host.Outcome State Fault Refusal :=
  .next (runCmd id 0x85 portTsSetPre (portTsSetBody false) s)

/-- TS_CAPTURE_READ: the oldest records first, and the losses since the last read (R430). -/
def execTsCaptureRead (id : Nat) (s : State) : Host.Outcome State Fault Refusal :=
  .next (runCmd id 0x86
    (fun c _ => firstFail [
      (shapeBad c 0 4 || decide (c.inl 32 4 < 1) || decide (4096 < c.inl 32 4) || decide (c.indLen < 32 * c.inl 32 4), .invalidField)])
    (fun c s =>
      if !dmaAllowed s c.indAddr (32 * c.inl 32 4) then .fail .permission s
      else
        timeCmd false false c s fun s =>
          let recs := s.tim.caps.take (c.inl 32 4)
          let lost := s.tim.capsLost
          let s := s.mapTim fun t => { t with caps := t.caps.drop (c.inl 32 4), capsLost := 0 }
          { Ran.ok (if recs.isEmpty then s else writeBlock c recs.flatten s) with
            r0 := BitVec.ofNat 64 recs.length, r1 := BitVec.ofNat 64 (sat 64 lost) }) s)

end Sys2Proof.Machine
end

