-- ==== Sys2Proof/Machine/GeodeOps.lean ====
section
/-! DEFINITION. The Geode roles and what taking one does, the records of the Geode controller, and the resync (R464 to R476). -/
namespace Sys2Proof.Machine

/-! ## Roles -/

/-- The role in force: 0 none, 1 primary, 2 secondary; a stored primary that has restarted acts as secondary (Table 18.1). -/
def roleNow (s : State) : Nat := if isSecondary s then 2 else s.bed.geoRole

/-- The Geode link is up. -/
def geoUp (s : State) : Bool := (link s geodeLink).up

/-- The peer as reported in its last HELLO over a link that is up (R466, R437). -/
def peerNow (s : State) : Option Hello := if holdsRole s && geoUp s then s.geo.peer else none

/-- The lanes that belong to a port. -/
def portedLanes (s : State) : List Nat := (s.lanes.tab.filter fun l => l.2.port.isSome).map (·.1)

/-- Changes every cage that is READY. -/
def modReady (f : Cage → Cage) (s : State) : State :=
  s.mapCages fun b => { b with tab := mmap b.tab fun _ g => if g.state = .ready then f g else g }

/-- OutputDisableTx is cleared in every READY cage (R164). -/
def lightOn (s : State) : State := modReady (fun g => { g with outDis := 0 }) s

/-- Every lane is muted as for the secondary role; lanes already dark get OutputDisableTx (R164). -/
def muteAll (s : State) : State := forEach (portedLanes s) (fun n s => setMute n true s) s

/-- Ports in FAR return to NONE, and LOOPBACK_CLEARED is posted for each (R188). -/
def clearFar (s : State) : State :=
  forEach ((s.ports.tab.filter fun p => decide (p.2.loopback = 3)).map (·.1)) (fun p s =>
    post 0x1016 0 p 0 (modPort p (fun q => { q with loopback := 0 }) s)) s

/-- A record of the Geode controller goes to the link, while it is up. -/
def geodeSend (b : List Byte) (s : State) : State := if geoUp s then geodePush b s else s

/-- At the end of the ramp down of a switchover, the old primary sends DARK, and after a failure releases Cc_LPM of every cage
(R473). -/
def darkCheck (s : State) : State :=
  match s.geo.out with
  | none => s
  | some o =>
    let lit := s.lanes.tab.any fun l => decide (l.2.tx = .transmitting) || decide (l.2.tx = .rampUp) || decide (l.2.tx = .rampDown)
    if o.dark || lit then s
    else
      let s := geodeSend ([0x62] ++ zeros 7) (s.mapGeo fun g => { g with out := some { o with dark := true } })
      if o.cause = 2 then s.mapCages fun b => { b with tab := mmap b.tab fun _ g => { g with lpmLow := false } } else s

/-- No packet whose record has not begun goes to the FE (R26). -/
def unpickAll (s : State) : State := s.mapGar fun g => { g with links := mmap g.links fun _ l => { l with pkt := none } }

/-- Open epochs and what is staged are lost (R323); a commit that has executed and not switched is lost with them, and its command completes
PERMISSION, as the secondary's do (DEDUCED, log 156). -/
def loseEpochs (s : State) : State :=
  let ids := s.tbl.commits.map (·.cmd)
  finishAll ids .permission false (s.mapTbl fun t => { t with handles := [], commits := [] })

/-- The device takes the secondary role: it mutes, its loopbacks in FAR end, it is out of sync, and begins no packet towards its FE (R26,
R164, R188, R476). -/
def takeSecondary (s : State) : State :=
  let s := (s.mapBed fun b => { b with geoRole := 2 }).mapGeo fun g =>
    { g with blind := false, inn := none, inSync := false, seqKnown := false, resync := false, timeSet := false, echoAt := none }
  let s := clearFar (muteAll (unpickAll (loseEpochs s)))
  darkCheck (forEach (List.range 32) secondaryDark s)

/-- The device takes the primary role: receivers that alternate settle (log 144), OutputDisableTx is cleared in every READY cage; a device that was secondary moves its servo to
FREE_RUN, ready to be fed (R164, R471). -/
def takePrimary (inn : Option GeoIn) (s : State) : State :=
  let was := isSecondary s
  let s := (s.mapBed fun b => { b with geoRole := 1 }).mapGeo fun g =>
    { g with blind := false, inn := inn, epochIn := none, resynced := false, lossSince := none }
  let s := forEach (s.ports.tab.map (·.1)) endAlternate (lightOn s)
  if was then servoFree (s.mapTim fun t => { t with enable := true }) else s

/-- A role taken through HANDOVER, whose end TAKEN tells the old primary (R473); a switchover under way until then (Table 18.5; log 166). -/
def GeoIn.handed (i : GeoIn) : Bool := decide (i.cause = 1) || decide (i.cause = 2)

/-- At the end of its ramp up, a new primary that HANDOVER made one sends TAKEN (R473). -/
def takenCheck (s : State) : State :=
  match s.geo.inn with
  | none => s
  | some i =>
    if i.ramping && !s.lanes.tab.any (fun l => decide (l.2.tx = .rampUp)) then
      let s := s.mapGeo fun g => { g with inn := none }
      if i.handed then geodeSend ([0x63] ++ zeros 7) s else s
    else s

/-- The new primary ramps up every lane; a mute set by command does not survive (R403). -/
def geodeRampUp (s : State) : State :=
  let s := s.mapGeo fun g => { g with inn := g.inn.map fun i => { i with ramping := true } }
  takenCheck (forEach (portedLanes s) (fun n s => setMute n false s) s)

/-- The role none: every Geode pair enters OFF and nothing of the peer is kept but the last switchover's cause (R465). -/
def dropRole (s : State) : State :=
  let s := linkOff geodeLink 0 (abortPairCmds geodeLink s)
  (s.mapBed fun b => { b with geoRole := 0 }).mapGeo fun g => { Geode.init with cause := g.cause, mirrored := g.mirrored }

/-- A switchover begins on the primary: HANDOVER goes behind the mirror records, the device becomes a secondary, and the event is
posted (R473). After a failure, records not yet sent are lost. -/
def handOver (o : GeoOut) (s : State) : State :=
  let r := [0x61, BitVec.ofNat 8 o.cause] ++ zeros 6
  let s := if o.cause = 1 then mirrorPush 2 0 r s else geodeSend r (s.mapGeo fun g => { g with hold := [] })
  let s := takeSecondary (s.mapGeo fun g => { g with out := some o, cause := o.cause })
  post 0xB001 1 2 o.cause s

/-- The peer can take the panel: the link is up, it is secondary and not FAILED (Table 18.1, R472). -/
def peerCanTake (s : State) : Bool :=
  match peerNow s with
  | none => false
  | some h => decide (h.role = 2) && decide (h.health ≠ 3)

/-- Trigger 2 of R472: the primary's health has entered FAILED while the peer can take the panel; ignored before the TAKEN of a switchover
under way (Table 18.5). -/
def failedHandOver (s : State) : State :=
  if roleNow s = 1 ∧ healthState s = 3 ∧ peerCanTake s = true ∧ s.geo.inn.any GeoIn.handed = false then handOver { GeoOut.init with cause := 2 } s else s

/-- An uncorrectable word in a control-processor memory: logged, posted, and health FAILED; the firmware fetches no more, and a Geode primary
hands over (R338, R472). -/
def cpFail (word : Nat) (s : State) : State :=
  let s := s.mapBoot fun b => { b with cpFailed := true }
  failedHandOver (setCause 11 (post 0x0004 2 (2 * 65536 + word % 65536) 0 (logErr 0x000B 0 word s)))

/-- The end of a switchover on the old primary: the command that waits completes, and a role of none follows (R473, R466). -/
def endOut (st : Status) (s : State) : State :=
  match s.geo.out with
  | none => s
  | some o =>
    let s := s.mapGeo fun g => { g with out := none }
    let s := if o.item && decide (o.role = 0) then dropRole s else s
    match o.cmd with
    | none => s
    | some id => finish id st 0 0 true s

/-- The role waits for no DARK: nothing drives the panel from the other side. -/
def aloneIn : Option GeoIn := some { GeoIn.init with lost := true }

/-- The commits that have executed switch before a commanded handover, unless a brownout freeze defers them (R443, Table 18.5). -/
def switchAll (s : State) : State := if s.bed.boActive then s else s.tbl.commits.foldl (fun s _ => switchFront [] s) s

/-- A confirmed GEODE_ROLE, `id` being its GUARD_PROPOSE (Table 18.1): the status to complete with at once, or none while a switchover
must end first. -/
def applyRole (id role : Nat) (s : State) : Option Status × State :=
  let peer := match peerNow s with
    | none => 0
    | some h => h.role
  let leave := roleNow s = 1 ∧ peerCanTake s = true
  if role = 1 then
    if peer = 1 then (some .busy, s)
    else if s.bed.geoRole = 0 then (some .success, linkStart geodeLink (s.mapBed fun b => { b with geoRole := 1 }))
    else if isSecondary s then (some .success, takePrimary aloneIn s)
    else (some .success, s)
  else if role = s.bed.geoRole then (some .success, s)
  else if leave then (none, handOver { GeoOut.init with cause := 1, cmd := some id, item := true, role := role } (switchAll s))
  else if role = 2 then
    if s.bed.geoRole = 0 then (some .success, linkStart geodeLink (takeSecondary s)) else (some .success, takeSecondary s)
  else (some .success, dropRole (if s.bed.geoRole = 1 then muteAll s else s))

/-! ## The resync (R476) -/

/-- Bytes padded to the 32 of an inline area. -/
def pad32 (b : List Byte) : List Byte := (b ++ zeros 32).take 32

/-- MEMORY_SET with every setting but a TABLE_PART at its default. -/
def memoryInl (m : Mem) : List Byte :=
  let bud := (m.budget.zipIdx).foldl (fun n x => n + x.1 * 2 ^ (20 * x.2)) 0
  pad32 (leBytes 4 (0xFFE + b2n (decide (m.partNext ≠ 8))) ++ leBytes 1 m.partNext ++ leBytes 1 m.scrubOd ++ leBytes 1 m.scrubHbm ++ [0] ++
    leBytes 2 m.ceOd ++ leBytes 2 m.ceHbm ++ leBytes 18 bud)

/-- BUFFER_SET with every setting but reserves at their defaults. -/
def bufferInl (b : Buffer) : List Byte :=
  let v := b2n (decide (b.ingReserve ≠ 0x20)) + 2 * b2n (decide (b.egrLanding ≠ 0x40)) + 4 * b2n (decide (b.egrMinPool ≠ 0x40)) + 24
  pad32 (leBytes 1 v ++ leBytes 1 b.ingReserve ++ leBytes 1 b.egrLanding ++ leBytes 1 b.egrMinPool ++ leBytes 2 b.hwm ++ leBytes 1 (b2n b.spillEn))

/-- PROFILE_SET of a whole profile. -/
def profileInl (p : Profile) : List Byte :=
  pad32 ([127, 0] ++ leBytes 2 p.qmin ++ leBytes 4 p.qmax ++ leBytes 1 p.alpha ++ leBytes 1 p.wred ++ leBytes 2 p.odThresh ++
    leBytes 1 (b2n p.spill + 2 * b2n p.ecn))

/-- WRED_SET of a whole profile. -/
def wredInl (w : Wred) : List Byte :=
  pad32 ([15] ++ leBytes 1 w.w ++ w.curves.flatMap fun c => leBytes 1 c.1 ++ leBytes 1 c.2.1 ++ leBytes 1 c.2.2)

/-- CLASSIFY_SET of a port's settings, but its map. -/
def classifyInl (c : Classify) : List Byte := pad32 ([7] ++ leBytes 1 c.trust ++ leBytes 1 c.cls ++ leBytes 1 c.colour)

/-- TABLE_CREATE of a table. -/
def tableInl (t : Table) : List Byte :=
  pad32 (leBytes 1 t.kind ++ leBytes 1 (b2n t.hbm) ++ leBytes 1 t.keyLen ++ leBytes 1 t.replicas ++ leBytes 4 t.size)

/-- NODE_CREATE of a node with a profile. -/
def nodeInl (n : Node) (prof : Nat) : List Byte :=
  pad32 (zeros 4 ++ leBytes 2 n.parent ++ leBytes 1 n.prio ++ leBytes 1 (unsigned 7 n.overhead) ++ leBytes 2 n.weight ++ leBytes 2 prof ++
    leBytes 4 n.cir ++ leBytes 4 n.pir ++ leBytes 4 n.cbs ++ leBytes 4 n.pbs)

/-- Sends one CONFIG record for each entry of a map. -/
def sendMap {α : Type} (m : Map α) (f : Nat → α → State → State) (s : State) : State := m.foldl (fun s e => f e.1 e.2 s) s

/-- Every entry of every table, as INSERT or WRITE. -/
def allEntries (s : State) : List Update :=
  s.tbl.tables.flatMap fun t => t.2.entries.map fun e => { table := t.1, op := if t.2.kind = 4 then 3 else 0, entry := e }

/-- The primary's resync: the settings, the tables, the nodes with each parent before its children, then one FULL epoch. -/
def sendResync (s : State) : State :=
  let s := s.mapGeo fun g => { g with resynced := true }
  let s := mirrorConfig 0x45 0 (memoryInl s.mem) [] s
  let s := mirrorConfig 0x40 0 (bufferInl s.buf) [] s
  let s := sendMap s.buf.profiles (fun k p s => mirrorConfig 0x41 k (profileInl p) [] s) s
  let s := sendMap s.buf.wred (fun k w s => mirrorConfig 0x42 k (wredInl w) [] s) s
  let s := sendMap s.buf.classify (fun k c s => mirrorConfig 0x43 k (classifyInl c) (c.map.flatMap (leBytes 1)) s) s
  let s := sendMap (s.buf.iq.filter fun q => decide (q.2.prof ≠ 0)) (fun k q s => mirrorConfig 0x44 k (pad32 (leBytes 2 q.prof)) [] s) s
  let s := sendMap s.tbl.tables (fun k t s => mirrorConfig 0x60 k (tableInl t) [] s) s
  let s := sendMap s.sched.nodes (fun k n s =>
    mirrorConfig 0x50 k (nodeInl n (if tierOf k = 4 then (mget s.buf.eq (numberOf k) Queue.init).prof else 0)) [] s) s
  mirrorEpoch true s.tbl.epoch.toNat [] (allEntries s) s

/-- The secondary discards its traffic-manager configuration, but TABLE_PART, and its tables, and clears IN_SYNC (R476). -/
def discardConfig (s : State) : State :=
  let s := s.mapMem fun m =>
    { m with scrubOd := 1, scrubHbm := 0x18, ceOd := 0x10, ceHbm := 0x100, budget := Mem.init.budget }
  let s := forEach (s.buf.eq.map (·.1)) (flushQueue true) s
  let s := s.mapSched fun x => { x with nodes := [], chosen := [], portVirt := [] }
  let s := s.mapBuf fun b =>
    { b with
      ingReserve := 0x20, egrLanding := 0x40, egrMinPool := 0x40, hwm := 0x300, spillEn := true, profiles := Buffer.init.profiles, wred := []
      classify := [], eq := [], iq := mmap b.iq fun _ q => { q with prof := 0 } }
  let s := s.tbl.tables.foldl (fun s t => removeTable t.1 t.2 s) s
  let s := s.mapTbl fun x => { x with handles := [], epoch := 0, gone := x.gone.filter fun g => waitsFor s g.1 }
  s.mapGeo fun g => { g with inSync := false, resync := true, epochIn := none }

/-! ## Records -/

/-- The HELLO record of this device (Table 18.2). -/
def helloRecord (s : State) : List Byte :=
  [0x60, BitVec.ofNat 8 (roleNow s), BitVec.ofNat 8 (healthState s), BitVec.ofNat 8 (b2n s.bed.geoSll + 2 * b2n s.geo.inSync)] ++
    beBytes 4 s.geo.seq.toNat ++ beBytes 8 s.tbl.epoch.toNat ++ beBytes 8 Config.serial.toNat ++ zeros 8

/-- What a HELLO record reports. -/
def helloOf (r : List Byte) : Hello :=
  { role := byteAt r 1, health := byteAt r 2, sll := bitOf (byteAt r 3) 0, inSync := bitOf (byteAt r 3) 1
    seq := BitVec.ofNat 32 (wireAt r 4 4), epoch := BitVec.ofNat 64 (wireAt r 8 8), serial := BitVec.ofNat 64 (wireAt r 16 8) }

/-- The TIME record of the primary's clock (Table 18.2). -/
def timeRecord (s : State) : List Byte :=
  [0x68] ++ zeros 7 ++ beBytes 8 s.tim.sec.toNat ++ beBytes 4 s.tim.ns ++ beBytes 4 s.tim.frac ++
    [BitVec.ofNat 8 s.tim.servo.code, BitVec.ofNat 8 (b2n s.tim.running)] ++ zeros 6

/-- The mirror records that a HELLO acknowledges leave the list of those unacknowledged (R469). -/
def takeHelloAck (h : Hello) (s : State) : State :=
  let left := s.geo.unacked.filter fun u =>
    if u.1 = 0 then !decide ((h.seq - BitVec.ofNat 32 u.2.1).toNat < 2 ^ 31) else decide (h.epoch.toNat < u.2.1)
  let s := s.mapGeo fun g => { g with unacked := left }
  mirrorDrain s.geo.hold.length s

/-- The Cmd that a CONFIG record carries. -/
def cmdOfConfig (r : List Byte) : Cmd :=
  { Cmd.init with
    entry := slice r 1 1 ++ zeros 3 ++ leBytes 4 (wireAt r 8 4) ++ zeros 12 ++ leBytes 4 (wireAt r 12 4) ++ zeros 8 ++ slice r 16 32
    data := slice r 48 (wireAt r 12 4) }

/-- Checks, then the body, of a mirrored command. -/
def mirrorRun (pre : Cmd → State → Option Status) (body : Cmd → State → Ran) (c : Cmd) (s : State) : Option State :=
  if (pre c s).isSome then none
  else
    let r := body c s
    if r.st = .success then some r.s else none

/-- The secondary applies a mirrored command, with the checks of its chapter and without that of R416 (R470). -/
def applyMirrored (c : Cmd) (s : State) : Option State :=
  match c.opcode with
  | 0x40 => mirrorRun bufferSetPre (bufferSetBody true) c s
  | 0x41 => mirrorRun profileSetPre (profileSetBody true) c s
  | 0x42 => mirrorRun wredSetPre (wredSetBody true) c s
  | 0x43 => mirrorRun classifySetPre (classifySetBody true .error) c s
  | 0x44 => mirrorRun iqSetPre (iqSetBody true) c s
  | 0x45 => mirrorRun memorySetPre (memorySetBody true) c s
  | 0x50 => mirrorRun nodeCreatePre (nodeCreateBody true) c s
  | 0x51 => mirrorRun nodeDeletePre (nodeDeleteBody true) c s
  | 0x52 => mirrorRun nodeSetPre (nodeSetBody true) c s
  | 0x53 => mirrorRun nodeBatchPre (nodeBatchBody true .error) c s
  | 0x60 => mirrorRun tableCreatePre (tableCreateBody true) c s
  | 0x61 => mirrorRun tableDeletePre (tableDeleteBody true) c s
  | 0x85 => mirrorRun portTsSetPre (portTsSetBody true) c s
  | _ => none

/-- The record is a mirror record or HANDOVER. -/
def mirrorKind (r : List Byte) : Bool := [0x61, 0x64, 0x65, 0x66, 0x67].contains (byteAt r 0)

/-- Takes the oldest of the mirror records and of HANDOVER, when it has this type: those are taken in the order sent. -/
def withMirror (t : Nat) (s : State) (f : List Byte → State → State) : State :=
  match (link s geodeLink).recs.find? mirrorKind with
  | none => s
  | some r =>
    if byteAt r 0 ≠ t ∨ s.geo.epochIn.any (·.ended) = true then s else withRecord geodeLink mirrorKind s f

end Sys2Proof.Machine
end

