-- ==== Sys2Proof/Machine/Geode.lean ====
section
/-! DEFINITION. The meanings of the Geode rows: the records received and sent, the switchover, link loss, and the Geode commands
(chapter 18, R437). -/
namespace Sys2Proof.Machine

/-! ## HELLO (R466, R468, R469, R476) -/

/-- HELLO_SEND: every 10 us over a link that is up. -/
def execHelloSend (s : State) : Host.Outcome State Fault Refusal :=
  .next (if holdsRole s then geodeSend (helloRecord s) s else s)

/-- Roles that clash when the link comes up (Table 18.1): a restarted primary takes primary unless the peer has it; of two primaries
the one with the greater Device Serial Number takes secondary. -/
def resolveRoles (h : Hello) (s : State) : State :=
  if s.geo.blind then if h.role = 1 then takeSecondary s else takePrimary aloneIn s
  else if roleNow s = 1 ∧ h.role = 1 ∧ s.geo.inn.isNone ∧ h.serial.toNat < Config.serial.toNat then
    post 0xB001 1 2 1 ((takeSecondary s).mapGeo fun g => { g with cause := 1 })
  else s

/-- A switchover whose link was lost ends with what the peer's HELLO says once the link is up again. -/
def settleOut (h : Hello) (was : Option Hello) (s : State) : State :=
  if was.isNone then endOut (if h.role = 1 then .success else .peerUnavailable) s else s

/-- A primary owes its secondary a resync: once for each time the link comes up, when IN_SYNC has been cleared, and when a resync whose
records have all been acknowledged has left it clear. A peer that is FAILED has not recovered (R476). -/
def resyncDue (h : Hello) (was : Option Hello) (s : State) : Bool :=
  decide (roleNow s = 1) && decide (h.role = 2) && decide (h.health ≠ 3) &&
    (!s.geo.resynced || (!h.inSync && ((was.any (·.inSync)) || (s.geo.unacked.isEmpty && s.geo.hold.isEmpty))))

/-- HELLO_RECEIVE: a record with a reserved value is counted in RECORD_ERR. -/
def execHelloReceive (s : State) : Host.Outcome State Fault Refusal :=
  .next (
    if !holdsRole s then s
    else
      withRecord geodeLink (isType 0x60) s fun r s =>
        if 2 < byteAt r 1 ∨ 3 < byteAt r 2 then linkCount geodeLink 9 1 s
        else
          let h := helloOf r
          let was := s.geo.peer
          let s := takeHelloAck h (s.mapGeo fun g => { g with peer := some h })
          let s := settleOut h was (resolveRoles h s)
          if resyncDue h was s then sendResync s else s)

/-! ## Time (R471) -/

/-- TIME_RECORD_SEND: every 1 ms on the primary while its clock runs. -/
def execTimeRecordSend (s : State) : Host.Outcome State Fault Refusal :=
  .next (if roleNow s = 1 ∧ s.tim.running = true then geodeSend (timeRecord s) s else s)

/-- The frequency that the secondary's internal loop chooses: within the clamp of R445, and not stated further, so a free value
(log 9). -/
def steer (s : State) : State :=
  let pick := fun (k : Nat) => ({ num := (Config.freeNat k % (1000000 * 2 ^ 16 + 1) : Nat) - 500000 * 2 ^ 16, exp := 16 } : Dyad)
  let k := s.free
  (s.tick.tick).mapTim fun t => { t with f := pick k, favg := pick (k + 1), servo := .tracking }

/-- TIME_RECORD_RECEIVE: the first record since the link came up, or an offset above 1 us, sets the clock; then its frequency is
steered. -/
def execTimeRecordReceive (s : State) : Host.Outcome State Fault Refusal :=
  .next (
    if roleNow s ≠ 2 ∨ !geoUp s then s
    else
      withRecord geodeLink (isType 0x68) s fun r s =>
        if !bitOf (byteAt r 25) 0 then s
        else
          let u : Int := ((wireAt r 8 8 * 1000000000 + wireAt r 16 4 + s.geo.oneWay) * 2 ^ 32 + wireAt r 20 4 : Nat)
          let far := decide (1000 * 2 ^ 32 < (clockUnits s - u).natAbs)
          let s :=
            if !s.geo.timeSet || !s.tim.running || far then
              rewait (s.mapTim fun t => { setClock u t with running := true, blockOn := true, rem := ⟨0, 0⟩ })
            else s
          steer (s.mapGeo fun g => { g with timeSet := true }))

/-- GEODE_ROUND_TRIP: every 10 ms the secondary sends an ECHO_REQ; its DATA is a free value. -/
def execGeodeRoundTrip (s : State) : Host.Outcome State Fault Refusal :=
  .next (
    if roleNow s = 2 ∧ geoUp s = true then
      let d := freeBytes 4 s
      modLink geodeLink (fun l => { l with ctl := l.ctl ++ [ctlRecord 4 0 d.1] }) (d.2.mapGeo fun g => { g with echoAt := some s.now })
    else s)

/-! ## Mirrored records (R470) -/

/-- CONFIG_RECEIVE: a CONFIG in CONFIG_SEQ order is applied; one that fails or a number skipped clears IN_SYNC. The whole MEMORY_SET that
begins a resync first discards what the secondary holds. -/
def execConfigReceive (s : State) : Host.Outcome State Fault Refusal :=
  .next (
    if roleNow s ≠ 2 then s
    else
      withMirror 0x64 s fun r s =>
        let c := cmdOfConfig r
        let seq := BitVec.ofNat 32 (wireAt r 4 4)
        let start := !s.geo.inSync && decide (c.opcode = 0x45) && decide (c.inl 32 4 / 2 = 0x7FF)
        let skips := s.geo.seqKnown && decide (seq ≠ s.geo.seq + 1)
        let s := if start then discardConfig s else s
        let s := if skips && !start then loseSync s else s
        let s := s.mapGeo fun g => { g with seq := seq, seqKnown := true }
        match applyMirrored c s with
        | some s' => s'
        | none => loseSync s)

/-- EPOCH_BEGIN_RECEIVE. -/
def execEpochBeginReceive (s : State) : Host.Outcome State Fault Refusal :=
  .next (
    if roleNow s ≠ 2 then s
    else
      withMirror 0x65 s fun r s =>
        let s := if s.geo.epochIn.isSome then loseSync s else s
        s.mapGeo fun g =>
          { g with epochIn := some { EpochIn.init with num := wireAt r 8 8, full := bitOf (byteAt r 1) 0, count := wireAt r 16 4 } })

/-- EPOCH_ENTRY_RECEIVE: an entry is written to its words, one carrying POISON poisoned, a partial write as Table 13.4 states; one that breaks its
table's rules fails (R469, R334, R335). -/
def execEpochEntryReceive (places : List Place) (merged : List Found) (s : State) : Host.Outcome State Fault Refusal :=
  .next (
    if roleNow s ≠ 2 then s
    else
      withMirror 0x66 s fun r s =>
        let n := byteAt r 1
        match s.geo.epochIn, table? s n with
        | some e, some t =>
          let b := r.drop 8
          let u := parseUpdate n t b
          let isIn := entryExists n t e.updates u.entry
          let bad := entryBad t u b || (decide (u.op = 0) && isIn) || ((decide (u.op = 1) || decide (u.op = 2)) && !isIn)
          let w := if bad then (u, false, loseSync s) else writeEntry .update (bitOf (byteAt r 2) 0) t u places merged s
          w.2.2.mapGeo fun g => { g with epochIn := some { e with updates := e.updates ++ [w.1] } }
        | _, _ => loseSync s)

/-- EPOCH_END_RECEIVE: the epoch switches under the primary's number, unless a brownout freeze defers it. -/
def execEpochEndReceive (s : State) : Host.Outcome State Fault Refusal :=
  .next (
    if roleNow s ≠ 2 then s
    else
      withMirror 0x67 s fun r s =>
        match s.geo.epochIn with
        | none => loseSync s
        | some e =>
          let s := if e.num = wireAt r 8 8 then s else loseSync s
          switchMirrored (s.mapGeo fun g => { g with epochIn := some { e with ended := true } }))

/-! ## The switchover (R473 to R475) -/

/-- HANDOVER_RECEIVE: the secondary takes primary and delivers frames from the next that begins. -/
def execHandoverReceive (s : State) : Host.Outcome State Fault Refusal :=
  .next (
    if roleNow s ≠ 2 then s
    else
      withMirror 0x61 s fun r s =>
        let cause := byteAt r 1
        if cause = 0 ∨ 2 < cause then linkCount geodeLink 9 1 s
        else
          let s := takePrimary (some { GeoIn.init with cause := cause }) s
          post 0xB001 1 1 cause (s.mapGeo fun g => { g with cause := cause }))

/-- DARK_RECEIVE: the old primary drives the panel no more. -/
def execDarkReceive (s : State) : Host.Outcome State Fault Refusal :=
  .next (withRecord geodeLink (isType 0x62) s fun _ s => s.mapGeo fun g => { g with inn := g.inn.map fun i => { i with dark := true } })

/-- GEODE_RAMP_UP_START: the transmitter enable time of R164 has passed; the ramp up begins once DARK has come, or without it where no
link can bring it (Table 18.5). -/
def execGeodeRampUpStart (s : State) : Host.Outcome State Fault Refusal :=
  .next (
    match s.geo.inn with
    | none => s
    | some i => if (i.dark || i.lost) && !i.ramping then geodeRampUp s else s)

/-- TAKEN_RECEIVE: the switchover is complete on the old primary. -/
def execTakenReceive (s : State) : Host.Outcome State Fault Refusal :=
  .next (withRecord geodeLink (isType 0x63) s fun _ s => endOut .success s)

/-! ## Link loss (R474) -/

/-- GEODE_LINK_LOSS: the link has gone down. A switchover under way on the new primary goes on without DARK; otherwise, with
SWITCH_ON_LINK_LOSS set, the primary takes secondary at once and the secondary clears OutputDisableTx. With both devices FAILED, the peer by its
last HELLO, the primary keeps its role (Table 18.5). -/
def execGeodeLinkLoss (s : State) : Host.Outcome State Fault Refusal :=
  .next (
    if !holdsRole s ∨ geoUp s = true ∨ s.geo.wasUp = false then s
    else
      let bothFailed := decide (healthState s = 3) && s.geo.peer.any fun h => decide (h.health = 3)
      let s := s.mapGeo fun g =>
        { g with
          wasUp := false, peer := none, hold := [], unacked := [], epochIn := none, echoAt := none
          inn := g.inn.map fun i => { i with lost := true } }
      if s.geo.inn.isSome ∨ s.bed.geoSll = false ∨ (roleNow s = 1 ∧ bothFailed = true) then s
      else if roleNow s = 1 then
        post 0xB001 1 2 3 ((takeSecondary s).mapGeo fun g => { g with cause := 3 })
      else if s.geo.out.isSome ∨ healthState s = 3 then s
      else (lightOn s).mapGeo fun g => { g with lossSince := some s.now })

/-- LINK_LOSS_TAKEOVER: t_ll of continuous link loss has passed: the secondary takes primary and ramps up without DARK. -/
def execLinkLossTakeover (s : State) : Host.Outcome State Fault Refusal :=
  .next (
    if s.geo.lossSince.isNone ∨ geoUp s = true ∨ roleNow s ≠ 2 ∨ healthState s = 3 ∨ s.bed.geoSll = false then s
    else
      let s := takePrimary (some { GeoIn.init with cause := 3, lost := true }) s
      geodeRampUp (post 0xB001 1 1 3 (s.mapGeo fun g => { g with cause := 3 })))

/-! ## Commands (R437, R472) -/

/-- GEODE_SET. -/
def execGeodeSet (id : Nat) (s : State) : Host.Outcome State Fault Refusal :=
  .next (runCmd id 0xB3
    (fun c _ => firstFail [(plainBad c 0 1 || decide (1 < c.byte 32), .invalidField)])
    (fun c s => .ok (s.mapBed fun b => { b with geoSll := bitOf (c.byte 32) 0 })) s)

/-- GEODE_SWITCHOVER: an EPOCH_COMMIT executing completes first (R443); it completes on TAKEN. -/
def execGeodeSwitchover (id : Nat) (s : State) : Host.Outcome State Fault Refusal :=
  .next (
    if !s.tbl.commits.isEmpty then s
    else
      runCmd id 0xB4
        (fun c _ => firstFail [(plainBad c 0 0, .invalidField)])
        (fun _ s =>
          if roleNow s ≠ 1 then .fail .permission s
          else if !peerCanTake s || !(s.geo.peer.any (·.inSync)) then .fail .peerUnavailable s
          else
            let s := handOver { GeoOut.init with cause := 1, cmd := some id } (awaitEnd id [] s)
            { Ran.ok s with done := false }) s)

/-- GEODE_STATUS: the peer's role and health read 0 and 7 while nothing is known of it. -/
def execGeodeStatus (id : Nat) (s : State) : Host.Outcome State Fault Refusal :=
  .next (runCmd id 0xB5
    (fun c _ => firstFail [(plainBad c 0 0, .invalidField)])
    (fun _ s =>
      let role := match peerNow s with
        | none => 0
        | some h => h.role
      let health := match peerNow s with
        | none => 7
        | some h => h.health
      { Ran.ok s with
        r0 := BitVec.ofNat 64 (roleNow s + 4 * role + 16 * b2n (geoUp s) + 32 * health + 256 * s.geo.cause)
        r1 := s.geo.mirrored }) s)

end Sys2Proof.Machine
end

