-- ==== Sys2Proof/Machine/Ports.lean ====
section
/-! DEFINITION. The meanings of the port rows: alignment, faults, FEC degrade, and the port commands (chapter 07 and R393
to R397). -/
namespace Sys2Proof.Machine

/-! ## Port states (Table 7.3) -/

/-- PORT_ALIGN_LOCK: ALIGNING to UP, PORT_UP posted. -/
def execPortAlignLock (port : Nat) (s : State) : Host.Outcome State Fault Refusal :=
  .next (
    match port? s port with
    | none => s
    | some q =>
      if q.state ≠ .aligning ∨ q.deleting = true then s
      else post 0x1010 0 port 0 (modPort port (fun q => { q with state := .up, skew := false, cut := false }) s))

/-- PORT_ALIGN_TIMEOUT: 10 ms in ALIGNING without lock while every lane stays ACQUIRED, or LOS_PENDING, which counts as acquired in
ALIGNING (Table 7.3, R172, R174). The cause SKEW shows from then on, until lock or the next timeout (DESIGN CHOICE, log 146). -/
def execPortAlignTimeout (port : Nat) (skew : Bool) (s : State) : Host.Outcome State Fault Refusal :=
  .next (
    match port? s port with
    | none => s
    | some q =>
      if q.state ≠ .aligning ∨ (q.loopback ≠ 2 ∧ (portLanes s port).any (fun n => !laneUp (lane s n)) = true) then s
      else
        let s := portCount port 39 1 (modPort port (fun q => { q with skew := skew }) s)
        if q.alignFailAt.any (fun t => decide (s.now < t + 60000000000)) then s
        else post 0x1012 1 port (b2n skew) (modPort port (fun q => { q with alignFailAt := some s.now }) s))

/-- PORT_ALIGNMENT_LOSS: alignment loss or the high symbol-error condition takes an UP port DOWN with cause PCS. -/
def execPortAlignmentLoss (port : Nat) (hiSer : Bool) (s : State) : Host.Outcome State Fault Refusal :=
  .next (
    if (port? s port).any (fun q => decide (q.state = .up)) then
      let s := portDown port 1 (portCount port (if hiSer then 37 else 38) 1 s)
      portTryAlign port s
    else s)

/-- REMOTE_FAULT_RECEIVED: columns that carry Remote Fault are counted; on an UP port RF sets (R175). -/
def execRemoteFaultReceived (port columns : Nat) (s : State) : Host.Outcome State Fault Refusal :=
  .next (
    match port? s port with
    | none => s
    | some q =>
      let s := portCount port 22 columns s
      if q.state = .up ∧ q.rf = false ∧ 0 < columns then post 0x1013 1 port 0 (modPort port (fun q => { q with rf := true }) s) else s)

/-- REMOTE_FAULT_CLEAR: 128 consecutive columns without Remote Fault (R175). -/
def execRemoteFaultClear (port : Nat) (s : State) : Host.Outcome State Fault Refusal :=
  .next (if (portD s port).state = .up then modPort port (fun q => { q with rf := false }) s else s)

/-- LOCAL_FAULT_RECEIVED: counted, and not acted on (R175). -/
def execLocalFaultReceived (port columns : Nat) (s : State) : Host.Outcome State Fault Refusal :=
  .next (portCount port 21 columns s)

/-! ## FEC degrade (R184) -/

/-- What a window counts on the lanes of a port: for each lane INNER_CORRECTED, RS_SYMBOLS_CORRECTED and the 17 bins of
RS_HISTOGRAM (Table 15.7), with their profiling events (Table 21.4). -/
def windowLanes : List Nat → List (List Nat) → State → State
  | n :: ns, l :: ls, s =>
    let get := fun k => (l[k]?).getD 0
    let s := forEach (List.range 19) (fun k s => laneCount n (2 + k) (get k) s) s
    windowLanes ns ls (profEvent 0x01 n (get 1) (profEvent 0x02 n (get 18) s))
  | _, _, s => s

/-- FEC_DEGRADE_WINDOW: the counts of 100 ms, and the ratio S of a window in which the port is UP (R184). With no codeword
received the ratio has no value: it is a free value (log 9). -/
def execFecDegradeWindow (port total corrected uncorrectable symbols errored : Nat) (lanes : List (List Nat)) (s : State) :
    Host.Outcome State Fault Refusal :=
  .next (
    match port? s port with
    | none => s
    | some q =>
      let s := windowLanes (portLanes s port) lanes s
      let s := portCount port 32 total (portCount port 33 corrected (portCount port 34 uncorrectable s))
      let s := portCount port 35 symbols (portCount port 36 errored s)
      let s := if total = 0 then s.tick else s
      let num := if total = 0 then Config.freeNat (s.free - 1) else symbols + 16 * uncorrectable
      let den := if total = 0 then 1 else 544 * total
      let last := sat 32 (num * 10000000 / den)
      if q.degSet = 0 then modPort port (fun q => { q with leftUp := false, lastS := 0 }) s
      else if q.leftUp then modPort port (fun q => { q with leftUp := false, clearWin := 0 }) s
      else if q.state ≠ .up then s
      else if q.degSet * den < num * 100000 then
        let s := modPort port (fun q => { q with degraded := true, clearWin := 0, lastS := last }) s
        post 0x1014 1 port last s
      else if num * 100000 ≤ q.degClear * den then
        let n := q.clearWin + 1
        if q.degraded ∧ 10 ≤ n then
          post 0x1015 0 port 0 (modPort port (fun q => { q with degraded := false, clearWin := 0, lastS := last }) s)
        else modPort port (fun q => { q with clearWin := n, lastS := last }) s
      else modPort port (fun q => { q with clearWin := 0, lastS := last }) s)

/-! ## PORT_CREATE (R166, R167, R393, R394) -/

/-- The lanes of a port form, if it is a row of Table 7.1. -/
def formLanes (rate mode : Nat) : Option Nat :=
  if mode = 0 then if rate ≤ 3 then some (2 ^ rate) else none
  else if 1 ≤ rate ∧ rate ≤ 4 then some (2 ^ (rate - 1)) else none

/-- Fields that PORT_CREATE and PORT_SET share are outside their encodings (Table 7.2, R168). -/
def portFieldBad (c : Cmd) (k : Nat) : Bool :=
  match k with
  | 0 => decide (c.inl 34 2 < 0x05EE) || decide (0x2800 < c.inl 34 2)
  | 1 => decide (1 < c.byte 36)
  | 2 => decide (c.byte 37 ≠ 0) && decide (c.byte 37 < c.byte 38)
  | _ => decide (3 < c.byte 39)

/-- PORT_CREATE's fields are bad, with the cage's media mode and the lanes' settings (R150, R166, R167, R394). -/
def portCreateBad (c : Cmd) (s : State) : Bool :=
  let p := c.target
  plainBad c 255 10 || decide (4 < c.byte 33) || [0, 1, 2, 3].any (portFieldBad c) || decide (0x40 < c.byte 40) ||
    decide (2 < c.byte 41) ||
    match formLanes (c.byte 33) (c.byte 41) with
    | none => true
    | some k =>
      decide (p % 8 % k ≠ 0) || (decide (c.byte 41 = 2) && ((cage s (p / 8)).c2m ||
        (List.range' p k).any fun n => decide ((lane s n).set.eqMode = 2)))

/-- The port that PORT_CREATE asks for. -/
def newPort (c : Cmd) (k : Nat) : Port :=
  { Port.init with
    rate := c.byte 33, lanes := k, mode := c.byte 41, maxFrame := c.inl 34 2, hold := bitOf (c.byte 36) 0, degSet := c.byte 37
    degClear := c.byte 38, loopback := c.byte 39, home := if c.byte 40 = 0x40 then c.target / 4 else c.byte 40 }

/-- The ingress queues of a port. -/
def portQueues (p : Nat) : List Nat := List.range' (8 * p) 8

/-- PORT_CREATE (R394). -/
def execPortCreate (id : Nat) (s : State) : Host.Outcome State Fault Refusal :=
  let k := fun (c : Cmd) => (formLanes (c.byte 33) (c.byte 41)).getD 1
  .next (runCmd id 0x10
    (fun c s => firstFail [
      (portCreateBad c s, .invalidField),
      ((List.range' c.target (k c)).any fun n => (lane s n).port.isSome, .objectExists),
      (!railUp s 5 || !railUp s 6 || !initDone s 0, .notReady),
      (decide (c.byte 39 = 3) && isSecondary s, .permission)])
    (fun c s =>
      let p := c.target
      let q0 := { Queue.init with emptyAt := s.now }
      let iq := (portQueues p).foldl (fun m i => mput m i q0) s.buf.iq
      if !qminFits (profile s) iq s.buf.eq s.buf.ingReserve s.buf.egrMinPool then .fail .noResource s
      else
        let q := newPort c (k c)
        let s := s.mapPorts fun b => { b with tab := mput b.tab p q }
        let s := s.mapBuf fun b => { b with iq := iq, causes := mdel (mdel b.causes (2 * p)) (2 * p + 1) }
        let s := forEach (portLanes s p) (fun n s => lanePower n p q.mode (decide (q.loopback = 1)) s) s
        let s := modCage (p / 8) (fun g => { g with dpDeact := g.dpDeact ||| hostBits s p }) s
        let s := portTryAlign p (cagePortAdded (p / 8) p s)
        { Ran.ok (laneCauses s) with r0 := BitVec.ofNat 64 q.home }) s)

/-! ## PORT_DELETE (R169, R182, R282, R285, R395) -/

/-- The egress queues under port node `p`. -/
def portEgress (s : State) (p : Nat) : List Nat := (s.buf.eq.map (·.1)).filter fun q => decide (eqPort s q = p)

/-- A calibration of a lane stops and its switch closes (R95); LANE_CALIBRATE completes ABORTED (Table 15.13). -/
def stopCal (n : Nat) (s : State) : State :=
  match (lane s n).cal with
  | none => s
  | some x =>
    let s := modLane n (fun l => { l with cal := none, waitSlot := false, swOpen := l.loop }) s
    match x.cmd with
    | none => s
    | some id => finish id .aborted 0 0 true s

/-- A port's deletion begins: its packets are flushed, its ingress queues go, a record towards the FE that has begun going on (R232), a frame that it is receiving is to end with a forced FCS error
(R182), its lanes ramp down to stop. -/
def portDeleteStart (p : Nat) (s : State) : State :=
  let s := s.mapSched fun x => { x with chosen := mdel x.chosen p }
  let s := forEach (portEgress s p) (flushQueue true) s
  let s := forEach (portQueues p) (flushQueue false) s
  let s := s.mapBuf fun b => { b with iq := b.iq.filter fun e => decide (e.1 / 8 ≠ p) }
  let s := s.mapGar fun g => { g with links := mmap g.links fun _ l => { l with txQueue := l.txQueue.filter fun q => decide (q / 8 ≠ p) } }
  let s := modPort p (fun q => { q with deleting := true, dp := .idle, cut := q.cut || decide (q.state = .up) }) s
  let s := modCage (p / 8) (fun g => { g with dpDeact := g.dpDeact ||| hostBits s p }) s
  let s := s.mapObs fun o => { o with bw := mmod o.bw p Bw.init fun w => { w with existed := false } }
  forEach (portLanes s p) (fun n s => laneRampDown n true (stopCal n s)) s

/-- PORT_DELETE: completes once none of its lanes drives its output (R395). -/
def execPortDelete (id : Nat) (s : State) : Host.Outcome State Fault Refusal :=
  .next (runCmd id 0x11
    (fun c s => firstFail [
      (decide (255 < c.target) || !noFields c, .invalidField),
      ((port? s c.target).isNone, .objectNotFound)])
    (fun c s => { Ran.ok (portDeleteSettle c.target (portDeleteStart c.target s)) with done := false }) s)

/-! ## PORT_SET (R176, R185 to R188, R396, R559) -/

/-- A change of LOOPBACK and what it does to the port's lanes and state: in NEAR_SERIAL each lane's switch is OPEN and it takes its input
from the loop path; a port that leaves NEAR_PARALLEL goes DOWN with the lowest lane that is not acquired, and with its first lane where
every lane is (R185 to R187, R559; log 147). -/
def setLoopback (p new : Nat) (s : State) : State :=
  match port? s p with
  | none => s
  | some q =>
    let old := q.loopback
    let s := modPort p (fun q => { q with loopback := new }) s
    if new = old then s
    else
      let firstBad := (portLanes s p).find? fun n => !laneUp (lane s n)
      let s :=
        if new = 1 ∨ old = 1 then
          let cause := if old = 2 then firstBad.getD p else p
          let down := decide (q.state = .aligning) || decide (q.state = .up)
          let s := if down then portDown p (cause * 256) s else s
          forEach (portLanes s p) (fun n s =>
            laneCold n (modLane n (fun l => { l with loop := decide (new = 1), swOpen := decide (new = 1) || (l.cal.any (·.running) && !l.waitSlot) }) s)) s
        else if old = 2 ∧ (q.state = .aligning ∨ q.state = .up) then
          match firstBad with
          | some n => portDown p (n * 256) s
          | none => s
        else s
      portTryAlign p s

/-- X200_REARM on a port in fallback: every lane returns to X200 and restarts cold (R396). -/
def rearmX200 (p : Nat) (s : State) : State :=
  if (portD s p).fallback then
    let s := modPort p (fun q => { q with fallback := false }) s
    forEach (portLanes s p) (fun n s => laneCold n (modLane n (fun l => { laneMode 2 l with altPosted := false }) s)) s
  else s

/-- PORT_SET (R396). -/
def execPortSet (id : Nat) (s : State) : Host.Outcome State Fault Refusal :=
  .next (runCmd id 0x12
    (fun c s =>
      let v := c.byte 32
      firstFail [
        (plainBad c 255 10 || decide (31 < v) || decide (c.byte 33 ≠ 0) || decide (c.byte 41 ≠ 0) ||
          [0, 1, 2, 3].any (fun k => sel v k && portFieldBad c k) || (sel v 4 && decide (1 < c.byte 40)), .invalidField),
        ((port? s c.target).isNone, .objectNotFound),
        (sel v 4 && bitOf (c.byte 40) 0 && decide ((portD s c.target).mode ≠ 2), .invalidField),
        (sel v 3 && decide (c.byte 39 = 3) && isSecondary s, .permission)])
    (fun c s =>
      let v := c.byte 32
      let p := c.target
      let s := modPort p (fun q =>
        { q with
          maxFrame := c.opt v 0 34 2 q.maxFrame
          hold := if sel v 1 then bitOf (c.byte 36) 0 else q.hold
          degSet := c.opt v 2 37 1 q.degSet, degClear := c.opt v 2 38 1 q.degClear
          lastS := if sel v 2 && decide (c.byte 37 = 0) then 0 else q.lastS }) s
      let s := if sel v 3 then setLoopback p (c.byte 39) s else s
      .ok (if sel v 4 && bitOf (c.byte 40) 0 then rearmX200 p s else s)) s)

/-! ## PORT_STATUS (R397) -/

/-- STATE of a port as reported. -/
def PortState.code : PortState → Nat
  | .preparing => 0
  | .aligning => 1
  | .up => 2
  | .down => 3

/-- The 392 bytes of Table 15.5. -/
def portBlock (s : State) (p : Nat) : List Byte :=
  let q := portD s p
  leBytes 1 (q.state.code + 8 * b2n q.rf + 16 * b2n q.degraded + 32 * b2n q.skew + 64 * b2n (canTransmit q)) ++
    leBytes 1 q.rate ++ leBytes 1 (q.mode + 4 * (lane s p).opMode + 16 * b2n q.fallback) ++ leBytes 1 q.home ++
    leBytes 2 q.maxFrame ++ leBytes 1 (b2n q.hold) ++ leBytes 1 q.degSet ++ leBytes 1 q.degClear ++ leBytes 1 q.loopback ++
    zeros 2 ++ leBytes 4 q.lastS ++ zeros 48 ++ ctrBlock q.ctr 41

/-- PORT_STATUS (R397). -/
def execPortStatus (id : Nat) (s : State) : Host.Outcome State Fault Refusal :=
  .next (runCmd id 0x13
    (fun c s => firstFail [
      (counterBlockBad c 255 392, .invalidField),
      ((port? s c.target).isNone, .objectNotFound)])
    (fun c s =>
      withBlock c (portBlock s c.target) s fun s =>
        if clearWrapOn c then modPort c.target (fun q => { q with ctr := ctrClearWrap q.ctr }) s else s) s)

end Sys2Proof.Machine
end

