-- ==== Sys2Proof/Machine/PowerOps.lean ====
section
/-! DEFINITION. Resets and what each clears, the start of the device, stopping and restarting what a rail or a clock feeds, and
QUIESCE and wake (chapters 03 and 19). -/
namespace Sys2Proof.Machine

/-! ## Resets (Table 3.7) -/

/-- The cage group while it is held: the levels of its five pins of each cage and nothing else (R46). -/
def heldPins (b : CageBank) : CageBank :=
  { tab := mmap b.tab fun _ g => { Cage.init with pwren := g.pwren, rstAsserted := g.rstAsserted, lpmLow := g.lpmLow, sclLow := g.sclLow, sdaLow := g.sdaLow } }

/-- The read latches of the Bedrock domain's registers, which only POR_N resets (R525, Table 22.1). -/
def bedrockLatches (s : State) : Map (BitVec 32) := s.hreg.latch.filter fun e => decide (0x40000 ≤ e.1)

/-- Everything outside the Bedrock domain returns to its reset; cage pins that are held keep their levels. A device whose stored Geode
role is primary will act as secondary until its link is up (Table 18.1). -/
def coreClear (s : State) : State :=
  { s with
    boot := Boot.init, hreg := { Hreg.init with latch := bedrockLatches s, slotLatch := s.hreg.slotLatch }, hif := Hif.init, fl := Flight.init, lanes := LaneBank.init
    cages := if s.bed.cageHeld then heldPins s.cages else CageBank.init
    ports := PortBank.init, gar := Garnet.init, buf := Buffer.init, sched := Sched.init, tbl := Tables.init, mem := Mem.init
    obs := Obs.init, tim := Tim.init, adc := Adc.init
    geo := { Geode.init with blind := decide (s.bed.geoRole = 1) } }

/-- OTP programming goes on through a reset, the commands in flight that waited for it being lost (R503). -/
def otpDetach (s : State) : State := s.mapGuard fun g => { g with otpProg := g.otpProg.map fun p => (p.1, p.2.1, none) }

/-- The guarded items that PERST_N and core reset restore (Table 20.5). -/
def guardRestore (s : State) : State :=
  s.mapGuard fun g => { g with dmaRestrict := false, windows := [], masks := [], bar4 := false, debug := false }

/-- PERST_N and core reset: everything outside the Bedrock domain is cleared, pending proposals are aborted, and no wake is under way
any more (Table 3.7, R485). -/
def outerReset (s : State) : State :=
  otpDetach (guardRestore (abortProposals ((coreClear s).mapRetn fun _ => Retain.init)))

/-- The effect of an assertion of PERST_N: none in RETAIN, nor while a wake waits for its start (R485). -/
def perstEffect (s : State) : State := if s.retn.inRetain || s.retn.waking then s else outerReset s

/-- A core reset (R65): the cause is logged, and the restart is awaited. The brownout episode ends with it. -/
def coreReset (code subject detail : Nat) (s : State) : State :=
  let s := logErr code subject detail s
  (outerReset s).mapBed fun b => { b with coreReset := true, firstCore := true, boActive := false }

/-- The bits of an OTP programming that a loss interrupts are programmed or not: free values (R503; log 9). -/
def otpInterrupt (s : State) : State :=
  match s.guard.otpProg with
  | [] => s
  | (off, data, _) :: _ =>
    let f := freeBytes data.length s
    let old := Memory.getBytes s.otp.bytes off data.length
    let new := (old.zip (data.zip f.1)).map fun x => x.1 ||| (x.2.1 &&& x.2.2)
    f.2.mapOtp fun o => { o with bytes := Memory.putBytes o.bytes off new }

/-- POR_N asserted, or VDD_BEDROCK lost: everything is cleared but board OTP, the fuses and what lies outside the device. The levels of
POR_N, PERST_N, the rails and the reference clocks are the board's. -/
def porReset (s : State) : State :=
  let s := otpInterrupt s
  { State.reset with
    pending := s.pending, now := s.now, free := s.free, hostLog := s.hostLog, otp := s.otp, fuse := s.fuse
    bed := { Bed.init with porAsserted := s.bed.porAsserted, perstPin := s.bed.perstPin, railOk := s.bed.railOk, refOk := s.bed.refOk } }

/-- The Bedrock domain starts: the straps are sampled, the log begins, the device area of board OTP is read (R69, R45, R504). -/
def bedrockStart (strap : Nat) (s : State) : State :=
  let s := s.mapBed fun b => { b with running := true, waitGroupA := false, clkChecked := false, clkInUse := false }
  let s := (s.mapMgmt fun m => { m with addr := 0x64 + strap % 4 }).mapElog fun l => { l with epoch := s.now }
  s.mapOtp fun o => { o with area := Memory.getBytes o.bytes 0 256 }

/-! ## The start (R54, R75, R76, R487 to R489) -/

/-- The TSRAM banks retained through RETAIN that will be checked, and not initialised. -/
def retainedBanks (s : State) : List Nat := if s.retn.waking && !s.retn.sramLost then maskBits 64 s.retn.banks else []

/-- A region's bit of INIT_DONE. -/
def regionBit (r : Nat) : BitVec 69 := (1 : BitVec 69) <<< r

/-- The regions whose initialisation runs from the start: ONDIE_BUF and every TSRAM bank that is not retained. -/
def initAtStart (banks : List Nat) : BitVec 69 :=
  (List.range 64).foldl (fun r b => if banks.contains b then r else r ||| ((1 : BitVec 69) <<< (1 + b))) 1

/-- The spare rows of the on-die banks that the fuse map names are switched in, before memory initialisation: at most 32 of a bank
(R341). -/
def spareRowsIn (s : State) : State :=
  s.mapMem fun m => { m with spares := s.fuse.spareRows.foldl (fun l r =>
    if (l.filter fun x => decide (x.1 = r.1 ∧ x.2.1 = r.2.1)).length < 32 then l ++ [r] else l) [] }

/-- The device starts: firmware, initialisation and, while REFCLK_PCIE is there (Table 3.6), PCIe training; after RETAIN the retained banks
are checked. The spare rows of the on-die banks are switched in first (R341). -/
def startDevice (s : State) : State :=
  let s := spareRowsIn s
  let banks := retainedBanks s
  let lost := if s.retn.waking && s.retn.sramLost then maskBits 64 s.retn.banks else []
  let s := s.mapBoot fun b =>
    { b with started := true, pcieTrain := s.bed.refOk.getLsbD 2, initRun := initAtStart banks }
  s.mapRetn fun r => { r with waking := false, check := banks, kept := [], lost := lost, hbmStacks := if r.waking && !r.hbmLost then r.hbmStacks else 0 }

/-- CLKREQ_N is asserted from PERST_N deassertion on, which takes effect at BEDROCK_UP, and is released only in RETAIN (R68, R75). -/
def clkreqOn (s : State) : State :=
  if s.bed.bedrockUp && !perstAsserted s && !s.retn.inRetain then s.mapBed fun b => { b with clkreq := true } else s

/-- The device starts once BEDROCK_UP is set, PERST_N is deasserted, group B is in range, REFCLK_OPT is valid, no core reset awaits its
restart and no trip holds it. -/
def tryStart (s : State) : State :=
  let s := clkreqOn s
  if s.bed.bedrockUp && !perstAsserted s && groupBUp s && !s.bed.tripped && !s.bed.coreReset && s.bed.refOk.getLsbD 0 &&
      !s.retn.inRetain && !s.boot.started then startDevice s
  else s

/-- The restart after a core reset: group B and REFCLK_OPT have been good for 1 ms; the device starts if PERST_N is deasserted then, and
otherwise at its deassertion (R65, Table 3.6). -/
def coreRestart (s : State) : State :=
  if s.bed.coreReset && groupBUp s && s.bed.refOk.getLsbD 0 then tryStart (s.mapBed fun b => { b with coreReset := false }) else s

/-- A wake source acts: the first one ends RETAIN, is logged, asserts WAKE_N, and the wake start follows when it can (R487). One that
acts during entry acts at the end of entry (R492). -/
def wake (source : Nat) (s : State) : State :=
  if !s.retn.inRetain then
    if s.boot.state = .retain ∧ s.retn.early = none then s.mapRetn fun r => { r with early := some source } else s
  else
    let s := (s.mapRetn fun r => { r with inRetain := false, waking := true }).mapBed fun b => { b with wakeN := true, wakeSource := source }
    tryStart (logErr 0x000C source 0 s)

/-- A deassertion of PERST_N, or the return of VDDIO_MGMT with it deasserted: it always wakes the device (R485, R486). -/
def perstRelease (s : State) : State := tryStart (wake 6 s)

/-! ## Lanes (R66, R71) -/

/-- A lane's supply or clock is gone: its calibration stops, its flag clears, its outputs release at once, it belongs to its port still
(R66, R147). -/
def laneStop (n : Nat) (s : State) : State :=
  let s := laneCold n (stopCal n s)
  let s := modLane n (fun l => { l with ready := false, tx := .hiZ, step := 0, state := .off, rot := none, cal := none, waitSlot := false }) s
  let s := cmdLaneDone 0x1B n s
  match (lane s n).port with
  | none => s
  | some p =>
    let s := modPort p (fun q => { q with dp := .idle }) s
    let s := modCage (n / 8) (fun g => if g.state = .ready then { g with dpDeact := g.dpDeact ||| (1 <<< (n % 8) : BitVec 8) } else g) s
    mediaSettle (n / 8) (portDeleteSettle p s)

/-- A lane of a port starts again from power-up: it keeps its settings, counters and operating mode, and waits for its calibration
(R66, R55). -/
def laneRestart (n : Nat) (s : State) : State :=
  let l := lane s n
  match l.port with
  | none => s
  | some p =>
    if !railUp s 5 || !railUp s 6 then s
    else modLane n (fun x => { x with ctr := l.ctr, opMode := l.opMode, altPosted := l.altPosted }) (lanePower n p l.cfgMode l.loop s)

/-- Every lane of a list that belongs to a port stops. -/
def lanesStop (l : List Nat) (s : State) : State :=
  laneCauses (forEach (l.filter fun n => (lane s n).port.isSome) laneStop s)

/-! ## Cages, Garnet (R66, R491, R165) -/

/-- VDDIO_CAGE is gone: every cage is ABSENT with its pins unpowered, and the commands that wait on its bus end (Table 3.2); the settings, the
counter and the latched flags stay (R162). Levels that were held are lost too, and the group counts as held still (DESIGN CHOICE, log 145). -/
def cagesStop (s : State) : State :=
  let waiters := s.cages.tab.flatMap fun g => cageWaiters g.2
  let s := s.mapCages fun b =>
    { b with tab := mmap b.tab fun _ g => { Cage.init with c2m := g.c2m, fast := g.fast, poll := g.poll, prsGlitch := g.prsGlitch, flags := g.flags, mediaCmd := g.mediaCmd } }
  let s := s.mapPorts fun b => { b with tab := mmap b.tab fun _ q => { q with dp := .idle } }
  finishAll waiters .aborted true s

/-- Every Garnet and Geode link goes down with a rail or clock; FAILED pairs wait for its return (Table 8.7). -/
def linksStop (reason : Nat) (s : State) : State :=
  forEach (List.range 129) (fun n s =>
    if (link s n).pairs.isEmpty && !(link s n).up then s else linkClear true n reason (abortPairCmds n s)) s

/-- Every Garnet and Geode link whose conditions hold starts its bring-up, its FAILED pairs with the others (Table 8.7). -/
def linksStart (s : State) : State :=
  forEach (List.range 129) (fun n s => linkStart n (if (link s n).pairs.isEmpty then s else unfailPairs n s)) s

/-! ## PLLs (R71) -/

/-- A PLL is locked: it runs while a block that it serves has work (R71; log 31). -/
def pllLocked (s : State) (i : Nat) : Bool :=
  if i < 32 then (List.range' (8 * i) 8).any fun n => decide ((lane s n).state ≠ .off)
  else if i < 36 then s.boot.fwReady && railUp s 7 && s.bed.refOk.getLsbD 1 && decide (s.gar.mode ≠ 0)
  else if i = 36 then s.boot.fwReady && railUp s 7 && s.bed.refOk.getLsbD 1 && holdsRole s
  else if i < 39 then s.boot.started
  else if i < 43 then s.boot.fwReady
  else if i = 43 then s.tim.blockOn
  else s.boot.pcieTrain

/-! ## QUIESCE (R478 to R480) -/

/-- The POWER_STATE that executes, if one does. -/
def powerCmds (s : State) : List Nat := cmdsWhere s fun c => decide (c.opcode = 0x90) && decide (c.phase = .executing)

/-- QUIESCE is reached once its ramps have ended: DPDeactivate is set on the host lanes of every port in a READY cage, and the command
completes. -/
def quiesceSettle (s : State) : State :=
  if s.boot.state = .quiesce ∧ s.boot.transition = true ∧ s.lanes.tab.all (fun l => !laneRamping l.2) = true then
    let s := forEach (s.ports.tab.map (·.1)) (fun p s =>
      modCage (p / 8) (fun g => if g.state = .ready then { g with dpDeact := g.dpDeact ||| hostBits s p } else g)
        (modPort p (fun q => { q with dp := .idle }) s)) s
    let s := (s.mapBoot fun b => { b with transition := false }).mapBuf fun b => { b with drain := false }
    finishAll (powerCmds s) .success true s
  else s

/-- Every queue of the device is empty. -/
def queuesEmpty (s : State) : Bool := (s.buf.iq ++ s.buf.eq).all fun q => q.2.pkts.isEmpty

/-- The drain ends: what remains is flushed, every transmitting lane ramps down to stop, and a muted one stops (Table 6.3). -/
def quiesceDrainEnd (s : State) : State :=
  let s := s.mapSched fun x => { x with chosen := [] }
  let s := forEach (s.buf.eq.map (·.1)) (flushQueue true) (forEach (s.buf.iq.map (·.1)) (flushQueue false) s)
  let s := s.mapBoot fun b => { b with state := .quiesce }
  let lit := (s.lanes.tab.filter fun l => decide (l.2.tx = .transmitting) || decide (l.2.tx = .rampUp) || decide (l.2.tx = .rampDown) ||
    decide (l.2.tx = .muted)).map (·.1)
  quiesceSettle (forEach lit (fun n s => laneRampDown n true s) s)

/-- A CREDIT record is queued on every link that is up (R480). -/
def creditAll (s : State) : State :=
  forEach ((List.range 64).filter fun n => (link s n).up) (fun n s =>
    modLink n (fun l =>
      let v := l.freed + BitVec.ofNat 32 l.set.credits
      let v := if (v - l.adv).toNat < 2 ^ 31 then v else l.adv
      { l with adv := v, ctl := l.ctl ++ [[0x41, 1, 0, 0] ++ beBytes 4 v.toNat ++ zeros 32] }) s) s

/-- QUIESCE ends: admission and credits resume, and the data-path step of every port runs again (R480). -/
def quiesceLeave (s : State) : State :=
  let s := (s.mapBoot fun b => { b with state := .active }).mapBuf fun b => { b with drain := false }
  forEach (s.ports.tab.map (·.1)) dpStart (creditAll s)

end Sys2Proof.Machine
end

