-- ==== Sys2Proof/Machine/PowerStates.lean ====
section
/-! DEFINITION. The device states, RETAIN and its wake, health, and the commands that identify the device (chapter 19, R387, R388,
R431 to R433). -/
namespace Sys2Proof.Machine

/-! ## DEVICE_IDENTIFY, DEVICE_STATUS, HEALTH_STATUS -/

/-- DEVICE_IDENTIFY (R387). -/
def execDeviceIdentify (id : Nat) (s : State) : Host.Outcome State Fault Refusal :=
  .next (runCmd id 0x01
    (fun c _ => firstFail [(plainBad c 0 0, .invalidField)])
    (fun _ s => { Ran.ok s with r0 := 0x0001000003115120, r1 := Config.serial }) s)

/-- The bytes of TEMP: 0x8000 for a sensor without a valid reading (Table 15.2). -/
def tempBlock (s : State) : List Byte :=
  (List.range 40).flatMap fun k => leBytes 2 (match sensor s k with
    | none => 0x8000
    | some t => unsigned 16 t)

/-- Readings of sensors at the moment they are reported (R555). -/
def takeTemps (temps : List (Nat × Option Int)) (s : State) : State := temps.foldl (fun s t => readSensor t.1 t.2 s) s

/-- The LANE_READY bits of the 256 lanes. -/
def laneReadyBits (s : State) : Nat := s.lanes.tab.foldl (fun n l => if l.2.ready && decide (l.1 < 256) then n + 2 ^ l.1 else n) 0
/-- The LINK_UP bits of the 64 Garnet links. -/
def linkUpBits (s : State) : Nat := s.gar.links.foldl (fun n l => if l.2.up && decide (l.1 < 64) then n + 2 ^ l.1 else n) 0

/-- The block of Table 15.2. -/
def deviceBlock (s : State) : List Byte :=
  leBytes 4 (b2n s.bed.bedrockUp + 2 * b2n s.boot.fwReady + 4 * b2n s.hif.hostReady + 8 * b2n (spillEnabled s)) ++
    leBytes 1 (healthState s) ++ leBytes 1 (roleNow s) ++ zeros 2 ++ leBytes 9 s.boot.initDone.toNat ++ zeros 7 ++
    leBytes 32 (laneReadyBits s) ++ leBytes 8 (linkUpBits s) ++ leBytes 1 (b2n (geoUp s)) ++ zeros 15 ++ tempBlock s ++ zeros 96

/-- DEVICE_STATUS (R388). -/
def execDeviceStatus (id : Nat) (temps : List (Nat × Option Int)) (s : State) : Host.Outcome State Fault Refusal :=
  .next (runCmd id 0x02
    (fun c _ => firstFail [(blockBad c 0 256, .invalidField)])
    (fun c s =>
      let s := takeTemps temps s
      withBlock c (deviceBlock s) s fun s => s) s)

/-- The health state in [7:0] and the causes in [19:8] (R433). -/
def healthWord (s : State) : Nat := healthState s + 256 * s.health.causes.toNat

/-- HEALTH_STATUS (R433). -/
def execHealthStatus (id : Nat) (s : State) : Host.Outcome State Fault Refusal :=
  .next (runCmd id 0x92
    (fun c _ => firstFail [(plainBad c 0 0, .invalidField)])
    (fun _ s => { Ran.ok s with r0 := BitVec.ofNat 64 (healthWord s) }) s)

/-! ## POWER_STATE (R431, R478, R480) -/

/-- Some other command executes. -/
def othersExecute (id : Nat) (s : State) : Bool := many s.fl.cmds fun k c => decide (k ≠ id) && decide (c.phase = .executing)

/-- POWER_STATE is ill formed: the RETAIN fields are zero with any other state. -/
def powerBad (c : Cmd) : Bool :=
  plainBad c 0 17 || decide (2 < c.byte 32) || decide (15 < c.byte 33) || !c.inlZero 34 2 || decide (31 < c.byte 48) ||
    (decide (c.byte 32 ≠ 2) && !c.inlZero 33 31)

/-- RETAIN is accepted: waiting timed commands complete ABORTED, and nothing more is fetched (R431). -/
def retainAccept (c : Cmd) (s : State) : State :=
  let waiting := cmdsWhere s fun c => decide (c.phase = .waiting)
  let s := finishAll waiting .aborted false s
  let s := s.mapBoot fun b => { b with state := .retain, retainAt := s.now }
  s.mapRetn fun _ =>
    { Retain.init with hbmStacks := c.byte 33, timer := c.inl 36 4, banks := c.inl 40 8, sources := c.byte 48 }

/-- POWER_STATE. -/
def execPowerState (id : Nat) (s : State) : Host.Outcome State Fault Refusal :=
  .next (runCmd id 0x90
    (fun c _ => firstFail [(powerBad c, .invalidField)])
    (fun c s =>
      let dest := c.byte 32
      if dest = 2 ∧ holdsRole s = true then .fail .permission s
      else if dest = 1 ∧ s.boot.state = .active then
        let s := (s.mapBoot fun b => { b with transition := true, quiesceSince := s.now }).mapBuf fun b => { b with drain := true }
        { Ran.ok (if queuesEmpty s then quiesceDrainEnd s else s) with done := false }
      else if dest = 0 ∧ s.boot.state = .quiesce then .ok (quiesceLeave s)
      else if dest = 2 ∧ s.boot.state = .quiesce ∧ othersExecute id s = false then .ok (retainAccept c s)
      else .fail .busy s) s)

/-- QUIESCE_DRAIN_END: every queue is empty, or 50 ms have passed and the rest is flushed (R478). -/
def execQuiesceDrainEnd (s : State) : Host.Outcome State Fault Refusal :=
  .next (if s.buf.drain ∧ s.boot.state = .active then quiesceDrainEnd s else s)

/-! ## RETAIN (R483, R488) -/

/-- A table goes into the retention directory: its banks are all retained, and every stack refreshes itself if it has blocks. -/
def recorded (r : Retain) (t : Table) : Bool :=
  t.banks.all (fun b => bitOf r.banks b) && (t.blocks.isEmpty || decide (r.hbmStacks = 15))

/-- What reading a whole bank finds: the words with an error that the list names, and those known to be poisoned. -/
def bankFound (s : State) (b : Nat) (found : List Found) : List Found := foundIn s (1 + b) (b * 2 ^ 18) (b * 2 ^ 18 + 2 ^ 18 - 1) found

/-- The signature of a bank: the CRC of its 2^18 words as read after correction, and the count of those that read uncorrectable (R488). Where
tables are stored in the bank their layout is not published: the CRC is then the one that the bank had, if a list of reads that give the
stored data says so, or else a free value (log 9). -/
def bankSig (b : Nat) (found : List Found) (had : Option (BitVec 32)) (s : State) : (BitVec 32 × Nat) × State :=
  let l := bankFound s b found
  let n := l.countP (unitBad s)
  if !(region s (1 + b)).mixed then ((crc32c (asRead s (1 + b) 0 (2 ^ 21) l), n), s)
  else
    match had with
    | some x =>
      if l.all fun f => decide (readData s f = storedBytes s f.region f.unit) then ((x, n), s)
      else ((BitVec.ofNat 32 (Config.freeNat s.free), n), s.tick)
    | none => ((BitVec.ofNat 32 (Config.freeNat s.free), n), s.tick)

/-- Stores the signature of every retained bank. -/
def signBanks (found : List Found) : List Nat → State → State
  | [], s => s
  | b :: r, s =>
    let x := bankSig b found none s
    signBanks found r (x.2.mapRetn fun t => { t with sigs := mput t.sigs b x.1 })

/-- The levels of Cc_SCL and Cc_SDA that are latched on entry to RETAIN: an idle bus is released; of one with a transfer in progress the spec
gives no level, so they are free values (R46; log 9). -/
def latchBus (s : State) : State :=
  forEach (List.range 32) (fun c s =>
    if (cage s c).i2c = [] then s
    else (modCage c (fun g => { g with sclLow := bitOf (Config.freeNat s.free) 0, sdaLow := bitOf (Config.freeNat s.free) 1 }) s).tick) s

/-- RETAIN_ENTRY: the directory and the signatures are written, the cage group is held, and all but the Bedrock domain powers down. -/
def execRetainEntry (found : List Found) (s : State) : Host.Outcome State Fault Refusal :=
  .next (
    if s.boot.state ≠ .retain then s
    else
      let r := s.retn
      let s := s.mapRetn fun x =>
        { x with
          epoch := s.tbl.epoch, part := s.mem.part
          tables := s.tbl.tables.filter fun t => recorded r t.2 }
      let s := signBanks found (maskBits 64 r.banks) s
      let keep := fun (n : Nat) => (decide (1 ≤ n) && decide (n ≤ 64) && bitOf r.banks (n - 1)) || (decide (65 ≤ n) && bitOf r.hbmStacks (n - 65))
      let regions := s.mem.regions.filter fun g => keep g.1
      let s := coreClear ((latchBus s).mapBed fun b => { b with cageHeld := true, clkreq := false })
      let s := s.mapMem fun m => { m with regions := regions.map fun g => (g.1, { Region.init with cells := g.2.cells, bad := g.2.bad, mixed := g.2.mixed }) }
      let s := s.mapRetn fun x => { x with inRetain := true, since := s.now }
      match s.retn.early with
      | none => s
      | some source => wake source s)

/-! ## Waking (R486 to R491) -/

/-- A wake source of POWER_STATE byte 48 acts: only one that is armed has an effect. -/
def wakeBy (bit : Nat) (s : State) : State := if bitOf s.retn.sources bit then wake (bit + 1) s else s

/-- WAKE_TIMER. -/
def execWakeTimer (s : State) : Host.Outcome State Fault Refusal := .next (if s.retn.timer = 0 ∨ s.retn.inRetain = false then s else wakeBy 1 s)

/-- WAKE_PRESENCE_CHANGE: the pin has its level only while VDDIO_CAGE is in range (Table 2.8, R44). -/
def execWakePresenceChange (cage' : Nat) (s : State) : Host.Outcome State Fault Refusal :=
  .next (if cage' < 32 ∧ railUp s 8 = true then wakeBy 2 s else s)

/-- WAKE_PPS_EDGE: the pin is unpowered while VDDIO_MGMT is missing (Table 2.8, R44). -/
def execWakePpsEdge (s : State) : Host.Outcome State Fault Refusal := .next (if railUp s 11 then wakeBy 3 s else s)

/-- WAKE_GARNET_ACTIVITY: inactive while VDD_GAR is out of range. -/
def execWakeGarnetActivity (link' : Nat) (s : State) : Host.Outcome State Fault Refusal :=
  .next (if link' < 64 ∧ railUp s 7 = true then wakeBy 4 s else s)

/-- The tables of the directory whose banks are all kept. -/
def restorable (r : Retain) : Map Table := r.tables.filter fun t => t.2.banks.all (fun b => r.kept.contains b) && (t.2.blocks.isEmpty || !r.hbmLost)

/-- Once every retained bank is checked, those of restored tables report INIT_DONE and the others are initialised (R490). -/
def banksSettle (s : State) : State :=
  let r := s.retn
  if !r.check.isEmpty then s
  else
    let used := (restorable r).flatMap fun t => t.2.banks
    let keep := r.kept.filter fun b => used.contains b
    let clear := (r.kept ++ r.lost).filter fun b => !keep.contains b
    let bits := fun (l : List Nat) => l.foldl (fun (x : BitVec 69) b => x ||| ((1 : BitVec 69) <<< (1 + b))) 0
    s.mapBoot fun b => { b with initDone := b.initDone ||| bits keep, initRun := b.initRun ||| (bits clear &&& ~~~ b.initDone) }

/-- A word of a retained bank is read at wake: counted, and a corrected one is written back corrected (R333, R488). -/
def checkWord (f : Found) (s : State) : State :=
  if unitBad s f then memRead .processor f s else writeBack f s

/-- RETAINED_BANK_CHECK: the bank is read in full; with an equal signature it is kept, with any other it is LOST (R488). -/
def execRetainedBankCheck (bank : Nat) (found : List Found) (s : State) : Host.Outcome State Fault Refusal :=
  .next (
    if !s.boot.started ∨ !s.retn.check.contains bank then s
    else
      let had := mfind s.retn.sigs bank
      let x := bankSig bank found (had.map (·.1)) s
      let equal := decide (had = some x.1)
      let s := (bankFound s bank found).foldl (fun s f => checkWord f s) x.2
      banksSettle (s.mapRetn fun r =>
        { r with
          check := r.check.filter (· ≠ bank)
          kept := if equal then r.kept ++ [bank] else r.kept
          lost := if equal then r.lost else r.lost ++ [bank] }))

/-! ## PAD_RELEASE (R432, R165, R491) -/

/-- A cage in the state that its module's ModuleState matches, with the data paths that are deactivated (R165). -/
def cageFrom (g : Cage) (m : ModReport) : Cage :=
  let st : CageState := if m.state = 3 then .ready else if m.state = 2 then .powerUp else .lowPower
  { g with
    state := st, present := true, info := some m.info, fastUsed := g.fast && m.info.fast
    dpDeact := (List.range 8).foldl (fun b i => if m.paths[i]? = some 1 then b ||| (1 <<< i : BitVec 8) else b) 0 }

/-- A cage goes on from its held levels with what its module reports; a module in ModuleFault faults it; without a module it is ABSENT
(R165, Table 6.8). -/
def cageResume (mods : List ModReport) (n : Nat) (s : State) : State :=
  match mods.find? fun m => decide (m.cage = n) with
  | none => modCage n (fun g => { g with state := .absent, present := false, pwren := false, rstAsserted := false, lpmLow := false }) s
  | some m =>
    let s := modCage n (fun g => cageFrom g m) s
    if m.state = 5 then cageFault n 7 s
    else match (cage s n).state with
    | .lowPower => cageLowPower n s
    | .powerUp => if cagePorts s n = [] then s else cageWriteApps n (cagePorts s n) s
    | .ready => forEach (cagePorts s n) dpStart (if cagePorts s n = [] then s else cageWriteApps n (cagePorts s n) s)
    | _ => s

/-- PAD_RELEASE: the cage blocks take over the held levels, for all 32 cages together; a group not held has no effect. -/
def execPadRelease (id : Nat) (mods : List ModReport) (s : State) : Host.Outcome State Fault Refusal :=
  .next (runCmd id 0x91
    (fun c _ => firstFail [(plainBad c 0 1 || decide (1 < c.byte 32), .invalidField)])
    (fun c s =>
      if bitOf (c.byte 32) 0 && s.bed.cageHeld then
        .ok (forEach (List.range 32) (cageResume mods) (s.mapBed fun b => { b with cageHeld := false }))
      else .ok s) s)

/-! ## Health (R338, R493) -/

/-- HW_ERROR: a read of a control-processor memory finds an uncorrectable word (R338). -/
def execHwError (word : BitVec 32) (s : State) : Host.Outcome State Fault Refusal :=
  .next (
    if !s.boot.started then s else cpFail word.toNat (memUe .processor 70 word.toNat s))

/-- VOLTAGE_FAIL_WINDOW_END: 60 minutes without a failure, after an acknowledged request, clear cause [15]. -/
def execVoltageFailWindowEnd (s : State) : Host.Outcome State Fault Refusal :=
  .next (if s.health.vackSince then clearCause 7 (s.mapHealth fun h => { h with vfails := [] }) else s)

end Sys2Proof.Machine
end

