-- ==== Sys2Proof/Machine/Guard.lean ====
section
/-! DEFINITION. The guard: proposals, confirmation, and the guarded items (R435, R436, R500 to R504). -/
namespace Sys2Proof.Machine

/-! ## The values of the guarded items (Table 16.8, R504) -/

/-- Bytes of the value of ACCESS_PERMISSIONS. -/
def permLen : Nat := 2312

/-- The window `w` of an ACCESS_PERMISSIONS value: base and size in 4 KiB units. -/
def permWindow (v : List Byte) (w : Nat) : Nat × Nat := (fieldAt v (8 + 16 * w) 8, fieldAt v (16 + 16 * w) 8)

/-- The group mask of ring pair `r` in an ACCESS_PERMISSIONS value. -/
def permMask (v : List Byte) (r : Nat) : Nat := fieldAt v (264 + 2 * r) 2

/-- An ACCESS_PERMISSIONS value has a reserved bit, an unaligned base, or less than every group for ring pair 0. -/
def permBad (v : List Byte) : Bool :=
  decide (1 < byteAt v 0) || !allZero (slice v 1 7) || ((List.range 16).any fun w => decide ((permWindow v w).1 % 4096 ≠ 0)) ||
    ((List.range 1024).any fun r => decide (16384 ≤ permMask v r)) || decide (permMask v 0 ≠ 0x3FFF)

/-- A byte of the device area may hold this value (Table 20.6). -/
def otpByteOk (off : Nat) (b : Byte) : Bool :=
  let n := b.toNat
  if off = 2 then decide (n < 8)
  else if off = 3 then decide (n = 0)
  else if off < 8 then true
  else if off = 8 then decide (n < 16)
  else if off = 9 then decide (n < 3)
  else if off < 0x10 then decide (n = 0)
  else if off < 0x50 then
    (if off % 4 = 0 then true else if off % 4 = 1 then decide (n < 16) else if off % 4 = 2 then decide (n < 3) else decide (n = 0))
  else if off < 0x100 then decide (n = 0)
  else true

/-- An OTP_WRITE needs a programmed bit to become 0, or writes a reserved value into the device area (R504). -/
def otpBad (s : State) (off : Nat) (data : List Byte) : Bool :=
  let old := Memory.getBytes s.otp.bytes off data.length
  ((List.range data.length).any fun i =>
    let d := (data[i]?).getD 0
    decide ((old[i]?).getD 0 &&& ~~~ d ≠ 0) || !otpByteOk (off + i) d)

/-- The row that an HBM_HARD_REPAIR value names: stack, channel, bank, row. -/
def repairRow (v : List Byte) : Nat × Nat × Nat × Nat := (byteAt v 0, byteAt v 1, byteAt v 2, fieldAt v 4 4)

/-- The row is under soft repair. -/
def softRow (s : State) (r : Nat × Nat × Nat × Nat) : Bool :=
  s.rep.soft.any fun e => decide (e.1 / 512 = r.1) && decide (e.2 = r.2)

/-! ## GUARD_PROPOSE, GUARD_ABORT, GUARD_STATUS -/

/-- The inline value of a proposal, bytes 40 to 47. -/
def Cmd.guardValue (c : Cmd) : List Byte := slice c.entry 40 8

/-- GUARD_PROPOSE is ill formed. -/
def proposeBad (c : Cmd) : Bool :=
  decide (c.target = 0) || decide (6 < c.target) || !c.inlZero 32 4 || decide (c.inl 36 4 = 0) || !c.inlZero 48 16 ||
    (match c.target with
    | 1 => decide (c.indLen ≠ permLen) || !c.inlZero 40 8
    | 2 => decide (c.indLen ≠ 0) || decide (1 < c.byte 40) || !c.inlZero 41 7
    | 3 => decide (c.indLen ≠ 0) || decide (2 < c.byte 40) || !c.inlZero 41 7
    | 4 => decide (c.indLen ≠ 0) || decide (3 < c.byte 40) || decide (31 < c.byte 41) || !c.inlZero 43 1
    | 5 =>
      decide (c.inl 44 4 = 0) || decide (4096 < c.inl 44 4) || decide (65536 < c.inl 40 4 + c.inl 44 4) || decide (c.indLen ≠ c.inl 44 4)
    | _ => decide (c.indLen ≠ 0) || decide (1 < c.byte 40) || !c.inlZero 41 7)

/-- Item 4 names a row that is not under soft repair. -/
def proposeMissing (c : Cmd) (s : State) : Bool := decide (c.target = 4) && !softRow s (repairRow c.guardValue)

/-- The value is held as a pending proposal, unless one for the item is pending; alert cause [8] is set (R499, R500). -/
def propose (id : Nat) (c : Cmd) (value : List Byte) (s : State) : Ran :=
  if mhas s.guard.props c.target then .fail .busy s
  else
    let p : Proposal :=
      { nonce := BitVec.ofNat 32 (c.inl 36 4), value := value, digest := crc32c value, rejects := 0, since := s.now, cmd := id }
    let s := s.mapGuard fun g => { g with props := mput g.props c.target p }
    { Ran.ok (awaitEnd id [] (s.mapMgmt fun m => { m with alert := m.alert ||| 1 })) with done := false }

/-- GUARD_PROPOSE (R435): the command completes when its proposal ends. -/
def execGuardPropose (id : Nat) (host : HostRead) (s : State) : Host.Outcome State Fault Refusal :=
  .next (runCmd id 0xB0
    (fun c s => firstFail [(proposeBad c, .invalidField), (proposeMissing c s, .objectNotFound)])
    (fun c s =>
      if c.target = 1 then
        withHost c c.indLen host s fun v => if permBad v then .fail .invalidField s else propose id c v s
      else if c.target = 5 then
        withHost c c.indLen host s fun v => if otpBad s (c.inl 40 4) v then .fail .invalidField s else propose id c (c.guardValue ++ v) s
      else propose id c c.guardValue s) s)

/-- GUARD_ABORT (R436). -/
def execGuardAbort (id : Nat) (s : State) : Host.Outcome State Fault Refusal :=
  .next (runCmd id 0xB1
    (fun c s => firstFail [
      (decide (c.target = 0) || plainBad c 6 8 || !c.inlZero 32 4 || decide (c.inl 36 4 = 0), .invalidField),
      ((mfind s.guard.props c.target).all fun p => decide (p.nonce.toNat ≠ c.inl 36 4), .objectNotFound)])
    (fun c s => .ok (endProposal c.target .aborted s)) s)

/-- The items with a proposal pending, bit i for item i. -/
def pendingItems (s : State) : Nat := s.guard.props.foldl (fun n p => n + 2 ^ p.1) 0

/-- GUARD_STATUS and GUARD_STATE have one layout (R436, Table 22.17). -/
def guardWord (s : State) : Nat :=
  pendingItems s + 256 * b2n s.guard.bar4 + 512 * b2n s.guard.debug + 1024 * roleNow s + 4096 * b2n s.guard.dmaRestrict

/-- GUARD_STATUS (R436). -/
def execGuardStatus (id : Nat) (s : State) : Host.Outcome State Fault Refusal :=
  .next (runCmd id 0xB2
    (fun c _ => firstFail [(plainBad c 0 0, .invalidField)])
    (fun _ s => { Ran.ok s with r0 := BitVec.ofNat 64 (guardWord s) }) s)

/-! ## Application (R503, Table 20.5) -/

/-- ACCESS_PERMISSIONS in force from a value; PERM_GEN counts the application (R536). -/
def applyPermissions (v : List Byte) (s : State) : State :=
  let windows := (List.range 16).filterMap fun w =>
    if (permWindow v w).1 = 0 ∧ (permWindow v w).2 = 0 then none else some (w, (permWindow v w).1, 4096 * (permWindow v w).2)
  let masks := (List.range 1024).filterMap fun r => if permMask v r = 0x3FFF then none else some (r, BitVec.ofNat 16 (permMask v r))
  s.mapGuard fun g =>
    { g with dmaRestrict := decide (byteAt v 0 = 1), windows := windows, masks := masks, permGen := g.permGen + 1 }

/-- A hard repair is confirmed: recorded, to be performed at the stack's next training; a row no longer under soft repair completes
OBJECT_NOT_FOUND (R343, R538). -/
def confirmRepair (r : Nat × Nat × Nat × Nat) (s : State) : Status × State :=
  if !softRow s r then (.objectNotFound, s)
  else
    let s := logErr 0x0008 (256 * r.1 + r.2.1) (2 ^ 24 * r.2.2.1 + r.2.2.2) s
    (.success, s.mapRep fun x => { x with hardWait := if x.hardWait.contains r then x.hardWait else x.hardWait ++ [r] })

/-- Applies the item of a confirmed proposal, and its GUARD_PROPOSE completes: at once, after a switchover, or after programming. -/
def applyItem (item : Nat) (p : Proposal) (s : State) : State :=
  let on := decide (byteAt p.value 0 = 1)
  match item with
  | 1 => finish p.cmd .success 0 0 true (applyPermissions p.value s)
  | 2 => finish p.cmd .success 0 0 true (s.mapGuard fun g => { g with bar4 := on })
  | 3 =>
    match applyRole p.cmd (byteAt p.value 0) s with
    | (some st, s) => finish p.cmd st 0 0 (decide (st = .success)) s
    | (none, s) => s
  | 4 =>
    let r := confirmRepair (repairRow p.value) s
    finish p.cmd r.1 0 0 (decide (r.1 = .success)) r.2
  | 5 => s.mapGuard fun g => { g with otpProg := g.otpProg ++ [(fieldAt p.value 0 4, p.value.drop 8, some p.cmd)] }
  | _ => finish p.cmd .success 0 0 true (s.mapGuard fun g => { g with debug := on })

/-! ## The BMC's side (R501, R502) -/

/-- GUARD_RESULT. -/
def guardResult (v : Nat) (s : State) : State := s.mapGuard fun g => { g with result := BitVec.ofNat 8 v }

/-- A confirmation is rejected for its nonce or digest; the third rejection of a proposal aborts it (R501). -/
def rejectConfirm (item v : Nat) (p : Proposal) (s : State) : State :=
  if 2 ≤ p.rejects then guardResult 4 (endProposal item .aborted s)
  else guardResult v (s.mapGuard fun g => { g with props := mput g.props item { p with rejects := p.rejects + 1 } })

/-- A confirmation reaches the Bedrock domain (Tables 20.3 and 20.4). -/
def confirm (item : Nat) (nonce digest : BitVec 32) (s : State) : State :=
  if healthState s = 3 then guardResult 5 s
  else
    match mfind s.guard.props item with
    | none => guardResult 1 s
    | some p =>
      if p.nonce ≠ nonce then rejectConfirm item 2 p s
      else if p.digest ≠ digest then rejectConfirm item 3 p s
      else
        let s := s.mapGuard fun g => { g with props := mdel g.props item, result := 0 }
        applyItem item p (s.mapMgmt fun m => { m with alert := m.alert ||| 2 })

/-- An abort by the BMC reaches the Bedrock domain. -/
def bmcAbort (item : Nat) (nonce : BitVec 32) (s : State) : State :=
  match mfind s.guard.props item with
  | none => guardResult 1 s
  | some p => if p.nonce ≠ nonce then guardResult 2 s else guardResult 0 (endProposal item .aborted s)

/-- GUARD_WINDOW_END: t_guard ends without a confirmation (R500, Table 20.4). -/
def execGuardWindowEnd (item : Nat) (s : State) : Host.Outcome State Fault Refusal := .next (endProposal item .timeout s)

/-- OTP_PROGRAM_DONE: the bits of the confirmed range are programmed and verified; they take effect at the next POR_N deassertion (R503,
R504). -/
def execOtpProgramDone (s : State) : Host.Outcome State Fault Refusal :=
  .next (
    match s.guard.otpProg with
    | [] => s
    | (off, data, cmd) :: r =>
      let old := Memory.getBytes s.otp.bytes off data.length
      let new := (old.zip data).map fun x => x.1 ||| x.2
      let s := s.mapOtp fun o => { o with bytes := Memory.putBytes o.bytes off new }
      let s := s.mapGuard fun g => { g with otpProg := r }
      match cmd with
      | none => s
      | some id => finish id .success 0 0 true s)

end Sys2Proof.Machine
end

