-- ==== Sys2Proof/Machine/MemCmds.lean ====
section
/-! DEFINITION. The scrubbers, the corrected-error window, HBM repair and retraining, the arbiter, and the memory diagnostics
(chapter 13, R434). -/
namespace Sys2Proof.Machine

/-! ## Scrubbing (R339) -/

/-- The region that keeps a scrubber's position, and the words of its pass before any of the control-processor memories: the on-die one walks
ONDIE_BUF and every TSRAM bank; of ONDIE_BUF it walks the buffer first, then the TSRAM banks, then its descriptor and control-processor
memories (the order is the model's, log 155). -/
def scrubHome (k : Nat) : Nat × Nat := if k = 0 then (0, 2 ^ 25 + 2 ^ 24 + 2 ^ 20) else (64 + k, 2 ^ 29)
/-- The region and word or unit at a scrubber's position. -/
def scrubAt (k p : Nat) : Nat × Nat :=
  if k ≠ 0 then (64 + k, unitBase (64 + k) + p)
  else if p < 2 ^ 25 then (0, p)
  else if p < 2 ^ 25 + 2 ^ 24 then (1 + (p - 2 ^ 25) / 2 ^ 18, p - 2 ^ 25)
  else if p < 2 ^ 25 + 2 ^ 24 + 2 ^ 20 then (69, p - (2 ^ 25 + 2 ^ 24))
  else (70, p - (2 ^ 25 + 2 ^ 24 + 2 ^ 20))
/-- A position is not the last of a scrubber's pass. -/
def scrubGoesOn (k p : Nat) : Bool :=
  decide (p + 1 < (scrubHome k).2) || (decide (k = 0) && decide (p + 1 < (scrubHome k).2 + Config.cpWords))
/-- The period of a scrubber in ns. -/
def scrubPeriod (s : State) (k : Nat) : Nat := (if k = 0 then s.mem.scrubOd else s.mem.scrubHbm) * hourNs

/-- SCRUB_STEP: the next word is read; a corrected one is written back, an uncorrectable one that is not yet poisoned is written back
poisoned; the pass is counted at its end (R339). An uncorrectable word of a control-processor memory fails the device (R338). -/
def execScrubStep (scrubber flips slip : Nat) (s : State) : Host.Outcome State Fault Refusal :=
  .next (
    let h := scrubHome scrubber
    let p := (region s h.1).scrub
    let w := scrubAt scrubber p
    if 4 < scrubber ∨ initDone s (homeRegion w.1) = false then s
    else
      let f : Found := { region := w.1, unit := w.2, flips := flips, slip := slip }
      let bad := unitBad s f
      let s := writeBack f s
      let s := if bad && decide (w.1 = 70) then cpFail w.2 s else s
      if scrubGoesOn scrubber p then modRegion h.1 (fun g => { g with scrub := p + 1 }) s
      else
        let late := decide (scrubPeriod s scrubber * 110 < (s.now - (region s h.1).passAt) * 100)
        let s := modRegion h.1 (fun g => { g with scrub := 0, passAt := s.now }) (regionCount h.1 4 1 s)
        if late then regionCount h.1 5 1 s else s)

/-- The corrected-error window of one region at the end of a clock hour (R340). -/
def ceHour (r : Nat) (s : State) : State :=
  let g := region s r
  let limit := if r ≤ 64 then s.mem.ceOd else s.mem.ceHbm
  if limit ≠ 0 ∧ limit < g.ceHour then
    post 0x4002 1 r g.ceHour (modRegion r (fun g => { g with ceHour := 0, overAt := some 0 }) s)
  else
    let overAt := match g.overAt with
      | none => none
      | some k => if 24 ≤ k + 1 then none else some (k + 1)
    if g.ceHour = 0 ∧ g.overAt = none then s else modRegion r (fun g => { g with ceHour := 0, overAt := overAt }) s

/-- CE_HOUR_WINDOW: each region's count is compared with its limit; cause [10] holds while a region is above it (R340). -/
def execCeHourWindow (s : State) : Host.Outcome State Fault Refusal :=
  .next (
    let s := forEach (List.range 69) ceHour s
    putCause 2 (many s.mem.regions fun _ g => g.overAt.isSome) s)

/-! ## Repair and retraining (R342 to R345) -/

/-- The lowest invalid entry of a stack's soft repair list (R538). -/
def softSlot (s : State) (m : Nat) : Option Nat := (List.range' (512 * m) 512).find? fun j => !mhas s.rep.soft j

/-- A unit of a stack lies in a row of a channel; where in the stack's banks the units lie is its own (Config.hbmRow, log 157). -/
def inRow (m ch bank row u : Nat) : Bool :=
  decide (u / 2 ^ 29 = m) && decide (channelOf u = ch) && decide (Config.hbmRow u = (bank, row))

/-- A row qualifies for repair: a unit in it has read uncorrectable, or two of its units have read corrected within 24 h (R342). -/
def rowQualifies (s : State) (m ch bank row : Nat) : Bool :=
  let l := (stack s m).errs.filter fun e => inRow m ch bank row e.unit && (e.bad || decide (s.now < e.time + 24 * hourNs))
  l.any (fun e => e.bad) || decide (2 ≤ l.length)

/-- The errors remembered of a row are forgotten: it has been repaired, or given up. -/
def forgetRow (m ch bank row : Nat) (s : State) : State :=
  modStack m (fun x => { x with errs := x.errs.filter fun e => !inRow m ch bank row e.unit }) s

/-- A page of the buffer partition has a cell in a row, and is not yet withdrawn (R344). -/
def pageInRow (s : State) (m ch bank row k : Nat) : Bool :=
  decide (k < totalPages s) && !s.buf.pagesOut.contains k && (List.range' (pageUnit k) 128).any (inRow m ch bank row)

/-- A qualifying row has no resource left: its pages are withdrawn until the next core reset (R344). -/
def repairExhausted (m ch bank row : Nat) (pages : List Nat) (s : State) : State :=
  let gone := (pages.filter (pageInRow s m ch bank row)).eraseDups
  post 0x4004 2 (65536 * m + ch) row (s.mapBuf fun b => { b with pagesOut := b.pagesOut ++ gone })

/-- SOFT_REPAIR: a qualifying row is repaired, at most one per stack and second, not during a brownout freeze; without a resource or
a list entry left, HBM_REPAIR_EXHAUSTED and the pages of the row are withdrawn (R342, R344, R538, R351). The repair, with its bank held, is one
indivisible event (log 157). -/
def execSoftRepair (stack' ch bank row : Nat) (free : Bool) (found : List Found) (pages : List Nat) (s : State) :
    Host.Outcome State Fault Refusal :=
  let m := stack'
  .next (
    let busy := match (stack s m).repairAt with
      | none => false
      | some t => decide (s.now < t + 1000000000)
    if busy || s.bed.boActive || !initDone s (65 + m) || decide (3 < m) || !rowQualifies s m ch bank row then s
    else
      match softSlot s m with
      | some j =>
        if free then
          let s := (found.filter fun f => decide (f.region = 65 + m) && inRow m ch bank row f.unit).foldl (fun s f => writeBack f s) s
          let s := forgetRow m ch bank row s
          let s := s.mapRep fun r => { r with soft := mput r.soft j (ch, bank, row) }
          let s := modStack m (fun x => { x with soft := x.soft.add 1, repairAt := some s.now, inForce := x.inForce ++ [(ch, bank, row)] }) s
          let s := logErr 0x0007 (256 * m + ch) (2 ^ 24 * bank + row) s
          repairCause (post 0x4003 1 (65536 * m + ch) row s)
        else repairExhausted m ch bank row pages (forgetRow m ch bank row s)
      | none => repairExhausted m ch bank row pages (forgetRow m ch bank row s))

/-- Cause [13] holds while a channel that set it has not had 3,600 accepted retrains in a row (Table 19.6). -/
def retrainCause (s : State) : State := putCause 5 (!s.health.hbmRetrFail.isEmpty) s

/-- HBM_CHANNEL_RETRAIN: the interface timing is retrained, deferred during a brownout freeze; a rejected result leaves the timing, and
three in a row set cause [13] (R345). -/
def execHbmChannelRetrain (stack' ch : Nat) (accepted : Bool) (s : State) : Host.Outcome State Fault Refusal :=
  let m := stack'
  let k := 32 * m + ch
  .next (
    if !initDone s (65 + m) || decide (3 < m) || decide (31 < ch) then s
    else if s.bed.boActive then modChannel k (fun c => { c with due := true }) s
    else
      let s := modChannel k (fun c => { c with due := false, retrains := c.retrains.add 1 }) s
      if accepted then
        let s := modChannel k (fun c => { c with rejects := 0 }) s
        let s := s.mapHealth fun h =>
          { h with hbmRetrFail := (mmap h.hbmRetrFail fun j n => if j = k then n + 1 else n).filter fun e => decide (e.2 < 3600) }
        retrainCause s
      else
        let s := modChannel k (fun c => { c with rejects := c.rejects + 1, rejected := c.rejected.add 1 }) s
        let s := s.mapHealth fun h => { h with hbmRetrFail := mmap h.hbmRetrFail fun j n => if j = k then 0 else n }
        if (channel s k).rejects = 3 then
          post 0x4005 2 (65536 * m + ch) 0
            (retrainCause (s.mapHealth fun h => { h with hbmRetrFail := mput h.hbmRetrFail k 0 }))
        else s)

/-! ## The arbiter (R346 to R349) -/

/-- Depth of a channel's queue. -/
def queueDepth : Nat := 256

/-- Requests whose age has passed ten times their budget are counted once in ARB_OVERDUE (R348). -/
def markOverdue (k : Nat) (s : State) : State :=
  let due := fun (r : Req) => !r.overdue && decide (10 * (r.deadline - r.entered) < s.now - r.entered)
  let late := (channel s k).queue.filter due
  if late.isEmpty then s
  else
    let s := modChannel k (fun c => { c with queue := c.queue.map fun r => if due r then { r with overdue := true } else r }) s
    modStack (k / 32) (fun x => { x with overdue := late.foldl (fun m r => ctrAdd m r.cls 1) x.overdue }) s

/-- A request stamped as it enters a queue (R347). -/
def stampReq (s : State) (r : Req) : Req := { r with entered := s.now, deadline := s.now + (s.mem.budget[r.cls]?).getD 0 }

/-- The waiting request that the next free place goes to: the lowest class, then the earliest. -/
def nextWaiter : List Req → Option Req
  | [] => none
  | r :: l =>
    match nextWaiter l with
    | none => some r
    | some x => if x.cls < r.cls then some x else some r

/-- Free places go to waiting requesters. -/
def refill (k : Nat) : Nat → State → State
  | 0, s => s
  | n + 1, s =>
    let c := channel s k
    if queueDepth ≤ c.queue.length then s
    else
      match nextWaiter c.waiting with
      | none => s
      | some r => refill k n (modChannel k (fun c => { c with queue := c.queue ++ [stampReq s r], waiting := c.waiting.erase r }) s)

/-- The arbiter class of a request, by its source (Table 13.6). -/
def requestClass : Requester → Nat
  | .egressFetch => 0
  | .lookup | .tableUpdate | .ingressFetch => 1
  | .egressSpill => 2
  | .ingressSpill => 3
  | .mirrorRead | .mirrorWrite => 4
  | .diagnostic | .indirectData => 5
  | .scrubber | .repair => 6

/-- HBM_REQUEST_ENTER: a request enters its channel's queue with its deadline, or waits outside a full one (R346, R347). -/
def execHbmRequestEnter (stack' ch : Nat) (source : Requester) (bank key : Nat) (s : State) : Host.Outcome State Fault Refusal :=
  let k := 32 * stack' + ch
  .next (
    if 3 < stack' ∨ 31 < ch then s
    else
      let s := markOverdue k s
      let r : Req := { Req.init with cls := requestClass source, bank := bank, id := key }
      modChannel k (fun c =>
        if c.queue.length < queueDepth then { c with queue := c.queue ++ [stampReq s r] } else { c with waiting := c.waiting ++ [r] }) s)

/-- HBM_REQUEST_WITHDRAW: before its grant a request leaves at no cost; after it, its slot is dead (R349). -/
def execHbmRequestWithdraw (stack' ch key : Nat) (s : State) : Host.Outcome State Fault Refusal :=
  let k := 32 * stack' + ch
  .next (
    let s := markOverdue k s
    let c := channel s k
    let mine := fun (r : Req) => decide (r.id = key)
    match c.queue.find? mine with
    | some r => refill k 1 (modChannel k (fun c => { c with queue := c.queue.erase r }) s)
    | none =>
      match c.waiting.find? mine with
      | some r => modChannel k (fun c => { c with waiting := c.waiting.erase r }) s
      | none =>
        if c.issued.any mine then
          profEvent 0x0D stack' 1 (modStack stack' (fun x => { x with dead := x.dead.add 1 }) (modChannel k (fun c => { c with issued := none }) s))
        else s)

/-- The request that a slot issues: of those whose bank can accept a command, the nearest deadline, then the lower class, then the
earlier entry (R347). -/
def pickReq (busy : List Nat) (l : List Req) : Option Req :=
  (l.filter fun r => !busy.contains r.bank).foldl (fun o r =>
    match o with
    | none => some r
    | some x => if r.deadline < x.deadline ∨ (r.deadline = x.deadline ∧ r.cls < x.cls) then some r else some x) none

/-- CHANNEL_SLOT: one slot of 1 ns of a channel (R347). -/
def execChannelSlot (stack' ch : Nat) (busy : List Nat) (s : State) : Host.Outcome State Fault Refusal :=
  let k := 32 * stack' + ch
  .next (
    let s := markOverdue k s
    match pickReq busy (channel s k).queue with
    | none => if (channel s k).issued.isNone then s else modChannel k (fun c => { c with issued := none }) s
    | some r => refill k 1 (profEvent 0x0C stack' 1 (modChannel k (fun c => { c with queue := c.queue.erase r, issued := some r }) s)))

/-! ## MEM_READ and MEM_WRITE (R334, R335, R337, R434) -/

/-- OFFSET of a memory command. -/
def Cmd.memOff (c : Cmd) : Nat := c.inl 32 8
/-- LENGTH of a memory command. -/
def Cmd.memLen (c : Cmd) : Nat := c.inl 40 4

/-- Checks of step 3. -/
def memCmdBad (c : Cmd) : Bool :=
  shapeBad c 68 12 || decide (c.memLen < 1) || decide (16777216 < c.memLen) || decide (c.indLen ≠ c.memLen) ||
    decide (regionBytes c.target < c.memOff + c.memLen)

/-- The smallest of a list, or `d`. -/
def minOf (d : Nat) (l : List Nat) : Nat := l.foldl min d

/-- MEM_READ: the bytes as read; DATA_POISONED with the index of the first poisoned word (R337, R434). Where packets or tables have
been stored the bytes are free values. -/
def execMemRead (id : Nat) (found : List Found) (s : State) : Host.Outcome State Fault Refusal :=
  .next (runCmd id 0xA0
    (fun c _ => firstFail [(memCmdBad c, .invalidField)])
    (fun c s =>
      let r := c.target
      let w := wordBytes r
      let lo := unitBase r + c.memOff / w
      let hi := unitBase r + (c.memOff + c.memLen - 1) / w
      if !initDone s r then .fail .notReady s
      else if !dmaAllowed s c.indAddr c.memLen then .fail .permission s
      else
        let l := foundIn s r lo hi found
        let bad := (l.filter (unitBad s)).map (·.unit)
        let bytes := asRead s r c.memOff c.memLen l
        let s := memReads .diagnostic l s
        let data := if (region s r).mixed then freeBytes c.memLen s else (bytes, s)
        let s := writeBlock c data.1 data.2
        if bad.isEmpty then .ok s
        else { st := .dataPoisoned, r0 := BitVec.ofNat 64 (minOf hi bad), s := s }) s)

/-- The words of a range that a write covers only in part: its first and its last. -/
def partialWords (r off len : Nat) : List Nat :=
  let w := wordBytes r
  let first := if off % w ≠ 0 ∨ len < w then [unitBase r + off / w] else []
  let e := off + len
  if e % w ≠ 0 then linsert first (unitBase r + e / w) else first

/-- MEM_WRITE: whole words are written clean, and partial ones as Table 13.4 states. -/
def execMemWrite (id : Nat) (host : HostRead) (found : List Found) (s : State) : Host.Outcome State Fault Refusal :=
  .next (runCmd id 0xA1
    (fun c _ => firstFail [(memCmdBad c, .invalidField)])
    (fun c s =>
      let r := c.target
      let w := wordBytes r
      if !initDone s r then .fail .notReady s
      else if !s.guard.debug then .fail .guardRequired s
      else
        withHost c c.memLen host s fun bytes =>
          let parts := partialWords r c.memOff c.memLen
          let l := parts.flatMap fun u => foundIn s r u u found
          let dirty := (l.filter (unitBad s)).map (·.unit)
          let read := l.map fun f => (f.unit, readData s f)
          let s := l.foldl (fun s f => mergeRead .diagnostic f s) s
          let lo := unitBase r + c.memOff / w
          let hi := unitBase r + (c.memOff + c.memLen - 1) / w
          let s := modRegion r (fun g =>
            { g with
              cells := Memory.putBytes (read.foldl (fun m x => Memory.putBytes m ((x.1 - unitBase r) * w) x.2) g.cells) c.memOff bytes
              bad := dirty.foldl linsert (g.bad.filter fun u => decide (u < lo) || decide (hi < u)) }) s
          let s := if r = 0 then forEach (List.range' (lo / 32) (hi / 32 + 1 - lo / 32)) cellWritten s else s
          if dirty.isEmpty then .ok s else { st := .dataPoisoned, s := s }) s)

end Sys2Proof.Machine
end

