-- ==== Sys2Proof/Machine/Mgmt.lean ====
section
/-! DEFINITION. The management port: the BMC's SMBus transactions (R497 to R499, R501, R504). -/
namespace Sys2Proof.Machine

/-- The port answers its address: BEDROCK_UP, and VDDIO_MGMT in range (R498, R44). -/
def portLive (s : State) : Bool := s.bed.bedrockUp && railUp s 11

/-- The SMBus PEC of the bytes of a transaction, address bytes included: the CRC-8 of SMBus, x^8 + x^2 + x + 1 (R498; log 160). -/
def pecOf (l : List Byte) : Byte :=
  l.foldl (fun c b => (List.range 8).foldl (fun (c : Byte) _ => if c.msb then (c <<< 1) ^^^ 0x07 else c <<< 1) (c ^^^ b)) 0

/-- The port's address byte, the direction bit 1 for a read. -/
def addrByte (s : State) (read : Bool) : Byte := BitVec.ofNat 8 (2 * s.mgmt.addr + b2n read)

/-- The address, a command code or a data byte is NACKed: no effect. -/
def nack (s : State) : State := s.mapMgmt fun m => { m with ack := false, reply := [], pec := none }

/-- The transaction is acknowledged and returns bytes, with the PEC of a transaction that the BMC sent `sent` in, and that returns a byte count
first where `block` (Table 20.2). -/
def answer (sent : List Byte) (block : Bool) (bytes : List Byte) (s : State) : State :=
  let all := [addrByte s false] ++ sent ++ [addrByte s true] ++ (if block then [BitVec.ofNat 8 bytes.length] else []) ++ bytes
  s.mapMgmt fun m => { m with ack := true, reply := bytes, pec := some (pecOf all) }

/-- A block read of a command code while the port answers. -/
def mgmtRead (code : Byte) (f : State → List Byte) (s : State) : State := if portLive s then answer [code] true (f s) s else nack s

/-- A write of a command code and data while the port answers, with a correct PEC and every byte in its range; any other is discarded (R498). -/
def mgmtWrite (sent : List Byte) (pec : Option Byte) (ok : Bool) (f : State → State) (s : State) : State :=
  if portLive s && ok && decide (pec = some (pecOf (addrByte s false :: sent))) then
    (f s).mapMgmt fun m => { m with ack := true, reply := [], pec := none }
  else nack s

/-- STATUS (Table 20.2). -/
def statusWord (s : State) : Nat :=
  b2n s.bed.bedrockUp + 2 * b2n s.boot.fwReady + 4 * b2n s.hif.hostReady + 8 * b2n s.retn.inRetain + 16 * healthState s +
    64 * b2n (svcReq s) + 128 * b2n (!s.guard.props.isEmpty) + 256 * s.mgmt.alert.toNat

/-- MGMT_STATUS_READ: the alert causes returned clear (R499). -/
def execMgmtStatusRead (s : State) : Host.Outcome State Fault Refusal :=
  .next (if portLive s then (answer [0x00] false (leBytes 2 (statusWord s)) s).mapMgmt fun m => { m with alert := 0 } else nack s)

/-- The bytes of IDENTITY: Device ID, Revision ID, command set, ROM build, Device Serial Number. -/
def identityBytes : List Byte := leBytes 2 0x5120 ++ [0x11, 0x03, 0x00] ++ leBytes 3 0x000100 ++ leBytes 8 Config.serial.toNat

/-- MGMT_IDENTITY. -/
def execMgmtIdentity (s : State) : Host.Outcome State Fault Refusal := .next (mgmtRead 0x01 (fun _ => identityBytes) s)

/-- MGMT_HEALTH. -/
def execMgmtHealth (s : State) : Host.Outcome State Fault Refusal := .next (mgmtRead 0x02 (fun s => leBytes 4 (healthWord s)) s)

/-- MGMT_TEMP. -/
def execMgmtTemp (temps : List (Nat × Option Int)) (s : State) : Host.Outcome State Fault Refusal :=
  .next (if portLive s then answer [0x03] true (tempBlock (takeTemps temps s)) (takeTemps temps s) else nack s)

/-- The rest of a proposal's window of 5 s, in ms. -/
def windowLeft (s : State) (p : Proposal) : Nat := (5000000000 - (s.now - p.since)) / 1000000

/-- The 12 bytes of GUARD_PENDING for an item: zero without a proposal. -/
def pendingBytes (s : State) (item : Nat) : List Byte :=
  match mfind s.guard.props item with
  | none => zeros 12
  | some p => leBytes 4 p.nonce.toNat ++ leBytes 4 p.digest.toNat ++ leBytes 2 (windowLeft s p) ++ leBytes 2 p.value.length

/-- MGMT_GUARD_PENDING. -/
def execMgmtGuardPending (s : State) : Host.Outcome State Fault Refusal :=
  .next (mgmtRead 0x10 (fun s => (List.range' 1 6).flatMap (pendingBytes s)) s)

/-- A range read of `l`: bytes beyond its end are free values (log 9). -/
def rangeRead (sent l : List Byte) (off len : Nat) (s : State) : State :=
  let have' := slice l off len
  let f := freeBytes (len - have'.length) s
  answer sent true (have' ++ f.1) f.2

/-- MGMT_GUARD_VALUE: a range of the proposed value (R500). -/
def execMgmtGuardValue (item offset len : Nat) (s : State) : Host.Outcome State Fault Refusal :=
  .next (
    if !portLive s ∨ item = 0 ∨ 6 < item ∨ 65535 < offset ∨ len = 0 ∨ 240 < len then nack s
    else rangeRead ([0x11, 4, BitVec.ofNat 8 item] ++ leBytes 2 offset ++ leBytes 1 len) (mget s.guard.props item Proposal.init).value offset len s)

/-- What the BMC sends in GUARD_CONFIRM after the address: the command code, the byte count and the data (Table 20.2). -/
def confirmSent (item : Nat) (nonce digest : BitVec 32) : List Byte := [0x12, 9, BitVec.ofNat 8 item] ++ leBytes 4 nonce.toNat ++ leBytes 4 digest.toNat

/-- What the BMC sends in MGMT_GUARD_ABORT after the address. -/
def abortSent (item : Nat) (nonce : BitVec 32) : List Byte := [0x13, 5, BitVec.ofNat 8 item] ++ leBytes 4 nonce.toNat

/-- GUARD_CONFIRM (R501). -/
def execGuardConfirm (item : Nat) (nonce digest : BitVec 32) (pec : Option Byte) (s : State) : Host.Outcome State Fault Refusal :=
  .next (mgmtWrite (confirmSent item nonce digest) pec (decide (item < 256)) (confirm item nonce digest) s)

/-- MGMT_GUARD_ABORT (R501). -/
def execMgmtGuardAbort (item : Nat) (nonce : BitVec 32) (pec : Option Byte) (s : State) : Host.Outcome State Fault Refusal :=
  .next (mgmtWrite (abortSent item nonce) pec (decide (item < 256)) (bmcAbort item nonce) s)

/-- MGMT_GUARD_RESULT. -/
def execMgmtGuardResult (s : State) : Host.Outcome State Fault Refusal :=
  .next (if portLive s then answer [0x14] false [s.guard.result] s else nack s)

/-- MGMT_ERROR_LOG: an index of 256 or more is NACKed (R537). -/
def execMgmtErrorLog (index : Nat) (s : State) : Host.Outcome State Fault Refusal :=
  .next (if !portLive s ∨ 255 < index then nack s else answer ([0x20, 2] ++ leBytes 2 index) true (logSlot s index) s)

/-- MGMT_OTP_READ (R504). -/
def execMgmtOtpRead (offset len : Nat) (s : State) : Host.Outcome State Fault Refusal :=
  .next (
    if !portLive s ∨ 65535 < offset ∨ len = 0 ∨ 240 < len then nack s
    else
      let n := min len (65536 - offset)
      let f := freeBytes (len - n) s
      answer ([0x30, 3] ++ leBytes 2 offset ++ leBytes 1 len) true (Memory.getBytes s.otp.bytes offset n ++ f.1) f.2)

/-- MGMT_WAKE: wakes the device from RETAIN when its source is armed (R486). -/
def execMgmtWake (value : Nat) (pec : Option Byte) (s : State) : Host.Outcome State Fault Refusal :=
  .next (mgmtWrite [0x40, BitVec.ofNat 8 value] pec (decide (value = 1)) (wakeBy 0) s)

/-- MGMT_AUX: AUX_STATUS bytes 0 to 63. -/
def execMgmtAux (cool : List Nat) (s : State) : Host.Outcome State Fault Refusal :=
  .next (if portLive s then answer [0x50] true ((auxBlock (dacCool cool s)).take 64) (dacCool cool s) else nack s)

/-- ALERT_RESPONSE: while SMB_ALERT_N is asserted, the port returns its address in bits [7:1]; bit 0 is open in SMBus and a free value. No
cause clears (R497, R499). -/
def execAlertResponse (s : State) : Host.Outcome State Fault Refusal :=
  .next (
    if portLive s ∧ s.mgmt.alert ≠ 0 then
      let byte := BitVec.ofNat 8 (2 * s.mgmt.addr) ||| (Config.freeByte s.free &&& 1)
      s.tick.mapMgmt fun m => { m with ack := true, reply := [byte], pec := some (pecOf [0x19, byte]) }
    else nack s)

/-- SMB_CLOCK_TIMEOUT: the port drops the transaction, releases SMB_SDA and waits for the next START (R498). -/
def execSmbClockTimeout (s : State) : Host.Outcome State Fault Refusal := .next (nack s)

end Sys2Proof.Machine
end

