-- ==== Sys2Proof/Machine/Observe.lean ====
section
/-! DEFINITION. Counter snapshots, the profiling unit, port bandwidth and the trace commands (chapter 21, R438). -/
namespace Sys2Proof.Machine

/-! ## What a snapshot captures (Table 21.2) -/

/-- Counters 0 to `n - 1` of a group, from position `k` of a block. -/
def snapGroup (b k n : Nat) (m : Map Ctr) : List (Nat × Nat × Ctr) := (List.range n).map fun i => (b, k + i, ctrOf m i)

/-- A level in the form of a counter: its wrap bit is 0 (R511). -/
def levelCtr (n : Nat) : Ctr := { val := BitVec.ofNat 48 n, wrap := false }

/-- The block of the device. -/
def snapDevice (s : State) : List (Nat × Nat × Ctr) :=
  [(0, 0, s.tbl.noTable), (0, 1, s.obs.skipped), (0, 2, s.obs.blocked), (0, 3, s.obs.trWritten), (0, 4, s.obs.trLost),
    (0, 5, s.obs.overrun), (0, 6, s.obs.adcDone)]

/-- The block of a port. -/
def snapPort (s : State) (p : Nat) (q : Port) : List (Nat × Nat × Ctr) :=
  snapGroup (2 + p) 0 41 q.ctr ++ snapGroup (2 + p) 41 9 (mget s.buf.causes (2 * p) []) ++
    snapGroup (2 + p) 50 9 (mget s.buf.causes (2 * p + 1) [])

/-- The counters of a link and of its pairs. -/
def snapLink (n : Nat) (l : Link) : List (Nat × Nat × Ctr) :=
  let pairs := fun (b k0 i : Nat) => snapGroup b (k0 + 11 * i) 11 (mget l.pairs i Pair.init).ctr
  if n = geodeLink then
    snapGroup 450 0 18 l.ctr ++ ((List.range 4).flatMap (pairs 450 18)) ++
      ((List.range 4).flatMap fun i => snapGroup 451 (11 * i) 11 (mget l.pairs (4 + i) Pair.init).ctr)
  else snapGroup (386 + n) 0 18 l.ctr ++ ((List.range 4).flatMap (pairs (386 + n) 18)) ++ [(386 + n, 62, l.violations)]

/-- The counters of a table: ENTRIES and STAGED are levels. -/
def snapTable (s : State) (n : Nat) (t : Table) : List (Nat × Nat × Ctr) :=
  let b := 452 + n / 8
  let k := 8 * (n % 8)
  snapGroup b k 5 t.ctr ++
    [(b, k + 5, levelCtr (if t.kind = 4 then t.size else t.entries.length)),
      (b, k + 6, levelCtr ((stagedAll s).filter fun u => decide (u.table = n)).length), (b, k + 7, ctrOf t.ctr 7)]

/-- The counters of a memory region. -/
def snapRegion (r : Nat) (g : Region) : List (Nat × Nat × Ctr) :=
  if r = 0 then snapGroup 484 0 6 g.ctr
  else if r < 65 then snapGroup (485 + (r - 1) / 16) (4 * ((r - 1) % 16)) 4 g.ctr
  else snapGroup (489 + 2 * (r - 65)) 0 6 g.ctr

/-- The counters of a stack beside its region's. -/
def snapStack (s : State) (m : Nat) : List (Nat × Nat × Ctr) :=
  let b := 489 + 2 * m
  let x := stack s m
  [(b, 6, x.soft), (b, 7, x.hard), (b, 8, levelCtr (repairUse s m)), (b, 9, levelCtr (s.buf.pagesOut.countP fun k => decide (k % 4 = m))), (b, 10, x.dead)] ++
    snapGroup b 11 7 x.overdue

/-- The counters of an HBM channel. -/
def snapChannel (k : Nat) (c : Channel) : List (Nat × Nat × Ctr) :=
  [(490 + 2 * (k / 32), 2 * (k % 32), c.retrains), (490 + 2 * (k / 32), 2 * (k % 32) + 1, c.rejected)]

/-- Every counter of the objects that exist, with its block and position. -/
def snapCtrs (s : State) : List (Nat × Nat × Ctr) :=
  snapDevice s ++ (s.cages.tab.map fun g => (1, g.1, g.2.prsGlitch)) ++ (s.ports.tab.flatMap fun p => snapPort s p.1 p.2) ++
    (s.lanes.tab.flatMap fun l => snapGroup (258 + l.1 / 2) (32 * (l.1 % 2)) 25 l.2.ctr) ++
    (s.gar.links.flatMap fun l => snapLink l.1 l.2) ++ (s.tbl.tables.flatMap fun t => snapTable s t.1 t.2) ++
    (s.mem.regions.flatMap fun r => snapRegion r.1 r.2) ++ [(484, 6, levelCtr s.buf.cellsOut)] ++
    ((List.range 4).flatMap (snapStack s)) ++ (s.mem.channels.flatMap fun c => snapChannel c.1 c.2) ++
    (s.buf.iq.flatMap fun q => snapGroup (497 + q.1 / 16) (4 * (q.1 % 16)) 4 q.2.ctr) ++
    (s.buf.eq.flatMap fun q => snapGroup (625 + q.1 / 16) (4 * (q.1 % 16)) 4 q.2.ctr)

/-- A counter's 64-bit form (R383). -/
def Ctr.word (c : Ctr) : BitVec 64 := BitVec.ofNat 64 (c.val.toNat + b2n c.wrap * 2 ^ 63)

/-- The image: the counters that are not zero. -/
def snapImageOf (s : State) : Map (Map (BitVec 64)) :=
  (snapCtrs s).foldl (fun m e => if e.2.2.word = 0 then m else mmod m e.1 [] fun b => mput b e.2.1 e.2.2.word) []

/-- Clears a counter's wrap bit. -/
def Ctr.clearWrap (c : Ctr) : Ctr := { c with wrap := false }

/-- Clears the wrap bits of every counter that a snapshot captured (R383, R438). -/
def clearWraps (s : State) : State :=
  let s := (s.mapTbl fun t => { t with noTable := t.noTable.clearWrap, tables := mmap t.tables fun _ x => { x with ctr := ctrClearWrap x.ctr } })
  let s := s.mapObs fun o =>
    { o with
      skipped := o.skipped.clearWrap, blocked := o.blocked.clearWrap, trWritten := o.trWritten.clearWrap, trLost := o.trLost.clearWrap
      overrun := o.overrun.clearWrap, adcDone := o.adcDone.clearWrap }
  let s := s.mapCages fun b => { b with tab := mmap b.tab fun _ g => { g with prsGlitch := g.prsGlitch.clearWrap } }
  let s := s.mapPorts fun b => { b with tab := mmap b.tab fun _ q => { q with ctr := ctrClearWrap q.ctr } }
  let s := s.mapLanes fun b => { b with tab := mmap b.tab fun _ l => { l with ctr := ctrClearWrap l.ctr } }
  let s := s.mapGar fun g =>
    { g with links := mmap g.links fun _ l =>
        { l with
          ctr := ctrClearWrap l.ctr, violations := l.violations.clearWrap
          pairs := mmap l.pairs fun _ p => { p with ctr := ctrClearWrap p.ctr } } }
  let ports := s.ports.tab.map (·.1)
  let s := s.mapBuf fun b =>
    { b with
      causes := mmap b.causes fun k m => if ports.contains (k / 2) then ctrClearWrap m else m
      iq := mmap b.iq fun _ q => { q with ctr := ctrClearWrap q.ctr }
      eq := mmap b.eq fun _ q => { q with ctr := ctrClearWrap q.ctr } }
  s.mapMem fun m =>
    { m with
      regions := mmap m.regions fun _ g => { g with ctr := ctrClearWrap g.ctr }
      channels := mmap m.channels fun _ c => { c with retrains := c.retrains.clearWrap, rejected := c.rejected.clearWrap }
      hbmStacks := mmap m.hbmStacks fun _ x =>
        { x with soft := x.soft.clearWrap, hard := x.hard.clearWrap, dead := x.dead.clearWrap, overdue := ctrClearWrap x.overdue } }

/-! ## The image (R514, Table 21.3) -/

/-- Blocks of a snapshot. -/
def snapBlocks : Nat := 8817

/-- Bytes of the image. -/
def snapSize : Nat := 5082688

/-- The 4 KiB of headers, as far as they are not zero. -/
def snapHeader (s : State) : List Byte :=
  let h := s.obs.snapHead
  if s.obs.snapDone = 0 then leBytes 8 s.obs.snapSeq ++ zeros 56
  else
    leBytes 8 s.obs.snapSeq ++ leBytes 8 s.obs.snapDone ++ leBytes 8 h.startSec.toNat ++ leBytes 4 h.startNs ++ zeros 4 ++
      leBytes 8 h.endSec.toNat ++ leBytes 4 h.endNs ++ leBytes 4 snapBlocks ++ leBytes 1 (b2n h.clock) ++ zeros 15

/-- The 576 bytes of block `b`. -/
def snapBlock (s : State) (b : Nat) : List Byte :=
  let h := s.obs.snapHead
  let m := mget s.obs.snapImage b []
  leBytes 4 b ++ zeros 4 ++ leBytes 8 s.obs.snapDone ++ leBytes 8 h.endSec.toNat ++ leBytes 4 h.endNs ++ leBytes 4 h.capFrac ++
    zeros 32 ++ ((List.range 64).flatMap fun k => leBytes 8 (mget m k 0).toNat)

/-- Byte `a` of BAR4's image: zero until the first snapshot is complete, but for SEQ_STARTED, and beyond the image. -/
def snapByte (s : State) (a : Nat) : Byte :=
  if a < 64 then ((snapHeader s)[a]?).getD 0
  else if a < 4096 ∨ snapSize ≤ a ∨ s.obs.snapDone = 0 then 0
  else ((snapBlock s ((a - 4096) / 576))[(a - 4096) % 576]?).getD 0

/-! ## Snapshots (R513 to R516) -/

/-- A snapshot begins: SEQ_STARTED is set; a host area outside the DMA windows then loses its copy (R516). -/
def snapBegin (cmd : Option Nat) (clear dma : Bool) (s : State) : State :=
  let ok := dmaAllowed s s.obs.snapAddr snapSize
  let run : SnapRun :=
    { cmd := cmd, clear := clear, dma := dma && ok, sec := if s.tim.running then s.tim.sec else 0
      ns := if s.tim.running then s.tim.ns else 0, clock := s.tim.running }
  s.mapObs fun o =>
    { o with
      snapSeq := o.snapSeq + 1, snapRun := some run
      blocked := if dma && !ok then o.blocked.add 1 else o.blocked }

/-- SNAPSHOT (R438): one that begins while a snapshot runs waits for it. -/
def execSnapshot (id : Nat) (s : State) : Host.Outcome State Fault Refusal :=
  .next (runCmd id 0xC0
    (fun c _ => firstFail [(plainBad c 0 1 || decide (3 < c.byte 32), .invalidField)])
    (fun c s =>
      let clear := bitOf (c.byte 32) 0
      let dma := bitOf (c.byte 32) 1
      let s := awaitEnd id [] s
      { Ran.ok (if s.obs.snapRun = none then snapBegin (some id) clear dma s
          else s.mapObs fun o => { o with snapWait := o.snapWait ++ [(id, clear, dma)] }) with done := false }) s)

/-- SNAPSHOT_PERIOD: a periodic snapshot falls due; while one runs it is skipped (R516). -/
def execSnapshotPeriod (s : State) : Host.Outcome State Fault Refusal :=
  .next (
    if s.obs.snapPeriod = 0 then s
    else if s.obs.snapRun = none then snapBegin none false true s
    else s.mapObs fun o => { o with skipped := o.skipped.add 1 })

/-- The copy by DMA: every block, the headers last, then SNAPSHOT_DMA_DONE; nothing is written in D3hot (R355, R516). -/
def snapCopy (s : State) : State :=
  if s.boot.d3hot then s
  else
    let a := s.obs.snapAddr
    let s := (List.range snapBlocks).foldl (fun s b => hostWrite (a + 4096 + 576 * b) (snapBlock s b) s) s
    post 0xC002 0 0 (s.obs.snapDone % 2 ^ 32) (hostWrite a (snapHeader s) s)

/-- The next SNAPSHOT that waits takes its own. -/
def snapNext (s : State) : State :=
  match s.obs.snapWait with
  | [] => s
  | (id, clear, dma) :: r => snapBegin (some id) clear dma (s.mapObs fun o => { o with snapWait := r })

/-- SNAPSHOT_COMPLETE: the blocks are captured, SEQ_DONE and the times are set, and the command completes with the number (R513,
R515). -/
def execSnapshotComplete (s : State) : Host.Outcome State Fault Refusal :=
  .next (
    match s.obs.snapRun with
    | none => s
    | some r =>
      let s := forEach (s.mem.channels.map (·.1)) markOverdue s
      let on := s.tim.running
      let h : SnapHead :=
        { startSec := r.sec, startNs := r.ns, endSec := if on then s.tim.sec else 0, endNs := if on then s.tim.ns else 0
          capFrac := if on then s.tim.frac else 0, clock := r.clock && on }
      let image := snapImageOf s
      let s := s.mapObs fun o => { o with snapRun := none, snapDone := o.snapSeq, snapImage := image, snapHead := h }
      let s := if r.clear then clearWraps s else s
      let s := if r.dma then snapCopy s else s
      let seq := s.obs.snapDone
      let s := snapNext s
      match r.cmd with
      | none => s
      | some id => finish id .success (BitVec.ofNat 64 seq) 0 true s)

/-- SNAPSHOT_SET (R438, R516). -/
def execSnapshotSet (id : Nat) (s : State) : Host.Outcome State Fault Refusal :=
  .next (runCmd id 0xC1
    (fun c _ => firstFail [(plainBad c 0 12 || decide (c.inl 32 8 % 4096 ≠ 0) || decide (10000 < c.inl 40 4), .invalidField)])
    (fun c s =>
      if !dmaAllowed s (c.inl 32 8) snapSize then .fail .permission s
      else .ok (s.mapObs fun o => { o with snapAddr := c.inl 32 8, snapPeriod := c.inl 40 4 })) s)

/-! ## The profiling unit (R517) -/

/-- An event-bus code is defined and its instance in range (Table 21.4). -/
def profCodeOk (code : Nat) : Bool :=
  let ev := code / 256
  let inst := code % 256
  if ev = 0 ∨ 0x11 < ev then false
  else if 7 ≤ ev ∧ ev ≤ 9 then decide (inst < 64) || decide (inst = 0x80)
  else if ev = 0x0C ∨ ev = 0x0D then decide (inst < 4)
  else if ev = 0x0F ∨ ev = 0x10 ∨ ev = 0x11 then decide (inst = 0)
  else true

/-- The profiling unit is off: no programmable counter is enabled (Table 19.2). -/
def profOff (s : State) : Bool := !many s.obs.prof fun _ p => p.on

/-- PROFILE_SET_CTR: CLEAR, then the code, then ENABLE. -/
def execProfileSetCtr (id : Nat) (s : State) : Host.Outcome State Fault Refusal :=
  .next (runCmd id 0xC2
    (fun c _ => firstFail [
      (plainBad c 7 4 || decide (3 < c.byte 32) || !c.inlZero 33 1 || !profCodeOk (c.inl 34 2), .invalidField)])
    (fun c s =>
      if c.flag 2 && profOff s then .fail .blockOff s
      else
        .ok (s.mapObs fun o =>
          { o with prof := mmod o.prof c.target Prof.init fun p =>
              { val := if bitOf (c.byte 32) 1 then 0 else p.val, code := c.inl 34 2, on := bitOf (c.byte 32) 0 } })) s)

/-- The cycle counter: cycles of 1.6 GHz since FW_READY. -/
def cycleCount (s : State) : Nat := (s.now - s.obs.cycles) * 8 / 5

/-- PROFILE_READ: counter TARGET, 8 being the cycle counter. -/
def execProfileRead (id : Nat) (s : State) : Host.Outcome State Fault Refusal :=
  .next (runCmd id 0xC3
    (fun c _ => firstFail [(plainBad c 8 0, .invalidField)])
    (fun c s =>
      { Ran.ok s with
        r0 := if c.target = 8 then BitVec.ofNat 64 (cycleCount s) else (mget s.obs.prof c.target Prof.init).val }) s)

/-! ## Port bandwidth (R518) -/

/-- A window begins now. -/
def bwBegin (s : State) (p : Nat) (b : Bw) : Bw := { b with began := s.now, existed := (port? s p).isSome, rx := [], tx := [] }

/-- BW_SET: the window of a port number, from now on. -/
def execBwSet (id : Nat) (s : State) : Host.Outcome State Fault Refusal :=
  .next (runCmd id 0xC4
    (fun c _ => firstFail [(plainBad c 255 4 || decide (c.inl 32 4 < 100) || decide (10000000 < c.inl 32 4), .invalidField)])
    (fun c s =>
      let p := c.target
      .ok (s.mapObs fun o => { o with bw := mput o.bw p (bwBegin s p { Bw.init with w := c.inl 32 4 }) })) s)

/-- BW_READ: rates and peaks of the last complete window, in Mb/s. -/
def execBwRead (id : Nat) (s : State) : Host.Outcome State Fault Refusal :=
  .next (runCmd id 0xC5
    (fun c _ => firstFail [(plainBad c 255 0, .invalidField)])
    (fun c s =>
      let b := mget s.obs.bw c.target Bw.init
      let two := fun (x : Nat × Nat) => BitVec.ofNat 64 (sat 32 x.1 + 2 ^ 32 * sat 32 x.2)
      { Ran.ok s with r0 := two b.rates, r1 := two b.peaks }) s)

/-- The rate and the peak of one direction in whole Mb/s: bits per microsecond. -/
def bwRates (w : Nat) (m : Map Nat) : Nat × Nat :=
  ((m.map (·.2)).sum / w, ((m.filter fun e => decide (100 * (e.1 + 1) ≤ w)).map (·.2)).foldl max 0 / 100)

/-- BW_WINDOW_END: the window's rates and peaks are stored, zero for a port that did not exist throughout it, and the next begins. -/
def execBwWindowEnd (portNo : Nat) (s : State) : Host.Outcome State Fault Refusal :=
  .next (
    if !s.boot.fwReady ∨ 255 < portNo then s
    else
      let b := mget s.obs.bw portNo Bw.init
      let rx := if b.existed then bwRates b.w b.rx else (0, 0)
      let tx := if b.existed then bwRates b.w b.tx else (0, 0)
      s.mapObs fun o =>
        { o with bw := mput o.bw portNo (bwBegin s portNo { b with rates := (rx.1, tx.1), peaks := (rx.2, tx.2) }) })

/-! ## Mica trace (R519 to R521) -/

/-- The trace unit is off: trace is off on every port (Table 19.2). -/
def traceOff (s : State) : Bool := !many s.obs.traceK fun _ k => decide (k ≠ 0)

/-- TRACE_SET is ill formed: k of a port, or the base and depth of the ring. -/
def traceBad (c : Cmd) : Bool :=
  if c.target = 0x100 then
    plainBad c 0x100 9 || decide (c.inl 32 8 % 4096 ≠ 0) || decide (c.byte 40 < 6) || decide (20 < c.byte 40)
  else plainBad c 0x100 1 || (decide (c.byte 32 ≠ 0) && (decide (c.byte 32 < 4) || decide (30 < c.byte 32)))

/-- TRACE_SET. -/
def execTraceSet (id : Nat) (s : State) : Host.Outcome State Fault Refusal :=
  .next (runCmd id 0xC6
    (fun c _ => firstFail [(traceBad c, .invalidField)])
    (fun c s =>
      if c.flag 2 && traceOff s then .fail .blockOff s
      else if c.target = 0x100 then
        .ok (s.mapObs fun o =>
          { o with ring := some (c.inl 32 8, c.byte 40), trIndex := 0, trHead := 0, trPhase := true, trSeq := 0 })
      else
        .ok (s.mapObs fun o => { o with traceK := if c.byte 32 = 0 then mdel o.traceK c.target else mput o.traceK c.target (c.byte 32) })) s)

/-- TRACE_STATUS: records written and lost. -/
def execTraceStatus (id : Nat) (s : State) : Host.Outcome State Fault Refusal :=
  .next (runCmd id 0xC7
    (fun c _ => firstFail [(plainBad c 0 0, .invalidField)])
    (fun _ s => { Ran.ok s with r0 := s.obs.trWritten.word, r1 := s.obs.trLost.word }) s)

/-- TRACE_OVERFLOW: while records are being lost, at most once per second (R521). -/
def execTraceOverflow (s : State) : Host.Outcome State Fault Refusal :=
  .next (
    if s.obs.trUnposted = 0 ∨ s.obs.trPostAt.any (fun t => decide (s.now < t + 1000000000)) then s
    else post 0xC001 1 0 (sat 32 s.obs.trUnposted) (s.mapObs fun o => { o with trUnposted := 0, trPostAt := some s.now }))

end Sys2Proof.Machine
end

