-- ==== Sys2Proof/Machine/Rings.lean ====
section
/-! DEFINITION. The rings: doorbells, fetching, completions in D3hot, interrupts, the host-interface reset, timed
commands falling due, and the ring commands (chapters 14 and 15, registers of chapter 22). -/
namespace Sys2Proof.Machine

/-! ## Doorbells (R363, R364) -/

/-- Entries of CQr written and not yet consumed. -/
def Ring.used (g : Ring) : Nat := (g.cqTail + 2 ^ g.cfg.cqDepth - g.cqHead) % 2 ^ g.cfg.cqDepth

/-- Changes a ring pair that exists. -/
def modRing (r : Nat) (f : Ring → Ring) (s : State) : State :=
  match mfind s.hif.rings r with
  | none => s
  | some g => s.mapHif fun h => { h with rings := mput h.rings r (f g) }

/-- A doorbell write to ring pair `r`: discarded before HOST_READY, DOORBELL_UNUSED where the pair does not exist,
ignored in ERROR (R363, R364). -/
def doorbell (r : Nat) (act : Ring → State → State) (s : State) : State :=
  if !s.hif.hostReady then s
  else
    match mfind s.hif.rings r with
    | none => if 1 ≤ r ∧ r < 1024 then setHifErr 4 s else s
    | some g => if g.error.isSome then s else act g s

/-- SQ_TAIL: new entries, or ERROR with SQ_RANGE (R364). -/
def execSqTailWrite (ring : Nat) (value : BitVec 32) (s : State) : Host.Outcome State Fault Refusal :=
  .next (doorbell ring (fun g s =>
    if 2 ^ g.cfg.sqDepth ≤ value.toNat then ringError ring 0 s
    else modRing ring (fun g => { g with sqTail := value.toNat }) s) s)

/-- CQ_HEAD: consumed entries become free, or ERROR with CQ_RANGE (R364). -/
def execCqHeadWrite (ring : Nat) (value : BitVec 32) (s : State) : Host.Outcome State Fault Refusal :=
  .next (doorbell ring (fun g s =>
    let depth := 2 ^ g.cfg.cqDepth
    if depth ≤ value.toNat ∨ g.used < (value.toNat + depth - g.cqHead) % depth then ringError ring 1 s
    else modRing ring (fun g => { g with cqHead := value.toNat }) s) s)

/-- EVQ_HEAD: consumed event entries become free and the events held are delivered, or EVQ_RANGE (R531). -/
def execEvqHeadWrite (value : BitVec 32) (s : State) : Host.Outcome State Fault Refusal :=
  let v := value.toNat % 65536
  let used := (s.hif.evqTail + evqDepth s - s.hif.evqHead) % evqDepth s
  .next (
    if !s.hif.hostReady then s
    else if evqDepth s ≤ v ∨ used < (v + evqDepth s - s.hif.evqHead) % evqDepth s then setHifErr 0x20 s
    else deliverEvents (s.mapHif fun h => { h with evqHead := v }))

/-! ## Fetching (R361, R362, R365) -/

/-- The opcodes that Tables 15.1 and 16.1 list. -/
def opcodeDefined (op : Nat) : Bool :=
  [(0x00, 0x02), (0x04, 0x07), (0x10, 0x13), (0x18, 0x1C), (0x30, 0x35), (0x40, 0x47), (0x50, 0x54), (0x60, 0x68),
   (0x80, 0x87), (0x90, 0x92), (0xA0, 0xA1), (0xB0, 0xB5), (0xC0, 0xC7), (0xD0, 0xD5), (0xD8, 0xDB)].any
    fun p => decide (p.1 ≤ op) && decide (op ≤ p.2)

/-- The inline bytes that the layout of a command names, as ranges of a first byte and a length, where the layout depends on TARGET that of the
TARGET: every other inline byte is reserved (R381, chapters 15 and 16). -/
def layoutBytes (op target : Nat) : List (Nat × Nat) :=
  match op with
  | 0x04 => [(32, 19), (52, 2)]
  | 0x10 => [(32, 10)]
  | 0x12 => [(32, 1), (34, 7)]
  | 0x13 | 0x19 | 0x33 | 0x47 | 0x67 | 0xD4 | 0xDB => [(63, 1)]
  | 0x18 => [(32, 25), (58, 4)]
  | 0x1B | 0x32 | 0x34 | 0x91 | 0xB3 | 0xC0 => [(32, 1)]
  | 0x1C => [(32, 10)]
  | 0x30 => if target = 0x100 then [(32, 5), (38, 18)] else [(32, 20)]
  | 0x35 => [(32, 1), (63, 1)]
  | 0x40 => [(32, 7)]
  | 0x41 => [(32, 1), (34, 11)]
  | 0x42 => [(32, 11)]
  | 0x43 => [(32, 4)]
  | 0x44 => [(32, 2)]
  | 0x45 => [(32, 7), (40, 22)]
  | 0x46 => if target = 0x100 then [] else [(32, 1), (63, 1)]
  | 0x50 | 0x52 => [(32, 28)]
  | 0x53 => [(32, 2)]
  | 0x60 | 0x81 | 0x85 => [(32, 8)]
  | 0x62 => [(32, 1), (36, 4)]
  | 0x80 => [(32, 1), (34, 14)]
  | 0x82 => [(32, 1), (36, 8)]
  | 0x84 => [(32, 3), (36, 4)]
  | 0x86 | 0xC4 => [(32, 4)]
  | 0x90 => [(32, 2), (36, 13)]
  | 0xA0 | 0xA1 | 0xC1 => [(32, 12)]
  | 0xB0 =>
    match target with
    | 1 => [(36, 4)]
    | 4 => [(36, 7), (44, 4)]
    | 5 => [(36, 12)]
    | _ => [(36, 5)]
  | 0xB1 => [(36, 4)]
  | 0xC2 => [(32, 1), (34, 2)]
  | 0xC6 => if target = 0x100 then [(32, 9)] else [(32, 1)]
  | 0xD0 => [(32, 3), (36, 1)]
  | 0xD2 | 0xD3 => [(32, 4)]
  | 0xD8 => [(32, 5)]
  | 0xD9 => [(32, 3), (36, 4)]
  | _ => []

/-- A reserved inline byte of a command is not zero (R17, R381). -/
def reservedSet (c : Cmd) : Bool :=
  (List.range' 32 32).any fun i =>
    !(layoutBytes c.opcode c.target).any (fun f => decide (f.1 ≤ i) && decide (i < f.1 + f.2)) && decide (byteAt c.entry i ≠ 0)

/-- The first fetch check of R361 and R17 that fails. -/
def fetchCheck (c : Cmd) : Option Status :=
  firstFail [
    (!opcodeDefined c.opcode, .invalidOpcode),
    (decide (32 ≤ byteAt c.entry 1), .invalidField),
    (c.flag 1 && !c.flag 0, .invalidField),
    (!c.flag 0 && !allZero (slice c.entry 8 10), .invalidField),
    (decide (999999999 < fieldAt c.entry 14 4), .invalidField),
    (!allZero (slice c.entry 18 2) || reservedSet c, .invalidField),
    (decide (0x01000000 < c.indLen), .invalidField),
    (decide (c.indAddr % 8 ≠ 0), .invalidField),
    (decide (c.indLen = 0) && decide (c.indAddr ≠ 0), .invalidField)]

/-- The group mask of ring pair `r`: every group for ring pair 0 (R362). -/
def groupMask (s : State) (r : Nat) : BitVec 16 := if r = 0 then 0x3FFF else mget s.guard.masks r 0x3FFF

/-- The ring's mask allows the command's group (R362). -/
def groupAllowed (s : State) (c : Cmd) : Bool := (groupMask s c.ring).getLsbD (c.opcode / 16)

/-- Entries of CQr reserved for commands in flight or for completions that wait for D0. -/
def reserved (s : State) (r : Nat) : Nat :=
  (cmdsWhere s fun c => decide (c.ring = r) && !c.dead).length + (s.fl.heldCpl.filter fun c => decide (c.ring = r)).length

/-- The device may fetch from ring pair `r` (R365). -/
def fetchable (s : State) (r : Nat) (g : Ring) : Bool :=
  decide (g.sqHead ≠ g.sqTail) && g.error.isNone && !g.deleting &&
    decide (g.used + reserved s r < 2 ^ g.cfg.cqDepth - 1)

/-- The next fetchable ring pair after `from` in round robin (R365). -/
def nextRing (s : State) (cur : Nat) : Option Nat :=
  let ok := (s.hif.rings.filter fun p => decide (p.1 ≠ 0) && fetchable s p.1 p.2).map (·.1)
  match ok.find? fun r => decide (cur < r) with
  | some r => some r
  | none => ok.head?

/-- The ring pair the device fetches from next and the entries left in its turn: ring pair 0 first, the others in
round robin of up to 8 entries (R365). -/
def pickRing (s : State) : Option (Nat × Nat) :=
  let ok := fun r => match mfind s.hif.rings r with
    | none => false
    | some g => fetchable s r g
  if ok 0 then some (0, s.hif.rrLeft)
  else if s.hif.rrLeft ≠ 0 ∧ s.hif.rrRing ≠ 0 ∧ ok s.hif.rrRing = true then some (s.hif.rrRing, s.hif.rrLeft - 1)
  else (nextRing s s.hif.rrRing).map fun r => (r, 7)

/-- The device fetches at all: HOST_READY, not in D3hot, firmware not stopped by FAILED (R338), no RETAIN accepted,
fewer than 16,384 commands in flight (R355, R365). -/
def mayFetch (s : State) : Bool :=
  s.hif.hostReady && !s.boot.d3hot && !s.health.causes.getLsbD 11 && decide (s.boot.state ≠ .retain) &&
    decide (s.fl.cmds.length + s.fl.heldCpl.length < 16384)

/-- Takes a fetched entry of ring pair `r`: its completion entry is reserved, it is checked (R361, R17, R362, R459), and
it is ready, waits for its time, or completes at once with the failed check. -/
def takeEntry (r : Nat) (entry : List Byte) (s : State) : State :=
  let c0 : Cmd := { Cmd.init with ring := r, entry := entry }
  let wait := c0.flag 0 && s.tim.running && decide (clockTotal s < c0.due)
  let c := { c0 with phase := if wait then .waiting else .ready }
  let id := s.fl.nextId
  let s := modRing r (fun g => { g with sqHead := (g.sqHead + 1) % 2 ^ g.cfg.sqDepth }) s
  let s := s.mapFl fun f => { f with cmds := mput f.cmds id c, nextId := id + 1 }
  match fetchCheck c with
  | some st => finishFail id st s
  | none =>
    if !groupAllowed s c then finishFail id .permission s
    else if c.flag 0 && c.flag 1 && s.tim.running && decide (c.due < clockTotal s) then finishFail id .lateDiscarded s
    else s

/-- COMMAND_FETCH: the device fetches the next entry of the ring pair whose turn it is (R365). A ring outside the DMA
windows enters ERROR with PERMISSION, a failed fetch with FETCH (R364, R374). -/
def execCommandFetch (got : HostRead) (s : State) : Host.Outcome State Fault Refusal :=
  .next (
    if !mayFetch s then s
    else
      match pickRing s with
      | none => s
      | some (r, left) =>
        match mfind s.hif.rings r with
        | none => s
        | some g =>
          let s := if r = 0 then s else s.mapHif fun h => { h with rrRing := r, rrLeft := left }
          if !dmaAllowed s (g.cfg.sqBase.toNat + 64 * g.sqHead) 64 then ringError r 3 s
          else
            match got with
            | .data bytes => takeEntry r ((bytes ++ zeros 64).take 64) s
            | .error => ringError r 2 s
            | .timeout => ringError r 2 s)

/-- The waiting command that falls due first: earliest time, then fetch order (R459). -/
def firstDue (s : State) : Option (Nat × Cmd) :=
  (s.fl.cmds.filter fun p => decide (p.2.phase = .waiting) && !p.2.dead && decide (p.2.due ≤ clockTotal s)).foldl
    (fun best p =>
      match best with
      | none => some p
      | some b => if p.2.due < b.2.due then some p else some b) none

/-- TIMED_COMMAND_DUE: the clock has passed a waiting command's time, and the command may begin (R459). -/
def execTimedCommandDue (s : State) : Host.Outcome State Fault Refusal :=
  .next (
    if !s.tim.running then s
    else
      match firstDue s with
      | none => s
      | some (id, _) => modCmd id (fun c => { c with phase := .ready }) s)

/-! ## Events, interrupts and D3hot -/

/-- EVENT_DELIVER: the held events are written once EVQ exists and has room (R371). -/
def execEventDeliver (s : State) : Host.Outcome State Fault Refusal := .next (deliverEvents s)

/-- Entries of a vector's ring that are unsignalled, and its INT_TIME (R372). -/
def unsignalled (s : State) (v : Nat) : List Nat × Nat :=
  if v = 1024 then (s.hif.evqUnsig, s.hreg.evqIntTime)
  else
    match mfind s.hif.rings v with
    | none => ([], 0)
    | some g => (g.unsig, g.cfg.intTime)

/-- MSIX_TIMER: the oldest unsignalled entry has reached INT_TIME and the vector's message is sent (R372). -/
def execMsixTimer (vector : Nat) (s : State) : Host.Outcome State Fault Refusal :=
  let u := unsignalled s vector
  .next (if s.boot.d3hot || decide (u.2 = 0) || u.1.isEmpty then s else msixFire vector s)

/-- Writes the MASK bit of an MSI-X vector; clearing it with the PBA bit set sends one message (R372, Table 14.8). -/
def setMask (v : Nat) (m : Bool) (s : State) : State :=
  let s := s.mapHif fun h => { h with msix := mmod h.msix v MsixEntry.init fun e => { e with mask := m } }
  if !m && s.hif.pba.contains v && !s.boot.d3hot then msixFire v s else s

/-- MSIX_UNMASK: a vector is unmasked, and sends the message that was pending (R372). -/
def execMsixUnmask (vector : Nat) (s : State) : Host.Outcome State Fault Refusal :=
  .next (if vector ≤ 1024 then setMask vector false s else s)

/-- D3HOT_ENTER: the device fetches nothing and writes nothing to host memory (R355). -/
def execD3hotEnter (s : State) : Host.Outcome State Fault Refusal := .next (s.mapBoot fun b => { b with d3hot := true })

/-- Writes the completions that waited for D0 in order, then the held events; deletions that waited for them complete (R355, R390). -/
def writeHeld (s : State) : State :=
  let cs := s.fl.heldCpl
  let s := deliverEvents (cs.foldl (fun s c => writeCompletion c s) (s.mapFl fun f => { f with heldCpl := [] }))
  settleDeletes s.fl.cmds.length s

/-- D0_RETURN: the waiting entries are written in their original order (R355). -/
def execD0Return (s : State) : Host.Outcome State Fault Refusal :=
  .next (if s.boot.d3hot then writeHeld (s.mapBoot fun b => { b with d3hot := false }) else s)

/-! ## The host-interface reset (R74, R376) -/

/-- The read latches that a host-interface reset leaves: those outside the interrupts block (R525, Table 22.1). -/
def keptLatches (m : Map (BitVec 32)) : Map (BitVec 32) := m.filter fun e => decide (e.1 < 0x20000) || decide (0x30000 ≤ e.1)

/-- The host-interface reset: HOST_READY clears, every ring pair and EVQ cease to exist, MSI-X returns to reset, a
command not begun has no effect, and one that executes completes its effect without a completion (R74, R376, R532).
The snapshot PERIOD becomes 0 and the trace ring setting is cleared (R516, R521). -/
def hifReset (s : State) : State :=
  (((s.mapHif fun _ => Hif.init).mapHreg fun h => { h with latch := keptLatches h.latch }).mapObs fun o =>
    { o with snapPeriod := 0, ring := none }).mapFl fun f =>
    { f with
      heldCpl := []
      cmds := mmap (f.cmds.filter fun p => decide (p.2.phase = .executing) && decide (p.2.opcode ≠ 0x05)) fun _ c => { c with dead := true } }

/-- Writes HIF_ENABLE (R530). -/
def writeHifEnable (on : Bool) (s : State) : State :=
  if on then s.mapHreg fun h => { h with hifEnable := true }
  else if s.hreg.hifEnable then hifReset (s.mapHreg fun h => { h with hifEnable := false })
  else s

/-- PCIE_LINK_RESET: hot reset, link down or Function Level Reset (R376, R530). -/
def execPcieLinkReset (s : State) : Host.Outcome State Fault Refusal :=
  .next (hifReset ((s.mapHreg fun h => { h with hifEnable := false }).mapBoot fun b => { b with d3hot := false }))

/-- HIF_ENABLE_SET: starts the host interface (R530). -/
def execHifEnableSet (s : State) : Host.Outcome State Fault Refusal := .next (if s.boot.fwReady then writeHifEnable true s else s)

/-- HIF_ENABLE_CLEAR: a host-interface reset (R530). -/
def execHifEnableClear (s : State) : Host.Outcome State Fault Refusal := .next (writeHifEnable false s)

/-- HOST_READY sets once FW_READY and HIF_ENABLE are set and no command from before a host-interface reset still
executes; ring pair 0 and EVQ exist from then, indices 0 and phase 1, and the held events are written (R376, R371). -/
def execHostReady (s : State) : Host.Outcome State Fault Refusal :=
  .next (
    if s.boot.fwReady && s.hreg.hifEnable && !s.hif.hostReady && !(many s.fl.cmds fun _ c => c.dead) then
      deliverEvents (s.mapHif fun h =>
        { h with
          hostReady := true
          rings := mput h.rings 0 { Ring.init with cfg := s.hreg.ring0 }
          evqExists := true, evqTail := 0, evqHead := 0, evqPhase := true, evqUnsig := [] })
    else s)

/-! ## NOP and the ring commands (R386, R389 to R392) -/

/-- NOP has no effect and completes SUCCESS (R386). -/
def execNop (id : Nat) (s : State) : Host.Outcome State Fault Refusal :=
  .next (runCmd id 0x00
    (fun c _ => firstFail [(decide (c.target ≠ 0), .invalidField), (!noFields c, .invalidField)])
    (fun _ s => { Ran.ok s with eff := false }) s)

/-- The parameters of a RING_CREATE (Table 15.3). -/
def ringParams (c : Cmd) : RingCfg where
  sqBase := BitVec.ofNat 64 (c.inl 32 8)
  cqBase := BitVec.ofNat 64 (c.inl 40 8)
  sqDepth := c.inl 48 1
  cqDepth := c.inl 49 1
  intCount := c.inl 50 1
  intTime := c.inl 52 2

/-- No parameter holds a reserved value (Table 14.3). -/
def RingCfg.valid (p : RingCfg) : Bool :=
  decide (p.sqBase.toNat % 4096 = 0) && decide (p.cqBase.toNat % 4096 = 0) && decide (1 ≤ p.sqDepth) && decide (p.sqDepth ≤ 16) &&
    decide (1 ≤ p.cqDepth) && decide (p.cqDepth ≤ 16) && decide (p.intTime ≤ 0xFA0)

/-- Both rings lie within the DMA windows (R374). -/
def RingCfg.allowed (p : RingCfg) (s : State) : Bool :=
  dmaAllowed s p.sqBase.toNat (64 * 2 ^ p.sqDepth) && dmaAllowed s p.cqBase.toNat (32 * 2 ^ p.cqDepth)

/-- RING_CREATE (R389). -/
def execRingCreate (id : Nat) (s : State) : Host.Outcome State Fault Refusal :=
  .next (runCmd id 0x04
    (fun c s => firstFail [
      (decide (c.target = 0) || decide (1023 < c.target) || decide (c.indLen ≠ 0), .invalidField),
      (!(ringParams c).valid || !c.inlZero 51 1 || !c.inlZero 54 10, .invalidField),
      (mhas s.hif.rings c.target, .objectExists)])
    (fun c s =>
      if !(ringParams c).allowed s then .fail .permission s
      else .ok (s.mapHif fun h => { h with rings := mput h.rings c.target { Ring.init with cfg := ringParams c } })) s)

/-- RING_DELETE: fetching stops at once, and it completes after the ring's last completion (R390, Table 14.8). -/
def execRingDelete (id : Nat) (s : State) : Host.Outcome State Fault Refusal :=
  .next (runCmd id 0x05
    (fun c s => firstFail [
      (decide (c.target = 0) || decide (1023 < c.target) || decide (c.target = c.ring) || !noFields c, .invalidField),
      (!mhas s.hif.rings c.target, .objectNotFound)])
    (fun c s =>
      if (mget s.hif.rings c.target Ring.init).deleting then .fail .busy s
      else
        { Ran.ok (settleDeletes s.fl.cmds.length (modRing c.target (fun g => { g with deleting := true }) s)) with done := false }) s)

/-- RING_RESET: from ERROR to the state after creation (R391). -/
def execRingReset (id : Nat) (s : State) : Host.Outcome State Fault Refusal :=
  .next (runCmd id 0x06
    (fun c s => firstFail [
      (decide (c.target = 0) || decide (1023 < c.target) || !noFields c, .invalidField),
      (!mhas s.hif.rings c.target, .objectNotFound)])
    (fun c s =>
      if (mget s.hif.rings c.target Ring.init).error.isNone ∨ reserved s c.target ≠ 0 then .fail .busy s
      else .ok (modRing c.target (fun g => { Ring.init with cfg := g.cfg, deleting := g.deleting }) s)) s)

/-- RING_STATUS (R392). -/
def execRingStatus (id : Nat) (s : State) : Host.Outcome State Fault Refusal :=
  .next (runCmd id 0x07
    (fun c s => firstFail [
      (decide (1023 < c.target) || !noFields c, .invalidField),
      (!mhas s.hif.rings c.target, .objectNotFound)])
    (fun c s =>
      let g := mget s.hif.rings c.target Ring.init
      { Ran.ok s with
        r0 := BitVec.ofNat 64 (g.sqHead + g.sqTail * 2 ^ 16 + g.cqTail * 2 ^ 32 + g.cqHead * 2 ^ 48)
        r1 := BitVec.ofNat 64 (b2n g.error.isSome + (g.error.getD 0) * 2 + reserved s c.target * 2 ^ 16 +
          (groupMask s c.target).toNat * 2 ^ 32) }) s)

end Sys2Proof.Machine
end

