-- ==== Sys2Proof/Machine/Rails.lean ====
section
/-! DEFINITION. Brownout, the rails, the reference clocks and PLLs, the thermal trip, and AVSBus (R58 to R66, R71, R72, R48). -/
namespace Sys2Proof.Machine

/-! ## Brownout (R61 to R65) -/

/-- The set point in mV from which the thresholds are computed: the lower of the previous and the requested one while a request is
outstanding and for 100 us after its acknowledgement (R61). -/
def boPoint (s : State) : Nat :=
  let b := s.bed
  if b.avsPending then min b.avsSet b.avsReq
  else
    match b.avsAckAt with
    | some t => if s.now < t + 100000 then min b.avsPrev b.avsSet else b.avsSet
    | none => b.avsSet

/-- VDD_CORE is watched: the Bedrock domain runs, and the device is not in RETAIN or tripped (R492, R557). -/
def coreWatched (s : State) : Bool := s.bed.running && !s.retn.inRetain && !s.retn.waking && !s.bed.tripped

/-- Microvolts rounded down to a multiple of 5 mV, in mV (R63). -/
def mv5 (uv : Nat) : Nat := uv / 5000 * 5

/-- Adaptation freezes: a rotation step that has not switched is abandoned, and a calibration run loses its measurements (R63, R101). -/
def freezeLane (l : Lane) : Lane :=
  { l with
    rot := keptStep l
    cal := match l.cal with
      | none => none
      | some c => if c.running then some { c with runs := [] } else some c }

/-- A freeze overlaps the phase that every pair is in (R203). -/
def freezeLink (l : Link) : Link := { l with pairs := mmap l.pairs fun _ p => { p with froze := true } }

/-- The timed commits that have executed and not switched are deferred past their time (R64). -/
def deferCommits (s : State) : State :=
  s.tbl.commits.foldl (fun s c => modCmd c.cmd (fun x => { x with late := x.late || x.flag 0 }) s) s

/-- What the receivers have reached at the freeze: of each lane whose adaptation runs (R85, R111), and of each ACTIVE pair, by link × 8 +
pair (R191). -/
def reachedNow (ms : List (Nat × LaneMeas)) (ps : List (Nat × PairMeas)) (s : State) : State :=
  let s := ms.foldl (fun s e => if laneMoves (lane s e.1) then laneUpdate e.1 e.2 s else s) s
  ps.foldl (fun s e => if (pair s (e.1 / 8) (e.1 % 8)).state = .active then pairAdapt (e.1 / 8) (e.1 % 8) e.2 s else s) s

/-- BROWNOUT_WARNING: VDD_CORE is below the warning threshold; a crossing during an episode belongs to it (R62, R63). -/
def execBrownoutWarning (uv : Nat) (ms : List (Nat × LaneMeas)) (ps : List (Nat × PairMeas)) (s : State) : Host.Outcome State Fault Refusal :=
  .next (
    if !coreWatched s ∨ 960 * boPoint s ≤ uv then s
    else if s.bed.boActive then s.mapBed fun b => { b with boLowUv := min b.boLowUv uv }
    else
      let s := (reachedNow ms ps s).mapBed fun b => { b with boActive := true, boStart := s.now, boLowUv := uv }
      let s := s.mapLanes fun b => { b with tab := mmap b.tab fun _ l => freezeLane l }
      deferCommits (s.mapGar fun g => { g with links := mmap g.links fun _ l => freezeLink l }))

/-- The refreshes that fell due during the freeze start (R211). -/
def refreshDeferred (s : State) : State :=
  s.gar.links.foldl (fun s l => forEach (pairIdx l.1) (fun i s =>
    let p := pair s l.1 i
    if p.refreshDue ∧ p.state = .sleep ∧ p.leader then refreshStart l.1 i s else s) s) s

/-- BROWNOUT_RECOVERY: VDD_CORE has stayed above the recovery threshold, 0.97 of the set point in force (Table 3.4), for t_bo_resume;
adaptation resumes, and one event reports the episode (R63). Deferred refreshes start (R211); deferred commits follow as their own rows. -/
def execBrownoutRecovery (uv core : Nat) (s : State) : Host.Outcome State Fault Refusal :=
  .next (
    if !s.bed.boActive ∨ core ≤ 970 * boPoint s then s
    else
      let low := min s.bed.boLowUv uv
      let us := (s.now - s.bed.boStart) / 1000
      refreshDeferred (post 0x9002 1 (mv5 low) us (s.mapBed fun b => { b with boActive := false, boLowUv := low })))

/-- BROWNOUT_RESET: VDD_CORE is below the reset threshold (R62, R65). -/
def execBrownoutReset (uv : Nat) (s : State) : Host.Outcome State Fault Refusal :=
  .next (
    if !coreWatched s ∨ s.bed.coreReset ∨ 920 * boPoint s ≤ uv then s
    else coreReset 0x0001 0 (mv5 (if s.bed.boActive then min s.bed.boLowUv uv else uv)) s)

/-! ## The rails (R54, R57, R65, R66, R492) -/

/-- A rail leaves its range. -/
def railOff (r : Nat) (s : State) : State := s.mapBed fun b => { b with railOk := b.railOk &&& ~~~ (1 <<< r : BitVec 12) }
/-- A rail comes into range. -/
def railOn (r : Nat) (s : State) : State := s.mapBed fun b => { b with railOk := b.railOk ||| (1 <<< r : BitVec 12) }

/-- What RETAIN loses with a group B rail (Table 19.5). -/
def retainLoss (r : Nat) (s : State) : State :=
  s.mapRetn fun x => { x with sramLost := x.sramLost || decide (r = 1), hbmLost := x.hbmLost || decide (r = 3) || decide (r = 4) }

/-- GROUP_B_RAIL_LOSS: a core reset; in RETAIN, and while a wake waits for its start, only what the rail retains is lost. -/
def execGroupBRailLoss (rail : Nat) (s : State) : Host.Outcome State Fault Refusal :=
  .next (
    if 4 < rail ∨ !railUp s rail then s
    else
      let s := railOff rail s
      if !s.bed.running ∨ s.bed.tripped ∨ s.bed.coreReset then s
      else if s.retn.inRetain ∨ s.retn.waking then retainLoss rail s
      else coreReset 0x0002 rail 0 s)

/-- GROUP_B_RAIL_RETURN: the firmware held in reset, or the wake start, follows the last rail (R54, R57, R487). -/
def execGroupBRailReturn (rail : Nat) (s : State) : Host.Outcome State Fault Refusal :=
  .next (if 4 < rail then s else tryStart (railOn rail s))

/-- CORE_RESET_RESTART: every group B rail has been in range for 1 ms (R65). -/
def execCoreResetRestart (s : State) : Host.Outcome State Fault Refusal := .next (coreRestart s)

/-- What stops with a group C rail (Table 3.2, R66, R506). -/
def railStop (rail : Nat) (s : State) : State :=
  match rail with
  | 5 => lanesStop (List.range 256) (s.mapTim fun t => { t with synceOn := 0 })
  | 6 => lanesStop (List.range 256) (s.mapTim fun t => { t with synceOn := 0 })
  | 7 => linksStop 0 s
  | 8 => cagesStop s
  | _ => ((s.mapDac fun _ => DacBank.init).mapAdc fun a => { a with run := 0, latched := false }).mapBed fun b => { b with auxValid := false }

/-- VDDIO_AUX is valid: the auxiliary DACs take their board OTP setting (R56, R506). -/
def auxValidNow (s : State) : State :=
  if s.bed.bedrockUp && railUp s 9 && !s.bed.auxValid && !s.bed.tripped then dacApplyOtp (s.mapBed fun b => { b with auxValid := true }) else s

/-- What starts again with a group C rail (R55, R66). -/
def railStart (rail : Nat) (s : State) : State :=
  match rail with
  | 5 => forEach (List.range 256) laneRestart s
  | 6 => forEach (List.range 256) laneRestart s
  | 7 => linksStart s
  | 8 => s
  | _ => auxValidNow s

/-- GROUP_C_RAIL_LOSS: the functions that the rail feeds stop; RAIL_LOSS is logged and posted, but in RETAIN, where the board may remove
the rail. VDDIO_AUX is evaluated only once BEDROCK_UP is set (R56). -/
def execGroupCRailLoss (rail : Nat) (s : State) : Host.Outcome State Fault Refusal :=
  .next (
    if rail < 5 ∨ 9 < rail ∨ !railUp s rail then s
    else
      let s := railOff rail s
      if !s.bed.running ∨ (rail = 9 ∧ s.bed.bedrockUp = false) then s
      else
        let s := railStop rail s
        if s.retn.inRetain ∨ s.retn.waking ∨ s.bed.tripped then s else post 0x9003 2 (rail - 5) 0 (logErr 0x0002 rail 0 s))

/-- GROUP_C_RAIL_RETURN: the functions that the rail feeds start, lanes with a cold start. -/
def execGroupCRailReturn (rail : Nat) (s : State) : Host.Outcome State Fault Refusal :=
  .next (
    if rail < 5 ∨ 9 < rail ∨ railUp s rail then s
    else railStart rail (railOn rail s))

/-- VDDIO_AUX_VALID. -/
def execVddioAuxValid (s : State) : Host.Outcome State Fault Refusal := .next (auxValidNow s)

/-! ## Reference clocks and PLLs (R71, R72) -/

/-- The PCIe link goes down: the host interface resets (Table 3.7, R376). -/
def pcieDown (s : State) : State :=
  hifReset ((s.mapBoot fun b => { b with d3hot := false }).mapHreg fun h => { h with hifEnable := false })

/-- A reference clock's bit. -/
def refBit (clk : Nat) : BitVec 3 := 1 <<< clk

/-- REFCLK_LOST: logged, and acted on as Table 3.6 states; in RETAIN nothing runs from it. -/
def execRefclkLost (clk : Nat) (s : State) : Host.Outcome State Fault Refusal :=
  .next (
    if 2 < clk ∨ !s.bed.refOk.getLsbD clk then s
    else
      let s := s.mapBed fun b => { b with refOk := b.refOk &&& ~~~ refBit clk }
      if !s.bed.running ∨ s.retn.inRetain ∨ s.retn.waking ∨ s.bed.tripped then s
      else if clk = 0 then (if s.bed.coreReset then s else coreReset 0x0003 0 0 s)
      else
        let s := logErr 0x0003 clk 0 s
        if clk = 1 then linksStop 3 s
        else
          pcieDown (s.mapBoot fun b => { b with pcieTrain := false }))

/-- REFCLK_RETURN: within tolerance for 1 ms, what it drives starts again. -/
def execRefclkReturn (clk : Nat) (s : State) : Host.Outcome State Fault Refusal :=
  .next (
    if 2 < clk ∨ s.bed.refOk.getLsbD clk then s
    else
      let s := s.mapBed fun b => { b with refOk := b.refOk ||| refBit clk }
      if clk = 0 then tryStart (coreRestart s)
      else if clk = 1 then linksStart s
      else s.mapBoot fun b => { b with pcieTrain := b.started })

/-- An HBM stack is woken from off: its soft repairs, volatile in it, are gone until it is trained (R342), it is initialised whole, and the tables with blocks lose their entries with it
(Table 19.2, R489; log 107). -/
def hbmRestart (m : Nat) (s : State) : State :=
  let s := s.mapBoot fun b =>
    { b with
      initDone := b.initDone &&& ~~~ regionBit (65 + m), initRun := b.initRun &&& ~~~ regionBit (65 + m)
      hbmTraining := b.hbmTraining ||| (1 <<< m : BitVec 4), hbmFails := mput b.hbmFails m 0 }
  let s := modStack m (fun x => { x with inForce := [] }) s
  let s := s.mapRetn fun r => { r with hbmStacks := if bitOf r.hbmStacks m then r.hbmStacks - 2 ^ m else r.hbmStacks }
  s.mapTbl fun t => { t with tables := mmap t.tables fun _ x => if x.blocks.isEmpty then x else { x with entries := [] } }

/-- The block of a PLL starts again as woken from off (R71, Tables 22.16 and 19.2): the lanes of a cage, the links of a Garnet strip, the
Geode link, the whole device where the traffic manager and table engine or the control processors stop, an HBM stack, the time block
with its clock not running, or the PCIe link (log 107). -/
def pllRestart (pll : Nat) (s : State) : State :=
  if pll < 32 then
    let ls := (cageLanes pll).filter fun n => (lane s n).port.isSome
    forEach ls laneRestart (lanesStop ls s)
  else if pll < 36 then forEach (List.range' (16 * (pll - 32)) 16) (fun n s => linkRestart n 0 (abortPairCmds n s)) s
  else if pll = 36 then linkRestart geodeLink 0 (abortPairCmds geodeLink s)
  else if pll < 39 then tryStart (outerReset s)
  else if pll < 43 then hbmRestart (pll - 39) s
  else if pll = 43 then s.mapTim fun _ => { Tim.init with blockOn := true }
  else pcieDown s

/-- PLL_UNLOCK: a PLL that was locked loses its lock; recorded, and its block is treated as woken from off (R71). -/
def execPllUnlock (pll : Nat) (s : State) : Host.Outcome State Fault Refusal :=
  .next (if 44 < pll ∨ pllLocked s pll = false then s else pllRestart pll (logErr 0x0005 pll 0 s))

/-! ## The thermal trip (R48, R555, R557) -/

/-- THERMTRIP: with VDD_BEDROCK in range a sensor without a fault is at 125 degC or more: every group but the Bedrock pins moves to Reset until POR_N, in any
device state; retained contents are lost, and OTP programming goes on. -/
def execThermtrip (sensor : Nat) (reading : Int) (s : State) : Host.Outcome State Fault Refusal :=
  .next (
    if s.bed.porAsserted ∨ !railUp s 10 ∨ s.bed.tripped ∨ 39 < sensor ∨ s.bed.tempFault.contains sensor ∨ reading < 2000 then s
    else
      let s := logErr 0x0006 sensor (unsigned 32 reading) s
      let s := s.mapBed fun b => { b with tripped := true, cageHeld := false, boActive := false, auxValid := false }
      otpDetach (((coreClear s).mapDac fun _ => DacBank.init).mapRetn fun _ => Retain.init))

/-! ## AVSBus (R58 to R61) -/

/-- The device may issue a request: FW_READY, none outstanding, no brownout, and 10 ms since the last one (R59). -/
def avsFree (s : State) : Bool :=
  s.boot.fwReady && !s.bed.avsPending && !s.bed.boActive && s.bed.avsReqAt.all fun t => decide (t + 10000000 ≤ s.now)

/-- The rail select value that board OTP holds, or 0 when it holds none (R58, Table 20.6). -/
def avsSelect (s : State) : Nat := if bitOf (fieldAt s.otp.area 0 4) 1 then byteAt s.otp.area 8 % 16 else 0

/-- Issues a request: a voltage write with commit to the addressed rail (R58). -/
def avsIssue (mv : Nat) (s : State) : State :=
  s.mapBed fun b =>
    { b with avsPending := true, avsReq := mv, avsSel := avsSelect s, avsFails := 0, avsRetry := none, avsReqAt := some s.now }

/-- The highest valid reading of TS36 to TS39 in 1/16 degC (R59). -/
def coreHottest (s : State) : Option Int :=
  ([36, 37, 38, 39].filterMap (mfind s.bed.temp)).foldl (fun m t => some (match m with
    | none => t
    | some x => max x t)) none

/-- The temperature term at a temperature: that of the last step at or below it (R59; log 135). -/
def avsTermAt (f : Fuse) (t : Int) : Int := f.avsTerm.foldl (fun v e => if e.1 ≤ t then e.2 else v) 0

/-- The set point that the device wants: the fused target plus the temperature term 10 degC above the highest reading, so that a raise
comes that much before it is needed, rounded up to 5 mV, within 620 to 800 mV; without a reading the set point stays (R59). -/
def avsWanted (s : State) : Nat :=
  match coreHottest s with
  | none => s.bed.avsSet
  | some t => max 620 (min 800 (((s.fuse.avsTarget : Int) + avsTermAt s.fuse (t + 160) + 4) / 5 * 5).toNat)

/-- AVS_REQUEST: a step of 5 or 10 mV from the set point towards the one wanted (R59). -/
def execAvsRequest (mv : Nat) (s : State) : Host.Outcome State Fault Refusal :=
  .next (
    if avsFree s ∧ s.bed.avsRetry = none ∧ mv % 5 = 0 ∧
        ((s.bed.avsSet < mv ∧ mv ≤ s.bed.avsSet + 10 ∧ mv ≤ avsWanted s) ∨ (mv < s.bed.avsSet ∧ s.bed.avsSet ≤ mv + 10 ∧ avsWanted s ≤ mv)) then
      avsIssue mv s
    else s)

/-- AVS_ACK: the set point is acknowledged (R60); no answer reaches the AVS pins while they are unpowered (R44). -/
def execAvsAck (s : State) : Host.Outcome State Fault Refusal :=
  .next (
    if !s.bed.avsPending || !railUp s 11 then s
    else
      let s := s.mapBed fun b =>
        { b with avsPending := false, avsFails := 0, avsPrev := b.avsSet, avsSet := b.avsReq, avsAckAt := some s.now }
      s.mapHealth fun h => { h with vackSince := true })

/-- Three VOLTAGE_REQUEST_FAIL within 60 minutes set cause [15] (Table 19.6). -/
def voltageFail (s : State) : State :=
  let recent := (s.now :: s.health.vfails).filter fun t => decide (s.now - t ≤ 3600000000000)
  let s := s.mapHealth fun h => { h with vfails := recent, vackSince := false }
  if 3 ≤ recent.length then setCause 7 s else s

/-- AVS_TIMEOUT: the same request is repeated; the third failure ends the series at the previous set point (R60). -/
def execAvsTimeout (s : State) : Host.Outcome State Fault Refusal :=
  .next (
    if !s.bed.avsPending then s
    else if s.bed.avsFails < 2 then s.mapBed fun b => { b with avsFails := b.avsFails + 1 }
    else
      let kept := s.bed.avsSet
      let req := s.bed.avsReq
      let s := s.mapBed fun b => { b with avsPending := false, avsFails := 0, avsReq := kept, avsRetry := some req }
      voltageFail (post 0x9001 1 kept req (logErr 0x000D 0 (65536 * req + kept) s)))

/-- AVS_RETRY: no sooner than 1 s after a failed series, the request is tried again (R60). -/
def execAvsRetry (s : State) : Host.Outcome State Fault Refusal :=
  .next (
    match s.bed.avsRetry with
    | none => s
    | some mv => if s.boot.fwReady && !s.bed.avsPending && !s.bed.boActive then avsIssue mv s else s)

end Sys2Proof.Machine
end

