-- ==== Sys2Proof/Machine/Ramps.lean ====
section
/-! DEFINITION. The steps of the transmit ramps and what their ends settle (R143 to R148). -/
namespace Sys2Proof.Machine

/-- What the end of a ramp down settles beside the lane's port: the dark of a switchover, QUIESCE, a media change (R473, R478, R149). -/
def settleDown (n : Nat) (s : State) : State := quiesceSettle (mediaSettle (n / 8) (darkCheck (rampDownEnd n s)))

/-- RAMP_STEP: a ramp up or down, or a change of TX_AMPL, advances by one of its 64 steps. -/
def execRampStep (lane' : Nat) (s : State) : Host.Outcome State Fault Refusal :=
  .next (
    let l := lane s lane'
    match l.tx with
    | .rampUp =>
      if 64 ≤ l.step + 1 then
        quiesceSettle (takenCheck (rampUpEnd lane' (modLane lane' (fun l => { l with tx := .transmitting, step := 64 }) s)))
      else modLane lane' (fun l => { l with step := l.step + 1 }) s
    | .rampDown =>
      if l.step ≤ 1 then
        settleDown lane' (modLane lane' (fun l => { l with tx := if l.rampStop then .stopping else .muted, step := 0 }) s)
      else modLane lane' (fun l => { l with step := l.step - 1 }) s
    | .transmitting => if l.amplStep < 64 then modLane lane' (fun l => { l with amplStep := l.amplStep + 1 }) s else s
    | .hiZ => s
    | .muted => s
    | .stopping => s)

/-- TX_OUTPUT_RELEASE: a stopped lane has driven zero for 1 us; its outputs return to high impedance (R144). -/
def execTxOutputRelease (lane' : Nat) (s : State) : Host.Outcome State Fault Refusal :=
  .next (
    if (lane s lane').tx ≠ .stopping then s
    else
      let s := modLane lane' (fun l => { l with tx := .hiZ }) s
      let s := match (lane s lane').port with
        | none => s
        | some p => portDeleteSettle p s
      quiesceSettle (mediaSettle (lane' / 8) s))

end Sys2Proof.Machine
end

