-- ==== Sys2Proof/Machine/Registers.lean ====
section
/-! DEFINITION. The registers of BAR0, the doorbells of BAR2, and configuration requests (chapters 14 and 22). -/
namespace Sys2Proof.Machine

/-! ## Values of the registers (Tables 22.2 to 22.22) -/

/-- READY. -/
def readyWord (s : State) : Nat :=
  b2n s.bed.bedrockUp + 2 * b2n s.boot.fwReady + 4 * b2n s.hif.hostReady + 8 * b2n (spillEnabled s) + 16 * b2n s.tim.running +
    32 * b2n (geoUp s)

/-- HIF_STATUS. -/
def hifStatusWord (s : State) : Nat :=
  b2n s.hif.hostReady +
    (match (mget s.hif.rings 0 Ring.init).error with
    | none => 0
    | some c => 2 + 4 * c)

/-- PLL_LOCK. -/
def pllWord (s : State) : Nat := (List.range 45).foldl (fun n i => n + b2n (pllLocked s i) * 2 ^ i) 0

/-- CLK_STATUS. -/
def clkWord (s : State) : Nat := b2n s.bed.clkInUse + 2 * b2n s.bed.fallback + 4 * s.bed.refOk.toNat

/-- AVS_STATUS. -/
def avsWord (s : State) : Nat :=
  s.bed.avsSet + 2 ^ 16 * s.bed.avsReq + 2 ^ 26 * b2n s.bed.avsPending + 2 ^ 27 * b2n s.bed.boActive + 2 ^ 28 * s.bed.avsFails

/-- STATE of DEVICE_STATE. -/
def DevState.code : DevState → Nat
  | .active => 0
  | .quiesce => 1
  | .retain => 2

/-- DEVICE_STATE. -/
def deviceStateWord (s : State) : Nat :=
  s.boot.state.code + 4 * b2n s.boot.transition + 16 * b2n s.bed.cageHeld + 256 * s.bed.wakeSource

/-- RING0_CFG. -/
def ringCfgWord (r : RingCfg) : Nat := r.sqDepth + 256 * r.cqDepth + 65536 * r.intCount

/-- An entry of a soft repair list (Table 22.22). -/
def repairWord (s : State) (k : Nat) : Nat :=
  match mfind s.rep.soft k with
  | none => 0
  | some (ch, bank, row) =>
    2 ^ 63 + 2 ^ 62 * b2n (s.rep.hardWait.contains (k / 512, ch, bank, row)) + 2 ^ 32 * ch + 2 ^ 24 * bank + row

/-- A 64-bit register that lies at `off`, by the offset of its low half, with its value. -/
def reg64 (s : State) (off : Nat) : Option Nat :=
  if off % 8 ≠ 0 then none
  else if off = 0x10 then some Config.serial.toNat
  else if off = 0x28 then some (s.boot.initDone.toNat % 2 ^ 64)
  else if off = 0x30 then some (s.boot.initDone.toNat / 2 ^ 64)
  else if 0x40 ≤ off ∧ off < 0x60 then some (laneReadyBits s / 2 ^ (8 * (off - 0x40)) % 2 ^ 64)
  else if off = 0x60 then some (linkUpBits s)
  else if off = 0x10010 then some s.hreg.ring0.sqBase.toNat
  else if off = 0x10018 then some s.hreg.ring0.cqBase.toNat
  else if off = 0x10030 then some s.hreg.evqBase.toNat
  else if 0x28000 ≤ off ∧ off < 0x28088 then
    some ((List.range 64).foldl (fun n i => n + b2n (s.hif.pba.contains (8 * (off - 0x28000) + i)) * 2 ^ i) 0)
  else if off = 0x30000 then some (if s.tim.running then s.tim.ns * 2 ^ 32 + s.tim.frac else 0)
  else if off = 0x30008 then some (if s.tim.running then s.hreg.timeSec.toNat else 0)
  else if off = 0x30010 then some (freqWord s.tim).toNat
  else if off = 0x40008 then some (pllWord s)
  else if 0x50100 ≤ off ∧ off < 0x50200 then
    let w := mget s.guard.windows ((off - 0x50100) / 16) (0, 0)
    some (if off % 16 = 0 then w.1 else w.2 / 4096)
  else if 0x68000 ≤ off ∧ off < 0x6C000 then some (repairWord s ((off - 0x68000) / 8))
  else none

/-- A dword of the MSI-X table. -/
def msixDword (e : MsixEntry) (i : Nat) : Nat :=
  if i = 0 then e.addrLo.toNat else if i = 1 then e.addrHi.toNat else if i = 2 then e.data.toNat else b2n e.mask

/-- A 32-bit register, or zero at an offset that holds none (R523). -/
def reg32 (s : State) (off : Nat) : Nat :=
  if off = 0 then 0x51201FB7
  else if off = 4 then 0x00030011
  else if off = 8 then 0x00000100
  else if off = 0x20 then readyWord s
  else if off = 0x10000 then b2n s.hreg.hifEnable
  else if off = 0x10004 then hifStatusWord s
  else if off = 0x10008 then s.hreg.err.toNat
  else if off = 0x10020 then ringCfgWord s.hreg.ring0
  else if off = 0x10024 then s.hreg.ring0.intTime
  else if off = 0x10038 then s.hreg.evqDepth + 65536 * s.hreg.evqIntCount
  else if off = 0x1003C then s.hreg.evqIntTime
  else if 0x20000 ≤ off ∧ off < 0x24010 then msixDword (mget s.hif.msix ((off - 0x20000) / 16) MsixEntry.init) (off / 4 % 4)
  else if off = 0x30018 then s.tim.servo.code + 4 * b2n s.tim.ppsHere
  else if off = 0x40000 then clkWord s
  else if off = 0x40004 then s.bed.railOk.toNat
  else if off = 0x40010 then avsWord s
  else if off = 0x40014 then deviceStateWord s
  else if off = 0x40018 then healthWord s
  else if off = 0x50000 then guardWord s
  else if off = 0x50004 then s.guard.permGen.toNat
  else if 0x50800 ≤ off ∧ off < 0x51000 then
    let j := (off - 0x50800) / 4
    (groupMask s (2 * j)).toNat + 65536 * (groupMask s (2 * j + 1)).toNat
  else if off = 0x60000 then s.elog.total % 2 ^ 32
  else if 0x60010 ≤ off ∧ off < 0x60020 then (s.rep.soft.filter fun e => decide (e.1 / 512 = (off - 0x60010) / 4)).length
  else 0

/-- The offset lies in the error log's slots, 16 bytes each (R537). -/
def slotOf (off : Nat) : Option Nat := if 0x61000 ≤ off ∧ off < 0x62000 then some ((off - 0x61000) / 16) else none

/-- A register of the time block, which is off (R357, R533). -/
def offBlock (s : State) (off : Nat) : Bool := !s.tim.blockOn && decide (0x30000 ≤ off) && decide (off < 0x3001C)

/-! ## Reads (R357, R525, R534, R537) -/

/-- What a read returns. -/
def readBack (v : Nat) (s : State) : State := s.mapHreg fun h => { h with readData := BitVec.ofNat 512 v, readCpl := 0 }

/-- A read of a register of a block that is off. -/
def readOff (s : State) : State := setHifErr 2 (readBack 0x0FF00FF0 s)

/-- A capture of the clock: NANOSECONDS to the latch of TIME_NSFRAC, SECONDS to TIME_SEC (R534). -/
def captureTime (wide : Bool) (s : State) : State :=
  if !s.tim.blockOn then
    (if wide then readBack 0x0FF00FF00FF00FF0 (readOff s) else readOff s)
  else
    let v := (reg64 s 0x30000).getD 0
    let sec : BitVec 64 := if s.tim.running then s.tim.sec else 0
    readBack (if wide then v else v % 2 ^ 32)
      (s.mapHreg fun h => { h with timeSec := sec, latch := mput h.latch 0x30000 (BitVec.ofNat 32 (v / 2 ^ 32)) })

/-- A read of the first 4 or 8 bytes of an error-log slot latches bytes 4 to 15 (R537). -/
def readSlot (i : Nat) (wide : Bool) (s : State) : State :=
  let b := logSlot s i
  readBack (fieldAt b 0 (if wide then 8 else 4)) (s.mapHreg fun h => { h with slotLatch := mput h.slotLatch i (b.drop 4) })

/-- An aligned 4-byte read of BAR0: the low half of a 64-bit register latches its high half, whose read returns the latch. -/
def readDword (off : Nat) (s : State) : State :=
  if offBlock s off then readOff s
  else if off = 0x30000 then captureTime false s
  else
    match slotOf off with
    | some i =>
      if off % 16 = 0 then readSlot i false s
      else readBack (fieldAt (mget s.hreg.slotLatch i (zeros 12)) (off % 16 - 4) 4) s
    | none =>
      match reg64 s off with
      | some v => readBack (v % 2 ^ 32) (s.mapHreg fun h => { h with latch := mput h.latch off (BitVec.ofNat 32 (v / 2 ^ 32)) })
      | none =>
        match (if off % 8 = 4 then reg64 s (off - 4) else none) with
        | some _ => readBack (mget s.hreg.latch (off - 4) 0).toNat s
        | none => readBack (reg32 s off) s

/-- BAR0 can be read and written: the firmware runs, so that configuration requests have been served (R75). -/
def barLive (s : State) : Bool := s.boot.fwReady && s.boot.pcieTrain

/-- An aligned 8-byte read of BAR0: both halves from one instant; a 64-bit register also loads its latch (R524, R525). -/
def readQword (off : Nat) (s : State) : State :=
  if off = 0x30000 then captureTime true s
  else if offBlock s off then readBack (0x0FF00FF0 + (if offBlock s (off + 4) then 0x0FF00FF0 * 2 ^ 32 else 0)) (readOff s)
  else
    match slotOf off with
    | some i =>
      if off % 16 = 0 then readSlot i true s else readBack (fieldAt (mget s.hreg.slotLatch i (zeros 12)) 4 8) s
    | none =>
      match reg64 s off with
      | some v => readBack v (s.mapHreg fun h => { h with latch := mput h.latch off (BitVec.ofNat 32 (v / 2 ^ 32)) })
      | none => readBack (reg32 s off + reg32 s (off + 4) * 2 ^ 32) s

/-- A read of a size or alignment that Table 14.2 does not list: Unsupported Request and BAD_ACCESS (R356). -/
def readBad (s : State) : State := setHifErr 1 (s.mapHreg fun h => { h with readData := 0, readCpl := 1 })

/-- A read of BAR4: zero until user mapping of it has been granted (R358, R514). -/
def readImage (off len : Nat) (s : State) : State :=
  readBack (if s.guard.bar4 then fieldAt ((List.range len).map fun i => snapByte s (off + i)) 0 len else 0) s

/-- A host read of a BAR, of the sizes of Table 14.2; BAR2 reads zero (R356). -/
def readBar (bar off len : Nat) (s : State) : State :=
  let takes := fun (l : List Nat) => l.contains len && decide (off % len = 0)
  if bar = 0 then
    if len = 4 ∧ off % 4 = 0 then readDword off s else if len = 8 ∧ off % 8 = 0 then readQword off s else readBad s
  else if bar = 2 then (if takes [1, 2, 4, 8] then readBack 0 s else readBad s)
  else if bar = 4 then (if takes [4, 8, 16, 32, 64] then readImage off len s else readBad s)
  else s

/-- LOW_HALF_READ: a host read of a BAR, an aligned 4-byte read of BAR0 at the low half of a 64-bit register in the first place (R356,
R358, R524, R525). -/
def execLowHalfRead (bar offset len : Nat) (s : State) : Host.Outcome State Fault Refusal :=
  .next (if barLive s then readBar bar offset len s else s)

/-- TIME_CAPTURE_READ (R534). -/
def execTimeCaptureRead (wide : Bool) (s : State) : Host.Outcome State Fault Refusal :=
  .next (if barLive s then captureTime wide s else s)

/-- ERROR_LOG_SLOT_READ (R537). -/
def execErrorLogSlotRead (slot : Nat) (wide : Bool) (s : State) : Host.Outcome State Fault Refusal :=
  .next (if barLive s ∧ slot < 256 then readSlot slot wide s else s)

/-- BAR0_OFF_BLOCK_ACCESS: a read returns 0x0FF0_0FF0 and sets ACCESS_TO_OFF, a write is discarded (R357). -/
def execBar0OffBlockAccess (offset : Nat) (write : Bool) (s : State) : Host.Outcome State Fault Refusal :=
  .next (if !barLive s ∨ !offBlock s offset ∨ write then s else readOff s)

/-! ## Writes (R16, R18, R526, R528, R530 to R532) -/

/-- Writes a base of ring pair 0 or EVQ; bits [11:0] not zero are a reserved value, which leaves the register (Table 14.3, R18). -/
def writeBase (off v : Nat) (s : State) : State :=
  if v % 4096 ≠ 0 then s
  else
    let b := BitVec.ofNat 64 v
    s.mapHreg fun h =>
      if off = 0x10010 then { h with ring0 := { h.ring0 with sqBase := b } }
      else if off = 0x10018 then { h with ring0 := { h.ring0 with cqBase := b } }
      else { h with evqBase := b }

/-- A 64-bit RW register of BAR0. -/
def isBase (off : Nat) : Bool := decide (off = 0x10010) || decide (off = 0x10018) || decide (off = 0x10030)

/-- Writes a depth and count register, or an interrupt time; a reserved value leaves the register. -/
def writeCfg (off v : Nat) (s : State) : State :=
  let d := v % 32
  let q := v / 256 % 32
  let count := v / 65536 % 256
  let t := v % 4096
  s.mapHreg fun h =>
    if off = 0x10020 then
      (if d = 0 ∨ 16 < d ∨ q = 0 ∨ 16 < q then h else { h with ring0 := { h.ring0 with sqDepth := d, cqDepth := q, intCount := count } })
    else if off = 0x10024 then (if 0xFA0 < t then h else { h with ring0 := { h.ring0 with intTime := t } })
    else if off = 0x10038 then (if d = 0 ∨ 16 < d then h else { h with evqDepth := d, evqIntCount := count })
    else (if 0xFA0 < t then h else { h with evqIntTime := t })

/-- A parameter register of ring pair 0 or EVQ, or the high half of one. -/
def isParam (off : Nat) : Bool :=
  isBase off || (decide (off % 8 = 4) && isBase (off - 4)) || [0x10020, 0x10024, 0x10038, 0x1003C].contains off

/-- A 4-byte write to a parameter: CFG_LOCKED while HIF_ENABLE is 1; the low half of a base is staged, and the high half then writes
both (R526, R528). -/
def writeParam (off v : Nat) (s : State) : State :=
  if s.hreg.hifEnable then setHifErr 0x40 s
  else if isBase off then s.mapHreg fun h => { h with staged := mput h.staged off (BitVec.ofNat 32 v) }
  else if off % 8 = 4 ∧ isBase (off - 4) then
    let low := (mget s.hreg.staged (off - 4) (BitVec.ofNat 32 ((reg64 s (off - 4)).getD 0))).toNat
    writeBase (off - 4) (v * 2 ^ 32 + low) (s.mapHreg fun h => { h with staged := mdel h.staged (off - 4) })
  else writeCfg off v s

/-- An aligned 8-byte write to a base takes effect at once (R526). -/
def writeBase64 (off v : Nat) (s : State) : State :=
  if s.hreg.hifEnable then setHifErr 0x40 s else writeBase off v (s.mapHreg fun h => { h with staged := mdel h.staged off })

/-- TRACE_HEAD: consumed records become free, or TRACE_RANGE (R531). -/
def writeTraceHead (value : BitVec 32) (s : State) : State :=
  let v := value.toNat % 2 ^ 20
  match s.obs.ring with
  | none => setHifErr 0x10 s
  | some (_, depth) =>
    let n := 2 ^ depth
    if n ≤ v ∨ (s.obs.trIndex + n - s.obs.trHead) % n < (v + n - s.obs.trHead) % n then setHifErr 0x10 s
    else s.mapObs fun o => { o with trHead := v }

/-- TRACE_HEAD_WRITE (R531). -/
def execTraceHeadWrite (value : BitVec 32) (s : State) : Host.Outcome State Fault Refusal :=
  .next (if barLive s then writeTraceHead value s else s)

/-- RING0_PARAM_WRITE: a write of 4 or 8 bytes to parameters of ring pair 0 or EVQ; 8 bytes over two registers are two writes, the lower
first (R524, R528). -/
def execRing0ParamWrite (offset len : Nat) (value : BitVec 64) (s : State) : Host.Outcome State Fault Refusal :=
  .next (
    if !barLive s ∨ !isParam offset then s
    else if len = 4 ∧ offset % 4 = 0 then writeParam offset (value.toNat % 2 ^ 32) s
    else if len = 8 ∧ offset % 8 = 0 then
      if isBase offset then writeBase64 offset value.toNat s
      else writeParam (offset + 4) (value.toNat / 2 ^ 32) (writeParam offset (value.toNat % 2 ^ 32) s)
    else setHifErr 1 s)

/-- LOW_HALF_WRITE: the low half of a 64-bit RW register is staged (R526); a read-only one discards it. -/
def execLowHalfWrite (offset : Nat) (value : BitVec 32) (s : State) : Host.Outcome State Fault Refusal :=
  .next (if barLive s && isBase offset then writeParam offset value.toNat s else s)

/-- A write to a dword of an MSI-X entry (Table 22.12). -/
def writeMsix (v i n : Nat) (s : State) : State :=
  let put := fun (f : MsixEntry → MsixEntry) => s.mapHif fun h => { h with msix := mmod h.msix v MsixEntry.init f }
  if i = 0 then put fun e => { e with addrLo := BitVec.ofNat 32 (n / 4 * 4) }
  else if i = 1 then put fun e => { e with addrHi := BitVec.ofNat 32 n }
  else if i = 2 then put fun e => { e with data := BitVec.ofNat 32 n }
  else setMask v (n % 2 = 1) s

/-- An aligned 4-byte write to BAR0, by the register's access code (Table 0.6): RW sets, W1C clears, WO acts, RO and RSV discard. -/
def writeDword (off n : Nat) (s : State) : State :=
  if off = 0x10000 then writeHifEnable (n % 2 = 1) s
  else if off = 0x10008 then s.mapHreg fun h => { h with err := h.err &&& ~~~ (BitVec.ofNat 7 n) }
  else if isParam off then writeParam off n s
  else if off = 0x10040 then
    match execEvqHeadWrite (BitVec.ofNat 32 n) s with
    | .next t => t
    | _ => s
  else if off = 0x10048 then writeTraceHead (BitVec.ofNat 32 n) s
  else if 0x20000 ≤ off ∧ off < 0x24010 then writeMsix ((off - 0x20000) / 16) (off / 4 % 4) n s
  else s

/-- A write to a doorbell page (R363). -/
def writeDoorbell (off : Nat) (value : BitVec 32) (s : State) : State :=
  let r := off / 4096
  if 1023 < r then s
  else if off % 4096 = 0 then
    match execSqTailWrite r value s with
    | .next t => t
    | _ => s
  else if off % 4096 = 4 then
    match execCqHeadWrite r value s with
    | .next t => t
    | _ => s
  else doorbell r (fun _ s => s) s

/-- REGISTER_WRITE: a write to a BAR; a size or alignment that Table 14.2 does not list, and any write to BAR4, is discarded and sets
BAD_ACCESS (R356). -/
def execRegisterWrite (bar offset len : Nat) (value : BitVec 64) (s : State) : Host.Outcome State Fault Refusal :=
  .next (
    if !barLive s then s
    else if bar = 0 then
      if len = 4 ∧ offset % 4 = 0 then writeDword offset (value.toNat % 2 ^ 32) s
      else if len = 8 ∧ offset % 8 = 0 then
        if isBase offset then writeBase64 offset value.toNat s
        else writeDword (offset + 4) (value.toNat / 2 ^ 32) (writeDword offset (value.toNat % 2 ^ 32) s)
      else setHifErr 1 s
    else if bar = 2 then
      if len = 4 ∧ offset % 4 = 0 then writeDoorbell offset (BitVec.ofNat 32 value.toNat) s else setHifErr 1 s
    else if bar = 4 then setHifErr 1 s
    else s)

/-! ## Configuration requests (R75, R353) -/

/-- What the spec fixes of a dword of configuration space: its value and the mask of the bits it fixes. The offsets are those of PCI
Express, which the spec names without repeating. -/
def configKnown (s : State) (off : Nat) : Nat × Nat :=
  let held := bitOf (fieldAt s.otp.area 0 4) 0
  if off = 0x00 then (0x51201FB7, 0xFFFFFFFF)
  else if off = 0x08 then (0x02800011, 0xFFFFFFFF)
  else if off = 0x10 then (4, 0x03FFFFFF)
  else if off = 0x18 then (4, 0x003FFFFF)
  else if off = 0x20 then (0xC, 0x00FFFFFF)
  else if off = 0x2C then ((if held then fieldAt s.otp.area 4 4 else 0x00001FB7), 0xFFFFFFFF)
  else if off = 0x3C then (0, 0x0000FF00)
  else (0, 0)

/-- What the spec fixes of the capabilities: whether extended, the capability ID, the dword in it, its value, and the mask of the bits fixed. In
order: Power Management (D1 and D2 absent, PME from D3cold only; No_Soft_Reset 1 and the power state), MSI-X (1,025 vectors, the table and the
PBA in BAR0), PCI Express (endpoint; payload of 512 bytes, Extended Tag and Function Level Reset; speeds to 32.0 GT/s and width x4;
10-bit Tag requester; 8.0, 16.0 and 32.0 GT/s), and Device Serial Number (R352, R353). SR-IOV, ATS, PRI, PASID, Resizable BAR and MSI are not among
them (R354). -/
def capabilityDwords (s : State) : List (Bool × Nat × Nat × Nat × Nat) :=
  [(false, 0x01, 0, 0x80000001, 0xFE0000FF), (false, 0x01, 1, 8 + (if s.boot.d3hot then 3 else 0), 0xB),
   (false, 0x11, 0, 1024 * 65536 + 0x11, 0x07FF00FF), (false, 0x11, 1, 0x20000, 0xFFFFFFFF), (false, 0x11, 2, 0x28000, 0xFFFFFFFF),
   (false, 0x10, 0, 0x10, 0x00F000FF), (false, 0x10, 1, 0x10000022, 0x10000027), (false, 0x10, 3, 0x45, 0x3FF),
   (false, 0x10, 9, 0x20000, 0x20000), (false, 0x10, 11, 0x38, 0x38),
   (true, 0x03, 0, 3, 0xFFFF), (true, 0x03, 1, Config.serial.toNat % 2 ^ 32, 0xFFFFFFFF), (true, 0x03, 2, Config.serial.toNat / 2 ^ 32, 0xFFFFFFFF)]

/-- What the spec fixes of a dword of configuration space: of the header, or of a capability, whose place is the device's own. -/
def configDword (s : State) (off : Nat) : Nat × Nat :=
  if off < 0x40 then configKnown s off
  else
    match (capabilityDwords s).find? fun d => decide (off = Config.capabilityAt d.1 d.2.1 + 4 * d.2.2.1) with
    | none => (0, 0)
    | some d => d.2.2.2

/-- PCIE_CONFIG_REQUEST: a read completes with Configuration Request Retry Status before FW_READY, and is served after it; the bits that
the spec does not fix are free values. -/
def execPcieConfigRequest (offset : Nat) (s : State) : Host.Outcome State Fault Refusal :=
  .next (
    if !s.boot.pcieTrain then s
    else if !s.boot.fwReady then s.mapHreg fun h => { h with readCpl := 2, readData := 0 }
    else
      let k := configDword s offset
      let free := BitVec.ofNat 32 (Config.freeNat s.free)
      let mask := BitVec.ofNat 32 k.2
      readBack ((free &&& ~~~ mask) ||| BitVec.ofNat 32 k.1).toNat s.tick)

end Sys2Proof.Machine
end

