-- ==== Sys2Proof/Machine/Start.lean ====
section
/-! DEFINITION. POR_N, PERST_N, the Bedrock domain's start, memory initialisation, FW_READY and HBM training (chapter 03). -/
namespace Sys2Proof.Machine

/-! ## POR_N and the Bedrock domain (R69, R73, R77, R558) -/

/-- POR_N_ASSERT: everything is reset, whatever the state (R47, R73). -/
def execPorNAssert (s : State) : Host.Outcome State Fault Refusal :=
  .next ((porReset s).mapBed fun b => { b with porAsserted := true, waitGroupA := s.bed.waitGroupA })

/-- POR_N_DEASSERT: the Bedrock domain starts, unless VDD_BEDROCK is missing or its return is awaited (R69, R558). -/
def execPorNDeassert (strap : Nat) (s : State) : Host.Outcome State Fault Refusal :=
  .next (
    if !s.bed.porAsserted then s
    else
      let s := s.mapBed fun b => { b with porAsserted := false }
      if railUp s 10 && !s.bed.waitGroupA then bedrockStart strap s else s)

/-- BEDROCK_CLK_CHECK: the edges of 100 us decide the domain's clock: 25 MHz within 1 % is 2,475 to 2,525 edges (R69). -/
def execBedrockClkCheck (edges : Nat) (s : State) : Host.Outcome State Fault Refusal :=
  .next (
    if !s.bed.running ∨ s.bed.clkChecked then s
    else s.mapBed fun b => { b with clkChecked := true, clkInUse := decide (2475 ≤ edges) && decide (edges ≤ 2525) })

/-- BEDROCK_CLK_LOSS: the domain returns to its oscillator and records CLOCK_FALLBACK (R69). -/
def execBedrockClkLoss (s : State) : Host.Outcome State Fault Refusal :=
  .next (if s.bed.clkInUse then logErr 0x0004 0 0 (s.mapBed fun b => { b with clkInUse := false, fallback := true }) else s)

/-- BEDROCK_UP: every sensor has a first reading, and a PERST_N deassertion that came before takes effect (R75, R77, R555). -/
def execBedrockUp (temps : List (Nat × Int)) (s : State) : Host.Outcome State Fault Refusal :=
  .next (
    if !s.bed.running ∨ !s.bed.clkChecked ∨ s.bed.bedrockUp then s
    else
      let valid := temps.filter fun t => decide (t.1 < 40)
      tryStart (s.mapBed fun b => { b with bedrockUp := true, temp := valid.foldl (fun m t => mput m t.1 t.2) b.temp }))

/-- VDD_BEDROCK_LOSS: the scope of POR_N; the domain waits for both group A rails (R558). -/
def execVddBedrockLoss (s : State) : Host.Outcome State Fault Refusal :=
  .next ((porReset s).mapBed fun b => { b with railOk := b.railOk &&& ~~~ 0x400, waitGroupA := true })

/-- VDD_BEDROCK_RETURN: the rail is back, and once both group A rails have been in range for 1 ms the domain starts by itself, or at the
deassertion of POR_N (R558). -/
def execVddBedrockReturn (strap : Nat) (s : State) : Host.Outcome State Fault Refusal :=
  .next (
    let s := s.mapBed fun b => { b with railOk := b.railOk ||| 0x400 }
    if !s.bed.waitGroupA ∨ !railUp s 11 then s
    else
      let s := s.mapBed fun b => { b with waitGroupA := false }
      if s.bed.porAsserted then s else bedrockStart strap s)

/-! ## PERST_N (R44, R73, R75, R485) -/

/-- PERST_N_ASSERT. -/
def execPerstNAssert (s : State) : Host.Outcome State Fault Refusal :=
  .next (
    let was := perstAsserted s
    let s := s.mapBed fun b => { b with perstPin := true }
    if was || !s.bed.running then s else perstEffect s)

/-- PERST_N_DEASSERT. -/
def execPerstNDeassert (s : State) : Host.Outcome State Fault Refusal :=
  .next (
    let was := perstAsserted s
    let s := s.mapBed fun b => { b with perstPin := false }
    if was && !perstAsserted s then perstRelease s else s)

/-- VDDIO_MGMT_LOSS: PERST_N is treated as asserted, and the management port's pins are unpowered (R44). -/
def execVddioMgmtLoss (s : State) : Host.Outcome State Fault Refusal :=
  .next (
    let was := perstAsserted s
    let s := s.mapBed fun b => { b with railOk := b.railOk &&& ~~~ 0x800 }
    if was || !s.bed.running then s else perstEffect s)

/-- VDDIO_MGMT_RETURN: PERST_N has its pin's level again. -/
def execVddioMgmtReturn (s : State) : Host.Outcome State Fault Refusal :=
  .next (
    let was := perstAsserted s
    let s := s.mapBed fun b => { b with railOk := b.railOk ||| 0x800 }
    if was && !perstAsserted s then perstRelease s else s)

/-- PCIE_LINK_UP: the link reaches L0 and WAKE_N is released (R487). -/
def execPcieLinkUp (s : State) : Host.Outcome State Fault Refusal :=
  .next (if s.boot.pcieTrain then s.mapBed fun b => { b with wakeN := false } else s)

/-! ## Memory initialisation (R76, R80, R489) -/

/-- What initialisation leaves in a region: zero, but for the table partition of a stack that was in self-refresh. -/
def clearedRegion (s : State) (r : Nat) (g : Region) : Region :=
  let g := { g with scrub := 0, passAt := s.now }
  if 65 ≤ r ∧ bitOf s.retn.hbmStacks (r - 65) then
    { g with
      cells := g.cells.filter fun c => decide (tableUnit s.mem.part 0 * 32 ≤ c.1)
      bad := g.bad.filter fun u => decide (tableUnit s.mem.part (r - 65) ≤ u) }
  else { g with cells := [], bad := [], mixed := false }

/-- MEMORY_INIT_DONE: the region is zero with valid check bits and INIT_DONE sets; with all four stacks, an accepted TABLE_PART applies
and cause [17] clears (R76, Table 13.8, Table 19.6). -/
def execMemoryInitDone (region' : Nat) (s : State) : Host.Outcome State Fault Refusal :=
  .next (
    if !s.boot.initRun.getLsbD region' then s
    else
      let s := modRegion region' (clearedRegion s region') s
      let s := if region' = 0 then cleanse 69 0 (2 ^ 32) (cleanse 70 0 (2 ^ 32) s) else s
      let s := s.mapBoot fun b =>
        { b with initRun := b.initRun &&& ~~~ regionBit region', initDone := b.initDone ||| regionBit region' }
      if 65 ≤ region' ∧ spillEnabled s then clearCause 9 (s.mapMem fun m => { m with part := m.partNext }) else s)

/-! ## FW_READY (R77, R79, R80, R490, R496) -/

/-- The causes that clear at FW_READY: [8], [9], [14], [16], [18], [19], and [12] after a core reset (R496). -/
def startCauses (s : State) : BitVec 12 :=
  s.health.causes &&& ~~~ (0xD43 ||| if s.bed.firstCore then (0x010 : BitVec 12) else 0)

/-- GAR_MODE held in board OTP, or OFF (R79, Table 20.6). -/
def otpGarMode (s : State) : Nat := if bitOf (fieldAt s.otp.area 0 4) 2 then byteAt s.otp.area 9 % 4 else 0

/-- The retention directory is restored: its tables that are whole, their counters at zero, the epoch number and TABLE_PART (R490). -/
def restoreTables (s : State) : State :=
  let r := s.retn
  let s := s.mapTbl fun t =>
    { t with tables := mmap (restorable r) fun _ x => { x with ctr := [], posted := [] }, epoch := r.epoch }
  if r.hbmStacks = 0 then s else s.mapMem fun m => { m with part := r.part, partNext := r.part }

/-- FW_READY: the firmware's settings start, health is evaluated, the retention directory is restored, the stacks train, and Garnet
bring-up begins. It follows the check of every retained bank, and firmware stopped by a memory error never gets there (R338). -/
def execFwReady (s : State) : Host.Outcome State Fault Refusal :=
  .next (
    if !s.boot.started ∨ s.boot.fwReady ∨ s.boot.cpFailed ∨ !s.retn.check.isEmpty then s
    else
      let s := s.mapBoot fun b => { b with fwReady := true, hbmTraining := 0xF, hbmFails := [] }
      let s := setCauses (startCauses s) s
      let s := (s.mapHealth fun h => { h with garRetr := [], calRej := [] }).mapBed fun b => { b with firstCore := false }
      let s := (restoreTables s).mapObs fun o => { o with cycles := s.now }
      let s := forEach s.retn.lost (fun b => post 0x9005 2 b 0) s
      let s := s.mapRetn fun r => { Retain.init with hbmStacks := r.hbmStacks }
      linksStart (s.mapGar fun g => { g with mode := otpGarMode s }))

/-! ## HBM training (R80, R342 to R344) -/

/-- The hard repairs confirmed for a stack are performed: logged, permanent, and off the soft list (R343). -/
def hardRepairs (m : Nat) (s : State) : State :=
  let due := s.rep.hardWait.filter fun r => decide (r.1 = m)
  let s := due.foldl (fun s r =>
    let s := logErr 0x0009 (256 * m + r.2.1) (2 ^ 24 * r.2.2.1 + r.2.2.2) s
    let s := s.mapRep fun x => { x with soft := x.soft.filter fun e => !(decide (e.1 / 512 = m) && decide (e.2 = r.2)) }
    modStack m (fun x => { x with hard := x.hard.add 1 }) (s.mapOtp fun o => { o with hard := o.hard ++ [r] })) s
  s.mapRep fun x => { x with hardWait := x.hardWait.filter fun r => decide (r.1 ≠ m) }

/-- A training attempt of a stack fails: the next starts at once, and the third leaves the region without INIT_DONE (R80). -/
def trainFailed (m : Nat) (s : State) : State :=
  let n := mget s.boot.hbmFails m 0 + 1
  let s := s.mapBoot fun b => { b with hbmFails := mput b.hbmFails m n }
  if n < 3 then s
  else
    let s := s.mapBoot fun b => { b with hbmTraining := b.hbmTraining &&& ~~~ (1 <<< m : BitVec 4) }
    setCause 9 (post 0x0004 2 (65536 + m) 0 (logErr 0x000A m 0 s))

/-- A stack has been trained: every soft repair that the Bedrock log holds of it is applied again (R342). -/
def softAgain (m : Nat) (s : State) : State :=
  modStack m (fun x => { x with inForce := (s.rep.soft.filter fun e => decide (e.1 / 512 = m)).map fun e => e.2 }) s

/-- HBM_TRAIN_ATTEMPT_END: hard repairs are performed in it; a stack that passes reports its resources, has its recorded soft repairs
applied again (R342) and is initialised. -/
def execHbmTrainAttemptEnd (stack' : Nat) (passed : Bool) (resources : Nat) (s : State) : Host.Outcome State Fault Refusal :=
  .next (
    if !s.boot.hbmTraining.getLsbD stack' then s
    else
      let s := hardRepairs stack' s
      if passed then
        let s := s.mapBoot fun b =>
          { b with hbmTraining := b.hbmTraining &&& ~~~ (1 <<< stack' : BitVec 4), initRun := b.initRun ||| regionBit (65 + stack') }
        repairCause (softAgain stack' (modStack stack' (fun x => { x with resources := resources }) s))
      else trainFailed stack' s)

end Sys2Proof.Machine
end

