-- ==== Sys2Proof/Machine/Dispatch.lean ====
section
/-! DEFINITION. One arm for each command, each a direct call of its meaning. -/
namespace Sys2Proof.Machine

/-- The effect of a command on everything but the queue. -/
def exec (i : Instr) (s : State) : Host.Outcome State Fault Refusal :=
  match i with
  | .porNAssert => Sys2Proof.Machine.execPorNAssert s
  | .porNDeassert strap => Sys2Proof.Machine.execPorNDeassert strap s
  | .bedrockClkCheck edges => Sys2Proof.Machine.execBedrockClkCheck edges s
  | .bedrockClkLoss => Sys2Proof.Machine.execBedrockClkLoss s
  | .bedrockUp temps => Sys2Proof.Machine.execBedrockUp temps s
  | .vddBedrockLoss => Sys2Proof.Machine.execVddBedrockLoss s
  | .vddBedrockReturn strap => Sys2Proof.Machine.execVddBedrockReturn strap s
  | .vddioMgmtLoss => Sys2Proof.Machine.execVddioMgmtLoss s
  | .perstNAssert => Sys2Proof.Machine.execPerstNAssert s
  | .perstNDeassert => Sys2Proof.Machine.execPerstNDeassert s
  | .memoryInitDone region => Sys2Proof.Machine.execMemoryInitDone region s
  | .fwReady => Sys2Proof.Machine.execFwReady s
  | .hbmTrainAttemptEnd stack passed resources => Sys2Proof.Machine.execHbmTrainAttemptEnd stack passed resources s
  | .brownoutWarning uv ms ps => Sys2Proof.Machine.execBrownoutWarning uv ms ps s
  | .brownoutRecovery uv core => Sys2Proof.Machine.execBrownoutRecovery uv core s
  | .brownoutReset uv => Sys2Proof.Machine.execBrownoutReset uv s
  | .groupBRailLoss rail => Sys2Proof.Machine.execGroupBRailLoss rail s
  | .coreResetRestart => Sys2Proof.Machine.execCoreResetRestart s
  | .groupCRailLoss rail => Sys2Proof.Machine.execGroupCRailLoss rail s
  | .groupCRailReturn rail => Sys2Proof.Machine.execGroupCRailReturn rail s
  | .vddioAuxValid => Sys2Proof.Machine.execVddioAuxValid s
  | .refclkLost clk => Sys2Proof.Machine.execRefclkLost clk s
  | .refclkReturn clk => Sys2Proof.Machine.execRefclkReturn clk s
  | .pllUnlock pll => Sys2Proof.Machine.execPllUnlock pll s
  | .thermtrip sensor reading => Sys2Proof.Machine.execThermtrip sensor reading s
  | .avsRequest mv => Sys2Proof.Machine.execAvsRequest mv s
  | .avsAck => Sys2Proof.Machine.execAvsAck s
  | .avsTimeout => Sys2Proof.Machine.execAvsTimeout s
  | .avsRetry => Sys2Proof.Machine.execAvsRetry s
  | .calibrationSlotStart m => Sys2Proof.Machine.execCalibrationSlotStart m s
  | .foregroundRunEnd lane meas t0 t1 own => Sys2Proof.Machine.execForegroundRunEnd lane meas t0 t1 own s
  | .calRetry lane => Sys2Proof.Machine.execCalRetry lane s
  | .trimUpdate lane reading => Sys2Proof.Machine.execTrimUpdate lane reading s
  | .rotationStepStart lane => Sys2Proof.Machine.execRotationStepStart lane s
  | .rotationShadowEnd lane runs => Sys2Proof.Machine.execRotationShadowEnd lane runs s
  | .standbyMeasurementEnd lane runs => Sys2Proof.Machine.execStandbyMeasurementEnd lane runs s
  | .noiseMeasurement lane ptot => Sys2Proof.Machine.execNoiseMeasurement lane ptot s
  | .signalPresent lane rms => Sys2Proof.Machine.execSignalPresent lane rms s
  | .ctleSearchDone lane eyes => Sys2Proof.Machine.execCtleSearchDone lane eyes s
  | .freqLock lane freq => Sys2Proof.Machine.execFreqLock lane freq s
  | .convergeDone lane m mse => Sys2Proof.Machine.execConvergeDone lane m mse s
  | .qualifyPass lane m q latency => Sys2Proof.Machine.execQualifyPass lane m q latency s
  | .qualifyWindowEnd lane => Sys2Proof.Machine.execQualifyWindowEnd lane s
  | .phaseBudgetExpiry lane rms => Sys2Proof.Machine.execPhaseBudgetExpiry lane rms s
  | .acqGapEnd lane => Sys2Proof.Machine.execAcqGapEnd lane s
  | .amplitudeLoss lane rms m => Sys2Proof.Machine.execAmplitudeLoss lane rms m s
  | .amplitudeReturn lane rms bad => Sys2Proof.Machine.execAmplitudeReturn lane rms bad s
  | .losPendingTimeout lane => Sys2Proof.Machine.execLosPendingTimeout lane s
  | .alignmentLoss lane bad missing m => Sys2Proof.Machine.execAlignmentLoss lane bad missing m s
  | .losHeldTimeout lane => Sys2Proof.Machine.execLosHeldTimeout lane s
  | .warmFreqCheck lane freq => Sys2Proof.Machine.execWarmFreqCheck lane freq s
  | .warmQualify lane m q latency => Sys2Proof.Machine.execWarmQualify lane m q latency s
  | .warmFailed lane => Sys2Proof.Machine.execWarmFailed lane s
  | .x200Fallback lane => Sys2Proof.Machine.execX200Fallback lane s
  | .x200RxAlternate lane => Sys2Proof.Machine.execX200RxAlternate lane s
  | .portAlignLock port => Sys2Proof.Machine.execPortAlignLock port s
  | .portAlignTimeout port skew => Sys2Proof.Machine.execPortAlignTimeout port skew s
  | .portAlignmentLoss port hiSer => Sys2Proof.Machine.execPortAlignmentLoss port hiSer s
  | .remoteFaultReceived port columns => Sys2Proof.Machine.execRemoteFaultReceived port columns s
  | .remoteFaultClear port => Sys2Proof.Machine.execRemoteFaultClear port s
  | .fecDegradeWindow port total corrected uncorrectable symbols errored lanes => Sys2Proof.Machine.execFecDegradeWindow port total corrected uncorrectable symbols errored lanes s
  | .frameReceive port bytes forced deskew draw tagDraw room => Sys2Proof.Machine.execFrameReceive port bytes forced deskew draw tagDraw room s
  | .schedulerChoose port => Sys2Proof.Machine.execSchedulerChoose port s
  | .queueHeadDrop queue found linkLost => Sys2Proof.Machine.execQueueHeadDrop queue found linkLost s
  | .macFrameStart port found linkLost lines => Sys2Proof.Machine.execMacFrameStart port found linkLost lines s
  | .nodeReadyAgain node => Sys2Proof.Machine.execNodeReadyAgain node s
  | .rampStep lane => Sys2Proof.Machine.execRampStep lane s
  | .txOutputRelease lane => Sys2Proof.Machine.execTxOutputRelease lane s
  | .modulePresent cage => Sys2Proof.Machine.execModulePresent cage s
  | .moduleRemoval cage => Sys2Proof.Machine.execModuleRemoval cage s
  | .prsGlitch cage => Sys2Proof.Machine.execPrsGlitch cage s
  | .cagePowerOnDone cage => Sys2Proof.Machine.execCagePowerOnDone cage s
  | .moduleLowPwrReport cage info => Sys2Proof.Machine.execModuleLowPwrReport cage info s
  | .mgmtInitTimeout cage => Sys2Proof.Machine.execMgmtInitTimeout cage s
  | .moduleReady cage => Sys2Proof.Machine.execModuleReady cage s
  | .powerUpTimeout cage => Sys2Proof.Machine.execPowerUpTimeout cage s
  | .dpActivated port => Sys2Proof.Machine.execDpActivated port s
  | .dataPathTimeout port => Sys2Proof.Machine.execDataPathTimeout port s
  | .cagePoll cage readings flags fault => Sys2Proof.Machine.execCagePoll cage readings flags fault s
  | .moduleInterrupt cage flags fault => Sys2Proof.Machine.execModuleInterrupt cage flags fault s
  | .i2cTransferComplete cage data => Sys2Proof.Machine.execI2cTransferComplete cage data s
  | .i2cTransferFail cage => Sys2Proof.Machine.execI2cTransferFail cage s
  | .pageBurstSend link pair => Sys2Proof.Machine.execPageBurstSend link pair s
  | .pageFrameReceive link pair page => Sys2Proof.Machine.execPageFrameReceive link pair page s
  | .followerStep2Timeout link pair => Sys2Proof.Machine.execFollowerStep2Timeout link pair s
  | .trainingFrameReceive link pair word rx ec m => Sys2Proof.Machine.execTrainingFrameReceive link pair word rx ec m s
  | .trainingPhaseEnd link pair rx ec m => Sys2Proof.Machine.execTrainingPhaseEnd link pair rx ec m s
  | .trainingPhaseFail link pair => Sys2Proof.Machine.execTrainingPhaseFail link pair s
  | .quietEnd link pair => Sys2Proof.Machine.execQuietEnd link pair s
  | .lpiShrinkTest link tx rx => Sys2Proof.Machine.execLpiShrinkTest link tx rx s
  | .lpiGrowTest link tx rx => Sys2Proof.Machine.execLpiGrowTest link tx rx s
  | .sleepEntry link pair => Sys2Proof.Machine.execSleepEntry link pair s
  | .refreshDue link pair => Sys2Proof.Machine.execRefreshDue link pair s
  | .preambleDetect link pair confirmed refresh => Sys2Proof.Machine.execPreambleDetect link pair confirmed refresh s
  | .falseWakeAbandon link pair => Sys2Proof.Machine.execFalseWakeAbandon link pair s
  | .startMarkerReceive link pair own => Sys2Proof.Machine.execStartMarkerReceive link pair own s
  | .wakeTimeout link pair => Sys2Proof.Machine.execWakeTimeout link pair s
  | .pairLoss link pair alignment => Sys2Proof.Machine.execPairLoss link pair alignment s
  | .snrRetrain link pair => Sys2Proof.Machine.execSnrRetrain link pair s
  | .retrainQuietEnd link pair => Sys2Proof.Machine.execRetrainQuietEnd link pair s
  | .stdPairAcquired link pair => Sys2Proof.Machine.execStdPairAcquired link pair s
  | .stdPairLost link pair => Sys2Proof.Machine.execStdPairLost link pair s
  | .flitReceive link pair flit total corrected uncorrectable hit => Sys2Proof.Machine.execFlitReceive link pair flit total corrected uncorrectable hit s
  | .reorderTimeout link => Sys2Proof.Machine.execReorderTimeout link s
  | .renakTimeout link => Sys2Proof.Machine.execRenakTimeout link s
  | .ackTimeout link => Sys2Proof.Machine.execAckTimeout link s
  | .protocolEnd link => Sys2Proof.Machine.execProtocolEnd link s
  | .packetRecordReceive link draw tagDraw room => Sys2Proof.Machine.execPacketRecordReceive link draw tagDraw room s
  | .lookupReqReceive link => Sys2Proof.Machine.execLookupReqReceive link s
  | .creditReceive link => Sys2Proof.Machine.execCreditReceive link s
  | .creditAdvertise link => Sys2Proof.Machine.execCreditAdvertise link s
  | .creditWatchdog link pool => Sys2Proof.Machine.execCreditWatchdog link pool s
  | .sleepProposeReceive link tx rx => Sys2Proof.Machine.execSleepProposeReceive link tx rx s
  | .sleepAcceptReceive link => Sys2Proof.Machine.execSleepAcceptReceive link s
  | .sleepRefuseReceive link => Sys2Proof.Machine.execSleepRefuseReceive link s
  | .sleepProposeTimeout link => Sys2Proof.Machine.execSleepProposeTimeout link s
  | .echoReqReceive link => Sys2Proof.Machine.execEchoReqReceive link s
  | .echoRespReceive link => Sys2Proof.Machine.execEchoRespReceive link s
  | .outerFrameReceive link frame => Sys2Proof.Machine.execOuterFrameReceive link frame s
  | .outerFrameClose link => Sys2Proof.Machine.execOuterFrameClose link s
  | .ingressSchedule link found linkLost => Sys2Proof.Machine.execIngressSchedule link found linkLost s
  | .spillWrite egress queue => Sys2Proof.Machine.execSpillWrite egress queue s
  | .prefetchDone egress queue cells => Sys2Proof.Machine.execPrefetchDone egress queue cells s
  | .lookupPipelineTake => Sys2Proof.Machine.execLookupPipelineTake s
  | .lookupComplete link tag found clean => Sys2Proof.Machine.execLookupComplete link tag found clean s
  | .epochSwitch found => Sys2Proof.Machine.execEpochSwitch found s
  | .storageFree => Sys2Proof.Machine.execStorageFree s
  | .scrubStep scrubber flips slip => Sys2Proof.Machine.execScrubStep scrubber flips slip s
  | .ceHourWindow => Sys2Proof.Machine.execCeHourWindow s
  | .softRepair stack channel bank row free found pages => Sys2Proof.Machine.execSoftRepair stack channel bank row free found pages s
  | .hbmChannelRetrain stack channel accepted => Sys2Proof.Machine.execHbmChannelRetrain stack channel accepted s
  | .hbmRequestEnter stack channel source bank key => Sys2Proof.Machine.execHbmRequestEnter stack channel source bank key s
  | .hbmRequestWithdraw stack channel key => Sys2Proof.Machine.execHbmRequestWithdraw stack channel key s
  | .sqTailWrite ring value => Sys2Proof.Machine.execSqTailWrite ring value s
  | .cqHeadWrite ring value => Sys2Proof.Machine.execCqHeadWrite ring value s
  | .commandFetch got => Sys2Proof.Machine.execCommandFetch got s
  | .eventDeliver => Sys2Proof.Machine.execEventDeliver s
  | .msixTimer vector => Sys2Proof.Machine.execMsixTimer vector s
  | .msixUnmask vector => Sys2Proof.Machine.execMsixUnmask vector s
  | .d3hotEnter => Sys2Proof.Machine.execD3hotEnter s
  | .d0Return => Sys2Proof.Machine.execD0Return s
  | .pcieLinkReset => Sys2Proof.Machine.execPcieLinkReset s
  | .hifEnableSet => Sys2Proof.Machine.execHifEnableSet s
  | .hifEnableClear => Sys2Proof.Machine.execHifEnableClear s
  | .hostReady => Sys2Proof.Machine.execHostReady s
  | .timedCommandDue => Sys2Proof.Machine.execTimedCommandDue s
  | .evqHeadWrite value => Sys2Proof.Machine.execEvqHeadWrite value s
  | .traceHeadWrite value => Sys2Proof.Machine.execTraceHeadWrite value s
  | .ring0ParamWrite offset len value => Sys2Proof.Machine.execRing0ParamWrite offset len value s
  | .lowHalfRead bar offset len => Sys2Proof.Machine.execLowHalfRead bar offset len s
  | .lowHalfWrite offset value => Sys2Proof.Machine.execLowHalfWrite offset value s
  | .timeCaptureRead wide => Sys2Proof.Machine.execTimeCaptureRead wide s
  | .errorLogSlotRead slot wide => Sys2Proof.Machine.execErrorLogSlotRead slot wide s
  | .bar0OffBlockAccess offset write => Sys2Proof.Machine.execBar0OffBlockAccess offset write s
  | .registerWrite bar offset len value => Sys2Proof.Machine.execRegisterWrite bar offset len value s
  | .nop id => Sys2Proof.Machine.execNop id s
  | .deviceIdentify id => Sys2Proof.Machine.execDeviceIdentify id s
  | .deviceStatus id temps => Sys2Proof.Machine.execDeviceStatus id temps s
  | .ringCreate id => Sys2Proof.Machine.execRingCreate id s
  | .ringDelete id => Sys2Proof.Machine.execRingDelete id s
  | .ringReset id => Sys2Proof.Machine.execRingReset id s
  | .ringStatus id => Sys2Proof.Machine.execRingStatus id s
  | .portCreate id => Sys2Proof.Machine.execPortCreate id s
  | .portDelete id => Sys2Proof.Machine.execPortDelete id s
  | .portSet id => Sys2Proof.Machine.execPortSet id s
  | .portStatus id => Sys2Proof.Machine.execPortStatus id s
  | .laneSet id m => Sys2Proof.Machine.execLaneSet id m s
  | .laneStatus id m => Sys2Proof.Machine.execLaneStatus id m s
  | .laneCalibrate id => Sys2Proof.Machine.execLaneCalibrate id s
  | .laneMute id => Sys2Proof.Machine.execLaneMute id s
  | .laneDiag id => Sys2Proof.Machine.execLaneDiag id s
  | .garnetSet id => Sys2Proof.Machine.execGarnetSet id s
  | .garnetRestart id => Sys2Proof.Machine.execGarnetRestart id s
  | .garnetRetrain id => Sys2Proof.Machine.execGarnetRetrain id s
  | .garnetStatus id ms => Sys2Proof.Machine.execGarnetStatus id ms s
  | .garnetTdr id m => Sys2Proof.Machine.execGarnetTdr id m s
  | .garnetDiag id counts => Sys2Proof.Machine.execGarnetDiag id counts s
  | .bufferSet id => Sys2Proof.Machine.execBufferSet id s
  | .profileSet id => Sys2Proof.Machine.execProfileSet id s
  | .wredSet id => Sys2Proof.Machine.execWredSet id s
  | .classifySet id host => Sys2Proof.Machine.execClassifySet id host s
  | .iqSet id => Sys2Proof.Machine.execIqSet id s
  | .memorySet id => Sys2Proof.Machine.execMemorySet id s
  | .bufferStatus id => Sys2Proof.Machine.execBufferStatus id s
  | .queueStatus id => Sys2Proof.Machine.execQueueStatus id s
  | .nodeCreate id => Sys2Proof.Machine.execNodeCreate id s
  | .nodeDelete id => Sys2Proof.Machine.execNodeDelete id s
  | .nodeSet id => Sys2Proof.Machine.execNodeSet id s
  | .nodeBatch id host => Sys2Proof.Machine.execNodeBatch id host s
  | .nodeStatus id => Sys2Proof.Machine.execNodeStatus id s
  | .tableCreate id => Sys2Proof.Machine.execTableCreate id s
  | .tableDelete id => Sys2Proof.Machine.execTableDelete id s
  | .tableUpdate id host places merged => Sys2Proof.Machine.execTableUpdate id host places merged s
  | .epochOpen id => Sys2Proof.Machine.execEpochOpen id s
  | .epochCommit id => Sys2Proof.Machine.execEpochCommit id s
  | .epochAbort id => Sys2Proof.Machine.execEpochAbort id s
  | .epochStatus id => Sys2Proof.Machine.execEpochStatus id s
  | .tableStatus id => Sys2Proof.Machine.execTableStatus id s
  | .tableLookup id host => Sys2Proof.Machine.execTableLookup id host s
  | .timeSet id => Sys2Proof.Machine.execTimeSet id s
  | .servoFeed id => Sys2Proof.Machine.execServoFeed id s
  | .servoSet id => Sys2Proof.Machine.execServoSet id s
  | .timeGet id => Sys2Proof.Machine.execTimeGet id s
  | .timePins id => Sys2Proof.Machine.execTimePins id s
  | .portTsSet id => Sys2Proof.Machine.execPortTsSet id s
  | .tsCaptureRead id => Sys2Proof.Machine.execTsCaptureRead id s
  | .timeStatus id => Sys2Proof.Machine.execTimeStatus id s
  | .powerState id => Sys2Proof.Machine.execPowerState id s
  | .padRelease id mods => Sys2Proof.Machine.execPadRelease id mods s
  | .healthStatus id => Sys2Proof.Machine.execHealthStatus id s
  | .memRead id found => Sys2Proof.Machine.execMemRead id found s
  | .memWrite id host found => Sys2Proof.Machine.execMemWrite id host found s
  | .guardPropose id host => Sys2Proof.Machine.execGuardPropose id host s
  | .guardAbort id => Sys2Proof.Machine.execGuardAbort id s
  | .guardStatus id => Sys2Proof.Machine.execGuardStatus id s
  | .geodeSet id => Sys2Proof.Machine.execGeodeSet id s
  | .geodeSwitchover id => Sys2Proof.Machine.execGeodeSwitchover id s
  | .geodeStatus id => Sys2Proof.Machine.execGeodeStatus id s
  | .snapshot id => Sys2Proof.Machine.execSnapshot id s
  | .snapshotSet id => Sys2Proof.Machine.execSnapshotSet id s
  | .profileSetCtr id => Sys2Proof.Machine.execProfileSetCtr id s
  | .profileRead id => Sys2Proof.Machine.execProfileRead id s
  | .bwSet id => Sys2Proof.Machine.execBwSet id s
  | .bwRead id => Sys2Proof.Machine.execBwRead id s
  | .traceSet id => Sys2Proof.Machine.execTraceSet id s
  | .traceStatus id => Sys2Proof.Machine.execTraceStatus id s
  | .cageSet id => Sys2Proof.Machine.execCageSet id s
  | .cageReset id => Sys2Proof.Machine.execCageReset id s
  | .cageRead id => Sys2Proof.Machine.execCageRead id s
  | .cageWrite id host => Sys2Proof.Machine.execCageWrite id host s
  | .cageStatus id => Sys2Proof.Machine.execCageStatus id s
  | .cageFlagClear id => Sys2Proof.Machine.execCageFlagClear id s
  | .auxdacSet id => Sys2Proof.Machine.execAuxdacSet id s
  | .auxadcSeq id => Sys2Proof.Machine.execAuxadcSeq id s
  | .auxadcTrigger id => Sys2Proof.Machine.execAuxadcTrigger id s
  | .auxStatus id cool => Sys2Proof.Machine.execAuxStatus id cool s
  | .mgmtStatusRead => Sys2Proof.Machine.execMgmtStatusRead s
  | .mgmtIdentity => Sys2Proof.Machine.execMgmtIdentity s
  | .mgmtHealth => Sys2Proof.Machine.execMgmtHealth s
  | .mgmtTemp temps => Sys2Proof.Machine.execMgmtTemp temps s
  | .mgmtGuardPending => Sys2Proof.Machine.execMgmtGuardPending s
  | .mgmtGuardValue item offset len => Sys2Proof.Machine.execMgmtGuardValue item offset len s
  | .guardConfirm item nonce digest pec => Sys2Proof.Machine.execGuardConfirm item nonce digest pec s
  | .mgmtGuardAbort item nonce pec => Sys2Proof.Machine.execMgmtGuardAbort item nonce pec s
  | .mgmtGuardResult => Sys2Proof.Machine.execMgmtGuardResult s
  | .mgmtErrorLog index => Sys2Proof.Machine.execMgmtErrorLog index s
  | .mgmtOtpRead offset len => Sys2Proof.Machine.execMgmtOtpRead offset len s
  | .mgmtWake value pec => Sys2Proof.Machine.execMgmtWake value pec s
  | .mgmtAux cool => Sys2Proof.Machine.execMgmtAux cool s
  | .alertResponse => Sys2Proof.Machine.execAlertResponse s
  | .smbClockTimeout => Sys2Proof.Machine.execSmbClockTimeout s
  | .guardWindowEnd item => Sys2Proof.Machine.execGuardWindowEnd item s
  | .otpProgramDone => Sys2Proof.Machine.execOtpProgramDone s
  | .ppsOutEdge => Sys2Proof.Machine.execPpsOutEdge s
  | .ppsOutPulseEnd pin => Sys2Proof.Machine.execPpsOutPulseEnd pin s
  | .ppsInEdge => Sys2Proof.Machine.execPpsInEdge s
  | .ppsInLost => Sys2Proof.Machine.execPpsInLost s
  | .servoFeedTimeout => Sys2Proof.Machine.execServoFeedTimeout s
  | .synceUnsquelch output => Sys2Proof.Machine.execSynceUnsquelch output s
  | .helloSend => Sys2Proof.Machine.execHelloSend s
  | .helloReceive => Sys2Proof.Machine.execHelloReceive s
  | .timeRecordSend => Sys2Proof.Machine.execTimeRecordSend s
  | .timeRecordReceive => Sys2Proof.Machine.execTimeRecordReceive s
  | .geodeRoundTrip => Sys2Proof.Machine.execGeodeRoundTrip s
  | .configReceive => Sys2Proof.Machine.execConfigReceive s
  | .epochBeginReceive => Sys2Proof.Machine.execEpochBeginReceive s
  | .epochEntryReceive places merged => Sys2Proof.Machine.execEpochEntryReceive places merged s
  | .epochEndReceive => Sys2Proof.Machine.execEpochEndReceive s
  | .handoverReceive => Sys2Proof.Machine.execHandoverReceive s
  | .darkReceive => Sys2Proof.Machine.execDarkReceive s
  | .geodeRampUpStart => Sys2Proof.Machine.execGeodeRampUpStart s
  | .takenReceive => Sys2Proof.Machine.execTakenReceive s
  | .geodeLinkLoss => Sys2Proof.Machine.execGeodeLinkLoss s
  | .linkLossTakeover => Sys2Proof.Machine.execLinkLossTakeover s
  | .quiesceDrainEnd => Sys2Proof.Machine.execQuiesceDrainEnd s
  | .retainEntry found => Sys2Proof.Machine.execRetainEntry found s
  | .wakeTimer => Sys2Proof.Machine.execWakeTimer s
  | .wakePresenceChange cage => Sys2Proof.Machine.execWakePresenceChange cage s
  | .wakePpsEdge => Sys2Proof.Machine.execWakePpsEdge s
  | .wakeGarnetActivity link => Sys2Proof.Machine.execWakeGarnetActivity link s
  | .retainedBankCheck bank found => Sys2Proof.Machine.execRetainedBankCheck bank found s
  | .hwError word => Sys2Proof.Machine.execHwError word s
  | .adcPeriodTimer => Sys2Proof.Machine.execAdcPeriodTimer s
  | .adcSequenceEnd codes => Sys2Proof.Machine.execAdcSequenceEnd codes s
  | .auxdacModeChangeEnd => Sys2Proof.Machine.execAuxdacModeChangeEnd s
  | .auxOverTemp output => Sys2Proof.Machine.execAuxOverTemp output s
  | .auxdacFaultEnd output => Sys2Proof.Machine.execAuxdacFaultEnd output s
  | .snapshotPeriod => Sys2Proof.Machine.execSnapshotPeriod s
  | .snapshotComplete => Sys2Proof.Machine.execSnapshotComplete s
  | .bwWindowEnd portNo => Sys2Proof.Machine.execBwWindowEnd portNo s
  | .traceOverflow => Sys2Proof.Machine.execTraceOverflow s
  | .vddioMgmtReturn => Sys2Proof.Machine.execVddioMgmtReturn s
  | .groupBRailReturn rail => Sys2Proof.Machine.execGroupBRailReturn rail s
  | .pcieLinkUp => Sys2Proof.Machine.execPcieLinkUp s
  | .pcieConfigRequest offset => Sys2Proof.Machine.execPcieConfigRequest offset s
  | .localFaultReceived port columns => Sys2Proof.Machine.execLocalFaultReceived port columns s
  | .stdLinkLocalFault link present => Sys2Proof.Machine.execStdLinkLocalFault link present s
  | .trainingStep2aStart link pair => Sys2Proof.Machine.execTrainingStep2aStart link pair s
  | .flitSend link pair => Sys2Proof.Machine.execFlitSend link pair s
  | .channelSlot stack channel busy => Sys2Proof.Machine.execChannelSlot stack channel busy s
  | .voltageFailWindowEnd => Sys2Proof.Machine.execVoltageFailWindowEnd s

end Sys2Proof.Machine
end

