-- ==== Sys2Proof/Machine/Step.lean ====
section
/-! DEFINITION. One step: the command at the front of the queue takes effect, and on an empty queue a nanosecond passes. -/
namespace Sys2Proof.Machine

/-- A nanosecond of the time base passes, and the hardware clock advances (R445; log 1). -/
def State.pass (s : State) : State := clockTick { s with now := s.now + 1 }

/-- The command at the front of the queue takes effect on the state with the queue's rest; an empty queue lets time pass (log 1). -/
def step (s : State) : Host.Outcome State Fault Refusal :=
  match s.pending with
  | [] => .next s.pass
  | c :: rest => exec c { s with pending := rest }

/-- The state with the command that a word spells at the front of its queue; no word spells one (log 4). -/
def State.withFetchWord (s : State) (nbits w : Nat) : State :=
  match decodeTableWord nbits w with
  | none => s
  | some c => { s with pending := c :: s.pending }

end Sys2Proof.Machine
end

