-- ==== Sys2Proof/Machine/Pins.lean ====
section
/-! DEFINITION. The signal pins: the supplies of each group, and the state of each pin in every state of the device (R41 to R48, Tables 2.8 and
2.9). The pins are no state of their own: each follows from State. -/
namespace Sys2Proof.Machine

/-- A signal pin or pair of Table 2.9, an input of its last row named by its own constructor. -/
inductive Pin where
  /-- The transmit pair of a lane. -/
  | laneTx (n : Nat)
  /-- The receive pair of a lane. -/
  | laneRx (n : Nat)
  /-- A pair of a Garnet link, or of the Geode link 128. -/
  | pair (link i : Nat)
  /-- The PCIe transmit pairs. -/
  | pcieTx
  /-- The PCIe receive pairs. -/
  | pcieRx
  /-- Cc_SCL. -/
  | cageScl (c : Nat)
  /-- Cc_SDA. -/
  | cageSda (c : Nat)
  /-- Cc_RST_N. -/
  | cageRst (c : Nat)
  /-- Cc_LPM. -/
  | cageLpm (c : Nat)
  /-- Cc_PWREN. -/
  | cagePwren (c : Nat)
  /-- Cc_PRS_N and Cc_INT_N. -/
  | cageInput (c : Nat)
  /-- SMB_SCL and SMB_SDA. -/
  | smbBus
  /-- SMB_ALERT_N. -/
  | smbAlert
  /-- THERMTRIP_N. -/
  | thermtrip
  /-- SVC_REQ_N. -/
  | svcReq
  /-- WAKE_N. -/
  | wake
  /-- CLKREQ_N. -/
  | clkreq
  /-- AVS_CLK and AVS_MDATA. -/
  | avs
  /-- PPS_OUT0 or PPS_OUT1. -/
  | ppsOut (k : Nat)
  /-- SYNCE0 or SYNCE1. -/
  | synce (k : Nat)
  /-- An AUXDAC output. -/
  | auxDac (m : Nat)
  /-- An AUXADC input. -/
  | auxAdc (m : Nat)
  /-- PPS_IN. -/
  | ppsIn
deriving DecidableEq, Repr

/-- What a pin does. -/
inductive PinState where
  /-- High-impedance, released, or with its termination off. -/
  | released
  /-- Driven low. -/
  | low
  /-- Driven high. -/
  | high
  /-- It carries its function's signal, or its receiver is terminated. -/
  | operating
deriving DecidableEq, Repr

/-- The supplies of a pin's group, by rail index (Tables 2.8 and 22.16). -/
def Pin.rails : Pin → List Nat
  | .laneTx _ | .laneRx _ => [5, 6]
  | .pair _ _ => [7]
  | .pcieTx | .pcieRx => [2]
  | .cageScl _ | .cageSda _ | .cageRst _ | .cageLpm _ | .cagePwren _ | .cageInput _ => [8]
  | .smbBus | .smbAlert | .thermtrip | .svcReq | .wake | .clkreq | .avs => [10, 11]
  | .ppsOut _ | .ppsIn => [11]
  | .synce _ => [6]
  | .auxDac _ | .auxAdc _ => [9]

/-- Nominal voltage of a rail in mV, by its index; the VDDIO rails and VDD_CORE, whose windows do not follow it, have none (Tables 3.1, 22.16). -/
def railNominal (r : Nat) : Option Nat := ([none, some 780, some 850, some 1050, some 750, some 900, some 1200, some 900, none, none, some 750][r]?).getD none

/-- A rail's monitor window in microvolts: VDD_CORE's follows the set point in force (R52, R542, Table 23.2). -/
def monitorWindow (s : State) (r : Nat) : Nat × Nat :=
  if r = 0 then (920 * boPoint s, 880000)
  else if r = 8 ∨ r = 11 then (1620000, 3780000)
  else if r = 9 then (2900000, 3700000)
  else (920 * (railNominal r).getD 0, 1080 * (railNominal r).getD 0)

/-- The monitor of a rail finds it in range (R542). -/
def monitorInRange (s : State) (r uv : Nat) : Bool := decide ((monitorWindow s r).1 ≤ uv) && decide (uv ≤ (monitorWindow s r).2)

/-- Every supply of the pin's group is there; otherwise its group is Unpowered (R44). -/
def pinPowered (s : State) (p : Pin) : Bool := p.rails.all (railUp s)

/-- The group is in the Reset column: POR_N is asserted, VDD_BEDROCK is missing or the Bedrock domain has not left its reset, or THERMTRIP_N has
asserted (R42, R44, R48). -/
def inResetColumn (s : State) : Bool := s.bed.porAsserted || !railUp s 10 || !s.bed.running

/-- A pin that the Reset column still drives: the push-pull outputs that it drives low (Table 2.9). -/
def resetState : Pin → PinState
  | .cagePwren _ => .low
  | .ppsOut _ => .low
  | _ => .released

/-- An open-drain pin, driven low or released. -/
def openDrain (asserted : Bool) : PinState := if asserted then .low else .released

/-- The divider of a SyncE output: its source lane's recovered clock to 156.25 MHz (R458). -/
def synceDivider (s : State) (n : Nat) : Nat := symbolRate (lane s n).opMode (cage s (n / 8)).c2m / 156250

/-- What a pin does in the device's own state: not configured, configured, or RETAIN, in which State holds what each group keeps (Table 2.9). -/
def runningState (s : State) : Pin → PinState
  | .laneTx n => if (lane s n).tx = .hiZ then .released else .operating
  | .laneRx n => if (lane s n).state = .off then .released else .operating
  | .pair l i => if (Sys2Proof.Machine.pair s l i).state = .off then .released else .operating
  | .pcieTx | .pcieRx => if s.boot.pcieTrain then .operating else .released
  | .cageScl c => openDrain (cage s c).sclLow
  | .cageSda c => openDrain (cage s c).sdaLow
  | .cageRst c => openDrain (cage s c).rstAsserted
  | .cageLpm c => openDrain (cage s c).lpmLow
  | .cagePwren c => if (cage s c).pwren then .high else .low
  | .cageInput _ | .ppsIn | .auxAdc _ => .released
  | .smbBus => if s.bed.bedrockUp then .operating else .released
  | .smbAlert => openDrain (decide (s.mgmt.alert ≠ 0))
  | .thermtrip => openDrain s.bed.tripped
  | .svcReq => openDrain (Sys2Proof.Machine.svcReq s)
  | .wake => openDrain s.bed.wakeN
  | .clkreq => openDrain s.bed.clkreq
  | .avs => if s.bed.bedrockUp then .operating else .released
  | .ppsOut k => if s.tim.ppsOut.getLsbD k then .high else .low
  | .synce k => if s.tim.pins.getLsbD (3 + k) && s.tim.synceOn.getLsbD k then .operating else .released
  | .auxDac m =>
    let d := mget s.dac.outs m Dac.init
    if d.mode = 2 || d.changing then .released else .operating

/-- A Bedrock pin, which the thermal trip leaves operating (R48). -/
def Pin.bedrock : Pin → Bool
  | .smbBus | .smbAlert | .thermtrip | .svcReq | .wake | .clkreq | .avs => true
  | _ => false

/-- The state of a pin (R42, R44, R48, Table 2.9). -/
def pinState (s : State) (p : Pin) : PinState :=
  if !pinPowered s p then .released
  else if if s.bed.tripped then !p.bedrock else inResetColumn s then resetState p
  else runningState s p

end Sys2Proof.Machine
end

