-- ==== Sys2Proof/WellFormed.lean ====
section
/-! DEFINITION. Which commands are well formed: every operand that names a numbered thing of the device names one that exists. A meaning is total; an
ill-formed command names nothing that the spec describes. -/
namespace Sys2Proof

/-- An operand that names a numbered thing. -/
inductive Operand where
  /-- OL0 to OL255. -/
  | lane (n : Nat)
  /-- A port number 0 to 255. -/
  | port (n : Nat)
  /-- C0 to C31. -/
  | cage (n : Nat)
  /-- GL0 to GL63, or 128 for the Geode link. -/
  | link (n : Nat)
  /-- A pair of a link. -/
  | pair (n : Nat)
  /-- A rail of Table 22.16. -/
  | rail (n : Nat)
  /-- REFCLK_OPT, REFCLK_GAR or REFCLK_PCIE. -/
  | clock (n : Nat)
  /-- A PLL of Table 22.16. -/
  | pll (n : Nat)
  /-- TS0 to TS39. -/
  | sensor (n : Nat)
  /-- M0 to M3. -/
  | stack (n : Nat)
  /-- A channel of a stack. -/
  | channel (n : Nat)
  /-- A region of Table 16.7. -/
  | region (n : Nat)
  /-- A ring pair. -/
  | ring (n : Nat)
  /-- An MSI-X vector. -/
  | vector (n : Nat)
  /-- A slot of the error log. -/
  | slot (n : Nat)
  /-- BAR0, BAR2 or BAR4. -/
  | bar (n : Nat)
  /-- MGMT_ADDR[1:0]. -/
  | strap (n : Nat)
  /-- An ingress or egress queue. -/
  | queue (n : Nat)
  /-- A scheduling node. -/
  | node (n : Nat)
  /-- A credit pool. -/
  | pool (n : Nat)
  /-- The tag of a lookup. -/
  | tag (n : Nat)
  /-- A class of Table 13.6. -/
  | cls (n : Nat)
  /-- A TSRAM bank. -/
  | bank (n : Nat)
  /-- A bank of an HBM channel. -/
  | hbmBank (n : Nat)
  /-- AUXDAC0 to AUXDAC15. -/
  | dac (n : Nat)
  /-- PPS_OUT0 and PPS_OUT1, or SYNCE0 and SYNCE1. -/
  | pin (n : Nat)
deriving DecidableEq, Repr

/-- The thing exists. -/
def Operand.wf : Operand → Bool
  | .lane n => decide (n < 256)
  | .port n => decide (n < 256)
  | .cage n => decide (n < 32)
  | .link n => decide (n < 64) || decide (n = 128)
  | .pair n => decide (n < 8)
  | .rail n => decide (n < 12)
  | .clock n => decide (n < 3)
  | .pll n => decide (n < 45)
  | .sensor n => decide (n < 40)
  | .stack n => decide (n < 4)
  | .channel n => decide (n < 32)
  | .region n => decide (n < 69)
  | .ring n => decide (n < 1024)
  | .vector n => decide (n ≤ 1024)
  | .slot n => decide (n < 256)
  | .bar n => decide (n = 0) || decide (n = 2) || decide (n = 4)
  | .strap n => decide (n < 4)
  | .queue n => decide (n < 131072)
  | .node n => decide (n < 2 ^ 32)
  | .pool n => decide (n < 8)
  | .tag n => decide (n < 2048)
  | .cls n => decide (n < 7)
  | .bank n => decide (n < 64)
  | .hbmBank n => decide (n < 256)
  | .dac n => decide (n < 16)
  | .pin n => decide (n < 2)

/-- The operands of a command that name numbered things. -/
def Instr.operands : Instr → List Operand
  | .porNAssert => []
  | .porNDeassert strap => [.strap strap]
  | .bedrockClkCheck _ => []
  | .bedrockClkLoss => []
  | .bedrockUp _ => []
  | .vddBedrockLoss => []
  | .vddBedrockReturn strap => [.strap strap]
  | .vddioMgmtLoss => []
  | .perstNAssert => []
  | .perstNDeassert => []
  | .memoryInitDone region => [.region region]
  | .fwReady => []
  | .hbmTrainAttemptEnd stack _ _ => [.stack stack]
  | .brownoutWarning _ _ _ => []
  | .brownoutRecovery _ _ => []
  | .brownoutReset _ => []
  | .groupBRailLoss rail => [.rail rail]
  | .coreResetRestart => []
  | .groupCRailLoss rail => [.rail rail]
  | .groupCRailReturn rail => [.rail rail]
  | .vddioAuxValid => []
  | .refclkLost clk => [.clock clk]
  | .refclkReturn clk => [.clock clk]
  | .pllUnlock pll => [.pll pll]
  | .thermtrip sensor _ => [.sensor sensor]
  | .avsRequest _ => []
  | .avsAck => []
  | .avsTimeout => []
  | .avsRetry => []
  | .calibrationSlotStart _ => []
  | .foregroundRunEnd lane _ _ _ _ => [.lane lane]
  | .calRetry lane => [.lane lane]
  | .trimUpdate lane _ => [.lane lane]
  | .rotationStepStart lane => [.lane lane]
  | .rotationShadowEnd lane _ => [.lane lane]
  | .standbyMeasurementEnd lane _ => [.lane lane]
  | .noiseMeasurement lane _ => [.lane lane]
  | .signalPresent lane _ => [.lane lane]
  | .ctleSearchDone lane _ => [.lane lane]
  | .freqLock lane _ => [.lane lane]
  | .convergeDone lane _ _ => [.lane lane]
  | .qualifyPass lane _ _ _ => [.lane lane]
  | .qualifyWindowEnd lane => [.lane lane]
  | .phaseBudgetExpiry lane _ => [.lane lane]
  | .acqGapEnd lane => [.lane lane]
  | .amplitudeLoss lane _ _ => [.lane lane]
  | .amplitudeReturn lane _ _ => [.lane lane]
  | .losPendingTimeout lane => [.lane lane]
  | .alignmentLoss lane _ _ _ => [.lane lane]
  | .losHeldTimeout lane => [.lane lane]
  | .warmFreqCheck lane _ => [.lane lane]
  | .warmQualify lane _ _ _ => [.lane lane]
  | .warmFailed lane => [.lane lane]
  | .x200Fallback lane => [.lane lane]
  | .x200RxAlternate lane => [.lane lane]
  | .portAlignLock port => [.port port]
  | .portAlignTimeout port _ => [.port port]
  | .portAlignmentLoss port _ => [.port port]
  | .remoteFaultReceived port _ => [.port port]
  | .remoteFaultClear port => [.port port]
  | .fecDegradeWindow port _ _ _ _ _ _ => [.port port]
  | .frameReceive port _ _ _ _ _ _ => [.port port]
  | .schedulerChoose port => [.port port]
  | .queueHeadDrop queue _ _ => [.queue queue]
  | .macFrameStart port _ _ _ => [.port port]
  | .nodeReadyAgain node => [.node node]
  | .rampStep lane => [.lane lane]
  | .txOutputRelease lane => [.lane lane]
  | .modulePresent cage => [.cage cage]
  | .moduleRemoval cage => [.cage cage]
  | .prsGlitch cage => [.cage cage]
  | .cagePowerOnDone cage => [.cage cage]
  | .moduleLowPwrReport cage _ => [.cage cage]
  | .mgmtInitTimeout cage => [.cage cage]
  | .moduleReady cage => [.cage cage]
  | .powerUpTimeout cage => [.cage cage]
  | .dpActivated port => [.port port]
  | .dataPathTimeout port => [.port port]
  | .cagePoll cage _ _ _ => [.cage cage]
  | .moduleInterrupt cage _ _ => [.cage cage]
  | .i2cTransferComplete cage _ => [.cage cage]
  | .i2cTransferFail cage => [.cage cage]
  | .pageBurstSend link pair => [.link link, .pair pair]
  | .pageFrameReceive link pair _ => [.link link, .pair pair]
  | .followerStep2Timeout link pair => [.link link, .pair pair]
  | .trainingFrameReceive link pair _ _ _ _ => [.link link, .pair pair]
  | .trainingPhaseEnd link pair _ _ _ => [.link link, .pair pair]
  | .trainingPhaseFail link pair => [.link link, .pair pair]
  | .quietEnd link pair => [.link link, .pair pair]
  | .lpiShrinkTest link _ _ => [.link link]
  | .lpiGrowTest link _ _ => [.link link]
  | .sleepEntry link pair => [.link link, .pair pair]
  | .refreshDue link pair => [.link link, .pair pair]
  | .preambleDetect link pair _ _ => [.link link, .pair pair]
  | .falseWakeAbandon link pair => [.link link, .pair pair]
  | .startMarkerReceive link pair _ => [.link link, .pair pair]
  | .wakeTimeout link pair => [.link link, .pair pair]
  | .pairLoss link pair _ => [.link link, .pair pair]
  | .snrRetrain link pair => [.link link, .pair pair]
  | .retrainQuietEnd link pair => [.link link, .pair pair]
  | .stdPairAcquired link pair => [.link link, .pair pair]
  | .stdPairLost link pair => [.link link, .pair pair]
  | .flitReceive link pair _ _ _ _ _ => [.link link, .pair pair]
  | .reorderTimeout link => [.link link]
  | .renakTimeout link => [.link link]
  | .ackTimeout link => [.link link]
  | .protocolEnd link => [.link link]
  | .packetRecordReceive link _ _ _ => [.link link]
  | .lookupReqReceive link => [.link link]
  | .creditReceive link => [.link link]
  | .creditAdvertise link => [.link link]
  | .creditWatchdog link pool => [.link link, .pool pool]
  | .sleepProposeReceive link _ _ => [.link link]
  | .sleepAcceptReceive link => [.link link]
  | .sleepRefuseReceive link => [.link link]
  | .sleepProposeTimeout link => [.link link]
  | .echoReqReceive link => [.link link]
  | .echoRespReceive link => [.link link]
  | .outerFrameReceive link _ => [.link link]
  | .outerFrameClose link => [.link link]
  | .ingressSchedule link _ _ => [.link link]
  | .spillWrite _ queue => [.queue queue]
  | .prefetchDone _ queue _ => [.queue queue]
  | .lookupPipelineTake => []
  | .lookupComplete link tag _ _ => [.link link, .tag tag]
  | .epochSwitch _ => []
  | .storageFree => []
  | .scrubStep _ _ _ => []
  | .ceHourWindow => []
  | .softRepair stack channel bank _ _ _ _ => [.stack stack, .channel channel, .hbmBank bank]
  | .hbmChannelRetrain stack channel _ => [.stack stack, .channel channel]
  | .hbmRequestEnter stack channel _ bank _ => [.stack stack, .channel channel, .hbmBank bank]
  | .hbmRequestWithdraw stack channel _ => [.stack stack, .channel channel]
  | .sqTailWrite ring _ => [.ring ring]
  | .cqHeadWrite ring _ => [.ring ring]
  | .commandFetch _ => []
  | .eventDeliver => []
  | .msixTimer vector => [.vector vector]
  | .msixUnmask vector => [.vector vector]
  | .d3hotEnter => []
  | .d0Return => []
  | .pcieLinkReset => []
  | .hifEnableSet => []
  | .hifEnableClear => []
  | .hostReady => []
  | .timedCommandDue => []
  | .evqHeadWrite _ => []
  | .traceHeadWrite _ => []
  | .ring0ParamWrite _ _ _ => []
  | .lowHalfRead bar _ _ => [.bar bar]
  | .lowHalfWrite _ _ => []
  | .timeCaptureRead _ => []
  | .errorLogSlotRead slot _ => [.slot slot]
  | .bar0OffBlockAccess _ _ => []
  | .registerWrite bar _ _ _ => [.bar bar]
  | .nop _ => []
  | .deviceIdentify _ => []
  | .deviceStatus _ _ => []
  | .ringCreate _ => []
  | .ringDelete _ => []
  | .ringReset _ => []
  | .ringStatus _ => []
  | .portCreate _ => []
  | .portDelete _ => []
  | .portSet _ => []
  | .portStatus _ => []
  | .laneSet _ _ => []
  | .laneStatus _ _ => []
  | .laneCalibrate _ => []
  | .laneMute _ => []
  | .laneDiag _ => []
  | .garnetSet _ => []
  | .garnetRestart _ => []
  | .garnetRetrain _ => []
  | .garnetStatus _ _ => []
  | .garnetTdr _ _ => []
  | .garnetDiag _ _ => []
  | .bufferSet _ => []
  | .profileSet _ => []
  | .wredSet _ => []
  | .classifySet _ _ => []
  | .iqSet _ => []
  | .memorySet _ => []
  | .bufferStatus _ => []
  | .queueStatus _ => []
  | .nodeCreate _ => []
  | .nodeDelete _ => []
  | .nodeSet _ => []
  | .nodeBatch _ _ => []
  | .nodeStatus _ => []
  | .tableCreate _ => []
  | .tableDelete _ => []
  | .tableUpdate _ _ _ _ => []
  | .epochOpen _ => []
  | .epochCommit _ => []
  | .epochAbort _ => []
  | .epochStatus _ => []
  | .tableStatus _ => []
  | .tableLookup _ _ => []
  | .timeSet _ => []
  | .servoFeed _ => []
  | .servoSet _ => []
  | .timeGet _ => []
  | .timePins _ => []
  | .portTsSet _ => []
  | .tsCaptureRead _ => []
  | .timeStatus _ => []
  | .powerState _ => []
  | .padRelease _ _ => []
  | .healthStatus _ => []
  | .memRead _ _ => []
  | .memWrite _ _ _ => []
  | .guardPropose _ _ => []
  | .guardAbort _ => []
  | .guardStatus _ => []
  | .geodeSet _ => []
  | .geodeSwitchover _ => []
  | .geodeStatus _ => []
  | .snapshot _ => []
  | .snapshotSet _ => []
  | .profileSetCtr _ => []
  | .profileRead _ => []
  | .bwSet _ => []
  | .bwRead _ => []
  | .traceSet _ => []
  | .traceStatus _ => []
  | .cageSet _ => []
  | .cageReset _ => []
  | .cageRead _ => []
  | .cageWrite _ _ => []
  | .cageStatus _ => []
  | .cageFlagClear _ => []
  | .auxdacSet _ => []
  | .auxadcSeq _ => []
  | .auxadcTrigger _ => []
  | .auxStatus _ _ => []
  | .mgmtStatusRead => []
  | .mgmtIdentity => []
  | .mgmtHealth => []
  | .mgmtTemp _ => []
  | .mgmtGuardPending => []
  | .mgmtGuardValue _ _ _ => []
  | .guardConfirm _ _ _ _ => []
  | .mgmtGuardAbort _ _ _ => []
  | .mgmtGuardResult => []
  | .mgmtErrorLog _ => []
  | .mgmtOtpRead _ _ => []
  | .mgmtWake _ _ => []
  | .mgmtAux _ => []
  | .alertResponse => []
  | .smbClockTimeout => []
  | .guardWindowEnd _ => []
  | .otpProgramDone => []
  | .ppsOutEdge => []
  | .ppsOutPulseEnd pin => [.pin pin]
  | .ppsInEdge => []
  | .ppsInLost => []
  | .servoFeedTimeout => []
  | .synceUnsquelch output => [.pin output]
  | .helloSend => []
  | .helloReceive => []
  | .timeRecordSend => []
  | .timeRecordReceive => []
  | .geodeRoundTrip => []
  | .configReceive => []
  | .epochBeginReceive => []
  | .epochEntryReceive _ _ => []
  | .epochEndReceive => []
  | .handoverReceive => []
  | .darkReceive => []
  | .geodeRampUpStart => []
  | .takenReceive => []
  | .geodeLinkLoss => []
  | .linkLossTakeover => []
  | .quiesceDrainEnd => []
  | .retainEntry _ => []
  | .wakeTimer => []
  | .wakePresenceChange cage => [.cage cage]
  | .wakePpsEdge => []
  | .wakeGarnetActivity link => [.link link]
  | .retainedBankCheck bank _ => [.bank bank]
  | .hwError _ => []
  | .adcPeriodTimer => []
  | .adcSequenceEnd _ => []
  | .auxdacModeChangeEnd => []
  | .auxOverTemp output => [.dac output]
  | .auxdacFaultEnd output => [.dac output]
  | .snapshotPeriod => []
  | .snapshotComplete => []
  | .bwWindowEnd portNo => [.port portNo]
  | .traceOverflow => []
  | .vddioMgmtReturn => []
  | .groupBRailReturn rail => [.rail rail]
  | .pcieLinkUp => []
  | .pcieConfigRequest _ => []
  | .localFaultReceived port _ => [.port port]
  | .stdLinkLocalFault link _ => [.link link]
  | .trainingStep2aStart link pair => [.link link, .pair pair]
  | .flitSend link pair => [.link link, .pair pair]
  | .channelSlot stack channel _ => [.stack stack, .channel channel]
  | .voltageFailWindowEnd => []

/-- Every operand names a thing that exists. -/
def Instr.wf (i : Instr) : Bool := i.operands.all Operand.wf

end Sys2Proof
end

