-- ==== Sys2Proof/Safety.lean ====
section
/-! DEFINITION. What holds of the device in every state that it reaches, in the terms that statements use. -/
namespace Sys2Proof.Machine

/-- The command answers a next state, of which `P` holds. -/
def Runs (i : Instr) (s : State) (P : State → Prop) : Prop := ∃ t, exec i s = .next t ∧ P t

/-- The command in flight `id` is `c`, has this opcode, may begin, and its clock runs if it is a timed command (R369, R446). -/
def Begins (s : State) (id op : Nat) (c : Cmd) : Prop := mayBegin s id op = some c ∧ (c.flag 0 && !s.tim.running) = false

/-- The command begins, has this effect, and completes SUCCESS, LATE_EXECUTED when it is late, with these results. -/
def Does (i : Instr) (id : Nat) (c : Cmd) (s : State) (r0 r1 : BitVec 64) (effect : State → State) : Prop :=
  exec i s = .next (finish id .success r0 r1 true (effect (beginCmd id c s)))

/-- A set point that the device may choose: 620 to 800 mV in steps of 5 mV (R59). -/
def setPointOk (mv : Nat) : Prop := 620 ≤ mv ∧ mv ≤ 800 ∧ mv % 5 = 0

/-- Board OTP and every memory region hold their bytes in the canonical form. -/
def memoriesOk (s : State) : Prop := Memory.wf s.otp.bytes = true ∧ ∀ r, r ∈ s.mem.regions → Memory.wf r.2.cells = true

/-- The invariant of the device: memories in canonical form, NANOSECONDS below 10^9 (R445), the set points of AVSBus within their range
(R59), and a management address of Table 20.1. -/
structure Inv (s : State) : Prop where
  /-- The memories. -/
  memories : memoriesOk s
  /-- The clock. -/
  clock : s.tim.ns < 1000000000
  /-- The acknowledged set point. -/
  setPoint : setPointOk s.bed.avsSet
  /-- The requested set point. -/
  requested : setPointOk s.bed.avsReq
  /-- The set point before the last acknowledged one. -/
  previous : setPointOk s.bed.avsPrev
  /-- The request to be tried again. -/
  retry : ∀ mv, s.bed.avsRetry = some mv → setPointOk mv
  /-- The management port's address. -/
  address : 0x64 ≤ s.mgmt.addr ∧ s.mgmt.addr ≤ 0x67

/-- Every lane but `n` is as before. -/
def LanesBut (n : Nat) (s t : State) : Prop := ∀ k, k ≠ n → mfind t.lanes.tab k = mfind s.lanes.tab k

/-- Every port but `p` is as before. -/
def PortsBut (p : Nat) (s t : State) : Prop := ∀ k, k ≠ p → mfind t.ports.tab k = mfind s.ports.tab k

/-- Every cage but `n` is as before. -/
def CagesBut (n : Nat) (s t : State) : Prop := ∀ k, k ≠ n → mfind t.cages.tab k = mfind s.cages.tab k

/-- Every link but `n` is as before, the Geode link apart, which carries the mirror's records. -/
def LinksBut (n : Nat) (s t : State) : Prop := ∀ k, k ≠ n → k ≠ geodeLink → mfind t.gar.links k = mfind s.gar.links k

/-- Every pair but pair `i` of link `n` is as before, and so are the other links. -/
def PairsBut (n i : Nat) (s t : State) : Prop :=
  LinksBut n s t ∧ ∀ j, j ≠ i → mfind (link t n).pairs j = mfind (link s n).pairs j

end Sys2Proof.Machine
end

