-- ==== Sys2Proof/Certificates/Slice0/Obligations.lean ====
section
/-! DEFINITION. The statements for the provers. A clause `Runs i s P` says that the command answers a next state of which P holds. -/
open Sys2Proof Sys2Proof.Machine

/-- For every command c, queue rest and state s, a step of s with c at the front of its queue is exec of c on s with the queue's rest. Every
command answers a next state on every state: none stops. -/
def Obligations.StepRunsTheFront : Prop :=
  (∀ (c : Instr) (rest : List Instr) (s : State), step { s with pending := c :: rest } = exec c { s with pending := rest }) ∧
  (∀ (c : Instr) (s : State), ∃ t, exec c s = .next t)

/-- On an empty queue a step answers the state whose time base is one nanosecond later, and while the hardware clock does not run nothing else
changes. That an empty queue stands for time is the model's own choice (log entry 1). -/
def Obligations.IdleStepLetsTimePass : Prop :=
  ∀ s : State, s.pending = [] →
    (∃ t, step s = .next t ∧ t.now = s.now + 1 ∧ t.pending = []) ∧
    (s.tim.running = false → step s = .next { s with now := s.now + 1 })

/-- POR_N_ASSERT always completes: it clears the lanes, tables, guard, health, error log, repair lists, retention directory and the hold of the
cage group, and keeps board OTP when nothing is being programmed. VDD_BEDROCK_LOSS clears the same and waits for both group A rails.
POR_N_DEASSERT with VDD_BEDROCK in range, and VDD_BEDROCK_RETURN with VDDIO_MGMT in range and POR_N deasserted after a loss, start the
domain: the straps choose the management address, the error log begins, and the device area of board OTP is read. -/
def Obligations.PorAndBedrockSupplyRows : Prop :=
  (∀ s : State, Runs .porNAssert s fun t =>
    t.bed.porAsserted = true ∧ t.bed.running = false ∧ t.bed.cageHeld = false ∧ t.lanes = LaneBank.init ∧ t.tbl = Tables.init ∧ t.guard = Guard.init ∧
      t.health = Health.init ∧ t.elog = Elog.init ∧ t.rep = Repair.init ∧ t.retn = Retain.init ∧ t.bed.geoRole = 0 ∧
      t.otp.hard = s.otp.hard ∧ (s.guard.otpProg = [] → t.otp = s.otp)) ∧
  (∀ s : State, Runs .vddBedrockLoss s fun t =>
    railUp t 10 = false ∧ t.bed.waitGroupA = true ∧ t.bed.running = false ∧ t.lanes = LaneBank.init ∧ t.guard = Guard.init ∧
      t.health = Health.init ∧ t.elog = Elog.init ∧ t.rep = Repair.init ∧ t.retn = Retain.init ∧ t.bed.geoRole = 0 ∧
      (s.guard.otpProg = [] → t.otp = s.otp)) ∧
  (∀ (strap : Nat) (s : State), s.bed.porAsserted = true → railUp s 10 = true → s.bed.waitGroupA = false →
    Runs (.porNDeassert strap) s fun t =>
      t.bed.porAsserted = false ∧ t.bed.running = true ∧ t.bed.clkInUse = false ∧ t.mgmt.addr = 0x64 + strap % 4 ∧ t.elog.epoch = s.now ∧
        t.otp.area = Memory.getBytes s.otp.bytes 0 256 ∧ t.otp.bytes = s.otp.bytes) ∧
  (∀ (strap : Nat) (s : State), s.bed.waitGroupA = true → railUp s 11 = true → s.bed.porAsserted = false →
    Runs (.vddBedrockReturn strap) s fun t =>
      railUp t 10 = true ∧ t.bed.running = true ∧ t.bed.waitGroupA = false ∧ t.mgmt.addr = 0x64 + strap % 4 ∧ t.elog.epoch = s.now ∧
        t.otp.area = Memory.getBytes s.otp.bytes 0 256)

/-- The edge count of a running domain selects BEDROCK_CLK exactly when it lies within 1 % of 25 MHz, 2,475 to 2,525 edges in 100 us. The loss
of BEDROCK_CLK in use returns to the oscillator, sets FALLBACK and adds one error-log entry. BEDROCK_UP sets after the count, with the first
readings of the sensors, and a device whose PERST_N is deasserted and whose rails and clock are good starts then. -/
def Obligations.BedrockClockRows : Prop :=
  (∀ (edges : Nat) (s : State), s.bed.running = true → s.bed.clkChecked = false →
    exec (.bedrockClkCheck edges) s =
      .next (s.mapBed fun b => { b with clkChecked := true, clkInUse := decide (2475 ≤ edges ∧ edges ≤ 2525) })) ∧
  (∀ s : State, s.bed.clkInUse = true → Runs .bedrockClkLoss s fun t =>
    t.bed.clkInUse = false ∧ t.bed.fallback = true ∧ t.elog.total = s.elog.total + 1 ∧
      (mget t.elog.slots (s.elog.total % 256) ErrEntry.init).code = 4) ∧
  (∀ (temps : List (Nat × Int)) (s : State), s.bed.running = true → s.bed.clkChecked = true → s.bed.bedrockUp = false →
    Runs (.bedrockUp temps) s fun t =>
      t.bed.bedrockUp = true ∧
        (s.bed.perstPin = false → (∀ r, r < 12 → railUp s r = true) → s.bed.refOk = 7 → s.bed.tripped = false → s.bed.coreReset = false →
          s.retn.inRetain = false → t.boot.started = true))

/-- An assertion of PERST_N, or a loss of VDDIO_MGMT while PERST_N is deasserted, outside RETAIN clears everything outside the Bedrock domain
and the guarded items that it restores, ends every pending proposal, and keeps the error log, board OTP, the auxiliary DACs, the repair
lists, the Geode role and the AVSBus set point. A deassertion of PERST_N, or the return of VDDIO_MGMT, of a device that is ready to start
starts it, with CLKREQ_N asserted and memory initialisation running. When the PCIe link reaches L0, WAKE_N is released. -/
def Obligations.PerstAndMgmtSupplyRows : Prop :=
  (∀ s : State, s.bed.running = true → s.bed.perstPin = false → railUp s 11 = true → s.retn.inRetain = false → s.retn.waking = false →
    Runs .perstNAssert s fun t =>
      t.bed.perstPin = true ∧ t.boot = Boot.init ∧ t.lanes = LaneBank.init ∧ t.ports = PortBank.init ∧ t.gar = Garnet.init ∧ t.buf = Buffer.init ∧
        t.sched = Sched.init ∧ t.tbl = Tables.init ∧ t.tim = Tim.init ∧ t.hif = Hif.init ∧ t.fl = Flight.init ∧ t.guard.props = [] ∧
        t.guard.dmaRestrict = false ∧ t.guard.windows = [] ∧ t.guard.masks = [] ∧ t.guard.bar4 = false ∧ t.guard.debug = false ∧
        t.elog = s.elog ∧ t.otp = s.otp ∧ t.dac = s.dac ∧ t.rep = s.rep ∧ t.bed.geoRole = s.bed.geoRole ∧ t.bed.avsSet = s.bed.avsSet) ∧
  (∀ s : State, s.bed.running = true → s.bed.perstPin = false → railUp s 11 = true → s.retn.inRetain = false → s.retn.waking = false →
    Runs .vddioMgmtLoss s fun t =>
      railUp t 11 = false ∧ perstAsserted t = true ∧ t.boot = Boot.init ∧ t.lanes = LaneBank.init ∧ t.tbl = Tables.init ∧ t.guard.props = [] ∧
        t.elog = s.elog ∧ t.otp = s.otp) ∧
  (∀ s : State, s.bed.perstPin = true → (∀ r, r < 12 → railUp s r = true) → s.bed.bedrockUp = true → s.bed.tripped = false →
    s.bed.coreReset = false → s.bed.refOk = 7 → s.boot.started = false → s.boot.state = .active →
    Runs .perstNDeassert s fun t =>
      t.bed.perstPin = false ∧ t.boot.started = true ∧ t.boot.pcieTrain = true ∧ t.bed.clkreq = true ∧ t.boot.initRun.getLsbD 0 = true) ∧
  (∀ s : State, s.bed.perstPin = false → (∀ r, r < 11 → railUp s r = true) → railUp s 11 = false → s.bed.bedrockUp = true → s.bed.tripped = false →
    s.bed.coreReset = false → s.bed.refOk = 7 → s.boot.started = false → s.boot.state = .active →
    Runs .vddioMgmtReturn s fun t => railUp t 11 = true ∧ t.boot.started = true) ∧
  (∀ s : State, s.boot.pcieTrain = true → exec .pcieLinkUp s = .next (s.mapBed fun b => { b with wakeN := false }))

/-- The initialisation of a region that runs ends with its INIT_DONE set and every byte of it zero, but for a stack that was in self-refresh.
FW_READY of a started device, its retained banks checked and its control processors without a memory failure, sets the flag, starts the
training of all four stacks, takes GAR_MODE from board OTP, continues the epoch number of the retention directory, and starts the cycle
counter. A training attempt that passes takes the stack's repair resources and starts its initialisation; one that fails starts the next
until the third, which ends training without INIT_DONE. -/
def Obligations.MemoryStartRows : Prop :=
  (∀ (r : Nat) (s : State), s.boot.initRun.getLsbD r = true → s.retn.hbmStacks = 0 →
    Runs (.memoryInitDone r) s fun t =>
      t.boot.initDone.getLsbD r = true ∧ t.boot.initRun.getLsbD r = false ∧ (region t r).cells = [] ∧ (region t r).bad = []) ∧
  (∀ s : State, s.boot.started = true → s.boot.fwReady = false → s.boot.cpFailed = false → s.retn.check = [] → Runs .fwReady s fun t =>
    t.boot.fwReady = true ∧ t.boot.hbmTraining = 0xF ∧ t.gar.mode = otpGarMode s ∧ t.tbl.epoch = s.retn.epoch ∧ t.obs.cycles = s.now) ∧
  (∀ (m n : Nat) (s : State), m < 4 → s.boot.hbmTraining.getLsbD m = true → Runs (.hbmTrainAttemptEnd m true n) s fun t =>
    t.boot.hbmTraining.getLsbD m = false ∧ t.boot.initRun.getLsbD (65 + m) = true ∧ (stack t m).resources = n) ∧
  (∀ (m n : Nat) (s : State), m < 4 → s.boot.hbmTraining.getLsbD m = true → mget s.boot.hbmFails m 0 < 2 → Runs (.hbmTrainAttemptEnd m false n) s fun t =>
    t.boot.hbmTraining = s.boot.hbmTraining ∧ mget t.boot.hbmFails m 0 = mget s.boot.hbmFails m 0 + 1) ∧
  (∀ (m n : Nat) (s : State), m < 4 → s.boot.hbmTraining.getLsbD m = true → mget s.boot.hbmFails m 0 = 2 → Runs (.hbmTrainAttemptEnd m false n) s fun t =>
    t.boot.hbmTraining.getLsbD m = false ∧ t.boot.initDone = s.boot.initDone ∧ t.health.causes.getLsbD 9 = true)

/-- With VDD_CORE watched and below 0.96 of the set point in force, a warning starts an episode that abandons no packet, queue, port or table.
The recovery, with VDD_CORE above 0.97 of the set point in force, ends the episode with the lowest voltage kept. Below 0.92 of the set point
the core is reset, with entry 0x0001 in the error log that holds the lowest voltage in steps of 5 mV, and the restart is awaited. The set
point in force is the lower of the previous and the requested one while a request is outstanding. -/
def Obligations.BrownoutRows : Prop :=
  (∀ (uv : Nat) (s : State), coreWatched s = true → s.bed.boActive = false → s.bed.avsPending = false → s.bed.avsAckAt = none →
    uv < 960 * s.bed.avsSet → ∀ ms ps, Runs (.brownoutWarning uv ms ps) s fun t =>
      t.bed.boActive = true ∧ t.bed.boLowUv = uv ∧ t.bed.boStart = s.now ∧ t.buf = s.buf ∧ t.ports = s.ports ∧ t.tbl = s.tbl ∧ t.sched = s.sched) ∧
  (∀ (uv core : Nat) (s : State), s.bed.boActive = true → 970 * boPoint s < core → Runs (.brownoutRecovery uv core) s fun t =>
    t.bed.boActive = false ∧ t.bed.boLowUv = min s.bed.boLowUv uv ∧ t.lanes = s.lanes ∧ t.buf = s.buf ∧ t.tbl = s.tbl) ∧
  (∀ (uv : Nat) (s : State), coreWatched s = true → s.bed.coreReset = false → s.bed.boActive = false → s.bed.avsPending = false →
    s.bed.avsAckAt = none → uv < 920 * s.bed.avsSet → Runs (.brownoutReset uv) s fun t =>
      t.bed.coreReset = true ∧ t.boot = Boot.init ∧ t.lanes = LaneBank.init ∧ t.tbl = Tables.init ∧ t.fl = Flight.init ∧
        t.elog.total = s.elog.total + 1 ∧ (mget t.elog.slots (s.elog.total % 256) ErrEntry.init).code = 1 ∧
        (mget t.elog.slots (s.elog.total % 256) ErrEntry.init).detail = BitVec.ofNat 32 (uv / 5000 * 5)) ∧
  (∀ s : State, s.bed.avsPending = true → boPoint s = min s.bed.avsSet s.bed.avsReq)

/-- Outside RETAIN the loss of a group B rail resets the core with entry 0x0002 and the rail's index; in RETAIN the loss of VDD_SRAM or an HBM
rail only marks what it retained as lost. The return of the last group B rail starts a device that waited for it, and the restart row ends a
core reset. The loss of a group C rail adds entry 0x0002 with its index and stops what it feeds: with VDDIO_AUX every auxiliary DAC becomes
high-impedance with code 0. Its return starts it: VDDIO_AUX valid applies the power-up settings of board OTP. -/
def Obligations.RailRows : Prop :=
  (∀ (r : Nat) (s : State), r < 5 → railUp s r = true → s.bed.running = true → s.bed.tripped = false → s.bed.coreReset = false →
    s.retn.inRetain = false → s.retn.waking = false → Runs (.groupBRailLoss r) s fun t =>
      railUp t r = false ∧ t.bed.coreReset = true ∧ t.boot = Boot.init ∧ t.lanes = LaneBank.init ∧ t.tbl = Tables.init ∧ t.fl = Flight.init ∧
        t.elog.total = s.elog.total + 1 ∧ (mget t.elog.slots (s.elog.total % 256) ErrEntry.init).code = 2 ∧
        (mget t.elog.slots (s.elog.total % 256) ErrEntry.init).subject = BitVec.ofNat 16 r) ∧
  (∀ (r : Nat) (s : State), r < 5 → railUp s r = true → s.bed.running = true → s.bed.tripped = false → s.bed.coreReset = false →
    s.retn.inRetain = true → Runs (.groupBRailLoss r) s fun t =>
      railUp t r = false ∧ t.retn.inRetain = true ∧ t.elog = s.elog ∧ t.retn.sramLost = (s.retn.sramLost || decide (r = 1)) ∧
        t.retn.hbmLost = (s.retn.hbmLost || decide (r = 3 ∨ r = 4))) ∧
  (∀ (r : Nat) (s : State), r < 5 → (∀ q, q < 5 → q ≠ r → railUp s q = true) → railUp s 11 = true → s.bed.perstPin = false → s.bed.bedrockUp = true →
    s.bed.tripped = false → s.bed.coreReset = false → s.bed.refOk = 7 → s.retn.inRetain = false → s.boot.started = false →
    Runs (.groupBRailReturn r) s fun t => railUp t r = true ∧ t.boot.started = true) ∧
  (∀ s : State, s.bed.coreReset = true → (∀ r, r < 12 → railUp s r = true) → s.bed.refOk = 7 → s.bed.perstPin = false → s.bed.bedrockUp = true →
    s.bed.tripped = false → s.retn.inRetain = false → s.boot.started = false → Runs .coreResetRestart s fun t =>
      t.bed.coreReset = false ∧ t.boot.started = true) ∧
  (∀ s : State, railUp s 9 = true → s.bed.running = true → s.bed.bedrockUp = true → s.bed.tripped = false → s.retn.inRetain = false → s.retn.waking = false →
    Runs (.groupCRailLoss 9) s fun t =>
      railUp t 9 = false ∧ t.dac = DacBank.init ∧ t.bed.auxValid = false ∧ t.adc.run = 0 ∧ t.elog.total = s.elog.total + 1 ∧
        (mget t.elog.slots (s.elog.total % 256) ErrEntry.init).code = 2 ∧ (mget t.elog.slots (s.elog.total % 256) ErrEntry.init).subject = 9) ∧
  (∀ (r : Nat) (s : State), 5 ≤ r → r ≤ 9 → railUp s r = true → s.bed.running = true → Runs (.groupCRailLoss r) s fun t => railUp t r = false) ∧
  (∀ s : State, railUp s 9 = false → s.bed.bedrockUp = true → s.bed.auxValid = false → s.bed.tripped = false →
    Runs (.groupCRailReturn 9) s fun t =>
      railUp t 9 = true ∧ t.bed.auxValid = true ∧ ∀ m, m < 16 → (dacOut t m).code = BitVec.ofNat 12 (dacOtp s m).1 ∧ (dacOut t m).mode = (dacOtp s m).2) ∧
  (∀ s : State, railUp s 9 = true → s.bed.bedrockUp = true → s.bed.auxValid = false → s.bed.tripped = false →
    Runs .vddioAuxValid s fun t =>
      t.bed.auxValid = true ∧ ∀ m, m < 16 → (dacOut t m).code = BitVec.ofNat 12 (dacOtp s m).1 ∧ (dacOut t m).mode = (dacOtp s m).2)

/-- The loss of REFCLK_OPT resets the core with entry 0x0003; the loss of REFCLK_PCIE adds the entry, ends PCIe training and resets the host
interface while ports and tables stay; the return of REFCLK_PCIE starts training again. A PLL that unlocks adds entry 0x0005 with its index,
and its block starts again: that of the traffic manager or of the control processors clears the lanes and tables, the time PLL's stops the
clock, the PCIe PLL's resets the host interface. With VDD_BEDROCK in range a sensor without a fault that reads 125 degC or more trips the
device: entry 0x0006 holds the sensor, everything but the Bedrock domain is in reset, the auxiliary DACs are high-impedance and retained
contents are lost. -/
def Obligations.ClockAndTripRows : Prop :=
  (∀ s : State, s.bed.refOk.getLsbD 0 = true → s.bed.running = true → s.bed.tripped = false → s.bed.coreReset = false → s.retn.inRetain = false →
    s.retn.waking = false → Runs (.refclkLost 0) s fun t =>
      t.bed.refOk.getLsbD 0 = false ∧ t.bed.coreReset = true ∧ t.boot = Boot.init ∧ t.lanes = LaneBank.init ∧ t.tbl = Tables.init ∧
        t.elog.total = s.elog.total + 1 ∧ (mget t.elog.slots (s.elog.total % 256) ErrEntry.init).code = 3) ∧
  (∀ s : State, s.bed.refOk.getLsbD 2 = true → s.bed.running = true → s.bed.tripped = false → s.retn.inRetain = false → s.retn.waking = false →
    Runs (.refclkLost 2) s fun t =>
      t.bed.refOk.getLsbD 2 = false ∧ t.boot.pcieTrain = false ∧ t.hif = Hif.init ∧ t.hreg.hifEnable = false ∧ t.ports = s.ports ∧ t.tbl = s.tbl ∧
        t.elog.total = s.elog.total + 1) ∧
  (∀ s : State, s.bed.refOk.getLsbD 2 = false → s.boot.started = true → Runs (.refclkReturn 2) s fun t =>
    t.bed.refOk.getLsbD 2 = true ∧ t.boot.pcieTrain = true) ∧
  (∀ (p : Nat) (s : State), 37 ≤ p → p ≤ 44 → pllLocked s p = true → Runs (.pllUnlock p) s fun t =>
      (p = 43 → t.tim.running = false) ∧ (p = 44 → t.hif = Hif.init ∧ t.hreg.hifEnable = false) ∧ (p < 39 → t.lanes = LaneBank.init ∧ t.tbl = Tables.init) ∧
    t.elog.total = s.elog.total + 1 ∧ (mget t.elog.slots (s.elog.total % 256) ErrEntry.init).code = 5 ∧
      (mget t.elog.slots (s.elog.total % 256) ErrEntry.init).subject = BitVec.ofNat 16 p) ∧
  (∀ (k : Nat) (x : Int) (s : State), k < 40 → 2000 ≤ x → s.bed.porAsserted = false → railUp s 10 = true → s.bed.tripped = false → s.bed.tempFault.contains k = false →
    Runs (.thermtrip k x) s fun t =>
      t.bed.tripped = true ∧ t.bed.cageHeld = false ∧ t.boot = Boot.init ∧ t.lanes = LaneBank.init ∧ t.cages = CageBank.init ∧ t.tbl = Tables.init ∧
        t.dac = DacBank.init ∧ t.retn = Retain.init ∧ t.elog.total = s.elog.total + 1 ∧
        (mget t.elog.slots (s.elog.total % 256) ErrEntry.init).code = 6 ∧
        (mget t.elog.slots (s.elog.total % 256) ErrEntry.init).subject = BitVec.ofNat 16 k)

/-- From a free bus a request of a multiple of 5 mV within 10 mV of the set point, towards the one that the fused target and the temperature ask
for, becomes outstanding with no failed attempt, addressed by the rail select of board OTP. An acknowledgement makes it the set point. A
failed attempt repeats the request; the third ends the series at the previous set point, adds one error-log entry 0x000D that holds both set
points, and leaves the request to be tried again; the retry issues the same request. -/
def Obligations.AvsRequestSeries : Prop :=
  (∀ (mv : Nat) (s : State), avsFree s = true → s.bed.avsRetry = none → mv % 5 = 0 →
    (s.bed.avsSet < mv ∧ mv ≤ s.bed.avsSet + 10 ∧ mv ≤ avsWanted s) ∨ (mv < s.bed.avsSet ∧ s.bed.avsSet ≤ mv + 10 ∧ avsWanted s ≤ mv) →
    Runs (.avsRequest mv) s fun t =>
      t.bed.avsSel = avsSelect s ∧ t.bed.avsPending = true ∧ t.bed.avsReq = mv ∧ t.bed.avsFails = 0 ∧ t.bed.avsSet = s.bed.avsSet) ∧
  (∀ s : State, s.bed.avsPending = true → railUp s 11 = true → Runs .avsAck s fun t =>
    t.bed.avsPending = false ∧ t.bed.avsSet = s.bed.avsReq ∧ t.bed.avsPrev = s.bed.avsSet ∧ t.bed.avsFails = 0) ∧
  (∀ s : State, s.bed.avsPending = true → s.bed.avsFails < 2 →
    exec .avsTimeout s = .next (s.mapBed fun b => { b with avsFails := b.avsFails + 1 })) ∧
  (∀ s : State, s.bed.avsPending = true → s.bed.avsFails = 2 → Runs .avsTimeout s fun t =>
    t.bed.avsPending = false ∧ t.bed.avsSet = s.bed.avsSet ∧ t.bed.avsReq = s.bed.avsSet ∧ t.bed.avsRetry = some s.bed.avsReq ∧
      t.elog.total = s.elog.total + 1 ∧ (mget t.elog.slots (s.elog.total % 256) ErrEntry.init).code = 0x000D ∧
      (mget t.elog.slots (s.elog.total % 256) ErrEntry.init).detail = BitVec.ofNat 32 (65536 * s.bed.avsReq + s.bed.avsSet)) ∧
  (∀ (mv : Nat) (s : State), s.bed.avsRetry = some mv → s.boot.fwReady = true → s.bed.avsPending = false → s.bed.boActive = false →
    Runs .avsRetry s fun t => t.bed.avsPending = true ∧ t.bed.avsReq = mv ∧ t.bed.avsRetry = none ∧ t.bed.avsSet = s.bed.avsSet)

/-- While the port answers, that is from BEDROCK_UP with VDDIO_MGMT in range, STATUS returns its word and clears the alert causes, IDENTITY the
fixed identity, HEALTH the health word, GUARD_PENDING twelve bytes for each item, GUARD_RESULT one byte, ERROR_LOG the slot asked for, TEMP
and AUX their blocks, and an Alert Response read the port's address in bits [7:1] while SMB_ALERT_N is asserted. Nothing but the reply (and
what is named) changes. Each acknowledged read ends with the PEC of its bytes. A port that does not answer, an error-log index of 256 or
more, an Alert Response read without an alert, and a clock timeout return nothing and change nothing. Bit 0 of the Alert Response byte is a
free value (the model's choice, log 9). -/
def Obligations.MgmtReadTransactions : Prop :=
  (∀ s : State, portLive s = true → exec .mgmtStatusRead s =
    .next ((answer [0x00] false (leBytes 2 (statusWord s)) s).mapMgmt fun m => { m with alert := 0 })) ∧
  (∀ s : State, portLive s = true → exec .mgmtIdentity s =
    .next (answer [0x01] true ([0x20, 0x51, 0x11, 0x03, 0x00, 0x00, 0x01, 0x00] ++ leBytes 8 Config.serial.toNat) s)) ∧
  (∀ s : State, portLive s = true → exec .mgmtHealth s =
    .next (answer [0x02] true (leBytes 4 (healthWord s)) s)) ∧
  (∀ s : State, portLive s = true → Runs .mgmtGuardPending s fun t =>
    t.mgmt.ack = true ∧ t.mgmt.reply.length = 72 ∧ t.mgmt.alert = s.mgmt.alert ∧ t.guard = s.guard ∧
      (∀ item, 1 ≤ item → item ≤ 6 → mfind s.guard.props item = none → slice t.mgmt.reply (12 * (item - 1)) 12 = zeros 12) ∧
      (∀ item p, 1 ≤ item → item ≤ 6 → mfind s.guard.props item = some p →
        slice t.mgmt.reply (12 * (item - 1)) 8 = leBytes 4 p.nonce.toNat ++ leBytes 4 p.digest.toNat)) ∧
  (∀ s : State, portLive s = true → exec .mgmtGuardResult s =
    .next (answer [0x14] false [s.guard.result] s)) ∧
  (∀ (index : Nat) (s : State), portLive s = true → index < 256 → exec (.mgmtErrorLog index) s =
    .next (answer ([0x20, 2] ++ leBytes 2 index) true (mget s.elog.slots index ErrEntry.init).bytes s)) ∧
  (∀ (temps : List (Nat × Option Int)) (s : State), portLive s = true → Runs (.mgmtTemp temps) s fun t =>
    t.mgmt.ack = true ∧ t.mgmt.reply = tempBlock t ∧ t.mgmt.alert = s.mgmt.alert ∧ t.elog = s.elog ∧ t.otp = s.otp ∧ t.guard = s.guard) ∧
  (∀ (cool : List Nat) (s : State), portLive s = true → Runs (.mgmtAux cool) s fun t =>
    t.mgmt.ack = true ∧ t.mgmt.reply = (auxBlock t).take 64 ∧ t.mgmt.alert = s.mgmt.alert ∧ t.elog = s.elog ∧ t.guard = s.guard) ∧
  (∀ s : State, portLive s = true → s.mgmt.alert ≠ 0 → Runs .alertResponse s fun t =>
    t.mgmt.ack = true ∧ t.mgmt.alert = s.mgmt.alert ∧
      ∃ b : Byte, t.mgmt.reply = [b] ∧ b >>> 1 = (BitVec.ofNat 8 (2 * s.mgmt.addr)) >>> 1) ∧
  (∀ s : State, exec .smbClockTimeout s = .next (s.mapMgmt fun m => { m with ack := false, reply := [], pec := none })) ∧
  (∀ (i : Instr) (s : State), portLive s = false →
    i ∈ [Instr.mgmtStatusRead, .mgmtIdentity, .mgmtHealth, .mgmtGuardPending, .mgmtGuardResult, .alertResponse] →
    exec i s = .next (s.mapMgmt fun m => { m with ack := false, reply := [], pec := none })) ∧
  (∀ (index : Nat) (s : State), 256 ≤ index → exec (.mgmtErrorLog index) s = .next (s.mapMgmt fun m => { m with ack := false, reply := [], pec := none }))

/-- A range read of 1 to 240 bytes that lies within the proposed value, or within board OTP, returns exactly its bytes, which no transaction
changes. MGMT_WAKE with the value 1 and a correct PEC is acknowledged, and in RETAIN wakes the device when the management source is armed;
unarmed it changes nothing. A write with a wrong PEC, and a range of no byte or of more than 240 bytes, is NACKed and changes nothing. -/
def Obligations.MgmtRangesAndWake : Prop :=
  (∀ (item off len : Nat) (p : Proposal) (s : State), portLive s = true → 1 ≤ item → item ≤ 6 → mfind s.guard.props item = some p → 1 ≤ len → len ≤ 240 →
    off + len ≤ p.value.length → off ≤ 65535 → exec (.mgmtGuardValue item off len) s =
      .next (answer ([0x11, 4, BitVec.ofNat 8 item] ++ leBytes 2 off ++ leBytes 1 len) true ((p.value.drop off).take len) s)) ∧
  (∀ (off len : Nat) (s : State), portLive s = true → 1 ≤ len → len ≤ 240 → off + len ≤ 65536 → exec (.mgmtOtpRead off len) s =
      .next (answer ([0x30, 3] ++ leBytes 2 off ++ leBytes 1 len) true (Memory.getBytes s.otp.bytes off len) s)) ∧
  (∀ s : State, portLive s = true → s.retn.inRetain = true → bitOf s.retn.sources 0 = true → Runs (.mgmtWake 1 (some (pecOf [addrByte s false, 0x40, 1]))) s fun t =>
    t.mgmt.ack = true ∧ t.retn.inRetain = false ∧ t.bed.wakeN = true ∧ t.bed.wakeSource = 1 ∧ t.elog.total = s.elog.total + 1) ∧
  (∀ s : State, portLive s = true → bitOf s.retn.sources 0 = false → exec (.mgmtWake 1 (some (pecOf [addrByte s false, 0x40, 1]))) s =
    .next (s.mapMgmt fun m => { m with ack := true, reply := [], pec := none })) ∧
  (∀ (item : Nat) (nonce digest : BitVec 32) (pec : Option Byte) (s : State), pec ≠ some (pecOf (addrByte s false :: confirmSent item nonce digest)) →
    exec (.guardConfirm item nonce digest pec) s = .next (s.mapMgmt fun m => { m with ack := false, reply := [], pec := none })) ∧
  (∀ (item : Nat) (nonce : BitVec 32) (pec : Option Byte) (s : State), pec ≠ some (pecOf (addrByte s false :: abortSent item nonce)) →
    exec (.mgmtGuardAbort item nonce pec) s = .next (s.mapMgmt fun m => { m with ack := false, reply := [], pec := none })) ∧
  (∀ (v : Nat) (pec : Option Byte) (s : State), pec ≠ some (pecOf [addrByte s false, 0x40, BitVec.ofNat 8 v]) →
    exec (.mgmtWake v pec) s = .next (s.mapMgmt fun m => { m with ack := false, reply := [], pec := none })) ∧
  (∀ (item off len : Nat) (s : State), len = 0 ∨ 240 < len →
    exec (.mgmtGuardValue item off len) s = .next (s.mapMgmt fun m => { m with ack := false, reply := [], pec := none }) ∧
    exec (.mgmtOtpRead off len) s = .next (s.mapMgmt fun m => { m with ack := false, reply := [], pec := none }))

/-- GUARD_PROPOSE of a boolean item with a legal value and no proposal pending for the item is held with its nonce and its value, whose digest
is the value's CRC-32C, sets alert cause [8], and changes no guarded item in force; the command stays in flight. A second proposal for the
item completes BUSY. GUARD_ABORT with the proposal's nonce, an abort by the BMC with it, and the end of the window remove the proposal with
no guarded item changed. GUARD_STATUS returns the word of the guard and has no other effect. -/
def Obligations.GuardProposals : Prop :=
  (∀ (id : Nat) (h : HostRead) (c : Cmd) (s : State), Begins s id 0xB0 c → c.target = 2 ∨ c.target = 6 → proposeBad c = false →
    mfind s.guard.props c.target = none → Runs (.guardPropose id h) s fun t =>
      (∃ p, mfind t.guard.props c.target = some p ∧ p.nonce = BitVec.ofNat 32 (c.inl 36 4) ∧ p.value = slice c.entry 40 8 ∧
        p.digest = crc32c p.value ∧ p.rejects = 0 ∧ p.since = s.now ∧ p.cmd = id) ∧
      t.mgmt.alert = s.mgmt.alert ||| 1 ∧ t.guard = { s.guard with props := t.guard.props } ∧ (mfind t.fl.cmds id).isSome = true ∧
      t.hostLog = s.hostLog) ∧
  (∀ (id : Nat) (h : HostRead) (c : Cmd) (s : State), Begins s id 0xB0 c → c.target = 2 ∨ c.target = 6 → proposeBad c = false →
    (mfind s.guard.props c.target).isSome = true → exec (.guardPropose id h) s = .next (finishFail id .busy (beginCmd id c s))) ∧
  (∀ (id : Nat) (c : Cmd) (p : Proposal) (s : State), Begins s id 0xB1 c → c.target ≠ 0 → plainBad c 6 8 = false → c.inlZero 32 4 = true →
    c.inl 36 4 ≠ 0 → mfind s.guard.props c.target = some p → p.nonce.toNat = c.inl 36 4 →
    Does (.guardAbort id) id c s 0 0 (endProposal c.target .aborted)) ∧
  (∀ (id : Nat) (c : Cmd) (s : State), Begins s id 0xB2 c → plainBad c 0 0 = false →
    Does (.guardStatus id) id c s (BitVec.ofNat 64 (guardWord s)) 0 (fun x => x)) ∧
  (∀ (item : Nat) (nonce : BitVec 32) (p : Proposal) (s : State), item < 256 → portLive s = true → mfind s.guard.props item = some p → p.nonce = nonce →
    Runs (.mgmtGuardAbort item nonce (some (pecOf (addrByte s false :: abortSent item nonce)))) s fun t =>
      mfind t.guard.props item = none ∧ t.guard.result = 0 ∧ t.mgmt.alert = s.mgmt.alert ||| 2 ∧ t.mgmt.ack = true ∧
        t.guard = { s.guard with props := t.guard.props, result := 0 }) ∧
  (∀ (item : Nat) (p : Proposal) (s : State), mfind s.guard.props item = some p → Runs (.guardWindowEnd item) s fun t =>
    mfind t.guard.props item = none ∧ t.guard = { s.guard with props := t.guard.props } ∧ t.mgmt.alert = s.mgmt.alert ||| 2)

/-- A confirmation with the nonce and the digest of the pending proposal applies exactly its item: BAR4 access or debug access takes the
proposed value, and access permissions take theirs and count one generation. A confirmation without a proposal answers 1, with another nonce
2, with another digest 3, in the failed state 5, and none of them changes an item in force; the third rejection of a proposal answers 4 and
ends it. OTP_PROGRAM_DONE sets the bits of the confirmed data in board OTP and clears none. Beside them, a proposal is taken, and its abort
from either side and the end of its window remove it: each of these answers a next state, as GUARD_STATUS does. -/
def Obligations.GuardConfirmation : Prop :=
  (∀ (item : Nat) (nonce digest : BitVec 32) (p : Proposal) (s : State), item < 256 → portLive s = true → healthState s ≠ 3 → mfind s.guard.props item = some p →
    p.nonce = nonce → p.digest = digest → item = 2 ∨ item = 6 → Runs (.guardConfirm item nonce digest (some (pecOf (addrByte s false :: confirmSent item nonce digest)))) s fun t =>
      mfind t.guard.props item = none ∧ t.guard.result = 0 ∧ t.mgmt.alert = s.mgmt.alert ||| 2 ∧ t.mgmt.ack = true ∧
        t.guard.bar4 = (if item = 2 then decide (byteAt p.value 0 = 1) else s.guard.bar4) ∧
        t.guard.debug = (if item = 6 then decide (byteAt p.value 0 = 1) else s.guard.debug) ∧
        t.guard.dmaRestrict = s.guard.dmaRestrict ∧ t.guard.windows = s.guard.windows ∧ t.guard.masks = s.guard.masks ∧
        t.guard.permGen = s.guard.permGen) ∧
  (∀ (nonce digest : BitVec 32) (p : Proposal) (s : State), portLive s = true → healthState s ≠ 3 → mfind s.guard.props 1 = some p →
    p.nonce = nonce → p.digest = digest → Runs (.guardConfirm 1 nonce digest (some (pecOf (addrByte s false :: confirmSent 1 nonce digest)))) s fun t =>
      mfind t.guard.props 1 = none ∧ t.guard.result = 0 ∧ t.guard.permGen = s.guard.permGen + 1 ∧
        t.guard.dmaRestrict = decide (byteAt p.value 0 = 1) ∧ t.guard.bar4 = s.guard.bar4 ∧ t.guard.debug = s.guard.debug) ∧
  (∀ (item : Nat) (nonce digest : BitVec 32) (s : State), item < 256 → portLive s = true → healthState s = 3 →
    exec (.guardConfirm item nonce digest (some (pecOf (addrByte s false :: confirmSent item nonce digest)))) s =
      .next ((s.mapGuard fun g => { g with result := 5 }).mapMgmt fun m => { m with ack := true, reply := [], pec := none })) ∧
  (∀ (item : Nat) (nonce digest : BitVec 32) (s : State), item < 256 → portLive s = true → healthState s ≠ 3 → mfind s.guard.props item = none →
    exec (.guardConfirm item nonce digest (some (pecOf (addrByte s false :: confirmSent item nonce digest)))) s =
      .next ((s.mapGuard fun g => { g with result := 1 }).mapMgmt fun m => { m with ack := true, reply := [], pec := none })) ∧
  (∀ (item : Nat) (nonce digest : BitVec 32) (p : Proposal) (s : State), item < 256 → portLive s = true → healthState s ≠ 3 → mfind s.guard.props item = some p →
    p.rejects < 2 → p.nonce ≠ nonce ∨ p.digest ≠ digest → Runs (.guardConfirm item nonce digest (some (pecOf (addrByte s false :: confirmSent item nonce digest)))) s fun t =>
      t.guard.result = (if p.nonce ≠ nonce then 2 else 3) ∧ mfind t.guard.props item = some { p with rejects := p.rejects + 1 } ∧
        t.guard = { s.guard with props := t.guard.props, result := t.guard.result }) ∧
  (∀ (item : Nat) (nonce digest : BitVec 32) (p : Proposal) (s : State), item < 256 → portLive s = true → healthState s ≠ 3 → mfind s.guard.props item = some p →
    2 ≤ p.rejects → p.nonce ≠ nonce ∨ p.digest ≠ digest → Runs (.guardConfirm item nonce digest (some (pecOf (addrByte s false :: confirmSent item nonce digest)))) s fun t =>
      t.guard.result = 4 ∧ mfind t.guard.props item = none ∧ t.guard = { s.guard with props := t.guard.props, result := 4 }) ∧
  (∀ (off : Nat) (data : List Byte) (w : Option Nat) (r : List (Nat × List Byte × Option Nat)) (s : State), s.guard.otpProg = (off, data, w) :: r →
    Memory.wf s.otp.bytes = true → Runs .otpProgramDone s fun t =>
      t.guard.otpProg = r ∧ (∀ a, a < off ∨ off + data.length ≤ a → Memory.get t.otp.bytes a = Memory.get s.otp.bytes a) ∧
      (∀ i, i < data.length → Memory.get t.otp.bytes (off + i) = Memory.get s.otp.bytes (off + i) ||| (data[i]?).getD 0)) ∧
  (∀ (id : Nat) (h : HostRead) (c : Cmd) (s : State), Begins s id 0xB0 c → c.target = 2 ∨ c.target = 6 → proposeBad c = false →
    mfind s.guard.props c.target = none → ∃ t, exec (.guardPropose id h) s = .next t ∧ (mfind t.guard.props c.target).isSome = true) ∧
  (∀ (id : Nat) (c : Cmd) (p : Proposal) (s : State), Begins s id 0xB1 c → c.target ≠ 0 → plainBad c 6 8 = false → c.inlZero 32 4 = true →
    c.inl 36 4 ≠ 0 → mfind s.guard.props c.target = some p → p.nonce.toNat = c.inl 36 4 →
    ∃ t, exec (.guardAbort id) s = .next t ∧ mfind t.guard.props c.target = none) ∧
  (∀ (id : Nat) (c : Cmd) (s : State), Begins s id 0xB2 c → plainBad c 0 0 = false → ∃ t, exec (.guardStatus id) s = .next t ∧ t.guard = s.guard) ∧
  (∀ (item : Nat) (nonce : BitVec 32) (p : Proposal) (s : State), item < 256 → portLive s = true → mfind s.guard.props item = some p →
    p.nonce = nonce → ∃ t, exec (.mgmtGuardAbort item nonce (some (pecOf (addrByte s false :: abortSent item nonce)))) s = .next t ∧
      mfind t.guard.props item = none) ∧
  (∀ (item : Nat) (p : Proposal) (s : State), mfind s.guard.props item = some p →
    ∃ t, exec (.guardWindowEnd item) s = .next t ∧ mfind t.guard.props item = none)

/-- A NOP that begins with TARGET 0 and no field completes SUCCESS, and nothing of the device changes: not the Bedrock domain, guard, error log,
health, cages, lanes, ports, links, buffer, scheduler, tables, memories, or clock. -/
def Obligations.NopHasNoEffect : Prop :=
  ∀ (id : Nat) (c : Cmd) (s : State), Begins s id 0x00 c → c.target = 0 → noFields c = true →
    exec (.nop id) s = .next (finish id .success 0 0 false (beginCmd id c s)) ∧
    Runs (.nop id) s fun t =>
      t.bed = s.bed ∧ t.guard = s.guard ∧ t.elog = s.elog ∧ t.health = s.health ∧ t.otp = s.otp ∧ t.cages = s.cages ∧ t.lanes = s.lanes ∧
        t.ports = s.ports ∧ t.buf = s.buf ∧ t.sched = s.sched ∧ t.tbl = s.tbl ∧ t.mem = s.mem ∧ t.tim = s.tim ∧ t.boot = s.boot ∧ t.retn = s.retn ∧
        t.dac = s.dac ∧ t.adc = s.adc ∧ t.rep = s.rep ∧ ∀ n, n ≠ 128 → mfind t.gar.links n = mfind s.gar.links n

/-- The end of a command in flight removes it. In D0, with its ring present and within the DMA windows and no event asked for and no message
due, exactly one write reaches host memory: the 32 bytes of the entry at the ring's tail, with the ring's phase, which flips when the tail
wraps. A command whose host-interface reset has come writes nothing. No end of any command changes the Bedrock domain, the guard, the error
log, health, lanes, cages, ports, buffer, scheduler, tables, memories or the clock. A check that fails ends the command with that status and
has no other effect. -/
def Obligations.CompletionEntry : Prop :=
  (∀ (id : Nat) (st : Status) (r0 r1 : BitVec 64) (eff : Bool) (c : Cmd) (g : Ring) (s : State), mfind s.fl.cmds id = some c → c.dead = false →
    mfind s.hif.rings c.ring = some g → s.boot.d3hot = false → c.flag 4 = false → g.cfg.intCount = 0 → mirrored c.opcode = false →
    dmaAllowed s (g.cfg.cqBase.toNat + 32 * g.cqTail) 32 = true →
    ∃ t, t = finishOne id st r0 r1 eff s ∧ mfind t.fl.cmds id = none ∧
      t.hostLog = s.hostLog ++ [(g.cfg.cqBase.toNat + 32 * g.cqTail,
        leBytes 2 (fieldAt c.entry 2 2) ++ leBytes 2 (if st = .success ∧ c.late then Status.lateExecuted else st).code ++ leBytes 2 c.ring ++
          leBytes 2 g.sqHead ++ leBytes 8 r0.toNat ++ leBytes 8 r1.toNat ++
          leBytes 4 (if eff then clockNs s else 0xFFFFFFFF : BitVec 32).toNat ++ zeros 3 ++ [if g.phase then 1 else 0])] ∧
      ∃ g', mfind t.hif.rings c.ring = some g' ∧ g'.cqTail = (g.cqTail + 1) % 2 ^ g.cfg.cqDepth ∧ g'.sqHead = g.sqHead ∧
        g'.phase = if g.cqTail + 1 = 2 ^ g.cfg.cqDepth then !g.phase else g.phase) ∧
  (∀ (id : Nat) (st : Status) (r0 r1 : BitVec 64) (eff : Bool) (c : Cmd) (s : State), mfind s.fl.cmds id = some c → c.dead = true →
    mirrored c.opcode = false → (finishOne id st r0 r1 eff s).hostLog = s.hostLog ∧ mfind (finishOne id st r0 r1 eff s).fl.cmds id = none) ∧
  (∀ (id : Nat) (st : Status) (r0 r1 : BitVec 64) (eff : Bool) (s : State), ∃ t, t = finish id st r0 r1 eff s ∧
    t.bed = s.bed ∧ t.guard = s.guard ∧ t.elog = s.elog ∧ t.health = s.health ∧ t.otp = s.otp ∧ t.mgmt = s.mgmt ∧ t.cages = s.cages ∧
      t.lanes = s.lanes ∧ t.ports = s.ports ∧ t.buf = s.buf ∧ t.sched = s.sched ∧ t.tbl = s.tbl ∧ t.mem = s.mem ∧ t.tim = s.tim ∧ t.boot = s.boot ∧
      t.retn = s.retn ∧ t.now = s.now ∧ t.pending = s.pending) ∧
  (∀ (id op : Nat) (pre : Cmd → State → Option Status) (body : Cmd → State → Ran) (c : Cmd) (st : Status) (s : State),
    mayBegin s id op = some c → pre (c.begun s) (beginCmd id c s) = some st → runCmd id op pre body s = finishFail id st (beginCmd id c s))

/-- With HOST_READY, SQ_TAIL and CQ_HEAD of a ring pair that is not in ERROR take the value written while it is within range; SQ_TAIL at or
beyond the depth puts the pair in ERROR with SQ_RANGE; a pair that does not exist sets DOORBELL_UNUSED only. EVQ_HEAD and TRACE_HEAD take a
value within range, and an EVQ_HEAD out of range sets EVQ_RANGE only. Before HOST_READY a doorbell is discarded. -/
def Obligations.DoorbellRows : Prop :=
  (∀ (r : Nat) (v : BitVec 32) (g : Ring) (s : State), s.hif.hostReady = true → mfind s.hif.rings r = some g → g.error = none →
    v.toNat < 2 ^ g.cfg.sqDepth →
    exec (.sqTailWrite r v) s = .next (s.mapHif fun h => { h with rings := mput h.rings r { g with sqTail := v.toNat } })) ∧
  (∀ (r : Nat) (v : BitVec 32) (g : Ring) (s : State), s.hif.hostReady = true → mfind s.hif.rings r = some g → g.error = none →
    2 ^ g.cfg.sqDepth ≤ v.toNat → Runs (.sqTailWrite r v) s fun t =>
      ∃ g', mfind t.hif.rings r = some g' ∧ g'.error = some 0 ∧ g'.sqTail = g.sqTail ∧ g'.sqHead = g.sqHead) ∧
  (∀ (r : Nat) (v : BitVec 32) (g : Ring) (s : State), s.hif.hostReady = true → mfind s.hif.rings r = some g → g.error = none →
    v.toNat < 2 ^ g.cfg.cqDepth → (v.toNat + 2 ^ g.cfg.cqDepth - g.cqHead) % 2 ^ g.cfg.cqDepth ≤ g.used →
    exec (.cqHeadWrite r v) s = .next (s.mapHif fun h => { h with rings := mput h.rings r { g with cqHead := v.toNat } })) ∧
  (∀ (r : Nat) (v : BitVec 32) (s : State), s.hif.hostReady = true → mfind s.hif.rings r = none → 1 ≤ r → r < 1024 →
    exec (.sqTailWrite r v) s = .next (s.mapHreg fun h => { h with err := h.err ||| 4 }) ∧
    exec (.cqHeadWrite r v) s = .next (s.mapHreg fun h => { h with err := h.err ||| 4 })) ∧
  (∀ (r : Nat) (v : BitVec 32) (s : State), s.hif.hostReady = false →
    exec (.sqTailWrite r v) s = .next s ∧ exec (.cqHeadWrite r v) s = .next s ∧ exec (.evqHeadWrite v) s = .next s) ∧
  (∀ (v : BitVec 32) (s : State), s.hif.hostReady = true → v.toNat % 65536 < evqDepth s →
    (v.toNat % 65536 + evqDepth s - s.hif.evqHead) % evqDepth s ≤ (s.hif.evqTail + evqDepth s - s.hif.evqHead) % evqDepth s →
    Runs (.evqHeadWrite v) s fun t => t.hif.evqHead = v.toNat % 65536 ∧ t.fl.cmds = s.fl.cmds) ∧
  (∀ (v : BitVec 32) (s : State), s.hif.hostReady = true → evqDepth s ≤ v.toNat % 65536 →
    exec (.evqHeadWrite v) s = .next (s.mapHreg fun h => { h with err := h.err ||| 0x20 })) ∧
  (∀ (v : BitVec 32) (rb d : Nat) (s : State), barLive s = true → s.obs.ring = some (rb, d) → v.toNat % 2 ^ 20 < 2 ^ d →
    (v.toNat % 2 ^ 20 + 2 ^ d - s.obs.trHead) % 2 ^ d ≤ (s.obs.trIndex + 2 ^ d - s.obs.trHead) % 2 ^ d →
    exec (.traceHeadWrite v) s = .next (s.mapObs fun o => { o with trHead := v.toNat % 2 ^ 20 }))

/-- A fetch takes the entry of the ring pair whose turn it is: a command that passes the fetch checks is in flight, ready, under the next fetch
number, and the pair's head advances; one with a defined opcode that its ring's group mask refuses completes PERMISSION; an entry outside
the DMA windows puts the ring in ERROR. In D3hot nothing is fetched. A timed command that falls due becomes ready. A held event is written
to EVQ. A vector's timer, and its unmasking with the message pending, send one message; a masked vector only sets its pending bit. The
return to D0 leaves no completion waiting. -/
def Obligations.FetchAndInterruptRows : Prop :=
  (∀ (r left : Nat) (g : Ring) (bytes : List Byte) (s : State), mayFetch s = true → pickRing s = some (r, left) → mfind s.hif.rings r = some g →
    dmaAllowed s (g.cfg.sqBase.toNat + 64 * g.sqHead) 64 = true → bytes.length = 64 → fetchCheck { Cmd.init with ring := r, entry := bytes } = none →
    groupAllowed s { Cmd.init with ring := r, entry := bytes } = true → Cmd.flag { Cmd.init with ring := r, entry := bytes } 0 = false →
    Runs (.commandFetch (.data bytes)) s fun t =>
      t.fl = { s.fl with cmds := mput s.fl.cmds s.fl.nextId { Cmd.init with ring := r, entry := bytes }, nextId := s.fl.nextId + 1 } ∧
      mfind t.hif.rings r = some { g with sqHead := (g.sqHead + 1) % 2 ^ g.cfg.sqDepth } ∧ t.hostLog = s.hostLog ∧ t.hreg = s.hreg) ∧
  (∀ (r left : Nat) (g : Ring) (h : HostRead) (s : State), mayFetch s = true → pickRing s = some (r, left) → mfind s.hif.rings r = some g →
    dmaAllowed s (g.cfg.sqBase.toNat + 64 * g.sqHead) 64 = false → g.error = none → Runs (.commandFetch h) s fun t =>
      (∃ g', mfind t.hif.rings r = some g' ∧ g'.error = some 3 ∧ g'.sqHead = g.sqHead) ∧ t.fl.cmds = s.fl.cmds) ∧
  (∀ (h : HostRead) (s : State), s.boot.d3hot = true → exec (.commandFetch h) s = .next s) ∧
  (∀ (id : Nat) (c : Cmd) (s : State), s.tim.running = true → firstDue s = some (id, c) → mfind s.fl.cmds id = some c →
    exec .timedCommandDue s = .next (s.mapFl fun f => { f with cmds := mput f.cmds id { c with phase := .ready } })) ∧
  (∀ (e : Event) (s : State), evqOpen s = true → s.fl.heldEv = [e] → s.fl.lost = 0 → evqRoom s = true → evqAllowed s = true → s.hreg.evqIntCount = 0 →
    Runs .eventDeliver s fun t =>
      t.hostLog = s.hostLog ++ [(s.hreg.evqBase.toNat + 16 * s.hif.evqTail, e.bytes s.hif.evqPhase)] ∧ t.fl.heldEv = [] ∧
        t.hif.evqTail = (s.hif.evqTail + 1) % evqDepth s) ∧
  (∀ (v : Nat) (s : State), s.boot.d3hot = false → (unsignalled s v).2 ≠ 0 → (unsignalled s v).1 ≠ [] →
    (mget s.hif.msix v MsixEntry.init).mask = false → Runs (.msixTimer v) s fun t =>
      (unsignalled t v).1 = [] ∧ ∃ e, e = mget s.hif.msix v MsixEntry.init ∧
        t.hostLog = s.hostLog ++ [(e.addrLo.toNat + 2 ^ 32 * e.addrHi.toNat, leBytes 4 e.data.toNat)]) ∧
  (∀ (v : Nat) (s : State), s.boot.d3hot = false → (unsignalled s v).2 ≠ 0 → (unsignalled s v).1 ≠ [] →
    (mget s.hif.msix v MsixEntry.init).mask = true → exec (.msixTimer v) s = .next (s.mapHif fun h => { h with pba := linsert h.pba v })) ∧
  (∀ (v : Nat) (s : State), v ≤ 1024 → s.boot.d3hot = false → Runs (.msixUnmask v) s fun t =>
    (mget t.hif.msix v MsixEntry.init).mask = false ∧ t.hif.pba.contains v = false ∧ ∃ e, e = mget s.hif.msix v MsixEntry.init ∧
      t.hostLog = if s.hif.pba.contains v then s.hostLog ++ [(e.addrLo.toNat + 2 ^ 32 * e.addrHi.toNat, leBytes 4 e.data.toNat)] else s.hostLog) ∧
  (∀ s : State, exec .d3hotEnter s = .next (s.mapBoot fun b => { b with d3hot := true })) ∧
  (∀ s : State, s.boot.d3hot = true → Runs .d0Return s fun t =>
    t.boot = { s.boot with d3hot := false } ∧ t.fl.heldCpl = [] ∧ t.fl.cmds = s.fl.cmds ∧ t.ports = s.ports ∧ t.tbl = s.tbl)

/-- HIF_ENABLE is set after FW_READY. Its clearing, and a PCIe link reset, are a host-interface reset: HOST_READY clears, every ring pair, EVQ
and MSI-X setting returns to its reset, the snapshot period is 0 and the trace ring is gone, only commands that execute stay and write no
completion, and ports, lanes, tables and the guard are untouched. HOST_READY sets with FW_READY and HIF_ENABLE once no such command
executes: ring pair 0 and EVQ then exist with their parameters, index 0 and phase 1. -/
def Obligations.HostInterfaceResetRows : Prop :=
  (∀ s : State, s.boot.fwReady = true → exec .hifEnableSet s = .next (s.mapHreg fun h => { h with hifEnable := true })) ∧
  (∀ s : State, s.hreg.hifEnable = true → Runs .hifEnableClear s fun t =>
    t.hreg = { s.hreg with hifEnable := false, latch := keptLatches s.hreg.latch } ∧ t.hif = Hif.init ∧ t.obs.snapPeriod = 0 ∧ t.obs.ring = none ∧ t.fl.heldCpl = [] ∧
      (∀ e, e ∈ t.fl.cmds → e.2.dead = true ∧ e.2.phase = .executing) ∧ t.ports = s.ports ∧ t.lanes = s.lanes ∧ t.tbl = s.tbl ∧ t.buf = s.buf ∧
      t.guard = s.guard ∧ t.boot = s.boot) ∧
  (∀ s : State, s.hreg.hifEnable = false → exec .hifEnableClear s = .next s) ∧
  (∀ s : State, Runs .pcieLinkReset s fun t =>
    t.hreg = { s.hreg with hifEnable := false, latch := keptLatches s.hreg.latch } ∧ t.boot = { s.boot with d3hot := false } ∧ t.hif = Hif.init ∧ t.obs.snapPeriod = 0 ∧
      t.obs.ring = none ∧ (∀ e, e ∈ t.fl.cmds → e.2.dead = true ∧ e.2.phase = .executing) ∧ t.ports = s.ports ∧ t.lanes = s.lanes ∧ t.tbl = s.tbl ∧
      t.buf = s.buf ∧ t.guard = s.guard) ∧
  (∀ s : State, s.boot.fwReady = true → s.hreg.hifEnable = true → s.hif.hostReady = false → (many s.fl.cmds fun _ c => c.dead) = false →
    Runs .hostReady s fun t =>
      t.hif.hostReady = true ∧ t.hif.evqExists = true ∧ t.hif.evqHead = 0 ∧
        ∃ g, mfind t.hif.rings 0 = some g ∧ g.cfg = s.hreg.ring0 ∧ g.sqHead = 0 ∧ g.sqTail = 0 ∧ g.cqTail = 0 ∧ g.cqHead = 0 ∧ g.phase = true ∧
          g.error = none)

/-- RING_CREATE with legal parameters within the DMA windows adds the pair with them, at index 0 and phase 1, and completes SUCCESS. RING_DELETE
of another existing pair stops its fetching. RING_RESET of a pair in ERROR with nothing in flight returns it to its state after creation.
RING_STATUS returns the four indices, the error, the commands in flight and the group mask. DEVICE_IDENTIFY returns the identity, and
DEVICE_STATUS writes its block of 256 bytes. -/
def Obligations.RingCommands : Prop :=
  (∀ (id : Nat) (c : Cmd) (s : State), Begins s id 0x04 c → 1 ≤ c.target → c.target ≤ 1023 → c.indLen = 0 → (ringParams c).valid = true →
    c.inlZero 51 1 = true → c.inlZero 54 10 = true → mhas s.hif.rings c.target = false → (ringParams c).allowed s = true →
    Does (.ringCreate id) id c s 0 0 fun x =>
      x.mapHif fun h => { h with rings := mput h.rings c.target { Ring.init with cfg := ringParams c } }) ∧
  (∀ (id : Nat) (c : Cmd) (g : Ring) (s : State), Begins s id 0x05 c → 1 ≤ c.target → c.target ≤ 1023 → c.target ≠ c.ring → noFields c = true →
    mfind s.hif.rings c.target = some g → g.deleting = false →
    (many s.fl.cmds fun k d => decide (d.ring = c.target) && !d.dead && decide (k ≠ id)) = true → c.dead = false →
    (many s.fl.cmds fun _ d => decide (d.opcode = 0x05) && decide (d.phase = .executing)) = false →
    exec (.ringDelete id) s =
      .next ((beginCmd id c s).mapHif fun h => { h with rings := mput h.rings c.target { g with deleting := true } })) ∧
  (∀ (id : Nat) (c : Cmd) (g : Ring) (s : State), Begins s id 0x06 c → 1 ≤ c.target → c.target ≤ 1023 → noFields c = true →
    mfind s.hif.rings c.target = some g → g.error.isSome = true → reserved (beginCmd id c s) c.target = 0 →
    Does (.ringReset id) id c s 0 0 fun x =>
      x.mapHif fun h => { h with rings := mput h.rings c.target { Ring.init with cfg := g.cfg, deleting := g.deleting } }) ∧
  (∀ (id : Nat) (c : Cmd) (g : Ring) (s : State), Begins s id 0x07 c → c.target ≤ 1023 → noFields c = true → mfind s.hif.rings c.target = some g →
    s.fl.cmds.length + s.fl.heldCpl.length < 16384 → ∃ r1, Does (.ringStatus id) id c s
      (BitVec.ofNat 64 (g.sqHead + g.sqTail * 2 ^ 16 + g.cqTail * 2 ^ 32 + g.cqHead * 2 ^ 48)) r1 (fun x => x) ∧
      (r1.getLsbD 0 = g.error.isSome) ∧ (g.error.getD 0 < 4 → r1.extractLsb' 32 16 = groupMask s c.target)) ∧
  (∀ (id : Nat) (c : Cmd) (s : State), Begins s id 0x01 c → plainBad c 0 0 = false →
    Does (.deviceIdentify id) id c s 0x0001000003115120 Config.serial (fun x => x)) ∧
  (∀ (id : Nat) (c : Cmd) (s : State), Begins s id 0x02 c → blockBad c 0 256 = false → dmaAllowed s c.indAddr 256 = true →
    Does (.deviceStatus id []) id c s 0 0 fun x => hostWrite c.indAddr (deviceBlock x) x) ∧
  (∀ s : State, (deviceBlock s).length = 256)

/-- A read of the low half of a 64-bit register returns it and latches the high half, whose read returns the latch; an aligned 8-byte read
returns both and loads the latch; the identity register reads 0x51201FB7. Without the grant BAR4 reads zero; with it, counter k of block 0
of the last snapshot. A read of a size or alignment that is not listed completes with Unsupported Request and sets BAD_ACCESS. A time
capture returns the nanoseconds and their fraction together and keeps the seconds of the same moment. The first read of an error-log slot
latches bytes 4 to 15. A read of the time block while it is off returns 0x0FF0_0FF0 and sets ACCESS_TO_OFF, and a write there is discarded.
A configuration request is answered with Retry Status before FW_READY, and then offset 0 reads the Device and Vendor IDs. No read changes
anything but the host-interface registers. -/
def Obligations.RegisterReadRows : Prop :=
  (∀ (off v : Nat) (s : State), barLive s = true → off % 4 = 0 → offBlock s off = false → off ≠ 0x30000 → slotOf off = none → reg64 s off = some v →
    exec (.lowHalfRead 0 off 4) s = .next (s.mapHreg fun h =>
      { h with readData := BitVec.ofNat 512 (v % 2 ^ 32), readCpl := 0, latch := mput h.latch off (BitVec.ofNat 32 (v / 2 ^ 32)) })) ∧
  (∀ (off v : Nat) (s : State), barLive s = true → off % 8 = 4 → offBlock s off = false → slotOf off = none → reg64 s (off - 4) = some v →
    exec (.lowHalfRead 0 off 4) s = .next (s.mapHreg fun h =>
      { h with readData := (mget h.latch (off - 4) 0).setWidth 512, readCpl := 0 })) ∧
  (∀ s : State, barLive s = true → exec (.lowHalfRead 0 0 4) s = .next (s.mapHreg fun h => { h with readData := 0x51201FB7, readCpl := 0 })) ∧
  (∀ (off v : Nat) (s : State), barLive s = true → off % 8 = 0 → offBlock s off = false → off ≠ 0x30000 → slotOf off = none → reg64 s off = some v →
    exec (.lowHalfRead 0 off 8) s = .next (s.mapHreg fun h =>
      { h with readData := BitVec.ofNat 512 v, readCpl := 0, latch := mput h.latch off (BitVec.ofNat 32 (v / 2 ^ 32)) })) ∧
  (∀ (off len : Nat) (s : State), barLive s = true → s.guard.bar4 = false → len ∈ [4, 8, 16, 32, 64] → off % len = 0 →
    exec (.lowHalfRead 4 off len) s = .next (s.mapHreg fun h => { h with readData := 0, readCpl := 0 })) ∧
  (∀ (off k : Nat) (s : State), barLive s = true → s.guard.bar4 = true → s.obs.snapDone ≠ 0 → k < 64 → off = 0x1000 + 64 + 8 * k → Runs (.lowHalfRead 4 off 8) s fun t =>
    t.hreg.readData = (mget (mget s.obs.snapImage 0 []) k 0).setWidth 512 ∧ t.obs = s.obs) ∧
  (∀ (bar off len : Nat) (s : State), barLive s = true →
    (bar = 0 ∧ ((len ≠ 4 ∧ len ≠ 8) ∨ off % len ≠ 0)) ∨ (bar = 2 ∧ (8 < len ∨ off % len ≠ 0)) ∨ (bar = 4 ∧ (64 < len ∨ len < 4 ∨ off % len ≠ 0)) →
    exec (.lowHalfRead bar off len) s = .next (s.mapHreg fun h => { h with readData := 0, readCpl := 1, err := h.err ||| 1 })) ∧
  (∀ s : State, barLive s = true → s.tim.blockOn = true → s.tim.running = true → Runs (.timeCaptureRead true) s fun t =>
    t.hreg.readData = BitVec.ofNat 512 (s.tim.ns * 2 ^ 32 + s.tim.frac) ∧ t.hreg.timeSec = s.tim.sec ∧ t.hreg.readCpl = 0 ∧ t.tim = s.tim) ∧
  (∀ (i : Nat) (s : State), barLive s = true → i < 256 → ∃ b, b = (mget s.elog.slots i ErrEntry.init).bytes ∧
    exec (.errorLogSlotRead i true) s = .next (s.mapHreg fun h =>
      { h with readData := BitVec.ofNat 512 (fieldAt b 0 8), readCpl := 0, slotLatch := mput h.slotLatch i (b.drop 4) })) ∧
  (∀ (off : Nat) (s : State), barLive s = true → s.tim.blockOn = false → 0x30000 ≤ off → off < 0x3001C →
    exec (.bar0OffBlockAccess off false) s =
      .next (s.mapHreg fun h => { h with readData := 0x0FF00FF0, readCpl := 0, err := h.err ||| 2 }) ∧
    exec (.bar0OffBlockAccess off true) s = .next s) ∧
  (∀ (off : Nat) (s : State), s.boot.pcieTrain = true → s.boot.fwReady = false →
    exec (.pcieConfigRequest off) s = .next (s.mapHreg fun h => { h with readCpl := 2, readData := 0 })) ∧
  (∀ s : State, s.boot.pcieTrain = true → s.boot.fwReady = true → Runs (.pcieConfigRequest 0) s fun t =>
    t.hreg = { s.hreg with readData := 0x51201FB7, readCpl := 0 })

/-- While HIF_ENABLE is set a write to a ring parameter sets CFG_LOCKED only. While it is clear, an aligned 8-byte write sets a base; the low
half of a base is staged and takes effect with the high half; a reserved base or depth leaves the register. HIF_ERR_STATUS clears where a
one is written. A doorbell page write acts as its doorbell. A size or alignment that is not listed, and any write to BAR4, sets BAD_ACCESS
only. Beside them, a register read, a time capture, a read of an error-log slot, a read of a block that is off and a configuration request
answer a next state and leave the ring parameters. -/
def Obligations.RegisterWriteRows : Prop :=
  (∀ (off : Nat) (v : BitVec 64) (s : State), barLive s = true → s.hreg.hifEnable = true → isParam off = true → off % 4 = 0 →
    exec (.ring0ParamWrite off 4 v) s = .next (s.mapHreg fun h => { h with err := h.err ||| 0x40 })) ∧
  (∀ (v : BitVec 64) (s : State), barLive s = true → s.hreg.hifEnable = false → v.toNat % 4096 = 0 → Runs (.ring0ParamWrite 0x10010 8 v) s fun t =>
    t.hreg.ring0 = { s.hreg.ring0 with sqBase := v } ∧ t.hreg.err = s.hreg.err ∧ t.hreg.evqBase = s.hreg.evqBase) ∧
  (∀ (v : BitVec 64) (s : State), barLive s = true → s.hreg.hifEnable = false → v.toNat % 4096 ≠ 0 → Runs (.ring0ParamWrite 0x10010 8 v) s fun t =>
    t.hreg.ring0 = s.hreg.ring0) ∧
  (∀ (v : BitVec 32) (s : State), barLive s = true → s.hreg.hifEnable = false →
    exec (.lowHalfWrite 0x10018 v) s = .next (s.mapHreg fun h => { h with staged := mput h.staged 0x10018 v })) ∧
  (∀ (low : BitVec 32) (v : BitVec 64) (s : State), barLive s = true → s.hreg.hifEnable = false → mfind s.hreg.staged 0x10018 = some low →
    low.toNat % 4096 = 0 → Runs (.ring0ParamWrite 0x1001C 4 v) s fun t =>
      t.hreg.ring0 = { s.hreg.ring0 with cqBase := BitVec.ofNat 64 (v.toNat % 2 ^ 32 * 2 ^ 32 + low.toNat) }) ∧
  (∀ (v : BitVec 64) (s : State), barLive s = true → Runs (.registerWrite 0 0x10008 4 v) s fun t =>
    t.hreg = { s.hreg with err := s.hreg.err &&& ~~~ BitVec.ofNat 7 v.toNat }) ∧
  (∀ (r : Nat) (v : BitVec 64) (s : State), barLive s = true → r ≤ 1023 →
    exec (.registerWrite 2 (4096 * r) 4 v) s = exec (.sqTailWrite r (BitVec.ofNat 32 v.toNat)) s ∧
    exec (.registerWrite 2 (4096 * r + 4) 4 v) s = exec (.cqHeadWrite r (BitVec.ofNat 32 v.toNat)) s) ∧
  (∀ (bar off len : Nat) (v : BitVec 64) (s : State), barLive s = true →
    (bar = 0 ∧ len ≠ 4 ∧ len ≠ 8) ∨ (bar = 0 ∧ off % 4 ≠ 0) ∨ (bar = 2 ∧ len ≠ 4) ∨ (bar = 2 ∧ off % 4 ≠ 0) ∨ bar = 4 →
    exec (.registerWrite bar off len v) s = .next (s.mapHreg fun h => { h with err := h.err ||| 1 })) ∧
  (∀ s : State, barLive s = true → ∃ t, exec (.lowHalfRead 0 0 4) s = .next t ∧ t.hreg.readData = 0x51201FB7 ∧ t.hreg.ring0 = s.hreg.ring0) ∧
  (∀ s : State, barLive s = true → s.tim.blockOn = true → s.tim.running = true →
    ∃ t, exec (.timeCaptureRead true) s = .next t ∧ t.hreg.timeSec = s.tim.sec ∧ t.hreg.ring0 = s.hreg.ring0) ∧
  (∀ (i : Nat) (s : State), barLive s = true → i < 256 → ∃ t, exec (.errorLogSlotRead i true) s = .next t ∧
    t.hreg.readData = BitVec.ofNat 512 (fieldAt (mget s.elog.slots i ErrEntry.init).bytes 0 8) ∧ t.elog = s.elog) ∧
  (∀ (off : Nat) (s : State), barLive s = true → s.tim.blockOn = false → 0x30000 ≤ off → off < 0x3001C →
    ∃ t, exec (.bar0OffBlockAccess off false) s = .next t ∧ t.hreg.readData = 0x0FF00FF0 ∧ t.hreg.err = s.hreg.err ||| 2) ∧
  (∀ s : State, s.boot.pcieTrain = true → s.boot.fwReady = true → ∃ t, exec (.pcieConfigRequest 0) s = .next t ∧ t.hreg.readData = 0x51201FB7)

/-- A SNAPSHOT with none in progress starts the next sequence number and holds the command; one during a snapshot waits behind it. SNAPSHOT_SET
within the DMA windows sets the address and period. A periodic snapshot starts when none runs and is counted as skipped otherwise. The
completion of a snapshot sets the done number to the started one, completes its command with that number, and, when nothing waits and it was
periodic without a copy, changes no counter. -/
def Obligations.SnapshotRows : Prop :=
  (∀ (id : Nat) (c : Cmd) (s : State), Begins s id 0xC0 c → plainBad c 0 1 = false → c.byte 32 ≤ 3 → s.obs.snapRun = none → Runs (.snapshot id) s fun t =>
    t.obs.snapSeq = s.obs.snapSeq + 1 ∧ (∃ r, t.obs.snapRun = some r ∧ r.cmd = some id ∧ r.clear = bitOf (c.byte 32) 0) ∧
      t.obs.snapDone = s.obs.snapDone ∧ (mfind t.fl.cmds id).isSome = true ∧ t.hostLog = s.hostLog) ∧
  (∀ (id : Nat) (c : Cmd) (r : SnapRun) (s : State), Begins s id 0xC0 c → plainBad c 0 1 = false → c.byte 32 ≤ 3 → s.obs.snapRun = some r →
    Runs (.snapshot id) s fun t =>
      t.obs = { s.obs with snapWait := s.obs.snapWait ++ [(id, bitOf (c.byte 32) 0, bitOf (c.byte 32) 1)] } ∧ (mfind t.fl.cmds id).isSome = true) ∧
  (∀ (id : Nat) (c : Cmd) (s : State), Begins s id 0xC1 c → plainBad c 0 12 = false → c.inl 32 8 % 4096 = 0 → c.inl 40 4 ≤ 10000 →
    dmaAllowed s (c.inl 32 8) snapSize = true →
    Does (.snapshotSet id) id c s 0 0 fun x => x.mapObs fun o => { o with snapAddr := c.inl 32 8, snapPeriod := c.inl 40 4 }) ∧
  (∀ s : State, s.obs.snapPeriod ≠ 0 → s.obs.snapRun = none → Runs .snapshotPeriod s fun t =>
    t.obs.snapSeq = s.obs.snapSeq + 1 ∧ (∃ r, t.obs.snapRun = some r ∧ r.cmd = none ∧ r.clear = false) ∧ t.fl = s.fl) ∧
  (∀ (r : SnapRun) (s : State), s.obs.snapPeriod ≠ 0 → s.obs.snapRun = some r →
    exec .snapshotPeriod s = .next (s.mapObs fun o => { o with skipped := o.skipped.add 1 })) ∧
  (∀ (r : SnapRun) (s : State), s.obs.snapRun = some r → r.dma = false → s.obs.snapWait = [] → Runs .snapshotComplete s fun t =>
    t.obs.snapDone = s.obs.snapSeq ∧ t.obs.snapSeq = s.obs.snapSeq ∧ t.obs.snapRun = none ∧
      (r.cmd = none → t.hostLog = s.hostLog ∧ t.fl = s.fl) ∧ (r.clear = false → t.ports = s.ports ∧ t.lanes = s.lanes ∧ t.tbl = s.tbl))

/-- PROFILE_SET_CTR with a defined event code sets the counter's code and enable and clears its value only when CLEAR is set; PROFILE_READ
returns the counter, or the cycles since FW_READY for counter 8. BW_SET starts a port's window anew, BW_READ returns the rates and peaks of
the last complete window, and the end of a window stores them, zero for a port that did not exist throughout. TRACE_SET sets or removes a
port's sampling, or starts the ring anew; TRACE_STATUS returns what was written and lost; TRACE_OVERFLOW reports the loss once. -/
def Obligations.ProfilingAndTraceRows : Prop :=
  (∀ (id : Nat) (c : Cmd) (s : State), Begins s id 0xC2 c → plainBad c 7 4 = false → c.byte 32 ≤ 3 → c.inlZero 33 1 = true →
    profCodeOk (c.inl 34 2) = true → c.flag 2 = false → Does (.profileSetCtr id) id c s 0 0 fun x => x.mapObs fun o =>
      { o with prof := mput o.prof c.target
                { val := if bitOf (c.byte 32) 1 then 0 else (mget o.prof c.target Prof.init).val, code := c.inl 34 2, on := bitOf (c.byte 32) 0 } }) ∧
  (∀ (id : Nat) (c : Cmd) (s : State), Begins s id 0xC3 c → plainBad c 8 0 = false → Does (.profileRead id) id c s
    (if c.target = 8 then BitVec.ofNat 64 ((s.now - s.obs.cycles) * 8 / 5) else (mget s.obs.prof c.target Prof.init).val) 0 fun x => x) ∧
  (∀ (id : Nat) (c : Cmd) (s : State), Begins s id 0xC4 c → plainBad c 255 4 = false → 100 ≤ c.inl 32 4 → c.inl 32 4 ≤ 10000000 →
    Does (.bwSet id) id c s 0 0 fun x => x.mapObs fun o =>
      { o with bw := mput o.bw c.target { Bw.init with w := c.inl 32 4, began := s.now, existed := (port? s c.target).isSome, rx := [], tx := [] } }) ∧
  (∀ (id : Nat) (c : Cmd) (b : Bw) (s : State), Begins s id 0xC5 c → plainBad c 255 0 = false → mget s.obs.bw c.target Bw.init = b →
    b.rates.1 < 2 ^ 32 → b.rates.2 < 2 ^ 32 → b.peaks.1 < 2 ^ 32 → b.peaks.2 < 2 ^ 32 → Does (.bwRead id) id c s
      (BitVec.ofNat 64 (b.rates.1 + 2 ^ 32 * b.rates.2)) (BitVec.ofNat 64 (b.peaks.1 + 2 ^ 32 * b.peaks.2)) fun x => x) ∧
  (∀ (p : Nat) (s : State), s.boot.fwReady = true → p ≤ 255 → (mget s.obs.bw p Bw.init).existed = false → Runs (.bwWindowEnd p) s fun t =>
    (mget t.obs.bw p Bw.init).rates = (0, 0) ∧ (mget t.obs.bw p Bw.init).peaks = (0, 0) ∧ (mget t.obs.bw p Bw.init).began = s.now ∧
      (mget t.obs.bw p Bw.init).w = (mget s.obs.bw p Bw.init).w ∧ t.ports = s.ports ∧ t.fl = s.fl) ∧
  (∀ (id : Nat) (c : Cmd) (s : State), Begins s id 0xC6 c → traceBad c = false → c.target = 0x100 → c.flag 2 = false →
    Does (.traceSet id) id c s 0 0 fun x => x.mapObs fun o =>
      { o with ring := some (c.inl 32 8, c.byte 40), trIndex := 0, trHead := 0, trPhase := true, trSeq := 0 }) ∧
  (∀ (id : Nat) (c : Cmd) (s : State), Begins s id 0xC6 c → traceBad c = false → c.target ≠ 0x100 → c.flag 2 = false → c.byte 32 ≠ 0 →
    Does (.traceSet id) id c s 0 0 fun x => x.mapObs fun o => { o with traceK := mput o.traceK c.target (c.byte 32) }) ∧
  (∀ (id : Nat) (c : Cmd) (s : State), Begins s id 0xC7 c → plainBad c 0 0 = false →
    Does (.traceStatus id) id c s s.obs.trWritten.word s.obs.trLost.word fun x => x) ∧
  (∀ s : State, s.obs.trUnposted ≠ 0 → s.obs.trPostAt = none → Runs .traceOverflow s fun t =>
    t.obs.trUnposted = 0 ∧ t.obs.trPostAt = some s.now ∧ t.obs.trLost = s.obs.trLost ∧ t.ports = s.ports)

/-- POWER_STATE from ACTIVE with packets queued closes admission and stays in flight; the drain's end flushes what remains and enters QUIESCE
with every ramp begun. A move to the state the device is in completes BUSY. RETAIN, from QUIESCE with no Geode role and no other command
executing, ends fetching and keeps the named banks, stacks, timer and wake sources; its entry holds the cage group and clears everything
outside the Bedrock domain. PAD_RELEASE releases the group it names, and a group that is not held stays as it is. HEALTH_STATUS returns the
state and its causes. A hardware error sets cause [19], which makes the device FAILED. 60 minutes without a failed voltage request after an
acknowledged one clear cause [15]. An armed wake source ends RETAIN and is the source reported, and a retained bank is checked once: each of
these answers a next state. -/
def Obligations.PowerStateRows : Prop :=
  (∀ (id : Nat) (c : Cmd) (s : State), Begins s id 0x90 c → powerBad c = false → c.byte 32 = 1 → s.boot.state = .active → queuesEmpty s = false →
    Runs (.powerState id) s fun t =>
      t.boot.transition = true ∧ t.buf.drain = true ∧ t.boot.state = .active ∧ (mfind t.fl.cmds id).isSome = true ∧ t.lanes = s.lanes ∧
        t.ports = s.ports ∧ t.hostLog = s.hostLog) ∧
  (∀ (id : Nat) (c : Cmd) (s : State), Begins s id 0x90 c → powerBad c = false → c.byte 32 = 0 → s.boot.state = .active →
    exec (.powerState id) s = .next (finishFail id .busy (beginCmd id c s))) ∧
  (∀ (id : Nat) (c : Cmd) (s : State), Begins s id 0x90 c → powerBad c = false → c.byte 32 = 2 → s.boot.state = .quiesce → holdsRole s = false →
    othersExecute id (beginCmd id c s) = false → Runs (.powerState id) s fun t =>
      t.boot.state = .retain ∧ t.retn.hbmStacks = c.byte 33 ∧ t.retn.timer = c.inl 36 4 ∧ t.retn.banks = c.inl 40 8 ∧ t.retn.sources = c.byte 48 ∧
        t.retn.inRetain = false ∧ t.tbl = s.tbl ∧ t.mem = s.mem) ∧
  (∀ s : State, s.boot.state ≠ .active → exec .quiesceDrainEnd s = .next s) ∧
  (∀ s : State, s.buf.drain = true → s.boot.state = .active → Runs .quiesceDrainEnd s fun t => t.boot.state = .quiesce) ∧
  (∀ (found : List Found) (s : State), s.boot.state = .retain → s.retn.early = none → Runs (.retainEntry found) s fun t =>
    t.retn.inRetain = true ∧ t.bed.cageHeld = true ∧ t.boot = Boot.init ∧ t.lanes = LaneBank.init ∧ t.ports = PortBank.init ∧ t.tbl = Tables.init ∧
      t.fl = Flight.init ∧ t.hif = Hif.init ∧ t.retn.epoch = s.tbl.epoch ∧ t.retn.since = s.now ∧ t.elog = s.elog ∧ t.otp = s.otp ∧ t.rep = s.rep ∧
      t.guard = s.guard ∧ t.bed.geoRole = s.bed.geoRole) ∧
  (∀ (id : Nat) (mods : List ModReport) (c : Cmd) (s : State), Begins s id 0x91 c → plainBad c 0 1 = false → c.byte 32 ≤ 1 →
    s.bed.cageHeld = false → Does (.padRelease id mods) id c s 0 0 fun x => x) ∧
  (∀ (id : Nat) (c : Cmd) (s : State), Begins s id 0x91 c → plainBad c 0 1 = false → c.byte 32 = 1 → s.bed.cageHeld = true →
    Runs (.padRelease id []) s fun t => t.bed.cageHeld = false ∧ ∀ n, n < 32 → (cage t n).state = .absent ∧ (cage t n).pwren = false) ∧
  (∀ (id : Nat) (c : Cmd) (s : State), Begins s id 0x92 c → plainBad c 0 0 = false → Does (.healthStatus id) id c s
    (BitVec.ofNat 64 (healthState s + 256 * s.health.causes.toNat)) 0 fun x => x) ∧
  (∀ (w : BitVec 32) (s : State), s.boot.started = true → Runs (.hwError w) s fun t =>
    t.health.causes.getLsbD 11 = true ∧ healthState t = 3 ∧ t.elog.total = s.elog.total + 1 ∧
      (mget t.elog.slots (s.elog.total % 256) ErrEntry.init).code = 0x000B) ∧
  (∀ s : State, s.health.vackSince = true → Runs .voltageFailWindowEnd s fun t =>
    t.health.vfails = [] ∧ t.health.causes = s.health.causes &&& ~~~ 0x080) ∧
  (∀ s : State, s.retn.inRetain = true → s.retn.timer ≠ 0 → bitOf s.retn.sources 1 = true →
    ∃ t, exec .wakeTimer s = .next t ∧ t.retn.inRetain = false ∧ t.bed.wakeSource = 2) ∧
  (∀ (n : Nat) (s : State), n < 32 → railUp s 8 = true → s.retn.inRetain = true → bitOf s.retn.sources 2 = true →
    ∃ t, exec (.wakePresenceChange n) s = .next t ∧ t.retn.inRetain = false ∧ t.bed.wakeSource = 3) ∧
  (∀ s : State, railUp s 11 = true → s.retn.inRetain = true → bitOf s.retn.sources 3 = true →
    ∃ t, exec .wakePpsEdge s = .next t ∧ t.retn.inRetain = false ∧ t.bed.wakeSource = 4) ∧
  (∀ (n : Nat) (s : State), n < 64 → railUp s 7 = true → s.retn.inRetain = true → bitOf s.retn.sources 4 = true →
    ∃ t, exec (.wakeGarnetActivity n) s = .next t ∧ t.retn.inRetain = false ∧ t.bed.wakeSource = 5) ∧
  (∀ (b : Nat) (found : List Found) (had : BitVec 32 × Nat) (s : State), s.boot.started = true → s.retn.check.contains b = true →
    mfind s.retn.sigs b = some had → ∃ t, exec (.retainedBankCheck b found) s = .next t ∧ t.retn.check = s.retn.check.filter (· ≠ b))

/-- In RETAIN an armed source whose pin is powered ends it: WAKE_N is asserted with the source, the error log gains one entry 0x000C, and the
wake start begins if the device can start. A source that is not armed has no effect, nor has one outside RETAIN. A retained bank whose
signature is equal is kept, and any other is lost; the signature is the CRC-32C of the bank's 2 MiB as read after correction and the count
of its uncorrectable words. -/
def Obligations.WakeRows : Prop :=
  (∀ s : State, s.retn.inRetain = true → s.retn.timer ≠ 0 → bitOf s.retn.sources 1 = true → Runs .wakeTimer s fun t =>
    t.retn.inRetain = false ∧ t.bed.wakeN = true ∧ t.bed.wakeSource = 2 ∧ t.elog.total = s.elog.total + 1 ∧
      (mget t.elog.slots (s.elog.total % 256) ErrEntry.init).code = 0x000C) ∧
  (∀ (n : Nat) (s : State), n < 32 → railUp s 8 = true → s.retn.inRetain = true → bitOf s.retn.sources 2 = true → Runs (.wakePresenceChange n) s fun t =>
    t.retn.inRetain = false ∧ t.bed.wakeN = true ∧ t.bed.wakeSource = 3 ∧ t.elog.total = s.elog.total + 1) ∧
  (∀ s : State, railUp s 11 = true → s.retn.inRetain = true → bitOf s.retn.sources 3 = true → Runs .wakePpsEdge s fun t =>
    t.retn.inRetain = false ∧ t.bed.wakeN = true ∧ t.bed.wakeSource = 4 ∧ t.elog.total = s.elog.total + 1) ∧
  (∀ (n : Nat) (s : State), n < 64 → railUp s 7 = true → s.retn.inRetain = true → bitOf s.retn.sources 4 = true → Runs (.wakeGarnetActivity n) s fun t =>
    t.retn.inRetain = false ∧ t.bed.wakeN = true ∧ t.bed.wakeSource = 5 ∧ t.elog.total = s.elog.total + 1) ∧
  (∀ (i : Instr) (n : Nat) (s : State), s.retn.sources = 0 → i ∈ [Instr.wakeTimer, .wakePresenceChange n, .wakePpsEdge, .wakeGarnetActivity n] →
    exec i s = .next s) ∧
  (∀ (i : Instr) (n : Nat) (s : State), s.retn.inRetain = false → s.boot.state ≠ .retain →
    i ∈ [Instr.wakeTimer, .wakePresenceChange n, .wakePpsEdge, .wakeGarnetActivity n] → exec i s = .next s) ∧
  (∀ (b : Nat) (found : List Found) (had : BitVec 32 × Nat) (s : State), s.boot.started = true → s.retn.check.contains b = true →
    mfind s.retn.sigs b = some had → Runs (.retainedBankCheck b found) s fun t =>
      t.retn.check = s.retn.check.filter (fun x => decide (x ≠ b)) ∧
      ((bankSig b found (some had.1) s).1 = had → t.retn.kept = s.retn.kept ++ [b] ∧ t.retn.lost = s.retn.lost) ∧
      ((bankSig b found (some had.1) s).1 ≠ had → t.retn.kept = s.retn.kept ∧ t.retn.lost = s.retn.lost ++ [b])) ∧
  (∀ (b : Nat) (found : List Found) (had : Option (BitVec 32)) (s : State), (region s (1 + b)).mixed = false →
    (bankSig b found had s).1 = (crc32c (asRead s (1 + b) 0 (2 ^ 21) (bankFound s b found)), (bankFound s b found).countP (unitBad s)))

/-- A free slot goes to the lane that waits first in number: its switch opens and it is calibrating. A plausible run of a device without a Geode
role ends the calibration ACCEPTED, with the switch closed again unless the lane loops, LANE_READY set unless the lane is withdrawn. An
implausible run is counted, closes the switch again and leads to one retry, at which the switch opens; an implausible second run that shares
no failing set with the first ends it REJECTED. During a brownout freeze no run ends. A slot and a first rejection change no other lane. -/
def Obligations.CalibrationRows : Prop :=
  (∀ (n : Nat) (l : Lane) (m : LaneMeas) (s : State), s.lanes.tab.find? (fun p => p.2.waitSlot && p.2.cal.isSome) = some (n, l) → slotsUsed s < 64 →
    s.bed.boActive = false → railUp s 5 = true → railUp s 6 = true → Runs (.calibrationSlotStart m) s fun t =>
      (lane t n).state = .calibrating ∧ (lane t n).swOpen = true ∧ (lane t n).waitSlot = false ∧ (lane t n).rot = none ∧ LanesBut n s t) ∧
  (∀ (n : Nat) (meas : List Meas) (t0 t1 : Int) (own : Nat) (c : Cal) (s : State), (lane s n).cal = some c → (lane s n).waitSlot = false →
    c.running = true → c.geode = false → c.runs = [] → s.bed.boActive = false → fgRunOk s n { meas := meas, t0 := t0, t1 := t1 } = true →
    Runs (.foregroundRunEnd n meas t0 t1 own) s fun t =>
      (lane t n).cal = none ∧ (lane t n).fgResult = 1 ∧ (lane t n).swOpen = (lane s n).loop ∧ (lane t n).ready = !(lane s n).withdrawn ∧
        (lane t n).state = c.back ∧ (lane t n).ownNoise = own) ∧
  (∀ (n : Nat) (meas : List Meas) (t0 t1 : Int) (own : Nat) (c : Cal) (s : State), (lane s n).cal = some c → (lane s n).waitSlot = false →
    c.running = true → c.geode = false → c.runs = [] → c.attempt = 1 → s.bed.boActive = false →
    fgRunOk s n { meas := meas, t0 := t0, t1 := t1 } = false → Runs (.foregroundRunEnd n meas t0 t1 own) s fun t =>
      (∃ d, (lane t n).cal = some d ∧ d.attempt = 2 ∧ d.running = false ∧ d.runs = []) ∧ (lane t n).swOpen = (lane s n).loop ∧
        ctrOf (lane t n).ctr 0 = (ctrOf (lane s n).ctr 0).add 1 ∧ LanesBut n s t ∧ t.ports = s.ports) ∧
  (∀ (n : Nat) (meas : List Meas) (t0 t1 : Int) (own : Nat) (c : Cal) (s : State), (lane s n).cal = some c → (lane s n).waitSlot = false →
    c.running = true → c.geode = false → c.runs = [] → c.attempt = 2 → c.failed1 = [] → s.bed.boActive = false →
    fgRunOk s n { meas := meas, t0 := t0, t1 := t1 } = false → Runs (.foregroundRunEnd n meas t0 t1 own) s fun t =>
      (lane t n).cal = none ∧ (lane t n).fgResult = 2 ∧ (lane t n).rejFlag = true ∧ ctrOf (lane t n).ctr 0 = (ctrOf (lane s n).ctr 0).add 1) ∧
  (∀ (n : Nat) (meas : List Meas) (t0 t1 : Int) (own : Nat) (s : State), s.bed.boActive = true →
    exec (.foregroundRunEnd n meas t0 t1 own) s = .next s) ∧
  (∀ (n : Nat) (c : Cal) (s : State), (lane s n).cal = some c → c.attempt = 2 → c.running = false → s.bed.boActive = false →
    exec (.calRetry n) s = .next (modLane n (fun l => { l with cal := some { c with running := true }, swOpen := true }) s))

/-- A trim update with a valid reading of the cage sensor keeps it, for the other powered lanes of the cage too, and recomputes all 68 trims at
it. A rotation step picks the slice longest in service and the spare longest out of it, without changing the map; an accepted shadow
measurement switches the map at exactly those two slices, and the other bank takes the next step; the standby measurement ends the step. A
noise measurement of a lane without signal and its switch closed stores the noise of the formula with its time. A frozen lane starts no
step. -/
def Obligations.TrimAndRotationRows : Prop :=
  (∀ (n : Nat) (x : Int) (s : State), (lane s n).state ≠ .off → Runs (.trimUpdate n (some x)) s fun t =>
    (lane t n).validT = some x ∧ (lane t n).trimT = x ∧ (lane t n).trims.length = 68 ∧ sensor t (n / 8) = some x ∧
      (∀ k, k ≠ n → lane t k = if k / 8 = n / 8 ∧ (lane s k).state ≠ .off then { lane s k with validT := some x } else lane s k) ∧
      (lane t n).state = (lane s n).state ∧ (lane t n).delta = (lane s n).delta) ∧
  (∀ (n b o i : Nat) (s : State), (lane s n).state = .acquired → laneFrozen s (lane s n) = false → (lane s n).forced = false → (lane s n).rot = none →
    nextBank (lane s n) = some b → longest (lane s n) (bankInService (lane s n) b) = some o → longest (lane s n) (bankSpares (lane s n) b) = some i →
    Runs (.rotationStepStart n) s fun t =>
      (∃ r, (lane t n).rot = some r ∧ r.out = o ∧ r.inc = i ∧ r.phase = .shadow) ∧ (lane t n).lastBank = (lane s n).lastBank ∧ (lane t n).sliceMap = (lane s n).sliceMap ∧ LanesBut n s t) ∧
  (∀ (n : Nat) (s : State), laneFrozen s (lane s n) = true → exec (.rotationStepStart n) s = .next s) ∧
  (∀ (n : Nat) (a : BgRun) (r : Rot) (s : State), (lane s n).rot = some r → r.phase = .shadow → laneFrozen s (lane s n) = false → holdsRole s = false →
    bgOk s n r.inc true a = true → (lane s n).withdrawn = false → (lane s n).sliceFault.getLsbD r.inc = false → (lane s n).sliceMap.getLsbD r.out = true →
    Runs (.rotationShadowEnd n [a]) s fun t =>
      (lane t n).sliceMap = ((lane s n).sliceMap &&& ~~~ sliceBit r.out) ||| sliceBit r.inc ∧ (lane t n).sliceFault = (lane s n).sliceFault ∧
        (lane t n).rot = some { r with phase := .standby } ∧ (lane t n).lastBank = sliceBank r.inc ∧ LanesBut n s t) ∧
  (∀ (n : Nat) (a : BgRun) (r : Rot) (s : State), (lane s n).rot = some r → r.phase = .standby → (lane s n).state = .acquired → laneFrozen s (lane s n) = false → holdsRole s = false → bgOk s n r.out false a = true →
    Runs (.standbyMeasurementEnd n [a]) s fun t =>
      (lane t n).rot = none ∧ (lane t n).sliceMap = (lane s n).sliceMap ∧ (lane t n).bgRej = mdel (lane s n).bgRej r.out ∧ LanesBut n s t) ∧
  (∀ (n p : Nat) (s : State), (lane s n).state = .noSignal → (lane s n).swOpen = false → (lane s n).loop = false → Runs (.noiseMeasurement n p) s fun t =>
    (lane t n).noise = noiseRms p (lane s n).ownNoise ∧ (lane t n).noiseAt = s.now ∧ (lane t n).belowOwn = decide (p < (lane s n).ownNoise) ∧
      (lane t n).state = .noSignal ∧ LanesBut n s t)

/-- On a ready lane with a port and its rails, an RMS input above SD_THRESH moves NO_SIGNAL to CTLE_SEARCH, and LOS_HELD with the warm
conditions to WARM from the held set; each phase moves to the next, CTLE_SEARCH with the code of the largest eye, FREQ within 350 ppm,
CONVERGE after the LMS of the symbols met, QUALIFY; a qualification with two markers, the inner-code alignment where there is one, at most
one bad codeword and an SNR of 10.0 dB or more makes it ACQUIRED with the latency given; any other does not. The end of a window or budget
makes the attempt EXPIRED and counts it, and the gap returns it to NO_SIGNAL. A freeze for a brownout stops every phase but frequency lock.
Only the one lane changes. -/
def Obligations.AcquisitionRows : Prop :=
  (∀ (n rms : Nat) (s : State), mayAttempt s (lane s n) = true → (lane s n).state = .noSignal → (lane s n).set.sdThresh * 1000 < rms →
    Runs (.signalPresent n rms) s fun t =>
      (lane t n).state = .ctleSearch ∧ (lane t n).held = none ∧ (lane t n).coef = Coef.init ∧ (lane t n).presentAt = s.now ∧ LanesBut n s t ∧ t.ports = s.ports) ∧
  (∀ (n rms : Nat) (h : Held) (s : State), mayAttempt s (lane s n) = true → (lane s n).state = .losHeld → (lane s n).set.sdThresh * 1000 < rms →
    (lane s n).held = some h → warmOk s n = true → Runs (.signalPresent n rms) s fun t =>
      (lane t n).state = .warm ∧ (lane t n).ctle = h.ctle ∧ (lane t n).vga = h.vga ∧ (lane t n).coef = h.coef ∧ (lane t n).freqOff = h.freq ∧ LanesBut n s t) ∧
  (∀ (n rms : Nat) (s : State), mayAttempt s (lane s n) = false ∨ rms ≤ (lane s n).set.sdThresh * 1000 → exec (.signalPresent n rms) s = .next s) ∧
  (∀ (n : Nat) (eyes : List Nat) (s : State), (lane s n).state = .ctleSearch → s.bed.boActive = false → eyes.length = 33 → Runs (.ctleSearchDone n eyes) s fun t =>
    (lane t n).state = .freq ∧ (lane t n).ctle = (if (lane s n).set.ctleMode = 0 then argMax eyes else (lane s n).set.ctleCode) ∧ LanesBut n s t) ∧
  (∀ (l : List Nat) (k : Nat), k < l.length → l.getD k 0 ≤ l.getD (argMax l) 0 ∧ (l.getD k 0 = l.getD (argMax l) 0 → argMax l ≤ k)) ∧
  (∀ (n : Nat) (f : Int) (s : State), (lane s n).state = .freq → -35000 ≤ f → f ≤ 35000 → exec (.freqLock n f) s =
    .next (modLane n (fun l => { l with state := .converge, freqOff := f, coef := l.coef.converge }) s)) ∧
  (∀ (n : Nat) (m : LaneMeas) (mse : List Int) (s : State), (lane s n).state = .converge → s.bed.boActive = false → mseStable mse = true →
    Runs (.convergeDone n m mse) s fun t =>
      (lane t n).state = .qualify ∧ (lane t n).snr = m.snr ∧ LanesBut n s t ∧
        (lane t n).coef = adapt (lane s n).cursorOn (decide ((lane s n).eqOn = 1)) (lane s n).set.muAcq (rxSamples (lane s n) m.blocks) (lane s n).coef) ∧
  (∀ (n latency : Nat) (m : LaneMeas) (q : Qual) (s : State), (lane s n).state = .qualify → s.bed.boActive = false → qualified s n m q = true →
    Runs (.qualifyPass n m q latency) s fun t =>
      (lane t n).state = .acquired ∧ (lane t n).warmLast = false ∧ (lane t n).latency = latency ∧ (lane t n).snr = m.snr ∧
        (lane t n).acqUs = (s.now - (lane s n).presentAt) / 1000 ∧ LanesBut n s t) ∧
  (∀ (n latency : Nat) (m : LaneMeas) (q : Qual) (s : State), m.snr.toInt < 100 ∨ q.markers < 2 ∨ 1 < q.bad ∨ (q.inner = false ∧ rxCode s n ≠ .none) →
    exec (.qualifyPass n m q latency) s = .next s) ∧
  (∀ (n : Nat) (s : State), (lane s n).state = .qualify → s.bed.boActive = false → Runs (.qualifyWindowEnd n) s fun t =>
    (lane t n).state = .expired ∧ (lane t n).coef = Coef.init ∧ ctrOf (lane t n).ctr 21 = (ctrOf (lane s n).ctr 21).add 1 ∧ LanesBut n s t) ∧
  (∀ (n rms : Nat) (s : State), (lane s n).state = .freq ∨ ((lane s n).state = .converge ∧ s.bed.boActive = false) →
    Runs (.phaseBudgetExpiry n rms) s fun t =>
      (lane t n).state = .expired ∧ (lane t n).coef = Coef.init ∧ ctrOf (lane t n).ctr 21 = (ctrOf (lane s n).ctr 21).add 1 ∧ LanesBut n s t) ∧
  (∀ (n rms : Nat) (s : State), (lane s n).state = .expired → 2 * rms < (lane s n).set.sdThresh * 1000 →
    exec (.phaseBudgetExpiry n rms) s = .next (modLane n (fun l => { l with xwin := none }) s)) ∧
  (∀ (n : Nat) (s : State), (lane s n).state = .expired → exec (.acqGapEnd n) s = .next (modLane n (fun l => { l with state := .noSignal }) s)) ∧
  (∀ (n latency : Nat) (eyes : List Nat) (mse : List Int) (m : LaneMeas) (q : Qual) (i : Instr) (s : State), s.bed.boActive = true →
    i ∈ [Instr.ctleSearchDone n eyes, .convergeDone n m mse, .qualifyPass n m q latency, .qualifyWindowEnd n] → exec i s = .next s)

/-- Amplitude loss of an ACQUIRED lane freezes it in LOS_PENDING with the port untouched; its return brings ACQUIRED and counts a glitch; its
timeout, or alignment loss of an ACQUIRED lane, declares LOS with its cause, stores the held set of the moment, counts it, and leaves
LOS_HELD. 60 s later the held set goes. A warm start that passes its frequency check and qualifies is ACQUIRED as warm; one that fails is
counted and starts cold. X200 fallback runs every lane of the port at S200, and on the Geode secondary the receiver alternates instead. -/
def Obligations.LossAndWarmRows : Prop :=
  (∀ (n rms : Nat) (m : LaneMeas) (s : State), (lane s n).state = .acquired → 2 * rms < (lane s n).set.sdThresh * 1000 → Runs (.amplitudeLoss n rms m) s fun t =>
    (lane t n).state = .losPending ∧ (lane t n).rot = keptStep (lane s n) ∧ (lane t n).snr = m.snr ∧ LanesBut n s t ∧ t.ports = s.ports) ∧
  (∀ (n rms : Nat) (s : State), (lane s n).state = .losPending → (lane s n).set.sdThresh * 1000 < rms → Runs (.amplitudeReturn n rms 0) s fun t =>
    (lane t n).state = .acquired ∧ ctrOf (lane t n).ctr 23 = (ctrOf (lane s n).ctr 23).add 1 ∧ LanesBut n s t) ∧
  (∀ (n : Nat) (s : State), (lane s n).state = .losPending → Runs (.losPendingTimeout n) s fun t =>
    (lane t n).state = .losHeld ∧ (lane t n).losCause = 1 ∧ ctrOf (lane t n).ctr 24 = (ctrOf (lane s n).ctr 24).add 1 ∧ LanesBut n s t ∧
      ∃ h, (lane t n).held = some h ∧ h.since = s.now ∧ h.mode = rxMode (lane s n) ∧ h.coef = (lane s n).coef ∧ h.ctle = (lane s n).ctle ∧ h.freq = (lane s n).freqOff ∧ h.eqMode = detector (lane s n) (cage s (n / 8)).c2m) ∧
  (∀ (n bad missing : Nat) (m : LaneMeas) (s : State), (lane s n).state = .acquired → 8 ≤ bad ∨ 2 ≤ missing → Runs (.alignmentLoss n bad missing m) s fun t =>
    (lane t n).state = .losHeld ∧ (lane t n).losCause = 2 ∧ (lane t n).rot = keptStep (lane s n) ∧ LanesBut n s t ∧
      ctrOf (lane t n).ctr 24 = (ctrOf (lane s n).ctr 24).add 1) ∧
  (∀ (n : Nat) (s : State), (lane s n).state = .losHeld →
    exec (.losHeldTimeout n) s = .next (modLane n (fun l => { l with state := .noSignal, held := none }) s)) ∧
  (∀ (n : Nat) (f : Int) (s : State), (lane s n).state = .warm → s.bed.boActive = false → -35000 ≤ f → f ≤ 35000 →
    exec (.warmFreqCheck n f) s = .next (modLane n (fun l => { l with warmFreq := true, freqOff := f }) s)) ∧
  (∀ (n latency : Nat) (m : LaneMeas) (q : Qual) (s : State), (lane s n).state = .warm → (lane s n).warmFreq = true → s.bed.boActive = false → qualified s n m q = true →
    Runs (.warmQualify n m q latency) s fun t =>
      (lane t n).state = .acquired ∧ (lane t n).warmLast = true ∧ (lane t n).latency = latency ∧ LanesBut n s t) ∧
  (∀ (n : Nat) (s : State), (lane s n).state = .warm → s.bed.boActive = false → Runs (.warmFailed n) s fun t =>
    (lane t n).state = .ctleSearch ∧ (lane t n).held = none ∧ ctrOf (lane t n).ctr 22 = (ctrOf (lane s n).ctr 22).add 1 ∧ LanesBut n s t) ∧
  (∀ (n p : Nat) (q : Port) (s : State), (lane s n).port = some p → port? s p = some q → (lane s n).opMode = 2 → (lane s n).xwin.isSome = true →
    (lane s n).state ≠ .acquired → isSecondary s = false → s.bed.boActive = false → Runs (.x200Fallback n) s fun t =>
      (∀ k, p ≤ k → k < p + q.lanes → (lane t k).opMode = 1) ∧ (∃ q', port? t p = some q' ∧ q'.fallback = true) ∧
        ∀ k, k < p ∨ p + q.lanes ≤ k → mfind t.lanes.tab k = mfind s.lanes.tab k) ∧
  (∀ (n p : Nat) (s : State), (lane s n).port = some p → (lane s n).opMode = 2 → (lane s n).xwin.isSome = true → (lane s n).state ≠ .acquired →
    isSecondary s = true → s.bed.boActive = false → Runs (.x200RxAlternate n) s fun t =>
      (lane t n).rxAlt = !(lane s n).rxAlt ∧ (lane t n).altPosted = true ∧ (lane t n).opMode = 2 ∧ LanesBut n s t)

/-- A ramp advances by one of 64 steps; its last step up makes the lane transmit; a stopped lane's outputs are released to high impedance.
LANE_SET stores exactly the selected fields. LANE_STATUS writes its block. LANE_CALIBRATE queues a calibration and stays in flight.
LANE_MUTE of a lane that drives nothing only marks it, and of a transmitting lane starts its ramp down to mute; on the Geode secondary an
unmute completes PERMISSION. LANE_DIAG FORCE puts a map of 32 slices in each bank in force, and RELEASE ends it. No other lane changes. A
receiver that undoes the precoding gets the levels back, and Gray code gives every string of bit pairs back. -/
def Obligations.RampAndLaneCommands : Prop :=
  (∀ (n : Nat) (s : State), (lane s n).tx = .rampUp → (lane s n).step < 63 →
    exec (.rampStep n) s = .next (modLane n (fun l => { l with step := l.step + 1 }) s)) ∧
  (∀ (n : Nat) (s : State), (lane s n).tx = .rampUp → 63 ≤ (lane s n).step → Runs (.rampStep n) s fun t =>
    (lane t n).tx = .transmitting ∧ (lane t n).step = 64) ∧
  (∀ (n : Nat) (s : State), (lane s n).tx = .rampDown → 1 < (lane s n).step →
    exec (.rampStep n) s = .next (modLane n (fun l => { l with step := l.step - 1 }) s)) ∧
  (∀ (n : Nat) (s : State), (lane s n).tx = .transmitting → (lane s n).amplStep < 64 →
    exec (.rampStep n) s = .next (modLane n (fun l => { l with amplStep := l.amplStep + 1 }) s)) ∧
  (∀ (n : Nat) (s : State), (lane s n).tx = .stopping → Runs (.txOutputRelease n) s fun t => (lane t n).tx = .hiZ) ∧
  (∀ (id : Nat) (m : LaneMeas) (c : Cmd) (s : State), Begins s id 0x18 c → laneSetCheck c s = none → Runs (.laneSet id m) s fun t =>
    (lane t c.target).set = laneSetApply c (lane s c.target).set ∧ (lane t c.target).state = (lane s c.target).state ∧ LanesBut c.target s t ∧
      t.ports = s.ports ∧ t.cages = s.cages) ∧
  (∀ (c : Cmd) (x : LaneSet), c.inl 32 4 = 0 → laneSetApply c x = x) ∧
  (∀ (c : Cmd) (x : LaneSet), c.inl 32 4 = 0x1000 → laneSetApply c x = { x with rampTime := c.inl 58 2 }) ∧
  (∀ (c : Cmd) (x : LaneSet), c.inl 32 4 = 0x200 → laneSetApply c x = { x with txMask := byteAt c.entry 55 }) ∧
  (∀ (id : Nat) (m : LaneMeas) (c : Cmd) (s : State), Begins s id 0x19 c → c.target ≤ 255 → 368 ≤ c.indLen → c.inlZero 32 32 = true →
    dmaAllowed s c.indAddr 368 = true → laneMoves (lane s c.target) = false → Does (.laneStatus id m) id c s 0 0 fun x =>
      hostWrite c.indAddr (laneBlock x c.target) x) ∧
  (∀ (id : Nat) (c : Cmd) (s : State), Begins s id 0x1A c → c.target ≤ 255 → noFields c = true → (lane s c.target).port.isSome = true →
    railUp s 5 = true → railUp s 6 = true → (lane s c.target).ready = true → (lane s c.target).cal = none → Runs (.laneCalibrate id) s fun t =>
      (lane t c.target).waitSlot = true ∧ (lane t c.target).cal = some { Cal.init with cmd := some id } ∧
        (lane t c.target).state = (lane s c.target).state ∧ LanesBut c.target s t ∧ (mfind t.fl.cmds id).isSome = true) ∧
  (∀ (id : Nat) (c : Cmd) (s : State), Begins s id 0x1B c → c.target ≤ 255 → c.indLen = 0 → byteAt c.entry 32 = 1 → c.inlZero 33 31 = true →
    (lane s c.target).tx = .hiZ → Does (.laneMute id) id c s 0 0 (modLane c.target fun l => { l with mute := true })) ∧
  (∀ (id : Nat) (c : Cmd) (s : State), Begins s id 0x1B c → c.target ≤ 255 → c.indLen = 0 → byteAt c.entry 32 = 1 → c.inlZero 33 31 = true →
    (lane s c.target).tx = .transmitting → Runs (.laneMute id) s fun t =>
      (lane t c.target).tx = .rampDown ∧ (lane t c.target).step = 64 ∧ (lane t c.target).rampStop = false ∧ (lane t c.target).mute = true ∧
        LanesBut c.target s t ∧ (mfind t.fl.cmds id).isSome = true) ∧
  (∀ (id : Nat) (c : Cmd) (s : State), Begins s id 0x1B c → c.target ≤ 255 → c.indLen = 0 → byteAt c.entry 32 = 0 → c.inlZero 33 31 = true →
    isSecondary s = true → exec (.laneMute id) s = .next (finishFail id .permission (beginCmd id c s))) ∧
  (∀ (id : Nat) (c : Cmd) (s : State), Begins s id 0x1C c → c.target ≤ 255 → c.indLen = 0 → byteAt c.entry 32 = 1 → byteAt c.entry 41 < 16 →
    c.inlZero 42 22 = true → (lane s c.target).port.isSome = true → mapValid (lane s c.target) (BitVec.ofNat 68 (c.inl 33 9)) = true →
    Runs (.laneDiag id) s fun t =>
      (lane t c.target).sliceMap = BitVec.ofNat 68 (c.inl 33 9) ∧ (lane t c.target).forced = true ∧ (lane t c.target).rot = none ∧
        LanesBut c.target s t) ∧
  (∀ (id : Nat) (c : Cmd) (s : State), Begins s id 0x1C c → c.target ≤ 255 → c.indLen = 0 → byteAt c.entry 32 = 0 → byteAt c.entry 41 < 16 →
    c.inlZero 42 22 = true → (lane s c.target).port.isSome = true →
    Does (.laneDiag id) id c s 0 0 (modLane c.target fun l => { l with forced := false })) ∧
  (∀ (p : Nat) (ls : List Nat), p < 4 → (∀ l, l ∈ ls → l < 4) → unprecode p (precode p ls) = ls) ∧
  (∀ bits : List Bool, bits.length % 2 = 0 → grayString (grayLevels bits) = bits)

/-- A PORT_CREATE, and a PORT_SET that selects the thresholds, whose DEG_CLEAR exceeds a DEG_SET that is not zero completes INVALID_FIELD, with
no other effect. -/
def Obligations.DegradeThresholdsInOrder : Prop :=
  (∀ (id : Nat) (c : Cmd) (s : State), Begins s id 0x10 c → c.byte 37 ≠ 0 → c.byte 37 < c.byte 38 →
    exec (.portCreate id) s = .next (finishFail id .invalidField (beginCmd id c s))) ∧
  (∀ (id : Nat) (c : Cmd) (s : State), Begins s id 0x12 c → sel (c.byte 32) 2 = true → c.byte 37 ≠ 0 → c.byte 37 < c.byte 38 →
    exec (.portSet id) s = .next (finishFail id .invalidField (beginCmd id c s)))

/-- Alignment lock takes an ALIGNING port UP; a timeout counts and records the skew; alignment loss takes an UP port out of UP with its
counters. Remote Fault columns are counted and set RF on an UP port, 128 columns without clear it, and Local Fault is only counted. A window
above the degrade threshold sets FEC degrade on an UP port, and the tenth window at or below the clear threshold ends it. PORT_CREATE adds
the port with its parameters and powers its lanes for calibration; PORT_SET changes the selected field only; PORT_STATUS writes its block;
PORT_DELETE removes the port's ingress queues and ends or drains the port. -/
def Obligations.PortRows : Prop :=
  (∀ (p : Nat) (q : Port) (s : State), port? s p = some q → q.state = .aligning → q.deleting = false → Runs (.portAlignLock p) s fun t =>
    port? t p = some { q with state := .up, skew := false } ∧ PortsBut p s t ∧ t.lanes = s.lanes) ∧
  (∀ (p : Nat) (q : Port) (skew : Bool) (s : State), port? s p = some q → q.state = .aligning → q.loopback = 2 → Runs (.portAlignTimeout p skew) s fun t =>
    ∃ q', port? t p = some q' ∧ q'.state = .aligning ∧ q'.skew = skew ∧ ctrOf q'.ctr 39 = (ctrOf q.ctr 39).add 1 ∧ PortsBut p s t) ∧
  (∀ (p : Nat) (q : Port) (hi : Bool) (s : State), port? s p = some q → q.state = .up → Runs (.portAlignmentLoss p hi) s fun t =>
    ∃ q', port? t p = some q' ∧ q'.state ≠ .up ∧ q'.rf = false ∧ q'.leftUp = true ∧ ctrOf q'.ctr 40 = (ctrOf q.ctr 40).add 1 ∧
      ctrOf q'.ctr (if hi then 37 else 38) = (ctrOf q.ctr (if hi then 37 else 38)).add 1 ∧ PortsBut p s t) ∧
  (∀ (p n : Nat) (q : Port) (s : State), port? s p = some q → q.state = .up → q.rf = false → 0 < n → Runs (.remoteFaultReceived p n) s fun t =>
    port? t p = some { q with rf := true, ctr := ctrAdd q.ctr 22 n } ∧ PortsBut p s t) ∧
  (∀ (p : Nat) (q : Port) (s : State), port? s p = some q → q.state = .up → Runs (.remoteFaultClear p) s fun t =>
    port? t p = some { q with rf := false } ∧ PortsBut p s t) ∧
  (∀ (p n : Nat) (q : Port) (s : State), port? s p = some q → Runs (.localFaultReceived p n) s fun t =>
    port? t p = some { q with ctr := ctrAdd q.ctr 21 n } ∧ PortsBut p s t) ∧
  (∀ (p total corr unc sym err : Nat) (ls : List (List Nat)) (q : Port) (s : State), port? s p = some q → q.state = .up → q.degSet ≠ 0 → q.leftUp = false →
    0 < total → q.degSet * (544 * total) < (sym + 16 * unc) * 100000 → Runs (.fecDegradeWindow p total corr unc sym err ls) s fun t =>
      ∃ q', port? t p = some q' ∧ q'.degraded = true ∧ q'.clearWin = 0 ∧ ctrOf q'.ctr 32 = (ctrOf q.ctr 32).add total ∧
        ctrOf q'.ctr 34 = (ctrOf q.ctr 34).add unc ∧ PortsBut p s t) ∧
  (∀ (p total corr unc sym err : Nat) (ls : List (List Nat)) (q : Port) (s : State), port? s p = some q → q.state = .up → q.degSet ≠ 0 → q.leftUp = false →
    0 < total → (sym + 16 * unc) * 100000 ≤ q.degSet * (544 * total) → (sym + 16 * unc) * 100000 ≤ q.degClear * (544 * total) → q.degraded = true →
    q.clearWin = 9 → Runs (.fecDegradeWindow p total corr unc sym err ls) s fun t =>
      ∃ q', port? t p = some q' ∧ q'.degraded = false ∧ q'.clearWin = 0) ∧
  (∀ (id k : Nat) (c : Cmd) (s : State), Begins s id 0x10 c → portCreateBad c s = false → formLanes (c.byte 33) (c.byte 41) = some k →
    ((List.range' c.target k).any fun n => (lane s n).port.isSome) = false → railUp s 5 = true → railUp s 6 = true → initDone s 0 = true →
    c.byte 39 = 0 → qminFits (profile s) ((portQueues c.target).foldl (fun m i => mput m i { Queue.init with emptyAt := s.now }) s.buf.iq)
      s.buf.eq s.buf.ingReserve s.buf.egrMinPool = true → Runs (.portCreate id) s fun t =>
      (∃ q, port? t c.target = some q ∧ q.rate = c.byte 33 ∧ q.mode = c.byte 41 ∧ q.lanes = k ∧ q.maxFrame = c.inl 34 2 ∧ q.degSet = c.byte 37 ∧
        q.degClear = c.byte 38 ∧ q.deleting = false) ∧ (∀ r, r / 8 ≠ c.target / 8 → mfind t.ports.tab r = mfind s.ports.tab r) ∧
        ∀ n, c.target ≤ n → n < c.target + k → (lane t n).port = some c.target ∧ (lane t n).waitSlot = true ∧ (lane t n).opMode = c.byte 41) ∧
  (∀ (id : Nat) (c : Cmd) (q : Port) (s : State), Begins s id 0x11 c → c.target ≤ 255 → noFields c = true → port? s c.target = some q →
    Runs (.portDelete id) s fun t =>
      (port? t c.target = none ∨ ∃ q', port? t c.target = some q' ∧ q'.deleting = true) ∧ ∀ e, e ∈ t.buf.iq → e.1 / 8 ≠ c.target) ∧
  (∀ (id : Nat) (c : Cmd) (q : Port) (s : State), Begins s id 0x12 c → plainBad c 255 10 = false → c.byte 32 = 1 → c.byte 33 = 0 → c.byte 41 = 0 →
    portFieldBad c 0 = false → port? s c.target = some q →
    Does (.portSet id) id c s 0 0 fun x => x.mapPorts fun b => { b with tab := mput b.tab c.target { q with maxFrame := c.inl 34 2 } }) ∧
  (∀ (id : Nat) (c : Cmd) (q : Port) (s : State), Begins s id 0x13 c → counterBlockBad c 255 392 = false → clearWrapOn c = false →
    port? s c.target = some q → dmaAllowed s c.indAddr (portBlock s c.target).length = true →
    Does (.portStatus id) id c s 0 0 fun x => hostWrite c.indAddr (portBlock x c.target) x)

/-- With the cages live, a module that appears powers an ABSENT cage with its reset asserted; 25 ms later the reset is released in MGMT_INIT; a
report of low power reads the module, and without a port in the cage leaves LOW_POWER, with a wrong revision FAULT; a powered-up module
makes the cage READY. A missing report, a missing power-up and a data path that does not activate fault the cage with causes 1, 4 and 5.
Removal takes the cage to ABSENT with its power off, and a short pulse is only counted. DPActivated ends a data-path step. Other cages do
not change. -/
def Obligations.CageBringUpRows : Prop :=
  (∀ (n : Nat) (s : State), cageLive s = true → n < 32 → (cage s n).present = false → (cage s n).state = .absent → Runs (.modulePresent n) s fun t =>
    (cage t n).state = .powerOn ∧ (cage t n).present = true ∧ (cage t n).pwren = true ∧ (cage t n).rstAsserted = true ∧ CagesBut n s t ∧ t.lanes = s.lanes) ∧
  (∀ (n : Nat) (s : State), cageLive s = true → (cage s n).present = true → Runs (.moduleRemoval n) s fun t =>
    (cage t n).state = .absent ∧ (cage t n).present = false ∧ (cage t n).pwren = false ∧ (cage t n).i2c = [] ∧ (cage t n).apps = [] ∧
      (cage t n).info = none ∧ (cage t n).mediaCmd = none ∧ (cage t n).c2m = (cage s n).c2m ∧ CagesBut n s t) ∧
  (∀ (n : Nat) (s : State), cageLive s = true → (cage s n).present = true →
    exec (.prsGlitch n) s = .next (modCage n (fun g => { g with prsGlitch := g.prsGlitch.add 1 }) s)) ∧
  (∀ (n : Nat) (s : State), cageLive s = true → (cage s n).state = .powerOn →
    exec (.cagePowerOnDone n) s = .next (modCage n (fun g => { g with state := .mgmtInit, rstAsserted := false }) s)) ∧
  (∀ (n : Nat) (i : ModuleInfo) (s : State), cageLive s = true → (cage s n).state = .mgmtInit → i.revision = 5 → cagePorts s n = [] →
    Runs (.moduleLowPwrReport n i) s fun t =>
      (cage t n).state = .lowPower ∧ (cage t n).info = some i ∧ (cage t n).fastUsed = ((cage s n).fast && i.fast) ∧ CagesBut n s t) ∧
  (∀ (n : Nat) (i : ModuleInfo) (s : State), cageLive s = true → (cage s n).state = .mgmtInit → i.revision ≠ 5 →
    Runs (.moduleLowPwrReport n i) s fun t => (cage t n).state = .fault ∧ (cage t n).cause = 2 ∧ (cage t n).rstAsserted = true ∧ CagesBut n s t) ∧
  (∀ (n : Nat) (s : State), cageLive s = true → (cage s n).state = .mgmtInit → Runs (.mgmtInitTimeout n) s fun t =>
    (cage t n).state = .fault ∧ (cage t n).cause = 1 ∧ (cage t n).rstAsserted = true ∧ (cage t n).lpmLow = false ∧
      (cage t n).pwren = (cage s n).pwren ∧ CagesBut n s t) ∧
  (∀ (n : Nat) (s : State), cageLive s = true → (cage s n).state = .powerUp → cagePorts s n = [] → Runs (.moduleReady n) s fun t =>
    (cage t n).state = .ready ∧ CagesBut n s t) ∧
  (∀ (n : Nat) (s : State), cageLive s = true → (cage s n).state = .powerUp → Runs (.powerUpTimeout n) s fun t =>
    (cage t n).state = .fault ∧ (cage t n).cause = 4 ∧ CagesBut n s t) ∧
  (∀ (p : Nat) (q : Port) (s : State), cageLive s = true → port? s p = some q → q.dp = .waiting → Runs (.dpActivated p) s fun t =>
    port? t p = some { q with dp := .done } ∧ PortsBut p s t ∧ t.cages = s.cages) ∧
  (∀ (p : Nat) (q : Port) (s : State), cageLive s = true → port? s p = some q → q.dp = .waiting → (cage s (p / 8)).state = .ready →
    Runs (.dataPathTimeout p) s fun t => (cage t (p / 8)).state = .fault ∧ (cage t (p / 8)).cause = 5 ∧ CagesBut (p / 8) s t) ∧
  (∀ (i : Instr) (n : Nat) (s : State), cageLive s = false → i ∈ [Instr.cagePowerOnDone n, .mgmtInitTimeout n, .moduleReady n, .powerUpTimeout n, .prsGlitch n] →
    exec i s = .next s)

/-- A poll stores the 52 bytes of readings, a module interrupt without a flag changes nothing, and a module fault faults the cage with cause 7.
A transfer of a command that ends completes it, and a write's bytes are then in module memory; a failed transfer, of a command or of the
device's own, is tried three times and then faults the cage with cause 6. CAGE_SET applies speed and poll period at once, and a media change
of a cage without ports at once. CAGE_RESET powers a faulted cage on again. CAGE_READ and CAGE_WRITE queue a transfer to a module that can
be accessed, and a write that touches a managed control completes PERMISSION. CAGE_STATUS writes its block, and CAGE_FLAG_CLEAR empties the
list of latched flags. -/
def Obligations.CageServiceRows : Prop :=
  (∀ (n : Nat) (b : List Byte) (s : State), cageLive s = true → cageManaged (cage s n) = true → Runs (.cagePoll n b [] false) s fun t =>
    (cage t n).readings = (b ++ zeros 52).take 52 ∧ (cage t n).state = (cage s n).state ∧ CagesBut n s t ∧ t.ports = s.ports ∧ t.lanes = s.lanes) ∧
  (∀ (n : Nat) (s : State), cageLive s = true → cageManaged (cage s n) = true →
    exec (.moduleInterrupt n [] false) s = .next s ∧
    Runs (.moduleInterrupt n [] true) s fun t => (cage t n).state = .fault ∧ (cage t n).cause = 7 ∧ CagesBut n s t) ∧
  (∀ (n id : Nat) (data : List Byte) (x : CageXfer) (r : List CageXfer) (c : Cmd) (s : State), cageLive s = true → (cage s n).i2c = x :: r → x.cmd = some id →
    mfind s.fl.cmds id = some c → c.opcode ≠ 0xD2 → (cage s n).mediaCmd = none →
    exec (.i2cTransferComplete n data) s = .next (finish id .success 0 0 true (modCage n (wroteBy x) (modCage n (fun g => { g with i2c := r }) s)))) ∧
  (∀ (n id : Nat) (data : List Byte) (x : CageXfer) (r : List CageXfer) (c : Cmd) (s : State), cageLive s = true → (cage s n).i2c = x :: r → x.cmd = some id →
    mfind s.fl.cmds id = some c → c.opcode = 0xD2 → (cage s n).mediaCmd = none → exec (.i2cTransferComplete n data) s =
      .next (finish id .success 0 0 true (hostWrite c.indAddr ((data ++ zeros (c.byte 35)).take (c.byte 35))
        (modCage n (wroteBy x) (modCage n (fun g => { g with i2c := r }) s))))) ∧
  (∀ (n : Nat) (x : CageXfer) (r : List CageXfer) (s : State), cageLive s = true → (cage s n).i2c = x :: r → x.fails < 2 →
    exec (.i2cTransferFail n) s = .next (modCage n (fun g => { g with i2c := { x with fails := x.fails + 1 } :: r }) s)) ∧
  (∀ (n : Nat) (x : CageXfer) (r : List CageXfer) (s : State), cageLive s = true → (cage s n).i2c = x :: r → 2 ≤ x.fails → (cage s n).state = .ready →
    (cage s n).mediaCmd = none → Runs (.i2cTransferFail n) s fun t =>
      (cage t n).state = .fault ∧ (cage t n).cause = 6 ∧ (cage t n).i2c = [] ∧ CagesBut n s t) ∧
  (∀ (n : Nat) (s : State), cageLive s = true → (cage s n).i2c = [] → (cage s n).state = .mgmtInit ∨ cageManaged (cage s n) = true →
    (cage s n).mediaCmd = none → Runs (.i2cTransferFail n) s fun t =>
      if (cage s n).ownFails < 2 then (cage t n).ownFails = (cage s n).ownFails + 1 ∧ (cage t n).state = (cage s n).state
      else (cage t n).state = .fault ∧ (cage t n).cause = 6) ∧
  (∀ (id : Nat) (c : Cmd) (s : State), Begins s id 0xD0 c → plainBad c 31 5 = false → c.byte 32 = 4 → c.byte 35 = 0 → 1 ≤ c.byte 36 → c.byte 36 ≤ 0x64 →
    cageLive s = true → Runs (.cageSet id) s fun t =>
      (cage t c.target).poll = c.byte 36 ∧ (cage t c.target).fast = (cage s c.target).fast ∧ (cage t c.target).c2m = (cage s c.target).c2m ∧
        CagesBut c.target s t ∧ t.lanes = s.lanes) ∧
  (∀ (id : Nat) (c : Cmd) (s : State), Begins s id 0xD0 c → cageSetCheck c s = none → c.byte 32 = 1 → c.byte 33 = 1 → (cage s c.target).c2m = false →
    cageLive s = true → cagePorts s c.target = [] → Runs (.cageSet id) s fun t => (cage t c.target).c2m = true ∧ CagesBut c.target s t ∧ t.lanes = s.lanes) ∧
  (∀ (id : Nat) (c : Cmd) (s : State), Begins s id 0xD1 c → plainBad c 31 0 = false → cageLive s = true → (cage s c.target).state = .fault →
    Runs (.cageReset id) s fun t =>
      (cage t c.target).state = .powerOn ∧ (cage t c.target).cause = 0 ∧ (cage t c.target).pwren = true ∧ (cage t c.target).rstAsserted = true ∧
        CagesBut c.target s t) ∧
  (∀ (id : Nat) (c : Cmd) (s : State), Begins s id 0xD1 c → plainBad c 31 0 = false → cageLive s = true → (cage s c.target).state ≠ .fault →
    exec (.cageReset id) s = .next (finishFail id .busy (beginCmd id c s))) ∧
  (∀ (id : Nat) (c : Cmd) (s : State), Begins s id 0xD2 c → transferBad c = false → transferReady s c.target = true → dmaAllowed s c.indAddr c.indLen = true →
    exec (.cageRead id) s = .next (modCage c.target (fun g => { g with i2c := g.i2c ++ [xferOf id c []] }) (beginCmd id c s))) ∧
  (∀ (id : Nat) (b : List Byte) (c : Cmd) (i : ModuleInfo) (s : State), Begins s id 0xD3 c → transferBad c = false → (cage s c.target).info = some i →
    c.byte 35 ≤ i.maxWrite → transferReady s c.target = true → writesManaged c = false → b.length = c.byte 35 → dmaAllowed s c.indAddr c.indLen = true →
    exec (.cageWrite id (.data b)) s =
      .next (modCage c.target (fun g => { g with i2c := g.i2c ++ [xferOf id c b] }) (beginCmd id c s))) ∧
  (∀ (id : Nat) (h : HostRead) (c : Cmd) (s : State), Begins s id 0xD3 c → transferBad c = false → (cage s c.target).info = none →
    transferReady s c.target = true → writesManaged c = true → exec (.cageWrite id h) s = .next (finishFail id .permission (beginCmd id c s))) ∧
  (∀ (id : Nat) (c : Cmd) (s : State), Begins s id 0xD4 c → counterBlockBad c 31 320 = false → s.bed.cageHeld = false → clearWrapOn c = false →
    dmaAllowed s c.indAddr (cageBlock s c.target).length = true →
    Does (.cageStatus id) id c s 0 0 fun x => hostWrite c.indAddr (cageBlock x c.target) x) ∧
  (∀ (id : Nat) (c : Cmd) (s : State), Begins s id 0xD5 c → plainBad c 31 0 = false → s.bed.cageHeld = false →
    Does (.cageFlagClear id) id c s 0 0 (modCage c.target fun g => { g with flags := [] }))

/-- A pair in PAGE sends its own page. A valid page that names this pair is held with the leader chosen, the link's PROTO and low-power terms
taken; an invalid page is only counted. The leader starts step 2a after its last burst, a follower with the first good frame of step 2. The
end of this end's frames of a phase moves to the next phase, where the hybrid is tuned and the echo blocks are placed, or fails it where its
condition is not met. In step 4 a ready bit that clears stops the countdown. A failed phase counts TRAIN_FAIL and one failure, and quiets
the pair; QUIET ends in PAGE, or after three failures in FAILED. Other pairs do not change. -/
def Obligations.PageAndTrainingRows : Prop :=
  (∀ (n i : Nat) (s : State), (pair s n i).state = .page → (pair s n i).wait2a = false → (pair s n i).lastBurst = false → Runs (.pageBurstSend n i) s fun t =>
    (pair t n i).sentPage = ownPage s n i ∧ (pair t n i).line = pageBurst (ownPage s n i) ∧ (pair t n i).state = .page ∧
      (pair t n i).nonce = (pair s n i).nonce ∧ PairsBut n i s t) ∧
  (∀ (n i : Nat) (s : State), (pair s n i).page = [] → (ownPage s n i).length = 32) ∧
  (∀ (n i : Nat) (b : List Byte) (s : State), (pair s n i).state = .page → pageValid b = true → byteAt b 3 = kindIndex n i → (link s n).accepted = [] →
    byteAt b 1 = 2 → wireAt b 4 4 ≠ (pair s n i).nonce.toNat → Runs (.pageFrameReceive n i b) s fun t =>
      (pair t n i).page = b ∧ (pair t n i).leader = decide (wireAt b 4 4 < (pair s n i).nonce.toNat) ∧ (link t n).proto = slice b 16 8 ∧
        (link t n).peerMin = byteAt b 13 ∧ (link t n).lpi = (bitOf (byteAt b 12) 6 && (link s n).set.lpiEn) ∧ PairsBut n i s t) ∧
  (∀ (n i : Nat) (b : List Byte) (s : State), (pair s n i).state = .page → pageValid b = false →
    exec (.pageFrameReceive n i b) s = .next (pairCount n i 3 1 s)) ∧
  (∀ (n i : Nat) (s : State), (pair s n i).state = .page → (pair s n i).wait2a = true →
    exec (.followerStep2Timeout n i) s = .next (modPair n i (fun p => { p with wait2a := false, resumed := true }) s)) ∧
  (∀ (n i : Nat) (s : State), (pair s n i).state = .page → (pair s n i).leader = true → (pair s n i).lastBurst = true → Runs (.trainingStep2aStart n i) s fun t =>
    (pair t n i).state = .train ∧ (pair t n i).phase = .p2a ∧ PairsBut n i s t) ∧
  (∀ (n i w : Nat) (rx ec : Bool) (m : PairMeas) (s : State), statusOk w = false → exec (.trainingFrameReceive n i w rx ec m) s = .next s) ∧
  (∀ (n i w : Nat) (rx ec : Bool) (m : PairMeas) (s : State), statusOk w = true → stepOf w = 2 → w.testBit 25 = false → (pair s n i).state = .page →
    (pair s n i).leader = false → (pair s n i).page ≠ [] → (pair s n i).ackSent = true → Runs (.trainingFrameReceive n i w rx ec m) s fun t =>
      (pair t n i).state = .train ∧ (pair t n i).phase = .p2a ∧ PairsBut n i s t) ∧
  (∀ (n i w : Nat) (ec : Bool) (m : PairMeas) (s : State), statusOk w = true → stepOf w = 4 → w.testBit 25 = false → (pair s n i).state = .train →
    (pair s n i).phase = .p4 → Runs (.trainingFrameReceive n i w false ec m) s fun t =>
      (pair t n i).count = none ∧ (pair t n i).both = 0 ∧ (pair t n i).state = .train ∧ PairsBut n i s t) ∧
  (∀ (n i : Nat) (rx ec : Bool) (m : PairMeas) (s : State), (pair s n i).state = .train → (pair s n i).leader = true → (pair s n i).phase = .p2a →
    Runs (.trainingPhaseEnd n i rx ec m) s fun t =>
      (pair t n i).state = .train ∧ (pair t n i).phase = .p2b ∧ (pair t n i).depth = m.depth ∧ (pair t n i).eq.balance = m.eq.balance ∧ PairsBut n i s t) ∧
  (∀ (n i : Nat) (m : PairMeas) (s : State), (pair s n i).state = .train → (pair s n i).leader = false → (pair s n i).phase = .p3b →
    Runs (.trainingPhaseEnd n i true true m) s fun t =>
      (pair t n i).phase = .p4 ∧ (pair t n i).echo = (m.echo ++ List.replicate 2048 0).take 2048 ∧
        ((pair t n i).block1, (pair t n i).block2) = echoBlocks m.echo ∧ PairsBut n i s t) ∧
  (∀ (n i : Nat) (ec : Bool) (m : PairMeas) (s : State), (pair s n i).state = .train → (pair s n i).leader = false → (pair s n i).phase = .p2b →
    Runs (.trainingPhaseEnd n i false ec m) s fun t =>
      (pair t n i).state = .quiet ∧ ctrOf (pair t n i).ctr 4 = (ctrOf (pair s n i).ctr 4).add 1) ∧
  (∀ (n i : Nat) (s : State), (pair s n i).state = .train → Runs (.trainingPhaseFail n i) s fun t =>
    (pair t n i).state = .quiet ∧ ctrOf (pair t n i).ctr 4 = (ctrOf (pair s n i).ctr 4).add 1 ∧
      (pair t n i).fails = (if (pair s n i).froze then (pair s n i).fails else (pair s n i).fails + 1)) ∧
  (∀ (n i : Nat) (s : State), (pair s n i).state = .quiet → 3 ≤ (pair s n i).fails → Runs (.quietEnd n i) s fun t =>
    (pair t n i).state = .failed ∧ t.health.causes.getLsbD 10 = true ∧ PairsBut n i s t) ∧
  (∀ (n i : Nat) (s : State), (pair s n i).state = .quiet → (pair s n i).fails < 3 → Runs (.quietEnd n i) s fun t =>
    (pair t n i).state = .page ∧ (pair t n i).page = [] ∧ (pair t n i).fails = (pair s n i).fails ∧ PairsBut n i s t) ∧
  (∀ (n i : Nat) (s : State), (pair s n i).state = .retrain → (pair s n i).phase = .rest → Runs (.retrainQuietEnd n i) s fun t =>
    (pair t n i).state = .retrain ∧ (pair t n i).phase = (if (pair s n i).leader then .p3a else .await) ∧ PairsBut n i s t)

/-- Under the shrink conditions the highest ACTIVE pair is proposed for sleep with one LINK_CTRL record; under the grow condition the lowest
sleeping pair wakes, and otherwise none does. At the agreed boundary a pair enters SLEEP_ENTRY, or SLEEP when the partner's marker has come.
The leader refreshes a sleeping pair; while adaptation is frozen the refresh stays pending. A confirmed preamble wakes a sleeping pair, a
false one is counted. Both START markers make a waking pair ACTIVE. The third failed wake, a loss and a low SNR retrain the pair with their
cause. Standard-engine pairs are acquired and lost, and Local Fault takes the link down. -/
def Obligations.PairSleepAndLossRows : Prop :=
  (∀ (n i tx rx : Nat) (s : State), lpiOn s n = true → (link s n).test = 0 → (link s n).propose = none → (link s n).sleepAt = none →
    max tx rx * 100 < (link s n).set.shrink * (((activePairs s n).length - 1) * 207660 * (link s n).set.window) →
    max 1 (effMin s n) ≤ (activePairs s n).length - 1 → highestActive s n = some i → lowestPair s n ≠ some i → (pair s n i).agreed = false →
    Runs (.lpiShrinkTest n tx rx) s fun t =>
      (link t n).propose = some i ∧ (link t n).ctl = (link s n).ctl ++ [[0x51, 1, BitVec.ofNat 8 i, 0, 0, 0, 0, 0]] ∧ LinksBut n s t) ∧
  (∀ (n i tx rx : Nat) (s : State), growMet s n tx rx = true → lowestAsleep s n = some i → (pair s n i).state = .sleep → Runs (.lpiGrowTest n tx rx) s fun t =>
    (pair t n i).state = .waking ∧ (pair t n i).tries = 0 ∧ ctrOf (pair t n i).ctr 6 = (ctrOf (pair s n i).ctr 6).add 1 ∧ PairsBut n i s t) ∧
  (∀ (n tx rx : Nat) (s : State), growMet s n tx rx = false → exec (.lpiGrowTest n tx rx) s = .next s) ∧
  (∀ (n i : Nat) (s : State), (pair s n i).state = .active → (pair s n i).agreed = true → Runs (.sleepEntry n i) s fun t =>
    (link t n).sleepAt = some s.now ∧
      ((pair s n i).marker = false → (pair t n i).state = .sleepEntry) ∧
      ((pair s n i).marker = true → (pair s n i).wakeDue = false → (pair t n i).state = .sleep ∧ (pair t n i).sleptAt = s.now) ∧ PairsBut n i s t) ∧
  (∀ (n i : Nat) (s : State), (pair s n i).state = .sleep → (pair s n i).leader = true → s.bed.boActive = false → Runs (.refreshDue n i) s fun t =>
    (pair t n i).state = .refresh ∧ ctrOf (pair t n i).ctr 9 = (ctrOf (pair s n i).ctr 9).add 1 ∧ PairsBut n i s t) ∧
  (∀ (n i : Nat) (s : State), (pair s n i).state = .sleep → (pair s n i).leader = true → s.bed.boActive = true →
    exec (.refreshDue n i) s = .next (modPair n i (fun p => { p with refreshDue := true }) s)) ∧
  (∀ (n i : Nat) (s : State), (pair s n i).state = .sleep → Runs (.preambleDetect n i true false) s fun t =>
    (pair t n i).state = .waking ∧ PairsBut n i s t) ∧
  (∀ (n i : Nat) (r : Bool) (s : State), (pair s n i).state = .sleep →
    exec (.preambleDetect n i false r) s = .next (modPair n i (fun p => { p with detecting := true }) s)) ∧
  (∀ (n i : Nat) (s : State), (pair s n i).state = .sleep → (pair s n i).detecting = true → Runs (.falseWakeAbandon n i) s fun t =>
    (pair t n i).state = .sleep ∧ (pair t n i).detecting = false ∧ ctrOf (pair t n i).ctr 8 = (ctrOf (pair s n i).ctr 8).add 1 ∧ PairsBut n i s t) ∧
  (∀ (n i : Nat) (s : State), (pair s n i).state = .waking → (pair s n i).startRx = true → (many s.fl.cmds fun _ c => decide (c.opcode = 0x32)) = false →
    Runs (.startMarkerReceive n i true) s fun t => (pair t n i).state = .active ∧ (pair t n i).fails = 0) ∧
  (∀ (n i : Nat) (s : State), (pair s n i).state = .waking → (pair s n i).startRx = false →
    Runs (.startMarkerReceive n i true) s fun t => (pair t n i).startTx = true ∧ (pair t n i).startRx = false ∧ (pair t n i).state = .waking ∧ PairsBut n i s t) ∧
  (∀ (n i : Nat) (s : State), (pair s n i).state = .waking → (pair s n i).tries < 2 →
    exec (.wakeTimeout n i) s = .next (modPair n i (fun p => { p with tries := p.tries + 1, startRx := false, startTx := false }) s)) ∧
  (∀ (n i : Nat) (s : State), (pair s n i).state = .waking → 2 ≤ (pair s n i).tries → Runs (.wakeTimeout n i) s fun t =>
    (pair t n i).state = .retrain ∧ ctrOf (pair t n i).ctr 7 = (ctrOf (pair s n i).ctr 7).add 1 ∧ PairsBut n i s t) ∧
  (∀ (n i : Nat) (align : Bool) (s : State), (pair s n i).state = .active → Runs (.pairLoss n i align) s fun t =>
    (pair t n i).state = .retrain ∧ (pair t n i).phase = .rest ∧ (pair t n i).loss = (if align then 2 else 1) ∧ LinksBut n s t) ∧
  (∀ (n i : Nat) (s : State), (pair s n i).state = .active → Runs (.snrRetrain n i) s fun t =>
    (pair t n i).state = .retrain ∧ (pair t n i).loss = 3 ∧ PairsBut n i s t) ∧
  (∀ (n i : Nat) (s : State), (pair s n i).state = .stdLost → Runs (.stdPairAcquired n i) s fun t => (pair t n i).state = .stdAcquired ∧ PairsBut n i s t) ∧
  (∀ (n i : Nat) (s : State), (pair s n i).state = .stdAcquired → Runs (.stdPairLost n i) s fun t => (pair t n i).state = .stdLost ∧ PairsBut n i s t) ∧
  (∀ (n : Nat) (s : State), stdMode s n = true → (link s n).running = true → (link s n).ending = none → Runs (.stdLinkLocalFault n true) s fun t =>
    (link t n).stdFault = true ∧ (link t n).up = false ∧ (link t n).ending = some (link s n).up ∧ LinksBut n s t)

/-- GARNET_SET with one field selected changes that field of that link, or of the device, and nothing else. GARNET_RESTART clears the link's
counters and leaves its protocol ended. GARNET_RETRAIN of an ACTIVE pair beside another begins the retrain with cause 4. GARNET_STATUS
writes its block. GARNET_TDR of an ACTIVE pair writes the fresh block. GARNET_DIAG START puts the link in test and ends its protocol, STOP
without a test changes nothing, and READ without a test completes NOT_READY. -/
def Obligations.GarnetCommands : Prop :=
  (∀ (id : Nat) (c : Cmd) (s : State), Begins s id 0x30 c → garnetSetBad c = false → c.target < 64 → c.inl 32 4 = 1 →
    Does (.garnetSet id) id c s 0 0 (modLink c.target fun l => { l with set := { l.set with swing := c.inl 36 1 } })) ∧
  (∀ (id : Nat) (c : Cmd) (s : State), Begins s id 0x30 c → garnetSetBad c = false → c.target = 0x100 → c.inl 32 4 = 2 →
    Does (.garnetSet id) id c s 0 0 fun x => x.mapGar fun g => { g with hashSeed := BitVec.ofNat 32 (c.inl 40 4) }) ∧
  (∀ (id : Nat) (c : Cmd) (s : State), Begins s id 0x31 c → linkTarget c.target = true → noFields c = true → geodeOff c s = false →
    Runs (.garnetRestart id) s fun t =>
      (link t c.target).ctr = [] ∧ (link t c.target).violations = Ctr.init ∧ (link t c.target).running = false ∧ (link t c.target).up = false ∧
        (link t c.target).set = (link s c.target).set ∧ LinksBut c.target s t) ∧
  (∀ (id : Nat) (c : Cmd) (s : State), Begins s id 0x32 c → pairBad c = false → c.indLen = 0 → stdMode s c.target = false → geodeOff c s = false →
    (pair s c.target (c.byte 32)).state = .active → activePairs s c.target ≠ [c.byte 32] → Runs (.garnetRetrain id) s fun t =>
      (pair t c.target (c.byte 32)).state = .retrain ∧ (pair t c.target (c.byte 32)).loss = 4 ∧ PairsBut c.target (c.byte 32) s t) ∧
  (∀ (id : Nat) (c : Cmd) (s : State), Begins s id 0x32 c → pairBad c = false → c.indLen = 0 → stdMode s c.target = false →
    (pair s c.target (c.byte 32)).state.unready = true → exec (.garnetRetrain id) s = .next (finishFail id .notReady (beginCmd id c s))) ∧
  (∀ (id : Nat) (ms : List PairMeas) (c : Cmd) (s : State), Begins s id 0x33 c → linkTarget c.target = true →
    counterBlockBad c geodeLink (176 + 128 * pairsOf c.target) = false → clearWrapOn c = false →
    dmaAllowed s c.indAddr (garnetBlock s c.target).length = true → Does (.garnetStatus id ms) id c s 0 0 fun x =>
      hostWrite c.indAddr (garnetBlock (linkAdapt c.target 0 ms x) c.target) (linkAdapt c.target 0 ms x)) ∧
  (∀ (id : Nat) (m : PairMeas) (c : Cmd) (s : State), Begins s id 0x34 c → pairBad c = false → 4168 ≤ c.indLen → stdMode s c.target = false →
    geodeOff c s = false → dmaAllowed s c.indAddr 4168 = true → (pair s c.target (c.byte 32)).state = .active →
    (many (beginCmd id c s).fl.cmds fun j d => decide (j ≠ id) && decide (d.opcode = 0x34) && decide (d.target = c.target) &&
      decide (d.phase = .executing)) = false →
    Does (.garnetTdr id m) id c s 0 0 fun x => hostWrite c.indAddr (tdrBlock (c.byte 32) false (pairT0 x c.target (c.byte 32))
      (link x c.target).set.velocity m.features m.echo) x) ∧
  (∀ (id : Nat) (n : List (Nat × Nat)) (c : Cmd) (s : State), Begins s id 0x35 c → linkTarget c.target = true → c.byte 32 = 1 → c.inlZero 33 31 = true →
    c.indLen = 0 → geodeOff c s = false → (link s c.target).set.loopback = 0 → Runs (.garnetDiag id n) s fun t =>
      (link t c.target).test = 1 ∧ (link t c.target).running = false ∧ (link t c.target).up = false ∧ LinksBut c.target s t) ∧
  (∀ (id : Nat) (n : List (Nat × Nat)) (c : Cmd) (s : State), Begins s id 0x35 c → linkTarget c.target = true → c.byte 32 = 0 → c.inlZero 33 31 = true →
    c.indLen = 0 → geodeOff c s = false → (link s c.target).test = 0 → Does (.garnetDiag id n) id c s 0 0 fun x => x) ∧
  (∀ (id : Nat) (n : List (Nat × Nat)) (c : Cmd) (s : State), Begins s id 0x35 c → linkTarget c.target = true → c.byte 32 = 3 → c.inlZero 33 31 = true →
    128 ≤ c.indLen → (link s c.target).test = 0 → exec (.garnetDiag id n) s = .next (finishFail id .notReady (beginCmd id c s)))

/-- A flit on a pair that is not ACTIVE is nothing. One with a bit in an uncorrectable codeword is discarded, and one that fails its length or
CRC is counted, and nothing of either is taken. A good DATA flit with the expected SEQ advances E and leaves NAK_WAIT; one ahead is held, or
counted in NAK_WAIT; one behind is counted as a duplicate. The reorder timer enters NAK_WAIT and forgets held flits. The acknowledge timer
starts a replay of every unacknowledged flit. FLIT_SEND sends a replayed flit first, then a new flit with the ready records and PAD,
otherwise IDLE. The end of the protocol forgets what was in flight. Other links do not change. -/
def Obligations.FlitRows : Prop :=
  (∀ (n i a b c : Nat) (f : List Byte) (hit : Bool) (s : State), (pair s n i).state ≠ .active → exec (.flitReceive n i f a b c hit) s = .next s) ∧
  (∀ (n i a b c : Nat) (f : List Byte) (s : State), (pair s n i).state = .active → (link s n).set.loopback ≠ 1 →
    Runs (.flitReceive n i f a b c true) s fun t =>
      (link t n).e = (link s n).e ∧ (link t n).recs = (link s n).recs ∧ (link t n).a = (link s n).a ∧ (link t n).ctr = (link s n).ctr ∧
        ctrOf (pair t n i).ctr 2 = (ctrOf (pair s n i).ctr 2).add c ∧ PairsBut n i s t) ∧
  (∀ (n i a b c : Nat) (f : List Byte) (s : State), (pair s n i).state = .active → (link s n).running = true → (link s n).set.loopback ≠ 1 →
    (f.length ≠ 256 ∨ wireAt f 252 4 ≠ (crc32c (f.take 252)).toNat) → Runs (.flitReceive n i f a b c false) s fun t =>
      (link t n).e = (link s n).e ∧ (link t n).recs = (link s n).recs ∧ (link t n).a = (link s n).a ∧
        ctrOf (link t n).ctr 2 = (ctrOf (link s n).ctr 2).add 1 ∧ ctrOf (pair t n i).ctr 0 = (ctrOf (pair s n i).ctr 0).add a ∧
        ctrOf (pair t n i).ctr 1 = (ctrOf (pair s n i).ctr 1).add b ∧ ctrOf (pair t n i).ctr 2 = (ctrOf (pair s n i).ctr 2).add c ∧ PairsBut n i s t) ∧
  (∀ (n i a b c : Nat) (f : List Byte) (s : State), (pair s n i).state = .active → (link s n).running = true → (link s n).set.loopback ≠ 1 → f.length = 256 →
    wireAt f 252 4 = (crc32c (f.take 252)).toNat → wireAt f 0 4 / 2 ^ 19 % 4 = 0 → wireAt f 0 4 % 256 = 0xFF →
    wireAt f 0 4 / 2 ^ 21 = (link s n).e → (link s n).ahead = [] → (link s n).part = [] → Runs (.flitReceive n i f a b c false) s fun t =>
      (link t n).e = ((link s n).e + 1) % 2048 ∧ (link t n).nakWait = false ∧ (link t n).recs = (link s n).recs ∧
        ctrOf (link t n).ctr 1 = (ctrOf (link s n).ctr 1).add 1 ∧ LinksBut n s t) ∧
  (∀ (n i a b c d : Nat) (f : List Byte) (s : State), (pair s n i).state = .active → (link s n).running = true → (link s n).set.loopback ≠ 1 → f.length = 256 →
    wireAt f 252 4 = (crc32c (f.take 252)).toNat → wireAt f 0 4 / 2 ^ 19 % 4 = 0 → wireAt f 0 4 % 256 = 0xFF →
    (wireAt f 0 4 / 2 ^ 21 + 2048 - (link s n).e) % 2048 = d → d ≠ 0 → Runs (.flitReceive n i f a b c false) s fun t =>
      (link t n).e = (link s n).e ∧ (link t n).recs = (link s n).recs ∧ (link t n).nakWait = (link s n).nakWait ∧
        ((link s n).nakWait = true → ctrOf (link t n).ctr 4 = (ctrOf (link s n).ctr 4).add 1 ∧ (link t n).ahead = (link s n).ahead) ∧
        ((link s n).nakWait = false → 1024 ≤ d → ctrOf (link t n).ctr 3 = (ctrOf (link s n).ctr 3).add 1 ∧ (link t n).ahead = (link s n).ahead) ∧
        ((link s n).nakWait = false → d < 1024 → mhas (link t n).ahead (wireAt f 0 4 / 2 ^ 21) = true) ∧ LinksBut n s t) ∧
  (∀ (n : Nat) (s : State), (link s n).running = true → (link s n).nakWait = false → (link s n).ahead ≠ [] → Runs (.reorderTimeout n) s fun t =>
    (link t n).nakWait = true ∧ (link t n).ahead = [] ∧ (link t n).e = (link s n).e ∧
      ctrOf (link t n).ctr 5 = (ctrOf (link s n).ctr 5).add 1 ∧ LinksBut n s t) ∧
  (∀ (n : Nat) (s : State), (link s n).nakWait = true → exec (.renakTimeout n) s = .next (linkCount n 5 1 s)) ∧
  (∀ (n : Nat) (s : State), (link s n).running = true → (link s n).replay ≠ [] → (link s n).resend = [] → activePairs s n ≠ [] →
    (link s n).replays < 8 → Runs (.ackTimeout n) s fun t =>
      (link t n).resend = (link s n).replay ∧ (link t n).replays = (link s n).replays + 1 ∧ (link t n).a = (link s n).a ∧
        ctrOf (link t n).ctr 7 = (ctrOf (link s n).ctr 7).add 1 ∧ LinksBut n s t) ∧
  (∀ (n : Nat) (s : State), activePairs s n = [] → exec (.ackTimeout n) s = .next s) ∧
  (∀ (n : Nat) (s : State), (link s n).ending ≠ none → (link s n).running = true → Runs (.protocolEnd n) s fun t =>
    (link t n).running = false ∧ (link t n).up = false ∧ (link t n).ending = none ∧ (link t n).replay = [] ∧ (link t n).ahead = [] ∧
      (link t n).part = [] ∧ (link t n).inq = (link s n).inq.map (· + 1024) ∧ LinksBut n s t) ∧
  (∀ (n i : Nat) (f : Flit) (r : List Flit) (s : State), (pair s n i).state = .active → (link s n).running = true → stdMode s n = false →
    (link s n).resend = f :: r → Runs (.flitSend n i) s fun t =>
      (link t n).resend = r ∧ (link t n).lastFlit = flitBytes (link s n) f.seq f.first f.payload ∧ (link t n).next = (link s n).next ∧
        ctrOf (link t n).ctr 8 = (ctrOf (link s n).ctr 8).add 1 ∧ LinksBut n s t) ∧
  (∀ (n i : Nat) (s : State), (pair s n i).state = .active → (link s n).running = true → stdMode s n = false → (link s n).resend = [] →
    (link s n).up = false → exec (.flitSend n i) s =
      .next (flitOut n i (flitBytes (link s n) (link s n).next 0xFD (zeros 248)) s)) ∧
  (∀ (n i : Nat) (r : List Byte) (s : State), (pair s n i).state = .active → (link s n).running = true → stdMode s n = false →
    (link s n).resend = [] → (link s n).up = true → (link s n).replay.length < 1024 → (link s n).txPart = [] → (link s n).ctl = [r] →
    (link s n).resp = [] → (link s n).pkt = none → r ≠ [] → r.length < 248 → byteAt r 0 ≠ 0x51 → Runs (.flitSend n i) s fun t =>
      (link t n).ctl = [] ∧ (link t n).next = ((link s n).next + 1) % 2048 ∧
        (link t n).replay = (link s n).replay ++ [{ seq := (link s n).next, first := 0, payload := r ++ zeros (248 - r.length) }] ∧
        ctrOf (link t n).ctr 0 = (ctrOf (link s n).ctr 0).add 1 ∧ LinksBut n s t)

/-- A packet record leaves the delivered records. One whose header fails a check is counted and enters no queue; one without credit violates it
and enters no queue; otherwise its credits are used and returned at once, and a packet for no queue is counted. A lookup request with a free
tag joins the input queue; with a tag in flight it is counted only. A CREDIT record advances a limit and never turns it back. The advertised
limit is the credits freed plus the link's share while ingress runs. A credit stall begins an episode once. A sleep proposal, its
acceptance, its refusal and its timeout end an open proposal; an echo request is answered and an echo response measured; an outer frame is
taken or sent: each of these answers a next state. -/
def Obligations.LinkRecords : Prop :=
  (∀ (n draw td : Nat) (room : List Nat) (r : List Byte) (s : State), (link s n).recs.find? (isType 0x11) = some r → headerBad (r.take 16) = true →
    Runs (.packetRecordReceive n draw td room) s fun t =>
      ctrOf (link t n).ctr 10 = (ctrOf (link s n).ctr 10).add 1 ∧ t.buf = s.buf ∧ (link t n).recs = (link s n).recs.erase r ∧
        (link t n).arrived = (link s n).arrived + BitVec.ofNat 32 (min (cellsOf (hdrLen (r.take 16))) (creditRoom (link s n))) ∧ LinksBut n s t) ∧
  (∀ (n draw td : Nat) (room : List Nat) (r : List Byte) (s : State), n ≠ geodeLink → (link s n).recs.find? (isType 0x11) = some r → headerBad (r.take 16) = false →
    creditRoom (link s n) < cellsOf (hdrLen (r.take 16)) → Runs (.packetRecordReceive n draw td room) s fun t =>
      (link t n).violations = (link s n).violations.add 1 ∧ t.buf = s.buf ∧ (link t n).arrived = (link s n).arrived ∧ LinksBut n s t) ∧
  (∀ (n draw td : Nat) (room : List Nat) (r : List Byte) (s : State), (link s n).recs.find? (isType 0x11) = some r → headerBad (r.take 16) = false →
    cellsOf (hdrLen (r.take 16)) ≤ creditRoom (link s n) → queue? s true (hdrEq (r.take 16)) = none → Runs (.packetRecordReceive n draw td room) s fun t =>
      ctrOf (link t n).ctr 11 = (ctrOf (link s n).ctr 11).add 1 ∧ t.buf = s.buf ∧
        (link t n).arrived = (link s n).arrived + BitVec.ofNat 32 (cellsOf (hdrLen (r.take 16))) ∧
        (link t n).freed = (link s n).freed + BitVec.ofNat 32 (cellsOf (hdrLen (r.take 16))) ∧ LinksBut n s t) ∧
  (∀ (n draw td : Nat) (room : List Nat) (r : List Byte) (x : Queue) (s : State), (link s n).recs.find? (isType 0x11) = some r → headerBad (r.take 16) = false →
    cellsOf (hdrLen (r.take 16)) ≤ creditRoom (link s n) → queue? s true (hdrEq (r.take 16)) = some x → egressRuns' s (hdrEq (r.take 16)) = true →
    (profile s x.prof).wred = 0 → x.depth + cellsOf (r.drop 16).length ≤ (profile s x.prof).qmax * 16 → (profile s x.prof).spill = false →
    cellsOf (r.drop 16).length + x.od ≤ (profile s x.prof).qmin → Runs (.packetRecordReceive n draw td room) s fun t =>
      (∃ y, queue? t true (hdrEq (r.take 16)) = some y ∧ y.pkts.length = x.pkts.length + 1 ∧
        (y.pkts.getLast?).map (·.bytes) = some (r.drop 16) ∧ (y.pkts.getLast?).map (·.since) = some s.now) ∧
      t.buf.iq = s.buf.iq ∧ (link t n).freed = (link s n).freed + BitVec.ofNat 32 (cellsOf (hdrLen (r.take 16))) ∧ LinksBut n s t) ∧
  (∀ (n : Nat) (r : List Byte) (s : State), (link s n).recs.find? (isType 0x21) = some r → mhas (link s n).lookups (wireAt r 2 2 % 1024) = false →
    Runs (.lookupReqReceive n) s fun t =>
      (link t n).inq = (link s n).inq ++ [wireAt r 2 2 % 1024] ∧ (link t n).recs = (link s n).recs.erase r ∧
        mfind (link t n).lookups (wireAt r 2 2 % 1024) = some { Lookup.init with req := r, table := byteAt r 4 } ∧ LinksBut n s t) ∧
  (∀ (n : Nat) (r : List Byte) (s : State), (link s n).recs.find? (isType 0x21) = some r → mhas (link s n).lookups (wireAt r 2 2 % 1024) = true →
    Runs (.lookupReqReceive n) s fun t =>
      (link t n).inq = (link s n).inq ∧ (link t n).lookups = (link s n).lookups ∧ ctrOf (link t n).ctr 15 = (ctrOf (link s n).ctr 15).add 1 ∧
        LinksBut n s t) ∧
  (∀ (n : Nat) (r : List Byte) (s : State), (link s n).recs.find? (isType 0x41) = some r → byteAt r 1 = 1 → Runs (.creditReceive n) s fun t =>
    (link t n).credSeen = true ∧ (link t n).used = (link s n).used ∧
      mget (link t n).limit 0 0 = (if (BitVec.ofNat 32 (wireAt r 4 4) - mget (link s n).limit 0 0).toNat < 2 ^ 31
        then BitVec.ofNat 32 (wireAt r 4 4) else mget (link s n).limit 0 0) ∧
      (∀ k, k ≠ 0 → mfind (link t n).limit k = mfind (link s n).limit k) ∧ LinksBut n s t) ∧
  (∀ (n : Nat) (s : State), n < 64 → (link s n).up = true → ingressRuns s = true →
    ((link s n).freed + BitVec.ofNat 32 (link s n).set.credits - (link s n).adv).toNat < 2 ^ 31 → Runs (.creditAdvertise n) s fun t =>
      (link t n).adv = (link s n).freed + BitVec.ofNat 32 (link s n).set.credits ∧
        (link t n).ctl = (link s n).ctl ++ [[0x41, 1, 0, 0] ++ beBytes 4 ((link s n).freed + BitVec.ofNat 32 (link s n).set.credits).toNat ++ zeros 32] ∧
        LinksBut n s t) ∧
  (∀ (n : Nat) (s : State), n < 64 → (link s n).up = true → ingressRuns s = false → Runs (.creditAdvertise n) s fun t =>
    (link t n).adv = (link s n).adv ∧ LinksBut n s t) ∧
  (∀ (n : Nat) (s : State), (link s n).up = false → exec (.creditAdvertise n) s = .next s) ∧
  (∀ (n k : Nat) (s : State), n < 64 → k < 8 → (link s n).stalls.contains k = false → creditStalled s n k = false →
    exec (.creditWatchdog n k) s = .next s) ∧
  (∀ (n k : Nat) (s : State), n < 64 → k < 8 → (link s n).stalls.contains k = false → creditStalled s n k = true →
    Runs (.creditWatchdog n k) s fun t =>
      (link t n).stalls = linsert (link s n).stalls k ∧ ctrOf (link t n).ctr 12 = (ctrOf (link s n).ctr 12).add 1 ∧ t.buf.eq = s.buf.eq) ∧
  (∀ (n tx rx : Nat) (r : List Byte) (s : State), (link s n).recs.find? (isCtl 1) = some r → (link s n).propose = some (byteAt r 2) →
    (pair s n (byteAt r 2)).state = .active → ∃ t, exec (.sleepProposeReceive n tx rx) s = .next t ∧ (link t n).propose = none) ∧
  (∀ (n : Nat) (r : List Byte) (s : State), (link s n).recs.find? (isCtl 2) = some r → (link s n).propose = some (byteAt r 2) →
    (pair s n (byteAt r 2)).state = .active → ∃ t, exec (.sleepAcceptReceive n) s = .next t ∧ (link t n).propose = none) ∧
  (∀ (n : Nat) (r : List Byte) (s : State), (link s n).recs.find? (isCtl 3) = some r → (link s n).propose = some (byteAt r 2) →
    ∃ t, exec (.sleepRefuseReceive n) s = .next t ∧ (link t n).propose = none) ∧
  (∀ (n k : Nat) (s : State), (link s n).propose = some k → ∃ t, exec (.sleepProposeTimeout n) s = .next t ∧ (link t n).propose = none) ∧
  (∀ (n : Nat) (r : List Byte) (s : State), (link s n).recs.find? (isCtl 4) = some r → ∃ t, exec (.echoReqReceive n) s = .next t ∧
    (link t n).ctl.getLast? = some (ctlRecord 5 0 (slice r 4 4))) ∧
  (∀ (r : List Byte) (e : Nat) (s : State), (link s geodeLink).recs.find? (isCtl 5) = some r → s.geo.echoAt = some e →
    ∃ t, exec (.echoRespReceive geodeLink) s = .next t ∧ t.geo.oneWay = (s.now - e) / 2) ∧
  (∀ (n : Nat) (f : List Byte) (s : State), stdMode s n = true → (link s n).running = true → fcsOk f = false →
    ∃ t, exec (.outerFrameReceive n f) s = .next t ∧ (link t n).recs = (link s n).recs) ∧
  (∀ (n : Nat) (r : List Byte) (s : State), stdMode s n = true → (link s n).up = true → (link s n).ctl = [r] → (link s n).resp = [] →
    r.length ≤ 1500 → ∃ t, exec (.outerFrameClose n) s = .next t ∧ (link t n).ctl = [])

/-- Crossing proposals of one pair, and the acceptance of an open proposal, agree its sleep. A proposal that low-power idle does not allow is
refused by a record. A refusal and the 4 us timer end the proposal without sleep. An echo request is answered with the same DATA. An echo
response on the Geode link closes the measurement of its round trip, and changes nothing on another. An outer frame with a bad FCS is
discarded whole and counted; a good one delivers its control record, its padding aside. A closing outer frame carries the ready control
record. Other links do not change. -/
def Obligations.LinkControlAndOuterFrames : Prop :=
  (∀ (n tx rx : Nat) (r : List Byte) (s : State), (link s n).recs.find? (isCtl 1) = some r → (link s n).propose = some (byteAt r 2) →
    (pair s n (byteAt r 2)).state = .active → Runs (.sleepProposeReceive n tx rx) s fun t =>
      (pair t n (byteAt r 2)).agreed = true ∧ (link t n).propose = none ∧ (link t n).ctl = (link s n).ctl ∧ PairsBut n (byteAt r 2) s t) ∧
  (∀ (n tx rx : Nat) (r : List Byte) (s : State), (link s n).recs.find? (isCtl 1) = some r → (link s n).propose ≠ some (byteAt r 2) →
    lpiOn s n = false → Runs (.sleepProposeReceive n tx rx) s fun t =>
      (link t n).ctl = (link s n).ctl ++ [ctlRecord 3 (byteAt r 2) (zeros 4)] ∧ (link t n).pairs = (link s n).pairs ∧ LinksBut n s t) ∧
  (∀ (n tx rx : Nat) (r : List Byte) (s : State), (link s n).recs.find? (isCtl 1) = some r → (link s n).propose ≠ some (byteAt r 2) →
    lpiOn s n = true → highestActive s n = some (byteAt r 2) → effMin s n + 1 ≤ (activePairs s n).length → growMet s n tx rx = false →
    Runs (.sleepProposeReceive n tx rx) s fun t =>
      (link t n).ctl = (link s n).ctl ++ [ctlRecord 2 (byteAt r 2) (zeros 4)] ∧ (link t n).pairs = (link s n).pairs ∧ LinksBut n s t) ∧
  (∀ (n : Nat) (r : List Byte) (s : State), (link s n).recs.find? (isCtl 2) = some r → (link s n).propose = some (byteAt r 2) →
    (pair s n (byteAt r 2)).state = .active → Runs (.sleepAcceptReceive n) s fun t =>
      (pair t n (byteAt r 2)).agreed = true ∧ (link t n).propose = none ∧ PairsBut n (byteAt r 2) s t) ∧
  (∀ (n : Nat) (r : List Byte) (s : State), (link s n).recs.find? (isCtl 2) = some r → (link s n).propose ≠ some (byteAt r 2) →
    Runs (.sleepAcceptReceive n) s fun t => (link t n).pairs = (link s n).pairs ∧ (link t n).propose = (link s n).propose ∧ LinksBut n s t) ∧
  (∀ (n : Nat) (r : List Byte) (s : State), (link s n).recs.find? (isCtl 3) = some r → (link s n).propose = some (byteAt r 2) →
    Runs (.sleepRefuseReceive n) s fun t => (link t n).propose = none ∧ (link t n).pairs = (link s n).pairs ∧ LinksBut n s t) ∧
  (∀ (n : Nat) (s : State), exec (.sleepProposeTimeout n) s = .next (modLink n (fun l => { l with propose := none }) s)) ∧
  (∀ (n : Nat) (r : List Byte) (s : State), (link s n).recs.find? (isCtl 4) = some r → Runs (.echoReqReceive n) s fun t =>
    (link t n).ctl = (link s n).ctl ++ [ctlRecord 5 0 (slice r 4 4)] ∧ (link t n).recs = (link s n).recs.erase r ∧ LinksBut n s t) ∧
  (∀ (r : List Byte) (e : Nat) (s : State), (link s geodeLink).recs.find? (isCtl 5) = some r → s.geo.echoAt = some e →
    Runs (.echoRespReceive geodeLink) s fun t => t.geo = { s.geo with echoAt := none, oneWay := (s.now - e) / 2 } ∧ LinksBut geodeLink s t) ∧
  (∀ (n : Nat) (r : List Byte) (s : State), n ≠ geodeLink → (link s n).recs.find? (isCtl 5) = some r → Runs (.echoRespReceive n) s fun t =>
    t.geo = s.geo ∧ LinksBut n s t) ∧
  (∀ (n : Nat) (f : List Byte) (s : State), stdMode s n = true → (link s n).running = true → fcsOk f = false →
    exec (.outerFrameReceive n f) s = .next (linkCount n 17 1 s)) ∧
  (∀ (n k : Nat) (f r : List Byte) (s : State), stdMode s n = true → (link s n).running = true → fcsOk f = true → f.length ≤ 10274 →
    wireAt f 12 2 = s.gar.etherType.toNat → slice f 14 (f.length - 18) = r ++ zeros k → r.length = 8 → byteAt r 0 = 0x51 →
    recordErr s n r = false → exec (.outerFrameReceive n f) s = .next (modLink n (fun l => { l with recs := l.recs ++ [r] }) s)) ∧
  (∀ (n : Nat) (f : List Byte) (s : State), stdMode s n = false → exec (.outerFrameReceive n f) s = .next s ∧ exec (.outerFrameClose n) s = .next s) ∧
  (∀ (n : Nat) (r : List Byte) (s : State), stdMode s n = true → (link s n).up = true → (link s n).ctl = [r] → (link s n).resp = [] →
    r.length ≤ 1500 → Runs (.outerFrameClose n) s fun t => (link t n).ctl = [] ∧ (link t n).lastOuter = outerFrame s r ∧ LinksBut n s t)

/-- A frame on a port that is not UP is nothing. A short frame with a good FCS is counted as undersize and stored nowhere. The Geode secondary
discards and counts it. A frame within QMIN and QMAX of an on-die queue without WRED is stored at its tail with its card header; one beyond
QMAX is dropped under DROP_QMAX. The link's scheduler takes classes in strict priority, picks a head with credits while no other record
waits, which stays in its queue until its record begins; in standard-engine mode the packet goes at once in an outer frame, with its
credits. A head with an uncorrectable cell is dropped without credits, and with a lost link its whole queue. A spill write moves staged
cells to HBM; prefetched cells become ready. What the packets hold does not change. -/
def Obligations.IngressRows : Prop :=
  (∀ (p d draw td : Nat) (room : List Nat) (l : List Byte) (f : Bool) (q : Port) (s : State), port? s p = some q → q.state ≠ .up →
    f = false ∨ q.cut = false → exec (.frameReceive p l f d draw td room) s = .next s) ∧
  (∀ (p d draw td : Nat) (room : List Nat) (l : List Byte) (q : Port) (s : State), port? s p = some q → q.state ≠ .up → q.cut = true →
    isSecondary s = false → ingressRuns s = false → q.loopback ≠ 3 → 64 ≤ l.length → l.length ≤ q.maxFrame → wireAt l 12 2 ≠ 0x8808 →
    Runs (.frameReceive p l true d draw td room) s fun t =>
      (portD t p).cut = false ∧ ctrOf (portD t p).ctr 14 = (ctrOf q.ctr 14).add 1 ∧ t.buf = s.buf ∧ PortsBut p s t) ∧
  (∀ (p d draw td : Nat) (room : List Nat) (l : List Byte) (q : Port) (s : State), port? s p = some q → q.state = .up → q.deleting = false → l.length < 64 →
    fcsOk l = true → Runs (.frameReceive p l false d draw td room) s fun t =>
      ctrOf (portD t p).ctr 15 = (ctrOf q.ctr 15).add 1 ∧ t.buf = s.buf ∧ t.gar = s.gar ∧ PortsBut p s t) ∧
  (∀ (p d draw td : Nat) (room : List Nat) (l : List Byte) (f : Bool) (q : Port) (s : State), port? s p = some q → q.state = .up → q.deleting = false →
    isSecondary s = true → Runs (.frameReceive p l f d draw td room) s fun t =>
      ctrOf (portD t p).ctr 20 = (ctrOf q.ctr 20).add 1 ∧ t.buf = s.buf ∧ t.gar = s.gar ∧ PortsBut p s t) ∧
  (∀ (p d draw td : Nat) (room : List Nat) (l : List Byte) (f : Bool) (q : Port) (x : Queue) (s : State), port? s p = some q → q.state = .up → q.deleting = false →
    isSecondary s = false → ingressRuns s = true → rxRow l q.maxFrame (f || !fcsOk l) = 0 ∨ rxRow l q.maxFrame (f || !fcsOk l) = 14 →
    queue? s false (8 * p + (classifyFrame s p l).1) = some x → (profile s x.prof).wred = 0 → (profile s x.prof).spill = false →
    x.od + cellsOf l.length ≤ (profile s x.prof).qmin → x.depth + cellsOf l.length ≤ (profile s x.prof).qmax * 16 →
    Runs (.frameReceive p l f d draw td room) s fun t =>
      (∃ y k, queue? t false (8 * p + (classifyFrame s p l).1) = some y ∧ y.pkts.getLast? = some k ∧ y.pkts.length = x.pkts.length + 1 ∧
        k.bytes = l ∧ k.badFcs = (f || !fcsOk l) ∧ k.since = s.now ∧ k.res = cellsOf l.length ∧ k.shr = 0 ∧ k.spill = false ∧
        k.header = headerToFe p (classifyFrame s p l).1 (classifyFrame s p l).2 (f || !fcsOk l) s.tim.running (rxStamp s p d).ns l.length
          (flowHash s.gar.hashSeed l)) ∧
      (∀ n, n ≠ 8 * p + (classifyFrame s p l).1 → queue? t false n = queue? s false n) ∧ t.buf.eq = s.buf.eq ∧ t.gar = s.gar ∧ PortsBut p s t) ∧
  (∀ (p d draw td : Nat) (room : List Nat) (l : List Byte) (f : Bool) (q : Port) (x : Queue) (s : State), port? s p = some q → q.state = .up → q.deleting = false →
    isSecondary s = false → ingressRuns s = true → rxRow l q.maxFrame (f || !fcsOk l) = 0 → (classifyFrame s p l).1 < 8 →
    queue? s false (8 * p + (classifyFrame s p l).1) = some x → (profile s x.prof).wred = 0 → (profile s x.prof).spill = false →
    (profile s x.prof).qmax * 16 < x.depth + 1 → Runs (.frameReceive p l f d draw td room) s fun t =>
      ctrOf (mget t.buf.causes (2 * p) []) 0 = (ctrOf (mget s.buf.causes (2 * p) []) 0).add 1 ∧
      (∃ y, queue? t false (8 * p + (classifyFrame s p l).1) = some y ∧ y.pkts = x.pkts ∧ ctrOf y.ctr 2 = (ctrOf x.ctr 2).add 1 ∧
        ctrOf y.ctr 3 = (ctrOf x.ctr 3).add l.length) ∧ t.buf.eq = s.buf.eq ∧ PortsBut p s t) ∧
  (∀ (n : Nat) (f : List Found) (lost : Bool) (s : State), (link s n).up = false ∨ (link s n).pkt ≠ none ∨ (link s n).ctl ≠ [] ∨ (link s n).resp ≠ [] ∨
    isSecondary s = true → exec (.ingressSchedule n f lost) s = .next s) ∧
  (∀ (n p c k : Nat) (d : Map Nat) (s : State), ingressPick s n [7, 6, 5, 4, 3, 2, 1, 0] = some (p, c, d) →
    p ∈ ingressReady s n c ∧ (k ≤ 7 → c < k → ingressReady s n k = [])) ∧
  (∀ (n p c : Nat) (d : Map Nat) (k : Pkt) (f : List Found) (lost : Bool) (s : State), mayPick s n = true → stdMode s n = false →
    ingressPick s n [7, 6, 5, 4, 3, 2, 1, 0] = some (p, c, d) → ingressHead s p c = some k → k.poison = false → anyBad s (packetFound s k f) = false →
    Runs (.ingressSchedule n f lost) s fun t =>
      (link t n).pkt = some (8 * p + c) ∧ (link t n).used = (link s n).used ∧ (link t n).limit = (link s n).limit ∧ t.buf.iq = s.buf.iq ∧
      t.ports = s.ports ∧ t.sched = s.sched ∧ LinksBut n s t) ∧
  (∀ (n p c : Nat) (d : Map Nat) (k : Pkt) (x : Queue) (f : List Found) (lost : Bool) (s : State), mayPick s n = true → stdMode s n = true →
    ingressPick s n [7, 6, 5, 4, 3, 2, 1, 0] = some (p, c, d) → ingressHead s p c = some k → queue? s false (8 * p + c) = some x → k.poison = false →
    anyBad s (packetFound s k f) = false → Runs (.ingressSchedule n f lost) s fun t =>
      (link t n).lastOuter = outerFrame s (k.header ++ k.bytes) ∧
      mget (link t n).used c 0 = mget (link s n).used c 0 + BitVec.ofNat 32 (cellsOf k.bytes.length) ∧ (link t n).limit = (link s n).limit ∧
      (∃ y, queue? t false (8 * p + c) = some y ∧ y.pkts.length + 1 = x.pkts.length ∧ ctrOf y.ctr 0 = (ctrOf x.ctr 0).add 1 ∧
        ctrOf y.ctr 1 = (ctrOf x.ctr 1).add k.bytes.length) ∧ t.ports = s.ports ∧ t.sched = s.sched) ∧
  (∀ (n p c : Nat) (d : Map Nat) (k : Pkt) (x : Queue) (f : List Found) (s : State), mayPick s n = true → c < 8 →
    ingressPick s n [7, 6, 5, 4, 3, 2, 1, 0] = some (p, c, d) → ingressHead s p c = some k → queue? s false (8 * p + c) = some x →
    k.poison = true ∨ anyBad s (packetFound s k f) = true → Runs (.ingressSchedule n f false) s fun t =>
      (link t n).used = (link s n).used ∧ (link t n).lastOuter = (link s n).lastOuter ∧
      ctrOf (mget t.buf.causes (2 * p) []) 5 = (ctrOf (mget s.buf.causes (2 * p) []) 5).add 1 ∧
      (∃ y, queue? t false (8 * p + c) = some y ∧ y.pkts.length + 1 = x.pkts.length ∧ ctrOf y.ctr 2 = (ctrOf x.ctr 2).add 1) ∧ t.ports = s.ports) ∧
  (∀ (n p c : Nat) (d : Map Nat) (k : Pkt) (x : Queue) (f : List Found) (s : State), mayPick s n = true →
    ingressPick s n [7, 6, 5, 4, 3, 2, 1, 0] = some (p, c, d) → ingressHead s p c = some k → queue? s false (8 * p + c) = some x →
    sending s false (8 * p + c) = 0 → anyBad s (packetFound s k f) = true → Runs (.ingressSchedule n f true) s fun t =>
      (link t n).used = (link s n).used ∧
      (∃ y, queue? t false (8 * p + c) = some y ∧ y.pkts = [] ∧ ctrOf y.ctr 2 = (ctrOf x.ctr 2).add x.pkts.length) ∧ t.ports = s.ports) ∧
  (∀ (eg : Bool) (q : Nat) (x : Queue) (s : State), queue? s eg q = some x → spillRange x = none → exec (.spillWrite eg q) s = .next s) ∧
  (∀ (eg : Bool) (q : Nat) (x : Queue) (r : Nat × Nat) (s : State), queue? s eg q = some x → spillRange x = some r → Runs (.spillWrite eg q) s fun t =>
    (∃ y, queue? t eg q = some y ∧ y.inState .staged < x.inState .staged ∧ y.depth = x.depth ∧ y.pkts.map (·.bytes) = x.pkts.map (·.bytes) ∧
      y.ctr = x.ctr) ∧ t.buf.causes = s.buf.causes ∧ t.gar = s.gar ∧ t.ports = s.ports) ∧
  (∀ (eg : Bool) (q : Nat) (l : List (List Found)) (s : State), queue? s eg q = none → exec (.prefetchDone eg q l) s = .next s) ∧
  (∀ (eg : Bool) (q : Nat) (l : List (List Found)) (x : Queue) (s : State), queue? s eg q = some x → Runs (.prefetchDone eg q l) s fun t =>
    (∃ y, queue? t eg q = some y ∧ y.inState .ready = x.inState .ready + min l.length (x.inState .requested) ∧ y.depth = x.depth ∧
      y.pkts.map (·.bytes) = x.pkts.map (·.bytes) ∧ y.ctr = x.ctr) ∧ t.buf.causes = s.buf.causes ∧ t.gar = s.gar ∧ t.ports = s.ports)

/-- A port that may not send, or that has a frame chosen, chooses none. A choice is remembered with its path, and no node changes. A head with a
reason to be dropped is dropped once under that port counter, without a debit. A head without a reason stays. The MAC sends the frame with
its time action and a new FCS, counts it, debits every node of its path in the band chosen and no other, and the packet leaves its queue; a
poisoned packet is dropped as poisoned, its choice forgotten. A node brought up to date keeps its settings, and no bucket exceeds its size. -/
def Obligations.EgressRows : Prop :=
  (∀ (p : Nat) (s : State), portSends s p = false ∨ mhas s.sched.chosen p = true → exec (.schedulerChoose p) s = .next s) ∧
  (∀ (p c : Nat) (b : Bool) (path : List (Nat × Bool)) (x : Queue) (k : Pkt) (s : State), portSends s p = true → mhas s.sched.chosen p = false →
    (portD s p).loopback ≠ 3 → choosePath s 4 p = path → path.getLast? = some (c, b) → queue? s true (numberOf c) = some x → x.head? = some k →
    headReason s p k.bytes.length = none → Runs (.schedulerChoose p) s fun t =>
      (∃ h, mfind t.sched.chosen p = some h ∧ h.eq = numberOf c ∧ h.path = path) ∧
      t.sched.nodes = s.sched.nodes ∧ t.sched.portVirt = s.sched.portVirt ∧
      (∃ y, queue? t true (numberOf c) = some y ∧ y.depth = x.depth ∧ y.pkts.length = x.pkts.length) ∧ t.ports = s.ports ∧ t.gar = s.gar) ∧
  (∀ (p c r : Nat) (b : Bool) (path : List (Nat × Bool)) (x : Queue) (k : Pkt) (s : State), portSends s p = true → mhas s.sched.chosen p = false →
    (portD s p).loopback ≠ 3 → choosePath s 4 p = path → path.getLast? = some (c, b) → queue? s true (numberOf c) = some x → x.head? = some k →
    headReason s p k.bytes.length = some r → eqPort s (numberOf c) = p →
    Runs (.schedulerChoose p) s fun t =>
      t.sched.nodes = s.sched.nodes ∧ mhas t.sched.chosen p = false ∧ ctrOf (portD t p).ctr r = (ctrOf (portD s p).ctr r).add 1 ∧
      (∃ y, queue? t true (numberOf c) = some y ∧ y.pkts.length + 1 = x.pkts.length ∧ ctrOf y.ctr 2 = (ctrOf x.ctr 2).add 1) ∧ PortsBut p s t) ∧
  (∀ (q : Nat) (f : List Found) (lost : Bool) (s : State), queue? s true q = none → exec (.queueHeadDrop q f lost) s = .next s) ∧
  (∀ (q r : Nat) (f : List Found) (lost : Bool) (x : Queue) (k : Pkt) (s : State), queue? s true q = some x → x.pkts.head? = some k →
    headReason s (eqPort s q) k.bytes.length = some r → Runs (.queueHeadDrop q f lost) s fun t =>
      ctrOf (portD t (eqPort s q)).ctr r = (ctrOf (portD s (eqPort s q)).ctr r).add 1 ∧
      (∃ y, queue? t true q = some y ∧ y.pkts.length + 1 = x.pkts.length ∧ ctrOf y.ctr 2 = (ctrOf x.ctr 2).add 1) ∧ PortsBut (eqPort s q) s t) ∧
  (∀ (q : Nat) (f : List Found) (lost : Bool) (x : Queue) (k : Pkt) (s : State), queue? s true q = some x → x.pkts.head? = some k →
    headReason s (eqPort s q) k.bytes.length = none → k.poison = false → anyBad s (packetFound s k f) = false →
    exec (.queueHeadDrop q f lost) s = .next s) ∧
  (∀ (q : Nat) (f : List Found) (x : Queue) (k : Pkt) (s : State), queue? s true q = some x → x.head? = some k → headReason s (eqPort s q) k.bytes.length = none →
    k.poison = true ∨ anyBad s (packetFound s k f) = true → portSends s (eqPort s q) = true → Runs (.queueHeadDrop q f false) s fun t =>
      ctrOf (portD t (eqPort s q)).ctr 29 = (ctrOf (portD s (eqPort s q)).ctr 29).add 1 ∧
      (∃ y, queue? t true q = some y ∧ y.pkts.length + 1 = x.pkts.length) ∧ PortsBut (eqPort s q) s t) ∧
  (∀ (q : Nat) (f : List Found) (x : Queue) (k : Pkt) (s : State), queue? s true q = some x → x.head? = some k → headReason s (eqPort s q) k.bytes.length = none →
    anyBad s (packetFound s k f) = true → portSends s (eqPort s q) = true → Runs (.queueHeadDrop q f true) s fun t =>
      ctrOf (portD t (eqPort s q)).ctr 29 = (ctrOf (portD s (eqPort s q)).ctr 29).add x.pkts.length ∧
      (∃ y, queue? t true q = some y ∧ y.pkts = []) ∧ PortsBut (eqPort s q) s t) ∧
  (∀ (p : Nat) (f : List Found) (lost : Bool) (ls : List (List Bool)) (s : State), mfind s.sched.chosen p = none →
    exec (.macFrameStart p f lost ls) s = .next s) ∧
  (∀ (p : Nat) (f : List Found) (lost : Bool) (ls : List (List Bool)) (h : Chosen) (x : Queue) (k : Pkt) (s : State), mfind s.sched.chosen p = some h →
    queue? s true h.eq = some x → x.head? = some k → headReason s p k.bytes.length = none → portSends s p = true → k.poison = false →
    anyBad s (packetFound s k f) = false → Runs (.macFrameStart p f lost ls) s fun t =>
      (portD t p).lastTx = withFcs (timeAction p k.header k.bytes s).1 ∧ ctrOf (portD t p).ctr 23 = (ctrOf (portD s p).ctr 23).add 1 ∧
      ctrOf (portD t p).ctr 24 = (ctrOf (portD s p).ctr 24).add (withFcs (timeAction p k.header k.bytes s).1).length ∧
      mfind t.sched.chosen p = none ∧
      (∀ n e, (n, e) ∈ h.path → (h.path.map (·.1)).Nodup → (node? s n).isSome → (node? t n).map (fun y => (y.cTok, y.pTok)) =
        some (((nodeNow s n).debit e k.bytes.length).cTok, ((nodeNow s n).debit e k.bytes.length).pTok)) ∧
      (∀ n, 2 ^ 28 ≤ n → (∀ e, (n, e) ∉ h.path) → node? t n = node? s n) ∧
      (∃ y, queue? t true h.eq = some y ∧ y.pkts.length + 1 = x.pkts.length ∧ ctrOf y.ctr 0 = (ctrOf x.ctr 0).add 1 ∧
        ctrOf y.ctr 1 = (ctrOf x.ctr 1).add k.bytes.length) ∧ PortsBut p s t ∧ t.gar = s.gar) ∧
  (∀ (p : Nat) (h l : List Byte) (s : State), hdrAction h = 0 → timeAction p h l s = (l, s)) ∧
  (∀ (p : Nat) (h l : List Byte) (s : State), hdrAction h = 2 → s.tim.running = true → s.tim.caps.length < 4096 →
    (timeAction p h l s).1 = l ∧ (timeAction p h l s).2.tim.caps.length = s.tim.caps.length + 1) ∧
  (∀ (p : Nat) (f : List Found) (ls : List (List Bool)) (h : Chosen) (x : Queue) (k : Pkt) (s : State), s.sched.chosen = [(p, h)] →
    queue? s true h.eq = some x → x.head? = some k → headReason s p k.bytes.length = none → portSends s p = true →
    k.poison = true ∨ anyBad s (packetFound s k f) = true → eqPort s h.eq = p → Runs (.macFrameStart p f false ls) s fun t =>
      ctrOf (portD t p).ctr 29 = (ctrOf (portD s p).ctr 29).add 1 ∧ (portD t p).lastTx = (portD s p).lastTx ∧ t.sched.chosen = [] ∧ t.sched.nodes = s.sched.nodes ∧
      (∃ y, queue? t true h.eq = some y ∧ y.pkts.length + 1 = x.pkts.length ∧ ctrOf y.ctr 0 = ctrOf x.ctr 0) ∧ PortsBut p s t) ∧
  (∀ (k : Nat) (n : Node) (s : State), node? s k = some n → Runs (.nodeReadyAgain k) s fun t =>
    node? t k = some (n.fill s.now) ∧ (∀ j, j ≠ k → node? t j = node? s j) ∧ t.buf = s.buf ∧ t.sched.chosen = s.sched.chosen) ∧
  (∀ (n : Node) (now : Nat), (n.pir ≠ 0 → (n.fill now).pTok ≤ bucketSize n.pbs) ∧ (n.cir ≠ 0 → (n.fill now).cTok ≤ bucketSize n.cbs) ∧
    (n.fill now).parent = n.parent ∧ (n.fill now).prio = n.prio ∧ (n.fill now).weight = n.weight ∧ (n.fill now).cir = n.cir ∧ (n.fill now).pir = n.pir)

/-- A settings command that passes its checks changes the selected fields of its object and nothing else, and completes SUCCESS. The Geode
secondary refuses it with PERMISSION. A reserve that would leave the sum of QMIN above it is NO_RESOURCE. A reserve, or the memory
partition, with a port configured is BUSY. A classification map with a reserved entry is INVALID_FIELD. BUFFER_STATUS and QUEUE_STATUS write
their block and change nothing else. Beside them, the node commands that pass their checks answer a next state, in which the node exists, is
gone or is changed. -/
def Obligations.TrafficManagerSettings : Prop :=
  (∀ (id : Nat) (c : Cmd) (s : State), Begins s id 0x40 c → bufferSetPre c s = none → isSecondary s = false → c.byte 32 = 1 → s.ports.tab = [] →
    shareSum s ≤ s.buf.egrLanding * 1024 → qminFits (profile s) s.buf.iq s.buf.eq (c.inl 33 1) s.buf.egrMinPool = true →
    Does (.bufferSet id) id c s 0 0 fun x => x.mapBuf fun b => { b with ingReserve := c.inl 33 1 }) ∧
  (∀ (id : Nat) (c : Cmd) (s : State), Begins s id 0x40 c → bufferSetPre c s = none → isSecondary s = false → c.byte 32 = 8 →
    shareSum s ≤ s.buf.egrLanding * 1024 → qminFits (profile s) s.buf.iq s.buf.eq s.buf.ingReserve s.buf.egrMinPool = true →
    Does (.bufferSet id) id c s 0 0 fun x => x.mapBuf fun b => { b with hwm := c.inl 36 2 }) ∧
  (∀ (id : Nat) (c : Cmd) (s : State), Begins s id 0x40 c → bufferSetPre c s = none → isSecondary s = true →
    exec (.bufferSet id) s = .next (finishFail id .permission (beginCmd id c s))) ∧
  (∀ (id : Nat) (c : Cmd) (s : State), Begins s id 0x40 c → bufferSetPre c s = none → isSecondary s = false → c.byte 32 = 2 → s.ports.tab ≠ [] →
    exec (.bufferSet id) s = .next (finishFail id .busy (beginCmd id c s))) ∧
  (∀ (id : Nat) (c : Cmd) (s : State), Begins s id 0x41 c → profileSetPre c s = none → isSecondary s = false → c.byte 32 = 2 →
    qminFits (profile s) s.buf.iq s.buf.eq s.buf.ingReserve s.buf.egrMinPool = true → Does (.profileSet id) id c s 0 0 fun x =>
      x.mapBuf fun b => { b with profiles := mput b.profiles c.target { profile s c.target with qmax := c.inl 36 4 } }) ∧
  (∀ (id : Nat) (c : Cmd) (s : State), Begins s id 0x41 c → profileSetPre c s = none → isSecondary s = false → c.byte 32 = 1 →
    qminFits (fun n => if n = c.target then { profile s c.target with qmin := c.inl 34 2 } else profile s n) s.buf.iq s.buf.eq s.buf.ingReserve
      s.buf.egrMinPool = false → exec (.profileSet id) s = .next (finishFail id .noResource (beginCmd id c s))) ∧
  (∀ (id : Nat) (c : Cmd) (o : Wred) (s : State), Begins s id 0x42 c → wredSetPre c s = none → isSecondary s = false → c.byte 32 = 3 →
    o = mget s.buf.wred c.target Wred.init → Does (.wredSet id) id c s 0 0 fun x => x.mapBuf fun b => { b with
      wred := mput b.wred c.target { w := c.inl 33 1, curves :=
        [(c.byte 34, c.byte 35, c.byte 36), (o.curves[1]?).getD (0, 0, 0), (o.curves[2]?).getD (0, 0, 0)] } }) ∧
  (∀ (id : Nat) (c : Cmd) (s : State), Begins s id 0x43 c → classifySetPre c s = none → isSecondary s = false → c.byte 32 = 1 →
    Does (.classifySet id .error) id c s 0 0 fun x => x.mapBuf fun b => { b with
      classify := mput b.classify c.target { mget b.classify c.target Classify.init with trust := c.inl 33 1 } }) ∧
  (∀ (id : Nat) (l : List Byte) (c : Cmd) (s : State), Begins s id 0x43 c → classifySetPre c s = none → isSecondary s = false → c.byte 32 = 4 →
    dmaAllowed s c.indAddr 64 = true → l.length = 64 → (∀ b, b ∈ l → b.toNat ≤ 31 ∧ b.toNat % 4 ≠ 3) →
    Does (.classifySet id (.data l)) id c s 0 0 fun x => (keepData id (.data l) x).mapBuf fun b => { b with
      classify := mput b.classify c.target { mget b.classify c.target Classify.init with map := l.map (·.toNat) } }) ∧
  (∀ (id : Nat) (l : List Byte) (c : Cmd) (s : State), Begins s id 0x43 c → classifySetPre c s = none → isSecondary s = false → c.byte 32 = 4 →
    dmaAllowed s c.indAddr 64 = true → l.length = 64 → (∃ b, b ∈ l ∧ b.toNat % 4 = 3) →
    exec (.classifySet id (.data l)) s = .next (finishFail id .invalidField (keepData id (.data l) (beginCmd id c s)))) ∧
  (∀ (id : Nat) (c : Cmd) (q : Queue) (s : State), Begins s id 0x44 c → iqSetPre c s = none → isSecondary s = false →
    queue? s false c.target = some q → qminFits (profile s) (mput s.buf.iq c.target { q with prof := c.inl 32 2 }) s.buf.eq s.buf.ingReserve
      s.buf.egrMinPool = true → Does (.iqSet id) id c s 0 0 fun x =>
        x.mapBuf fun b => { b with iq := mput b.iq c.target { q with prof := c.inl 32 2 } }) ∧
  (∀ (id : Nat) (c : Cmd) (s : State), Begins s id 0x45 c → memorySetPre c s = none → isSecondary s = false → c.inl 32 4 = 2 →
    s.mem.part = s.mem.partNext → Does (.memorySet id) id c s 0 0 fun x => x.mapMem fun m => { m with scrubOd := c.inl 37 1 }) ∧
  (∀ (id : Nat) (c : Cmd) (s : State), Begins s id 0x45 c → memorySetPre c s = none → isSecondary s = false → c.inl 32 4 = 1 →
    s.ports.tab = [] → (many s.tbl.tables fun _ t => t.hbm) = false → hbmReady s = true →
    Does (.memorySet id) id c s 0 0 fun x => x.mapMem fun m => { m with partNext := c.inl 36 1, part := c.inl 36 1 }) ∧
  (∀ (id : Nat) (c : Cmd) (s : State), Begins s id 0x45 c → memorySetPre c s = none → isSecondary s = false → c.inl 32 4 = 1 →
    s.ports.tab ≠ [] → exec (.memorySet id) s = .next (finishFail id .busy (beginCmd id c s))) ∧
  (∀ (id : Nat) (c : Cmd) (s : State), Begins s id 0x46 c → c.target = 0x100 → blockBad c 0x100 64 = false → dmaAllowed s c.indAddr 64 = true →
    Does (.bufferStatus id) id c s 0 0 fun x => hostWrite c.indAddr (bufferLevels s) x) ∧
  (∀ (id : Nat) (c : Cmd) (s : State), Begins s id 0x46 c → c.target < 256 → 72 ≤ c.indLen → c.byte 32 ≤ 1 → c.inlZero 33 30 = true →
    c.byte 63 = 0 → dmaAllowed s c.indAddr 72 = true → Does (.bufferStatus id) id c s 0 0 fun x =>
      hostWrite c.indAddr (ctrBlock (mget s.buf.causes (c.target * 2 + c.byte 32) []) 9) x) ∧
  (∀ (id : Nat) (c : Cmd) (q : Queue) (s : State), Begins s id 0x47 c → c.target < 131072 → 64 ≤ c.indLen → c.inlZero 32 32 = true →
    queue? s true c.target = some q → dmaAllowed s c.indAddr 64 = true → Does (.queueStatus id) id c s 0 0 fun x =>
      hostWrite c.indAddr (leBytes 4 q.depth ++ leBytes 4 q.hbm ++ leBytes 4 (q.avg.1 / 2 ^ q.avg.2) ++ leBytes 2 q.prof ++ zeros 2 ++
        ctrBlock q.ctr 4 ++ zeros 16) x) ∧
  (∀ (id : Nat) (c : Cmd) (s : State), Begins s id 0x47 c → c.target < 131072 → 64 ≤ c.indLen → c.inlZero 32 32 = true →
    queue? s true c.target = none → exec (.queueStatus id) s = .next (finishFail id .objectNotFound (beginCmd id c s))) ∧
  (∀ (id : Nat) (c : Cmd) (f : NodeFields) (s : State), Begins s id 0x50 c → f = nodeFields (inlBytes c) → nodeCreatePre c s = none →
    isSecondary s = false → tierOf c.target ≠ 4 → qminFits (profile s) s.buf.iq s.buf.eq s.buf.ingReserve s.buf.egrMinPool = true →
    ∃ t, exec (.nodeCreate id) s = .next t ∧ (node? t c.target).isSome = true) ∧
  (∀ (id : Nat) (c : Cmd) (s : State), Begins s id 0x51 c → nodeDeletePre c s = none → isSecondary s = false → childrenOf s c.target = [] →
    s.sched.chosen = [] → tierOf c.target ≠ 4 → ∃ t, exec (.nodeDelete id) s = .next t ∧ node? t c.target = none) ∧
  (∀ (id : Nat) (c : Cmd) (f : NodeFields) (s : State), Begins s id 0x52 c → f = nodeFields (inlBytes c) → nodeSetPre c s = none →
    isSecondary s = false → sel f.valid 0 = false → sel f.valid 8 = false →
    qminFits (profile s) s.buf.iq s.buf.eq s.buf.ingReserve s.buf.egrMinPool = true → ∃ t, exec (.nodeSet id) s = .next t ∧ t.buf.eq = s.buf.eq) ∧
  (∀ (id : Nat) (l : List Byte) (c : Cmd) (s u : State), Begins s id 0x53 c → nodeBatchPre c s = none → isSecondary s = false →
    dmaAllowed s c.indAddr (40 * c.inl 32 2) = true → l.length = 40 * c.inl 32 2 →
    batchRun 0 [] ((List.range (c.inl 32 2)).map fun i => slice l (40 * i) 40) (keepData id (.data l) (beginCmd id c s)) = .inl u →
    ∃ t, exec (.nodeBatch id (.data l)) s = .next t ∧ t.sched = u.sched) ∧
  (∀ (id : Nat) (c : Cmd) (s : State), Begins s id 0x54 c → tierOf c.target ≠ 0 → nodeTargetBad c.target = false → noFields c = true →
    (node? s c.target).isSome = true → ∃ t, exec (.nodeStatus id) s = .next t ∧ t.buf = s.buf)

/-- NODE_CREATE of a free number puts a node with the fields given and full buckets, and for a queue an empty egress queue with its profile; an
existing node is OBJECT_EXISTS. NODE_DELETE removes a node without children, and its queue; with children it is BUSY. NODE_SET changes the
selected fields of one node; a bucket whose rate becomes used is full, and a moved node has no tag. A batch applies every entry, or none and
reports the first that fails. NODE_STATUS reports a node without changing it. -/
def Obligations.SchedulerNodeCommands : Prop :=
  (∀ (id : Nat) (c : Cmd) (f : NodeFields) (s : State), Begins s id 0x50 c → f = nodeFields (inlBytes c) → nodeCreatePre c s = none → isSecondary s = false →
    tierOf c.target ≠ 4 → qminFits (profile s) s.buf.iq s.buf.eq s.buf.ingReserve s.buf.egrMinPool = true →
    Does (.nodeCreate id) id c s 0 0 fun x => x.mapSched fun y => { y with nodes := mput y.nodes c.target { Node.init with
      parent := f.parent, prio := f.prio, weight := f.weight, cir := f.cir, pir := f.pir, cbs := f.cbs, pbs := f.pbs
      overhead := signed 7 f.overhead, cTok := bucketSize f.cbs, pTok := bucketSize f.pbs, filledAt := s.now } }) ∧
  (∀ (id : Nat) (c : Cmd) (f : NodeFields) (s : State), Begins s id 0x50 c → f = nodeFields (inlBytes c) → nodeCreatePre c s = none → isSecondary s = false →
    tierOf c.target = 4 → qminFits (profile s) s.buf.iq (mput s.buf.eq (numberOf c.target) { Queue.init with prof := f.prof, emptyAt := s.now })
      s.buf.ingReserve s.buf.egrMinPool = true → Runs (.nodeCreate id) s fun t =>
      queue? t true (numberOf c.target) = some { Queue.init with prof := f.prof, emptyAt := s.now } ∧
      (∃ n, node? t c.target = some n ∧ n.parent = f.parent ∧ n.weight = f.weight) ∧ (∀ k, k ≠ c.target → node? t k = node? s k) ∧
      (∀ k, k ≠ numberOf c.target → queue? t true k = queue? s true k) ∧ t.buf.iq = s.buf.iq) ∧
  (∀ (id : Nat) (c : Cmd) (f : NodeFields) (s : State), Begins s id 0x50 c → f = nodeFields (inlBytes c) → nodeTargetBad c.target = false → c.indLen = 0 →
    fieldsBad (tierOf c.target) 0x1FF f = false → ratesBad f.cir f.pir = false → f.prof = 0 → (node? s c.target).isSome = true →
    exec (.nodeCreate id) s = .next (finishFail id .objectExists (beginCmd id c s))) ∧
  (∀ (id : Nat) (c : Cmd) (s : State), Begins s id 0x51 c → nodeDeletePre c s = none → isSecondary s = false → childrenOf s c.target = [] →
    s.sched.chosen = [] → tierOf c.target ≠ 4 →
    Does (.nodeDelete id) id c s 0 0 fun x => x.mapSched fun y => { y with nodes := mdel y.nodes c.target }) ∧
  (∀ (id : Nat) (c : Cmd) (s : State), Begins s id 0x51 c → nodeDeletePre c s = none → isSecondary s = false → childrenOf s c.target = [] →
    tierOf c.target = 4 → Runs (.nodeDelete id) s fun t => node? t c.target = none ∧ queue? t true (numberOf c.target) = none ∧
      (∀ k, k ≠ c.target → (node? t k).isSome = (node? s k).isSome)) ∧
  (∀ (id : Nat) (c : Cmd) (s : State), Begins s id 0x51 c → nodeDeletePre c s = none → isSecondary s = false → childrenOf s c.target ≠ [] →
    exec (.nodeDelete id) s = .next (finishFail id .busy (beginCmd id c s))) ∧
  (∀ (id : Nat) (c : Cmd) (f : NodeFields) (s : State), Begins s id 0x52 c → f = nodeFields (inlBytes c) → nodeSetPre c s = none → isSecondary s = false →
    sel f.valid 0 = false → sel f.valid 8 = false → qminFits (profile s) s.buf.iq s.buf.eq s.buf.ingReserve s.buf.egrMinPool = true →
    Does (.nodeSet id) id c s 0 0 (modNode c.target fun n => n.change f f.valid)) ∧
  (∀ (n : Node) (f : NodeFields) (v : Nat),
    (n.change f v).weight = (if sel v 2 then f.weight else n.weight) ∧ (n.change f v).prio = (if sel v 1 then f.prio else n.prio) ∧
    (n.change f v).parent = (if sel v 0 then f.parent else n.parent) ∧ (n.change f v).cir = (if sel v 3 then f.cir else n.cir) ∧
    (n.change f v).pir = (if sel v 4 then f.pir else n.pir) ∧
    (sel v 3 = true → n.cir = 0 → f.cir ≠ 0 → (n.change f v).cTok = bucketSize (n.change f v).cbs) ∧
    (n.change f v).cTok ≤ bucketSize (n.change f v).cbs ∧ (n.change f v).pTok ≤ bucketSize (n.change f v).pbs ∧
    (sel v 0 = true → f.parent ≠ n.parent → (n.change f v).tags = []) ∧ (n.change f v).virt = n.virt) ∧
  (∀ (id : Nat) (l : List Byte) (c : Cmd) (s u : State), Begins s id 0x53 c → nodeBatchPre c s = none → isSecondary s = false →
    dmaAllowed s c.indAddr (40 * c.inl 32 2) = true → l.length = 40 * c.inl 32 2 →
    batchRun 0 [] ((List.range (c.inl 32 2)).map fun i => slice l (40 * i) 40) (keepData id (.data l) (beginCmd id c s)) = .inl u →
    exec (.nodeBatch id (.data l)) s = .next (finish id .success 0 0 true u)) ∧
  (∀ (id i : Nat) (st : Status) (l : List Byte) (c : Cmd) (s : State), Begins s id 0x53 c → nodeBatchPre c s = none → isSecondary s = false →
    dmaAllowed s c.indAddr (40 * c.inl 32 2) = true → l.length = 40 * c.inl 32 2 →
    batchRun 0 [] ((List.range (c.inl 32 2)).map fun i => slice l (40 * i) 40) (keepData id (.data l) (beginCmd id c s)) = .inr (i, st) →
    Runs (.nodeBatch id (.data l)) s fun t => t = finish id st (BitVec.ofNat 64 i) 0 false (keepData id (.data l) (beginCmd id c s)) ∧
      t.sched = s.sched ∧ t.buf = s.buf) ∧
  (∀ (id : Nat) (c : Cmd) (n : Node) (s : State), Begins s id 0x54 c → tierOf c.target ≠ 0 → nodeTargetBad c.target = false → noFields c = true →
    (node? s c.target).isSome = true → n = nodeNow s c.target → Does (.nodeStatus id) id c s
      (BitVec.ofNat 64 (bucketBytes n.cir n.cTok + bucketBytes n.pir n.pTok * 2 ^ 32))
      (BitVec.ofNat 64 (n.shape + b2n (nodeReady s 5 c.target) * 4 + b2n ((port? s (above s (tierOf c.target) c.target)).isNone) * 8 +
        (childrenOf s c.target).length * 2 ^ 20)) fun x => x) ∧
  (∀ (id : Nat) (c : Cmd) (s : State), Begins s id 0x54 c → tierOf c.target ≠ 0 → nodeTargetBad c.target = false → noFields c = true →
    node? s c.target = none → exec (.nodeStatus id) s = .next (finishFail id .objectNotFound (beginCmd id c s)))

/-- A pipeline takes the oldest request of the next input queue with one, the TABLE_LOOKUP commands having the turn after link 63, and stamps it
with the outcome of that moment. The match of a key is an entry that matches, with no longer prefix or greater PRIORITY among those that
match. A completed lookup leaves, is counted for its table by its status, and its response joins its link; one of an ended protocol gives
none; that of a TABLE_LOOKUP is written to its record; a HIT or MISS that read an uncorrectable word answers POISONED. A switch takes the
next epoch number, applies the oldest commit's updates, frees its handle, and waits for a brownout freeze; the secondary switches no commit
of its own; an update changes its own entry only. Storage of deleted tables is free once no lookup waits for it. -/
def Obligations.LookupAndEpochRows : Prop :=
  (∀ s : State, s.gar.rrLink ≤ 64 → (∀ n, n ≤ 64 → inputQueue s n = []) → exec .lookupPipelineTake s = .next s) ∧
  (∀ (n tag : Nat) (r : List Nat) (x : Lookup) (s : State), (linkTurns s.gar.rrLink).find? (fun k => !(inputQueue s k).isEmpty) = some n → n ≠ diagTurn →
    (link s n).inq = tag :: r → mfind (link s n).lookups tag = some x → x.old = none → Runs .lookupPipelineTake s fun t =>
      (link t n).inq = r ∧
        (∃ w, mfind (link t n).lookups tag = some { x with taken := some (lookupNow s (table? s (byteAt x.req 4)) x.req), words := w }) ∧
        t.gar.rrLink = n ∧ t.tbl = s.tbl ∧ LinksBut n s t) ∧
  (∀ (id : Nat) (r : List Nat) (x : Lookup) (s : State), (linkTurns s.gar.rrLink).find? (fun k => !(inputQueue s k).isEmpty) = some diagTurn →
    s.tbl.diagQueue = id :: r → mfind s.tbl.diag id = some x → x.old = none → Runs .lookupPipelineTake s fun t =>
      t.tbl.diagQueue = r ∧
        (∃ w, mfind t.tbl.diag id = some { x with taken := some (lookupNow s (table? s (byteAt x.req 4)) x.req), words := w }) ∧
        t.gar.rrLink = diagTurn ∧ t.tbl.tables = s.tbl.tables ∧ t.gar.links = s.gar.links) ∧
  (∀ (n k : Nat) (s : State), k ≤ 64 → s.gar.rrLink < k → inputQueue s k ≠ [] →
    (linkTurns s.gar.rrLink).find? (fun k => !(inputQueue s k).isEmpty) = some n → s.gar.rrLink < n ∧ n ≤ k) ∧
  (∀ (t : Table) (vrf : Nat) (key : List Byte) (e : Entry), bestMatch t vrf key = some e → e ∈ t.entries ∧ entryMatches t vrf key e = true ∧
    ∀ x, x ∈ t.entries → entryMatches t vrf key x = true → (t.kind ≤ 1 → x.plen ≤ e.plen) ∧ (2 ≤ t.kind → x.prio ≤ e.prio)) ∧
  (∀ (t : Table) (vrf : Nat) (key : List Byte), bestMatch t vrf key = none → ∀ x, x ∈ t.entries → entryMatches t vrf key x = false) ∧
  (∀ (n tag : Nat) (f : List Found) (clean : Bool) (s : State), lookupAt s n tag = none → exec (.lookupComplete n tag f clean) s = .next s) ∧
  (∀ (n tag : Nat) (f : List Found) (clean : Bool) (x : Lookup) (b : List Byte) (tb : Table) (s : State), n ≠ diagTurn →
    mfind (link s n).lookups tag = some x → x.taken = some b → tag < 1024 → byteAt b 1 ≤ 3 → table? s x.table = some tb →
    anyBad s (wordsFound s x.words f) = false → Runs (.lookupComplete n tag f clean) s fun t =>
      (link t n).resp = (link s n).resp ++ [b] ∧ mfind (link t n).lookups tag = none ∧
      (∃ u, table? t x.table = some u ∧ ctrOf u.ctr 0 = (ctrOf tb.ctr 0).add 1 ∧ ctrOf u.ctr (1 + byteAt b 1) = (ctrOf tb.ctr (1 + byteAt b 1)).add 1 ∧
        u.entries = tb.entries) ∧ LinksBut n s t) ∧
  (∀ (n tag : Nat) (f : List Found) (clean : Bool) (x : Lookup) (b : List Byte) (s : State), n ≠ diagTurn → mfind (link s n).lookups tag = some x →
    x.taken = some b → 1024 ≤ tag → Runs (.lookupComplete n tag f clean) s fun t =>
      (link t n).resp = (link s n).resp ∧ mfind (link t n).lookups tag = none ∧ LinksBut n s t) ∧
  (∀ (id : Nat) (f : List Found) (clean : Bool) (x : Lookup) (b : List Byte) (c : Cmd) (s : State), mfind s.tbl.diag id = some x → x.taken = some b →
    mfind s.fl.cmds id = some c → anyBad s (wordsFound s x.words f) = false → Runs (.lookupComplete diagTurn id f clean) s fun t =>
      mfind t.tbl.diag id = none ∧ ∃ u, t = finish id .success 0 0 true (writeBlock c b u)) ∧
  (∀ (n tag : Nat) (clean : Bool) (x : Lookup) (b : List Byte) (tb : Table) (f : Found) (s : State), n ≠ diagTurn → mfind (link s n).lookups tag = some x →
    x.taken = some b → x.old = none → table? s (byteAt x.req 4) = some tb → tb.kind ≠ 2 → tag < 1024 → byteAt b 1 ≤ 1 → unitBad s f = true →
    Runs (.lookupComplete n tag [f] clean) s fun t =>
      (∃ c, (link t n).resp = (link s n).resp ++ [c] ∧ byteAt c 1 = 3) ∧ mfind (link t n).lookups tag = none ∧ LinksBut n s t) ∧
  (∀ (f : List (List Found)) (s : State), s.bed.boActive = true → exec (.epochSwitch f) s = .next s) ∧
  (∀ (f : List (List Found)) (s : State), isSecondary s = false → s.tbl.commits = [] → exec (.epochSwitch f) s = .next s) ∧
  (∀ (f : List (List Found)) (s : State), isSecondary s = true → s.geo.epochIn = none → exec (.epochSwitch f) s = .next s) ∧
  (∀ (f : List (List Found)) (c : Commit) (r : List Commit) (s : State), s.bed.boActive = false → isSecondary s = false → s.tbl.commits = c :: r →
    Runs (.epochSwitch f) s fun t =>
      t.tbl.epoch = s.tbl.epoch + 1 ∧ t.tbl.commits = r ∧ t.tbl.handles = (if c.handle = 0 then s.tbl.handles else mdel s.tbl.handles c.handle) ∧
        t.tbl.tables = (switchUpdates c.updates s).tbl.tables ∧ t.tbl.gone = s.tbl.gone) ∧
  (∀ (t : Table) (u : Update) (e : Entry), (u.op = 2 → committed { t with entries := applyUpdate t u } u.entry = none) ∧
    (u.op = 0 ∨ u.op = 3 → (committed { t with entries := applyUpdate t u } u.entry).map (·.result) = some u.entry.result) ∧
    (sameEntry t.kind e u.entry = false → committed { t with entries := applyUpdate t u } e = committed t e)) ∧
  (∀ s : State, Runs .storageFree s fun t =>
    (∀ g v, (g, v) ∈ t.tbl.gone ↔ (g, v) ∈ s.tbl.gone ∧ waitsFor s g = true) ∧ t.tbl.tables = s.tbl.tables ∧ t.gar = s.gar ∧ t.buf = s.buf)

/-- TABLE_CREATE of an on-die table takes the lowest free banks and makes it empty. TABLE_DELETE removes the table and keeps its storage until
its lookups end; with a staged update it is BUSY. TABLE_UPDATE under a handle stages the update and changes no table; a failing entry stages
nothing; under handle 0 what it staged is committed, DATA_POISONED where a partial write read an uncorrectable unit. EPOCH_OPEN gives the
lowest free handle, or NO_RESOURCE. EPOCH_COMMIT queues the staged updates, or with none completes at once; EPOCH_ABORT discards them; both
need an open handle. The status commands write their block; TABLE_LOOKUP joins the diagnostic queue, at most 64 at a time. -/
def Obligations.TableCommands : Prop :=
  (∀ (id nb : Nat) (c : Cmd) (s : State), Begins s id 0x60 c → tableCreatePre c s = none → isSecondary s = false → c.byte 33 = 0 →
    nb = banksFor (c.byte 32) false (c.inl 36 4) (c.byte 34) * c.byte 35 → nb ≤ (freeBanks s).length →
    ((freeBanks s).take nb).all (fun b => initDone s (1 + b)) = true → (c.byte 32 ≠ 2 → sizeSum s (c.byte 32) + c.inl 36 4 ≤ perTable (c.byte 32)) →
    Runs (.tableCreate id) s fun t =>
      table? t c.target = some { Table.init with
        kind := c.byte 32, keyLen := c.byte 34, replicas := c.byte 35, size := c.inl 36 4, banks := (freeBanks s).take nb } ∧
      (∀ k, k ≠ c.target → table? t k = table? s k) ∧ t.tbl.handles = s.tbl.handles ∧ t.tbl.epoch = s.tbl.epoch) ∧
  (∀ (id : Nat) (c : Cmd) (tb : Table) (s : State), Begins s id 0x61 c → tableDeletePre c s = none → isSecondary s = false → table? s c.target = some tb →
    ((stagedAll s).any fun u => decide (u.table = c.target)) = false → Runs (.tableDelete id) s fun t =>
      table? t c.target = none ∧ mfind t.tbl.gone s.tbl.goneNext =
        some { table := c.target, banks := tb.banks, blocks := tb.blocks, posted := tb.posted } ∧ (∀ k, k ≠ c.target → table? t k = table? s k)) ∧
  (∀ (id : Nat) (c : Cmd) (s : State), Begins s id 0x61 c → tableDeletePre c s = none → isSecondary s = false →
    ((stagedAll s).any fun u => decide (u.table = c.target)) = true → exec (.tableDelete id) s = .next (finishFail id .busy (beginCmd id c s))) ∧
  (∀ (id : Nat) (pl : List (List Place)) (mg : List Found) (l : List Byte) (c : Cmd) (tb : Table) (hd : Handle) (s : State), Begins s id 0x62 c →
    tableUpdatePre c s = none → isSecondary s = false → table? s c.target = some tb → tableReady s tb = true → dmaAllowed s c.indAddr c.indLen = true →
    l.length = c.indLen → c.inl 36 4 = 1 → c.byte 32 ≠ 0 → mfind s.tbl.handles (c.byte 32) = some hd →
    updateFails s (c.byte 32) c.target tb hd.staged (parseUpdate c.target tb l) l = none → Runs (.tableUpdate id (.data l) pl mg) s fun t =>
      mfind t.tbl.handles (c.byte 32) = some { hd with
        staged := stageOne c.target tb hd.staged
          (writeEntry .update false tb (parseUpdate c.target tb l) (pl.getD 0 []) mg (beginCmd id c s)).1 } ∧
        t.tbl.tables = s.tbl.tables ∧ t.tbl.epoch = s.tbl.epoch ∧ t.tbl.commits = s.tbl.commits) ∧
  (∀ (id : Nat) (st : Status) (pl : List (List Place)) (mg : List Found) (l : List Byte) (c : Cmd) (tb : Table) (hd : Handle) (s : State),
    Begins s id 0x62 c → tableUpdatePre c s = none → isSecondary s = false → table? s c.target = some tb → tableReady s tb = true →
    dmaAllowed s c.indAddr c.indLen = true → l.length = c.indLen → c.inl 36 4 = 1 → c.byte 32 ≠ 0 → mfind s.tbl.handles (c.byte 32) = some hd →
    updateFails s (c.byte 32) c.target tb hd.staged (parseUpdate c.target tb l) l = some st →
    exec (.tableUpdate id (.data l) pl mg) s = .next (finish id st 0 0 false (beginCmd id c s))) ∧
  (∀ (id : Nat) (pl : List (List Place)) (mg : List Found) (l : List Byte) (c : Cmd) (tb : Table) (w : Update × Bool × State) (s : State),
    Begins s id 0x62 c → tableUpdatePre c s = none → isSecondary s = false → table? s c.target = some tb → tableReady s tb = true →
    dmaAllowed s c.indAddr c.indLen = true → l.length = c.indLen → c.inl 36 4 = 1 → c.byte 32 = 0 →
    updateFails s 0 c.target tb [] (parseUpdate c.target tb l) l = none →
    w = writeEntry .update false tb (parseUpdate c.target tb l) (pl.getD 0 []) mg (beginCmd id c s) → Runs (.tableUpdate id (.data l) pl mg) s fun t =>
      t.tbl.commits = s.tbl.commits ++
        [{ cmd := id, handle := 0, updates := [w.1], status := if w.2.1 then .dataPoisoned else .success, staged := 1 }] ∧
        t.tbl.tables = s.tbl.tables ∧ t.tbl.handles = s.tbl.handles) ∧
  (∀ (w : Reader) (f : Found) (r u : Nat) (s : State), 64 < r → f.region = r → f.unit = u → unitBad s f = true →
    (writePlaces w false [f] [{ region := r, unit := u, whole := false }] s).1 = true) ∧
  (∀ (w : Reader) (bad : Bool) (l : List Found) (r u : Nat) (s : State), writePlaces w bad l [{ region := r, unit := u, whole := true }] s =
    (false, if bad then poison r u s else cleanse r u u s)) ∧
  (∀ (id h : Nat) (c : Cmd) (s : State), Begins s id 0x63 c → c.target = 0 → noFields c = true → isSecondary s = false → freeHandle s = some h →
    Does (.epochOpen id) id c s (BitVec.ofNat 64 h) 0 fun x =>
      x.mapTbl fun y => { y with handles := mput y.handles h { since := s.now, staged := [], committing := false } }) ∧
  (∀ (id : Nat) (c : Cmd) (s : State), Begins s id 0x63 c → c.target = 0 → noFields c = true → isSecondary s = false → freeHandle s = none →
    exec (.epochOpen id) s = .next (finishFail id .noResource (beginCmd id c s))) ∧
  (∀ (h : Nat) (s : State), freeHandle s = some h → 1 ≤ h ∧ h ≤ 16 ∧ mhas s.tbl.handles h = false ∧
    ∀ k, 1 ≤ k → k < h → mhas s.tbl.handles k = true) ∧
  (∀ (id : Nat) (c : Cmd) (hd : Handle) (s : State), Begins s id 0x64 c → handlePre c s = none → isSecondary s = false →
    mfind s.tbl.handles c.target = some hd → hd.staged = [] → Does (.epochCommit id) id c s s.tbl.epoch 0 fun x =>
      x.mapTbl fun y => { y with handles := mdel y.handles c.target }) ∧
  (∀ (id : Nat) (c : Cmd) (hd : Handle) (s : State), Begins s id 0x64 c → handlePre c s = none → isSecondary s = false →
    mfind s.tbl.handles c.target = some hd → hd.staged ≠ [] → Runs (.epochCommit id) s fun t =>
      t.tbl.commits = s.tbl.commits ++ [{ cmd := id, handle := c.target, updates := hd.staged, status := .success, staged := 0 }] ∧
        mfind t.tbl.handles c.target = some { hd with committing := true } ∧ t.tbl.tables = s.tbl.tables ∧ t.tbl.epoch = s.tbl.epoch) ∧
  (∀ (id : Nat) (c : Cmd) (s : State), Begins s id 0x65 c → handlePre c s = none → isSecondary s = false →
    Does (.epochAbort id) id c s 0 0 fun x => x.mapTbl fun y => { y with handles := mdel y.handles c.target }) ∧
  (∀ (id : Nat) (c : Cmd) (s : State), Begins s id 0x65 c → 1 ≤ c.target → c.target ≤ 16 → noFields c = true → mfind s.tbl.handles c.target = none →
    exec (.epochAbort id) s = .next (finishFail id .objectNotFound (beginCmd id c s))) ∧
  (∀ (id : Nat) (c : Cmd) (s : State), Begins s id 0x66 c → blockBad c 0 272 = false → dmaAllowed s c.indAddr (epochBlock s).length = true →
    Does (.epochStatus id) id c s 0 0 fun x => hostWrite c.indAddr (epochBlock s) x) ∧
  (∀ (id : Nat) (c : Cmd) (tb : Table) (s : State), Begins s id 0x67 c → counterBlockBad c 255 80 = false → c.byte 63 = 0 → table? s c.target = some tb →
    dmaAllowed s c.indAddr (tableBlock s c.target tb).length = true →
    Does (.tableStatus id) id c s 0 0 fun x => hostWrite c.indAddr (tableBlock s c.target tb) x) ∧
  (∀ (id : Nat) (r : List Byte) (c : Cmd) (s : State), Begins s id 0x68 c → shapeBad c 255 0 = false → 32 ≤ c.indLen →
    dmaAllowed s c.indAddr c.indLen = true → s.tbl.diag.length < 64 → r.length = c.indLen → byteAt r 0 = 0x21 → c.indLen = 32 + round8 (byteAt r 5) →
    byteAt r 4 = c.target → Runs (.tableLookup id (.data r)) s fun t =>
      t.tbl.diagQueue = s.tbl.diagQueue ++ [id] ∧ mfind t.tbl.diag id = some { Lookup.init with req := r, table := c.target } ∧
        t.tbl.tables = s.tbl.tables ∧ t.gar = s.gar) ∧
  (∀ (id : Nat) (h : HostRead) (c : Cmd) (s : State), Begins s id 0x68 c → shapeBad c 255 0 = false → 32 ≤ c.indLen →
    dmaAllowed s c.indAddr c.indLen = true → 64 ≤ s.tbl.diag.length → exec (.tableLookup id h) s = .next (finishFail id .busy (beginCmd id c s)))

/-- A clean scrub step only moves the position; a corrected word is counted and written back; an uncorrectable one is counted and written back
poisoned; the end of a pass is counted. The hour window compares each region's count with its limit, clears it, and cause [10] holds while a
region is above. A soft repair of a row that qualifies enters the list, is logged and counted; without a resource its pages are withdrawn;
at most one per second. A retrain counts; an accepted one clears the rejects, the third rejected in a row sets cause [13], and a brownout
freeze defers it. A request enters its queue stamped, or waits outside a full one; a slot issues the nearest deadline, then the lower class,
of a bank that can accept; a withdrawn issued request leaves a dead slot. -/
def Obligations.MemoryRows : Prop :=
  (∀ (k p fl sl : Nat) (s : State), k ≤ 4 → (region s (scrubHome k).1).scrub = p → initDone s (homeRegion (scrubAt k p).1) = true → scrubGoesOn k p = true →
    readOutcome s { region := (scrubAt k p).1, unit := (scrubAt k p).2, flips := fl, slip := sl } = .clean →
    exec (.scrubStep k fl sl) s = .next (modRegion (scrubHome k).1 (fun g => { g with scrub := p + 1 }) s)) ∧
  (∀ (k p fl sl : Nat) (s : State), k ≤ 4 → (region s (scrubHome k).1).scrub = p → initDone s (homeRegion (scrubAt k p).1) = true → scrubGoesOn k p = true →
    (scrubAt k p).1 < 69 → poisoned s (scrubAt k p).1 (scrubAt k p).2 = false →
    readOutcome s { region := (scrubAt k p).1, unit := (scrubAt k p).2, flips := fl, slip := sl } = .uncorrectable → Runs (.scrubStep k fl sl) s fun t =>
      poisoned t (scrubAt k p).1 (scrubAt k p).2 = true ∧
      ctrOf (region t (scrubAt k p).1).ctr 1 = (ctrOf (region s (scrubAt k p).1).ctr 1).add 1 ∧ (region t (scrubHome k).1).scrub = p + 1) ∧
  (∀ (k p fl sl x : Nat) (s : State), k ≤ 4 → (region s (scrubHome k).1).scrub = p → initDone s (homeRegion (scrubAt k p).1) = true → scrubGoesOn k p = true →
    (scrubAt k p).1 < 69 → readOutcome s { region := (scrubAt k p).1, unit := (scrubAt k p).2, flips := fl, slip := sl } = .corrected x →
    Runs (.scrubStep k fl sl) s fun t =>
      poisoned t (scrubAt k p).1 (scrubAt k p).2 = false ∧
      ctrOf (region t (scrubAt k p).1).ctr 0 = (ctrOf (region s (scrubAt k p).1).ctr 0).add 1 ∧ (region t (scrubHome k).1).scrub = p + 1) ∧
  (∀ (k p fl sl : Nat) (s : State), k ≤ 4 → (region s (scrubHome k).1).scrub = p → initDone s (homeRegion (scrubAt k p).1) = true → scrubGoesOn k p = false →
    readOutcome s { region := (scrubAt k p).1, unit := (scrubAt k p).2, flips := fl, slip := sl } = .clean → Runs (.scrubStep k fl sl) s fun t =>
      (region t (scrubHome k).1).scrub = 0 ∧ (region t (scrubHome k).1).passAt = s.now ∧
      ctrOf (region t (scrubHome k).1).ctr 4 = (ctrOf (region s (scrubHome k).1).ctr 4).add 1 ∧
      (∀ r, r ≠ (scrubHome k).1 → region t r = region s r)) ∧
  (∀ (k fl sl : Nat) (s : State), 4 < k → exec (.scrubStep k fl sl) s = .next s) ∧
  (∀ s : State, Runs .ceHourWindow s fun t =>
    (∀ r, r < 69 → (region t r).ceHour = 0 ∧ (region t r).cells = (region s r).cells ∧
      ((if r ≤ 64 then s.mem.ceOd else s.mem.ceHbm) ≠ 0 → (if r ≤ 64 then s.mem.ceOd else s.mem.ceHbm) < (region s r).ceHour →
        (region t r).overAt = some 0)) ∧
    t.health.causes.getLsbD 2 = many t.mem.regions (fun _ g => g.overAt.isSome)) ∧
  (∀ (m ch bank row j : Nat) (pages : List Nat) (s : State), m ≤ 3 → (stack s m).repairAt = none → s.bed.boActive = false → initDone s (65 + m) = true →
    rowQualifies s m ch bank row = true → softSlot s m = some j → Runs (.softRepair m ch bank row true [] pages) s fun t =>
      mfind t.rep.soft j = some (ch, bank, row) ∧ (∀ k, k ≠ j → mfind t.rep.soft k = mfind s.rep.soft k) ∧
      (stack t m).soft = (stack s m).soft.add 1 ∧ (stack t m).repairAt = some s.now ∧ t.elog.total = s.elog.total + 1 ∧ t.buf = s.buf) ∧
  (∀ (m ch bank row : Nat) (pages : List Nat) (l : List Found) (s : State), m ≤ 3 → (stack s m).repairAt = none → s.bed.boActive = false →
    initDone s (65 + m) = true → rowQualifies s m ch bank row = true → Runs (.softRepair m ch bank row false l pages) s fun t =>
      t.rep = s.rep ∧ t.buf.pagesOut = s.buf.pagesOut ++ (pages.filter (pageInRow s m ch bank row)).eraseDups ∧ t.mem.regions = s.mem.regions ∧
        rowQualifies t m ch bank row = false) ∧
  (∀ (m ch bank row a : Nat) (free : Bool) (pages : List Nat) (l : List Found) (s : State), (stack s m).repairAt = some a → s.now < a + 1000000000 →
    exec (.softRepair m ch bank row free l pages) s = .next s) ∧
  (∀ (m ch bank row : Nat) (free : Bool) (pages : List Nat) (l : List Found) (s : State), rowQualifies s m ch bank row = false →
    exec (.softRepair m ch bank row free l pages) s = .next s) ∧
  (∀ (m ch : Nat) (s : State), m ≤ 3 → ch ≤ 31 → initDone s (65 + m) = true → s.bed.boActive = false → Runs (.hbmChannelRetrain m ch true) s fun t =>
    (channel t (32 * m + ch)).rejects = 0 ∧ (channel t (32 * m + ch)).retrains = (channel s (32 * m + ch)).retrains.add 1 ∧
    (channel t (32 * m + ch)).due = false ∧ (∀ k, k ≠ 32 * m + ch → channel t k = channel s k)) ∧
  (∀ (m ch : Nat) (s : State), m ≤ 3 → ch ≤ 31 → initDone s (65 + m) = true → s.bed.boActive = false → Runs (.hbmChannelRetrain m ch false) s fun t =>
    (channel t (32 * m + ch)).rejects = (channel s (32 * m + ch)).rejects + 1 ∧
    (channel t (32 * m + ch)).rejected = (channel s (32 * m + ch)).rejected.add 1 ∧
    ((channel s (32 * m + ch)).rejects = 2 → t.health.causes.getLsbD 5 = true) ∧ (∀ k, k ≠ 32 * m + ch → channel t k = channel s k)) ∧
  (∀ (m ch : Nat) (a : Bool) (s : State), m ≤ 3 → ch ≤ 31 → initDone s (65 + m) = true → s.bed.boActive = true →
    exec (.hbmChannelRetrain m ch a) s = .next (modChannel (32 * m + ch) (fun c => { c with due := true }) s)) ∧
  (∀ (m ch bank key : Nat) (w : Requester) (s : State), m ≤ 3 → ch ≤ 31 → (channel s (32 * m + ch)).queue.length < 256 →
    Runs (.hbmRequestEnter m ch w bank key) s fun t =>
      (channel t (32 * m + ch)).queue.length = (channel s (32 * m + ch)).queue.length + 1 ∧
      (channel t (32 * m + ch)).queue.getLast? = some { Req.init with
        cls := requestClass w, bank := bank, id := key, entered := s.now, deadline := s.now + (s.mem.budget[requestClass w]?).getD 0 } ∧
      (channel t (32 * m + ch)).waiting = (channel s (32 * m + ch)).waiting) ∧
  (∀ (m ch bank key : Nat) (w : Requester) (s : State), m ≤ 3 → ch ≤ 31 → 256 ≤ (channel s (32 * m + ch)).queue.length →
    Runs (.hbmRequestEnter m ch w bank key) s fun t =>
      (channel t (32 * m + ch)).queue.length = (channel s (32 * m + ch)).queue.length ∧
      (channel t (32 * m + ch)).waiting.length = (channel s (32 * m + ch)).waiting.length + 1) ∧
  (∀ (m ch key : Nat) (r : Req) (s : State), m ≤ 3 → markOverdue (32 * m + ch) s = s → (channel s (32 * m + ch)).waiting = [] →
    (channel s (32 * m + ch)).queue.find? (fun r => decide (r.id = key)) = some r → Runs (.hbmRequestWithdraw m ch key) s fun t =>
      (channel t (32 * m + ch)).queue = (channel s (32 * m + ch)).queue.erase r ∧ (stack t m).dead = (stack s m).dead) ∧
  (∀ (m ch key : Nat) (r : Req) (s : State), m ≤ 3 → (channel s (32 * m + ch)).queue = [] → (channel s (32 * m + ch)).waiting = [] →
    (channel s (32 * m + ch)).issued = some r → r.id = key → Runs (.hbmRequestWithdraw m ch key) s fun t =>
      (channel t (32 * m + ch)).issued = none ∧ (stack t m).dead = (stack s m).dead.add 1) ∧
  (∀ (busy : List Nat) (l : List Req) (r : Req), pickReq busy l = some r → r ∈ l ∧ busy.contains r.bank = false ∧
    ∀ x, x ∈ l → busy.contains x.bank = false → r.deadline ≤ x.deadline ∧ (r.deadline = x.deadline → r.cls ≤ x.cls)) ∧
  (∀ (m ch : Nat) (busy : List Nat) (r : Req) (s : State), markOverdue (32 * m + ch) s = s → (channel s (32 * m + ch)).waiting = [] →
    pickReq busy (channel s (32 * m + ch)).queue = some r → Runs (.channelSlot m ch busy) s fun t =>
      (channel t (32 * m + ch)).issued = some r ∧ (channel t (32 * m + ch)).queue = (channel s (32 * m + ch)).queue.erase r ∧
      (∀ k, k ≠ 32 * m + ch → channel t k = channel s k)) ∧
  (∀ (m ch : Nat) (busy : List Nat) (s : State), (channel s (32 * m + ch)).queue = [] → (channel s (32 * m + ch)).issued = none →
    exec (.channelSlot m ch busy) s = .next s)

/-- In a memory of the canonical form a byte written reads back and no other byte changes, bytes written in a row read back in a row, and two
memories that read alike at every address are the same data. MEM_WRITE of whole words with debug on stores the bytes and clears the poison
of its words; without debug it is GUARD_REQUIRED. MEM_READ of a clean range writes the stored bytes to host memory; a poisoned unit makes it
DATA_POISONED with the unit's index. A partial write of a poisoned word stores its bytes, leaves the word poisoned and is counted. A region
without INIT_DONE is NOT_READY. The check bits of an on-die word make its syndrome 0; one bit that differs is corrected, one address bit
that differs and poison alone are uncorrectable, and poison never reads clean with one bit that differs. -/
def Obligations.MemoryReadsAfterWrites : Prop :=
  (∀ (m : Memory) (k j : Nat) (v : Byte), m.wf = true → (m.put k v).get j = (if j = k then v else m.get j) ∧ (m.put k v).wf = true) ∧
  (∀ (m : Memory) (a : Nat) (l : List Byte), m.wf = true → (m.putBytes a l).getBytes a l.length = l ∧ (m.putBytes a l).wf = true ∧
    ∀ j, j < a ∨ a + l.length ≤ j → (m.putBytes a l).get j = m.get j) ∧
  (∀ m n : Memory, m.wf = true → n.wf = true → (∀ k, m.get k = n.get k) → m = n) ∧
  (∀ (id : Nat) (l : List Byte) (c : Cmd) (s : State), Begins s id 0xA1 c → memCmdBad c = false → initDone s c.target = true → s.guard.debug = true →
    dmaAllowed s c.indAddr c.memLen = true → l.length = c.memLen → partialWords c.target c.memOff c.memLen = [] →
    Does (.memWrite id (.data l) []) id c s 0 0 fun x =>
      let lo := unitBase c.target + c.memOff / wordBytes c.target
      let hi := unitBase c.target + (c.memOff + c.memLen - 1) / wordBytes c.target
      let y := modRegion c.target (fun g => { g with
        cells := Memory.putBytes g.cells c.memOff l, bad := g.bad.filter fun u => decide (u < lo) || decide (hi < u) }) x
      if c.target = 0 then forEach (List.range' (lo / 32) (hi / 32 + 1 - lo / 32)) cellWritten y else y) ∧
  (∀ (id u : Nat) (l : List Byte) (c : Cmd) (s : State), Begins s id 0xA1 c → memCmdBad c = false → initDone s c.target = true → s.guard.debug = true →
    dmaAllowed s c.indAddr c.memLen = true → l.length = c.memLen → partialWords c.target c.memOff c.memLen = [u] → poisoned s c.target u = true →
    unitBad s { region := c.target, unit := u, flips := 0, slip := 0 } = true → Runs (.memWrite id (.data l) []) s fun t =>
      poisoned t c.target u = true ∧ Memory.getBytes (region t c.target).cells c.memOff c.memLen = l ∧
        ctrOf (region t c.target).ctr 3 = (ctrOf (region s c.target).ctr 3).add 1) ∧
  (∀ (id : Nat) (h : HostRead) (f : List Found) (c : Cmd) (s : State), Begins s id 0xA1 c → memCmdBad c = false → initDone s c.target = true →
    s.guard.debug = false → exec (.memWrite id h f) s = .next (finishFail id .guardRequired (beginCmd id c s))) ∧
  (∀ (id : Nat) (c : Cmd) (s : State), Begins s id 0xA0 c → memCmdBad c = false → initDone s c.target = true → dmaAllowed s c.indAddr c.memLen = true →
    (region s c.target).bad = [] → (region s c.target).mixed = false → Does (.memRead id []) id c s 0 0 fun x =>
      hostWrite c.indAddr (Memory.getBytes (region s c.target).cells c.memOff c.memLen) x) ∧
  (∀ (id u : Nat) (c : Cmd) (s : State), Begins s id 0xA0 c → memCmdBad c = false → initDone s c.target = true → dmaAllowed s c.indAddr c.memLen = true →
    (region s c.target).bad = [u] → (region s c.target).mixed = false → unitBase c.target + c.memOff / wordBytes c.target ≤ u →
    u ≤ unitBase c.target + (c.memOff + c.memLen - 1) / wordBytes c.target → exec (.memRead id []) s =
      .next (finish id .dataPoisoned (BitVec.ofNat 64 u) 0 true
        (hostWrite c.indAddr (Memory.getBytes (region s c.target).cells c.memOff c.memLen)
          (memReads .diagnostic [{ region := c.target, unit := u, flips := 0, slip := 0 }] (beginCmd id c s))))) ∧
  (∀ (id : Nat) (f : List Found) (c : Cmd) (s : State), Begins s id 0xA0 c → memCmdBad c = false → initDone s c.target = false →
    exec (.memRead id f) s = .next (finishFail id .notReady (beginCmd id c s))) ∧
  (∀ (a d : Nat), d < 2 ^ 64 → onDieSyndrome a (d + 2 ^ 64 * onDieCheck a d) = 0) ∧
  (∀ j, j < 72 → onDieOutcome false (2 ^ j) 0 = .corrected (if j < 64 then 2 ^ j else 0)) ∧
  (∀ i, i < 64 → onDieOutcome false 0 (2 ^ i) = .uncorrectable) ∧ onDieOutcome true 0 0 = .uncorrectable ∧
  (∀ j, j < 72 → onDieOutcome true (2 ^ j) 0 ≠ .clean) ∧ hbmOutcome false 0 0 = .clean ∧ hbmOutcome true 0 0 = .uncorrectable

/-- TIME_SET with SET gives the clock the time it carries and starts it; a step back past zero is INVALID_FIELD; a command that needs the clock
is NOT_READY while it does not run; the Geode secondary refuses a change. A feed steps the servo in TRACKING, starts tracking from FREE_RUN
when enabled, and does nothing in OFF; the adjustment stays within 500,000 ppb. SERVO_SET sets the gains and moves the state by ENABLE. The
gets report and change nothing. TIME_PINS sets the pins and squelches an output whose source changes. PORT_TS_SET sets both asymmetries of
its port. TS_CAPTURE_READ takes the oldest records and the count of those lost. -/
def Obligations.TimeCommands : Prop :=
  (∀ (id : Nat) (c : Cmd) (s : State), Begins s id 0x80 c → plainBad c 0 16 = false → c.byte 32 = 0 → c.byte 33 = 0 → c.inl 40 4 ≤ 999999999 →
    isSecondary s = false → c.flag 2 = false → Runs (.timeSet id) s fun t =>
      t.tim.sec = BitVec.ofNat 64 (c.inl 34 6) ∧ t.tim.ns = c.inl 40 4 ∧ t.tim.frac = c.inl 44 4 ∧ t.tim.running = true ∧ t.tim.f = s.tim.f ∧
        t.tim.servo = s.tim.servo) ∧
  (∀ (id : Nat) (c : Cmd) (s : State), Begins s id 0x80 c → plainBad c 0 16 = false → c.byte 32 = 2 → c.byte 33 = 0 → s.tim.running = true →
    clockUnits s < setUnits c → exec (.timeSet id) s = .next (finishFail id .invalidField (beginCmd id c s))) ∧
  (∀ (id : Nat) (c : Cmd) (s : State), Begins s id 0x80 c → plainBad c 0 16 = false → c.byte 32 = 1 → c.byte 33 = 0 → c.inl 40 4 ≤ 999999999 →
    s.tim.running = false → exec (.timeSet id) s = .next (finishFail id .notReady (beginCmd id c s))) ∧
  (∀ (id : Nat) (c : Cmd) (s : State), Begins s id 0x80 c → plainBad c 0 16 = false → c.byte 32 = 0 → c.byte 33 = 0 → c.inl 40 4 ≤ 999999999 →
    isSecondary s = true → exec (.timeSet id) s = .next (finishFail id .permission (beginCmd id c s))) ∧
  (∀ (id : Nat) (c : Cmd) (s : State), Begins s id 0x81 c → plainBad c 0 8 = false → (signed 64 (c.inl 32 8)).natAbs < 1000000000 * 2 ^ 16 →
    s.tim.running = true → isSecondary s = false → c.flag 2 = false → Does (.servoFeed id) id c s 0 0 fun x =>
      x.mapTim fun t => servoFeed (signed 64 (c.inl 32 8)) { t with blockOn := true }) ∧
  (∀ (o : Int) (t : Tim), (t.servo = .off → servoFeed o t = t) ∧
    (t.servo = .tracking → (servoFeed o t).servo = .tracking ∧ (servoFeed o t).f.num ≤ 500000 * 2 ^ (servoFeed o t).f.exp ∧
      -(500000 * 2 ^ (servoFeed o t).f.exp) ≤ (servoFeed o t).f.num) ∧
    (t.servo = .freeRun → t.enable = true → (servoFeed o t).servo = .tracking) ∧ (t.servo = .freeRun → t.enable = false → servoFeed o t = t)) ∧
  (∀ (id : Nat) (c : Cmd) (s : State), Begins s id 0x82 c → plainBad c 0 12 = false → c.byte 32 = 1 → c.inlZero 33 3 = true → isSecondary s = false →
    c.flag 2 = false → Runs (.servoSet id) s fun t =>
      t.tim.kp = c.inl 36 4 ∧ t.tim.ki = c.inl 40 4 ∧ t.tim.enable = true ∧
      t.tim.servo = (if s.tim.servo = .tracking then .tracking else .freeRun) ∧ (s.tim.servo = .off → t.tim.f = s.tim.favg) ∧ t.tim.sec = s.tim.sec) ∧
  (∀ (id : Nat) (c : Cmd) (s : State), Begins s id 0x82 c → plainBad c 0 12 = false → c.byte 32 = 0 → c.inlZero 33 3 = true → isSecondary s = false →
    c.flag 2 = false → Runs (.servoSet id) s fun t =>
      t.tim.enable = false ∧ t.tim.servo = (if s.tim.servo = .tracking then .freeRun else .off) ∧ (s.tim.servo = .tracking → t.tim.f = s.tim.favg)) ∧
  (∀ (id : Nat) (c : Cmd) (s : State), Begins s id 0x83 c → plainBad c 0 0 = false → c.flag 2 = false →
    Does (.timeGet id) id c s (BitVec.ofNat 64 (s.tim.sec.toNat % 2 ^ 48)) (BitVec.ofNat 64 (s.tim.ns * 2 ^ 32 + s.tim.frac)) fun x =>
      x.mapTim fun t => { t with blockOn := true }) ∧
  (∀ (id : Nat) (c : Cmd) (s : State), Begins s id 0x83 c → plainBad c 0 0 = false → c.flag 2 = true → s.tim.blockOn = false →
    exec (.timeGet id) s = .next (finishFail id .blockOff (beginCmd id c s))) ∧
  (∀ (id : Nat) (c : Cmd) (s : State), Begins s id 0x87 c → plainBad c 0 0 = false → c.flag 2 = false → Does (.timeStatus id) id c s
    (BitVec.ofNat 64 (s.tim.servo.code + 4 * b2n s.tim.ppsHere + 8 * b2n s.tim.running)) (freqWord s.tim) fun x =>
      x.mapTim fun t => { t with blockOn := true }) ∧
  (∀ (id : Nat) (c : Cmd) (s : State), Begins s id 0x84 c → plainBad c 0 8 = false → c.byte 32 ≤ 31 → c.byte 35 = 0 → 1 ≤ c.inl 36 4 →
    c.inl 36 4 ≤ 500000 → synceMissing c s = false → c.flag 2 = false → Runs (.timePins id) s fun t =>
      t.tim.pins = BitVec.ofNat 5 (c.byte 32) ∧ t.tim.src0 = c.byte 33 ∧ t.tim.src1 = c.byte 34 ∧ t.tim.width = c.inl 36 4 ∧
      (s.tim.src0 ≠ c.byte 33 → t.tim.synceOn.getLsbD 0 = false) ∧ (s.tim.src1 ≠ c.byte 34 → t.tim.synceOn.getLsbD 1 = false) ∧ t.tim.sec = s.tim.sec) ∧
  (∀ (id : Nat) (c : Cmd) (q : Port) (s : State), Begins s id 0x85 c → portTsSetPre c s = none → port? s c.target = some q → s.tim.running = true →
    isSecondary s = false → c.flag 2 = false → Runs (.portTsSet id) s fun t =>
      port? t c.target = some { q with rxAsym := signed 32 (c.inl 32 4), txAsym := signed 32 (c.inl 36 4) } ∧ PortsBut c.target s t) ∧
  (∀ (id : Nat) (c : Cmd) (s : State), Begins s id 0x86 c → shapeBad c 0 4 = false → 1 ≤ c.inl 32 4 → c.inl 32 4 ≤ 4096 →
    32 * c.inl 32 4 ≤ c.indLen → dmaAllowed s c.indAddr (32 * c.inl 32 4) = true → c.flag 2 = false → s.tim.caps ≠ [] →
    Does (.tsCaptureRead id) id c s (BitVec.ofNat 64 (min (c.inl 32 4) s.tim.caps.length)) (BitVec.ofNat 64 (sat 64 s.tim.capsLost)) fun x =>
      hostWrite c.indAddr (s.tim.caps.take (c.inl 32 4)).flatten
        (x.mapTim fun t => { t with blockOn := true, caps := s.tim.caps.drop (c.inl 32 4), capsLost := 0 }))

/-- While the clock runs, a whole second raises the enabled PPS outputs, and the end of the pulse lowers one. An accepted PPS edge stores one
capture record while the clock runs, and one about a second after another makes PPS present; an edge within 100 ms, or with the input
disabled or unpowered, is nothing. PPS is lost once. TRACKING without a feed becomes FREE_RUN at the average; in another state the timeout
is nothing. A SyncE output is unsquelched only with its pin enabled and its source lane ACQUIRED in a port. -/
def Obligations.TimeRows : Prop :=
  (∀ s : State, s.tim.running = true → exec .ppsOutEdge s =
    .next (s.mapTim fun t => { t with ppsOut := t.ppsOut ||| BitVec.ofNat 2 (t.pins.toNat / 2) })) ∧
  (∀ s : State, s.tim.running = false → exec .ppsOutEdge s = .next s) ∧
  (∀ (p : Nat) (s : State), p < 2 → Runs (.ppsOutPulseEnd p) s fun t =>
    t.tim.ppsOut.getLsbD p = false ∧ (∀ q, q < 2 → q ≠ p → t.tim.ppsOut.getLsbD q = s.tim.ppsOut.getLsbD q) ∧ t.tim.sec = s.tim.sec ∧ t.tim.pins = s.tim.pins) ∧
  (∀ s : State, s.tim.pins.getLsbD 0 = false ∨ railUp s 11 = false → exec .ppsInEdge s = .next s) ∧
  (∀ (a : Nat) (s : State), s.tim.ppsAt = some a → s.now < a + 100000000 → exec .ppsInEdge s = .next s) ∧
  (∀ s : State, s.tim.pins.getLsbD 0 = true → railUp s 11 = true → s.tim.ppsAt = none → s.tim.running = true → s.tim.caps.length < 4096 → Runs .ppsInEdge s fun t =>
    t.tim.caps.length = s.tim.caps.length + 1 ∧ (t.tim.caps.getLast?).map (fun r => r.take 2) = some [0, 1] ∧ t.tim.ppsAt = some s.now ∧
      t.tim.ppsHere = s.tim.ppsHere ∧ t.tim.sec = s.tim.sec ∧ t.tim.ns = s.tim.ns) ∧
  (∀ (d : Nat) (s : State), s.tim.pins.getLsbD 0 = true → railUp s 11 = true → ppsApart s = some d → 900000000 ≤ d → d ≤ 1100000000 →
    s.tim.ppsAt.any (fun a => decide (s.now < a + 100000000)) = false → Runs .ppsInEdge s fun t => t.tim.ppsHere = true ∧ t.tim.ppsAt = some s.now) ∧
  (∀ s : State, s.tim.ppsHere = true → Runs .ppsInLost s fun t => t.tim = { s.tim with ppsHere := false }) ∧
  (∀ s : State, s.tim.ppsHere = false → exec .ppsInLost s = .next s) ∧
  (∀ s : State, s.tim.servo = .tracking → Runs .servoFeedTimeout s fun t => t.tim = { s.tim with servo := .freeRun, f := s.tim.favg }) ∧
  (∀ s : State, s.tim.servo ≠ .tracking → exec .servoFeedTimeout s = .next s) ∧
  (∀ s : State, s.tim.pins.getLsbD 3 = true → (lane s s.tim.src0).state = .acquired → (lane s s.tim.src0).port.isSome = true →
    Runs (.synceUnsquelch 0) s fun t => t.tim.synceOn.getLsbD 0 = true ∧ t.tim.synceOn.getLsbD 1 = s.tim.synceOn.getLsbD 1 ∧ t.lanes = s.lanes) ∧
  (∀ (o : Nat) (s : State), o < 2 → s.tim.pins.getLsbD (3 + o) = false → exec (.synceUnsquelch o) s = .next s)

/-- AUXDAC_SET gives every output of its mask the code and mode, a change of mode passing through high impedance; a faulted output makes it
HW_ERROR, and it waits while an interval runs. The end of the interval ends it for every output. An over-temperature returns the output to
its power-up setting with flag and fault and alert cause [11], once. The fault's end clears both. AUXADC_SEQ sets the sequence. A trigger
starts a sequence, is latched, or is counted as overrun. A sequence's end stores the codes, saturated, and starts the latched one.
AUX_STATUS writes its block. Without the rail the commands are NOT_READY. -/
def Obligations.AuxiliaryRowsAndCommands : Prop :=
  (∀ (id : Nat) (c : Cmd) (s : State), Begins s id 0xD8 c → dacChanging s = false → plainBad c 0 5 = false → c.inl 34 2 ≤ 4095 → c.byte 36 ≤ 2 →
    auxUp s = true → ((maskBits 16 (c.inl 32 2)).any fun m => (dacOut s m).fault) = false → Runs (.auxdacSet id) s fun t =>
      ∀ m, dacOut t m = (if m < 16 ∧ bitOf (c.inl 32 2) m = true then (dacOut s m).take (c.inl 34 2) (c.byte 36) else dacOut s m)) ∧
  (∀ (id : Nat) (c : Cmd) (s : State), Begins s id 0xD8 c → dacChanging s = false → plainBad c 0 5 = false → c.inl 34 2 ≤ 4095 → c.byte 36 ≤ 2 →
    auxUp s = true → ((maskBits 16 (c.inl 32 2)).any fun m => (dacOut s m).fault) = true →
    exec (.auxdacSet id) s = .next (finishFail id .hwError (beginCmd id c s))) ∧
  (∀ (id : Nat) (s : State), dacChanging s = true → exec (.auxdacSet id) s = .next s) ∧
  (∀ s : State, Runs .auxdacModeChangeEnd s fun t => dacChanging t = false ∧ ∀ m, (dacOut t m).code = (dacOut s m).code ∧ (dacOut t m).mode = (dacOut s m).mode) ∧
  (∀ (m : Nat) (s : State), m < 16 → auxUp s = true → s.bed.auxValid = true → (dacOut s m).fault = false → Runs (.auxOverTemp m) s fun t =>
    (dacOut t m).code = BitVec.ofNat 12 (dacOtp s m).1 ∧ (dacOut t m).mode = (dacOtp s m).2 ∧ (dacOut t m).overTemp = true ∧ (dacOut t m).fault = true ∧
      t.mgmt.alert = s.mgmt.alert ||| 8 ∧ (∀ k, k ≠ m → dacOut t k = dacOut s k)) ∧
  (∀ (m : Nat) (s : State), m < 16 → auxUp s = true → s.bed.auxValid = true → (dacOut s m).fault = true →
    exec (.auxOverTemp m) s = .next (modDac m (fun d => { d with overTemp := true }) s)) ∧
  (∀ (m : Nat) (s : State), Runs (.auxdacFaultEnd m) s fun t =>
    (dacOut t m).fault = false ∧ (dacOut t m).code = (dacOut s m).code ∧ (∀ k, k ≠ m → dacOut t k = dacOut s k)) ∧
  (∀ (id : Nat) (c : Cmd) (s : State), Begins s id 0xD9 c → plainBad c 0 8 = false → c.inl 32 2 ≠ 0 → c.byte 34 = 1 → c.byte 35 = 0 →
    10 ≤ c.inl 36 4 → c.inl 36 4 ≤ 1000000 → auxUp s = true → c.flag 2 = false → Does (.auxadcSeq id) id c s 0 0 fun x =>
      x.mapAdc fun a => { a with mask := c.inl 32 2, source := 1, period := c.inl 36 4, periodFrom := s.now }) ∧
  (∀ (id : Nat) (c : Cmd) (s : State), Begins s id 0xDA c → plainBad c 0 0 = false → auxUp s = true → c.flag 2 = false → s.adc.run = 0 →
    Does (.auxadcTrigger id) id c s 0 0 fun x => x.mapAdc fun a => { a with run := s.adc.mask }) ∧
  (∀ (id : Nat) (c : Cmd) (s : State), Begins s id 0xDA c → plainBad c 0 0 = false → auxUp s = true → s.adc.run ≠ 0 → s.adc.latched = false →
    Does (.auxadcTrigger id) id c s 1 0 fun x => x.mapAdc fun a => { a with latched := true }) ∧
  (∀ (id : Nat) (c : Cmd) (s : State), Begins s id 0xDA c → plainBad c 0 0 = false → auxUp s = true → s.adc.run ≠ 0 → s.adc.latched = true →
    Does (.auxadcTrigger id) id c s 2 0 fun x => x.mapObs fun o => { o with overrun := o.overrun.add 1 }) ∧
  (∀ (id : Nat) (c : Cmd) (s : State), Begins s id 0xDA c → plainBad c 0 0 = false → auxUp s = false →
    exec (.auxadcTrigger id) s = .next (finishFail id .notReady (beginCmd id c s))) ∧
  (∀ s : State, s.adc.source ≠ 1 → exec .adcPeriodTimer s = .next s) ∧
  (∀ s : State, s.adc.source = 1 → s.adc.mask ≠ 0 → auxUp s = true → s.adc.run = 0 → Runs .adcPeriodTimer s fun t =>
    t.adc = { s.adc with periodFrom := s.now, run := s.adc.mask } ∧ t.obs = s.obs) ∧
  (∀ (l : List Nat) (s : State), s.adc.run = 0 → exec (.adcSequenceEnd l) s = .next s) ∧
  (∀ (l : List Nat) (s : State), s.adc.run ≠ 0 → Runs (.adcSequenceEnd l) s fun t =>
    t.adc.run = (if s.adc.latched then s.adc.mask else 0) ∧ t.adc.latched = false ∧ t.obs.adcDone = s.obs.adcDone.add 1 ∧
      (∀ k, bitOf s.adc.run k = false → mget t.adc.codes k 0 = mget s.adc.codes k 0)) ∧
  (∀ (v : Nat) (s : State), s.adc.run = 1 → Runs (.adcSequenceEnd [v]) s fun t => mget t.adc.codes 0 0 = min v 4095) ∧
  (∀ (id : Nat) (c : Cmd) (s : State), Begins s id 0xDB c → counterBlockBad c 0 80 = false → c.byte 63 = 0 → auxUp s = true →
    dmaAllowed s c.indAddr (auxBlock s).length = true → Does (.auxStatus id []) id c s 0 0 fun x => hostWrite c.indAddr (auxBlock s) x)

/-- A device with a role sends its HELLO over a link that is up. A received HELLO becomes what is known of the peer; one with a reserved value
is counted. Of two primaries the one with the greater Device Serial Number takes secondary. A primary owes its secondary one resync. The
primary sends TIME records while its clock runs; the secondary sets its clock by the first, and a record of a clock that does not run
changes nothing. The secondary measures the round trip. A CONFIG record is applied in order; a skipped number, a record that fails, an epoch
that breaks off or ends with a wrong number clears IN_SYNC. An entry carrying POISON is written poisoned. A full epoch received whole
switches under the primary's number and puts a secondary in resync in sync. -/
def Obligations.GeodeRecordRows : Prop :=
  (∀ s : State, s.bed.geoRole ≠ 0 → geoUp s = true → Runs .helloSend s fun t =>
    (link t geodeLink).resp = (link s geodeLink).resp ++ [helloRecord s] ∧ t.geo = s.geo ∧ t.bed = s.bed ∧ LinksBut geodeLink s t) ∧
  (∀ s : State, s.bed.geoRole = 0 ∨ geoUp s = false → exec .helloSend s = .next s) ∧
  (∀ s : State, s.bed.geoRole = 0 → exec .helloReceive s = .next s) ∧
  (∀ (r : List Byte) (s : State), s.bed.geoRole ≠ 0 → (link s geodeLink).recs.find? (isType 0x60) = some r → 2 < byteAt r 1 ∨ 3 < byteAt r 2 →
    Runs .helloReceive s fun t => t.geo = s.geo ∧ t.bed = s.bed ∧ ctrOf (link t geodeLink).ctr 9 = (ctrOf (link s geodeLink).ctr 9).add 1 ∧
      (link t geodeLink).recs = (link s geodeLink).recs.erase r) ∧
  (∀ (r : List Byte) (s : State), s.bed.geoRole = 2 → s.geo.blind = false → s.geo.peer ≠ none → (link s geodeLink).recs.find? (isType 0x60) = some r →
    byteAt r 1 ≤ 2 → byteAt r 2 ≤ 3 → Runs .helloReceive s fun t =>
      t.geo.peer = some (helloOf r) ∧ t.bed = s.bed ∧ (link t geodeLink).recs = (link s geodeLink).recs.erase r ∧ t.geo.inSync = s.geo.inSync) ∧
  (∀ (r : List Byte) (s : State), s.bed.geoRole = 1 → s.geo.blind = false → s.geo.inn = none → s.geo.out = none →
    (link s geodeLink).recs.find? (isType 0x60) = some r → byteAt r 1 = 1 → byteAt r 2 ≤ 3 →
    Runs .helloReceive s fun t => t.bed.geoRole = (if wireAt r 16 8 < Config.serial.toNat then 2 else 1) ∧
      t.geo.cause = (if wireAt r 16 8 < Config.serial.toNat then 1 else s.geo.cause) ∧ t.geo.peer = some (helloOf r)) ∧
  (∀ (r : List Byte) (s : State), s.bed.geoRole = 1 → s.geo.blind = false → s.geo.out = none → s.geo.resynced = false →
    (link s geodeLink).recs.find? (isType 0x60) = some r → byteAt r 1 = 2 → byteAt r 2 < 3 → Runs .helloReceive s fun t =>
      t.geo.resynced = true ∧ t.bed.geoRole = 1 ∧ t.tbl = s.tbl ∧ t.buf.iq = s.buf.iq ∧ t.buf.eq = s.buf.eq) ∧
  (∀ s : State, roleNow s = 1 → geoUp s = true → s.tim.running = true → Runs .timeRecordSend s fun t =>
    (link t geodeLink).resp = (link s geodeLink).resp ++ [timeRecord s] ∧ t.tim = s.tim ∧ LinksBut geodeLink s t) ∧
  (∀ s : State, s.tim.running = false → exec .timeRecordSend s = .next s) ∧
  (∀ (r : List Byte) (s : State), roleNow s = 2 → geoUp s = true → (link s geodeLink).recs.find? (isType 0x68) = some r → bitOf (byteAt r 25) 0 = true →
    s.geo.timeSet = false → wireAt r 8 8 * 1000000000 + wireAt r 16 4 + s.geo.oneWay < 2 ^ 64 * 1000000000 → Runs .timeRecordReceive s fun t =>
      clockUnits t = ((wireAt r 8 8 * 1000000000 + wireAt r 16 4 + s.geo.oneWay) * 2 ^ 32 + wireAt r 20 4 : Nat) ∧ t.tim.running = true ∧
        t.geo.timeSet = true ∧ t.tim.servo = .tracking) ∧
  (∀ (r : List Byte) (s : State), (link s geodeLink).recs.find? (isType 0x68) = some r → bitOf (byteAt r 25) 0 = false →
    Runs .timeRecordReceive s fun t => t.tim = s.tim ∧ t.geo = s.geo) ∧
  (∀ s : State, roleNow s ≠ 2 → exec .timeRecordReceive s = .next s ∧ exec .geodeRoundTrip s = .next s ∧ exec .configReceive s = .next s ∧
    exec .epochBeginReceive s = .next s ∧ (∀ pl mg, exec (.epochEntryReceive pl mg) s = .next s) ∧ exec .epochEndReceive s = .next s ∧ exec .handoverReceive s = .next s) ∧
  (∀ s : State, roleNow s = 2 → geoUp s = true → Runs .geodeRoundTrip s fun t =>
    t.geo.echoAt = some s.now ∧ (∃ d : List Byte, d.length = 4 ∧ (link t geodeLink).ctl = (link s geodeLink).ctl ++ [ctlRecord 4 0 d]) ∧ LinksBut geodeLink s t) ∧
  (∀ (r : List Byte) (s u : State), roleNow s = 2 → (link s geodeLink).recs.find? mirrorKind = some r → byteAt r 0 = 0x64 →
    s.geo.epochIn.any (·.ended) = false → s.geo.inSync = true → s.geo.seqKnown = true → BitVec.ofNat 32 (wireAt r 4 4) = s.geo.seq + 1 →
    applyMirrored (cmdOfConfig r) ((modLink geodeLink (fun l => { l with recs := l.recs.erase r }) s).mapGeo fun g =>
      { g with seq := BitVec.ofNat 32 (wireAt r 4 4), seqKnown := true }) = some u → exec .configReceive s = .next u) ∧
  (∀ (r : List Byte) (s : State), roleNow s = 2 → (link s geodeLink).recs.find? mirrorKind = some r → byteAt r 0 = 0x64 →
    s.geo.epochIn.any (·.ended) = false → s.geo.seqKnown = true → BitVec.ofNat 32 (wireAt r 4 4) ≠ s.geo.seq + 1 → byteAt r 1 ≠ 0x45 →
    Runs .configReceive s fun t => t.geo.inSync = false ∧ t.geo.seq = BitVec.ofNat 32 (wireAt r 4 4)) ∧
  (∀ (r : List Byte) (s : State), roleNow s = 2 → (link s geodeLink).recs.find? mirrorKind = some r → byteAt r 0 = 0x65 → s.geo.epochIn = none →
    Runs .epochBeginReceive s fun t => t.geo.epochIn = some { num := wireAt r 8 8, full := bitOf (byteAt r 1) 0, count := wireAt r 16 4, updates := [], ended := false } ∧
      t.geo.inSync = s.geo.inSync ∧ t.tbl = s.tbl) ∧
  (∀ (r : List Byte) (e : EpochIn) (s : State), roleNow s = 2 → (link s geodeLink).recs.find? mirrorKind = some r → byteAt r 0 = 0x65 →
    s.geo.epochIn = some e → e.ended = false → Runs .epochBeginReceive s fun t => t.geo.inSync = false ∧ (t.geo.epochIn.map (·.updates)) = some []) ∧
  (∀ (pl : List Place) (mg : List Found) (r : List Byte) (e : EpochIn) (tb : Table) (s : State), roleNow s = 2 → (link s geodeLink).recs.find? mirrorKind = some r → byteAt r 0 = 0x66 →
    s.geo.epochIn = some e → e.ended = false → table? s (byteAt r 1) = some tb → Runs (.epochEntryReceive pl mg) s fun t =>
      (∃ u, t.geo.epochIn = some { e with updates := e.updates ++ [u] } ∧ u.table = byteAt r 1 ∧ (entryBad tb u (r.drop 8) = true → t.geo.inSync = false) ∧
        (entryBad tb u (r.drop 8) = false → bitOf (byteAt r 2) 0 = true → ∀ p, p ∈ pl → poisoned t p.region p.unit = true)) ∧ t.tbl = s.tbl) ∧
  (∀ (r : List Byte) (e : EpochIn) (s : State), roleNow s = 2 → (link s geodeLink).recs.find? mirrorKind = some r → byteAt r 0 = 0x67 →
    s.geo.epochIn = some e → e.ended = false → e.num = wireAt r 8 8 → e.full = true → s.geo.resync = true → e.count = e.updates.length →
    s.bed.boActive = false → Runs .epochEndReceive s fun t =>
      t.tbl.epoch = BitVec.ofNat 64 e.num ∧ t.geo.epochIn = none ∧ t.geo.inSync = true ∧ t.tbl.tables = (switchUpdates e.updates s).tbl.tables) ∧
  (∀ (r : List Byte) (s : State), roleNow s = 2 → (link s geodeLink).recs.find? mirrorKind = some r → byteAt r 0 = 0x67 →
    s.geo.epochIn = none → Runs .epochEndReceive s fun t => t.geo.inSync = false ∧ t.tbl = s.tbl)

/-- HANDOVER makes the secondary primary with its cause, waiting for DARK; a reserved cause is counted. DARK is noted, and the ramp up starts
once it has come or the link is lost. TAKEN ends the switchover on the old primary and completes its command. A link that goes down forgets
the peer; with SWITCH_ON_LINK_LOSS a primary that is not FAILED takes secondary at once with cause 3 and the secondary notes the time, and
takes primary when the loss lasts. GEODE_SET sets SWITCH_ON_LINK_LOSS. GEODE_SWITCHOVER is PERMISSION but on the primary, PEER_UNAVAILABLE
without an in-sync secondary, and otherwise makes the device secondary. GEODE_STATUS reports. -/
def Obligations.GeodeRolesAndCommands : Prop :=
  (∀ (r : List Byte) (s : State), roleNow s = 2 → (link s geodeLink).recs.find? mirrorKind = some r → byteAt r 0 = 0x61 →
    s.geo.epochIn.any (·.ended) = false → 1 ≤ byteAt r 1 → byteAt r 1 ≤ 2 → Runs .handoverReceive s fun t =>
      t.bed.geoRole = 1 ∧ t.geo.inn = some { cause := byteAt r 1, dark := false, lost := false, ramping := false } ∧ t.geo.cause = byteAt r 1 ∧
        t.geo.blind = false ∧ t.tim.servo = .freeRun ∧ t.tbl = s.tbl ∧ t.buf = s.buf) ∧
  (∀ (r : List Byte) (s : State), roleNow s = 2 → (link s geodeLink).recs.find? mirrorKind = some r → byteAt r 0 = 0x61 →
    s.geo.epochIn.any (·.ended) = false → byteAt r 1 = 0 ∨ 2 < byteAt r 1 → Runs .handoverReceive s fun t =>
      t.bed = s.bed ∧ t.geo = s.geo ∧ ctrOf (link t geodeLink).ctr 9 = (ctrOf (link s geodeLink).ctr 9).add 1) ∧
  (∀ (r : List Byte) (s : State), (link s geodeLink).recs.find? (isType 0x62) = some r → Runs .darkReceive s fun t =>
    t.geo = { s.geo with inn := s.geo.inn.map fun i => { i with dark := true } } ∧ t.bed = s.bed ∧ t.lanes = s.lanes) ∧
  (∀ s : State, s.geo.inn = none → exec .geodeRampUpStart s = .next s) ∧
  (∀ (i : GeoIn) (s : State), s.geo.inn = some i → i.dark = false → i.lost = false → exec .geodeRampUpStart s = .next s) ∧
  (∀ (i : GeoIn) (s : State), s.geo.inn = some i → i.dark = true ∨ i.lost = true → i.ramping = false → Runs .geodeRampUpStart s fun t =>
    (∀ n l, mfind s.lanes.tab n = some l → l.port.isSome = true → (lane t n).mute = false) ∧ (∀ j, t.geo.inn = some j → j.ramping = true) ∧ t.bed = s.bed) ∧
  (∀ (r : List Byte) (o : GeoOut) (s : State), (link s geodeLink).recs.find? (isType 0x63) = some r → s.geo.out = some o → o.item = false →
    o.cmd = none → Runs .takenReceive s fun t => t.geo = { s.geo with out := none } ∧ t.bed = s.bed ∧ t.fl = s.fl) ∧
  (∀ (r : List Byte) (o : GeoOut) (id : Nat) (s : State), (link s geodeLink).recs.find? (isType 0x63) = some r → s.geo.out = some o → o.item = false →
    o.cmd = some id → Runs .takenReceive s fun t => t.geo.out = none ∧ t.bed = s.bed ∧ mfind t.fl.cmds id = none) ∧
  (∀ s : State, s.bed.geoRole = 0 ∨ geoUp s = true ∨ s.geo.wasUp = false → exec .geodeLinkLoss s = .next s) ∧
  (∀ s : State, s.bed.geoRole ≠ 0 → geoUp s = false → s.geo.wasUp = true → s.bed.geoSll = false → Runs .geodeLinkLoss s fun t =>
    t.geo.peer = none ∧ t.geo.wasUp = false ∧ t.geo.hold = [] ∧ t.geo.unacked = [] ∧ t.bed = s.bed ∧ t.lanes = s.lanes) ∧
  (∀ s : State, s.bed.geoRole = 1 → s.geo.blind = false → geoUp s = false → s.geo.wasUp = true → s.geo.inn = none → s.bed.geoSll = true →
    healthState s ≠ 3 →    Runs .geodeLinkLoss s fun t => t.bed.geoRole = 2 ∧ t.geo.cause = 3 ∧ t.geo.wasUp = false ∧ t.geo.inSync = false) ∧
  (∀ s : State, s.bed.geoRole = 2 → geoUp s = false → s.geo.wasUp = true → s.geo.inn = none → s.geo.out = none → s.bed.geoSll = true →
    healthState s ≠ 3 → Runs .geodeLinkLoss s fun t => t.bed.geoRole = 2 ∧ t.geo.lossSince = some s.now ∧ t.geo.peer = none) ∧
  (∀ s : State, s.geo.lossSince = none ∨ geoUp s = true ∨ s.bed.geoSll = false → exec .linkLossTakeover s = .next s) ∧
  (∀ (a : Nat) (s : State), s.geo.lossSince = some a → geoUp s = false → roleNow s = 2 → healthState s ≠ 3 → s.bed.geoSll = true →
    Runs .linkLossTakeover s fun t => t.bed.geoRole = 1 ∧ t.geo.cause = 3 ∧ t.geo.lossSince = none ∧ t.tim.servo = .freeRun) ∧
  (∀ (id : Nat) (c : Cmd) (s : State), Begins s id 0xB3 c → plainBad c 0 1 = false → c.byte 32 ≤ 1 →
    Does (.geodeSet id) id c s 0 0 fun x => x.mapBed fun b => { b with geoSll := decide (c.byte 32 = 1) }) ∧
  (∀ (id : Nat) (c : Cmd) (s : State), Begins s id 0xB4 c → s.tbl.commits = [] → plainBad c 0 0 = false → roleNow s ≠ 1 →
    exec (.geodeSwitchover id) s = .next (finishFail id .permission (beginCmd id c s))) ∧
  (∀ (id : Nat) (c : Cmd) (s : State), Begins s id 0xB4 c → s.tbl.commits = [] → plainBad c 0 0 = false → roleNow s = 1 → peerCanTake s = false →
    exec (.geodeSwitchover id) s = .next (finishFail id .peerUnavailable (beginCmd id c s))) ∧
  (∀ (id : Nat) (c : Cmd) (h : Hello) (s : State), Begins s id 0xB4 c → s.tbl.commits = [] → plainBad c 0 0 = false → roleNow s = 1 →
    peerCanTake s = true → s.geo.peer = some h → h.inSync = true → Runs (.geodeSwitchover id) s fun t =>
      t.bed.geoRole = 2 ∧ (∃ o, t.geo.out = some o ∧ o.cause = 1 ∧ o.cmd = some id) ∧ t.geo.cause = 1 ∧ t.geo.inSync = false) ∧
  (∀ (id : Nat) (s : State), s.tbl.commits ≠ [] → exec (.geodeSwitchover id) s = .next s) ∧
  (∀ (id : Nat) (c : Cmd) (s : State), Begins s id 0xB5 c → plainBad c 0 0 = false → peerNow s = none → Does (.geodeStatus id) id c s
    (BitVec.ofNat 64 (roleNow s + 16 * b2n (geoUp s) + 32 * 7 + 256 * s.geo.cause)) s.geo.mirrored fun x => x)

/-- With bit 0 of inline byte 32 set and the cage group held, PAD_RELEASE completes SUCCESS and the group is held no more, its 32 cages
resuming. With the group not named, or not held, it completes SUCCESS without effect. A reserved bit of byte 32 completes INVALID_FIELD. -/
def Obligations.PadReleaseTakesTheHold : Prop :=
  (∀ (id : Nat) (mods : List ModReport) (c : Cmd) (s : State), Begins s id 0x91 c → plainBad c 0 1 = false → c.byte 32 = 1 → s.bed.cageHeld = true →
    Does (.padRelease id mods) id c s 0 0 (fun x => forEach (List.range 32) (cageResume mods) (x.mapBed fun b => { b with cageHeld := false })) ∧
    Runs (.padRelease id mods) s fun t => t.bed.cageHeld = false ∧ t.dac = s.dac ∧ t.guard = s.guard) ∧
  (∀ (id : Nat) (mods : List ModReport) (c : Cmd) (s : State), Begins s id 0x91 c → plainBad c 0 1 = false → c.byte 32 = 0 ∨ (c.byte 32 = 1 ∧ s.bed.cageHeld = false) →
    Does (.padRelease id mods) id c s 0 0 fun x => x) ∧
  (∀ (id : Nat) (mods : List ModReport) (c : Cmd) (s : State), Begins s id 0x91 c → 1 < c.byte 32 →
    exec (.padRelease id mods) s = .next (finishFail id .invalidField (beginCmd id c s)))

/-- POR_N_ASSERT in a state that holds the cage group ends the hold, and the cage pins, the lanes' outputs, the Garnet and Geode pairs, the
auxiliary outputs, the time pins, the management port and the thermal trip are at their reset; every pin whose group has its supply is in
the Reset column of Table 2.9, and every other pin is released. -/
def Obligations.PorEndsTheHold : Prop :=
  ∀ s : State, s.bed.cageHeld = true → Runs .porNAssert s fun t =>
    t.bed.cageHeld = false ∧ t.cages = State.reset.cages ∧ t.lanes = State.reset.lanes ∧ t.gar = State.reset.gar ∧ t.ports = State.reset.ports ∧
      t.dac = State.reset.dac ∧ t.adc = State.reset.adc ∧ t.tim = State.reset.tim ∧ t.mgmt = State.reset.mgmt ∧ t.bed.tripped = false ∧
      t.bed.porAsserted = true ∧ (∀ p : Pin, pinState t p = if pinPowered t p then resetState p else .released)

/-- At reset, board OTP and every memory are in the canonical form, NANOSECONDS is below 10^9, every set point of AVSBus lies in its range and
step, and the management address is one of Table 20.1. The reset address itself is the model's choice until the straps are sampled (log 5). -/
def Obligations.ResetMeetsTheInvariant : Prop :=
  Inv State.reset

/-- From every state that meets the invariant, the command at the front of the queue, or the passing of time, leads only to states that meet it:
memories and board OTP in canonical form, NANOSECONDS below 10^9 (R445), set points of 620 to 800 mV in steps of 5 mV (R59), and a
management address of Table 20.1. -/
def Obligations.EveryStepKeepsTheInvariant : Prop :=
  ∀ s t : State, Inv s → step s = .next t → Inv t

/-- From every state whose board OTP is in the canonical form, no step clears a bit of any byte of board OTP, whatever the command, and whatever
values the bits take whose programming a supply loss interrupts (R503, R504). -/
def Obligations.OtpBitsNeverReturnToZero : Prop :=
  ∀ (s t : State) (a i : Nat), Memory.wf s.otp.bytes = true → step s = .next t →
    (Memory.get s.otp.bytes a).getLsbD i = true → (Memory.get t.otp.bytes a).getLsbD i = true

/-- No other command lowers the count of entries, and a slot changes only when entries have been written: with an unchanged count every slot
reads as before (R537). -/
def Obligations.ErrorLogOnlyGrows : Prop :=
  ∀ (c : Instr) (s t : State), c ≠ .porNAssert → c ≠ .vddBedrockLoss → exec c s = .next t →
    s.elog.total ≤ t.elog.total ∧ (t.elog.total = s.elog.total → ∀ i, logSlot t i = logSlot s i) ∧
      ∀ n, n < s.elog.total → t.elog.total ≤ n + 256 → logSlot t (n % 256) = logSlot s (n % 256)
end

