-- ==== Sys2Proof/Laws/State.lean ====
section
/-! SUPPORT. One lemma for each group of State under each group update, true by unfolding, so that no later
proof unfolds a record update. -/
namespace Sys2Proof.Machine

@[simp] theorem State.mapElog_pending (s : State) (f : Elog → Elog) : (s.mapElog f).pending = s.pending := rfl
@[simp] theorem State.mapElog_now (s : State) (f : Elog → Elog) : (s.mapElog f).now = s.now := rfl
@[simp] theorem State.mapElog_free (s : State) (f : Elog → Elog) : (s.mapElog f).free = s.free := rfl
@[simp] theorem State.mapElog_hostLog (s : State) (f : Elog → Elog) : (s.mapElog f).hostLog = s.hostLog := rfl
@[simp] theorem State.mapElog_elog (s : State) (f : Elog → Elog) : (s.mapElog f).elog = f s.elog := rfl
@[simp] theorem State.mapElog_bed (s : State) (f : Elog → Elog) : (s.mapElog f).bed = s.bed := rfl
@[simp] theorem State.mapElog_health (s : State) (f : Elog → Elog) : (s.mapElog f).health = s.health := rfl
@[simp] theorem State.mapElog_otp (s : State) (f : Elog → Elog) : (s.mapElog f).otp = s.otp := rfl
@[simp] theorem State.mapElog_guard (s : State) (f : Elog → Elog) : (s.mapElog f).guard = s.guard := rfl
@[simp] theorem State.mapElog_mgmt (s : State) (f : Elog → Elog) : (s.mapElog f).mgmt = s.mgmt := rfl
@[simp] theorem State.mapElog_dac (s : State) (f : Elog → Elog) : (s.mapElog f).dac = s.dac := rfl
@[simp] theorem State.mapElog_fuse (s : State) (f : Elog → Elog) : (s.mapElog f).fuse = s.fuse := rfl
@[simp] theorem State.mapElog_rep (s : State) (f : Elog → Elog) : (s.mapElog f).rep = s.rep := rfl
@[simp] theorem State.mapElog_boot (s : State) (f : Elog → Elog) : (s.mapElog f).boot = s.boot := rfl
@[simp] theorem State.mapElog_hreg (s : State) (f : Elog → Elog) : (s.mapElog f).hreg = s.hreg := rfl
@[simp] theorem State.mapElog_hif (s : State) (f : Elog → Elog) : (s.mapElog f).hif = s.hif := rfl
@[simp] theorem State.mapElog_fl (s : State) (f : Elog → Elog) : (s.mapElog f).fl = s.fl := rfl
@[simp] theorem State.mapElog_lanes (s : State) (f : Elog → Elog) : (s.mapElog f).lanes = s.lanes := rfl
@[simp] theorem State.mapElog_cages (s : State) (f : Elog → Elog) : (s.mapElog f).cages = s.cages := rfl
@[simp] theorem State.mapElog_ports (s : State) (f : Elog → Elog) : (s.mapElog f).ports = s.ports := rfl
@[simp] theorem State.mapElog_retn (s : State) (f : Elog → Elog) : (s.mapElog f).retn = s.retn := rfl
@[simp] theorem State.mapElog_gar (s : State) (f : Elog → Elog) : (s.mapElog f).gar = s.gar := rfl
@[simp] theorem State.mapElog_buf (s : State) (f : Elog → Elog) : (s.mapElog f).buf = s.buf := rfl
@[simp] theorem State.mapElog_sched (s : State) (f : Elog → Elog) : (s.mapElog f).sched = s.sched := rfl
@[simp] theorem State.mapElog_tbl (s : State) (f : Elog → Elog) : (s.mapElog f).tbl = s.tbl := rfl
@[simp] theorem State.mapElog_mem (s : State) (f : Elog → Elog) : (s.mapElog f).mem = s.mem := rfl
@[simp] theorem State.mapElog_obs (s : State) (f : Elog → Elog) : (s.mapElog f).obs = s.obs := rfl
@[simp] theorem State.mapElog_tim (s : State) (f : Elog → Elog) : (s.mapElog f).tim = s.tim := rfl
@[simp] theorem State.mapElog_geo (s : State) (f : Elog → Elog) : (s.mapElog f).geo = s.geo := rfl
@[simp] theorem State.mapElog_adc (s : State) (f : Elog → Elog) : (s.mapElog f).adc = s.adc := rfl
@[simp] theorem State.mapBed_pending (s : State) (f : Bed → Bed) : (s.mapBed f).pending = s.pending := rfl
@[simp] theorem State.mapBed_now (s : State) (f : Bed → Bed) : (s.mapBed f).now = s.now := rfl
@[simp] theorem State.mapBed_free (s : State) (f : Bed → Bed) : (s.mapBed f).free = s.free := rfl
@[simp] theorem State.mapBed_hostLog (s : State) (f : Bed → Bed) : (s.mapBed f).hostLog = s.hostLog := rfl
@[simp] theorem State.mapBed_elog (s : State) (f : Bed → Bed) : (s.mapBed f).elog = s.elog := rfl
@[simp] theorem State.mapBed_bed (s : State) (f : Bed → Bed) : (s.mapBed f).bed = f s.bed := rfl
@[simp] theorem State.mapBed_health (s : State) (f : Bed → Bed) : (s.mapBed f).health = s.health := rfl
@[simp] theorem State.mapBed_otp (s : State) (f : Bed → Bed) : (s.mapBed f).otp = s.otp := rfl
@[simp] theorem State.mapBed_guard (s : State) (f : Bed → Bed) : (s.mapBed f).guard = s.guard := rfl
@[simp] theorem State.mapBed_mgmt (s : State) (f : Bed → Bed) : (s.mapBed f).mgmt = s.mgmt := rfl
@[simp] theorem State.mapBed_dac (s : State) (f : Bed → Bed) : (s.mapBed f).dac = s.dac := rfl
@[simp] theorem State.mapBed_fuse (s : State) (f : Bed → Bed) : (s.mapBed f).fuse = s.fuse := rfl
@[simp] theorem State.mapBed_rep (s : State) (f : Bed → Bed) : (s.mapBed f).rep = s.rep := rfl
@[simp] theorem State.mapBed_boot (s : State) (f : Bed → Bed) : (s.mapBed f).boot = s.boot := rfl
@[simp] theorem State.mapBed_hreg (s : State) (f : Bed → Bed) : (s.mapBed f).hreg = s.hreg := rfl
@[simp] theorem State.mapBed_hif (s : State) (f : Bed → Bed) : (s.mapBed f).hif = s.hif := rfl
@[simp] theorem State.mapBed_fl (s : State) (f : Bed → Bed) : (s.mapBed f).fl = s.fl := rfl
@[simp] theorem State.mapBed_lanes (s : State) (f : Bed → Bed) : (s.mapBed f).lanes = s.lanes := rfl
@[simp] theorem State.mapBed_cages (s : State) (f : Bed → Bed) : (s.mapBed f).cages = s.cages := rfl
@[simp] theorem State.mapBed_ports (s : State) (f : Bed → Bed) : (s.mapBed f).ports = s.ports := rfl
@[simp] theorem State.mapBed_retn (s : State) (f : Bed → Bed) : (s.mapBed f).retn = s.retn := rfl
@[simp] theorem State.mapBed_gar (s : State) (f : Bed → Bed) : (s.mapBed f).gar = s.gar := rfl
@[simp] theorem State.mapBed_buf (s : State) (f : Bed → Bed) : (s.mapBed f).buf = s.buf := rfl
@[simp] theorem State.mapBed_sched (s : State) (f : Bed → Bed) : (s.mapBed f).sched = s.sched := rfl
@[simp] theorem State.mapBed_tbl (s : State) (f : Bed → Bed) : (s.mapBed f).tbl = s.tbl := rfl
@[simp] theorem State.mapBed_mem (s : State) (f : Bed → Bed) : (s.mapBed f).mem = s.mem := rfl
@[simp] theorem State.mapBed_obs (s : State) (f : Bed → Bed) : (s.mapBed f).obs = s.obs := rfl
@[simp] theorem State.mapBed_tim (s : State) (f : Bed → Bed) : (s.mapBed f).tim = s.tim := rfl
@[simp] theorem State.mapBed_geo (s : State) (f : Bed → Bed) : (s.mapBed f).geo = s.geo := rfl
@[simp] theorem State.mapBed_adc (s : State) (f : Bed → Bed) : (s.mapBed f).adc = s.adc := rfl
@[simp] theorem State.mapHealth_pending (s : State) (f : Health → Health) : (s.mapHealth f).pending = s.pending := rfl
@[simp] theorem State.mapHealth_now (s : State) (f : Health → Health) : (s.mapHealth f).now = s.now := rfl
@[simp] theorem State.mapHealth_free (s : State) (f : Health → Health) : (s.mapHealth f).free = s.free := rfl
@[simp] theorem State.mapHealth_hostLog (s : State) (f : Health → Health) : (s.mapHealth f).hostLog = s.hostLog := rfl
@[simp] theorem State.mapHealth_elog (s : State) (f : Health → Health) : (s.mapHealth f).elog = s.elog := rfl
@[simp] theorem State.mapHealth_bed (s : State) (f : Health → Health) : (s.mapHealth f).bed = s.bed := rfl
@[simp] theorem State.mapHealth_health (s : State) (f : Health → Health) : (s.mapHealth f).health = f s.health := rfl
@[simp] theorem State.mapHealth_otp (s : State) (f : Health → Health) : (s.mapHealth f).otp = s.otp := rfl
@[simp] theorem State.mapHealth_guard (s : State) (f : Health → Health) : (s.mapHealth f).guard = s.guard := rfl
@[simp] theorem State.mapHealth_mgmt (s : State) (f : Health → Health) : (s.mapHealth f).mgmt = s.mgmt := rfl
@[simp] theorem State.mapHealth_dac (s : State) (f : Health → Health) : (s.mapHealth f).dac = s.dac := rfl
@[simp] theorem State.mapHealth_fuse (s : State) (f : Health → Health) : (s.mapHealth f).fuse = s.fuse := rfl
@[simp] theorem State.mapHealth_rep (s : State) (f : Health → Health) : (s.mapHealth f).rep = s.rep := rfl
@[simp] theorem State.mapHealth_boot (s : State) (f : Health → Health) : (s.mapHealth f).boot = s.boot := rfl
@[simp] theorem State.mapHealth_hreg (s : State) (f : Health → Health) : (s.mapHealth f).hreg = s.hreg := rfl
@[simp] theorem State.mapHealth_hif (s : State) (f : Health → Health) : (s.mapHealth f).hif = s.hif := rfl
@[simp] theorem State.mapHealth_fl (s : State) (f : Health → Health) : (s.mapHealth f).fl = s.fl := rfl
@[simp] theorem State.mapHealth_lanes (s : State) (f : Health → Health) : (s.mapHealth f).lanes = s.lanes := rfl
@[simp] theorem State.mapHealth_cages (s : State) (f : Health → Health) : (s.mapHealth f).cages = s.cages := rfl
@[simp] theorem State.mapHealth_ports (s : State) (f : Health → Health) : (s.mapHealth f).ports = s.ports := rfl
@[simp] theorem State.mapHealth_retn (s : State) (f : Health → Health) : (s.mapHealth f).retn = s.retn := rfl
@[simp] theorem State.mapHealth_gar (s : State) (f : Health → Health) : (s.mapHealth f).gar = s.gar := rfl
@[simp] theorem State.mapHealth_buf (s : State) (f : Health → Health) : (s.mapHealth f).buf = s.buf := rfl
@[simp] theorem State.mapHealth_sched (s : State) (f : Health → Health) : (s.mapHealth f).sched = s.sched := rfl
@[simp] theorem State.mapHealth_tbl (s : State) (f : Health → Health) : (s.mapHealth f).tbl = s.tbl := rfl
@[simp] theorem State.mapHealth_mem (s : State) (f : Health → Health) : (s.mapHealth f).mem = s.mem := rfl
@[simp] theorem State.mapHealth_obs (s : State) (f : Health → Health) : (s.mapHealth f).obs = s.obs := rfl
@[simp] theorem State.mapHealth_tim (s : State) (f : Health → Health) : (s.mapHealth f).tim = s.tim := rfl
@[simp] theorem State.mapHealth_geo (s : State) (f : Health → Health) : (s.mapHealth f).geo = s.geo := rfl
@[simp] theorem State.mapHealth_adc (s : State) (f : Health → Health) : (s.mapHealth f).adc = s.adc := rfl
@[simp] theorem State.mapOtp_pending (s : State) (f : Otp → Otp) : (s.mapOtp f).pending = s.pending := rfl
@[simp] theorem State.mapOtp_now (s : State) (f : Otp → Otp) : (s.mapOtp f).now = s.now := rfl
@[simp] theorem State.mapOtp_free (s : State) (f : Otp → Otp) : (s.mapOtp f).free = s.free := rfl
@[simp] theorem State.mapOtp_hostLog (s : State) (f : Otp → Otp) : (s.mapOtp f).hostLog = s.hostLog := rfl
@[simp] theorem State.mapOtp_elog (s : State) (f : Otp → Otp) : (s.mapOtp f).elog = s.elog := rfl
@[simp] theorem State.mapOtp_bed (s : State) (f : Otp → Otp) : (s.mapOtp f).bed = s.bed := rfl
@[simp] theorem State.mapOtp_health (s : State) (f : Otp → Otp) : (s.mapOtp f).health = s.health := rfl
@[simp] theorem State.mapOtp_otp (s : State) (f : Otp → Otp) : (s.mapOtp f).otp = f s.otp := rfl
@[simp] theorem State.mapOtp_guard (s : State) (f : Otp → Otp) : (s.mapOtp f).guard = s.guard := rfl
@[simp] theorem State.mapOtp_mgmt (s : State) (f : Otp → Otp) : (s.mapOtp f).mgmt = s.mgmt := rfl
@[simp] theorem State.mapOtp_dac (s : State) (f : Otp → Otp) : (s.mapOtp f).dac = s.dac := rfl
@[simp] theorem State.mapOtp_fuse (s : State) (f : Otp → Otp) : (s.mapOtp f).fuse = s.fuse := rfl
@[simp] theorem State.mapOtp_rep (s : State) (f : Otp → Otp) : (s.mapOtp f).rep = s.rep := rfl
@[simp] theorem State.mapOtp_boot (s : State) (f : Otp → Otp) : (s.mapOtp f).boot = s.boot := rfl
@[simp] theorem State.mapOtp_hreg (s : State) (f : Otp → Otp) : (s.mapOtp f).hreg = s.hreg := rfl
@[simp] theorem State.mapOtp_hif (s : State) (f : Otp → Otp) : (s.mapOtp f).hif = s.hif := rfl
@[simp] theorem State.mapOtp_fl (s : State) (f : Otp → Otp) : (s.mapOtp f).fl = s.fl := rfl
@[simp] theorem State.mapOtp_lanes (s : State) (f : Otp → Otp) : (s.mapOtp f).lanes = s.lanes := rfl
@[simp] theorem State.mapOtp_cages (s : State) (f : Otp → Otp) : (s.mapOtp f).cages = s.cages := rfl
@[simp] theorem State.mapOtp_ports (s : State) (f : Otp → Otp) : (s.mapOtp f).ports = s.ports := rfl
@[simp] theorem State.mapOtp_retn (s : State) (f : Otp → Otp) : (s.mapOtp f).retn = s.retn := rfl
@[simp] theorem State.mapOtp_gar (s : State) (f : Otp → Otp) : (s.mapOtp f).gar = s.gar := rfl
@[simp] theorem State.mapOtp_buf (s : State) (f : Otp → Otp) : (s.mapOtp f).buf = s.buf := rfl
@[simp] theorem State.mapOtp_sched (s : State) (f : Otp → Otp) : (s.mapOtp f).sched = s.sched := rfl
@[simp] theorem State.mapOtp_tbl (s : State) (f : Otp → Otp) : (s.mapOtp f).tbl = s.tbl := rfl
@[simp] theorem State.mapOtp_mem (s : State) (f : Otp → Otp) : (s.mapOtp f).mem = s.mem := rfl
@[simp] theorem State.mapOtp_obs (s : State) (f : Otp → Otp) : (s.mapOtp f).obs = s.obs := rfl
@[simp] theorem State.mapOtp_tim (s : State) (f : Otp → Otp) : (s.mapOtp f).tim = s.tim := rfl
@[simp] theorem State.mapOtp_geo (s : State) (f : Otp → Otp) : (s.mapOtp f).geo = s.geo := rfl
@[simp] theorem State.mapOtp_adc (s : State) (f : Otp → Otp) : (s.mapOtp f).adc = s.adc := rfl
@[simp] theorem State.mapGuard_pending (s : State) (f : Guard → Guard) : (s.mapGuard f).pending = s.pending := rfl
@[simp] theorem State.mapGuard_now (s : State) (f : Guard → Guard) : (s.mapGuard f).now = s.now := rfl
@[simp] theorem State.mapGuard_free (s : State) (f : Guard → Guard) : (s.mapGuard f).free = s.free := rfl
@[simp] theorem State.mapGuard_hostLog (s : State) (f : Guard → Guard) : (s.mapGuard f).hostLog = s.hostLog := rfl
@[simp] theorem State.mapGuard_elog (s : State) (f : Guard → Guard) : (s.mapGuard f).elog = s.elog := rfl
@[simp] theorem State.mapGuard_bed (s : State) (f : Guard → Guard) : (s.mapGuard f).bed = s.bed := rfl
@[simp] theorem State.mapGuard_health (s : State) (f : Guard → Guard) : (s.mapGuard f).health = s.health := rfl
@[simp] theorem State.mapGuard_otp (s : State) (f : Guard → Guard) : (s.mapGuard f).otp = s.otp := rfl
@[simp] theorem State.mapGuard_guard (s : State) (f : Guard → Guard) : (s.mapGuard f).guard = f s.guard := rfl
@[simp] theorem State.mapGuard_mgmt (s : State) (f : Guard → Guard) : (s.mapGuard f).mgmt = s.mgmt := rfl
@[simp] theorem State.mapGuard_dac (s : State) (f : Guard → Guard) : (s.mapGuard f).dac = s.dac := rfl
@[simp] theorem State.mapGuard_fuse (s : State) (f : Guard → Guard) : (s.mapGuard f).fuse = s.fuse := rfl
@[simp] theorem State.mapGuard_rep (s : State) (f : Guard → Guard) : (s.mapGuard f).rep = s.rep := rfl
@[simp] theorem State.mapGuard_boot (s : State) (f : Guard → Guard) : (s.mapGuard f).boot = s.boot := rfl
@[simp] theorem State.mapGuard_hreg (s : State) (f : Guard → Guard) : (s.mapGuard f).hreg = s.hreg := rfl
@[simp] theorem State.mapGuard_hif (s : State) (f : Guard → Guard) : (s.mapGuard f).hif = s.hif := rfl
@[simp] theorem State.mapGuard_fl (s : State) (f : Guard → Guard) : (s.mapGuard f).fl = s.fl := rfl
@[simp] theorem State.mapGuard_lanes (s : State) (f : Guard → Guard) : (s.mapGuard f).lanes = s.lanes := rfl
@[simp] theorem State.mapGuard_cages (s : State) (f : Guard → Guard) : (s.mapGuard f).cages = s.cages := rfl
@[simp] theorem State.mapGuard_ports (s : State) (f : Guard → Guard) : (s.mapGuard f).ports = s.ports := rfl
@[simp] theorem State.mapGuard_retn (s : State) (f : Guard → Guard) : (s.mapGuard f).retn = s.retn := rfl
@[simp] theorem State.mapGuard_gar (s : State) (f : Guard → Guard) : (s.mapGuard f).gar = s.gar := rfl
@[simp] theorem State.mapGuard_buf (s : State) (f : Guard → Guard) : (s.mapGuard f).buf = s.buf := rfl
@[simp] theorem State.mapGuard_sched (s : State) (f : Guard → Guard) : (s.mapGuard f).sched = s.sched := rfl
@[simp] theorem State.mapGuard_tbl (s : State) (f : Guard → Guard) : (s.mapGuard f).tbl = s.tbl := rfl
@[simp] theorem State.mapGuard_mem (s : State) (f : Guard → Guard) : (s.mapGuard f).mem = s.mem := rfl
@[simp] theorem State.mapGuard_obs (s : State) (f : Guard → Guard) : (s.mapGuard f).obs = s.obs := rfl
@[simp] theorem State.mapGuard_tim (s : State) (f : Guard → Guard) : (s.mapGuard f).tim = s.tim := rfl
@[simp] theorem State.mapGuard_geo (s : State) (f : Guard → Guard) : (s.mapGuard f).geo = s.geo := rfl
@[simp] theorem State.mapGuard_adc (s : State) (f : Guard → Guard) : (s.mapGuard f).adc = s.adc := rfl
@[simp] theorem State.mapMgmt_pending (s : State) (f : Mgmt → Mgmt) : (s.mapMgmt f).pending = s.pending := rfl
@[simp] theorem State.mapMgmt_now (s : State) (f : Mgmt → Mgmt) : (s.mapMgmt f).now = s.now := rfl
@[simp] theorem State.mapMgmt_free (s : State) (f : Mgmt → Mgmt) : (s.mapMgmt f).free = s.free := rfl
@[simp] theorem State.mapMgmt_hostLog (s : State) (f : Mgmt → Mgmt) : (s.mapMgmt f).hostLog = s.hostLog := rfl
@[simp] theorem State.mapMgmt_elog (s : State) (f : Mgmt → Mgmt) : (s.mapMgmt f).elog = s.elog := rfl
@[simp] theorem State.mapMgmt_bed (s : State) (f : Mgmt → Mgmt) : (s.mapMgmt f).bed = s.bed := rfl
@[simp] theorem State.mapMgmt_health (s : State) (f : Mgmt → Mgmt) : (s.mapMgmt f).health = s.health := rfl
@[simp] theorem State.mapMgmt_otp (s : State) (f : Mgmt → Mgmt) : (s.mapMgmt f).otp = s.otp := rfl
@[simp] theorem State.mapMgmt_guard (s : State) (f : Mgmt → Mgmt) : (s.mapMgmt f).guard = s.guard := rfl
@[simp] theorem State.mapMgmt_mgmt (s : State) (f : Mgmt → Mgmt) : (s.mapMgmt f).mgmt = f s.mgmt := rfl
@[simp] theorem State.mapMgmt_dac (s : State) (f : Mgmt → Mgmt) : (s.mapMgmt f).dac = s.dac := rfl
@[simp] theorem State.mapMgmt_fuse (s : State) (f : Mgmt → Mgmt) : (s.mapMgmt f).fuse = s.fuse := rfl
@[simp] theorem State.mapMgmt_rep (s : State) (f : Mgmt → Mgmt) : (s.mapMgmt f).rep = s.rep := rfl
@[simp] theorem State.mapMgmt_boot (s : State) (f : Mgmt → Mgmt) : (s.mapMgmt f).boot = s.boot := rfl
@[simp] theorem State.mapMgmt_hreg (s : State) (f : Mgmt → Mgmt) : (s.mapMgmt f).hreg = s.hreg := rfl
@[simp] theorem State.mapMgmt_hif (s : State) (f : Mgmt → Mgmt) : (s.mapMgmt f).hif = s.hif := rfl
@[simp] theorem State.mapMgmt_fl (s : State) (f : Mgmt → Mgmt) : (s.mapMgmt f).fl = s.fl := rfl
@[simp] theorem State.mapMgmt_lanes (s : State) (f : Mgmt → Mgmt) : (s.mapMgmt f).lanes = s.lanes := rfl
@[simp] theorem State.mapMgmt_cages (s : State) (f : Mgmt → Mgmt) : (s.mapMgmt f).cages = s.cages := rfl
@[simp] theorem State.mapMgmt_ports (s : State) (f : Mgmt → Mgmt) : (s.mapMgmt f).ports = s.ports := rfl
@[simp] theorem State.mapMgmt_retn (s : State) (f : Mgmt → Mgmt) : (s.mapMgmt f).retn = s.retn := rfl
@[simp] theorem State.mapMgmt_gar (s : State) (f : Mgmt → Mgmt) : (s.mapMgmt f).gar = s.gar := rfl
@[simp] theorem State.mapMgmt_buf (s : State) (f : Mgmt → Mgmt) : (s.mapMgmt f).buf = s.buf := rfl
@[simp] theorem State.mapMgmt_sched (s : State) (f : Mgmt → Mgmt) : (s.mapMgmt f).sched = s.sched := rfl
@[simp] theorem State.mapMgmt_tbl (s : State) (f : Mgmt → Mgmt) : (s.mapMgmt f).tbl = s.tbl := rfl
@[simp] theorem State.mapMgmt_mem (s : State) (f : Mgmt → Mgmt) : (s.mapMgmt f).mem = s.mem := rfl
@[simp] theorem State.mapMgmt_obs (s : State) (f : Mgmt → Mgmt) : (s.mapMgmt f).obs = s.obs := rfl
@[simp] theorem State.mapMgmt_tim (s : State) (f : Mgmt → Mgmt) : (s.mapMgmt f).tim = s.tim := rfl
@[simp] theorem State.mapMgmt_geo (s : State) (f : Mgmt → Mgmt) : (s.mapMgmt f).geo = s.geo := rfl
@[simp] theorem State.mapMgmt_adc (s : State) (f : Mgmt → Mgmt) : (s.mapMgmt f).adc = s.adc := rfl
@[simp] theorem State.mapDac_pending (s : State) (f : DacBank → DacBank) : (s.mapDac f).pending = s.pending := rfl
@[simp] theorem State.mapDac_now (s : State) (f : DacBank → DacBank) : (s.mapDac f).now = s.now := rfl
@[simp] theorem State.mapDac_free (s : State) (f : DacBank → DacBank) : (s.mapDac f).free = s.free := rfl
@[simp] theorem State.mapDac_hostLog (s : State) (f : DacBank → DacBank) : (s.mapDac f).hostLog = s.hostLog := rfl
@[simp] theorem State.mapDac_elog (s : State) (f : DacBank → DacBank) : (s.mapDac f).elog = s.elog := rfl
@[simp] theorem State.mapDac_bed (s : State) (f : DacBank → DacBank) : (s.mapDac f).bed = s.bed := rfl
@[simp] theorem State.mapDac_health (s : State) (f : DacBank → DacBank) : (s.mapDac f).health = s.health := rfl
@[simp] theorem State.mapDac_otp (s : State) (f : DacBank → DacBank) : (s.mapDac f).otp = s.otp := rfl
@[simp] theorem State.mapDac_guard (s : State) (f : DacBank → DacBank) : (s.mapDac f).guard = s.guard := rfl
@[simp] theorem State.mapDac_mgmt (s : State) (f : DacBank → DacBank) : (s.mapDac f).mgmt = s.mgmt := rfl
@[simp] theorem State.mapDac_dac (s : State) (f : DacBank → DacBank) : (s.mapDac f).dac = f s.dac := rfl
@[simp] theorem State.mapDac_fuse (s : State) (f : DacBank → DacBank) : (s.mapDac f).fuse = s.fuse := rfl
@[simp] theorem State.mapDac_rep (s : State) (f : DacBank → DacBank) : (s.mapDac f).rep = s.rep := rfl
@[simp] theorem State.mapDac_boot (s : State) (f : DacBank → DacBank) : (s.mapDac f).boot = s.boot := rfl
@[simp] theorem State.mapDac_hreg (s : State) (f : DacBank → DacBank) : (s.mapDac f).hreg = s.hreg := rfl
@[simp] theorem State.mapDac_hif (s : State) (f : DacBank → DacBank) : (s.mapDac f).hif = s.hif := rfl
@[simp] theorem State.mapDac_fl (s : State) (f : DacBank → DacBank) : (s.mapDac f).fl = s.fl := rfl
@[simp] theorem State.mapDac_lanes (s : State) (f : DacBank → DacBank) : (s.mapDac f).lanes = s.lanes := rfl
@[simp] theorem State.mapDac_cages (s : State) (f : DacBank → DacBank) : (s.mapDac f).cages = s.cages := rfl
@[simp] theorem State.mapDac_ports (s : State) (f : DacBank → DacBank) : (s.mapDac f).ports = s.ports := rfl
@[simp] theorem State.mapDac_retn (s : State) (f : DacBank → DacBank) : (s.mapDac f).retn = s.retn := rfl
@[simp] theorem State.mapDac_gar (s : State) (f : DacBank → DacBank) : (s.mapDac f).gar = s.gar := rfl
@[simp] theorem State.mapDac_buf (s : State) (f : DacBank → DacBank) : (s.mapDac f).buf = s.buf := rfl
@[simp] theorem State.mapDac_sched (s : State) (f : DacBank → DacBank) : (s.mapDac f).sched = s.sched := rfl
@[simp] theorem State.mapDac_tbl (s : State) (f : DacBank → DacBank) : (s.mapDac f).tbl = s.tbl := rfl
@[simp] theorem State.mapDac_mem (s : State) (f : DacBank → DacBank) : (s.mapDac f).mem = s.mem := rfl
@[simp] theorem State.mapDac_obs (s : State) (f : DacBank → DacBank) : (s.mapDac f).obs = s.obs := rfl
@[simp] theorem State.mapDac_tim (s : State) (f : DacBank → DacBank) : (s.mapDac f).tim = s.tim := rfl
@[simp] theorem State.mapDac_geo (s : State) (f : DacBank → DacBank) : (s.mapDac f).geo = s.geo := rfl
@[simp] theorem State.mapDac_adc (s : State) (f : DacBank → DacBank) : (s.mapDac f).adc = s.adc := rfl
@[simp] theorem State.mapFuse_pending (s : State) (f : Fuse → Fuse) : (s.mapFuse f).pending = s.pending := rfl
@[simp] theorem State.mapFuse_now (s : State) (f : Fuse → Fuse) : (s.mapFuse f).now = s.now := rfl
@[simp] theorem State.mapFuse_free (s : State) (f : Fuse → Fuse) : (s.mapFuse f).free = s.free := rfl
@[simp] theorem State.mapFuse_hostLog (s : State) (f : Fuse → Fuse) : (s.mapFuse f).hostLog = s.hostLog := rfl
@[simp] theorem State.mapFuse_elog (s : State) (f : Fuse → Fuse) : (s.mapFuse f).elog = s.elog := rfl
@[simp] theorem State.mapFuse_bed (s : State) (f : Fuse → Fuse) : (s.mapFuse f).bed = s.bed := rfl
@[simp] theorem State.mapFuse_health (s : State) (f : Fuse → Fuse) : (s.mapFuse f).health = s.health := rfl
@[simp] theorem State.mapFuse_otp (s : State) (f : Fuse → Fuse) : (s.mapFuse f).otp = s.otp := rfl
@[simp] theorem State.mapFuse_guard (s : State) (f : Fuse → Fuse) : (s.mapFuse f).guard = s.guard := rfl
@[simp] theorem State.mapFuse_mgmt (s : State) (f : Fuse → Fuse) : (s.mapFuse f).mgmt = s.mgmt := rfl
@[simp] theorem State.mapFuse_dac (s : State) (f : Fuse → Fuse) : (s.mapFuse f).dac = s.dac := rfl
@[simp] theorem State.mapFuse_fuse (s : State) (f : Fuse → Fuse) : (s.mapFuse f).fuse = f s.fuse := rfl
@[simp] theorem State.mapFuse_rep (s : State) (f : Fuse → Fuse) : (s.mapFuse f).rep = s.rep := rfl
@[simp] theorem State.mapFuse_boot (s : State) (f : Fuse → Fuse) : (s.mapFuse f).boot = s.boot := rfl
@[simp] theorem State.mapFuse_hreg (s : State) (f : Fuse → Fuse) : (s.mapFuse f).hreg = s.hreg := rfl
@[simp] theorem State.mapFuse_hif (s : State) (f : Fuse → Fuse) : (s.mapFuse f).hif = s.hif := rfl
@[simp] theorem State.mapFuse_fl (s : State) (f : Fuse → Fuse) : (s.mapFuse f).fl = s.fl := rfl
@[simp] theorem State.mapFuse_lanes (s : State) (f : Fuse → Fuse) : (s.mapFuse f).lanes = s.lanes := rfl
@[simp] theorem State.mapFuse_cages (s : State) (f : Fuse → Fuse) : (s.mapFuse f).cages = s.cages := rfl
@[simp] theorem State.mapFuse_ports (s : State) (f : Fuse → Fuse) : (s.mapFuse f).ports = s.ports := rfl
@[simp] theorem State.mapFuse_retn (s : State) (f : Fuse → Fuse) : (s.mapFuse f).retn = s.retn := rfl
@[simp] theorem State.mapFuse_gar (s : State) (f : Fuse → Fuse) : (s.mapFuse f).gar = s.gar := rfl
@[simp] theorem State.mapFuse_buf (s : State) (f : Fuse → Fuse) : (s.mapFuse f).buf = s.buf := rfl
@[simp] theorem State.mapFuse_sched (s : State) (f : Fuse → Fuse) : (s.mapFuse f).sched = s.sched := rfl
@[simp] theorem State.mapFuse_tbl (s : State) (f : Fuse → Fuse) : (s.mapFuse f).tbl = s.tbl := rfl
@[simp] theorem State.mapFuse_mem (s : State) (f : Fuse → Fuse) : (s.mapFuse f).mem = s.mem := rfl
@[simp] theorem State.mapFuse_obs (s : State) (f : Fuse → Fuse) : (s.mapFuse f).obs = s.obs := rfl
@[simp] theorem State.mapFuse_tim (s : State) (f : Fuse → Fuse) : (s.mapFuse f).tim = s.tim := rfl
@[simp] theorem State.mapFuse_geo (s : State) (f : Fuse → Fuse) : (s.mapFuse f).geo = s.geo := rfl
@[simp] theorem State.mapFuse_adc (s : State) (f : Fuse → Fuse) : (s.mapFuse f).adc = s.adc := rfl
@[simp] theorem State.mapRep_pending (s : State) (f : Repair → Repair) : (s.mapRep f).pending = s.pending := rfl
@[simp] theorem State.mapRep_now (s : State) (f : Repair → Repair) : (s.mapRep f).now = s.now := rfl
@[simp] theorem State.mapRep_free (s : State) (f : Repair → Repair) : (s.mapRep f).free = s.free := rfl
@[simp] theorem State.mapRep_hostLog (s : State) (f : Repair → Repair) : (s.mapRep f).hostLog = s.hostLog := rfl
@[simp] theorem State.mapRep_elog (s : State) (f : Repair → Repair) : (s.mapRep f).elog = s.elog := rfl
@[simp] theorem State.mapRep_bed (s : State) (f : Repair → Repair) : (s.mapRep f).bed = s.bed := rfl
@[simp] theorem State.mapRep_health (s : State) (f : Repair → Repair) : (s.mapRep f).health = s.health := rfl
@[simp] theorem State.mapRep_otp (s : State) (f : Repair → Repair) : (s.mapRep f).otp = s.otp := rfl
@[simp] theorem State.mapRep_guard (s : State) (f : Repair → Repair) : (s.mapRep f).guard = s.guard := rfl
@[simp] theorem State.mapRep_mgmt (s : State) (f : Repair → Repair) : (s.mapRep f).mgmt = s.mgmt := rfl
@[simp] theorem State.mapRep_dac (s : State) (f : Repair → Repair) : (s.mapRep f).dac = s.dac := rfl
@[simp] theorem State.mapRep_fuse (s : State) (f : Repair → Repair) : (s.mapRep f).fuse = s.fuse := rfl
@[simp] theorem State.mapRep_rep (s : State) (f : Repair → Repair) : (s.mapRep f).rep = f s.rep := rfl
@[simp] theorem State.mapRep_boot (s : State) (f : Repair → Repair) : (s.mapRep f).boot = s.boot := rfl
@[simp] theorem State.mapRep_hreg (s : State) (f : Repair → Repair) : (s.mapRep f).hreg = s.hreg := rfl
@[simp] theorem State.mapRep_hif (s : State) (f : Repair → Repair) : (s.mapRep f).hif = s.hif := rfl
@[simp] theorem State.mapRep_fl (s : State) (f : Repair → Repair) : (s.mapRep f).fl = s.fl := rfl
@[simp] theorem State.mapRep_lanes (s : State) (f : Repair → Repair) : (s.mapRep f).lanes = s.lanes := rfl
@[simp] theorem State.mapRep_cages (s : State) (f : Repair → Repair) : (s.mapRep f).cages = s.cages := rfl
@[simp] theorem State.mapRep_ports (s : State) (f : Repair → Repair) : (s.mapRep f).ports = s.ports := rfl
@[simp] theorem State.mapRep_retn (s : State) (f : Repair → Repair) : (s.mapRep f).retn = s.retn := rfl
@[simp] theorem State.mapRep_gar (s : State) (f : Repair → Repair) : (s.mapRep f).gar = s.gar := rfl
@[simp] theorem State.mapRep_buf (s : State) (f : Repair → Repair) : (s.mapRep f).buf = s.buf := rfl
@[simp] theorem State.mapRep_sched (s : State) (f : Repair → Repair) : (s.mapRep f).sched = s.sched := rfl
@[simp] theorem State.mapRep_tbl (s : State) (f : Repair → Repair) : (s.mapRep f).tbl = s.tbl := rfl
@[simp] theorem State.mapRep_mem (s : State) (f : Repair → Repair) : (s.mapRep f).mem = s.mem := rfl
@[simp] theorem State.mapRep_obs (s : State) (f : Repair → Repair) : (s.mapRep f).obs = s.obs := rfl
@[simp] theorem State.mapRep_tim (s : State) (f : Repair → Repair) : (s.mapRep f).tim = s.tim := rfl
@[simp] theorem State.mapRep_geo (s : State) (f : Repair → Repair) : (s.mapRep f).geo = s.geo := rfl
@[simp] theorem State.mapRep_adc (s : State) (f : Repair → Repair) : (s.mapRep f).adc = s.adc := rfl
@[simp] theorem State.mapBoot_pending (s : State) (f : Boot → Boot) : (s.mapBoot f).pending = s.pending := rfl
@[simp] theorem State.mapBoot_now (s : State) (f : Boot → Boot) : (s.mapBoot f).now = s.now := rfl
@[simp] theorem State.mapBoot_free (s : State) (f : Boot → Boot) : (s.mapBoot f).free = s.free := rfl
@[simp] theorem State.mapBoot_hostLog (s : State) (f : Boot → Boot) : (s.mapBoot f).hostLog = s.hostLog := rfl
@[simp] theorem State.mapBoot_elog (s : State) (f : Boot → Boot) : (s.mapBoot f).elog = s.elog := rfl
@[simp] theorem State.mapBoot_bed (s : State) (f : Boot → Boot) : (s.mapBoot f).bed = s.bed := rfl
@[simp] theorem State.mapBoot_health (s : State) (f : Boot → Boot) : (s.mapBoot f).health = s.health := rfl
@[simp] theorem State.mapBoot_otp (s : State) (f : Boot → Boot) : (s.mapBoot f).otp = s.otp := rfl
@[simp] theorem State.mapBoot_guard (s : State) (f : Boot → Boot) : (s.mapBoot f).guard = s.guard := rfl
@[simp] theorem State.mapBoot_mgmt (s : State) (f : Boot → Boot) : (s.mapBoot f).mgmt = s.mgmt := rfl
@[simp] theorem State.mapBoot_dac (s : State) (f : Boot → Boot) : (s.mapBoot f).dac = s.dac := rfl
@[simp] theorem State.mapBoot_fuse (s : State) (f : Boot → Boot) : (s.mapBoot f).fuse = s.fuse := rfl
@[simp] theorem State.mapBoot_rep (s : State) (f : Boot → Boot) : (s.mapBoot f).rep = s.rep := rfl
@[simp] theorem State.mapBoot_boot (s : State) (f : Boot → Boot) : (s.mapBoot f).boot = f s.boot := rfl
@[simp] theorem State.mapBoot_hreg (s : State) (f : Boot → Boot) : (s.mapBoot f).hreg = s.hreg := rfl
@[simp] theorem State.mapBoot_hif (s : State) (f : Boot → Boot) : (s.mapBoot f).hif = s.hif := rfl
@[simp] theorem State.mapBoot_fl (s : State) (f : Boot → Boot) : (s.mapBoot f).fl = s.fl := rfl
@[simp] theorem State.mapBoot_lanes (s : State) (f : Boot → Boot) : (s.mapBoot f).lanes = s.lanes := rfl
@[simp] theorem State.mapBoot_cages (s : State) (f : Boot → Boot) : (s.mapBoot f).cages = s.cages := rfl
@[simp] theorem State.mapBoot_ports (s : State) (f : Boot → Boot) : (s.mapBoot f).ports = s.ports := rfl
@[simp] theorem State.mapBoot_retn (s : State) (f : Boot → Boot) : (s.mapBoot f).retn = s.retn := rfl
@[simp] theorem State.mapBoot_gar (s : State) (f : Boot → Boot) : (s.mapBoot f).gar = s.gar := rfl
@[simp] theorem State.mapBoot_buf (s : State) (f : Boot → Boot) : (s.mapBoot f).buf = s.buf := rfl
@[simp] theorem State.mapBoot_sched (s : State) (f : Boot → Boot) : (s.mapBoot f).sched = s.sched := rfl
@[simp] theorem State.mapBoot_tbl (s : State) (f : Boot → Boot) : (s.mapBoot f).tbl = s.tbl := rfl
@[simp] theorem State.mapBoot_mem (s : State) (f : Boot → Boot) : (s.mapBoot f).mem = s.mem := rfl
@[simp] theorem State.mapBoot_obs (s : State) (f : Boot → Boot) : (s.mapBoot f).obs = s.obs := rfl
@[simp] theorem State.mapBoot_tim (s : State) (f : Boot → Boot) : (s.mapBoot f).tim = s.tim := rfl
@[simp] theorem State.mapBoot_geo (s : State) (f : Boot → Boot) : (s.mapBoot f).geo = s.geo := rfl
@[simp] theorem State.mapBoot_adc (s : State) (f : Boot → Boot) : (s.mapBoot f).adc = s.adc := rfl
@[simp] theorem State.mapHreg_pending (s : State) (f : Hreg → Hreg) : (s.mapHreg f).pending = s.pending := rfl
@[simp] theorem State.mapHreg_now (s : State) (f : Hreg → Hreg) : (s.mapHreg f).now = s.now := rfl
@[simp] theorem State.mapHreg_free (s : State) (f : Hreg → Hreg) : (s.mapHreg f).free = s.free := rfl
@[simp] theorem State.mapHreg_hostLog (s : State) (f : Hreg → Hreg) : (s.mapHreg f).hostLog = s.hostLog := rfl
@[simp] theorem State.mapHreg_elog (s : State) (f : Hreg → Hreg) : (s.mapHreg f).elog = s.elog := rfl
@[simp] theorem State.mapHreg_bed (s : State) (f : Hreg → Hreg) : (s.mapHreg f).bed = s.bed := rfl
@[simp] theorem State.mapHreg_health (s : State) (f : Hreg → Hreg) : (s.mapHreg f).health = s.health := rfl
@[simp] theorem State.mapHreg_otp (s : State) (f : Hreg → Hreg) : (s.mapHreg f).otp = s.otp := rfl
@[simp] theorem State.mapHreg_guard (s : State) (f : Hreg → Hreg) : (s.mapHreg f).guard = s.guard := rfl
@[simp] theorem State.mapHreg_mgmt (s : State) (f : Hreg → Hreg) : (s.mapHreg f).mgmt = s.mgmt := rfl
@[simp] theorem State.mapHreg_dac (s : State) (f : Hreg → Hreg) : (s.mapHreg f).dac = s.dac := rfl
@[simp] theorem State.mapHreg_fuse (s : State) (f : Hreg → Hreg) : (s.mapHreg f).fuse = s.fuse := rfl
@[simp] theorem State.mapHreg_rep (s : State) (f : Hreg → Hreg) : (s.mapHreg f).rep = s.rep := rfl
@[simp] theorem State.mapHreg_boot (s : State) (f : Hreg → Hreg) : (s.mapHreg f).boot = s.boot := rfl
@[simp] theorem State.mapHreg_hreg (s : State) (f : Hreg → Hreg) : (s.mapHreg f).hreg = f s.hreg := rfl
@[simp] theorem State.mapHreg_hif (s : State) (f : Hreg → Hreg) : (s.mapHreg f).hif = s.hif := rfl
@[simp] theorem State.mapHreg_fl (s : State) (f : Hreg → Hreg) : (s.mapHreg f).fl = s.fl := rfl
@[simp] theorem State.mapHreg_lanes (s : State) (f : Hreg → Hreg) : (s.mapHreg f).lanes = s.lanes := rfl
@[simp] theorem State.mapHreg_cages (s : State) (f : Hreg → Hreg) : (s.mapHreg f).cages = s.cages := rfl
@[simp] theorem State.mapHreg_ports (s : State) (f : Hreg → Hreg) : (s.mapHreg f).ports = s.ports := rfl
@[simp] theorem State.mapHreg_retn (s : State) (f : Hreg → Hreg) : (s.mapHreg f).retn = s.retn := rfl
@[simp] theorem State.mapHreg_gar (s : State) (f : Hreg → Hreg) : (s.mapHreg f).gar = s.gar := rfl
@[simp] theorem State.mapHreg_buf (s : State) (f : Hreg → Hreg) : (s.mapHreg f).buf = s.buf := rfl
@[simp] theorem State.mapHreg_sched (s : State) (f : Hreg → Hreg) : (s.mapHreg f).sched = s.sched := rfl
@[simp] theorem State.mapHreg_tbl (s : State) (f : Hreg → Hreg) : (s.mapHreg f).tbl = s.tbl := rfl
@[simp] theorem State.mapHreg_mem (s : State) (f : Hreg → Hreg) : (s.mapHreg f).mem = s.mem := rfl
@[simp] theorem State.mapHreg_obs (s : State) (f : Hreg → Hreg) : (s.mapHreg f).obs = s.obs := rfl
@[simp] theorem State.mapHreg_tim (s : State) (f : Hreg → Hreg) : (s.mapHreg f).tim = s.tim := rfl
@[simp] theorem State.mapHreg_geo (s : State) (f : Hreg → Hreg) : (s.mapHreg f).geo = s.geo := rfl
@[simp] theorem State.mapHreg_adc (s : State) (f : Hreg → Hreg) : (s.mapHreg f).adc = s.adc := rfl
@[simp] theorem State.mapHif_pending (s : State) (f : Hif → Hif) : (s.mapHif f).pending = s.pending := rfl
@[simp] theorem State.mapHif_now (s : State) (f : Hif → Hif) : (s.mapHif f).now = s.now := rfl
@[simp] theorem State.mapHif_free (s : State) (f : Hif → Hif) : (s.mapHif f).free = s.free := rfl
@[simp] theorem State.mapHif_hostLog (s : State) (f : Hif → Hif) : (s.mapHif f).hostLog = s.hostLog := rfl
@[simp] theorem State.mapHif_elog (s : State) (f : Hif → Hif) : (s.mapHif f).elog = s.elog := rfl
@[simp] theorem State.mapHif_bed (s : State) (f : Hif → Hif) : (s.mapHif f).bed = s.bed := rfl
@[simp] theorem State.mapHif_health (s : State) (f : Hif → Hif) : (s.mapHif f).health = s.health := rfl
@[simp] theorem State.mapHif_otp (s : State) (f : Hif → Hif) : (s.mapHif f).otp = s.otp := rfl
@[simp] theorem State.mapHif_guard (s : State) (f : Hif → Hif) : (s.mapHif f).guard = s.guard := rfl
@[simp] theorem State.mapHif_mgmt (s : State) (f : Hif → Hif) : (s.mapHif f).mgmt = s.mgmt := rfl
@[simp] theorem State.mapHif_dac (s : State) (f : Hif → Hif) : (s.mapHif f).dac = s.dac := rfl
@[simp] theorem State.mapHif_fuse (s : State) (f : Hif → Hif) : (s.mapHif f).fuse = s.fuse := rfl
@[simp] theorem State.mapHif_rep (s : State) (f : Hif → Hif) : (s.mapHif f).rep = s.rep := rfl
@[simp] theorem State.mapHif_boot (s : State) (f : Hif → Hif) : (s.mapHif f).boot = s.boot := rfl
@[simp] theorem State.mapHif_hreg (s : State) (f : Hif → Hif) : (s.mapHif f).hreg = s.hreg := rfl
@[simp] theorem State.mapHif_hif (s : State) (f : Hif → Hif) : (s.mapHif f).hif = f s.hif := rfl
@[simp] theorem State.mapHif_fl (s : State) (f : Hif → Hif) : (s.mapHif f).fl = s.fl := rfl
@[simp] theorem State.mapHif_lanes (s : State) (f : Hif → Hif) : (s.mapHif f).lanes = s.lanes := rfl
@[simp] theorem State.mapHif_cages (s : State) (f : Hif → Hif) : (s.mapHif f).cages = s.cages := rfl
@[simp] theorem State.mapHif_ports (s : State) (f : Hif → Hif) : (s.mapHif f).ports = s.ports := rfl
@[simp] theorem State.mapHif_retn (s : State) (f : Hif → Hif) : (s.mapHif f).retn = s.retn := rfl
@[simp] theorem State.mapHif_gar (s : State) (f : Hif → Hif) : (s.mapHif f).gar = s.gar := rfl
@[simp] theorem State.mapHif_buf (s : State) (f : Hif → Hif) : (s.mapHif f).buf = s.buf := rfl
@[simp] theorem State.mapHif_sched (s : State) (f : Hif → Hif) : (s.mapHif f).sched = s.sched := rfl
@[simp] theorem State.mapHif_tbl (s : State) (f : Hif → Hif) : (s.mapHif f).tbl = s.tbl := rfl
@[simp] theorem State.mapHif_mem (s : State) (f : Hif → Hif) : (s.mapHif f).mem = s.mem := rfl
@[simp] theorem State.mapHif_obs (s : State) (f : Hif → Hif) : (s.mapHif f).obs = s.obs := rfl
@[simp] theorem State.mapHif_tim (s : State) (f : Hif → Hif) : (s.mapHif f).tim = s.tim := rfl
@[simp] theorem State.mapHif_geo (s : State) (f : Hif → Hif) : (s.mapHif f).geo = s.geo := rfl
@[simp] theorem State.mapHif_adc (s : State) (f : Hif → Hif) : (s.mapHif f).adc = s.adc := rfl
@[simp] theorem State.mapFl_pending (s : State) (f : Flight → Flight) : (s.mapFl f).pending = s.pending := rfl
@[simp] theorem State.mapFl_now (s : State) (f : Flight → Flight) : (s.mapFl f).now = s.now := rfl
@[simp] theorem State.mapFl_free (s : State) (f : Flight → Flight) : (s.mapFl f).free = s.free := rfl
@[simp] theorem State.mapFl_hostLog (s : State) (f : Flight → Flight) : (s.mapFl f).hostLog = s.hostLog := rfl
@[simp] theorem State.mapFl_elog (s : State) (f : Flight → Flight) : (s.mapFl f).elog = s.elog := rfl
@[simp] theorem State.mapFl_bed (s : State) (f : Flight → Flight) : (s.mapFl f).bed = s.bed := rfl
@[simp] theorem State.mapFl_health (s : State) (f : Flight → Flight) : (s.mapFl f).health = s.health := rfl
@[simp] theorem State.mapFl_otp (s : State) (f : Flight → Flight) : (s.mapFl f).otp = s.otp := rfl
@[simp] theorem State.mapFl_guard (s : State) (f : Flight → Flight) : (s.mapFl f).guard = s.guard := rfl
@[simp] theorem State.mapFl_mgmt (s : State) (f : Flight → Flight) : (s.mapFl f).mgmt = s.mgmt := rfl
@[simp] theorem State.mapFl_dac (s : State) (f : Flight → Flight) : (s.mapFl f).dac = s.dac := rfl
@[simp] theorem State.mapFl_fuse (s : State) (f : Flight → Flight) : (s.mapFl f).fuse = s.fuse := rfl
@[simp] theorem State.mapFl_rep (s : State) (f : Flight → Flight) : (s.mapFl f).rep = s.rep := rfl
@[simp] theorem State.mapFl_boot (s : State) (f : Flight → Flight) : (s.mapFl f).boot = s.boot := rfl
@[simp] theorem State.mapFl_hreg (s : State) (f : Flight → Flight) : (s.mapFl f).hreg = s.hreg := rfl
@[simp] theorem State.mapFl_hif (s : State) (f : Flight → Flight) : (s.mapFl f).hif = s.hif := rfl
@[simp] theorem State.mapFl_fl (s : State) (f : Flight → Flight) : (s.mapFl f).fl = f s.fl := rfl
@[simp] theorem State.mapFl_lanes (s : State) (f : Flight → Flight) : (s.mapFl f).lanes = s.lanes := rfl
@[simp] theorem State.mapFl_cages (s : State) (f : Flight → Flight) : (s.mapFl f).cages = s.cages := rfl
@[simp] theorem State.mapFl_ports (s : State) (f : Flight → Flight) : (s.mapFl f).ports = s.ports := rfl
@[simp] theorem State.mapFl_retn (s : State) (f : Flight → Flight) : (s.mapFl f).retn = s.retn := rfl
@[simp] theorem State.mapFl_gar (s : State) (f : Flight → Flight) : (s.mapFl f).gar = s.gar := rfl
@[simp] theorem State.mapFl_buf (s : State) (f : Flight → Flight) : (s.mapFl f).buf = s.buf := rfl
@[simp] theorem State.mapFl_sched (s : State) (f : Flight → Flight) : (s.mapFl f).sched = s.sched := rfl
@[simp] theorem State.mapFl_tbl (s : State) (f : Flight → Flight) : (s.mapFl f).tbl = s.tbl := rfl
@[simp] theorem State.mapFl_mem (s : State) (f : Flight → Flight) : (s.mapFl f).mem = s.mem := rfl
@[simp] theorem State.mapFl_obs (s : State) (f : Flight → Flight) : (s.mapFl f).obs = s.obs := rfl
@[simp] theorem State.mapFl_tim (s : State) (f : Flight → Flight) : (s.mapFl f).tim = s.tim := rfl
@[simp] theorem State.mapFl_geo (s : State) (f : Flight → Flight) : (s.mapFl f).geo = s.geo := rfl
@[simp] theorem State.mapFl_adc (s : State) (f : Flight → Flight) : (s.mapFl f).adc = s.adc := rfl
@[simp] theorem State.mapLanes_pending (s : State) (f : LaneBank → LaneBank) : (s.mapLanes f).pending = s.pending := rfl
@[simp] theorem State.mapLanes_now (s : State) (f : LaneBank → LaneBank) : (s.mapLanes f).now = s.now := rfl
@[simp] theorem State.mapLanes_free (s : State) (f : LaneBank → LaneBank) : (s.mapLanes f).free = s.free := rfl
@[simp] theorem State.mapLanes_hostLog (s : State) (f : LaneBank → LaneBank) : (s.mapLanes f).hostLog = s.hostLog := rfl
@[simp] theorem State.mapLanes_elog (s : State) (f : LaneBank → LaneBank) : (s.mapLanes f).elog = s.elog := rfl
@[simp] theorem State.mapLanes_bed (s : State) (f : LaneBank → LaneBank) : (s.mapLanes f).bed = s.bed := rfl
@[simp] theorem State.mapLanes_health (s : State) (f : LaneBank → LaneBank) : (s.mapLanes f).health = s.health := rfl
@[simp] theorem State.mapLanes_otp (s : State) (f : LaneBank → LaneBank) : (s.mapLanes f).otp = s.otp := rfl
@[simp] theorem State.mapLanes_guard (s : State) (f : LaneBank → LaneBank) : (s.mapLanes f).guard = s.guard := rfl
@[simp] theorem State.mapLanes_mgmt (s : State) (f : LaneBank → LaneBank) : (s.mapLanes f).mgmt = s.mgmt := rfl
@[simp] theorem State.mapLanes_dac (s : State) (f : LaneBank → LaneBank) : (s.mapLanes f).dac = s.dac := rfl
@[simp] theorem State.mapLanes_fuse (s : State) (f : LaneBank → LaneBank) : (s.mapLanes f).fuse = s.fuse := rfl
@[simp] theorem State.mapLanes_rep (s : State) (f : LaneBank → LaneBank) : (s.mapLanes f).rep = s.rep := rfl
@[simp] theorem State.mapLanes_boot (s : State) (f : LaneBank → LaneBank) : (s.mapLanes f).boot = s.boot := rfl
@[simp] theorem State.mapLanes_hreg (s : State) (f : LaneBank → LaneBank) : (s.mapLanes f).hreg = s.hreg := rfl
@[simp] theorem State.mapLanes_hif (s : State) (f : LaneBank → LaneBank) : (s.mapLanes f).hif = s.hif := rfl
@[simp] theorem State.mapLanes_fl (s : State) (f : LaneBank → LaneBank) : (s.mapLanes f).fl = s.fl := rfl
@[simp] theorem State.mapLanes_lanes (s : State) (f : LaneBank → LaneBank) : (s.mapLanes f).lanes = f s.lanes := rfl
@[simp] theorem State.mapLanes_cages (s : State) (f : LaneBank → LaneBank) : (s.mapLanes f).cages = s.cages := rfl
@[simp] theorem State.mapLanes_ports (s : State) (f : LaneBank → LaneBank) : (s.mapLanes f).ports = s.ports := rfl
@[simp] theorem State.mapLanes_retn (s : State) (f : LaneBank → LaneBank) : (s.mapLanes f).retn = s.retn := rfl
@[simp] theorem State.mapLanes_gar (s : State) (f : LaneBank → LaneBank) : (s.mapLanes f).gar = s.gar := rfl
@[simp] theorem State.mapLanes_buf (s : State) (f : LaneBank → LaneBank) : (s.mapLanes f).buf = s.buf := rfl
@[simp] theorem State.mapLanes_sched (s : State) (f : LaneBank → LaneBank) : (s.mapLanes f).sched = s.sched := rfl
@[simp] theorem State.mapLanes_tbl (s : State) (f : LaneBank → LaneBank) : (s.mapLanes f).tbl = s.tbl := rfl
@[simp] theorem State.mapLanes_mem (s : State) (f : LaneBank → LaneBank) : (s.mapLanes f).mem = s.mem := rfl
@[simp] theorem State.mapLanes_obs (s : State) (f : LaneBank → LaneBank) : (s.mapLanes f).obs = s.obs := rfl
@[simp] theorem State.mapLanes_tim (s : State) (f : LaneBank → LaneBank) : (s.mapLanes f).tim = s.tim := rfl
@[simp] theorem State.mapLanes_geo (s : State) (f : LaneBank → LaneBank) : (s.mapLanes f).geo = s.geo := rfl
@[simp] theorem State.mapLanes_adc (s : State) (f : LaneBank → LaneBank) : (s.mapLanes f).adc = s.adc := rfl
@[simp] theorem State.mapCages_pending (s : State) (f : CageBank → CageBank) : (s.mapCages f).pending = s.pending := rfl
@[simp] theorem State.mapCages_now (s : State) (f : CageBank → CageBank) : (s.mapCages f).now = s.now := rfl
@[simp] theorem State.mapCages_free (s : State) (f : CageBank → CageBank) : (s.mapCages f).free = s.free := rfl
@[simp] theorem State.mapCages_hostLog (s : State) (f : CageBank → CageBank) : (s.mapCages f).hostLog = s.hostLog := rfl
@[simp] theorem State.mapCages_elog (s : State) (f : CageBank → CageBank) : (s.mapCages f).elog = s.elog := rfl
@[simp] theorem State.mapCages_bed (s : State) (f : CageBank → CageBank) : (s.mapCages f).bed = s.bed := rfl
@[simp] theorem State.mapCages_health (s : State) (f : CageBank → CageBank) : (s.mapCages f).health = s.health := rfl
@[simp] theorem State.mapCages_otp (s : State) (f : CageBank → CageBank) : (s.mapCages f).otp = s.otp := rfl
@[simp] theorem State.mapCages_guard (s : State) (f : CageBank → CageBank) : (s.mapCages f).guard = s.guard := rfl
@[simp] theorem State.mapCages_mgmt (s : State) (f : CageBank → CageBank) : (s.mapCages f).mgmt = s.mgmt := rfl
@[simp] theorem State.mapCages_dac (s : State) (f : CageBank → CageBank) : (s.mapCages f).dac = s.dac := rfl
@[simp] theorem State.mapCages_fuse (s : State) (f : CageBank → CageBank) : (s.mapCages f).fuse = s.fuse := rfl
@[simp] theorem State.mapCages_rep (s : State) (f : CageBank → CageBank) : (s.mapCages f).rep = s.rep := rfl
@[simp] theorem State.mapCages_boot (s : State) (f : CageBank → CageBank) : (s.mapCages f).boot = s.boot := rfl
@[simp] theorem State.mapCages_hreg (s : State) (f : CageBank → CageBank) : (s.mapCages f).hreg = s.hreg := rfl
@[simp] theorem State.mapCages_hif (s : State) (f : CageBank → CageBank) : (s.mapCages f).hif = s.hif := rfl
@[simp] theorem State.mapCages_fl (s : State) (f : CageBank → CageBank) : (s.mapCages f).fl = s.fl := rfl
@[simp] theorem State.mapCages_lanes (s : State) (f : CageBank → CageBank) : (s.mapCages f).lanes = s.lanes := rfl
@[simp] theorem State.mapCages_cages (s : State) (f : CageBank → CageBank) : (s.mapCages f).cages = f s.cages := rfl
@[simp] theorem State.mapCages_ports (s : State) (f : CageBank → CageBank) : (s.mapCages f).ports = s.ports := rfl
@[simp] theorem State.mapCages_retn (s : State) (f : CageBank → CageBank) : (s.mapCages f).retn = s.retn := rfl
@[simp] theorem State.mapCages_gar (s : State) (f : CageBank → CageBank) : (s.mapCages f).gar = s.gar := rfl
@[simp] theorem State.mapCages_buf (s : State) (f : CageBank → CageBank) : (s.mapCages f).buf = s.buf := rfl
@[simp] theorem State.mapCages_sched (s : State) (f : CageBank → CageBank) : (s.mapCages f).sched = s.sched := rfl
@[simp] theorem State.mapCages_tbl (s : State) (f : CageBank → CageBank) : (s.mapCages f).tbl = s.tbl := rfl
@[simp] theorem State.mapCages_mem (s : State) (f : CageBank → CageBank) : (s.mapCages f).mem = s.mem := rfl
@[simp] theorem State.mapCages_obs (s : State) (f : CageBank → CageBank) : (s.mapCages f).obs = s.obs := rfl
@[simp] theorem State.mapCages_tim (s : State) (f : CageBank → CageBank) : (s.mapCages f).tim = s.tim := rfl
@[simp] theorem State.mapCages_geo (s : State) (f : CageBank → CageBank) : (s.mapCages f).geo = s.geo := rfl
@[simp] theorem State.mapCages_adc (s : State) (f : CageBank → CageBank) : (s.mapCages f).adc = s.adc := rfl
@[simp] theorem State.mapPorts_pending (s : State) (f : PortBank → PortBank) : (s.mapPorts f).pending = s.pending := rfl
@[simp] theorem State.mapPorts_now (s : State) (f : PortBank → PortBank) : (s.mapPorts f).now = s.now := rfl
@[simp] theorem State.mapPorts_free (s : State) (f : PortBank → PortBank) : (s.mapPorts f).free = s.free := rfl
@[simp] theorem State.mapPorts_hostLog (s : State) (f : PortBank → PortBank) : (s.mapPorts f).hostLog = s.hostLog := rfl
@[simp] theorem State.mapPorts_elog (s : State) (f : PortBank → PortBank) : (s.mapPorts f).elog = s.elog := rfl
@[simp] theorem State.mapPorts_bed (s : State) (f : PortBank → PortBank) : (s.mapPorts f).bed = s.bed := rfl
@[simp] theorem State.mapPorts_health (s : State) (f : PortBank → PortBank) : (s.mapPorts f).health = s.health := rfl
@[simp] theorem State.mapPorts_otp (s : State) (f : PortBank → PortBank) : (s.mapPorts f).otp = s.otp := rfl
@[simp] theorem State.mapPorts_guard (s : State) (f : PortBank → PortBank) : (s.mapPorts f).guard = s.guard := rfl
@[simp] theorem State.mapPorts_mgmt (s : State) (f : PortBank → PortBank) : (s.mapPorts f).mgmt = s.mgmt := rfl
@[simp] theorem State.mapPorts_dac (s : State) (f : PortBank → PortBank) : (s.mapPorts f).dac = s.dac := rfl
@[simp] theorem State.mapPorts_fuse (s : State) (f : PortBank → PortBank) : (s.mapPorts f).fuse = s.fuse := rfl
@[simp] theorem State.mapPorts_rep (s : State) (f : PortBank → PortBank) : (s.mapPorts f).rep = s.rep := rfl
@[simp] theorem State.mapPorts_boot (s : State) (f : PortBank → PortBank) : (s.mapPorts f).boot = s.boot := rfl
@[simp] theorem State.mapPorts_hreg (s : State) (f : PortBank → PortBank) : (s.mapPorts f).hreg = s.hreg := rfl
@[simp] theorem State.mapPorts_hif (s : State) (f : PortBank → PortBank) : (s.mapPorts f).hif = s.hif := rfl
@[simp] theorem State.mapPorts_fl (s : State) (f : PortBank → PortBank) : (s.mapPorts f).fl = s.fl := rfl
@[simp] theorem State.mapPorts_lanes (s : State) (f : PortBank → PortBank) : (s.mapPorts f).lanes = s.lanes := rfl
@[simp] theorem State.mapPorts_cages (s : State) (f : PortBank → PortBank) : (s.mapPorts f).cages = s.cages := rfl
@[simp] theorem State.mapPorts_ports (s : State) (f : PortBank → PortBank) : (s.mapPorts f).ports = f s.ports := rfl
@[simp] theorem State.mapPorts_retn (s : State) (f : PortBank → PortBank) : (s.mapPorts f).retn = s.retn := rfl
@[simp] theorem State.mapPorts_gar (s : State) (f : PortBank → PortBank) : (s.mapPorts f).gar = s.gar := rfl
@[simp] theorem State.mapPorts_buf (s : State) (f : PortBank → PortBank) : (s.mapPorts f).buf = s.buf := rfl
@[simp] theorem State.mapPorts_sched (s : State) (f : PortBank → PortBank) : (s.mapPorts f).sched = s.sched := rfl
@[simp] theorem State.mapPorts_tbl (s : State) (f : PortBank → PortBank) : (s.mapPorts f).tbl = s.tbl := rfl
@[simp] theorem State.mapPorts_mem (s : State) (f : PortBank → PortBank) : (s.mapPorts f).mem = s.mem := rfl
@[simp] theorem State.mapPorts_obs (s : State) (f : PortBank → PortBank) : (s.mapPorts f).obs = s.obs := rfl
@[simp] theorem State.mapPorts_tim (s : State) (f : PortBank → PortBank) : (s.mapPorts f).tim = s.tim := rfl
@[simp] theorem State.mapPorts_geo (s : State) (f : PortBank → PortBank) : (s.mapPorts f).geo = s.geo := rfl
@[simp] theorem State.mapPorts_adc (s : State) (f : PortBank → PortBank) : (s.mapPorts f).adc = s.adc := rfl
@[simp] theorem State.mapRetn_pending (s : State) (f : Retain → Retain) : (s.mapRetn f).pending = s.pending := rfl
@[simp] theorem State.mapRetn_now (s : State) (f : Retain → Retain) : (s.mapRetn f).now = s.now := rfl
@[simp] theorem State.mapRetn_free (s : State) (f : Retain → Retain) : (s.mapRetn f).free = s.free := rfl
@[simp] theorem State.mapRetn_hostLog (s : State) (f : Retain → Retain) : (s.mapRetn f).hostLog = s.hostLog := rfl
@[simp] theorem State.mapRetn_elog (s : State) (f : Retain → Retain) : (s.mapRetn f).elog = s.elog := rfl
@[simp] theorem State.mapRetn_bed (s : State) (f : Retain → Retain) : (s.mapRetn f).bed = s.bed := rfl
@[simp] theorem State.mapRetn_health (s : State) (f : Retain → Retain) : (s.mapRetn f).health = s.health := rfl
@[simp] theorem State.mapRetn_otp (s : State) (f : Retain → Retain) : (s.mapRetn f).otp = s.otp := rfl
@[simp] theorem State.mapRetn_guard (s : State) (f : Retain → Retain) : (s.mapRetn f).guard = s.guard := rfl
@[simp] theorem State.mapRetn_mgmt (s : State) (f : Retain → Retain) : (s.mapRetn f).mgmt = s.mgmt := rfl
@[simp] theorem State.mapRetn_dac (s : State) (f : Retain → Retain) : (s.mapRetn f).dac = s.dac := rfl
@[simp] theorem State.mapRetn_fuse (s : State) (f : Retain → Retain) : (s.mapRetn f).fuse = s.fuse := rfl
@[simp] theorem State.mapRetn_rep (s : State) (f : Retain → Retain) : (s.mapRetn f).rep = s.rep := rfl
@[simp] theorem State.mapRetn_boot (s : State) (f : Retain → Retain) : (s.mapRetn f).boot = s.boot := rfl
@[simp] theorem State.mapRetn_hreg (s : State) (f : Retain → Retain) : (s.mapRetn f).hreg = s.hreg := rfl
@[simp] theorem State.mapRetn_hif (s : State) (f : Retain → Retain) : (s.mapRetn f).hif = s.hif := rfl
@[simp] theorem State.mapRetn_fl (s : State) (f : Retain → Retain) : (s.mapRetn f).fl = s.fl := rfl
@[simp] theorem State.mapRetn_lanes (s : State) (f : Retain → Retain) : (s.mapRetn f).lanes = s.lanes := rfl
@[simp] theorem State.mapRetn_cages (s : State) (f : Retain → Retain) : (s.mapRetn f).cages = s.cages := rfl
@[simp] theorem State.mapRetn_ports (s : State) (f : Retain → Retain) : (s.mapRetn f).ports = s.ports := rfl
@[simp] theorem State.mapRetn_retn (s : State) (f : Retain → Retain) : (s.mapRetn f).retn = f s.retn := rfl
@[simp] theorem State.mapRetn_gar (s : State) (f : Retain → Retain) : (s.mapRetn f).gar = s.gar := rfl
@[simp] theorem State.mapRetn_buf (s : State) (f : Retain → Retain) : (s.mapRetn f).buf = s.buf := rfl
@[simp] theorem State.mapRetn_sched (s : State) (f : Retain → Retain) : (s.mapRetn f).sched = s.sched := rfl
@[simp] theorem State.mapRetn_tbl (s : State) (f : Retain → Retain) : (s.mapRetn f).tbl = s.tbl := rfl
@[simp] theorem State.mapRetn_mem (s : State) (f : Retain → Retain) : (s.mapRetn f).mem = s.mem := rfl
@[simp] theorem State.mapRetn_obs (s : State) (f : Retain → Retain) : (s.mapRetn f).obs = s.obs := rfl
@[simp] theorem State.mapRetn_tim (s : State) (f : Retain → Retain) : (s.mapRetn f).tim = s.tim := rfl
@[simp] theorem State.mapRetn_geo (s : State) (f : Retain → Retain) : (s.mapRetn f).geo = s.geo := rfl
@[simp] theorem State.mapRetn_adc (s : State) (f : Retain → Retain) : (s.mapRetn f).adc = s.adc := rfl
@[simp] theorem State.mapGar_pending (s : State) (f : Garnet → Garnet) : (s.mapGar f).pending = s.pending := rfl
@[simp] theorem State.mapGar_now (s : State) (f : Garnet → Garnet) : (s.mapGar f).now = s.now := rfl
@[simp] theorem State.mapGar_free (s : State) (f : Garnet → Garnet) : (s.mapGar f).free = s.free := rfl
@[simp] theorem State.mapGar_hostLog (s : State) (f : Garnet → Garnet) : (s.mapGar f).hostLog = s.hostLog := rfl
@[simp] theorem State.mapGar_elog (s : State) (f : Garnet → Garnet) : (s.mapGar f).elog = s.elog := rfl
@[simp] theorem State.mapGar_bed (s : State) (f : Garnet → Garnet) : (s.mapGar f).bed = s.bed := rfl
@[simp] theorem State.mapGar_health (s : State) (f : Garnet → Garnet) : (s.mapGar f).health = s.health := rfl
@[simp] theorem State.mapGar_otp (s : State) (f : Garnet → Garnet) : (s.mapGar f).otp = s.otp := rfl
@[simp] theorem State.mapGar_guard (s : State) (f : Garnet → Garnet) : (s.mapGar f).guard = s.guard := rfl
@[simp] theorem State.mapGar_mgmt (s : State) (f : Garnet → Garnet) : (s.mapGar f).mgmt = s.mgmt := rfl
@[simp] theorem State.mapGar_dac (s : State) (f : Garnet → Garnet) : (s.mapGar f).dac = s.dac := rfl
@[simp] theorem State.mapGar_fuse (s : State) (f : Garnet → Garnet) : (s.mapGar f).fuse = s.fuse := rfl
@[simp] theorem State.mapGar_rep (s : State) (f : Garnet → Garnet) : (s.mapGar f).rep = s.rep := rfl
@[simp] theorem State.mapGar_boot (s : State) (f : Garnet → Garnet) : (s.mapGar f).boot = s.boot := rfl
@[simp] theorem State.mapGar_hreg (s : State) (f : Garnet → Garnet) : (s.mapGar f).hreg = s.hreg := rfl
@[simp] theorem State.mapGar_hif (s : State) (f : Garnet → Garnet) : (s.mapGar f).hif = s.hif := rfl
@[simp] theorem State.mapGar_fl (s : State) (f : Garnet → Garnet) : (s.mapGar f).fl = s.fl := rfl
@[simp] theorem State.mapGar_lanes (s : State) (f : Garnet → Garnet) : (s.mapGar f).lanes = s.lanes := rfl
@[simp] theorem State.mapGar_cages (s : State) (f : Garnet → Garnet) : (s.mapGar f).cages = s.cages := rfl
@[simp] theorem State.mapGar_ports (s : State) (f : Garnet → Garnet) : (s.mapGar f).ports = s.ports := rfl
@[simp] theorem State.mapGar_retn (s : State) (f : Garnet → Garnet) : (s.mapGar f).retn = s.retn := rfl
@[simp] theorem State.mapGar_gar (s : State) (f : Garnet → Garnet) : (s.mapGar f).gar = f s.gar := rfl
@[simp] theorem State.mapGar_buf (s : State) (f : Garnet → Garnet) : (s.mapGar f).buf = s.buf := rfl
@[simp] theorem State.mapGar_sched (s : State) (f : Garnet → Garnet) : (s.mapGar f).sched = s.sched := rfl
@[simp] theorem State.mapGar_tbl (s : State) (f : Garnet → Garnet) : (s.mapGar f).tbl = s.tbl := rfl
@[simp] theorem State.mapGar_mem (s : State) (f : Garnet → Garnet) : (s.mapGar f).mem = s.mem := rfl
@[simp] theorem State.mapGar_obs (s : State) (f : Garnet → Garnet) : (s.mapGar f).obs = s.obs := rfl
@[simp] theorem State.mapGar_tim (s : State) (f : Garnet → Garnet) : (s.mapGar f).tim = s.tim := rfl
@[simp] theorem State.mapGar_geo (s : State) (f : Garnet → Garnet) : (s.mapGar f).geo = s.geo := rfl
@[simp] theorem State.mapGar_adc (s : State) (f : Garnet → Garnet) : (s.mapGar f).adc = s.adc := rfl
@[simp] theorem State.mapBuf_pending (s : State) (f : Buffer → Buffer) : (s.mapBuf f).pending = s.pending := rfl
@[simp] theorem State.mapBuf_now (s : State) (f : Buffer → Buffer) : (s.mapBuf f).now = s.now := rfl
@[simp] theorem State.mapBuf_free (s : State) (f : Buffer → Buffer) : (s.mapBuf f).free = s.free := rfl
@[simp] theorem State.mapBuf_hostLog (s : State) (f : Buffer → Buffer) : (s.mapBuf f).hostLog = s.hostLog := rfl
@[simp] theorem State.mapBuf_elog (s : State) (f : Buffer → Buffer) : (s.mapBuf f).elog = s.elog := rfl
@[simp] theorem State.mapBuf_bed (s : State) (f : Buffer → Buffer) : (s.mapBuf f).bed = s.bed := rfl
@[simp] theorem State.mapBuf_health (s : State) (f : Buffer → Buffer) : (s.mapBuf f).health = s.health := rfl
@[simp] theorem State.mapBuf_otp (s : State) (f : Buffer → Buffer) : (s.mapBuf f).otp = s.otp := rfl
@[simp] theorem State.mapBuf_guard (s : State) (f : Buffer → Buffer) : (s.mapBuf f).guard = s.guard := rfl
@[simp] theorem State.mapBuf_mgmt (s : State) (f : Buffer → Buffer) : (s.mapBuf f).mgmt = s.mgmt := rfl
@[simp] theorem State.mapBuf_dac (s : State) (f : Buffer → Buffer) : (s.mapBuf f).dac = s.dac := rfl
@[simp] theorem State.mapBuf_fuse (s : State) (f : Buffer → Buffer) : (s.mapBuf f).fuse = s.fuse := rfl
@[simp] theorem State.mapBuf_rep (s : State) (f : Buffer → Buffer) : (s.mapBuf f).rep = s.rep := rfl
@[simp] theorem State.mapBuf_boot (s : State) (f : Buffer → Buffer) : (s.mapBuf f).boot = s.boot := rfl
@[simp] theorem State.mapBuf_hreg (s : State) (f : Buffer → Buffer) : (s.mapBuf f).hreg = s.hreg := rfl
@[simp] theorem State.mapBuf_hif (s : State) (f : Buffer → Buffer) : (s.mapBuf f).hif = s.hif := rfl
@[simp] theorem State.mapBuf_fl (s : State) (f : Buffer → Buffer) : (s.mapBuf f).fl = s.fl := rfl
@[simp] theorem State.mapBuf_lanes (s : State) (f : Buffer → Buffer) : (s.mapBuf f).lanes = s.lanes := rfl
@[simp] theorem State.mapBuf_cages (s : State) (f : Buffer → Buffer) : (s.mapBuf f).cages = s.cages := rfl
@[simp] theorem State.mapBuf_ports (s : State) (f : Buffer → Buffer) : (s.mapBuf f).ports = s.ports := rfl
@[simp] theorem State.mapBuf_retn (s : State) (f : Buffer → Buffer) : (s.mapBuf f).retn = s.retn := rfl
@[simp] theorem State.mapBuf_gar (s : State) (f : Buffer → Buffer) : (s.mapBuf f).gar = s.gar := rfl
@[simp] theorem State.mapBuf_buf (s : State) (f : Buffer → Buffer) : (s.mapBuf f).buf = f s.buf := rfl
@[simp] theorem State.mapBuf_sched (s : State) (f : Buffer → Buffer) : (s.mapBuf f).sched = s.sched := rfl
@[simp] theorem State.mapBuf_tbl (s : State) (f : Buffer → Buffer) : (s.mapBuf f).tbl = s.tbl := rfl
@[simp] theorem State.mapBuf_mem (s : State) (f : Buffer → Buffer) : (s.mapBuf f).mem = s.mem := rfl
@[simp] theorem State.mapBuf_obs (s : State) (f : Buffer → Buffer) : (s.mapBuf f).obs = s.obs := rfl
@[simp] theorem State.mapBuf_tim (s : State) (f : Buffer → Buffer) : (s.mapBuf f).tim = s.tim := rfl
@[simp] theorem State.mapBuf_geo (s : State) (f : Buffer → Buffer) : (s.mapBuf f).geo = s.geo := rfl
@[simp] theorem State.mapBuf_adc (s : State) (f : Buffer → Buffer) : (s.mapBuf f).adc = s.adc := rfl
@[simp] theorem State.mapSched_pending (s : State) (f : Sched → Sched) : (s.mapSched f).pending = s.pending := rfl
@[simp] theorem State.mapSched_now (s : State) (f : Sched → Sched) : (s.mapSched f).now = s.now := rfl
@[simp] theorem State.mapSched_free (s : State) (f : Sched → Sched) : (s.mapSched f).free = s.free := rfl
@[simp] theorem State.mapSched_hostLog (s : State) (f : Sched → Sched) : (s.mapSched f).hostLog = s.hostLog := rfl
@[simp] theorem State.mapSched_elog (s : State) (f : Sched → Sched) : (s.mapSched f).elog = s.elog := rfl
@[simp] theorem State.mapSched_bed (s : State) (f : Sched → Sched) : (s.mapSched f).bed = s.bed := rfl
@[simp] theorem State.mapSched_health (s : State) (f : Sched → Sched) : (s.mapSched f).health = s.health := rfl
@[simp] theorem State.mapSched_otp (s : State) (f : Sched → Sched) : (s.mapSched f).otp = s.otp := rfl
@[simp] theorem State.mapSched_guard (s : State) (f : Sched → Sched) : (s.mapSched f).guard = s.guard := rfl
@[simp] theorem State.mapSched_mgmt (s : State) (f : Sched → Sched) : (s.mapSched f).mgmt = s.mgmt := rfl
@[simp] theorem State.mapSched_dac (s : State) (f : Sched → Sched) : (s.mapSched f).dac = s.dac := rfl
@[simp] theorem State.mapSched_fuse (s : State) (f : Sched → Sched) : (s.mapSched f).fuse = s.fuse := rfl
@[simp] theorem State.mapSched_rep (s : State) (f : Sched → Sched) : (s.mapSched f).rep = s.rep := rfl
@[simp] theorem State.mapSched_boot (s : State) (f : Sched → Sched) : (s.mapSched f).boot = s.boot := rfl
@[simp] theorem State.mapSched_hreg (s : State) (f : Sched → Sched) : (s.mapSched f).hreg = s.hreg := rfl
@[simp] theorem State.mapSched_hif (s : State) (f : Sched → Sched) : (s.mapSched f).hif = s.hif := rfl
@[simp] theorem State.mapSched_fl (s : State) (f : Sched → Sched) : (s.mapSched f).fl = s.fl := rfl
@[simp] theorem State.mapSched_lanes (s : State) (f : Sched → Sched) : (s.mapSched f).lanes = s.lanes := rfl
@[simp] theorem State.mapSched_cages (s : State) (f : Sched → Sched) : (s.mapSched f).cages = s.cages := rfl
@[simp] theorem State.mapSched_ports (s : State) (f : Sched → Sched) : (s.mapSched f).ports = s.ports := rfl
@[simp] theorem State.mapSched_retn (s : State) (f : Sched → Sched) : (s.mapSched f).retn = s.retn := rfl
@[simp] theorem State.mapSched_gar (s : State) (f : Sched → Sched) : (s.mapSched f).gar = s.gar := rfl
@[simp] theorem State.mapSched_buf (s : State) (f : Sched → Sched) : (s.mapSched f).buf = s.buf := rfl
@[simp] theorem State.mapSched_sched (s : State) (f : Sched → Sched) : (s.mapSched f).sched = f s.sched := rfl
@[simp] theorem State.mapSched_tbl (s : State) (f : Sched → Sched) : (s.mapSched f).tbl = s.tbl := rfl
@[simp] theorem State.mapSched_mem (s : State) (f : Sched → Sched) : (s.mapSched f).mem = s.mem := rfl
@[simp] theorem State.mapSched_obs (s : State) (f : Sched → Sched) : (s.mapSched f).obs = s.obs := rfl
@[simp] theorem State.mapSched_tim (s : State) (f : Sched → Sched) : (s.mapSched f).tim = s.tim := rfl
@[simp] theorem State.mapSched_geo (s : State) (f : Sched → Sched) : (s.mapSched f).geo = s.geo := rfl
@[simp] theorem State.mapSched_adc (s : State) (f : Sched → Sched) : (s.mapSched f).adc = s.adc := rfl
@[simp] theorem State.mapTbl_pending (s : State) (f : Tables → Tables) : (s.mapTbl f).pending = s.pending := rfl
@[simp] theorem State.mapTbl_now (s : State) (f : Tables → Tables) : (s.mapTbl f).now = s.now := rfl
@[simp] theorem State.mapTbl_free (s : State) (f : Tables → Tables) : (s.mapTbl f).free = s.free := rfl
@[simp] theorem State.mapTbl_hostLog (s : State) (f : Tables → Tables) : (s.mapTbl f).hostLog = s.hostLog := rfl
@[simp] theorem State.mapTbl_elog (s : State) (f : Tables → Tables) : (s.mapTbl f).elog = s.elog := rfl
@[simp] theorem State.mapTbl_bed (s : State) (f : Tables → Tables) : (s.mapTbl f).bed = s.bed := rfl
@[simp] theorem State.mapTbl_health (s : State) (f : Tables → Tables) : (s.mapTbl f).health = s.health := rfl
@[simp] theorem State.mapTbl_otp (s : State) (f : Tables → Tables) : (s.mapTbl f).otp = s.otp := rfl
@[simp] theorem State.mapTbl_guard (s : State) (f : Tables → Tables) : (s.mapTbl f).guard = s.guard := rfl
@[simp] theorem State.mapTbl_mgmt (s : State) (f : Tables → Tables) : (s.mapTbl f).mgmt = s.mgmt := rfl
@[simp] theorem State.mapTbl_dac (s : State) (f : Tables → Tables) : (s.mapTbl f).dac = s.dac := rfl
@[simp] theorem State.mapTbl_fuse (s : State) (f : Tables → Tables) : (s.mapTbl f).fuse = s.fuse := rfl
@[simp] theorem State.mapTbl_rep (s : State) (f : Tables → Tables) : (s.mapTbl f).rep = s.rep := rfl
@[simp] theorem State.mapTbl_boot (s : State) (f : Tables → Tables) : (s.mapTbl f).boot = s.boot := rfl
@[simp] theorem State.mapTbl_hreg (s : State) (f : Tables → Tables) : (s.mapTbl f).hreg = s.hreg := rfl
@[simp] theorem State.mapTbl_hif (s : State) (f : Tables → Tables) : (s.mapTbl f).hif = s.hif := rfl
@[simp] theorem State.mapTbl_fl (s : State) (f : Tables → Tables) : (s.mapTbl f).fl = s.fl := rfl
@[simp] theorem State.mapTbl_lanes (s : State) (f : Tables → Tables) : (s.mapTbl f).lanes = s.lanes := rfl
@[simp] theorem State.mapTbl_cages (s : State) (f : Tables → Tables) : (s.mapTbl f).cages = s.cages := rfl
@[simp] theorem State.mapTbl_ports (s : State) (f : Tables → Tables) : (s.mapTbl f).ports = s.ports := rfl
@[simp] theorem State.mapTbl_retn (s : State) (f : Tables → Tables) : (s.mapTbl f).retn = s.retn := rfl
@[simp] theorem State.mapTbl_gar (s : State) (f : Tables → Tables) : (s.mapTbl f).gar = s.gar := rfl
@[simp] theorem State.mapTbl_buf (s : State) (f : Tables → Tables) : (s.mapTbl f).buf = s.buf := rfl
@[simp] theorem State.mapTbl_sched (s : State) (f : Tables → Tables) : (s.mapTbl f).sched = s.sched := rfl
@[simp] theorem State.mapTbl_tbl (s : State) (f : Tables → Tables) : (s.mapTbl f).tbl = f s.tbl := rfl
@[simp] theorem State.mapTbl_mem (s : State) (f : Tables → Tables) : (s.mapTbl f).mem = s.mem := rfl
@[simp] theorem State.mapTbl_obs (s : State) (f : Tables → Tables) : (s.mapTbl f).obs = s.obs := rfl
@[simp] theorem State.mapTbl_tim (s : State) (f : Tables → Tables) : (s.mapTbl f).tim = s.tim := rfl
@[simp] theorem State.mapTbl_geo (s : State) (f : Tables → Tables) : (s.mapTbl f).geo = s.geo := rfl
@[simp] theorem State.mapTbl_adc (s : State) (f : Tables → Tables) : (s.mapTbl f).adc = s.adc := rfl
@[simp] theorem State.mapMem_pending (s : State) (f : Mem → Mem) : (s.mapMem f).pending = s.pending := rfl
@[simp] theorem State.mapMem_now (s : State) (f : Mem → Mem) : (s.mapMem f).now = s.now := rfl
@[simp] theorem State.mapMem_free (s : State) (f : Mem → Mem) : (s.mapMem f).free = s.free := rfl
@[simp] theorem State.mapMem_hostLog (s : State) (f : Mem → Mem) : (s.mapMem f).hostLog = s.hostLog := rfl
@[simp] theorem State.mapMem_elog (s : State) (f : Mem → Mem) : (s.mapMem f).elog = s.elog := rfl
@[simp] theorem State.mapMem_bed (s : State) (f : Mem → Mem) : (s.mapMem f).bed = s.bed := rfl
@[simp] theorem State.mapMem_health (s : State) (f : Mem → Mem) : (s.mapMem f).health = s.health := rfl
@[simp] theorem State.mapMem_otp (s : State) (f : Mem → Mem) : (s.mapMem f).otp = s.otp := rfl
@[simp] theorem State.mapMem_guard (s : State) (f : Mem → Mem) : (s.mapMem f).guard = s.guard := rfl
@[simp] theorem State.mapMem_mgmt (s : State) (f : Mem → Mem) : (s.mapMem f).mgmt = s.mgmt := rfl
@[simp] theorem State.mapMem_dac (s : State) (f : Mem → Mem) : (s.mapMem f).dac = s.dac := rfl
@[simp] theorem State.mapMem_fuse (s : State) (f : Mem → Mem) : (s.mapMem f).fuse = s.fuse := rfl
@[simp] theorem State.mapMem_rep (s : State) (f : Mem → Mem) : (s.mapMem f).rep = s.rep := rfl
@[simp] theorem State.mapMem_boot (s : State) (f : Mem → Mem) : (s.mapMem f).boot = s.boot := rfl
@[simp] theorem State.mapMem_hreg (s : State) (f : Mem → Mem) : (s.mapMem f).hreg = s.hreg := rfl
@[simp] theorem State.mapMem_hif (s : State) (f : Mem → Mem) : (s.mapMem f).hif = s.hif := rfl
@[simp] theorem State.mapMem_fl (s : State) (f : Mem → Mem) : (s.mapMem f).fl = s.fl := rfl
@[simp] theorem State.mapMem_lanes (s : State) (f : Mem → Mem) : (s.mapMem f).lanes = s.lanes := rfl
@[simp] theorem State.mapMem_cages (s : State) (f : Mem → Mem) : (s.mapMem f).cages = s.cages := rfl
@[simp] theorem State.mapMem_ports (s : State) (f : Mem → Mem) : (s.mapMem f).ports = s.ports := rfl
@[simp] theorem State.mapMem_retn (s : State) (f : Mem → Mem) : (s.mapMem f).retn = s.retn := rfl
@[simp] theorem State.mapMem_gar (s : State) (f : Mem → Mem) : (s.mapMem f).gar = s.gar := rfl
@[simp] theorem State.mapMem_buf (s : State) (f : Mem → Mem) : (s.mapMem f).buf = s.buf := rfl
@[simp] theorem State.mapMem_sched (s : State) (f : Mem → Mem) : (s.mapMem f).sched = s.sched := rfl
@[simp] theorem State.mapMem_tbl (s : State) (f : Mem → Mem) : (s.mapMem f).tbl = s.tbl := rfl
@[simp] theorem State.mapMem_mem (s : State) (f : Mem → Mem) : (s.mapMem f).mem = f s.mem := rfl
@[simp] theorem State.mapMem_obs (s : State) (f : Mem → Mem) : (s.mapMem f).obs = s.obs := rfl
@[simp] theorem State.mapMem_tim (s : State) (f : Mem → Mem) : (s.mapMem f).tim = s.tim := rfl
@[simp] theorem State.mapMem_geo (s : State) (f : Mem → Mem) : (s.mapMem f).geo = s.geo := rfl
@[simp] theorem State.mapMem_adc (s : State) (f : Mem → Mem) : (s.mapMem f).adc = s.adc := rfl
@[simp] theorem State.mapObs_pending (s : State) (f : Obs → Obs) : (s.mapObs f).pending = s.pending := rfl
@[simp] theorem State.mapObs_now (s : State) (f : Obs → Obs) : (s.mapObs f).now = s.now := rfl
@[simp] theorem State.mapObs_free (s : State) (f : Obs → Obs) : (s.mapObs f).free = s.free := rfl
@[simp] theorem State.mapObs_hostLog (s : State) (f : Obs → Obs) : (s.mapObs f).hostLog = s.hostLog := rfl
@[simp] theorem State.mapObs_elog (s : State) (f : Obs → Obs) : (s.mapObs f).elog = s.elog := rfl
@[simp] theorem State.mapObs_bed (s : State) (f : Obs → Obs) : (s.mapObs f).bed = s.bed := rfl
@[simp] theorem State.mapObs_health (s : State) (f : Obs → Obs) : (s.mapObs f).health = s.health := rfl
@[simp] theorem State.mapObs_otp (s : State) (f : Obs → Obs) : (s.mapObs f).otp = s.otp := rfl
@[simp] theorem State.mapObs_guard (s : State) (f : Obs → Obs) : (s.mapObs f).guard = s.guard := rfl
@[simp] theorem State.mapObs_mgmt (s : State) (f : Obs → Obs) : (s.mapObs f).mgmt = s.mgmt := rfl
@[simp] theorem State.mapObs_dac (s : State) (f : Obs → Obs) : (s.mapObs f).dac = s.dac := rfl
@[simp] theorem State.mapObs_fuse (s : State) (f : Obs → Obs) : (s.mapObs f).fuse = s.fuse := rfl
@[simp] theorem State.mapObs_rep (s : State) (f : Obs → Obs) : (s.mapObs f).rep = s.rep := rfl
@[simp] theorem State.mapObs_boot (s : State) (f : Obs → Obs) : (s.mapObs f).boot = s.boot := rfl
@[simp] theorem State.mapObs_hreg (s : State) (f : Obs → Obs) : (s.mapObs f).hreg = s.hreg := rfl
@[simp] theorem State.mapObs_hif (s : State) (f : Obs → Obs) : (s.mapObs f).hif = s.hif := rfl
@[simp] theorem State.mapObs_fl (s : State) (f : Obs → Obs) : (s.mapObs f).fl = s.fl := rfl
@[simp] theorem State.mapObs_lanes (s : State) (f : Obs → Obs) : (s.mapObs f).lanes = s.lanes := rfl
@[simp] theorem State.mapObs_cages (s : State) (f : Obs → Obs) : (s.mapObs f).cages = s.cages := rfl
@[simp] theorem State.mapObs_ports (s : State) (f : Obs → Obs) : (s.mapObs f).ports = s.ports := rfl
@[simp] theorem State.mapObs_retn (s : State) (f : Obs → Obs) : (s.mapObs f).retn = s.retn := rfl
@[simp] theorem State.mapObs_gar (s : State) (f : Obs → Obs) : (s.mapObs f).gar = s.gar := rfl
@[simp] theorem State.mapObs_buf (s : State) (f : Obs → Obs) : (s.mapObs f).buf = s.buf := rfl
@[simp] theorem State.mapObs_sched (s : State) (f : Obs → Obs) : (s.mapObs f).sched = s.sched := rfl
@[simp] theorem State.mapObs_tbl (s : State) (f : Obs → Obs) : (s.mapObs f).tbl = s.tbl := rfl
@[simp] theorem State.mapObs_mem (s : State) (f : Obs → Obs) : (s.mapObs f).mem = s.mem := rfl
@[simp] theorem State.mapObs_obs (s : State) (f : Obs → Obs) : (s.mapObs f).obs = f s.obs := rfl
@[simp] theorem State.mapObs_tim (s : State) (f : Obs → Obs) : (s.mapObs f).tim = s.tim := rfl
@[simp] theorem State.mapObs_geo (s : State) (f : Obs → Obs) : (s.mapObs f).geo = s.geo := rfl
@[simp] theorem State.mapObs_adc (s : State) (f : Obs → Obs) : (s.mapObs f).adc = s.adc := rfl
@[simp] theorem State.mapTim_pending (s : State) (f : Tim → Tim) : (s.mapTim f).pending = s.pending := rfl
@[simp] theorem State.mapTim_now (s : State) (f : Tim → Tim) : (s.mapTim f).now = s.now := rfl
@[simp] theorem State.mapTim_free (s : State) (f : Tim → Tim) : (s.mapTim f).free = s.free := rfl
@[simp] theorem State.mapTim_hostLog (s : State) (f : Tim → Tim) : (s.mapTim f).hostLog = s.hostLog := rfl
@[simp] theorem State.mapTim_elog (s : State) (f : Tim → Tim) : (s.mapTim f).elog = s.elog := rfl
@[simp] theorem State.mapTim_bed (s : State) (f : Tim → Tim) : (s.mapTim f).bed = s.bed := rfl
@[simp] theorem State.mapTim_health (s : State) (f : Tim → Tim) : (s.mapTim f).health = s.health := rfl
@[simp] theorem State.mapTim_otp (s : State) (f : Tim → Tim) : (s.mapTim f).otp = s.otp := rfl
@[simp] theorem State.mapTim_guard (s : State) (f : Tim → Tim) : (s.mapTim f).guard = s.guard := rfl
@[simp] theorem State.mapTim_mgmt (s : State) (f : Tim → Tim) : (s.mapTim f).mgmt = s.mgmt := rfl
@[simp] theorem State.mapTim_dac (s : State) (f : Tim → Tim) : (s.mapTim f).dac = s.dac := rfl
@[simp] theorem State.mapTim_fuse (s : State) (f : Tim → Tim) : (s.mapTim f).fuse = s.fuse := rfl
@[simp] theorem State.mapTim_rep (s : State) (f : Tim → Tim) : (s.mapTim f).rep = s.rep := rfl
@[simp] theorem State.mapTim_boot (s : State) (f : Tim → Tim) : (s.mapTim f).boot = s.boot := rfl
@[simp] theorem State.mapTim_hreg (s : State) (f : Tim → Tim) : (s.mapTim f).hreg = s.hreg := rfl
@[simp] theorem State.mapTim_hif (s : State) (f : Tim → Tim) : (s.mapTim f).hif = s.hif := rfl
@[simp] theorem State.mapTim_fl (s : State) (f : Tim → Tim) : (s.mapTim f).fl = s.fl := rfl
@[simp] theorem State.mapTim_lanes (s : State) (f : Tim → Tim) : (s.mapTim f).lanes = s.lanes := rfl
@[simp] theorem State.mapTim_cages (s : State) (f : Tim → Tim) : (s.mapTim f).cages = s.cages := rfl
@[simp] theorem State.mapTim_ports (s : State) (f : Tim → Tim) : (s.mapTim f).ports = s.ports := rfl
@[simp] theorem State.mapTim_retn (s : State) (f : Tim → Tim) : (s.mapTim f).retn = s.retn := rfl
@[simp] theorem State.mapTim_gar (s : State) (f : Tim → Tim) : (s.mapTim f).gar = s.gar := rfl
@[simp] theorem State.mapTim_buf (s : State) (f : Tim → Tim) : (s.mapTim f).buf = s.buf := rfl
@[simp] theorem State.mapTim_sched (s : State) (f : Tim → Tim) : (s.mapTim f).sched = s.sched := rfl
@[simp] theorem State.mapTim_tbl (s : State) (f : Tim → Tim) : (s.mapTim f).tbl = s.tbl := rfl
@[simp] theorem State.mapTim_mem (s : State) (f : Tim → Tim) : (s.mapTim f).mem = s.mem := rfl
@[simp] theorem State.mapTim_obs (s : State) (f : Tim → Tim) : (s.mapTim f).obs = s.obs := rfl
@[simp] theorem State.mapTim_tim (s : State) (f : Tim → Tim) : (s.mapTim f).tim = f s.tim := rfl
@[simp] theorem State.mapTim_geo (s : State) (f : Tim → Tim) : (s.mapTim f).geo = s.geo := rfl
@[simp] theorem State.mapTim_adc (s : State) (f : Tim → Tim) : (s.mapTim f).adc = s.adc := rfl
@[simp] theorem State.mapGeo_pending (s : State) (f : Geode → Geode) : (s.mapGeo f).pending = s.pending := rfl
@[simp] theorem State.mapGeo_now (s : State) (f : Geode → Geode) : (s.mapGeo f).now = s.now := rfl
@[simp] theorem State.mapGeo_free (s : State) (f : Geode → Geode) : (s.mapGeo f).free = s.free := rfl
@[simp] theorem State.mapGeo_hostLog (s : State) (f : Geode → Geode) : (s.mapGeo f).hostLog = s.hostLog := rfl
@[simp] theorem State.mapGeo_elog (s : State) (f : Geode → Geode) : (s.mapGeo f).elog = s.elog := rfl
@[simp] theorem State.mapGeo_bed (s : State) (f : Geode → Geode) : (s.mapGeo f).bed = s.bed := rfl
@[simp] theorem State.mapGeo_health (s : State) (f : Geode → Geode) : (s.mapGeo f).health = s.health := rfl
@[simp] theorem State.mapGeo_otp (s : State) (f : Geode → Geode) : (s.mapGeo f).otp = s.otp := rfl
@[simp] theorem State.mapGeo_guard (s : State) (f : Geode → Geode) : (s.mapGeo f).guard = s.guard := rfl
@[simp] theorem State.mapGeo_mgmt (s : State) (f : Geode → Geode) : (s.mapGeo f).mgmt = s.mgmt := rfl
@[simp] theorem State.mapGeo_dac (s : State) (f : Geode → Geode) : (s.mapGeo f).dac = s.dac := rfl
@[simp] theorem State.mapGeo_fuse (s : State) (f : Geode → Geode) : (s.mapGeo f).fuse = s.fuse := rfl
@[simp] theorem State.mapGeo_rep (s : State) (f : Geode → Geode) : (s.mapGeo f).rep = s.rep := rfl
@[simp] theorem State.mapGeo_boot (s : State) (f : Geode → Geode) : (s.mapGeo f).boot = s.boot := rfl
@[simp] theorem State.mapGeo_hreg (s : State) (f : Geode → Geode) : (s.mapGeo f).hreg = s.hreg := rfl
@[simp] theorem State.mapGeo_hif (s : State) (f : Geode → Geode) : (s.mapGeo f).hif = s.hif := rfl
@[simp] theorem State.mapGeo_fl (s : State) (f : Geode → Geode) : (s.mapGeo f).fl = s.fl := rfl
@[simp] theorem State.mapGeo_lanes (s : State) (f : Geode → Geode) : (s.mapGeo f).lanes = s.lanes := rfl
@[simp] theorem State.mapGeo_cages (s : State) (f : Geode → Geode) : (s.mapGeo f).cages = s.cages := rfl
@[simp] theorem State.mapGeo_ports (s : State) (f : Geode → Geode) : (s.mapGeo f).ports = s.ports := rfl
@[simp] theorem State.mapGeo_retn (s : State) (f : Geode → Geode) : (s.mapGeo f).retn = s.retn := rfl
@[simp] theorem State.mapGeo_gar (s : State) (f : Geode → Geode) : (s.mapGeo f).gar = s.gar := rfl
@[simp] theorem State.mapGeo_buf (s : State) (f : Geode → Geode) : (s.mapGeo f).buf = s.buf := rfl
@[simp] theorem State.mapGeo_sched (s : State) (f : Geode → Geode) : (s.mapGeo f).sched = s.sched := rfl
@[simp] theorem State.mapGeo_tbl (s : State) (f : Geode → Geode) : (s.mapGeo f).tbl = s.tbl := rfl
@[simp] theorem State.mapGeo_mem (s : State) (f : Geode → Geode) : (s.mapGeo f).mem = s.mem := rfl
@[simp] theorem State.mapGeo_obs (s : State) (f : Geode → Geode) : (s.mapGeo f).obs = s.obs := rfl
@[simp] theorem State.mapGeo_tim (s : State) (f : Geode → Geode) : (s.mapGeo f).tim = s.tim := rfl
@[simp] theorem State.mapGeo_geo (s : State) (f : Geode → Geode) : (s.mapGeo f).geo = f s.geo := rfl
@[simp] theorem State.mapGeo_adc (s : State) (f : Geode → Geode) : (s.mapGeo f).adc = s.adc := rfl
@[simp] theorem State.mapAdc_pending (s : State) (f : Adc → Adc) : (s.mapAdc f).pending = s.pending := rfl
@[simp] theorem State.mapAdc_now (s : State) (f : Adc → Adc) : (s.mapAdc f).now = s.now := rfl
@[simp] theorem State.mapAdc_free (s : State) (f : Adc → Adc) : (s.mapAdc f).free = s.free := rfl
@[simp] theorem State.mapAdc_hostLog (s : State) (f : Adc → Adc) : (s.mapAdc f).hostLog = s.hostLog := rfl
@[simp] theorem State.mapAdc_elog (s : State) (f : Adc → Adc) : (s.mapAdc f).elog = s.elog := rfl
@[simp] theorem State.mapAdc_bed (s : State) (f : Adc → Adc) : (s.mapAdc f).bed = s.bed := rfl
@[simp] theorem State.mapAdc_health (s : State) (f : Adc → Adc) : (s.mapAdc f).health = s.health := rfl
@[simp] theorem State.mapAdc_otp (s : State) (f : Adc → Adc) : (s.mapAdc f).otp = s.otp := rfl
@[simp] theorem State.mapAdc_guard (s : State) (f : Adc → Adc) : (s.mapAdc f).guard = s.guard := rfl
@[simp] theorem State.mapAdc_mgmt (s : State) (f : Adc → Adc) : (s.mapAdc f).mgmt = s.mgmt := rfl
@[simp] theorem State.mapAdc_dac (s : State) (f : Adc → Adc) : (s.mapAdc f).dac = s.dac := rfl
@[simp] theorem State.mapAdc_fuse (s : State) (f : Adc → Adc) : (s.mapAdc f).fuse = s.fuse := rfl
@[simp] theorem State.mapAdc_rep (s : State) (f : Adc → Adc) : (s.mapAdc f).rep = s.rep := rfl
@[simp] theorem State.mapAdc_boot (s : State) (f : Adc → Adc) : (s.mapAdc f).boot = s.boot := rfl
@[simp] theorem State.mapAdc_hreg (s : State) (f : Adc → Adc) : (s.mapAdc f).hreg = s.hreg := rfl
@[simp] theorem State.mapAdc_hif (s : State) (f : Adc → Adc) : (s.mapAdc f).hif = s.hif := rfl
@[simp] theorem State.mapAdc_fl (s : State) (f : Adc → Adc) : (s.mapAdc f).fl = s.fl := rfl
@[simp] theorem State.mapAdc_lanes (s : State) (f : Adc → Adc) : (s.mapAdc f).lanes = s.lanes := rfl
@[simp] theorem State.mapAdc_cages (s : State) (f : Adc → Adc) : (s.mapAdc f).cages = s.cages := rfl
@[simp] theorem State.mapAdc_ports (s : State) (f : Adc → Adc) : (s.mapAdc f).ports = s.ports := rfl
@[simp] theorem State.mapAdc_retn (s : State) (f : Adc → Adc) : (s.mapAdc f).retn = s.retn := rfl
@[simp] theorem State.mapAdc_gar (s : State) (f : Adc → Adc) : (s.mapAdc f).gar = s.gar := rfl
@[simp] theorem State.mapAdc_buf (s : State) (f : Adc → Adc) : (s.mapAdc f).buf = s.buf := rfl
@[simp] theorem State.mapAdc_sched (s : State) (f : Adc → Adc) : (s.mapAdc f).sched = s.sched := rfl
@[simp] theorem State.mapAdc_tbl (s : State) (f : Adc → Adc) : (s.mapAdc f).tbl = s.tbl := rfl
@[simp] theorem State.mapAdc_mem (s : State) (f : Adc → Adc) : (s.mapAdc f).mem = s.mem := rfl
@[simp] theorem State.mapAdc_obs (s : State) (f : Adc → Adc) : (s.mapAdc f).obs = s.obs := rfl
@[simp] theorem State.mapAdc_tim (s : State) (f : Adc → Adc) : (s.mapAdc f).tim = s.tim := rfl
@[simp] theorem State.mapAdc_geo (s : State) (f : Adc → Adc) : (s.mapAdc f).geo = s.geo := rfl
@[simp] theorem State.mapAdc_adc (s : State) (f : Adc → Adc) : (s.mapAdc f).adc = f s.adc := rfl

end Sys2Proof.Machine
end

