-- ==== Sys2Proof/Laws/Completion.lean ====
section
/-! SUPPORT. What the operations of Machine/Ops.lean keep: posting an event, completing a command, ending proposals, and changing a
health cause. Each group has one lemma for each operation that says all it keeps, and the projections that simp uses. -/
namespace Sys2Proof.Machine

/-- The value of a map after a value is put in it. -/
theorem mfind_mput {α : Type} (m : Map α) (k j : Nat) (v : α) : mfind (mput m k v) j = if j = k then some v else mfind m j := by
  induction m with
  | nil => simp [mput, mfind]
  | cons p r ih =>
    obtain ⟨i, w⟩ := p
    unfold mput
    split
    · simp [mfind]
    · split
      · subst k; simp only [mfind]; split <;> simp_all
      · simp only [mfind, ih]; split <;> split <;> simp_all

/-- `t` differs from `s` only in host memory, the rings, EVQ, MSI-X, HIF_ERR_STATUS, and the events and completions held. -/
structure PostKeeps (s t : State) : Prop where
  /-- Kept. -/
  pending : t.pending = s.pending
  /-- Kept. -/
  now : t.now = s.now
  /-- Kept. -/
  free : t.free = s.free
  /-- Kept. -/
  elog : t.elog = s.elog
  /-- Kept. -/
  bed : t.bed = s.bed
  /-- Kept. -/
  health : t.health = s.health
  /-- Kept. -/
  otp : t.otp = s.otp
  /-- Kept. -/
  guard : t.guard = s.guard
  /-- Kept. -/
  mgmt : t.mgmt = s.mgmt
  /-- Kept. -/
  dac : t.dac = s.dac
  /-- Kept. -/
  fuse : t.fuse = s.fuse
  /-- Kept. -/
  rep : t.rep = s.rep
  /-- Kept. -/
  boot : t.boot = s.boot
  /-- Kept. -/
  lanes : t.lanes = s.lanes
  /-- Kept. -/
  cages : t.cages = s.cages
  /-- Kept. -/
  ports : t.ports = s.ports
  /-- Kept. -/
  retn : t.retn = s.retn
  /-- Kept. -/
  gar : t.gar = s.gar
  /-- Kept. -/
  buf : t.buf = s.buf
  /-- Kept. -/
  sched : t.sched = s.sched
  /-- Kept. -/
  tbl : t.tbl = s.tbl
  /-- Kept. -/
  mem : t.mem = s.mem
  /-- Kept. -/
  obs : t.obs = s.obs
  /-- Kept. -/
  tim : t.tim = s.tim
  /-- Kept. -/
  geo : t.geo = s.geo
  /-- Kept. -/
  adc : t.adc = s.adc
  /-- Kept. -/
  cmds : t.fl.cmds = s.fl.cmds
  /-- Kept. -/
  nextId : t.fl.nextId = s.fl.nextId
  /-- Only HIF_ERR_STATUS changes. -/
  hreg : t.hreg = { s.hreg with err := t.hreg.err }

theorem PostKeeps.refl (s : State) : PostKeeps s s := ⟨rfl, rfl, rfl, rfl, rfl, rfl, rfl, rfl, rfl, rfl, rfl, rfl, rfl, rfl, rfl, rfl, rfl, rfl, rfl, rfl, rfl, rfl, rfl, rfl, rfl, rfl, rfl, rfl, rfl⟩

theorem PostKeeps.trans {s t u : State} (h : PostKeeps s t) (k : PostKeeps t u) : PostKeeps s u :=
  ⟨k.pending.trans h.pending, k.now.trans h.now, k.free.trans h.free, k.elog.trans h.elog, k.bed.trans h.bed, k.health.trans h.health, k.otp.trans h.otp, k.guard.trans h.guard, k.mgmt.trans h.mgmt, k.dac.trans h.dac, k.fuse.trans h.fuse, k.rep.trans h.rep, k.boot.trans h.boot, k.lanes.trans h.lanes, k.cages.trans h.cages, k.ports.trans h.ports, k.retn.trans h.retn, k.gar.trans h.gar, k.buf.trans h.buf, k.sched.trans h.sched, k.tbl.trans h.tbl, k.mem.trans h.mem, k.obs.trans h.obs, k.tim.trans h.tim, k.geo.trans h.geo, k.adc.trans h.adc, k.cmds.trans h.cmds, k.nextId.trans h.nextId, by rw [k.hreg, h.hreg]⟩

theorem setHifErr_keeps (b : BitVec 7) (s : State) : PostKeeps s (setHifErr b s) := ⟨rfl, rfl, rfl, rfl, rfl, rfl, rfl, rfl, rfl, rfl, rfl, rfl, rfl, rfl, rfl, rfl, rfl, rfl, rfl, rfl, rfl, rfl, rfl, rfl, rfl, rfl, rfl, rfl, rfl⟩

theorem hostWrite_keeps (a : Nat) (b : List Byte) (s : State) : PostKeeps s (hostWrite a b s) := ⟨rfl, rfl, rfl, rfl, rfl, rfl, rfl, rfl, rfl, rfl, rfl, rfl, rfl, rfl, rfl, rfl, rfl, rfl, rfl, rfl, rfl, rfl, rfl, rfl, rfl, rfl, rfl, rfl, rfl⟩

theorem mapHif_keeps (f : Hif → Hif) (s : State) : PostKeeps s (s.mapHif f) := ⟨rfl, rfl, rfl, rfl, rfl, rfl, rfl, rfl, rfl, rfl, rfl, rfl, rfl, rfl, rfl, rfl, rfl, rfl, rfl, rfl, rfl, rfl, rfl, rfl, rfl, rfl, rfl, rfl, rfl⟩

theorem msixFire_keeps (v : Nat) (s : State) : PostKeeps s (msixFire v s) := by
  unfold msixFire; dsimp only; split
  · exact .refl _
  · split
    · exact mapHif_keeps _ _
    · exact (hostWrite_keeps _ _ _).trans (mapHif_keeps _ _)

theorem msixCount_keeps (v c n : Nat) (s : State) : PostKeeps s (msixCount v c n s) := by
  unfold msixCount; split
  · exact msixFire_keeps _ _
  · exact .refl _

theorem evqWrite_keeps (e : Event) (s : State) : PostKeeps s (evqWrite e s) :=
  ((hostWrite_keeps _ _ _).trans (mapHif_keeps _ _)).trans (msixCount_keeps _ _ _ _)

theorem evqDrain_keeps (l : List Event) (s : State) : PostKeeps s (evqDrain l s).2 := by
  induction l generalizing s with
  | nil => exact .refl _
  | cons e r ih =>
    unfold evqDrain; split
    · exact (evqWrite_keeps _ _).trans (ih _)
    · exact .refl _

theorem mapFl_keeps (f : Flight → Flight) (s : State) (h : (f s.fl).cmds = s.fl.cmds) (k : (f s.fl).nextId = s.fl.nextId) :
    PostKeeps s (s.mapFl f) := ⟨rfl, rfl, rfl, rfl, rfl, rfl, rfl, rfl, rfl, rfl, rfl, rfl, rfl, rfl, rfl, rfl, rfl, rfl, rfl, rfl, rfl, rfl, rfl, rfl, rfl, rfl, h, k, rfl⟩

theorem loseEvent_keeps (s : State) : PostKeeps s (loseEvent s) := mapFl_keeps _ _ rfl rfl

theorem heldEv_keeps (l : List Event) (s : State) : PostKeeps s (s.mapFl fun f => { f with heldEv := l }) := mapFl_keeps _ s rfl rfl

theorem lost_keeps (n : Nat) (s : State) : PostKeeps s (s.mapFl fun f => { f with lost := n }) := mapFl_keeps _ s rfl rfl

theorem PostKeeps.ite {s a b : State} {c : Prop} [Decidable c] (h : PostKeeps s a) (k : PostKeeps s b) : PostKeeps s (if c then a else b) := by
  split <;> assumption

theorem deliverEvents_keeps (s : State) : PostKeeps s (deliverEvents s) := by
  have a : PostKeeps s ((evqDrain s.fl.heldEv s).2.mapFl fun f => { f with heldEv := (evqDrain s.fl.heldEv s).1 }) :=
    (evqDrain_keeps s.fl.heldEv s).trans (heldEv_keeps _ _)
  unfold deliverEvents
  refine .ite (.refl _) ?_
  exact PostKeeps.trans (.ite (a.trans (setHifErr_keeps _ _)) a) (.ite ((lost_keeps 0 _).trans (evqWrite_keeps _ _)) (.refl _))

theorem postEvent_keeps (e : Event) (s : State) : PostKeeps s (postEvent e s) := by
  unfold postEvent; split
  · exact .refl _
  · split
    · split
      · exact mapFl_keeps _ _ rfl rfl
      · exact loseEvent_keeps _
    · dsimp only; split
      · exact ((deliverEvents_keeps s).trans (setHifErr_keeps _ _)).trans (loseEvent_keeps _)
      · split
        · exact (deliverEvents_keeps s).trans (loseEvent_keeps _)
        · exact (deliverEvents_keeps s).trans (evqWrite_keeps _ _)

theorem post_keeps (c v o d : Nat) (s : State) : PostKeeps s (post c v o d s) := postEvent_keeps _ _

theorem ringError_keeps (r c : Nat) (s : State) : PostKeeps s (ringError r c s) := by
  unfold ringError; split
  · exact .refl _
  · split
    · exact .refl _
    · exact (mapHif_keeps _ _).trans (post_keeps _ _ _ _ _)

theorem writeCompletion_keeps (c : Completion) (s : State) : PostKeeps s (writeCompletion c s) := by
  unfold writeCompletion; split
  · exact mapFl_keeps _ _ rfl rfl
  · split
    · exact .refl _
    · dsimp only; split
      · exact ringError_keeps _ _ _
      · refine PostKeeps.trans ?_ (msixCount_keeps _ _ _ _)
        split
        · exact ((hostWrite_keeps _ _ _).trans (mapHif_keeps _ _)).trans (post_keeps _ _ _ _ _)
        · exact (hostWrite_keeps _ _ _).trans (mapHif_keeps _ _)

@[simp] theorem post_pending (c v o d : Nat) (s : State) : (post c v o d s).pending = s.pending := (post_keeps c v o d s).pending
@[simp] theorem post_now (c v o d : Nat) (s : State) : (post c v o d s).now = s.now := (post_keeps c v o d s).now
@[simp] theorem post_free (c v o d : Nat) (s : State) : (post c v o d s).free = s.free := (post_keeps c v o d s).free
@[simp] theorem post_elog (c v o d : Nat) (s : State) : (post c v o d s).elog = s.elog := (post_keeps c v o d s).elog
@[simp] theorem post_bed (c v o d : Nat) (s : State) : (post c v o d s).bed = s.bed := (post_keeps c v o d s).bed
@[simp] theorem post_health (c v o d : Nat) (s : State) : (post c v o d s).health = s.health := (post_keeps c v o d s).health
@[simp] theorem post_otp (c v o d : Nat) (s : State) : (post c v o d s).otp = s.otp := (post_keeps c v o d s).otp
@[simp] theorem post_guard (c v o d : Nat) (s : State) : (post c v o d s).guard = s.guard := (post_keeps c v o d s).guard
@[simp] theorem post_mgmt (c v o d : Nat) (s : State) : (post c v o d s).mgmt = s.mgmt := (post_keeps c v o d s).mgmt
@[simp] theorem post_dac (c v o d : Nat) (s : State) : (post c v o d s).dac = s.dac := (post_keeps c v o d s).dac
@[simp] theorem post_fuse (c v o d : Nat) (s : State) : (post c v o d s).fuse = s.fuse := (post_keeps c v o d s).fuse
@[simp] theorem post_rep (c v o d : Nat) (s : State) : (post c v o d s).rep = s.rep := (post_keeps c v o d s).rep
@[simp] theorem post_boot (c v o d : Nat) (s : State) : (post c v o d s).boot = s.boot := (post_keeps c v o d s).boot
@[simp] theorem post_lanes (c v o d : Nat) (s : State) : (post c v o d s).lanes = s.lanes := (post_keeps c v o d s).lanes
@[simp] theorem post_cages (c v o d : Nat) (s : State) : (post c v o d s).cages = s.cages := (post_keeps c v o d s).cages
@[simp] theorem post_ports (c v o d : Nat) (s : State) : (post c v o d s).ports = s.ports := (post_keeps c v o d s).ports
@[simp] theorem post_retn (c v o d : Nat) (s : State) : (post c v o d s).retn = s.retn := (post_keeps c v o d s).retn
@[simp] theorem post_gar (c v o d : Nat) (s : State) : (post c v o d s).gar = s.gar := (post_keeps c v o d s).gar
@[simp] theorem post_buf (c v o d : Nat) (s : State) : (post c v o d s).buf = s.buf := (post_keeps c v o d s).buf
@[simp] theorem post_sched (c v o d : Nat) (s : State) : (post c v o d s).sched = s.sched := (post_keeps c v o d s).sched
@[simp] theorem post_tbl (c v o d : Nat) (s : State) : (post c v o d s).tbl = s.tbl := (post_keeps c v o d s).tbl
@[simp] theorem post_mem (c v o d : Nat) (s : State) : (post c v o d s).mem = s.mem := (post_keeps c v o d s).mem
@[simp] theorem post_obs (c v o d : Nat) (s : State) : (post c v o d s).obs = s.obs := (post_keeps c v o d s).obs
@[simp] theorem post_tim (c v o d : Nat) (s : State) : (post c v o d s).tim = s.tim := (post_keeps c v o d s).tim
@[simp] theorem post_geo (c v o d : Nat) (s : State) : (post c v o d s).geo = s.geo := (post_keeps c v o d s).geo
@[simp] theorem post_adc (c v o d : Nat) (s : State) : (post c v o d s).adc = s.adc := (post_keeps c v o d s).adc
@[simp] theorem post_fl_cmds (c v o d : Nat) (s : State) : (post c v o d s).fl.cmds = s.fl.cmds := (post_keeps c v o d s).cmds
@[simp] theorem post_fl_nextId (c v o d : Nat) (s : State) : (post c v o d s).fl.nextId = s.fl.nextId := (post_keeps c v o d s).nextId

@[simp] theorem postEvent_pending (e : Event) (s : State) : (postEvent e s).pending = s.pending := (postEvent_keeps e s).pending
@[simp] theorem postEvent_now (e : Event) (s : State) : (postEvent e s).now = s.now := (postEvent_keeps e s).now
@[simp] theorem postEvent_free (e : Event) (s : State) : (postEvent e s).free = s.free := (postEvent_keeps e s).free
@[simp] theorem postEvent_elog (e : Event) (s : State) : (postEvent e s).elog = s.elog := (postEvent_keeps e s).elog
@[simp] theorem postEvent_bed (e : Event) (s : State) : (postEvent e s).bed = s.bed := (postEvent_keeps e s).bed
@[simp] theorem postEvent_health (e : Event) (s : State) : (postEvent e s).health = s.health := (postEvent_keeps e s).health
@[simp] theorem postEvent_otp (e : Event) (s : State) : (postEvent e s).otp = s.otp := (postEvent_keeps e s).otp
@[simp] theorem postEvent_guard (e : Event) (s : State) : (postEvent e s).guard = s.guard := (postEvent_keeps e s).guard
@[simp] theorem postEvent_mgmt (e : Event) (s : State) : (postEvent e s).mgmt = s.mgmt := (postEvent_keeps e s).mgmt
@[simp] theorem postEvent_dac (e : Event) (s : State) : (postEvent e s).dac = s.dac := (postEvent_keeps e s).dac
@[simp] theorem postEvent_fuse (e : Event) (s : State) : (postEvent e s).fuse = s.fuse := (postEvent_keeps e s).fuse
@[simp] theorem postEvent_rep (e : Event) (s : State) : (postEvent e s).rep = s.rep := (postEvent_keeps e s).rep
@[simp] theorem postEvent_boot (e : Event) (s : State) : (postEvent e s).boot = s.boot := (postEvent_keeps e s).boot
@[simp] theorem postEvent_lanes (e : Event) (s : State) : (postEvent e s).lanes = s.lanes := (postEvent_keeps e s).lanes
@[simp] theorem postEvent_cages (e : Event) (s : State) : (postEvent e s).cages = s.cages := (postEvent_keeps e s).cages
@[simp] theorem postEvent_ports (e : Event) (s : State) : (postEvent e s).ports = s.ports := (postEvent_keeps e s).ports
@[simp] theorem postEvent_retn (e : Event) (s : State) : (postEvent e s).retn = s.retn := (postEvent_keeps e s).retn
@[simp] theorem postEvent_gar (e : Event) (s : State) : (postEvent e s).gar = s.gar := (postEvent_keeps e s).gar
@[simp] theorem postEvent_buf (e : Event) (s : State) : (postEvent e s).buf = s.buf := (postEvent_keeps e s).buf
@[simp] theorem postEvent_sched (e : Event) (s : State) : (postEvent e s).sched = s.sched := (postEvent_keeps e s).sched
@[simp] theorem postEvent_tbl (e : Event) (s : State) : (postEvent e s).tbl = s.tbl := (postEvent_keeps e s).tbl
@[simp] theorem postEvent_mem (e : Event) (s : State) : (postEvent e s).mem = s.mem := (postEvent_keeps e s).mem
@[simp] theorem postEvent_obs (e : Event) (s : State) : (postEvent e s).obs = s.obs := (postEvent_keeps e s).obs
@[simp] theorem postEvent_tim (e : Event) (s : State) : (postEvent e s).tim = s.tim := (postEvent_keeps e s).tim
@[simp] theorem postEvent_geo (e : Event) (s : State) : (postEvent e s).geo = s.geo := (postEvent_keeps e s).geo
@[simp] theorem postEvent_adc (e : Event) (s : State) : (postEvent e s).adc = s.adc := (postEvent_keeps e s).adc
@[simp] theorem postEvent_fl_cmds (e : Event) (s : State) : (postEvent e s).fl.cmds = s.fl.cmds := (postEvent_keeps e s).cmds
@[simp] theorem postEvent_fl_nextId (e : Event) (s : State) : (postEvent e s).fl.nextId = s.fl.nextId := (postEvent_keeps e s).nextId

@[simp] theorem deliverEvents_pending (s : State) : (deliverEvents s).pending = s.pending := (deliverEvents_keeps s).pending
@[simp] theorem deliverEvents_now (s : State) : (deliverEvents s).now = s.now := (deliverEvents_keeps s).now
@[simp] theorem deliverEvents_free (s : State) : (deliverEvents s).free = s.free := (deliverEvents_keeps s).free
@[simp] theorem deliverEvents_elog (s : State) : (deliverEvents s).elog = s.elog := (deliverEvents_keeps s).elog
@[simp] theorem deliverEvents_bed (s : State) : (deliverEvents s).bed = s.bed := (deliverEvents_keeps s).bed
@[simp] theorem deliverEvents_health (s : State) : (deliverEvents s).health = s.health := (deliverEvents_keeps s).health
@[simp] theorem deliverEvents_otp (s : State) : (deliverEvents s).otp = s.otp := (deliverEvents_keeps s).otp
@[simp] theorem deliverEvents_guard (s : State) : (deliverEvents s).guard = s.guard := (deliverEvents_keeps s).guard
@[simp] theorem deliverEvents_mgmt (s : State) : (deliverEvents s).mgmt = s.mgmt := (deliverEvents_keeps s).mgmt
@[simp] theorem deliverEvents_dac (s : State) : (deliverEvents s).dac = s.dac := (deliverEvents_keeps s).dac
@[simp] theorem deliverEvents_fuse (s : State) : (deliverEvents s).fuse = s.fuse := (deliverEvents_keeps s).fuse
@[simp] theorem deliverEvents_rep (s : State) : (deliverEvents s).rep = s.rep := (deliverEvents_keeps s).rep
@[simp] theorem deliverEvents_boot (s : State) : (deliverEvents s).boot = s.boot := (deliverEvents_keeps s).boot
@[simp] theorem deliverEvents_lanes (s : State) : (deliverEvents s).lanes = s.lanes := (deliverEvents_keeps s).lanes
@[simp] theorem deliverEvents_cages (s : State) : (deliverEvents s).cages = s.cages := (deliverEvents_keeps s).cages
@[simp] theorem deliverEvents_ports (s : State) : (deliverEvents s).ports = s.ports := (deliverEvents_keeps s).ports
@[simp] theorem deliverEvents_retn (s : State) : (deliverEvents s).retn = s.retn := (deliverEvents_keeps s).retn
@[simp] theorem deliverEvents_gar (s : State) : (deliverEvents s).gar = s.gar := (deliverEvents_keeps s).gar
@[simp] theorem deliverEvents_buf (s : State) : (deliverEvents s).buf = s.buf := (deliverEvents_keeps s).buf
@[simp] theorem deliverEvents_sched (s : State) : (deliverEvents s).sched = s.sched := (deliverEvents_keeps s).sched
@[simp] theorem deliverEvents_tbl (s : State) : (deliverEvents s).tbl = s.tbl := (deliverEvents_keeps s).tbl
@[simp] theorem deliverEvents_mem (s : State) : (deliverEvents s).mem = s.mem := (deliverEvents_keeps s).mem
@[simp] theorem deliverEvents_obs (s : State) : (deliverEvents s).obs = s.obs := (deliverEvents_keeps s).obs
@[simp] theorem deliverEvents_tim (s : State) : (deliverEvents s).tim = s.tim := (deliverEvents_keeps s).tim
@[simp] theorem deliverEvents_geo (s : State) : (deliverEvents s).geo = s.geo := (deliverEvents_keeps s).geo
@[simp] theorem deliverEvents_adc (s : State) : (deliverEvents s).adc = s.adc := (deliverEvents_keeps s).adc
@[simp] theorem deliverEvents_fl_cmds (s : State) : (deliverEvents s).fl.cmds = s.fl.cmds := (deliverEvents_keeps s).cmds
@[simp] theorem deliverEvents_fl_nextId (s : State) : (deliverEvents s).fl.nextId = s.fl.nextId := (deliverEvents_keeps s).nextId

@[simp] theorem writeCompletion_pending (c : Completion) (s : State) : (writeCompletion c s).pending = s.pending := (writeCompletion_keeps c s).pending
@[simp] theorem writeCompletion_now (c : Completion) (s : State) : (writeCompletion c s).now = s.now := (writeCompletion_keeps c s).now
@[simp] theorem writeCompletion_free (c : Completion) (s : State) : (writeCompletion c s).free = s.free := (writeCompletion_keeps c s).free
@[simp] theorem writeCompletion_elog (c : Completion) (s : State) : (writeCompletion c s).elog = s.elog := (writeCompletion_keeps c s).elog
@[simp] theorem writeCompletion_bed (c : Completion) (s : State) : (writeCompletion c s).bed = s.bed := (writeCompletion_keeps c s).bed
@[simp] theorem writeCompletion_health (c : Completion) (s : State) : (writeCompletion c s).health = s.health := (writeCompletion_keeps c s).health
@[simp] theorem writeCompletion_otp (c : Completion) (s : State) : (writeCompletion c s).otp = s.otp := (writeCompletion_keeps c s).otp
@[simp] theorem writeCompletion_guard (c : Completion) (s : State) : (writeCompletion c s).guard = s.guard := (writeCompletion_keeps c s).guard
@[simp] theorem writeCompletion_mgmt (c : Completion) (s : State) : (writeCompletion c s).mgmt = s.mgmt := (writeCompletion_keeps c s).mgmt
@[simp] theorem writeCompletion_dac (c : Completion) (s : State) : (writeCompletion c s).dac = s.dac := (writeCompletion_keeps c s).dac
@[simp] theorem writeCompletion_fuse (c : Completion) (s : State) : (writeCompletion c s).fuse = s.fuse := (writeCompletion_keeps c s).fuse
@[simp] theorem writeCompletion_rep (c : Completion) (s : State) : (writeCompletion c s).rep = s.rep := (writeCompletion_keeps c s).rep
@[simp] theorem writeCompletion_boot (c : Completion) (s : State) : (writeCompletion c s).boot = s.boot := (writeCompletion_keeps c s).boot
@[simp] theorem writeCompletion_lanes (c : Completion) (s : State) : (writeCompletion c s).lanes = s.lanes := (writeCompletion_keeps c s).lanes
@[simp] theorem writeCompletion_cages (c : Completion) (s : State) : (writeCompletion c s).cages = s.cages := (writeCompletion_keeps c s).cages
@[simp] theorem writeCompletion_ports (c : Completion) (s : State) : (writeCompletion c s).ports = s.ports := (writeCompletion_keeps c s).ports
@[simp] theorem writeCompletion_retn (c : Completion) (s : State) : (writeCompletion c s).retn = s.retn := (writeCompletion_keeps c s).retn
@[simp] theorem writeCompletion_gar (c : Completion) (s : State) : (writeCompletion c s).gar = s.gar := (writeCompletion_keeps c s).gar
@[simp] theorem writeCompletion_buf (c : Completion) (s : State) : (writeCompletion c s).buf = s.buf := (writeCompletion_keeps c s).buf
@[simp] theorem writeCompletion_sched (c : Completion) (s : State) : (writeCompletion c s).sched = s.sched := (writeCompletion_keeps c s).sched
@[simp] theorem writeCompletion_tbl (c : Completion) (s : State) : (writeCompletion c s).tbl = s.tbl := (writeCompletion_keeps c s).tbl
@[simp] theorem writeCompletion_mem (c : Completion) (s : State) : (writeCompletion c s).mem = s.mem := (writeCompletion_keeps c s).mem
@[simp] theorem writeCompletion_obs (c : Completion) (s : State) : (writeCompletion c s).obs = s.obs := (writeCompletion_keeps c s).obs
@[simp] theorem writeCompletion_tim (c : Completion) (s : State) : (writeCompletion c s).tim = s.tim := (writeCompletion_keeps c s).tim
@[simp] theorem writeCompletion_geo (c : Completion) (s : State) : (writeCompletion c s).geo = s.geo := (writeCompletion_keeps c s).geo
@[simp] theorem writeCompletion_adc (c : Completion) (s : State) : (writeCompletion c s).adc = s.adc := (writeCompletion_keeps c s).adc
@[simp] theorem writeCompletion_fl_cmds (c : Completion) (s : State) : (writeCompletion c s).fl.cmds = s.fl.cmds := (writeCompletion_keeps c s).cmds
@[simp] theorem writeCompletion_fl_nextId (c : Completion) (s : State) : (writeCompletion c s).fl.nextId = s.fl.nextId := (writeCompletion_keeps c s).nextId

@[simp] theorem hostWrite_pending (a : Nat) (b : List Byte) (s : State) : (hostWrite a b s).pending = s.pending := (hostWrite_keeps a b s).pending
@[simp] theorem hostWrite_now (a : Nat) (b : List Byte) (s : State) : (hostWrite a b s).now = s.now := (hostWrite_keeps a b s).now
@[simp] theorem hostWrite_free (a : Nat) (b : List Byte) (s : State) : (hostWrite a b s).free = s.free := (hostWrite_keeps a b s).free
@[simp] theorem hostWrite_elog (a : Nat) (b : List Byte) (s : State) : (hostWrite a b s).elog = s.elog := (hostWrite_keeps a b s).elog
@[simp] theorem hostWrite_bed (a : Nat) (b : List Byte) (s : State) : (hostWrite a b s).bed = s.bed := (hostWrite_keeps a b s).bed
@[simp] theorem hostWrite_health (a : Nat) (b : List Byte) (s : State) : (hostWrite a b s).health = s.health := (hostWrite_keeps a b s).health
@[simp] theorem hostWrite_otp (a : Nat) (b : List Byte) (s : State) : (hostWrite a b s).otp = s.otp := (hostWrite_keeps a b s).otp
@[simp] theorem hostWrite_guard (a : Nat) (b : List Byte) (s : State) : (hostWrite a b s).guard = s.guard := (hostWrite_keeps a b s).guard
@[simp] theorem hostWrite_mgmt (a : Nat) (b : List Byte) (s : State) : (hostWrite a b s).mgmt = s.mgmt := (hostWrite_keeps a b s).mgmt
@[simp] theorem hostWrite_dac (a : Nat) (b : List Byte) (s : State) : (hostWrite a b s).dac = s.dac := (hostWrite_keeps a b s).dac
@[simp] theorem hostWrite_fuse (a : Nat) (b : List Byte) (s : State) : (hostWrite a b s).fuse = s.fuse := (hostWrite_keeps a b s).fuse
@[simp] theorem hostWrite_rep (a : Nat) (b : List Byte) (s : State) : (hostWrite a b s).rep = s.rep := (hostWrite_keeps a b s).rep
@[simp] theorem hostWrite_boot (a : Nat) (b : List Byte) (s : State) : (hostWrite a b s).boot = s.boot := (hostWrite_keeps a b s).boot
@[simp] theorem hostWrite_lanes (a : Nat) (b : List Byte) (s : State) : (hostWrite a b s).lanes = s.lanes := (hostWrite_keeps a b s).lanes
@[simp] theorem hostWrite_cages (a : Nat) (b : List Byte) (s : State) : (hostWrite a b s).cages = s.cages := (hostWrite_keeps a b s).cages
@[simp] theorem hostWrite_ports (a : Nat) (b : List Byte) (s : State) : (hostWrite a b s).ports = s.ports := (hostWrite_keeps a b s).ports
@[simp] theorem hostWrite_retn (a : Nat) (b : List Byte) (s : State) : (hostWrite a b s).retn = s.retn := (hostWrite_keeps a b s).retn
@[simp] theorem hostWrite_gar (a : Nat) (b : List Byte) (s : State) : (hostWrite a b s).gar = s.gar := (hostWrite_keeps a b s).gar
@[simp] theorem hostWrite_buf (a : Nat) (b : List Byte) (s : State) : (hostWrite a b s).buf = s.buf := (hostWrite_keeps a b s).buf
@[simp] theorem hostWrite_sched (a : Nat) (b : List Byte) (s : State) : (hostWrite a b s).sched = s.sched := (hostWrite_keeps a b s).sched
@[simp] theorem hostWrite_tbl (a : Nat) (b : List Byte) (s : State) : (hostWrite a b s).tbl = s.tbl := (hostWrite_keeps a b s).tbl
@[simp] theorem hostWrite_mem (a : Nat) (b : List Byte) (s : State) : (hostWrite a b s).mem = s.mem := (hostWrite_keeps a b s).mem
@[simp] theorem hostWrite_obs (a : Nat) (b : List Byte) (s : State) : (hostWrite a b s).obs = s.obs := (hostWrite_keeps a b s).obs
@[simp] theorem hostWrite_tim (a : Nat) (b : List Byte) (s : State) : (hostWrite a b s).tim = s.tim := (hostWrite_keeps a b s).tim
@[simp] theorem hostWrite_geo (a : Nat) (b : List Byte) (s : State) : (hostWrite a b s).geo = s.geo := (hostWrite_keeps a b s).geo
@[simp] theorem hostWrite_adc (a : Nat) (b : List Byte) (s : State) : (hostWrite a b s).adc = s.adc := (hostWrite_keeps a b s).adc
@[simp] theorem hostWrite_fl_cmds (a : Nat) (b : List Byte) (s : State) : (hostWrite a b s).fl.cmds = s.fl.cmds := (hostWrite_keeps a b s).cmds
@[simp] theorem hostWrite_fl_nextId (a : Nat) (b : List Byte) (s : State) : (hostWrite a b s).fl.nextId = s.fl.nextId := (hostWrite_keeps a b s).nextId

@[simp] theorem ringError_pending (r c : Nat) (s : State) : (ringError r c s).pending = s.pending := (ringError_keeps r c s).pending
@[simp] theorem ringError_now (r c : Nat) (s : State) : (ringError r c s).now = s.now := (ringError_keeps r c s).now
@[simp] theorem ringError_free (r c : Nat) (s : State) : (ringError r c s).free = s.free := (ringError_keeps r c s).free
@[simp] theorem ringError_elog (r c : Nat) (s : State) : (ringError r c s).elog = s.elog := (ringError_keeps r c s).elog
@[simp] theorem ringError_bed (r c : Nat) (s : State) : (ringError r c s).bed = s.bed := (ringError_keeps r c s).bed
@[simp] theorem ringError_health (r c : Nat) (s : State) : (ringError r c s).health = s.health := (ringError_keeps r c s).health
@[simp] theorem ringError_otp (r c : Nat) (s : State) : (ringError r c s).otp = s.otp := (ringError_keeps r c s).otp
@[simp] theorem ringError_guard (r c : Nat) (s : State) : (ringError r c s).guard = s.guard := (ringError_keeps r c s).guard
@[simp] theorem ringError_mgmt (r c : Nat) (s : State) : (ringError r c s).mgmt = s.mgmt := (ringError_keeps r c s).mgmt
@[simp] theorem ringError_dac (r c : Nat) (s : State) : (ringError r c s).dac = s.dac := (ringError_keeps r c s).dac
@[simp] theorem ringError_fuse (r c : Nat) (s : State) : (ringError r c s).fuse = s.fuse := (ringError_keeps r c s).fuse
@[simp] theorem ringError_rep (r c : Nat) (s : State) : (ringError r c s).rep = s.rep := (ringError_keeps r c s).rep
@[simp] theorem ringError_boot (r c : Nat) (s : State) : (ringError r c s).boot = s.boot := (ringError_keeps r c s).boot
@[simp] theorem ringError_lanes (r c : Nat) (s : State) : (ringError r c s).lanes = s.lanes := (ringError_keeps r c s).lanes
@[simp] theorem ringError_cages (r c : Nat) (s : State) : (ringError r c s).cages = s.cages := (ringError_keeps r c s).cages
@[simp] theorem ringError_ports (r c : Nat) (s : State) : (ringError r c s).ports = s.ports := (ringError_keeps r c s).ports
@[simp] theorem ringError_retn (r c : Nat) (s : State) : (ringError r c s).retn = s.retn := (ringError_keeps r c s).retn
@[simp] theorem ringError_gar (r c : Nat) (s : State) : (ringError r c s).gar = s.gar := (ringError_keeps r c s).gar
@[simp] theorem ringError_buf (r c : Nat) (s : State) : (ringError r c s).buf = s.buf := (ringError_keeps r c s).buf
@[simp] theorem ringError_sched (r c : Nat) (s : State) : (ringError r c s).sched = s.sched := (ringError_keeps r c s).sched
@[simp] theorem ringError_tbl (r c : Nat) (s : State) : (ringError r c s).tbl = s.tbl := (ringError_keeps r c s).tbl
@[simp] theorem ringError_mem (r c : Nat) (s : State) : (ringError r c s).mem = s.mem := (ringError_keeps r c s).mem
@[simp] theorem ringError_obs (r c : Nat) (s : State) : (ringError r c s).obs = s.obs := (ringError_keeps r c s).obs
@[simp] theorem ringError_tim (r c : Nat) (s : State) : (ringError r c s).tim = s.tim := (ringError_keeps r c s).tim
@[simp] theorem ringError_geo (r c : Nat) (s : State) : (ringError r c s).geo = s.geo := (ringError_keeps r c s).geo
@[simp] theorem ringError_adc (r c : Nat) (s : State) : (ringError r c s).adc = s.adc := (ringError_keeps r c s).adc
@[simp] theorem ringError_fl_cmds (r c : Nat) (s : State) : (ringError r c s).fl.cmds = s.fl.cmds := (ringError_keeps r c s).cmds
@[simp] theorem ringError_fl_nextId (r c : Nat) (s : State) : (ringError r c s).fl.nextId = s.fl.nextId := (ringError_keeps r c s).nextId

@[simp] theorem msixFire_pending (v : Nat) (s : State) : (msixFire v s).pending = s.pending := (msixFire_keeps v s).pending
@[simp] theorem msixFire_now (v : Nat) (s : State) : (msixFire v s).now = s.now := (msixFire_keeps v s).now
@[simp] theorem msixFire_free (v : Nat) (s : State) : (msixFire v s).free = s.free := (msixFire_keeps v s).free
@[simp] theorem msixFire_elog (v : Nat) (s : State) : (msixFire v s).elog = s.elog := (msixFire_keeps v s).elog
@[simp] theorem msixFire_bed (v : Nat) (s : State) : (msixFire v s).bed = s.bed := (msixFire_keeps v s).bed
@[simp] theorem msixFire_health (v : Nat) (s : State) : (msixFire v s).health = s.health := (msixFire_keeps v s).health
@[simp] theorem msixFire_otp (v : Nat) (s : State) : (msixFire v s).otp = s.otp := (msixFire_keeps v s).otp
@[simp] theorem msixFire_guard (v : Nat) (s : State) : (msixFire v s).guard = s.guard := (msixFire_keeps v s).guard
@[simp] theorem msixFire_mgmt (v : Nat) (s : State) : (msixFire v s).mgmt = s.mgmt := (msixFire_keeps v s).mgmt
@[simp] theorem msixFire_dac (v : Nat) (s : State) : (msixFire v s).dac = s.dac := (msixFire_keeps v s).dac
@[simp] theorem msixFire_fuse (v : Nat) (s : State) : (msixFire v s).fuse = s.fuse := (msixFire_keeps v s).fuse
@[simp] theorem msixFire_rep (v : Nat) (s : State) : (msixFire v s).rep = s.rep := (msixFire_keeps v s).rep
@[simp] theorem msixFire_boot (v : Nat) (s : State) : (msixFire v s).boot = s.boot := (msixFire_keeps v s).boot
@[simp] theorem msixFire_lanes (v : Nat) (s : State) : (msixFire v s).lanes = s.lanes := (msixFire_keeps v s).lanes
@[simp] theorem msixFire_cages (v : Nat) (s : State) : (msixFire v s).cages = s.cages := (msixFire_keeps v s).cages
@[simp] theorem msixFire_ports (v : Nat) (s : State) : (msixFire v s).ports = s.ports := (msixFire_keeps v s).ports
@[simp] theorem msixFire_retn (v : Nat) (s : State) : (msixFire v s).retn = s.retn := (msixFire_keeps v s).retn
@[simp] theorem msixFire_gar (v : Nat) (s : State) : (msixFire v s).gar = s.gar := (msixFire_keeps v s).gar
@[simp] theorem msixFire_buf (v : Nat) (s : State) : (msixFire v s).buf = s.buf := (msixFire_keeps v s).buf
@[simp] theorem msixFire_sched (v : Nat) (s : State) : (msixFire v s).sched = s.sched := (msixFire_keeps v s).sched
@[simp] theorem msixFire_tbl (v : Nat) (s : State) : (msixFire v s).tbl = s.tbl := (msixFire_keeps v s).tbl
@[simp] theorem msixFire_mem (v : Nat) (s : State) : (msixFire v s).mem = s.mem := (msixFire_keeps v s).mem
@[simp] theorem msixFire_obs (v : Nat) (s : State) : (msixFire v s).obs = s.obs := (msixFire_keeps v s).obs
@[simp] theorem msixFire_tim (v : Nat) (s : State) : (msixFire v s).tim = s.tim := (msixFire_keeps v s).tim
@[simp] theorem msixFire_geo (v : Nat) (s : State) : (msixFire v s).geo = s.geo := (msixFire_keeps v s).geo
@[simp] theorem msixFire_adc (v : Nat) (s : State) : (msixFire v s).adc = s.adc := (msixFire_keeps v s).adc
@[simp] theorem msixFire_fl_cmds (v : Nat) (s : State) : (msixFire v s).fl.cmds = s.fl.cmds := (msixFire_keeps v s).cmds
@[simp] theorem msixFire_fl_nextId (v : Nat) (s : State) : (msixFire v s).fl.nextId = s.fl.nextId := (msixFire_keeps v s).nextId

@[simp] theorem msixCount_pending (v c n : Nat) (s : State) : (msixCount v c n s).pending = s.pending := (msixCount_keeps v c n s).pending
@[simp] theorem msixCount_now (v c n : Nat) (s : State) : (msixCount v c n s).now = s.now := (msixCount_keeps v c n s).now
@[simp] theorem msixCount_free (v c n : Nat) (s : State) : (msixCount v c n s).free = s.free := (msixCount_keeps v c n s).free
@[simp] theorem msixCount_elog (v c n : Nat) (s : State) : (msixCount v c n s).elog = s.elog := (msixCount_keeps v c n s).elog
@[simp] theorem msixCount_bed (v c n : Nat) (s : State) : (msixCount v c n s).bed = s.bed := (msixCount_keeps v c n s).bed
@[simp] theorem msixCount_health (v c n : Nat) (s : State) : (msixCount v c n s).health = s.health := (msixCount_keeps v c n s).health
@[simp] theorem msixCount_otp (v c n : Nat) (s : State) : (msixCount v c n s).otp = s.otp := (msixCount_keeps v c n s).otp
@[simp] theorem msixCount_guard (v c n : Nat) (s : State) : (msixCount v c n s).guard = s.guard := (msixCount_keeps v c n s).guard
@[simp] theorem msixCount_mgmt (v c n : Nat) (s : State) : (msixCount v c n s).mgmt = s.mgmt := (msixCount_keeps v c n s).mgmt
@[simp] theorem msixCount_dac (v c n : Nat) (s : State) : (msixCount v c n s).dac = s.dac := (msixCount_keeps v c n s).dac
@[simp] theorem msixCount_fuse (v c n : Nat) (s : State) : (msixCount v c n s).fuse = s.fuse := (msixCount_keeps v c n s).fuse
@[simp] theorem msixCount_rep (v c n : Nat) (s : State) : (msixCount v c n s).rep = s.rep := (msixCount_keeps v c n s).rep
@[simp] theorem msixCount_boot (v c n : Nat) (s : State) : (msixCount v c n s).boot = s.boot := (msixCount_keeps v c n s).boot
@[simp] theorem msixCount_lanes (v c n : Nat) (s : State) : (msixCount v c n s).lanes = s.lanes := (msixCount_keeps v c n s).lanes
@[simp] theorem msixCount_cages (v c n : Nat) (s : State) : (msixCount v c n s).cages = s.cages := (msixCount_keeps v c n s).cages
@[simp] theorem msixCount_ports (v c n : Nat) (s : State) : (msixCount v c n s).ports = s.ports := (msixCount_keeps v c n s).ports
@[simp] theorem msixCount_retn (v c n : Nat) (s : State) : (msixCount v c n s).retn = s.retn := (msixCount_keeps v c n s).retn
@[simp] theorem msixCount_gar (v c n : Nat) (s : State) : (msixCount v c n s).gar = s.gar := (msixCount_keeps v c n s).gar
@[simp] theorem msixCount_buf (v c n : Nat) (s : State) : (msixCount v c n s).buf = s.buf := (msixCount_keeps v c n s).buf
@[simp] theorem msixCount_sched (v c n : Nat) (s : State) : (msixCount v c n s).sched = s.sched := (msixCount_keeps v c n s).sched
@[simp] theorem msixCount_tbl (v c n : Nat) (s : State) : (msixCount v c n s).tbl = s.tbl := (msixCount_keeps v c n s).tbl
@[simp] theorem msixCount_mem (v c n : Nat) (s : State) : (msixCount v c n s).mem = s.mem := (msixCount_keeps v c n s).mem
@[simp] theorem msixCount_obs (v c n : Nat) (s : State) : (msixCount v c n s).obs = s.obs := (msixCount_keeps v c n s).obs
@[simp] theorem msixCount_tim (v c n : Nat) (s : State) : (msixCount v c n s).tim = s.tim := (msixCount_keeps v c n s).tim
@[simp] theorem msixCount_geo (v c n : Nat) (s : State) : (msixCount v c n s).geo = s.geo := (msixCount_keeps v c n s).geo
@[simp] theorem msixCount_adc (v c n : Nat) (s : State) : (msixCount v c n s).adc = s.adc := (msixCount_keeps v c n s).adc
@[simp] theorem msixCount_fl_cmds (v c n : Nat) (s : State) : (msixCount v c n s).fl.cmds = s.fl.cmds := (msixCount_keeps v c n s).cmds
@[simp] theorem msixCount_fl_nextId (v c n : Nat) (s : State) : (msixCount v c n s).fl.nextId = s.fl.nextId := (msixCount_keeps v c n s).nextId

@[simp] theorem setHifErr_pending (b : BitVec 7) (s : State) : (setHifErr b s).pending = s.pending := (setHifErr_keeps b s).pending
@[simp] theorem setHifErr_now (b : BitVec 7) (s : State) : (setHifErr b s).now = s.now := (setHifErr_keeps b s).now
@[simp] theorem setHifErr_free (b : BitVec 7) (s : State) : (setHifErr b s).free = s.free := (setHifErr_keeps b s).free
@[simp] theorem setHifErr_elog (b : BitVec 7) (s : State) : (setHifErr b s).elog = s.elog := (setHifErr_keeps b s).elog
@[simp] theorem setHifErr_bed (b : BitVec 7) (s : State) : (setHifErr b s).bed = s.bed := (setHifErr_keeps b s).bed
@[simp] theorem setHifErr_health (b : BitVec 7) (s : State) : (setHifErr b s).health = s.health := (setHifErr_keeps b s).health
@[simp] theorem setHifErr_otp (b : BitVec 7) (s : State) : (setHifErr b s).otp = s.otp := (setHifErr_keeps b s).otp
@[simp] theorem setHifErr_guard (b : BitVec 7) (s : State) : (setHifErr b s).guard = s.guard := (setHifErr_keeps b s).guard
@[simp] theorem setHifErr_mgmt (b : BitVec 7) (s : State) : (setHifErr b s).mgmt = s.mgmt := (setHifErr_keeps b s).mgmt
@[simp] theorem setHifErr_dac (b : BitVec 7) (s : State) : (setHifErr b s).dac = s.dac := (setHifErr_keeps b s).dac
@[simp] theorem setHifErr_fuse (b : BitVec 7) (s : State) : (setHifErr b s).fuse = s.fuse := (setHifErr_keeps b s).fuse
@[simp] theorem setHifErr_rep (b : BitVec 7) (s : State) : (setHifErr b s).rep = s.rep := (setHifErr_keeps b s).rep
@[simp] theorem setHifErr_boot (b : BitVec 7) (s : State) : (setHifErr b s).boot = s.boot := (setHifErr_keeps b s).boot
@[simp] theorem setHifErr_lanes (b : BitVec 7) (s : State) : (setHifErr b s).lanes = s.lanes := (setHifErr_keeps b s).lanes
@[simp] theorem setHifErr_cages (b : BitVec 7) (s : State) : (setHifErr b s).cages = s.cages := (setHifErr_keeps b s).cages
@[simp] theorem setHifErr_ports (b : BitVec 7) (s : State) : (setHifErr b s).ports = s.ports := (setHifErr_keeps b s).ports
@[simp] theorem setHifErr_retn (b : BitVec 7) (s : State) : (setHifErr b s).retn = s.retn := (setHifErr_keeps b s).retn
@[simp] theorem setHifErr_gar (b : BitVec 7) (s : State) : (setHifErr b s).gar = s.gar := (setHifErr_keeps b s).gar
@[simp] theorem setHifErr_buf (b : BitVec 7) (s : State) : (setHifErr b s).buf = s.buf := (setHifErr_keeps b s).buf
@[simp] theorem setHifErr_sched (b : BitVec 7) (s : State) : (setHifErr b s).sched = s.sched := (setHifErr_keeps b s).sched
@[simp] theorem setHifErr_tbl (b : BitVec 7) (s : State) : (setHifErr b s).tbl = s.tbl := (setHifErr_keeps b s).tbl
@[simp] theorem setHifErr_mem (b : BitVec 7) (s : State) : (setHifErr b s).mem = s.mem := (setHifErr_keeps b s).mem
@[simp] theorem setHifErr_obs (b : BitVec 7) (s : State) : (setHifErr b s).obs = s.obs := (setHifErr_keeps b s).obs
@[simp] theorem setHifErr_tim (b : BitVec 7) (s : State) : (setHifErr b s).tim = s.tim := (setHifErr_keeps b s).tim
@[simp] theorem setHifErr_geo (b : BitVec 7) (s : State) : (setHifErr b s).geo = s.geo := (setHifErr_keeps b s).geo
@[simp] theorem setHifErr_adc (b : BitVec 7) (s : State) : (setHifErr b s).adc = s.adc := (setHifErr_keeps b s).adc
@[simp] theorem setHifErr_fl_cmds (b : BitVec 7) (s : State) : (setHifErr b s).fl.cmds = s.fl.cmds := (setHifErr_keeps b s).cmds
@[simp] theorem setHifErr_fl_nextId (b : BitVec 7) (s : State) : (setHifErr b s).fl.nextId = s.fl.nextId := (setHifErr_keeps b s).nextId

@[simp] theorem writeBlock_pending (c : Cmd) (b : List Byte) (s : State) : (writeBlock c b s).pending = s.pending := (hostWrite_keeps c.indAddr b s).pending
@[simp] theorem writeBlock_now (c : Cmd) (b : List Byte) (s : State) : (writeBlock c b s).now = s.now := (hostWrite_keeps c.indAddr b s).now
@[simp] theorem writeBlock_free (c : Cmd) (b : List Byte) (s : State) : (writeBlock c b s).free = s.free := (hostWrite_keeps c.indAddr b s).free
@[simp] theorem writeBlock_elog (c : Cmd) (b : List Byte) (s : State) : (writeBlock c b s).elog = s.elog := (hostWrite_keeps c.indAddr b s).elog
@[simp] theorem writeBlock_bed (c : Cmd) (b : List Byte) (s : State) : (writeBlock c b s).bed = s.bed := (hostWrite_keeps c.indAddr b s).bed
@[simp] theorem writeBlock_health (c : Cmd) (b : List Byte) (s : State) : (writeBlock c b s).health = s.health := (hostWrite_keeps c.indAddr b s).health
@[simp] theorem writeBlock_otp (c : Cmd) (b : List Byte) (s : State) : (writeBlock c b s).otp = s.otp := (hostWrite_keeps c.indAddr b s).otp
@[simp] theorem writeBlock_guard (c : Cmd) (b : List Byte) (s : State) : (writeBlock c b s).guard = s.guard := (hostWrite_keeps c.indAddr b s).guard
@[simp] theorem writeBlock_mgmt (c : Cmd) (b : List Byte) (s : State) : (writeBlock c b s).mgmt = s.mgmt := (hostWrite_keeps c.indAddr b s).mgmt
@[simp] theorem writeBlock_dac (c : Cmd) (b : List Byte) (s : State) : (writeBlock c b s).dac = s.dac := (hostWrite_keeps c.indAddr b s).dac
@[simp] theorem writeBlock_fuse (c : Cmd) (b : List Byte) (s : State) : (writeBlock c b s).fuse = s.fuse := (hostWrite_keeps c.indAddr b s).fuse
@[simp] theorem writeBlock_rep (c : Cmd) (b : List Byte) (s : State) : (writeBlock c b s).rep = s.rep := (hostWrite_keeps c.indAddr b s).rep
@[simp] theorem writeBlock_boot (c : Cmd) (b : List Byte) (s : State) : (writeBlock c b s).boot = s.boot := (hostWrite_keeps c.indAddr b s).boot
@[simp] theorem writeBlock_lanes (c : Cmd) (b : List Byte) (s : State) : (writeBlock c b s).lanes = s.lanes := (hostWrite_keeps c.indAddr b s).lanes
@[simp] theorem writeBlock_cages (c : Cmd) (b : List Byte) (s : State) : (writeBlock c b s).cages = s.cages := (hostWrite_keeps c.indAddr b s).cages
@[simp] theorem writeBlock_ports (c : Cmd) (b : List Byte) (s : State) : (writeBlock c b s).ports = s.ports := (hostWrite_keeps c.indAddr b s).ports
@[simp] theorem writeBlock_retn (c : Cmd) (b : List Byte) (s : State) : (writeBlock c b s).retn = s.retn := (hostWrite_keeps c.indAddr b s).retn
@[simp] theorem writeBlock_gar (c : Cmd) (b : List Byte) (s : State) : (writeBlock c b s).gar = s.gar := (hostWrite_keeps c.indAddr b s).gar
@[simp] theorem writeBlock_buf (c : Cmd) (b : List Byte) (s : State) : (writeBlock c b s).buf = s.buf := (hostWrite_keeps c.indAddr b s).buf
@[simp] theorem writeBlock_sched (c : Cmd) (b : List Byte) (s : State) : (writeBlock c b s).sched = s.sched := (hostWrite_keeps c.indAddr b s).sched
@[simp] theorem writeBlock_tbl (c : Cmd) (b : List Byte) (s : State) : (writeBlock c b s).tbl = s.tbl := (hostWrite_keeps c.indAddr b s).tbl
@[simp] theorem writeBlock_mem (c : Cmd) (b : List Byte) (s : State) : (writeBlock c b s).mem = s.mem := (hostWrite_keeps c.indAddr b s).mem
@[simp] theorem writeBlock_obs (c : Cmd) (b : List Byte) (s : State) : (writeBlock c b s).obs = s.obs := (hostWrite_keeps c.indAddr b s).obs
@[simp] theorem writeBlock_tim (c : Cmd) (b : List Byte) (s : State) : (writeBlock c b s).tim = s.tim := (hostWrite_keeps c.indAddr b s).tim
@[simp] theorem writeBlock_geo (c : Cmd) (b : List Byte) (s : State) : (writeBlock c b s).geo = s.geo := (hostWrite_keeps c.indAddr b s).geo
@[simp] theorem writeBlock_adc (c : Cmd) (b : List Byte) (s : State) : (writeBlock c b s).adc = s.adc := (hostWrite_keeps c.indAddr b s).adc
@[simp] theorem writeBlock_fl_cmds (c : Cmd) (b : List Byte) (s : State) : (writeBlock c b s).fl.cmds = s.fl.cmds := (hostWrite_keeps c.indAddr b s).cmds
@[simp] theorem writeBlock_fl_nextId (c : Cmd) (b : List Byte) (s : State) : (writeBlock c b s).fl.nextId = s.fl.nextId := (hostWrite_keeps c.indAddr b s).nextId

/-- `t` differs from `s` only as `PostKeeps` allows, in the commands in flight, the profiling counters, and the mirror's records and the
Geode link that carries them. -/
structure DoneKeeps (s t : State) : Prop where
  /-- Kept. -/
  pending : t.pending = s.pending
  /-- Kept. -/
  now : t.now = s.now
  /-- Kept. -/
  free : t.free = s.free
  /-- Kept. -/
  elog : t.elog = s.elog
  /-- Kept. -/
  bed : t.bed = s.bed
  /-- Kept. -/
  health : t.health = s.health
  /-- Kept. -/
  otp : t.otp = s.otp
  /-- Kept. -/
  guard : t.guard = s.guard
  /-- Kept. -/
  mgmt : t.mgmt = s.mgmt
  /-- Kept. -/
  dac : t.dac = s.dac
  /-- Kept. -/
  fuse : t.fuse = s.fuse
  /-- Kept. -/
  rep : t.rep = s.rep
  /-- Kept. -/
  boot : t.boot = s.boot
  /-- Kept. -/
  lanes : t.lanes = s.lanes
  /-- Kept. -/
  cages : t.cages = s.cages
  /-- Kept. -/
  ports : t.ports = s.ports
  /-- Kept. -/
  retn : t.retn = s.retn
  /-- Kept. -/
  buf : t.buf = s.buf
  /-- Kept. -/
  sched : t.sched = s.sched
  /-- Kept. -/
  tbl : t.tbl = s.tbl
  /-- Kept. -/
  mem : t.mem = s.mem
  /-- Kept. -/
  tim : t.tim = s.tim
  /-- Kept. -/
  adc : t.adc = s.adc
  /-- Only the profiling counters change. -/
  obs : t.obs = { s.obs with prof := t.obs.prof }
  /-- Only the mirror's records change. -/
  geo : t.geo = { s.geo with hold := t.geo.hold, unacked := t.geo.unacked, seq := t.geo.seq }
  /-- Only links change. -/
  gar : t.gar = { s.gar with links := t.gar.links }
  /-- Only the Geode link changes. -/
  link : ∀ n, n ≠ 128 → mfind t.gar.links n = mfind s.gar.links n
  /-- Only HIF_ERR_STATUS changes. -/
  hreg : t.hreg = { s.hreg with err := t.hreg.err }

theorem DoneKeeps.refl (s : State) : DoneKeeps s s := ⟨rfl, rfl, rfl, rfl, rfl, rfl, rfl, rfl, rfl, rfl, rfl, rfl, rfl, rfl, rfl, rfl, rfl, rfl, rfl, rfl, rfl, rfl, rfl, rfl, rfl, rfl, fun _ _ => rfl, rfl⟩

theorem DoneKeeps.trans {s t u : State} (h : DoneKeeps s t) (k : DoneKeeps t u) : DoneKeeps s u :=
  ⟨k.pending.trans h.pending, k.now.trans h.now, k.free.trans h.free, k.elog.trans h.elog, k.bed.trans h.bed, k.health.trans h.health, k.otp.trans h.otp, k.guard.trans h.guard, k.mgmt.trans h.mgmt, k.dac.trans h.dac, k.fuse.trans h.fuse, k.rep.trans h.rep, k.boot.trans h.boot, k.lanes.trans h.lanes, k.cages.trans h.cages, k.ports.trans h.ports, k.retn.trans h.retn, k.buf.trans h.buf, k.sched.trans h.sched, k.tbl.trans h.tbl, k.mem.trans h.mem, k.tim.trans h.tim, k.adc.trans h.adc, by rw [k.obs, h.obs], by rw [k.geo, h.geo], by rw [k.gar, h.gar], fun n hn => (k.link n hn).trans (h.link n hn),
    by rw [k.hreg, h.hreg]⟩

theorem PostKeeps.done {s t : State} (h : PostKeeps s t) : DoneKeeps s t :=
  ⟨h.pending, h.now, h.free, h.elog, h.bed, h.health, h.otp, h.guard, h.mgmt, h.dac, h.fuse, h.rep, h.boot, h.lanes, h.cages, h.ports, h.retn, h.buf, h.sched, h.tbl, h.mem, h.tim, h.adc, by rw [h.obs], by rw [h.geo], by rw [h.gar], fun _ _ => by rw [h.gar], h.hreg⟩

theorem mapFl_done (f : Flight → Flight) (s : State) : DoneKeeps s (s.mapFl f) := ⟨rfl, rfl, rfl, rfl, rfl, rfl, rfl, rfl, rfl, rfl, rfl, rfl, rfl, rfl, rfl, rfl, rfl, rfl, rfl, rfl, rfl, rfl, rfl, rfl, rfl, rfl, fun _ _ => rfl, rfl⟩

theorem profEvent_done (e i n : Nat) (s : State) : DoneKeeps s (profEvent e i n s) := ⟨rfl, rfl, rfl, rfl, rfl, rfl, rfl, rfl, rfl, rfl, rfl, rfl, rfl, rfl, rfl, rfl, rfl, rfl, rfl, rfl, rfl, rfl, rfl, rfl, rfl, rfl, fun _ _ => rfl, rfl⟩


theorem geodePush_done (b : List Byte) (s : State) : DoneKeeps s (geodePush b s) :=
  ⟨rfl, rfl, rfl, rfl, rfl, rfl, rfl, rfl, rfl, rfl, rfl, rfl, rfl, rfl, rfl, rfl, rfl, rfl, rfl, rfl, rfl, rfl, rfl, rfl, rfl, rfl, fun n hn => by simp [geodePush, mmod, mfind_mput, hn], rfl⟩

theorem mapGeo_done (f : Geode → Geode) (s : State) (h : f s.geo = { s.geo with hold := (f s.geo).hold, unacked := (f s.geo).unacked, seq := (f s.geo).seq }) :
    DoneKeeps s (s.mapGeo f) := ⟨rfl, rfl, rfl, rfl, rfl, rfl, rfl, rfl, rfl, rfl, rfl, rfl, rfl, rfl, rfl, rfl, rfl, rfl, rfl, rfl, rfl, rfl, rfl, rfl, h, rfl, fun _ _ => rfl, rfl⟩

theorem mirrorDrain_done (n : Nat) (s : State) : DoneKeeps s (mirrorDrain n s) := by
  induction n generalizing s with
  | zero => exact .refl _
  | succ n ih =>
    unfold mirrorDrain; split
    · exact .refl _
    · split
      · exact .refl _
      · exact ((mapGeo_done _ s rfl).trans (geodePush_done _ _)).trans (ih _)

theorem mirrorPush_done (k m : Nat) (b : List Byte) (s : State) : DoneKeeps s (mirrorPush k m b s) :=
  (mapGeo_done _ s rfl).trans (mirrorDrain_done _ _)

theorem mirrorConfig_done (op tg : Nat) (a b : List Byte) (s : State) : DoneKeeps s (mirrorConfig op tg a b s) :=
  (mapGeo_done _ s rfl).trans (mirrorPush_done _ _ _ _)

theorem mirrorCmd_done (c : Cmd) (st : Status) (s : State) : DoneKeeps s (mirrorCmd c st s) := by
  unfold mirrorCmd; split
  · exact mirrorConfig_done _ _ _ _ _
  · exact .refl _

theorem finishOne_done (id : Nat) (st : Status) (a b : BitVec 64) (e : Bool) (s : State) : DoneKeeps s (finishOne id st a b e s) := by
  unfold finishOne; split
  · exact .refl _
  · dsimp only
    have k := ((mapFl_done (fun f => { f with cmds := mdel f.cmds id }) s).trans (profEvent_done 0x11 0 1 _)).trans (mirrorCmd_done ‹Cmd› st _)
    split
    · exact k
    · exact k.trans (writeCompletion_keeps _ _).done

theorem settleDeletes_done (n : Nat) (s : State) : DoneKeeps s (settleDeletes n s) := by
  induction n generalizing s with
  | zero => exact .refl _
  | succ n ih =>
    unfold settleDeletes; split
    · exact .refl _
    · exact (((mapHif_keeps _ s).done).trans (finishOne_done _ _ _ _ _ _)).trans (ih _)

theorem finish_done (id : Nat) (st : Status) (a b : BitVec 64) (e : Bool) (s : State) : DoneKeeps s (finish id st a b e s) :=
  (finishOne_done id st a b e s).trans (settleDeletes_done _ _)

theorem finishFail_done (id : Nat) (st : Status) (s : State) : DoneKeeps s (finishFail id st s) := finish_done _ _ _ _ _ _

theorem finishAll_done (l : List Nat) (st : Status) (e : Bool) (s : State) : DoneKeeps s (finishAll l st e s) := by
  unfold finishAll
  induction l generalizing s with
  | nil => exact .refl _
  | cons a l ih => exact (finish_done a st 0 0 e s).trans (ih _)

theorem modCmd_done (id : Nat) (f : Cmd → Cmd) (s : State) : DoneKeeps s (modCmd id f s) := by
  unfold modCmd; split
  · exact .refl _
  · exact mapFl_done _ _

theorem awaitEnd_done (id : Nat) (l : List Nat) (s : State) : DoneKeeps s (awaitEnd id l s) := modCmd_done _ _ _

theorem beginCmd_done (id : Nat) (c : Cmd) (s : State) : DoneKeeps s (beginCmd id c s) := mapFl_done _ _

@[simp] theorem finish_pending (id : Nat) (st : Status) (a b : BitVec 64) (e : Bool) (s : State) : (finish id st a b e s).pending = s.pending := (finish_done id st a b e s).pending
@[simp] theorem finish_now (id : Nat) (st : Status) (a b : BitVec 64) (e : Bool) (s : State) : (finish id st a b e s).now = s.now := (finish_done id st a b e s).now
@[simp] theorem finish_free (id : Nat) (st : Status) (a b : BitVec 64) (e : Bool) (s : State) : (finish id st a b e s).free = s.free := (finish_done id st a b e s).free
@[simp] theorem finish_elog (id : Nat) (st : Status) (a b : BitVec 64) (e : Bool) (s : State) : (finish id st a b e s).elog = s.elog := (finish_done id st a b e s).elog
@[simp] theorem finish_bed (id : Nat) (st : Status) (a b : BitVec 64) (e : Bool) (s : State) : (finish id st a b e s).bed = s.bed := (finish_done id st a b e s).bed
@[simp] theorem finish_health (id : Nat) (st : Status) (a b : BitVec 64) (e : Bool) (s : State) : (finish id st a b e s).health = s.health := (finish_done id st a b e s).health
@[simp] theorem finish_otp (id : Nat) (st : Status) (a b : BitVec 64) (e : Bool) (s : State) : (finish id st a b e s).otp = s.otp := (finish_done id st a b e s).otp
@[simp] theorem finish_guard (id : Nat) (st : Status) (a b : BitVec 64) (e : Bool) (s : State) : (finish id st a b e s).guard = s.guard := (finish_done id st a b e s).guard
@[simp] theorem finish_mgmt (id : Nat) (st : Status) (a b : BitVec 64) (e : Bool) (s : State) : (finish id st a b e s).mgmt = s.mgmt := (finish_done id st a b e s).mgmt
@[simp] theorem finish_dac (id : Nat) (st : Status) (a b : BitVec 64) (e : Bool) (s : State) : (finish id st a b e s).dac = s.dac := (finish_done id st a b e s).dac
@[simp] theorem finish_fuse (id : Nat) (st : Status) (a b : BitVec 64) (e : Bool) (s : State) : (finish id st a b e s).fuse = s.fuse := (finish_done id st a b e s).fuse
@[simp] theorem finish_rep (id : Nat) (st : Status) (a b : BitVec 64) (e : Bool) (s : State) : (finish id st a b e s).rep = s.rep := (finish_done id st a b e s).rep
@[simp] theorem finish_boot (id : Nat) (st : Status) (a b : BitVec 64) (e : Bool) (s : State) : (finish id st a b e s).boot = s.boot := (finish_done id st a b e s).boot
@[simp] theorem finish_lanes (id : Nat) (st : Status) (a b : BitVec 64) (e : Bool) (s : State) : (finish id st a b e s).lanes = s.lanes := (finish_done id st a b e s).lanes
@[simp] theorem finish_cages (id : Nat) (st : Status) (a b : BitVec 64) (e : Bool) (s : State) : (finish id st a b e s).cages = s.cages := (finish_done id st a b e s).cages
@[simp] theorem finish_ports (id : Nat) (st : Status) (a b : BitVec 64) (e : Bool) (s : State) : (finish id st a b e s).ports = s.ports := (finish_done id st a b e s).ports
@[simp] theorem finish_retn (id : Nat) (st : Status) (a b : BitVec 64) (e : Bool) (s : State) : (finish id st a b e s).retn = s.retn := (finish_done id st a b e s).retn
@[simp] theorem finish_buf (id : Nat) (st : Status) (a b : BitVec 64) (e : Bool) (s : State) : (finish id st a b e s).buf = s.buf := (finish_done id st a b e s).buf
@[simp] theorem finish_sched (id : Nat) (st : Status) (a b : BitVec 64) (e : Bool) (s : State) : (finish id st a b e s).sched = s.sched := (finish_done id st a b e s).sched
@[simp] theorem finish_tbl (id : Nat) (st : Status) (a b : BitVec 64) (e : Bool) (s : State) : (finish id st a b e s).tbl = s.tbl := (finish_done id st a b e s).tbl
@[simp] theorem finish_mem (id : Nat) (st : Status) (a b : BitVec 64) (e : Bool) (s : State) : (finish id st a b e s).mem = s.mem := (finish_done id st a b e s).mem
@[simp] theorem finish_tim (id : Nat) (st : Status) (a b : BitVec 64) (e : Bool) (s : State) : (finish id st a b e s).tim = s.tim := (finish_done id st a b e s).tim
@[simp] theorem finish_adc (id : Nat) (st : Status) (a b : BitVec 64) (e : Bool) (s : State) : (finish id st a b e s).adc = s.adc := (finish_done id st a b e s).adc

@[simp] theorem finishFail_pending (id : Nat) (st : Status) (s : State) : (finishFail id st s).pending = s.pending := (finishFail_done id st s).pending
@[simp] theorem finishFail_now (id : Nat) (st : Status) (s : State) : (finishFail id st s).now = s.now := (finishFail_done id st s).now
@[simp] theorem finishFail_free (id : Nat) (st : Status) (s : State) : (finishFail id st s).free = s.free := (finishFail_done id st s).free
@[simp] theorem finishFail_elog (id : Nat) (st : Status) (s : State) : (finishFail id st s).elog = s.elog := (finishFail_done id st s).elog
@[simp] theorem finishFail_bed (id : Nat) (st : Status) (s : State) : (finishFail id st s).bed = s.bed := (finishFail_done id st s).bed
@[simp] theorem finishFail_health (id : Nat) (st : Status) (s : State) : (finishFail id st s).health = s.health := (finishFail_done id st s).health
@[simp] theorem finishFail_otp (id : Nat) (st : Status) (s : State) : (finishFail id st s).otp = s.otp := (finishFail_done id st s).otp
@[simp] theorem finishFail_guard (id : Nat) (st : Status) (s : State) : (finishFail id st s).guard = s.guard := (finishFail_done id st s).guard
@[simp] theorem finishFail_mgmt (id : Nat) (st : Status) (s : State) : (finishFail id st s).mgmt = s.mgmt := (finishFail_done id st s).mgmt
@[simp] theorem finishFail_dac (id : Nat) (st : Status) (s : State) : (finishFail id st s).dac = s.dac := (finishFail_done id st s).dac
@[simp] theorem finishFail_fuse (id : Nat) (st : Status) (s : State) : (finishFail id st s).fuse = s.fuse := (finishFail_done id st s).fuse
@[simp] theorem finishFail_rep (id : Nat) (st : Status) (s : State) : (finishFail id st s).rep = s.rep := (finishFail_done id st s).rep
@[simp] theorem finishFail_boot (id : Nat) (st : Status) (s : State) : (finishFail id st s).boot = s.boot := (finishFail_done id st s).boot
@[simp] theorem finishFail_lanes (id : Nat) (st : Status) (s : State) : (finishFail id st s).lanes = s.lanes := (finishFail_done id st s).lanes
@[simp] theorem finishFail_cages (id : Nat) (st : Status) (s : State) : (finishFail id st s).cages = s.cages := (finishFail_done id st s).cages
@[simp] theorem finishFail_ports (id : Nat) (st : Status) (s : State) : (finishFail id st s).ports = s.ports := (finishFail_done id st s).ports
@[simp] theorem finishFail_retn (id : Nat) (st : Status) (s : State) : (finishFail id st s).retn = s.retn := (finishFail_done id st s).retn
@[simp] theorem finishFail_buf (id : Nat) (st : Status) (s : State) : (finishFail id st s).buf = s.buf := (finishFail_done id st s).buf
@[simp] theorem finishFail_sched (id : Nat) (st : Status) (s : State) : (finishFail id st s).sched = s.sched := (finishFail_done id st s).sched
@[simp] theorem finishFail_tbl (id : Nat) (st : Status) (s : State) : (finishFail id st s).tbl = s.tbl := (finishFail_done id st s).tbl
@[simp] theorem finishFail_mem (id : Nat) (st : Status) (s : State) : (finishFail id st s).mem = s.mem := (finishFail_done id st s).mem
@[simp] theorem finishFail_tim (id : Nat) (st : Status) (s : State) : (finishFail id st s).tim = s.tim := (finishFail_done id st s).tim
@[simp] theorem finishFail_adc (id : Nat) (st : Status) (s : State) : (finishFail id st s).adc = s.adc := (finishFail_done id st s).adc

@[simp] theorem finishAll_pending (l : List Nat) (st : Status) (e : Bool) (s : State) : (finishAll l st e s).pending = s.pending := (finishAll_done l st e s).pending
@[simp] theorem finishAll_now (l : List Nat) (st : Status) (e : Bool) (s : State) : (finishAll l st e s).now = s.now := (finishAll_done l st e s).now
@[simp] theorem finishAll_free (l : List Nat) (st : Status) (e : Bool) (s : State) : (finishAll l st e s).free = s.free := (finishAll_done l st e s).free
@[simp] theorem finishAll_elog (l : List Nat) (st : Status) (e : Bool) (s : State) : (finishAll l st e s).elog = s.elog := (finishAll_done l st e s).elog
@[simp] theorem finishAll_bed (l : List Nat) (st : Status) (e : Bool) (s : State) : (finishAll l st e s).bed = s.bed := (finishAll_done l st e s).bed
@[simp] theorem finishAll_health (l : List Nat) (st : Status) (e : Bool) (s : State) : (finishAll l st e s).health = s.health := (finishAll_done l st e s).health
@[simp] theorem finishAll_otp (l : List Nat) (st : Status) (e : Bool) (s : State) : (finishAll l st e s).otp = s.otp := (finishAll_done l st e s).otp
@[simp] theorem finishAll_guard (l : List Nat) (st : Status) (e : Bool) (s : State) : (finishAll l st e s).guard = s.guard := (finishAll_done l st e s).guard
@[simp] theorem finishAll_mgmt (l : List Nat) (st : Status) (e : Bool) (s : State) : (finishAll l st e s).mgmt = s.mgmt := (finishAll_done l st e s).mgmt
@[simp] theorem finishAll_dac (l : List Nat) (st : Status) (e : Bool) (s : State) : (finishAll l st e s).dac = s.dac := (finishAll_done l st e s).dac
@[simp] theorem finishAll_fuse (l : List Nat) (st : Status) (e : Bool) (s : State) : (finishAll l st e s).fuse = s.fuse := (finishAll_done l st e s).fuse
@[simp] theorem finishAll_rep (l : List Nat) (st : Status) (e : Bool) (s : State) : (finishAll l st e s).rep = s.rep := (finishAll_done l st e s).rep
@[simp] theorem finishAll_boot (l : List Nat) (st : Status) (e : Bool) (s : State) : (finishAll l st e s).boot = s.boot := (finishAll_done l st e s).boot
@[simp] theorem finishAll_lanes (l : List Nat) (st : Status) (e : Bool) (s : State) : (finishAll l st e s).lanes = s.lanes := (finishAll_done l st e s).lanes
@[simp] theorem finishAll_cages (l : List Nat) (st : Status) (e : Bool) (s : State) : (finishAll l st e s).cages = s.cages := (finishAll_done l st e s).cages
@[simp] theorem finishAll_ports (l : List Nat) (st : Status) (e : Bool) (s : State) : (finishAll l st e s).ports = s.ports := (finishAll_done l st e s).ports
@[simp] theorem finishAll_retn (l : List Nat) (st : Status) (e : Bool) (s : State) : (finishAll l st e s).retn = s.retn := (finishAll_done l st e s).retn
@[simp] theorem finishAll_buf (l : List Nat) (st : Status) (e : Bool) (s : State) : (finishAll l st e s).buf = s.buf := (finishAll_done l st e s).buf
@[simp] theorem finishAll_sched (l : List Nat) (st : Status) (e : Bool) (s : State) : (finishAll l st e s).sched = s.sched := (finishAll_done l st e s).sched
@[simp] theorem finishAll_tbl (l : List Nat) (st : Status) (e : Bool) (s : State) : (finishAll l st e s).tbl = s.tbl := (finishAll_done l st e s).tbl
@[simp] theorem finishAll_mem (l : List Nat) (st : Status) (e : Bool) (s : State) : (finishAll l st e s).mem = s.mem := (finishAll_done l st e s).mem
@[simp] theorem finishAll_tim (l : List Nat) (st : Status) (e : Bool) (s : State) : (finishAll l st e s).tim = s.tim := (finishAll_done l st e s).tim
@[simp] theorem finishAll_adc (l : List Nat) (st : Status) (e : Bool) (s : State) : (finishAll l st e s).adc = s.adc := (finishAll_done l st e s).adc

@[simp] theorem mirrorConfig_pending (op tg : Nat) (a b : List Byte) (s : State) : (mirrorConfig op tg a b s).pending = s.pending := (mirrorConfig_done op tg a b s).pending
@[simp] theorem mirrorConfig_now (op tg : Nat) (a b : List Byte) (s : State) : (mirrorConfig op tg a b s).now = s.now := (mirrorConfig_done op tg a b s).now
@[simp] theorem mirrorConfig_free (op tg : Nat) (a b : List Byte) (s : State) : (mirrorConfig op tg a b s).free = s.free := (mirrorConfig_done op tg a b s).free
@[simp] theorem mirrorConfig_elog (op tg : Nat) (a b : List Byte) (s : State) : (mirrorConfig op tg a b s).elog = s.elog := (mirrorConfig_done op tg a b s).elog
@[simp] theorem mirrorConfig_bed (op tg : Nat) (a b : List Byte) (s : State) : (mirrorConfig op tg a b s).bed = s.bed := (mirrorConfig_done op tg a b s).bed
@[simp] theorem mirrorConfig_health (op tg : Nat) (a b : List Byte) (s : State) : (mirrorConfig op tg a b s).health = s.health := (mirrorConfig_done op tg a b s).health
@[simp] theorem mirrorConfig_otp (op tg : Nat) (a b : List Byte) (s : State) : (mirrorConfig op tg a b s).otp = s.otp := (mirrorConfig_done op tg a b s).otp
@[simp] theorem mirrorConfig_guard (op tg : Nat) (a b : List Byte) (s : State) : (mirrorConfig op tg a b s).guard = s.guard := (mirrorConfig_done op tg a b s).guard
@[simp] theorem mirrorConfig_mgmt (op tg : Nat) (a b : List Byte) (s : State) : (mirrorConfig op tg a b s).mgmt = s.mgmt := (mirrorConfig_done op tg a b s).mgmt
@[simp] theorem mirrorConfig_dac (op tg : Nat) (a b : List Byte) (s : State) : (mirrorConfig op tg a b s).dac = s.dac := (mirrorConfig_done op tg a b s).dac
@[simp] theorem mirrorConfig_fuse (op tg : Nat) (a b : List Byte) (s : State) : (mirrorConfig op tg a b s).fuse = s.fuse := (mirrorConfig_done op tg a b s).fuse
@[simp] theorem mirrorConfig_rep (op tg : Nat) (a b : List Byte) (s : State) : (mirrorConfig op tg a b s).rep = s.rep := (mirrorConfig_done op tg a b s).rep
@[simp] theorem mirrorConfig_boot (op tg : Nat) (a b : List Byte) (s : State) : (mirrorConfig op tg a b s).boot = s.boot := (mirrorConfig_done op tg a b s).boot
@[simp] theorem mirrorConfig_lanes (op tg : Nat) (a b : List Byte) (s : State) : (mirrorConfig op tg a b s).lanes = s.lanes := (mirrorConfig_done op tg a b s).lanes
@[simp] theorem mirrorConfig_cages (op tg : Nat) (a b : List Byte) (s : State) : (mirrorConfig op tg a b s).cages = s.cages := (mirrorConfig_done op tg a b s).cages
@[simp] theorem mirrorConfig_ports (op tg : Nat) (a b : List Byte) (s : State) : (mirrorConfig op tg a b s).ports = s.ports := (mirrorConfig_done op tg a b s).ports
@[simp] theorem mirrorConfig_retn (op tg : Nat) (a b : List Byte) (s : State) : (mirrorConfig op tg a b s).retn = s.retn := (mirrorConfig_done op tg a b s).retn
@[simp] theorem mirrorConfig_buf (op tg : Nat) (a b : List Byte) (s : State) : (mirrorConfig op tg a b s).buf = s.buf := (mirrorConfig_done op tg a b s).buf
@[simp] theorem mirrorConfig_sched (op tg : Nat) (a b : List Byte) (s : State) : (mirrorConfig op tg a b s).sched = s.sched := (mirrorConfig_done op tg a b s).sched
@[simp] theorem mirrorConfig_tbl (op tg : Nat) (a b : List Byte) (s : State) : (mirrorConfig op tg a b s).tbl = s.tbl := (mirrorConfig_done op tg a b s).tbl
@[simp] theorem mirrorConfig_mem (op tg : Nat) (a b : List Byte) (s : State) : (mirrorConfig op tg a b s).mem = s.mem := (mirrorConfig_done op tg a b s).mem
@[simp] theorem mirrorConfig_tim (op tg : Nat) (a b : List Byte) (s : State) : (mirrorConfig op tg a b s).tim = s.tim := (mirrorConfig_done op tg a b s).tim
@[simp] theorem mirrorConfig_adc (op tg : Nat) (a b : List Byte) (s : State) : (mirrorConfig op tg a b s).adc = s.adc := (mirrorConfig_done op tg a b s).adc

@[simp] theorem mirrorPush_pending (k m : Nat) (b : List Byte) (s : State) : (mirrorPush k m b s).pending = s.pending := (mirrorPush_done k m b s).pending
@[simp] theorem mirrorPush_now (k m : Nat) (b : List Byte) (s : State) : (mirrorPush k m b s).now = s.now := (mirrorPush_done k m b s).now
@[simp] theorem mirrorPush_free (k m : Nat) (b : List Byte) (s : State) : (mirrorPush k m b s).free = s.free := (mirrorPush_done k m b s).free
@[simp] theorem mirrorPush_elog (k m : Nat) (b : List Byte) (s : State) : (mirrorPush k m b s).elog = s.elog := (mirrorPush_done k m b s).elog
@[simp] theorem mirrorPush_bed (k m : Nat) (b : List Byte) (s : State) : (mirrorPush k m b s).bed = s.bed := (mirrorPush_done k m b s).bed
@[simp] theorem mirrorPush_health (k m : Nat) (b : List Byte) (s : State) : (mirrorPush k m b s).health = s.health := (mirrorPush_done k m b s).health
@[simp] theorem mirrorPush_otp (k m : Nat) (b : List Byte) (s : State) : (mirrorPush k m b s).otp = s.otp := (mirrorPush_done k m b s).otp
@[simp] theorem mirrorPush_guard (k m : Nat) (b : List Byte) (s : State) : (mirrorPush k m b s).guard = s.guard := (mirrorPush_done k m b s).guard
@[simp] theorem mirrorPush_mgmt (k m : Nat) (b : List Byte) (s : State) : (mirrorPush k m b s).mgmt = s.mgmt := (mirrorPush_done k m b s).mgmt
@[simp] theorem mirrorPush_dac (k m : Nat) (b : List Byte) (s : State) : (mirrorPush k m b s).dac = s.dac := (mirrorPush_done k m b s).dac
@[simp] theorem mirrorPush_fuse (k m : Nat) (b : List Byte) (s : State) : (mirrorPush k m b s).fuse = s.fuse := (mirrorPush_done k m b s).fuse
@[simp] theorem mirrorPush_rep (k m : Nat) (b : List Byte) (s : State) : (mirrorPush k m b s).rep = s.rep := (mirrorPush_done k m b s).rep
@[simp] theorem mirrorPush_boot (k m : Nat) (b : List Byte) (s : State) : (mirrorPush k m b s).boot = s.boot := (mirrorPush_done k m b s).boot
@[simp] theorem mirrorPush_lanes (k m : Nat) (b : List Byte) (s : State) : (mirrorPush k m b s).lanes = s.lanes := (mirrorPush_done k m b s).lanes
@[simp] theorem mirrorPush_cages (k m : Nat) (b : List Byte) (s : State) : (mirrorPush k m b s).cages = s.cages := (mirrorPush_done k m b s).cages
@[simp] theorem mirrorPush_ports (k m : Nat) (b : List Byte) (s : State) : (mirrorPush k m b s).ports = s.ports := (mirrorPush_done k m b s).ports
@[simp] theorem mirrorPush_retn (k m : Nat) (b : List Byte) (s : State) : (mirrorPush k m b s).retn = s.retn := (mirrorPush_done k m b s).retn
@[simp] theorem mirrorPush_buf (k m : Nat) (b : List Byte) (s : State) : (mirrorPush k m b s).buf = s.buf := (mirrorPush_done k m b s).buf
@[simp] theorem mirrorPush_sched (k m : Nat) (b : List Byte) (s : State) : (mirrorPush k m b s).sched = s.sched := (mirrorPush_done k m b s).sched
@[simp] theorem mirrorPush_tbl (k m : Nat) (b : List Byte) (s : State) : (mirrorPush k m b s).tbl = s.tbl := (mirrorPush_done k m b s).tbl
@[simp] theorem mirrorPush_mem (k m : Nat) (b : List Byte) (s : State) : (mirrorPush k m b s).mem = s.mem := (mirrorPush_done k m b s).mem
@[simp] theorem mirrorPush_tim (k m : Nat) (b : List Byte) (s : State) : (mirrorPush k m b s).tim = s.tim := (mirrorPush_done k m b s).tim
@[simp] theorem mirrorPush_adc (k m : Nat) (b : List Byte) (s : State) : (mirrorPush k m b s).adc = s.adc := (mirrorPush_done k m b s).adc

@[simp] theorem mirrorDrain_pending (n : Nat) (s : State) : (mirrorDrain n s).pending = s.pending := (mirrorDrain_done n s).pending
@[simp] theorem mirrorDrain_now (n : Nat) (s : State) : (mirrorDrain n s).now = s.now := (mirrorDrain_done n s).now
@[simp] theorem mirrorDrain_free (n : Nat) (s : State) : (mirrorDrain n s).free = s.free := (mirrorDrain_done n s).free
@[simp] theorem mirrorDrain_elog (n : Nat) (s : State) : (mirrorDrain n s).elog = s.elog := (mirrorDrain_done n s).elog
@[simp] theorem mirrorDrain_bed (n : Nat) (s : State) : (mirrorDrain n s).bed = s.bed := (mirrorDrain_done n s).bed
@[simp] theorem mirrorDrain_health (n : Nat) (s : State) : (mirrorDrain n s).health = s.health := (mirrorDrain_done n s).health
@[simp] theorem mirrorDrain_otp (n : Nat) (s : State) : (mirrorDrain n s).otp = s.otp := (mirrorDrain_done n s).otp
@[simp] theorem mirrorDrain_guard (n : Nat) (s : State) : (mirrorDrain n s).guard = s.guard := (mirrorDrain_done n s).guard
@[simp] theorem mirrorDrain_mgmt (n : Nat) (s : State) : (mirrorDrain n s).mgmt = s.mgmt := (mirrorDrain_done n s).mgmt
@[simp] theorem mirrorDrain_dac (n : Nat) (s : State) : (mirrorDrain n s).dac = s.dac := (mirrorDrain_done n s).dac
@[simp] theorem mirrorDrain_fuse (n : Nat) (s : State) : (mirrorDrain n s).fuse = s.fuse := (mirrorDrain_done n s).fuse
@[simp] theorem mirrorDrain_rep (n : Nat) (s : State) : (mirrorDrain n s).rep = s.rep := (mirrorDrain_done n s).rep
@[simp] theorem mirrorDrain_boot (n : Nat) (s : State) : (mirrorDrain n s).boot = s.boot := (mirrorDrain_done n s).boot
@[simp] theorem mirrorDrain_lanes (n : Nat) (s : State) : (mirrorDrain n s).lanes = s.lanes := (mirrorDrain_done n s).lanes
@[simp] theorem mirrorDrain_cages (n : Nat) (s : State) : (mirrorDrain n s).cages = s.cages := (mirrorDrain_done n s).cages
@[simp] theorem mirrorDrain_ports (n : Nat) (s : State) : (mirrorDrain n s).ports = s.ports := (mirrorDrain_done n s).ports
@[simp] theorem mirrorDrain_retn (n : Nat) (s : State) : (mirrorDrain n s).retn = s.retn := (mirrorDrain_done n s).retn
@[simp] theorem mirrorDrain_buf (n : Nat) (s : State) : (mirrorDrain n s).buf = s.buf := (mirrorDrain_done n s).buf
@[simp] theorem mirrorDrain_sched (n : Nat) (s : State) : (mirrorDrain n s).sched = s.sched := (mirrorDrain_done n s).sched
@[simp] theorem mirrorDrain_tbl (n : Nat) (s : State) : (mirrorDrain n s).tbl = s.tbl := (mirrorDrain_done n s).tbl
@[simp] theorem mirrorDrain_mem (n : Nat) (s : State) : (mirrorDrain n s).mem = s.mem := (mirrorDrain_done n s).mem
@[simp] theorem mirrorDrain_tim (n : Nat) (s : State) : (mirrorDrain n s).tim = s.tim := (mirrorDrain_done n s).tim
@[simp] theorem mirrorDrain_adc (n : Nat) (s : State) : (mirrorDrain n s).adc = s.adc := (mirrorDrain_done n s).adc

@[simp] theorem profEvent_pending (v i n : Nat) (s : State) : (profEvent v i n s).pending = s.pending := (profEvent_done v i n s).pending
@[simp] theorem profEvent_now (v i n : Nat) (s : State) : (profEvent v i n s).now = s.now := (profEvent_done v i n s).now
@[simp] theorem profEvent_free (v i n : Nat) (s : State) : (profEvent v i n s).free = s.free := (profEvent_done v i n s).free
@[simp] theorem profEvent_elog (v i n : Nat) (s : State) : (profEvent v i n s).elog = s.elog := (profEvent_done v i n s).elog
@[simp] theorem profEvent_bed (v i n : Nat) (s : State) : (profEvent v i n s).bed = s.bed := (profEvent_done v i n s).bed
@[simp] theorem profEvent_health (v i n : Nat) (s : State) : (profEvent v i n s).health = s.health := (profEvent_done v i n s).health
@[simp] theorem profEvent_otp (v i n : Nat) (s : State) : (profEvent v i n s).otp = s.otp := (profEvent_done v i n s).otp
@[simp] theorem profEvent_guard (v i n : Nat) (s : State) : (profEvent v i n s).guard = s.guard := (profEvent_done v i n s).guard
@[simp] theorem profEvent_mgmt (v i n : Nat) (s : State) : (profEvent v i n s).mgmt = s.mgmt := (profEvent_done v i n s).mgmt
@[simp] theorem profEvent_dac (v i n : Nat) (s : State) : (profEvent v i n s).dac = s.dac := (profEvent_done v i n s).dac
@[simp] theorem profEvent_fuse (v i n : Nat) (s : State) : (profEvent v i n s).fuse = s.fuse := (profEvent_done v i n s).fuse
@[simp] theorem profEvent_rep (v i n : Nat) (s : State) : (profEvent v i n s).rep = s.rep := (profEvent_done v i n s).rep
@[simp] theorem profEvent_boot (v i n : Nat) (s : State) : (profEvent v i n s).boot = s.boot := (profEvent_done v i n s).boot
@[simp] theorem profEvent_lanes (v i n : Nat) (s : State) : (profEvent v i n s).lanes = s.lanes := (profEvent_done v i n s).lanes
@[simp] theorem profEvent_cages (v i n : Nat) (s : State) : (profEvent v i n s).cages = s.cages := (profEvent_done v i n s).cages
@[simp] theorem profEvent_ports (v i n : Nat) (s : State) : (profEvent v i n s).ports = s.ports := (profEvent_done v i n s).ports
@[simp] theorem profEvent_retn (v i n : Nat) (s : State) : (profEvent v i n s).retn = s.retn := (profEvent_done v i n s).retn
@[simp] theorem profEvent_buf (v i n : Nat) (s : State) : (profEvent v i n s).buf = s.buf := (profEvent_done v i n s).buf
@[simp] theorem profEvent_sched (v i n : Nat) (s : State) : (profEvent v i n s).sched = s.sched := (profEvent_done v i n s).sched
@[simp] theorem profEvent_tbl (v i n : Nat) (s : State) : (profEvent v i n s).tbl = s.tbl := (profEvent_done v i n s).tbl
@[simp] theorem profEvent_mem (v i n : Nat) (s : State) : (profEvent v i n s).mem = s.mem := (profEvent_done v i n s).mem
@[simp] theorem profEvent_tim (v i n : Nat) (s : State) : (profEvent v i n s).tim = s.tim := (profEvent_done v i n s).tim
@[simp] theorem profEvent_adc (v i n : Nat) (s : State) : (profEvent v i n s).adc = s.adc := (profEvent_done v i n s).adc

@[simp] theorem beginCmd_pending (id : Nat) (c : Cmd) (s : State) : (beginCmd id c s).pending = s.pending := rfl
@[simp] theorem beginCmd_now (id : Nat) (c : Cmd) (s : State) : (beginCmd id c s).now = s.now := rfl
@[simp] theorem beginCmd_free (id : Nat) (c : Cmd) (s : State) : (beginCmd id c s).free = s.free := rfl
@[simp] theorem beginCmd_elog (id : Nat) (c : Cmd) (s : State) : (beginCmd id c s).elog = s.elog := rfl
@[simp] theorem beginCmd_bed (id : Nat) (c : Cmd) (s : State) : (beginCmd id c s).bed = s.bed := rfl
@[simp] theorem beginCmd_health (id : Nat) (c : Cmd) (s : State) : (beginCmd id c s).health = s.health := rfl
@[simp] theorem beginCmd_otp (id : Nat) (c : Cmd) (s : State) : (beginCmd id c s).otp = s.otp := rfl
@[simp] theorem beginCmd_guard (id : Nat) (c : Cmd) (s : State) : (beginCmd id c s).guard = s.guard := rfl
@[simp] theorem beginCmd_mgmt (id : Nat) (c : Cmd) (s : State) : (beginCmd id c s).mgmt = s.mgmt := rfl
@[simp] theorem beginCmd_dac (id : Nat) (c : Cmd) (s : State) : (beginCmd id c s).dac = s.dac := rfl
@[simp] theorem beginCmd_fuse (id : Nat) (c : Cmd) (s : State) : (beginCmd id c s).fuse = s.fuse := rfl
@[simp] theorem beginCmd_rep (id : Nat) (c : Cmd) (s : State) : (beginCmd id c s).rep = s.rep := rfl
@[simp] theorem beginCmd_boot (id : Nat) (c : Cmd) (s : State) : (beginCmd id c s).boot = s.boot := rfl
@[simp] theorem beginCmd_lanes (id : Nat) (c : Cmd) (s : State) : (beginCmd id c s).lanes = s.lanes := rfl
@[simp] theorem beginCmd_cages (id : Nat) (c : Cmd) (s : State) : (beginCmd id c s).cages = s.cages := rfl
@[simp] theorem beginCmd_ports (id : Nat) (c : Cmd) (s : State) : (beginCmd id c s).ports = s.ports := rfl
@[simp] theorem beginCmd_retn (id : Nat) (c : Cmd) (s : State) : (beginCmd id c s).retn = s.retn := rfl
@[simp] theorem beginCmd_gar (id : Nat) (c : Cmd) (s : State) : (beginCmd id c s).gar = s.gar := rfl
@[simp] theorem beginCmd_buf (id : Nat) (c : Cmd) (s : State) : (beginCmd id c s).buf = s.buf := rfl
@[simp] theorem beginCmd_sched (id : Nat) (c : Cmd) (s : State) : (beginCmd id c s).sched = s.sched := rfl
@[simp] theorem beginCmd_tbl (id : Nat) (c : Cmd) (s : State) : (beginCmd id c s).tbl = s.tbl := rfl
@[simp] theorem beginCmd_mem (id : Nat) (c : Cmd) (s : State) : (beginCmd id c s).mem = s.mem := rfl
@[simp] theorem beginCmd_obs (id : Nat) (c : Cmd) (s : State) : (beginCmd id c s).obs = s.obs := rfl
@[simp] theorem beginCmd_tim (id : Nat) (c : Cmd) (s : State) : (beginCmd id c s).tim = s.tim := rfl
@[simp] theorem beginCmd_geo (id : Nat) (c : Cmd) (s : State) : (beginCmd id c s).geo = s.geo := rfl
@[simp] theorem beginCmd_adc (id : Nat) (c : Cmd) (s : State) : (beginCmd id c s).adc = s.adc := rfl
@[simp] theorem beginCmd_hreg (id : Nat) (c : Cmd) (s : State) : (beginCmd id c s).hreg = s.hreg := rfl
@[simp] theorem beginCmd_hif (id : Nat) (c : Cmd) (s : State) : (beginCmd id c s).hif = s.hif := rfl
@[simp] theorem beginCmd_hostLog (id : Nat) (c : Cmd) (s : State) : (beginCmd id c s).hostLog = s.hostLog := rfl

@[simp] theorem modCmd_pending (id : Nat) (f : Cmd → Cmd) (s : State) : (modCmd id f s).pending = s.pending := by unfold modCmd; split <;> rfl
@[simp] theorem modCmd_now (id : Nat) (f : Cmd → Cmd) (s : State) : (modCmd id f s).now = s.now := by unfold modCmd; split <;> rfl
@[simp] theorem modCmd_free (id : Nat) (f : Cmd → Cmd) (s : State) : (modCmd id f s).free = s.free := by unfold modCmd; split <;> rfl
@[simp] theorem modCmd_elog (id : Nat) (f : Cmd → Cmd) (s : State) : (modCmd id f s).elog = s.elog := by unfold modCmd; split <;> rfl
@[simp] theorem modCmd_bed (id : Nat) (f : Cmd → Cmd) (s : State) : (modCmd id f s).bed = s.bed := by unfold modCmd; split <;> rfl
@[simp] theorem modCmd_health (id : Nat) (f : Cmd → Cmd) (s : State) : (modCmd id f s).health = s.health := by unfold modCmd; split <;> rfl
@[simp] theorem modCmd_otp (id : Nat) (f : Cmd → Cmd) (s : State) : (modCmd id f s).otp = s.otp := by unfold modCmd; split <;> rfl
@[simp] theorem modCmd_guard (id : Nat) (f : Cmd → Cmd) (s : State) : (modCmd id f s).guard = s.guard := by unfold modCmd; split <;> rfl
@[simp] theorem modCmd_mgmt (id : Nat) (f : Cmd → Cmd) (s : State) : (modCmd id f s).mgmt = s.mgmt := by unfold modCmd; split <;> rfl
@[simp] theorem modCmd_dac (id : Nat) (f : Cmd → Cmd) (s : State) : (modCmd id f s).dac = s.dac := by unfold modCmd; split <;> rfl
@[simp] theorem modCmd_fuse (id : Nat) (f : Cmd → Cmd) (s : State) : (modCmd id f s).fuse = s.fuse := by unfold modCmd; split <;> rfl
@[simp] theorem modCmd_rep (id : Nat) (f : Cmd → Cmd) (s : State) : (modCmd id f s).rep = s.rep := by unfold modCmd; split <;> rfl
@[simp] theorem modCmd_boot (id : Nat) (f : Cmd → Cmd) (s : State) : (modCmd id f s).boot = s.boot := by unfold modCmd; split <;> rfl
@[simp] theorem modCmd_lanes (id : Nat) (f : Cmd → Cmd) (s : State) : (modCmd id f s).lanes = s.lanes := by unfold modCmd; split <;> rfl
@[simp] theorem modCmd_cages (id : Nat) (f : Cmd → Cmd) (s : State) : (modCmd id f s).cages = s.cages := by unfold modCmd; split <;> rfl
@[simp] theorem modCmd_ports (id : Nat) (f : Cmd → Cmd) (s : State) : (modCmd id f s).ports = s.ports := by unfold modCmd; split <;> rfl
@[simp] theorem modCmd_retn (id : Nat) (f : Cmd → Cmd) (s : State) : (modCmd id f s).retn = s.retn := by unfold modCmd; split <;> rfl
@[simp] theorem modCmd_gar (id : Nat) (f : Cmd → Cmd) (s : State) : (modCmd id f s).gar = s.gar := by unfold modCmd; split <;> rfl
@[simp] theorem modCmd_buf (id : Nat) (f : Cmd → Cmd) (s : State) : (modCmd id f s).buf = s.buf := by unfold modCmd; split <;> rfl
@[simp] theorem modCmd_sched (id : Nat) (f : Cmd → Cmd) (s : State) : (modCmd id f s).sched = s.sched := by unfold modCmd; split <;> rfl
@[simp] theorem modCmd_tbl (id : Nat) (f : Cmd → Cmd) (s : State) : (modCmd id f s).tbl = s.tbl := by unfold modCmd; split <;> rfl
@[simp] theorem modCmd_mem (id : Nat) (f : Cmd → Cmd) (s : State) : (modCmd id f s).mem = s.mem := by unfold modCmd; split <;> rfl
@[simp] theorem modCmd_obs (id : Nat) (f : Cmd → Cmd) (s : State) : (modCmd id f s).obs = s.obs := by unfold modCmd; split <;> rfl
@[simp] theorem modCmd_tim (id : Nat) (f : Cmd → Cmd) (s : State) : (modCmd id f s).tim = s.tim := by unfold modCmd; split <;> rfl
@[simp] theorem modCmd_geo (id : Nat) (f : Cmd → Cmd) (s : State) : (modCmd id f s).geo = s.geo := by unfold modCmd; split <;> rfl
@[simp] theorem modCmd_adc (id : Nat) (f : Cmd → Cmd) (s : State) : (modCmd id f s).adc = s.adc := by unfold modCmd; split <;> rfl
@[simp] theorem modCmd_hreg (id : Nat) (f : Cmd → Cmd) (s : State) : (modCmd id f s).hreg = s.hreg := by unfold modCmd; split <;> rfl
@[simp] theorem modCmd_hif (id : Nat) (f : Cmd → Cmd) (s : State) : (modCmd id f s).hif = s.hif := by unfold modCmd; split <;> rfl
@[simp] theorem modCmd_hostLog (id : Nat) (f : Cmd → Cmd) (s : State) : (modCmd id f s).hostLog = s.hostLog := by unfold modCmd; split <;> rfl

@[simp] theorem awaitEnd_pending (id : Nat) (l : List Nat) (s : State) : (awaitEnd id l s).pending = s.pending := modCmd_pending _ _ _
@[simp] theorem awaitEnd_now (id : Nat) (l : List Nat) (s : State) : (awaitEnd id l s).now = s.now := modCmd_now _ _ _
@[simp] theorem awaitEnd_free (id : Nat) (l : List Nat) (s : State) : (awaitEnd id l s).free = s.free := modCmd_free _ _ _
@[simp] theorem awaitEnd_elog (id : Nat) (l : List Nat) (s : State) : (awaitEnd id l s).elog = s.elog := modCmd_elog _ _ _
@[simp] theorem awaitEnd_bed (id : Nat) (l : List Nat) (s : State) : (awaitEnd id l s).bed = s.bed := modCmd_bed _ _ _
@[simp] theorem awaitEnd_health (id : Nat) (l : List Nat) (s : State) : (awaitEnd id l s).health = s.health := modCmd_health _ _ _
@[simp] theorem awaitEnd_otp (id : Nat) (l : List Nat) (s : State) : (awaitEnd id l s).otp = s.otp := modCmd_otp _ _ _
@[simp] theorem awaitEnd_guard (id : Nat) (l : List Nat) (s : State) : (awaitEnd id l s).guard = s.guard := modCmd_guard _ _ _
@[simp] theorem awaitEnd_mgmt (id : Nat) (l : List Nat) (s : State) : (awaitEnd id l s).mgmt = s.mgmt := modCmd_mgmt _ _ _
@[simp] theorem awaitEnd_dac (id : Nat) (l : List Nat) (s : State) : (awaitEnd id l s).dac = s.dac := modCmd_dac _ _ _
@[simp] theorem awaitEnd_fuse (id : Nat) (l : List Nat) (s : State) : (awaitEnd id l s).fuse = s.fuse := modCmd_fuse _ _ _
@[simp] theorem awaitEnd_rep (id : Nat) (l : List Nat) (s : State) : (awaitEnd id l s).rep = s.rep := modCmd_rep _ _ _
@[simp] theorem awaitEnd_boot (id : Nat) (l : List Nat) (s : State) : (awaitEnd id l s).boot = s.boot := modCmd_boot _ _ _
@[simp] theorem awaitEnd_lanes (id : Nat) (l : List Nat) (s : State) : (awaitEnd id l s).lanes = s.lanes := modCmd_lanes _ _ _
@[simp] theorem awaitEnd_cages (id : Nat) (l : List Nat) (s : State) : (awaitEnd id l s).cages = s.cages := modCmd_cages _ _ _
@[simp] theorem awaitEnd_ports (id : Nat) (l : List Nat) (s : State) : (awaitEnd id l s).ports = s.ports := modCmd_ports _ _ _
@[simp] theorem awaitEnd_retn (id : Nat) (l : List Nat) (s : State) : (awaitEnd id l s).retn = s.retn := modCmd_retn _ _ _
@[simp] theorem awaitEnd_gar (id : Nat) (l : List Nat) (s : State) : (awaitEnd id l s).gar = s.gar := modCmd_gar _ _ _
@[simp] theorem awaitEnd_buf (id : Nat) (l : List Nat) (s : State) : (awaitEnd id l s).buf = s.buf := modCmd_buf _ _ _
@[simp] theorem awaitEnd_sched (id : Nat) (l : List Nat) (s : State) : (awaitEnd id l s).sched = s.sched := modCmd_sched _ _ _
@[simp] theorem awaitEnd_tbl (id : Nat) (l : List Nat) (s : State) : (awaitEnd id l s).tbl = s.tbl := modCmd_tbl _ _ _
@[simp] theorem awaitEnd_mem (id : Nat) (l : List Nat) (s : State) : (awaitEnd id l s).mem = s.mem := modCmd_mem _ _ _
@[simp] theorem awaitEnd_obs (id : Nat) (l : List Nat) (s : State) : (awaitEnd id l s).obs = s.obs := modCmd_obs _ _ _
@[simp] theorem awaitEnd_tim (id : Nat) (l : List Nat) (s : State) : (awaitEnd id l s).tim = s.tim := modCmd_tim _ _ _
@[simp] theorem awaitEnd_geo (id : Nat) (l : List Nat) (s : State) : (awaitEnd id l s).geo = s.geo := modCmd_geo _ _ _
@[simp] theorem awaitEnd_adc (id : Nat) (l : List Nat) (s : State) : (awaitEnd id l s).adc = s.adc := modCmd_adc _ _ _
@[simp] theorem awaitEnd_hreg (id : Nat) (l : List Nat) (s : State) : (awaitEnd id l s).hreg = s.hreg := modCmd_hreg _ _ _
@[simp] theorem awaitEnd_hif (id : Nat) (l : List Nat) (s : State) : (awaitEnd id l s).hif = s.hif := modCmd_hif _ _ _
@[simp] theorem awaitEnd_hostLog (id : Nat) (l : List Nat) (s : State) : (awaitEnd id l s).hostLog = s.hostLog := modCmd_hostLog _ _ _

@[simp] theorem logErr_pending (a b d : Nat) (s : State) : (logErr a b d s).pending = s.pending := rfl
@[simp] theorem logErr_now (a b d : Nat) (s : State) : (logErr a b d s).now = s.now := rfl
@[simp] theorem logErr_free (a b d : Nat) (s : State) : (logErr a b d s).free = s.free := rfl
@[simp] theorem logErr_bed (a b d : Nat) (s : State) : (logErr a b d s).bed = s.bed := rfl
@[simp] theorem logErr_health (a b d : Nat) (s : State) : (logErr a b d s).health = s.health := rfl
@[simp] theorem logErr_otp (a b d : Nat) (s : State) : (logErr a b d s).otp = s.otp := rfl
@[simp] theorem logErr_guard (a b d : Nat) (s : State) : (logErr a b d s).guard = s.guard := rfl
@[simp] theorem logErr_dac (a b d : Nat) (s : State) : (logErr a b d s).dac = s.dac := rfl
@[simp] theorem logErr_fuse (a b d : Nat) (s : State) : (logErr a b d s).fuse = s.fuse := rfl
@[simp] theorem logErr_rep (a b d : Nat) (s : State) : (logErr a b d s).rep = s.rep := rfl
@[simp] theorem logErr_boot (a b d : Nat) (s : State) : (logErr a b d s).boot = s.boot := rfl
@[simp] theorem logErr_lanes (a b d : Nat) (s : State) : (logErr a b d s).lanes = s.lanes := rfl
@[simp] theorem logErr_cages (a b d : Nat) (s : State) : (logErr a b d s).cages = s.cages := rfl
@[simp] theorem logErr_ports (a b d : Nat) (s : State) : (logErr a b d s).ports = s.ports := rfl
@[simp] theorem logErr_retn (a b d : Nat) (s : State) : (logErr a b d s).retn = s.retn := rfl
@[simp] theorem logErr_gar (a b d : Nat) (s : State) : (logErr a b d s).gar = s.gar := rfl
@[simp] theorem logErr_buf (a b d : Nat) (s : State) : (logErr a b d s).buf = s.buf := rfl
@[simp] theorem logErr_sched (a b d : Nat) (s : State) : (logErr a b d s).sched = s.sched := rfl
@[simp] theorem logErr_tbl (a b d : Nat) (s : State) : (logErr a b d s).tbl = s.tbl := rfl
@[simp] theorem logErr_mem (a b d : Nat) (s : State) : (logErr a b d s).mem = s.mem := rfl
@[simp] theorem logErr_obs (a b d : Nat) (s : State) : (logErr a b d s).obs = s.obs := rfl
@[simp] theorem logErr_tim (a b d : Nat) (s : State) : (logErr a b d s).tim = s.tim := rfl
@[simp] theorem logErr_geo (a b d : Nat) (s : State) : (logErr a b d s).geo = s.geo := rfl
@[simp] theorem logErr_adc (a b d : Nat) (s : State) : (logErr a b d s).adc = s.adc := rfl
@[simp] theorem logErr_hreg (a b d : Nat) (s : State) : (logErr a b d s).hreg = s.hreg := rfl
@[simp] theorem logErr_hif (a b d : Nat) (s : State) : (logErr a b d s).hif = s.hif := rfl
@[simp] theorem logErr_hostLog (a b d : Nat) (s : State) : (logErr a b d s).hostLog = s.hostLog := rfl
@[simp] theorem logErr_fl (a b d : Nat) (s : State) : (logErr a b d s).fl = s.fl := rfl
@[simp] theorem logErr_total (a b d : Nat) (s : State) : (logErr a b d s).elog.total = s.elog.total + 1 := rfl

/-- `t` differs from `s` only as `DoneKeeps` allows, in the health causes, the alert causes and the pending proposals. -/
structure CauseKeeps (s t : State) : Prop where
  /-- Kept. -/
  pending : t.pending = s.pending
  /-- Kept. -/
  now : t.now = s.now
  /-- Kept. -/
  free : t.free = s.free
  /-- Kept. -/
  elog : t.elog = s.elog
  /-- Kept. -/
  bed : t.bed = s.bed
  /-- Kept. -/
  otp : t.otp = s.otp
  /-- Kept. -/
  dac : t.dac = s.dac
  /-- Kept. -/
  fuse : t.fuse = s.fuse
  /-- Kept. -/
  rep : t.rep = s.rep
  /-- Kept. -/
  boot : t.boot = s.boot
  /-- Kept. -/
  lanes : t.lanes = s.lanes
  /-- Kept. -/
  cages : t.cages = s.cages
  /-- Kept. -/
  ports : t.ports = s.ports
  /-- Kept. -/
  retn : t.retn = s.retn
  /-- Kept. -/
  buf : t.buf = s.buf
  /-- Kept. -/
  sched : t.sched = s.sched
  /-- Kept. -/
  tbl : t.tbl = s.tbl
  /-- Kept. -/
  mem : t.mem = s.mem
  /-- Kept. -/
  tim : t.tim = s.tim
  /-- Kept. -/
  adc : t.adc = s.adc
  /-- Only pending proposals change. -/
  guard : t.guard = { s.guard with props := t.guard.props }
  /-- Only alert causes change. -/
  mgmt : t.mgmt = { s.mgmt with alert := t.mgmt.alert }
  /-- Only the profiling counters change. -/
  obs : t.obs = { s.obs with prof := t.obs.prof }
  /-- Only the mirror's records change. -/
  geo : t.geo = { s.geo with hold := t.geo.hold, unacked := t.geo.unacked, seq := t.geo.seq }
  /-- Only links change. -/
  gar : t.gar = { s.gar with links := t.gar.links }
  /-- Only the Geode link changes. -/
  link : ∀ n, n ≠ 128 → mfind t.gar.links n = mfind s.gar.links n
  /-- Only HIF_ERR_STATUS changes. -/
  hreg : t.hreg = { s.hreg with err := t.hreg.err }

theorem CauseKeeps.refl (s : State) : CauseKeeps s s := ⟨rfl, rfl, rfl, rfl, rfl, rfl, rfl, rfl, rfl, rfl, rfl, rfl, rfl, rfl, rfl, rfl, rfl, rfl, rfl, rfl, rfl, rfl, rfl, rfl, rfl, fun _ _ => rfl, rfl⟩

theorem CauseKeeps.trans {s t u : State} (h : CauseKeeps s t) (k : CauseKeeps t u) : CauseKeeps s u :=
  ⟨k.pending.trans h.pending, k.now.trans h.now, k.free.trans h.free, k.elog.trans h.elog, k.bed.trans h.bed, k.otp.trans h.otp, k.dac.trans h.dac, k.fuse.trans h.fuse, k.rep.trans h.rep, k.boot.trans h.boot, k.lanes.trans h.lanes, k.cages.trans h.cages, k.ports.trans h.ports, k.retn.trans h.retn, k.buf.trans h.buf, k.sched.trans h.sched, k.tbl.trans h.tbl, k.mem.trans h.mem, k.tim.trans h.tim, k.adc.trans h.adc, by rw [k.guard, h.guard], by rw [k.mgmt, h.mgmt], by rw [k.obs, h.obs], by rw [k.geo, h.geo], by rw [k.gar, h.gar],
    fun n hn => (k.link n hn).trans (h.link n hn), by rw [k.hreg, h.hreg]⟩

theorem DoneKeeps.cause {s t : State} (h : DoneKeeps s t) : CauseKeeps s t :=
  ⟨h.pending, h.now, h.free, h.elog, h.bed, h.otp, h.dac, h.fuse, h.rep, h.boot, h.lanes, h.cages, h.ports, h.retn, h.buf, h.sched, h.tbl, h.mem, h.tim, h.adc, by rw [h.guard], by rw [h.mgmt], h.obs, h.geo, h.gar, h.link, h.hreg⟩

theorem endProposal_cause (i : Nat) (st : Status) (s : State) : CauseKeeps s (endProposal i st s) := by
  unfold endProposal; split
  · exact .refl _
  · refine CauseKeeps.trans (t := (s.mapGuard fun g => { g with props := mdel g.props i }).mapMgmt fun m => { m with alert := m.alert ||| 2 }) ?_ (finish_done _ _ _ _ _ _).cause
    exact ⟨rfl, rfl, rfl, rfl, rfl, rfl, rfl, rfl, rfl, rfl, rfl, rfl, rfl, rfl, rfl, rfl, rfl, rfl, rfl, rfl, rfl, rfl, rfl, rfl, rfl, fun _ _ => rfl, rfl⟩

theorem abortProposals_cause (s : State) : CauseKeeps s (abortProposals s) := by
  unfold abortProposals
  generalize s.guard.props.map (·.1) = l
  induction l generalizing s with
  | nil => exact .refl _
  | cons a l ih => exact (endProposal_cause a .aborted s).trans (ih _)

theorem setCauses_cause (c : BitVec 12) (s : State) : CauseKeeps s (setCauses c s) := by
  unfold setCauses; dsimp only
  split
  · exact ⟨rfl, rfl, rfl, rfl, rfl, rfl, rfl, rfl, rfl, rfl, rfl, rfl, rfl, rfl, rfl, rfl, rfl, rfl, rfl, rfl, rfl, rfl, rfl, rfl, rfl, fun _ _ => rfl, rfl⟩
  · have k : CauseKeeps s ((s.mapHealth fun h => { h with causes := c }).mapMgmt fun m => { m with alert := m.alert ||| 4 }) :=
      ⟨rfl, rfl, rfl, rfl, rfl, rfl, rfl, rfl, rfl, rfl, rfl, rfl, rfl, rfl, rfl, rfl, rfl, rfl, rfl, rfl, rfl, rfl, rfl, rfl, rfl, fun _ _ => rfl, rfl⟩
    split
    · exact (k.trans (post_keeps _ _ _ _ _).done.cause).trans (abortProposals_cause _)
    · exact k.trans (post_keeps _ _ _ _ _).done.cause

theorem putCause_cause (i : Nat) (b : Bool) (s : State) : CauseKeeps s (putCause i b s) := by
  unfold putCause; split <;> exact setCauses_cause _ _

@[simp] theorem endProposal_pending (i : Nat) (st : Status) (s : State) : (endProposal i st s).pending = s.pending := (endProposal_cause i st s).pending
@[simp] theorem endProposal_now (i : Nat) (st : Status) (s : State) : (endProposal i st s).now = s.now := (endProposal_cause i st s).now
@[simp] theorem endProposal_free (i : Nat) (st : Status) (s : State) : (endProposal i st s).free = s.free := (endProposal_cause i st s).free
@[simp] theorem endProposal_elog (i : Nat) (st : Status) (s : State) : (endProposal i st s).elog = s.elog := (endProposal_cause i st s).elog
@[simp] theorem endProposal_bed (i : Nat) (st : Status) (s : State) : (endProposal i st s).bed = s.bed := (endProposal_cause i st s).bed
@[simp] theorem endProposal_otp (i : Nat) (st : Status) (s : State) : (endProposal i st s).otp = s.otp := (endProposal_cause i st s).otp
@[simp] theorem endProposal_dac (i : Nat) (st : Status) (s : State) : (endProposal i st s).dac = s.dac := (endProposal_cause i st s).dac
@[simp] theorem endProposal_fuse (i : Nat) (st : Status) (s : State) : (endProposal i st s).fuse = s.fuse := (endProposal_cause i st s).fuse
@[simp] theorem endProposal_rep (i : Nat) (st : Status) (s : State) : (endProposal i st s).rep = s.rep := (endProposal_cause i st s).rep
@[simp] theorem endProposal_boot (i : Nat) (st : Status) (s : State) : (endProposal i st s).boot = s.boot := (endProposal_cause i st s).boot
@[simp] theorem endProposal_lanes (i : Nat) (st : Status) (s : State) : (endProposal i st s).lanes = s.lanes := (endProposal_cause i st s).lanes
@[simp] theorem endProposal_cages (i : Nat) (st : Status) (s : State) : (endProposal i st s).cages = s.cages := (endProposal_cause i st s).cages
@[simp] theorem endProposal_ports (i : Nat) (st : Status) (s : State) : (endProposal i st s).ports = s.ports := (endProposal_cause i st s).ports
@[simp] theorem endProposal_retn (i : Nat) (st : Status) (s : State) : (endProposal i st s).retn = s.retn := (endProposal_cause i st s).retn
@[simp] theorem endProposal_buf (i : Nat) (st : Status) (s : State) : (endProposal i st s).buf = s.buf := (endProposal_cause i st s).buf
@[simp] theorem endProposal_sched (i : Nat) (st : Status) (s : State) : (endProposal i st s).sched = s.sched := (endProposal_cause i st s).sched
@[simp] theorem endProposal_tbl (i : Nat) (st : Status) (s : State) : (endProposal i st s).tbl = s.tbl := (endProposal_cause i st s).tbl
@[simp] theorem endProposal_mem (i : Nat) (st : Status) (s : State) : (endProposal i st s).mem = s.mem := (endProposal_cause i st s).mem
@[simp] theorem endProposal_tim (i : Nat) (st : Status) (s : State) : (endProposal i st s).tim = s.tim := (endProposal_cause i st s).tim
@[simp] theorem endProposal_adc (i : Nat) (st : Status) (s : State) : (endProposal i st s).adc = s.adc := (endProposal_cause i st s).adc

@[simp] theorem abortProposals_pending (s : State) : (abortProposals s).pending = s.pending := (abortProposals_cause s).pending
@[simp] theorem abortProposals_now (s : State) : (abortProposals s).now = s.now := (abortProposals_cause s).now
@[simp] theorem abortProposals_free (s : State) : (abortProposals s).free = s.free := (abortProposals_cause s).free
@[simp] theorem abortProposals_elog (s : State) : (abortProposals s).elog = s.elog := (abortProposals_cause s).elog
@[simp] theorem abortProposals_bed (s : State) : (abortProposals s).bed = s.bed := (abortProposals_cause s).bed
@[simp] theorem abortProposals_otp (s : State) : (abortProposals s).otp = s.otp := (abortProposals_cause s).otp
@[simp] theorem abortProposals_dac (s : State) : (abortProposals s).dac = s.dac := (abortProposals_cause s).dac
@[simp] theorem abortProposals_fuse (s : State) : (abortProposals s).fuse = s.fuse := (abortProposals_cause s).fuse
@[simp] theorem abortProposals_rep (s : State) : (abortProposals s).rep = s.rep := (abortProposals_cause s).rep
@[simp] theorem abortProposals_boot (s : State) : (abortProposals s).boot = s.boot := (abortProposals_cause s).boot
@[simp] theorem abortProposals_lanes (s : State) : (abortProposals s).lanes = s.lanes := (abortProposals_cause s).lanes
@[simp] theorem abortProposals_cages (s : State) : (abortProposals s).cages = s.cages := (abortProposals_cause s).cages
@[simp] theorem abortProposals_ports (s : State) : (abortProposals s).ports = s.ports := (abortProposals_cause s).ports
@[simp] theorem abortProposals_retn (s : State) : (abortProposals s).retn = s.retn := (abortProposals_cause s).retn
@[simp] theorem abortProposals_buf (s : State) : (abortProposals s).buf = s.buf := (abortProposals_cause s).buf
@[simp] theorem abortProposals_sched (s : State) : (abortProposals s).sched = s.sched := (abortProposals_cause s).sched
@[simp] theorem abortProposals_tbl (s : State) : (abortProposals s).tbl = s.tbl := (abortProposals_cause s).tbl
@[simp] theorem abortProposals_mem (s : State) : (abortProposals s).mem = s.mem := (abortProposals_cause s).mem
@[simp] theorem abortProposals_tim (s : State) : (abortProposals s).tim = s.tim := (abortProposals_cause s).tim
@[simp] theorem abortProposals_adc (s : State) : (abortProposals s).adc = s.adc := (abortProposals_cause s).adc

@[simp] theorem setCauses_pending (c : BitVec 12) (s : State) : (setCauses c s).pending = s.pending := (setCauses_cause c s).pending
@[simp] theorem setCauses_now (c : BitVec 12) (s : State) : (setCauses c s).now = s.now := (setCauses_cause c s).now
@[simp] theorem setCauses_free (c : BitVec 12) (s : State) : (setCauses c s).free = s.free := (setCauses_cause c s).free
@[simp] theorem setCauses_elog (c : BitVec 12) (s : State) : (setCauses c s).elog = s.elog := (setCauses_cause c s).elog
@[simp] theorem setCauses_bed (c : BitVec 12) (s : State) : (setCauses c s).bed = s.bed := (setCauses_cause c s).bed
@[simp] theorem setCauses_otp (c : BitVec 12) (s : State) : (setCauses c s).otp = s.otp := (setCauses_cause c s).otp
@[simp] theorem setCauses_dac (c : BitVec 12) (s : State) : (setCauses c s).dac = s.dac := (setCauses_cause c s).dac
@[simp] theorem setCauses_fuse (c : BitVec 12) (s : State) : (setCauses c s).fuse = s.fuse := (setCauses_cause c s).fuse
@[simp] theorem setCauses_rep (c : BitVec 12) (s : State) : (setCauses c s).rep = s.rep := (setCauses_cause c s).rep
@[simp] theorem setCauses_boot (c : BitVec 12) (s : State) : (setCauses c s).boot = s.boot := (setCauses_cause c s).boot
@[simp] theorem setCauses_lanes (c : BitVec 12) (s : State) : (setCauses c s).lanes = s.lanes := (setCauses_cause c s).lanes
@[simp] theorem setCauses_cages (c : BitVec 12) (s : State) : (setCauses c s).cages = s.cages := (setCauses_cause c s).cages
@[simp] theorem setCauses_ports (c : BitVec 12) (s : State) : (setCauses c s).ports = s.ports := (setCauses_cause c s).ports
@[simp] theorem setCauses_retn (c : BitVec 12) (s : State) : (setCauses c s).retn = s.retn := (setCauses_cause c s).retn
@[simp] theorem setCauses_buf (c : BitVec 12) (s : State) : (setCauses c s).buf = s.buf := (setCauses_cause c s).buf
@[simp] theorem setCauses_sched (c : BitVec 12) (s : State) : (setCauses c s).sched = s.sched := (setCauses_cause c s).sched
@[simp] theorem setCauses_tbl (c : BitVec 12) (s : State) : (setCauses c s).tbl = s.tbl := (setCauses_cause c s).tbl
@[simp] theorem setCauses_mem (c : BitVec 12) (s : State) : (setCauses c s).mem = s.mem := (setCauses_cause c s).mem
@[simp] theorem setCauses_tim (c : BitVec 12) (s : State) : (setCauses c s).tim = s.tim := (setCauses_cause c s).tim
@[simp] theorem setCauses_adc (c : BitVec 12) (s : State) : (setCauses c s).adc = s.adc := (setCauses_cause c s).adc

@[simp] theorem setCause_pending (i : Nat) (s : State) : (setCause i s).pending = s.pending := (setCauses_cause _ s).pending
@[simp] theorem setCause_now (i : Nat) (s : State) : (setCause i s).now = s.now := (setCauses_cause _ s).now
@[simp] theorem setCause_free (i : Nat) (s : State) : (setCause i s).free = s.free := (setCauses_cause _ s).free
@[simp] theorem setCause_elog (i : Nat) (s : State) : (setCause i s).elog = s.elog := (setCauses_cause _ s).elog
@[simp] theorem setCause_bed (i : Nat) (s : State) : (setCause i s).bed = s.bed := (setCauses_cause _ s).bed
@[simp] theorem setCause_otp (i : Nat) (s : State) : (setCause i s).otp = s.otp := (setCauses_cause _ s).otp
@[simp] theorem setCause_dac (i : Nat) (s : State) : (setCause i s).dac = s.dac := (setCauses_cause _ s).dac
@[simp] theorem setCause_fuse (i : Nat) (s : State) : (setCause i s).fuse = s.fuse := (setCauses_cause _ s).fuse
@[simp] theorem setCause_rep (i : Nat) (s : State) : (setCause i s).rep = s.rep := (setCauses_cause _ s).rep
@[simp] theorem setCause_boot (i : Nat) (s : State) : (setCause i s).boot = s.boot := (setCauses_cause _ s).boot
@[simp] theorem setCause_lanes (i : Nat) (s : State) : (setCause i s).lanes = s.lanes := (setCauses_cause _ s).lanes
@[simp] theorem setCause_cages (i : Nat) (s : State) : (setCause i s).cages = s.cages := (setCauses_cause _ s).cages
@[simp] theorem setCause_ports (i : Nat) (s : State) : (setCause i s).ports = s.ports := (setCauses_cause _ s).ports
@[simp] theorem setCause_retn (i : Nat) (s : State) : (setCause i s).retn = s.retn := (setCauses_cause _ s).retn
@[simp] theorem setCause_buf (i : Nat) (s : State) : (setCause i s).buf = s.buf := (setCauses_cause _ s).buf
@[simp] theorem setCause_sched (i : Nat) (s : State) : (setCause i s).sched = s.sched := (setCauses_cause _ s).sched
@[simp] theorem setCause_tbl (i : Nat) (s : State) : (setCause i s).tbl = s.tbl := (setCauses_cause _ s).tbl
@[simp] theorem setCause_mem (i : Nat) (s : State) : (setCause i s).mem = s.mem := (setCauses_cause _ s).mem
@[simp] theorem setCause_tim (i : Nat) (s : State) : (setCause i s).tim = s.tim := (setCauses_cause _ s).tim
@[simp] theorem setCause_adc (i : Nat) (s : State) : (setCause i s).adc = s.adc := (setCauses_cause _ s).adc

@[simp] theorem clearCause_pending (i : Nat) (s : State) : (clearCause i s).pending = s.pending := (setCauses_cause _ s).pending
@[simp] theorem clearCause_now (i : Nat) (s : State) : (clearCause i s).now = s.now := (setCauses_cause _ s).now
@[simp] theorem clearCause_free (i : Nat) (s : State) : (clearCause i s).free = s.free := (setCauses_cause _ s).free
@[simp] theorem clearCause_elog (i : Nat) (s : State) : (clearCause i s).elog = s.elog := (setCauses_cause _ s).elog
@[simp] theorem clearCause_bed (i : Nat) (s : State) : (clearCause i s).bed = s.bed := (setCauses_cause _ s).bed
@[simp] theorem clearCause_otp (i : Nat) (s : State) : (clearCause i s).otp = s.otp := (setCauses_cause _ s).otp
@[simp] theorem clearCause_dac (i : Nat) (s : State) : (clearCause i s).dac = s.dac := (setCauses_cause _ s).dac
@[simp] theorem clearCause_fuse (i : Nat) (s : State) : (clearCause i s).fuse = s.fuse := (setCauses_cause _ s).fuse
@[simp] theorem clearCause_rep (i : Nat) (s : State) : (clearCause i s).rep = s.rep := (setCauses_cause _ s).rep
@[simp] theorem clearCause_boot (i : Nat) (s : State) : (clearCause i s).boot = s.boot := (setCauses_cause _ s).boot
@[simp] theorem clearCause_lanes (i : Nat) (s : State) : (clearCause i s).lanes = s.lanes := (setCauses_cause _ s).lanes
@[simp] theorem clearCause_cages (i : Nat) (s : State) : (clearCause i s).cages = s.cages := (setCauses_cause _ s).cages
@[simp] theorem clearCause_ports (i : Nat) (s : State) : (clearCause i s).ports = s.ports := (setCauses_cause _ s).ports
@[simp] theorem clearCause_retn (i : Nat) (s : State) : (clearCause i s).retn = s.retn := (setCauses_cause _ s).retn
@[simp] theorem clearCause_buf (i : Nat) (s : State) : (clearCause i s).buf = s.buf := (setCauses_cause _ s).buf
@[simp] theorem clearCause_sched (i : Nat) (s : State) : (clearCause i s).sched = s.sched := (setCauses_cause _ s).sched
@[simp] theorem clearCause_tbl (i : Nat) (s : State) : (clearCause i s).tbl = s.tbl := (setCauses_cause _ s).tbl
@[simp] theorem clearCause_mem (i : Nat) (s : State) : (clearCause i s).mem = s.mem := (setCauses_cause _ s).mem
@[simp] theorem clearCause_tim (i : Nat) (s : State) : (clearCause i s).tim = s.tim := (setCauses_cause _ s).tim
@[simp] theorem clearCause_adc (i : Nat) (s : State) : (clearCause i s).adc = s.adc := (setCauses_cause _ s).adc

@[simp] theorem putCause_pending (i : Nat) (b : Bool) (s : State) : (putCause i b s).pending = s.pending := (putCause_cause i b s).pending
@[simp] theorem putCause_now (i : Nat) (b : Bool) (s : State) : (putCause i b s).now = s.now := (putCause_cause i b s).now
@[simp] theorem putCause_free (i : Nat) (b : Bool) (s : State) : (putCause i b s).free = s.free := (putCause_cause i b s).free
@[simp] theorem putCause_elog (i : Nat) (b : Bool) (s : State) : (putCause i b s).elog = s.elog := (putCause_cause i b s).elog
@[simp] theorem putCause_bed (i : Nat) (b : Bool) (s : State) : (putCause i b s).bed = s.bed := (putCause_cause i b s).bed
@[simp] theorem putCause_otp (i : Nat) (b : Bool) (s : State) : (putCause i b s).otp = s.otp := (putCause_cause i b s).otp
@[simp] theorem putCause_dac (i : Nat) (b : Bool) (s : State) : (putCause i b s).dac = s.dac := (putCause_cause i b s).dac
@[simp] theorem putCause_fuse (i : Nat) (b : Bool) (s : State) : (putCause i b s).fuse = s.fuse := (putCause_cause i b s).fuse
@[simp] theorem putCause_rep (i : Nat) (b : Bool) (s : State) : (putCause i b s).rep = s.rep := (putCause_cause i b s).rep
@[simp] theorem putCause_boot (i : Nat) (b : Bool) (s : State) : (putCause i b s).boot = s.boot := (putCause_cause i b s).boot
@[simp] theorem putCause_lanes (i : Nat) (b : Bool) (s : State) : (putCause i b s).lanes = s.lanes := (putCause_cause i b s).lanes
@[simp] theorem putCause_cages (i : Nat) (b : Bool) (s : State) : (putCause i b s).cages = s.cages := (putCause_cause i b s).cages
@[simp] theorem putCause_ports (i : Nat) (b : Bool) (s : State) : (putCause i b s).ports = s.ports := (putCause_cause i b s).ports
@[simp] theorem putCause_retn (i : Nat) (b : Bool) (s : State) : (putCause i b s).retn = s.retn := (putCause_cause i b s).retn
@[simp] theorem putCause_buf (i : Nat) (b : Bool) (s : State) : (putCause i b s).buf = s.buf := (putCause_cause i b s).buf
@[simp] theorem putCause_sched (i : Nat) (b : Bool) (s : State) : (putCause i b s).sched = s.sched := (putCause_cause i b s).sched
@[simp] theorem putCause_tbl (i : Nat) (b : Bool) (s : State) : (putCause i b s).tbl = s.tbl := (putCause_cause i b s).tbl
@[simp] theorem putCause_mem (i : Nat) (b : Bool) (s : State) : (putCause i b s).mem = s.mem := (putCause_cause i b s).mem
@[simp] theorem putCause_tim (i : Nat) (b : Bool) (s : State) : (putCause i b s).tim = s.tim := (putCause_cause i b s).tim
@[simp] theorem putCause_adc (i : Nat) (b : Bool) (s : State) : (putCause i b s).adc = s.adc := (putCause_cause i b s).adc

end Sys2Proof.Machine
end

