-- ==== Sys2Proof/Laws/Memory.lean ====
section
/-! SUPPORT. What the operations over a memory do: each keeps the canonical form, and a written byte is the only one that changes. -/
namespace Sys2Proof.Machine

/-- The canonical form from an address on holds from every lower one on. -/
theorem Memory.wfFrom_mono {m : Memory} {lo hi : Nat} (h : lo ≤ hi) (hm : m.wfFrom hi = true) : m.wfFrom lo = true := by
  cases m with
  | nil => rfl
  | cons e r =>
    obtain ⟨a, b⟩ := e
    simp only [Memory.wfFrom, Bool.and_eq_true, decide_eq_true_eq] at hm ⊢
    exact ⟨⟨by omega, hm.1.2⟩, hm.2⟩

/-- An address below the first listed one reads as 0. -/
theorem Memory.get_below {m : Memory} {lo k : Nat} (h : k < lo) (hm : m.wfFrom lo = true) : m.get k = 0 := by
  induction m generalizing lo with
  | nil => rfl
  | cons e r ih =>
    obtain ⟨a, b⟩ := e
    simp only [Memory.wfFrom, Bool.and_eq_true, decide_eq_true_eq] at hm
    rw [Memory.get, if_neg (by omega)]
    exact ih (by omega) hm.2

/-- Writing a byte keeps the canonical form from an address at or below it. -/
theorem Memory.put_wfFrom {m : Memory} {lo k : Nat} (v : Byte) (h : lo ≤ k) (hm : m.wfFrom lo = true) : (m.put k v).wfFrom lo = true := by
  induction m generalizing lo with
  | nil =>
    by_cases hv : v = 0
    · simp only [Memory.put, if_pos hv, Memory.wfFrom]
    · simp only [Memory.put, if_neg hv, Memory.wfFrom, Bool.and_true, Bool.and_eq_true, decide_eq_true_eq]
      exact ⟨h, hv⟩
  | cons e r ih =>
    obtain ⟨a, b⟩ := e
    simp only [Memory.wfFrom, Bool.and_eq_true, decide_eq_true_eq] at hm
    by_cases h1 : k < a
    · by_cases hv : v = 0
      · simp only [Memory.put, Memory.wfFrom, if_pos h1, if_pos hv, Bool.and_eq_true, decide_eq_true_eq]
        exact hm
      · simp only [Memory.put, Memory.wfFrom, if_pos h1, if_neg hv, Bool.and_eq_true, decide_eq_true_eq]
        exact ⟨⟨h, hv⟩, ⟨by omega, hm.1.2⟩, hm.2⟩
    · by_cases h2 : k = a
      · by_cases hv : v = 0
        · simp only [Memory.put, if_neg h1, if_pos h2, if_pos hv]
          exact Memory.wfFrom_mono (by omega) hm.2
        · simp only [Memory.put, Memory.wfFrom, if_neg h1, if_pos h2, if_neg hv, Bool.and_eq_true, decide_eq_true_eq]
          exact ⟨⟨h, hv⟩, by rw [h2]; exact hm.2⟩
      · simp only [Memory.put, Memory.wfFrom, if_neg h1, if_neg h2, Bool.and_eq_true, decide_eq_true_eq]
        exact ⟨hm.1, ih (by omega) hm.2⟩

/-- Writing a byte keeps the canonical form. -/
theorem Memory.put_wf {m : Memory} (k : Nat) (v : Byte) (hm : m.wf = true) : (m.put k v).wf = true :=
  Memory.put_wfFrom v (Nat.zero_le k) hm

/-- Writing bytes keeps the canonical form. -/
theorem Memory.putBytes_wf {m : Memory} (k : Nat) (l : List Byte) (hm : m.wf = true) : (m.putBytes k l).wf = true := by
  induction l generalizing m k with
  | nil => exact hm
  | cons b r ih => exact ih (k + 1) (Memory.put_wf k b hm)

/-- A written byte reads back, and every other one is as before, from an address at or below it. -/
theorem Memory.get_put_from {m : Memory} {lo k : Nat} (v : Byte) (x : Nat) (h : lo ≤ k) (hm : m.wfFrom lo = true) :
    (m.put k v).get x = if x = k then v else m.get x := by
  induction m generalizing lo with
  | nil =>
    by_cases hv : v = 0
    · simp only [Memory.put, if_pos hv, Memory.get]
      split <;> first | exact hv.symm | rfl
    · simp only [Memory.put, if_neg hv, Memory.get]
  | cons e r ih =>
    obtain ⟨a, b⟩ := e
    simp only [Memory.wfFrom, Bool.and_eq_true, decide_eq_true_eq] at hm
    have hr : ∀ y, y ≤ a → Memory.get r y = 0 := fun y hy => Memory.get_below (lo := a + 1) (by omega) hm.2
    by_cases h1 : k < a
    · by_cases hv : v = 0
      · simp only [Memory.put, if_pos h1, if_pos hv]
        by_cases hx : x = k
        · rw [if_pos hx, Memory.get, if_neg (by omega), hr x (by omega), hv]
        · rw [if_neg hx]
      · simp only [Memory.put, if_pos h1, if_neg hv]
        rw [Memory.get]
    · by_cases h2 : k = a
      · by_cases hv : v = 0
        · simp only [Memory.put, if_neg h1, if_pos h2, if_pos hv]
          by_cases hx : x = k
          · rw [if_pos hx, hr x (by omega), hv]
          · rw [if_neg hx, Memory.get, if_neg (by omega)]
        · simp only [Memory.put, if_neg h1, if_pos h2, if_neg hv, Memory.get]
          by_cases hx : x = k
          · rw [if_pos hx, if_pos hx]
          · rw [if_neg hx, if_neg hx, if_neg (by omega)]
      · simp only [Memory.put, if_neg h1, if_neg h2, Memory.get]
        by_cases hx : x = a
        · rw [if_pos hx, if_neg (by omega), if_pos hx]
        · rw [if_neg hx, if_neg hx]
          exact ih (by omega) hm.2

/-- A written byte reads back, and every other one is as before. -/
theorem Memory.get_put {m : Memory} (k : Nat) (v : Byte) (x : Nat) (hm : m.wf = true) :
    (m.put k v).get x = if x = k then v else m.get x :=
  Memory.get_put_from v x (Nat.zero_le k) hm

end Sys2Proof.Machine
end

