-- ==== Sys2Proof/Laws/Power.lean ====
section
/-! SUPPORT. What the resets of Machine/PowerOps.lean clear and keep. -/
namespace Sys2Proof.Machine

@[simp] theorem coreClear_pending (s : State) : (coreClear s).pending = s.pending := rfl
@[simp] theorem coreClear_now (s : State) : (coreClear s).now = s.now := rfl
@[simp] theorem coreClear_free (s : State) : (coreClear s).free = s.free := rfl
@[simp] theorem coreClear_hostLog (s : State) : (coreClear s).hostLog = s.hostLog := rfl
@[simp] theorem coreClear_elog (s : State) : (coreClear s).elog = s.elog := rfl
@[simp] theorem coreClear_bed (s : State) : (coreClear s).bed = s.bed := rfl
@[simp] theorem coreClear_health (s : State) : (coreClear s).health = s.health := rfl
@[simp] theorem coreClear_otp (s : State) : (coreClear s).otp = s.otp := rfl
@[simp] theorem coreClear_guard (s : State) : (coreClear s).guard = s.guard := rfl
@[simp] theorem coreClear_mgmt (s : State) : (coreClear s).mgmt = s.mgmt := rfl
@[simp] theorem coreClear_dac (s : State) : (coreClear s).dac = s.dac := rfl
@[simp] theorem coreClear_fuse (s : State) : (coreClear s).fuse = s.fuse := rfl
@[simp] theorem coreClear_rep (s : State) : (coreClear s).rep = s.rep := rfl
@[simp] theorem coreClear_retn (s : State) : (coreClear s).retn = s.retn := rfl
@[simp] theorem coreClear_boot (s : State) : (coreClear s).boot = Boot.init := rfl
@[simp] theorem coreClear_hif (s : State) : (coreClear s).hif = Hif.init := rfl
@[simp] theorem coreClear_fl (s : State) : (coreClear s).fl = Flight.init := rfl
@[simp] theorem coreClear_lanes (s : State) : (coreClear s).lanes = LaneBank.init := rfl
@[simp] theorem coreClear_ports (s : State) : (coreClear s).ports = PortBank.init := rfl
@[simp] theorem coreClear_gar (s : State) : (coreClear s).gar = Garnet.init := rfl
@[simp] theorem coreClear_buf (s : State) : (coreClear s).buf = Buffer.init := rfl
@[simp] theorem coreClear_sched (s : State) : (coreClear s).sched = Sched.init := rfl
@[simp] theorem coreClear_tbl (s : State) : (coreClear s).tbl = Tables.init := rfl
@[simp] theorem coreClear_mem (s : State) : (coreClear s).mem = Mem.init := rfl
@[simp] theorem coreClear_obs (s : State) : (coreClear s).obs = Obs.init := rfl
@[simp] theorem coreClear_tim (s : State) : (coreClear s).tim = Tim.init := rfl
@[simp] theorem coreClear_adc (s : State) : (coreClear s).adc = Adc.init := rfl
@[simp] theorem coreClear_cages (s : State) :
    (coreClear s).cages = if s.bed.cageHeld then heldPins s.cages else CageBank.init := rfl

/-- With no command in flight a completion changes nothing. -/
theorem finish_none (id : Nat) (st : Status) (a b : BitVec 64) (e : Bool) (s : State) (h : s.fl.cmds = []) : finish id st a b e s = s := by
  simp [finish, finishOne, h, mfind, settleDeletes]

/-- With no command in flight the end of a proposal removes it and sets alert cause [9]. -/
theorem endProposal_none (i : Nat) (st : Status) (s : State) (h : s.fl.cmds = []) (p : Proposal) (hp : mfind s.guard.props i = some p) :
    endProposal i st s = (s.mapGuard fun g => { g with props := mdel g.props i }).mapMgmt fun m => { m with alert := m.alert ||| 2 } := by
  simp only [endProposal, hp]
  exact finish_none _ _ _ _ _ _ h

theorem abortFold_none (l : List Nat) (s : State) (h : s.fl.cmds = []) :
    ∃ ps al, l.foldl (fun s i => endProposal i .aborted s) s =
      (s.mapGuard fun g => { g with props := ps }).mapMgmt (fun m => { m with alert := al }) ∧
      ∀ e, e ∈ ps ↔ e ∈ s.guard.props ∧ (e.1 ∈ l → mfind s.guard.props e.1 = none) := by
  induction l generalizing s with
  | nil => exact ⟨s.guard.props, s.mgmt.alert, rfl, by simp⟩
  | cons a l ih =>
    simp only [List.foldl_cons]
    cases hp : mfind s.guard.props a with
    | none =>
      have e : endProposal a .aborted s = s := by simp [endProposal, hp]
      rw [e]
      obtain ⟨ps, al, k, m⟩ := ih s h
      refine ⟨ps, al, k, fun x => ?_⟩
      rw [m]
      by_cases hx : x.1 = a
      · simp [hx, hp]
      · simp [hx]
    | some p =>
      rw [endProposal_none a _ s h p hp]
      obtain ⟨ps, al, k, m⟩ := ih ((s.mapGuard fun g => { g with props := mdel g.props a }).mapMgmt fun m => { m with alert := m.alert ||| 2 }) h
      refine ⟨ps, al, k, fun x => ?_⟩
      rw [m]
      have del : ∀ (q : Map Proposal) (j : Nat), mfind (mdel q a) j = if j = a then none else mfind q j := by
        intro q j
        induction q with
        | nil => simp [mdel, mfind]
        | cons y r ihq =>
          obtain ⟨z, v⟩ := y
          unfold mdel at ihq ⊢
          simp only [List.filter_cons]
          by_cases hz : z = a
          · subst hz
            simp only [ne_eq, not_true_eq_false, decide_false, Bool.false_eq_true, if_false, ihq, mfind]
            split <;> simp_all
          · simp only [ne_eq, hz, not_false_eq_true, decide_true, if_true, mfind, ihq]
            split <;> split <;> simp_all
      simp only [State.mapMgmt_guard, State.mapGuard_guard, del]
      by_cases hx : x.1 = a
      · simp [hx, hp, mdel]
      · simp [hx, mdel]

/-- With no command in flight the abort of every proposal leaves none, and nothing else of the guard changes. -/
theorem abortProposals_none (s : State) (h : s.fl.cmds = []) :
    ∃ al, abortProposals s = (s.mapGuard fun g => { g with props := [] }).mapMgmt fun m => { m with alert := al } := by
  obtain ⟨ps, al, k, m⟩ := abortFold_none (s.guard.props.map (·.1)) s h
  have e : ps = [] := by
    rw [List.eq_nil_iff_forall_not_mem]
    intro x hx
    obtain ⟨i, j⟩ := (m x).1 hx
    have f := j (List.mem_map.2 ⟨x, i, rfl⟩)
    have g : ∀ (q : Map Proposal), x ∈ q → mfind q x.1 ≠ none := by
      intro q
      induction q with
      | nil => simp
      | cons y r ih =>
        intro hm
        simp only [mfind]
        split
        · simp
        · rcases List.mem_cons.1 hm with rfl | hm
          · simp_all
          · exact ih hm
    exact g _ i f
  exact ⟨al, by rw [abortProposals, k, e]⟩

/-- What PERST_N and core reset leave: the cleared device, the Bedrock state, no proposal, and the items of Table 20.5 restored. -/
theorem outerReset_eq (s : State) : ∃ al,
    outerReset s = (((coreClear s).mapRetn fun _ => Retain.init).mapGuard fun g =>
      { g with props := [], dmaRestrict := false, windows := [], masks := [], bar4 := false, debug := false
               otpProg := g.otpProg.map fun p => (p.1, p.2.1, none) }).mapMgmt fun m => { m with alert := al } := by
  obtain ⟨al, h⟩ := abortProposals_none ((coreClear s).mapRetn fun _ => Retain.init) rfl
  exact ⟨al, by rw [outerReset, h]; rfl⟩

end Sys2Proof.Machine
end

