-- ==== Sys2Proof/Machine/Balls.lean ====
section
/-! DEFINITION. The ball map of the package: what each of the 6,400 balls carries (R31 to R39, Tables 2.2 to 2.7). -/
namespace Sys2Proof.Machine

/-- A supply net, or ground (Table 2.7). -/
inductive Net where
  | vddCore | vddSram | vddLaneA | vddLaneH | vddGar | vddHbm | vddqHbm | vddPcie | vddBedrock | vddioCage | vddioMgmt | vddioAux | vss
deriving DecidableEq, Repr

/-- The five open-drain, one push-pull and two input pins of a cage (Table 2.3). -/
inductive CagePin where
  | scl | sda | prsN | intN | rstN | lpm | pwren
deriving DecidableEq, Repr

/-- A single signal of the two eastern corners (Table 2.5, R37). -/
inductive Corner where
  | refclkPcie (n : Bool) | refclkOpt (n : Bool) | refclkGar (n : Bool) | bedrockClk | porN | perstN | clkreqN | wakeN | thermtripN | svcReqN
  | ppsIn | ppsOut (k : Nat) | synce (k : Nat) (n : Bool) | smbScl | smbSda | smbAlertN | mgmtAddr (k : Nat) | auxDac (m : Nat) | auxAdc (m : Nat)
  | avsClk | avsMdata | avsSdata | jtagTck | jtagTms | jtagTdi | jtagTdo | jtagTrstN | testEn
deriving DecidableEq, Repr

/-- What a ball carries; of a pair, `n` is its N ball. -/
inductive Ball where
  /-- A supply or ground. -/
  | supply (net : Net)
  /-- OLk_RXP or OLk_RXN. -/
  | laneRx (k : Nat) (n : Bool)
  /-- OLk_TXP or OLk_TXN. -/
  | laneTx (k : Nat) (n : Bool)
  /-- A control pin of cage Cc. -/
  | cage (c : Nat) (pin : CagePin)
  /-- GPp_P or GPp_N. -/
  | garnet (p : Nat) (n : Bool)
  /-- GDq_P or GDq_N. -/
  | geode (q : Nat) (n : Bool)
  /-- PE_TXk or PE_RXk. -/
  | pcie (rx : Bool) (k : Nat) (n : Bool)
  /-- A single signal of a corner. -/
  | corner (signal : Corner)
deriving DecidableEq, Repr

/-- A ball of ground. -/
abbrev vssBall : Ball := .supply .vss

/-- The contents of block position (d, j) of cage Cc (R33, Table 2.3). -/
def blockBall (c d j : Nat) : Ball :=
  if j = 2 ∧ d ≤ 10 ∨ d = 5 ∨ d = 6 then vssBall
  else if d ≤ 4 then .laneRx (8 * c + 2 * d - 2 + j / 3) (j % 3 = 1)
  else if d ≤ 10 then .laneTx (8 * c + 2 * d - 14 + j / 3) (j % 3 = 1)
  else if d = 11 then .cage c (([.scl, .sda, .prsN, .intN, .rstN] : List CagePin).getD j .scl)
  else ([.cage c .lpm, .cage c .pwren, .supply .vddioCage] : List Ball).getD j vssBall

/-- The ball at depth d and t balls along the sweep of a lane band, whose first cage is c0 (R34). -/
def bandBall (d t c0 blocks : Nat) : Ball :=
  if 5 * blocks ≤ t then vssBall else blockBall (c0 + t / 5) d (t % 5)

/-- Rows 1 and 3 of Table 2.5, columns 65 to 77: the PCIe pairs, each between two ground balls. -/
def pcieBall (rx : Bool) (m : Nat) : Ball :=
  if m % 3 = 0 then vssBall else .pcie rx (m / 3) (m % 3 = 2)

/-- Rows 5, 6 and 8 of Table 2.5, by column - 65. -/
def cornerRow5 : List Ball :=
  [vssBall, .corner (.refclkOpt false), .corner (.refclkOpt true), vssBall, .corner (.refclkGar false), .corner (.refclkGar true), vssBall,
   .corner .bedrockClk, vssBall, .corner .porN, .corner .thermtripN, .corner .svcReqN, vssBall, vssBall, vssBall, vssBall]

@[inherit_doc cornerRow5] def cornerRow6 : List Ball :=
  [.corner .ppsIn, .corner (.ppsOut 0), .corner (.ppsOut 1), vssBall, .corner (.synce 0 false), .corner (.synce 0 true), vssBall,
   .corner (.synce 1 false), .corner (.synce 1 true), vssBall, .corner .smbScl, .corner .smbSda, .corner .smbAlertN,
   .corner (.mgmtAddr 0), .corner (.mgmtAddr 1), .supply .vddioMgmt]

@[inherit_doc cornerRow5] def cornerRow8 : List Ball :=
  ((List.range 8).map fun m => Ball.corner (.auxAdc m)) ++
  [vssBall, .supply .vddioAux, .supply .vddioAux, .corner .avsClk, .corner .avsMdata, .corner .avsSdata, .supply .vddioMgmt, vssBall]

/-- The north-east corner, by row and column - 65 (R36, Table 2.5). -/
def northEast (row m : Nat) : Ball :=
  match row with
  | 1 => if m ≤ 12 then pcieBall false m else
      ([.corner (.refclkPcie false), .corner (.refclkPcie true)] : List Ball).getD (m - 13) vssBall
  | 2 => if m % 2 = 0 then vssBall else .supply .vddBedrock
  | 3 => if m ≤ 12 then pcieBall true m else
      ([.corner .perstN, .corner .clkreqN, .corner .wakeN] : List Ball).getD (m - 13) vssBall
  | 4 => if m % 2 = 0 then vssBall else .supply .vddPcie
  | 5 => cornerRow5.getD m vssBall
  | 6 => cornerRow6.getD m vssBall
  | 7 => .corner (.auxDac m)
  | _ => cornerRow8.getD m vssBall

/-- The south-east corner, by row and column - 65 (R37). -/
def southEast (row m : Nat) : Ball :=
  if row = 80 then
    (([.corner .jtagTck, .corner .jtagTms, .corner .jtagTdi, .corner .jtagTdo, .corner .jtagTrstN, .corner .testEn] : List Ball)).getD m vssBall
  else if (row = 75 ∨ row = 78) ∧ (m % 4 = 1 ∨ m % 4 = 2) then .geode (m / 4 + (if row = 78 then 4 else 0)) (m % 4 = 2)
  else vssBall

/-- The Garnet band, by row and column - 65 (R35). -/
def garnetBall (row m : Nat) : Ball :=
  if m % 4 = 1 ∨ m % 4 = 2 then .garnet (64 * (m / 4) + row - 9) (m % 4 = 2) else vssBall

/-- A ball of an area whose odd positions (row + column) carry one net and whose even positions another. -/
def checkered (row col : Nat) (odd even : Net) : Ball := .supply (if (row + col) % 2 = 1 then odd else even)

/-- A ball of the lane supply ring at depth e (Table 2.6). -/
def ringBall (row col e : Nat) : Ball :=
  match e with
  | 1 => checkered row col .vddLaneH .vss
  | 2 => checkered row col .vddLaneA .vddLaneH
  | _ => checkered row col .vddLaneA .vss

/-- The core (R38, Table 2.6). -/
def coreBall (row col : Nat) : Ball :=
  if row ≤ 16 then ringBall row col (row - 12)
  else if 65 ≤ row then ringBall row col (69 - row)
  else if col ≤ 16 then ringBall row col (col - 12)
  else if 57 ≤ col then checkered row col .vddGar .vss
  else if 37 ≤ row ∧ row ≤ 44 then checkered row col .vddSram .vss
  else if (row ≤ 26 ∨ 55 ≤ row) ∧ (col ≤ 24 ∨ 49 ≤ col) then
    checkered row col (if row ≤ 21 ∨ 55 ≤ row ∧ row ≤ 59 then .vddHbm else .vddqHbm) .vss
  else if col % 4 = 0 then vssBall else .supply .vddCore

/-- What the ball at a row and column, each 1 to 80, carries (R32 to R38). -/
def ball (row col : Nat) : Ball :=
  if row ≤ 12 ∧ col ≤ 64 then bandBall row (64 - col) 0 11
  else if 69 ≤ row ∧ col ≤ 64 then (if col < 10 then vssBall else bandBall (81 - row) (col - 10) 21 11)
  else if col ≤ 12 then (if row < 16 then vssBall else bandBall col (row - 16) 11 10)
  else if 65 ≤ col ∧ row ≤ 8 then northEast row (col - 65)
  else if 65 ≤ col ∧ 73 ≤ row then southEast row (col - 65)
  else if 65 ≤ col then garnetBall row (col - 65)
  else coreBall row col

/-- How many balls of a row answer a test. -/
def rowCount (f : Ball → Bool) (row : Nat) : Nat := (List.range' 1 80).countP fun col => f (ball row col)

/-- How many balls of the package answer a test (R39). -/
def ballCount (f : Ball → Bool) : Nat := ((List.range' 1 80).map (rowCount f)).sum

/-- A ball of one net. -/
def onNet (net : Net) (b : Ball) : Bool := decide (b = .supply net)

/-- A signal ball. -/
def isSignal : Ball → Bool
  | .supply _ => false
  | _ => true

end Sys2Proof.Machine
end

