-- ==== Sys2Proof/Tests/Slice0.lean ====
section
/-! SUPPORT. Tests of the model on small states, and for every statement a state and operands that meet the hypotheses of each of its
clauses. -/
namespace Sys2Proof.Tests
open Sys2Proof Sys2Proof.Machine
set_option Elab.async false

/-! ## Small states -/

/-- A submission entry: opcode, FLAGS, TARGET, IND_LEN, IND_ADDR, and fields (offset, length, value). -/
def entry (op fl tgt il ia : Nat) (fs : List (Nat × Nat × Nat)) : List Byte :=
  fs.foldl (fun l f => patch l f.1 (leBytes f.2.1 f.2.2))
    ([BitVec.ofNat 8 op, BitVec.ofNat 8 fl, 5, 0] ++ leBytes 4 tgt ++ zeros 12 ++ leBytes 4 il ++ leBytes 8 ia ++ zeros 32)
/-- A command that has been fetched and may begin. -/
def cmd (op fl tgt il ia : Nat) (fs : List (Nat × Nat × Nat)) : Cmd := { Cmd.init with entry := entry op fl tgt il ia fs, phase := .ready }
/-- The state with one command in flight, fetch number 7. -/
def withCmd (c : Cmd) (s : State) : State := s.mapFl fun f => { f with cmds := [(7, c)] }
/-- A port that is UP. -/
def upPort : Port := { Port.init with state := .up }
/-- A link that carries traffic on pair 0. -/
def upLink : Link := { Link.init with up := true, running := true, heard := true, pairs := [(0, { Pair.init with state := .active })] }
/-- A device that runs: port 0 with its queues and scheduler nodes, link 0 up, an EXACT table, ring 0 and EVQ. -/
def up : State :=
  { State.reset with
    bed := { Bed.init with porAsserted := false, perstPin := false, running := true, clkChecked := true, bedrockUp := true, auxValid := true }
    boot := { Boot.init with started := true, fwReady := true, pcieTrain := true, initDone := BitVec.allOnes 69 }
    hif := { Hif.init with hostReady := true, rings := [(0, Ring.init)], evqExists := true }
    hreg := { Hreg.init with hifEnable := true }
    lanes := { LaneBank.init with tab := [(0, { Lane.init with port := some 0, state := .acquired, ready := true, tx := .transmitting })] }
    cages := { CageBank.init with tab := [(0, { Cage.init with state := .ready, present := true, pwren := true })] }
    ports := { PortBank.init with tab := [(0, upPort)] }
    gar := { Garnet.init with links := [(0, upLink), (128, upLink)] }
    buf := { Buffer.init with iq := (List.range 8).map fun q => (q, Queue.init), eq := [(0, Queue.init)] }
    sched := { Sched.init with nodes := [1, 2, 3, 4].map fun t => (t * 2 ^ 28, Node.init) }
    tbl := { Tables.init with tables := [(1, { Table.init with kind := 2, size := 8, banks := [0] })] }
    tim := { Tim.init with blockOn := true, running := true } }
/-- A GARNET page of a type, for a pair's index (Table 9.7), with a nonce. -/
def pageB (ty ki nonce : Nat) : List Byte :=
  let b := ([0x11, BitVec.ofNat 8 ty, 0, BitVec.ofNat 8 ki] ++ beBytes 4 nonce ++ zeros 5 ++ [1, 0, 0, 1, 0] ++ zeros 10 : List Byte)
  b ++ beBytes 4 (crc32c b).toNat
/-- A flit with a header word and a payload of zeros. -/
def flitB (h : Nat) : List Byte := let b := beBytes 4 h ++ zeros 248; b ++ beBytes 4 (crc32c b).toNat
/-- A status word of a step, its CRC-8 in place. -/
def stepB (w : Nat) : Nat := w + statusCrc w
/-- The measurement of every slice at zero. -/
def zeroMeas : List Meas := (List.range 68).map fun _ => ⟨⟨0, 0⟩, ⟨0, 0⟩, ⟨0, 0⟩⟩
/-- A packet record of 64 bytes for egress queue `q`, with a class byte `b`. -/
def recB (b q : Nat) : List Byte := [0x11, BitVec.ofNat 8 b] ++ beBytes 2 q ++ [0, 0, 0, 64] ++ zeros 8 ++ zeros 64
/-- A Geode record of a kind: kind byte, a byte, and `n` more bytes. -/
def geoB (k b n : Nat) : List Byte := [BitVec.ofNat 8 k, BitVec.ofNat 8 b] ++ zeros n
/-- The bytes of a 32-bit number, read back in wire order. -/
theorem beNat_beBytes (n : Nat) (h : n < 2 ^ 32) : beNat (beBytes 4 n) = n := by
  simp [beNat, beBytes, leBytes, BitVec.toNat_ofNat]
  omega
/-- A flit built here carries its own CRC-32C. -/
theorem flitB_crc (h : Nat) : wireAt (flitB h) 252 4 = (crc32c ((flitB h).take 252)).toNat := by
  have hl : (beBytes 4 h ++ zeros 248).length = 252 := by
    rw [List.length_append, show (zeros 248).length = 248 from List.length_replicate, beBytes, List.length_reverse]; rfl
  have ht : (flitB h).take 252 = beBytes 4 h ++ zeros 248 := by
    rw [flitB, ← hl, List.take_left]
  have hd : (flitB h).drop 252 = beBytes 4 (crc32c (beBytes 4 h ++ zeros 248)).toNat := by
    rw [flitB, ← hl, List.drop_left]
  rw [wireAt, slice, ht, hd, List.take_of_length_le (by simp [beBytes, leBytes])]
  exact beNat_beBytes _ (BitVec.isLt _)
/-- A frame given its FCS is a frame whose FCS is correct. -/
theorem withFcs_ok (l : List Byte) : fcsOk (withFcs l) = true := by
  have hf : (fcsOf (body l)).length = 4 := by simp [fcsOf, leBytes]
  have hb : (withFcs l).length - 4 = (body l).length := by simp [withFcs, hf]
  have h1 : body (withFcs l) = body l := by
    show (withFcs l).take ((withFcs l).length - 4) = body l
    rw [hb, withFcs, List.take_left]
  have h2 : (withFcs l).drop ((withFcs l).length - 4) = fcsOf (body l) := by
    rw [hb, withFcs, List.drop_left]
  simp [fcsOk, h1, h2]
  simp [withFcs, hf]
/-- The invariant of the device holds of `up`. -/
theorem up_inv : Inv up where
  memories := ⟨by decide, by decide⟩
  clock := by decide
  setPoint := by unfold setPointOk; decide
  requested := by unfold setPointOk; decide
  previous := by unfold setPointOk; decide
  retry := by intro mv h; exact absurd h (by simp [up, Bed.init])
  address := by decide
/-- A row with a unit that has read uncorrectable qualifies for repair. -/
theorem rowQualifies_bad (u m : Nat) (s : State) (hm : u / 2 ^ 29 = m) (h : (stack s m).errs = [{ unit := u, time := 0, bad := true }]) :
    rowQualifies s m (channelOf u) (Config.hbmRow u).1 (Config.hbmRow u).2 = true := by
  unfold rowQualifies
  rw [h]
  simp only [inRow, List.filter, hm]
  simp

/-! ## The well-formedness check refuses an ill-formed operand of each kind -/

/-- One command for each kind of operand, its number just past the last that exists. -/
theorem test_wf_refuses_each :
    [Instr.calRetry 256, .portAlignLock 256, .modulePresent 32, .reorderTimeout 64, .quietEnd 0 8, .groupBRailLoss 12, .refclkLost 3, .pllUnlock 45,
   .thermtrip 40 0, .hbmTrainAttemptEnd 4 true 0,
      .hbmChannelRetrain 0 32 true, .memoryInitDone 69, .sqTailWrite 1024 0, .msixTimer 1025, .errorLogSlotRead 256 true, .registerWrite 3 0 4 0,
   .porNDeassert 4, .queueHeadDrop 131072 [] false, .nodeReadyAgain (2 ^ 32), .creditWatchdog 0 8,
      .lookupComplete 0 2048 [] true, .hbmRequestEnter 0 32 .lookup 0 0, .retainedBankCheck 64 [], .hbmRequestEnter 0 0 .lookup 256 0, .auxOverTemp 16,
   .ppsOutPulseEnd 2].all (fun i => !i.wf) = true := by decide +kernel

/-- The same operands at the last number that exists. -/
theorem test_wf_admits_bounds :
    [Instr.calRetry 255, .portAlignLock 255, .modulePresent 31, .reorderTimeout 63, .reorderTimeout 128, .quietEnd 128 7, .groupBRailLoss 11,
      .memoryInitDone 68, .msixTimer 1024, .registerWrite 4 0 4 0, .lookupComplete 0 2047 [] true, .auxOverTemp 15].all Instr.wf = true := by
  decide +kernel

/-! ## Small tests; what is expected comes from the tables of the spec or from a standard check value -/

/-- On an empty queue a step lets a nanosecond pass (log 1). -/
theorem test_reset_idles : (match step State.reset with | .next t => t.now | _ => 0) = 1 := by decide +kernel
/-- NOP writes one completion entry of 32 bytes at the head of CQ0 (R366). -/
theorem test_nop_completes :
    (match exec (.nop 7) (withCmd (cmd 0 0 0 0 0 []) up) with | .next t => t.hostLog.map (fun e => (e.1, e.2.length)) | _ => []) = [(0, 32)] := by
  decide +kernel
/-- DEVICE_ID and the revision lead the identity that the management port answers. -/
theorem test_identity :
    (match exec .mgmtIdentity up with | .next t => t.mgmt.reply.take 5 | _ => []) = [0x20, 0x51, 0x11, 0x03, 0x00] := by decide +kernel
/-- The check value of the Ethernet CRC-32 over the digits 1 to 9. -/
theorem test_fcs_check : fcsOf [0x31, 0x32, 0x33, 0x34, 0x35, 0x36, 0x37, 0x38, 0x39] = [0x26, 0x39, 0xF4, 0xCB] := by decide +kernel
/-- The CRC-8 of the polynomial 0x07 over the digits 1 to 3. -/
theorem test_status_crc : statusCrc 0x31323300 = 0xC0 := by decide +kernel
/-- Host fields are little-endian, wire fields big-endian (R12). -/
theorem test_byte_orders : leBytes 4 0x01020304 = [4, 3, 2, 1] ∧ beBytes 4 0x01020304 = [1, 2, 3, 4] := by decide +kernel
/-- POR_N puts AVSBus back to its default set point and empties the error log (R73). -/
theorem test_por :
    (match exec .porNAssert (up.mapBed fun b => { b with avsSet := 800 }) with | .next t => (t.bed.avsSet, t.elog.total) | _ => (0, 1)) =
      (State.reset.bed.avsSet, 0) := by decide +kernel
/-! ## States and operands that meet the hypotheses of the statements -/

/-- A state and operands that meet the hypotheses of each clause of `Obligations.IdleStepLetsTimePass`. -/
theorem witness_IdleStepLetsTimePass :
    (∃ (s : State), s.pending = []) :=
   (let s : State := (fun (z : State) => ({ z with pending := [] })) (up);
    ⟨s, by decide +kernel +zetaReduce⟩)

/-- A state and operands that meet the hypotheses of each clause of `Obligations.PorAndBedrockSupplyRows`. -/
theorem witness_PorAndBedrockSupplyRows :
    (∃ (s : State), s.bed.porAsserted = true ∧ railUp s 10 = true ∧ s.bed.waitGroupA = false) ∧
    (∃ (s : State), s.bed.waitGroupA = true ∧ railUp s 11 = true ∧ s.bed.porAsserted = false) :=
  ⟨(let s : State := (fun (z : State) => ({ z with bed := { z.bed with waitGroupA := false } })) ((fun (z : State) => ({ z with bed := { z.bed with porAsserted := true } })) (up));
    ⟨s, by decide +kernel +zetaReduce⟩),
   (let s : State := (fun (z : State) => ({ z with bed := { z.bed with porAsserted := false } })) ((fun (z : State) => ({ z with bed := { z.bed with waitGroupA := true } })) (up));
    ⟨s, by decide +kernel +zetaReduce⟩)⟩

/-- A state and operands that meet the hypotheses of each clause of `Obligations.BedrockClockRows`. -/
theorem witness_BedrockClockRows :
    (∃ (s : State), s.bed.running = true ∧ s.bed.clkChecked = false) ∧
    (∃ (s : State), s.bed.clkInUse = true) ∧
    (∃ (s : State), s.bed.running = true ∧ s.bed.clkChecked = true ∧ s.bed.bedrockUp = false) :=
  ⟨(let s : State := (fun (z : State) => ({ z with bed := { z.bed with clkChecked := false } })) ((fun (z : State) => ({ z with bed := { z.bed with running := true } })) (up));
    ⟨s, by decide +kernel +zetaReduce⟩),
   (let s : State := (fun (z : State) => ({ z with bed := { z.bed with clkInUse := true } })) (up);
    ⟨s, by decide +kernel +zetaReduce⟩),
   (let s : State := (fun (z : State) => ({ z with bed := { z.bed with bedrockUp := false } })) ((fun (z : State) => ({ z with bed := { z.bed with clkChecked := true } })) ((fun (z : State) => ({ z with bed := { z.bed with running := true } })) (up)));
    ⟨s, by decide +kernel +zetaReduce⟩)⟩

/-- A state and operands that meet the hypotheses of each clause of `Obligations.PerstAndMgmtSupplyRows`. -/
theorem witness_PerstAndMgmtSupplyRows :
    (∃ (s : State), s.bed.running = true ∧ s.bed.perstPin = false ∧ railUp s 11 = true ∧ s.retn.inRetain = false ∧ s.retn.waking = false) ∧
    (∃ (s : State), s.bed.running = true ∧ s.bed.perstPin = false ∧ railUp s 11 = true ∧ s.retn.inRetain = false ∧ s.retn.waking = false) ∧
    (∃ (s : State), s.bed.perstPin = true) ∧
    (∃ (s : State), s.bed.perstPin = false) ∧
    (∃ (s : State), s.boot.pcieTrain = true) :=
  ⟨(let s : State := (fun (z : State) => ({ z with retn := { z.retn with waking := false } })) ((fun (z : State) => ({ z with retn := { z.retn with inRetain := false } })) ((fun (z : State) => ({ z with bed := { z.bed with perstPin := false } })) ((fun (z : State) => ({ z with bed := { z.bed with running := true } })) (up))));
    ⟨s, by decide +kernel +zetaReduce⟩),
   (let s : State := (fun (z : State) => ({ z with retn := { z.retn with waking := false } })) ((fun (z : State) => ({ z with retn := { z.retn with inRetain := false } })) ((fun (z : State) => ({ z with bed := { z.bed with perstPin := false } })) ((fun (z : State) => ({ z with bed := { z.bed with running := true } })) (up))));
    ⟨s, by decide +kernel +zetaReduce⟩),
   (let s : State := (fun (z : State) => ({ z with bed := { z.bed with perstPin := true } })) (up);
    ⟨s, by decide +kernel +zetaReduce⟩),
   (let s : State := (fun (z : State) => ({ z with bed := { z.bed with perstPin := false } })) (up);
    ⟨s, by decide +kernel +zetaReduce⟩),
   (let s : State := (fun (z : State) => ({ z with boot := { z.boot with pcieTrain := true } })) (up);
    ⟨s, by decide +kernel +zetaReduce⟩)⟩

/-- A state and operands that meet the hypotheses of each clause of `Obligations.MemoryStartRows`. -/
theorem witness_MemoryStartRows :
    (∃ (r : Nat) (s : State), s.boot.initRun.getLsbD r = true ∧ s.retn.hbmStacks = 0) ∧
    (∃ (s : State), s.boot.started = true ∧ s.boot.fwReady = false ∧ s.boot.cpFailed = false ∧ s.retn.check = []) ∧
    (∃ (m : Nat) (s : State), m < 4 ∧ s.boot.hbmTraining.getLsbD m = true) ∧
    (∃ (m : Nat) (s : State), m < 4 ∧ s.boot.hbmTraining.getLsbD m = true ∧ mget s.boot.hbmFails m 0 < 2) ∧
    (∃ (m : Nat) (s : State), m < 4 ∧ s.boot.hbmTraining.getLsbD m = true ∧ mget s.boot.hbmFails m 0 = 2) :=
  ⟨(let s : State := (fun (z : State) => ({ z with retn := { z.retn with hbmStacks := 0 } })) ((fun (z : State) => ({ z with boot := { z.boot with initRun := BitVec.allOnes _ } })) (up));
    let r : Nat := 0;
    ⟨r, s, by decide +kernel +zetaReduce⟩),
   (let s : State := (fun (z : State) => ({ z with retn := { z.retn with check := [] } })) ((fun (z : State) => ({ z with boot := { z.boot with cpFailed := false } })) ((fun (z : State) => ({ z with boot := { z.boot with fwReady := false } })) ((fun (z : State) => ({ z with boot := { z.boot with started := true } })) (up))));
    ⟨s, by decide +kernel +zetaReduce⟩),
   (let s : State := (fun (z : State) => ({ z with boot := { z.boot with hbmTraining := BitVec.allOnes _ } })) (up);
    let m : Nat := 0;
    ⟨m, s, by decide +kernel +zetaReduce⟩),
   (let s : State := (fun (z : State) => ({ z with boot := { z.boot with hbmTraining := BitVec.allOnes _ } })) (up);
    let m : Nat := 0;
    ⟨m, s, by decide +kernel +zetaReduce⟩),
   (let m : Nat := 0;
    let s : State := (fun (z : State) => ({ z with boot := { z.boot with hbmFails := mput z.boot.hbmFails m 2 } })) ((fun (z : State) => ({ z with boot := { z.boot with hbmTraining := BitVec.allOnes _ } })) (up));
    ⟨m, s, by decide +kernel +zetaReduce⟩)⟩

/-- A state and operands that meet the hypotheses of each clause of `Obligations.BrownoutRows`. -/
theorem witness_BrownoutRows :
    (∃ (uv : Nat) (s : State), coreWatched s = true ∧ s.bed.boActive = false ∧ s.bed.avsPending = false ∧ s.bed.avsAckAt = none ∧ uv < 960 * s.bed.avsSet) ∧
    (∃ (core : Nat) (s : State), s.bed.boActive = true ∧ 970 * boPoint s < core) ∧
    (∃ (uv : Nat) (s : State), coreWatched s = true ∧ s.bed.coreReset = false ∧ s.bed.boActive = false ∧ s.bed.avsPending = false ∧ s.bed.avsAckAt = none ∧ uv < 920 * s.bed.avsSet) ∧
    (∃ (s : State), s.bed.avsPending = true) :=
  ⟨(let s : State := (fun (z : State) => ({ z with bed := { z.bed with avsAckAt := none } })) ((fun (z : State) => ({ z with bed := { z.bed with avsPending := false } })) ((fun (z : State) => ({ z with bed := { z.bed with boActive := false } })) (up)));
    let uv : Nat := 0;
    ⟨uv, s, by decide +kernel +zetaReduce⟩),
   (let core : Nat := 1000000;
    let s : State := (fun (z : State) => ({ z with bed := { z.bed with boActive := true } })) (up);
    ⟨core, s, by decide +kernel +zetaReduce⟩),
   (let s : State := (fun (z : State) => ({ z with bed := { z.bed with avsAckAt := none } })) ((fun (z : State) => ({ z with bed := { z.bed with avsPending := false } })) ((fun (z : State) => ({ z with bed := { z.bed with boActive := false } })) ((fun (z : State) => ({ z with bed := { z.bed with coreReset := false } })) (up))));
    let uv : Nat := 0;
    ⟨uv, s, by decide +kernel +zetaReduce⟩),
   (let s : State := (fun (z : State) => ({ z with bed := { z.bed with avsPending := true } })) (up);
    ⟨s, by decide +kernel +zetaReduce⟩)⟩

/-- A state and operands that meet the hypotheses of each clause of `Obligations.RailRows`. -/
theorem witness_RailRows :
    (∃ (r : Nat) (s : State), r < 5 ∧ railUp s r = true ∧ s.bed.running = true ∧ s.bed.tripped = false ∧ s.bed.coreReset = false ∧ s.retn.inRetain = false ∧ s.retn.waking = false) ∧
    (∃ (r : Nat) (s : State), r < 5 ∧ railUp s r = true ∧ s.bed.running = true ∧ s.bed.tripped = false ∧ s.bed.coreReset = false ∧ s.retn.inRetain = true) ∧
    (∃ (r : Nat), r < 5) ∧
    (∃ (s : State), s.bed.coreReset = true) ∧
    (∃ (s : State), railUp s 9 = true ∧ s.bed.running = true ∧ s.bed.bedrockUp = true ∧ s.bed.tripped = false ∧ s.retn.inRetain = false ∧ s.retn.waking = false) ∧
    (∃ (r : Nat) (s : State), 5 ≤ r ∧ r ≤ 9 ∧ railUp s r = true ∧ s.bed.running = true) ∧
    (∃ (s : State), railUp s 9 = false ∧ s.bed.bedrockUp = true ∧ s.bed.auxValid = false ∧ s.bed.tripped = false) ∧
    (∃ (s : State), railUp s 9 = true ∧ s.bed.bedrockUp = true ∧ s.bed.auxValid = false ∧ s.bed.tripped = false) :=
  ⟨(let s : State := (fun (z : State) => ({ z with retn := { z.retn with waking := false } })) ((fun (z : State) => ({ z with retn := { z.retn with inRetain := false } })) ((fun (z : State) => ({ z with bed := { z.bed with coreReset := false } })) ((fun (z : State) => ({ z with bed := { z.bed with tripped := false } })) ((fun (z : State) => ({ z with bed := { z.bed with running := true } })) (up)))));
    let r : Nat := 0;
    ⟨r, s, by decide +kernel +zetaReduce⟩),
   (let s : State := (fun (z : State) => ({ z with retn := { z.retn with inRetain := true } })) ((fun (z : State) => ({ z with bed := { z.bed with coreReset := false } })) ((fun (z : State) => ({ z with bed := { z.bed with tripped := false } })) ((fun (z : State) => ({ z with bed := { z.bed with running := true } })) (up))));
    let r : Nat := 0;
    ⟨r, s, by decide +kernel +zetaReduce⟩),
   (let r : Nat := 0;
    ⟨r, by decide +kernel +zetaReduce⟩),
   (let s : State := (fun (z : State) => ({ z with bed := { z.bed with coreReset := true } })) (up);
    ⟨s, by decide +kernel +zetaReduce⟩),
   (let s : State := (fun (z : State) => ({ z with retn := { z.retn with waking := false } })) ((fun (z : State) => ({ z with retn := { z.retn with inRetain := false } })) ((fun (z : State) => ({ z with bed := { z.bed with tripped := false } })) ((fun (z : State) => ({ z with bed := { z.bed with bedrockUp := true } })) ((fun (z : State) => ({ z with bed := { z.bed with running := true } })) (up)))));
    ⟨s, by decide +kernel +zetaReduce⟩),
   (let r : Nat := 5;
    let s : State := (fun (z : State) => ({ z with bed := { z.bed with running := true } })) (up);
    ⟨r, s, by decide +kernel +zetaReduce⟩),
   (let s : State := (fun (z : State) => ({ z with bed := { z.bed with tripped := false } })) ((fun (z : State) => ({ z with bed := { z.bed with auxValid := false } })) ((fun (z : State) => ({ z with bed := { z.bed with bedrockUp := true } })) ((fun (z : State) => ({ z with bed := { z.bed with railOk := 0 } })) (up))));
    ⟨s, by decide +kernel +zetaReduce⟩),
   (let s : State := (fun (z : State) => ({ z with bed := { z.bed with tripped := false } })) ((fun (z : State) => ({ z with bed := { z.bed with auxValid := false } })) ((fun (z : State) => ({ z with bed := { z.bed with bedrockUp := true } })) (up)));
    ⟨s, by decide +kernel +zetaReduce⟩)⟩

/-- A state and operands that meet the hypotheses of each clause of `Obligations.ClockAndTripRows`. -/
theorem witness_ClockAndTripRows :
    (∃ (s : State), s.bed.refOk.getLsbD 0 = true ∧ s.bed.running = true ∧ s.bed.tripped = false ∧ s.bed.coreReset = false ∧ s.retn.inRetain = false ∧ s.retn.waking = false) ∧
    (∃ (s : State), s.bed.refOk.getLsbD 2 = true ∧ s.bed.running = true ∧ s.bed.tripped = false ∧ s.retn.inRetain = false ∧ s.retn.waking = false) ∧
    (∃ (s : State), s.bed.refOk.getLsbD 2 = false ∧ s.boot.started = true) ∧
    (∃ (p : Nat) (s : State), 37 ≤ p ∧ p ≤ 44 ∧ pllLocked s p = true) ∧
    (∃ (k : Nat) (x : Int) (s : State), k < 40 ∧ 2000 ≤ x ∧ s.bed.porAsserted = false ∧ railUp s 10 = true ∧ s.bed.tripped = false ∧ s.bed.tempFault.contains k = false) :=
  ⟨(let s : State := (fun (z : State) => ({ z with retn := { z.retn with waking := false } })) ((fun (z : State) => ({ z with retn := { z.retn with inRetain := false } })) ((fun (z : State) => ({ z with bed := { z.bed with coreReset := false } })) ((fun (z : State) => ({ z with bed := { z.bed with tripped := false } })) ((fun (z : State) => ({ z with bed := { z.bed with running := true } })) ((fun (z : State) => ({ z with bed := { z.bed with refOk := BitVec.allOnes _ } })) (up))))));
    ⟨s, by decide +kernel +zetaReduce⟩),
   (let s : State := (fun (z : State) => ({ z with retn := { z.retn with waking := false } })) ((fun (z : State) => ({ z with retn := { z.retn with inRetain := false } })) ((fun (z : State) => ({ z with bed := { z.bed with tripped := false } })) ((fun (z : State) => ({ z with bed := { z.bed with running := true } })) ((fun (z : State) => ({ z with bed := { z.bed with refOk := BitVec.allOnes _ } })) (up)))));
    ⟨s, by decide +kernel +zetaReduce⟩),
   (let s : State := (fun (z : State) => ({ z with boot := { z.boot with started := true } })) ((fun (z : State) => ({ z with bed := { z.bed with refOk := 0 } })) (up));
    ⟨s, by decide +kernel +zetaReduce⟩),
   (let p : Nat := 37;
    let s : State := up;
    ⟨p, s, by decide +kernel +zetaReduce⟩),
   (let x : Int := 2000;
    let s : State := (fun (z : State) => ({ z with bed := { z.bed with tripped := false } })) ((fun (z : State) => ({ z with bed := { z.bed with porAsserted := false } })) (up));
    let k : Nat := 0;
    ⟨k, x, s, by decide +kernel +zetaReduce⟩)⟩

/-- A state and operands that meet the hypotheses of each clause of `Obligations.AvsRequestSeries`. -/
theorem witness_AvsRequestSeries :
    (∃ (mv : Nat) (s : State), avsFree s = true ∧ s.bed.avsRetry = none ∧ mv % 5 = 0 ∧ ((s.bed.avsSet < mv ∧ mv ≤ s.bed.avsSet + 10 ∧ mv ≤ avsWanted s) ∨ (mv < s.bed.avsSet ∧ s.bed.avsSet ≤ mv + 10 ∧ avsWanted s ≤ mv))) ∧
    (∃ (s : State), s.bed.avsPending = true ∧ railUp s 11 = true) ∧
    (∃ (s : State), s.bed.avsPending = true ∧ s.bed.avsFails < 2) ∧
    (∃ (s : State), s.bed.avsPending = true ∧ s.bed.avsFails = 2) ∧
    (∃ (mv : Nat) (s : State), s.bed.avsRetry = some mv ∧ s.boot.fwReady = true ∧ s.bed.avsPending = false ∧ s.bed.boActive = false) :=
  ⟨(let s : State := (fun (z : State) => ({ z with bed := { z.bed with avsRetry := none } })) ({ up with bed := { up.bed with avsSet := 715, temp := [(36, 400)] }, fuse := { up.fuse with avsTarget := 760 } });
    let mv : Nat := 720;
    ⟨mv, s, by decide +kernel +zetaReduce⟩),
   (let s : State := (fun (z : State) => ({ z with bed := { z.bed with avsPending := true } })) (up);
    ⟨s, by decide +kernel +zetaReduce⟩),
   (let s : State := (fun (z : State) => ({ z with bed := { z.bed with avsPending := true } })) (up);
    ⟨s, by decide +kernel +zetaReduce⟩),
   (let s : State := (fun (z : State) => ({ z with bed := { z.bed with avsFails := 2 } })) ((fun (z : State) => ({ z with bed := { z.bed with avsPending := true } })) (up));
    ⟨s, by decide +kernel +zetaReduce⟩),
   (let mv : Nat := 0;
    let s : State := (fun (z : State) => ({ z with bed := { z.bed with boActive := false } })) ((fun (z : State) => ({ z with bed := { z.bed with avsPending := false } })) ((fun (z : State) => ({ z with boot := { z.boot with fwReady := true } })) ((fun (z : State) => ({ z with bed := { z.bed with avsRetry := some mv } })) (up))));
    ⟨mv, s, by decide +kernel +zetaReduce⟩)⟩

/-- A state and operands that meet the hypotheses of each clause of `Obligations.MgmtReadTransactions`. -/
theorem witness_MgmtReadTransactions :
    (∃ (s : State), portLive s = true) ∧
    (∃ (s : State), portLive s = true) ∧
    (∃ (s : State), portLive s = true) ∧
    (∃ (s : State), portLive s = true) ∧
    (∃ (s : State), portLive s = true) ∧
    (∃ (index : Nat) (s : State), portLive s = true ∧ index < 256) ∧
    (∃ (s : State), portLive s = true) ∧
    (∃ (s : State), portLive s = true) ∧
    (∃ (s : State), portLive s = true ∧ s.mgmt.alert ≠ 0) ∧
    (∃ (i : Instr) (s : State), portLive s = false ∧ i ∈ [Instr.mgmtStatusRead, .mgmtIdentity, .mgmtHealth, .mgmtGuardPending, .mgmtGuardResult, .alertResponse]) ∧
    (∃ (index : Nat), 256 ≤ index) :=
  ⟨(let s : State := up;
    ⟨s, by decide +kernel +zetaReduce⟩),
   (let s : State := up;
    ⟨s, by decide +kernel +zetaReduce⟩),
   (let s : State := up;
    ⟨s, by decide +kernel +zetaReduce⟩),
   (let s : State := up;
    ⟨s, by decide +kernel +zetaReduce⟩),
   (let s : State := up;
    ⟨s, by decide +kernel +zetaReduce⟩),
   (let s : State := up;
    let index : Nat := 0;
    ⟨index, s, by decide +kernel +zetaReduce⟩),
   (let s : State := up;
    ⟨s, by decide +kernel +zetaReduce⟩),
   (let s : State := up;
    ⟨s, by decide +kernel +zetaReduce⟩),
   (let s : State := (fun (z : State) => ({ z with mgmt := { z.mgmt with alert := 1 } })) (up);
    ⟨s, by decide +kernel +zetaReduce⟩),
   (let i : Instr := .mgmtStatusRead;
    let s : State := State.reset;
    ⟨i, s, by decide +kernel +zetaReduce⟩),
   (let index : Nat := 256;
    ⟨index, by decide +kernel +zetaReduce⟩)⟩

/-- A state and operands that meet the hypotheses of each clause of `Obligations.MgmtRangesAndWake`. -/
theorem witness_MgmtRangesAndWake :
    (∃ (item : Nat) (off : Nat) (len : Nat) (p : Proposal) (s : State), portLive s = true ∧ 1 ≤ item ∧ item ≤ 6 ∧ mfind s.guard.props item = some p ∧ 1 ≤ len ∧ len ≤ 240 ∧ off + len ≤ p.value.length ∧ off ≤ 65535) ∧
    (∃ (off : Nat) (len : Nat) (s : State), portLive s = true ∧ 1 ≤ len ∧ len ≤ 240 ∧ off + len ≤ 65536) ∧
    (∃ (s : State), portLive s = true ∧ s.retn.inRetain = true ∧ bitOf s.retn.sources 0 = true) ∧
    (∃ (s : State), portLive s = true ∧ bitOf s.retn.sources 0 = false) ∧
    (∃ (item : Nat) (nonce : BitVec 32) (digest : BitVec 32) (pec : Option Byte) (s : State), pec ≠ some (pecOf (addrByte s false :: confirmSent item nonce digest))) ∧
    (∃ (item : Nat) (nonce : BitVec 32) (pec : Option Byte) (s : State), pec ≠ some (pecOf (addrByte s false :: abortSent item nonce))) ∧
    (∃ (v : Nat) (pec : Option Byte) (s : State), pec ≠ some (pecOf [addrByte s false, 0x40, BitVec.ofNat 8 v])) ∧
    (∃ (len : Nat), (len = 0 ∨ 240 < len)) :=
  ⟨(let item : Nat := 1;
    let p : Proposal := ({ Proposal.init with nonce := 5, value := zeros 8 } : Proposal);
    let off : Nat := 4;
    let len : Nat := 4;
    let s : State := (fun (z : State) => ({ z with guard := { z.guard with props := mput z.guard.props item p } })) (up);
    ⟨item, off, len, p, s, by decide +kernel +zetaReduce⟩),
   (let len : Nat := 1;
    let s : State := up;
    let off : Nat := 0;
    ⟨off, len, s, by decide +kernel +zetaReduce⟩),
   (let s : State := (fun (z : State) => ({ z with retn := { z.retn with sources := 2 ^ 64 - 1 } })) ((fun (z : State) => ({ z with retn := { z.retn with inRetain := true } })) (up));
    ⟨s, by decide +kernel +zetaReduce⟩),
   (let s : State := (fun (z : State) => ({ z with retn := { z.retn with sources := 0 } })) (up);
    ⟨s, by decide +kernel +zetaReduce⟩),
   (let item : Nat := 1;
    let nonce : BitVec 32 := 0;
    let digest : BitVec 32 := 0;
    let s : State := up;
    let pec : Option Byte := none;
    ⟨item, nonce, digest, pec, s, by decide +kernel +zetaReduce⟩),
   (let s : State := up;
    let item : Nat := 0;
    let nonce : BitVec 32 := 1;
    let pec : Option Byte := none;
    ⟨item, nonce, pec, s, by decide +kernel +zetaReduce⟩),
   (let s : State := up;
    let v : Nat := 0;
    let pec : Option Byte := none;
    ⟨v, pec, s, by decide +kernel +zetaReduce⟩),
   (let len : Nat := 0;
    ⟨len, by decide +kernel +zetaReduce⟩)⟩

/-- A state and operands that meet the hypotheses of each clause of `Obligations.GuardProposals`. -/
theorem witness_GuardProposals :
    (∃ (id : Nat) (c : Cmd) (s : State), Begins s id 0xB0 c ∧ (c.target = 2 ∨ c.target = 6) ∧ proposeBad c = false ∧ mfind s.guard.props c.target = none) ∧
    (∃ (id : Nat) (c : Cmd) (s : State), Begins s id 0xB0 c ∧ (c.target = 2 ∨ c.target = 6) ∧ proposeBad c = false ∧ (mfind s.guard.props c.target).isSome = true) ∧
    (∃ (id : Nat) (c : Cmd) (p : Proposal) (s : State), Begins s id 0xB1 c ∧ c.target ≠ 0 ∧ plainBad c 6 8 = false ∧ c.inlZero 32 4 = true ∧ c.inl 36 4 ≠ 0 ∧ mfind s.guard.props c.target = some p ∧ p.nonce.toNat = c.inl 36 4) ∧
    (∃ (id : Nat) (c : Cmd) (s : State), Begins s id 0xB2 c ∧ plainBad c 0 0 = false) ∧
    (∃ (item : Nat) (nonce : BitVec 32) (p : Proposal) (s : State), item < 256 ∧ portLive s = true ∧ mfind s.guard.props item = some p ∧ p.nonce = nonce) ∧
    (∃ (item : Nat) (p : Proposal) (s : State), mfind s.guard.props item = some p) :=
  ⟨(let c : Cmd := cmd (0xB0) (0) (2) (0) (4096) [(36, 4, 5), (40, 1, 1)];
    let id : Nat := 7;
    let s : State := withCmd c (up);
    ⟨id, c, s, by unfold Begins; decide +kernel +zetaReduce⟩),
   (let c : Cmd := cmd (0xB0) (0) (2) (0) (4096) [(36, 4, 5), (40, 1, 1)];
    let id : Nat := 7;
    let s : State := withCmd c (up.mapGuard fun g => { g with props := [(2, Proposal.init)] });
    ⟨id, c, s, by unfold Begins; decide +kernel +zetaReduce⟩),
   (let p : Proposal := ({ Proposal.init with nonce := 5, value := zeros 8, cmd := 9 } : Proposal);
    let c : Cmd := cmd (0xB1) (0) (2) (0) (4096) [(36, 4, 5)];
    let id : Nat := 7;
    let s : State := withCmd c (up.mapGuard fun g => { g with props := [(2, { Proposal.init with nonce := 5, value := zeros 8, cmd := 9 })] });
    ⟨id, c, p, s, by unfold Begins; decide +kernel +zetaReduce⟩),
   (let c : Cmd := cmd (0xB2) (0) (0) (0) (4096) [];
    let id : Nat := 7;
    let s : State := withCmd c (up);
    ⟨id, c, s, by unfold Begins; decide +kernel +zetaReduce⟩),
   (let nonce : BitVec 32 := 1;
    let item : Nat := 0;
    let p : Proposal := (fun (z : Proposal) => ({ z with nonce := nonce })) (Proposal.init);
    let s : State := (fun (z : State) => ({ z with guard := { z.guard with props := mput z.guard.props item p } })) (up);
    ⟨item, nonce, p, s, by decide +kernel +zetaReduce⟩),
   (let item : Nat := 0;
    let p : Proposal := Proposal.init;
    let s : State := (fun (z : State) => ({ z with guard := { z.guard with props := mput z.guard.props item p } })) (up);
    ⟨item, p, s, by decide +kernel +zetaReduce⟩)⟩

/-- A state and operands that meet the hypotheses of each clause of `Obligations.GuardConfirmation`. -/
theorem witness_GuardConfirmation :
    (∃ (item : Nat) (nonce : BitVec 32) (digest : BitVec 32) (p : Proposal) (s : State), item < 256 ∧ portLive s = true ∧ healthState s ≠ 3 ∧ mfind s.guard.props item = some p ∧ p.nonce = nonce ∧ p.digest = digest ∧ (item = 2 ∨ item = 6)) ∧
    (∃ (nonce : BitVec 32) (digest : BitVec 32) (p : Proposal) (s : State), portLive s = true ∧ healthState s ≠ 3 ∧ mfind s.guard.props 1 = some p ∧ p.nonce = nonce ∧ p.digest = digest) ∧
    (∃ (item : Nat) (s : State), item < 256 ∧ portLive s = true ∧ healthState s = 3) ∧
    (∃ (item : Nat) (s : State), item < 256 ∧ portLive s = true ∧ healthState s ≠ 3 ∧ mfind s.guard.props item = none) ∧
    (∃ (item : Nat) (nonce : BitVec 32) (digest : BitVec 32) (p : Proposal) (s : State), item < 256 ∧ portLive s = true ∧ healthState s ≠ 3 ∧ mfind s.guard.props item = some p ∧ p.rejects < 2 ∧ (p.nonce ≠ nonce ∨ p.digest ≠ digest)) ∧
    (∃ (item : Nat) (nonce : BitVec 32) (digest : BitVec 32) (p : Proposal) (s : State), item < 256 ∧ portLive s = true ∧ healthState s ≠ 3 ∧ mfind s.guard.props item = some p ∧ 2 ≤ p.rejects ∧ (p.nonce ≠ nonce ∨ p.digest ≠ digest)) ∧
    (∃ (off : Nat) (data : List Byte) (w : Option Nat) (r : List (Nat × List Byte × Option Nat)) (s : State), s.guard.otpProg = (off, data, w) :: r ∧ Memory.wf s.otp.bytes = true) ∧
    (∃ (id : Nat) (c : Cmd) (s : State), Begins s id 0xB0 c ∧ (c.target = 2 ∨ c.target = 6) ∧ proposeBad c = false ∧ mfind s.guard.props c.target = none) ∧
    (∃ (id : Nat) (c : Cmd) (p : Proposal) (s : State), Begins s id 0xB1 c ∧ c.target ≠ 0 ∧ plainBad c 6 8 = false ∧ c.inlZero 32 4 = true ∧ c.inl 36 4 ≠ 0 ∧ mfind s.guard.props c.target = some p ∧ p.nonce.toNat = c.inl 36 4) ∧
    (∃ (id : Nat) (c : Cmd) (s : State), Begins s id 0xB2 c ∧ plainBad c 0 0 = false) ∧
    (∃ (item : Nat) (nonce : BitVec 32) (p : Proposal) (s : State), item < 256 ∧ portLive s = true ∧ mfind s.guard.props item = some p ∧ p.nonce = nonce) ∧
    (∃ (item : Nat) (p : Proposal) (s : State), mfind s.guard.props item = some p) :=
  ⟨(let nonce : BitVec 32 := 1;
    let digest : BitVec 32 := 1;
    let item : Nat := 6;
    let p : Proposal := (fun (z : Proposal) => ({ z with digest := digest })) ((fun (z : Proposal) => ({ z with nonce := nonce })) (Proposal.init));
    let s : State := (fun (z : State) => ({ z with guard := { z.guard with props := mput z.guard.props item p } })) (up);
    ⟨item, nonce, digest, p, s, by decide +kernel +zetaReduce⟩),
   (let nonce : BitVec 32 := 1;
    let digest : BitVec 32 := 1;
    let p : Proposal := (fun (z : Proposal) => ({ z with digest := digest })) ((fun (z : Proposal) => ({ z with nonce := nonce })) (Proposal.init));
    let s : State := (fun (z : State) => ({ z with guard := { z.guard with props := mput z.guard.props 1 p } })) (up);
    ⟨nonce, digest, p, s, by decide +kernel +zetaReduce⟩),
   (let s : State := { up with health := { Health.init with causes := 0x800 } };
    let item : Nat := 0;
    ⟨item, s, by decide +kernel +zetaReduce⟩),
   (let item : Nat := 0;
    let s : State := (fun (z : State) => ({ z with guard := { z.guard with props := mdel z.guard.props item } })) (up);
    ⟨item, s, by decide +kernel +zetaReduce⟩),
   (let item : Nat := 0;
    let p : Proposal := Proposal.init;
    let s : State := (fun (z : State) => ({ z with guard := { z.guard with props := mput z.guard.props item p } })) (up);
    let nonce : BitVec 32 := 1;
    let digest : BitVec 32 := 1;
    ⟨item, nonce, digest, p, s, by decide +kernel +zetaReduce⟩),
   (let item : Nat := 1;
    let p : Proposal := ({ Proposal.init with rejects := 2, value := zeros 8 } : Proposal);
    let nonce : BitVec 32 := 5;
    let digest : BitVec 32 := 0;
    let s : State := (fun (z : State) => ({ z with guard := { z.guard with props := mput z.guard.props item p } })) (up);
    ⟨item, nonce, digest, p, s, by decide +kernel +zetaReduce⟩),
   (let off : Nat := 8;
    let data : List Byte := [1, 2];
    let w : Option Nat := none;
    let r : List (Nat × List Byte × Option Nat) := [];
    let s : State := up.mapGuard fun g => { g with otpProg := [(8, [1, 2], none)] };
    ⟨off, data, w, r, s, by decide +kernel +zetaReduce⟩),
   (let c : Cmd := cmd (0xB0) (0) (2) (0) (4096) [(36, 4, 5), (40, 1, 1)];
    let id : Nat := 7;
    let s : State := withCmd c (up);
    ⟨id, c, s, by unfold Begins; decide +kernel +zetaReduce⟩),
   (let p : Proposal := ({ Proposal.init with nonce := 5, value := zeros 8, cmd := 9 } : Proposal);
    let c : Cmd := cmd (0xB1) (0) (2) (0) (4096) [(36, 4, 5)];
    let id : Nat := 7;
    let s : State := withCmd c (up.mapGuard fun g => { g with props := [(2, { Proposal.init with nonce := 5, value := zeros 8, cmd := 9 })] });
    ⟨id, c, p, s, by unfold Begins; decide +kernel +zetaReduce⟩),
   (let c : Cmd := cmd (0xB2) (0) (0) (0) (4096) [];
    let id : Nat := 7;
    let s : State := withCmd c (up);
    ⟨id, c, s, by unfold Begins; decide +kernel +zetaReduce⟩),
   (let nonce : BitVec 32 := 1;
    let item : Nat := 0;
    let p : Proposal := (fun (z : Proposal) => ({ z with nonce := nonce })) (Proposal.init);
    let s : State := (fun (z : State) => ({ z with guard := { z.guard with props := mput z.guard.props item p } })) (up);
    ⟨item, nonce, p, s, by decide +kernel +zetaReduce⟩),
   (let item : Nat := 0;
    let p : Proposal := Proposal.init;
    let s : State := (fun (z : State) => ({ z with guard := { z.guard with props := mput z.guard.props item p } })) (up);
    ⟨item, p, s, by decide +kernel +zetaReduce⟩)⟩

/-- A state and operands that meet the hypotheses of each clause of `Obligations.NopHasNoEffect`. -/
theorem witness_NopHasNoEffect :
    (∃ (id : Nat) (c : Cmd) (s : State), Begins s id 0x00 c ∧ c.target = 0 ∧ noFields c = true) :=
   (let c : Cmd := cmd (0x00) (0) (0) (0) (4096) [];
    let id : Nat := 7;
    let s : State := withCmd c (up);
    ⟨id, c, s, by unfold Begins; decide +kernel +zetaReduce⟩)

/-- A state and operands that meet the hypotheses of each clause of `Obligations.CompletionEntry`. -/
theorem witness_CompletionEntry :
    (∃ (id : Nat) (c : Cmd) (g : Ring) (s : State), mfind s.fl.cmds id = some c ∧ c.dead = false ∧ mfind s.hif.rings c.ring = some g ∧ s.boot.d3hot = false ∧ c.flag 4 = false ∧ g.cfg.intCount = 0 ∧ mirrored c.opcode = false ∧ dmaAllowed s (g.cfg.cqBase.toNat + 32 * g.cqTail) 32 = true) ∧
    (∃ (id : Nat) (c : Cmd) (s : State), mfind s.fl.cmds id = some c ∧ c.dead = true ∧ mirrored c.opcode = false) ∧
    (∃ (id : Nat) (op : Nat) (pre : Cmd → State → Option Status) (c : Cmd) (st : Status) (s : State), mayBegin s id op = some c ∧ pre (c.begun s) (beginCmd id c s) = some st) :=
  ⟨(let id : Nat := 7;
    let c : Cmd := { (cmd 0xFF 0 0 0 0 []) with phase := .executing };
    let g : Ring := ({ Ring.init with cfg := { RingCfg.init with intCount := 0 }, cqTail := 63 } : Ring);
    let s : State := (fun (z : State) => ({ z with boot := { z.boot with d3hot := false } })) ((fun (z : State) => ({ z with fl := { z.fl with cmds := mput z.fl.cmds id c } })) ((withCmd { (cmd 0xFF 0 0 0 0 []) with phase := .executing } up).mapHif fun h => { h with rings := [(0, g)] }));
    ⟨id, c, g, s, by decide +kernel +zetaReduce⟩),
   (let id : Nat := 7;
    let c : Cmd := { (cmd 0xFF 0 0 0 0 []) with phase := .executing, dead := true };
    let s : State := (fun (z : State) => ({ z with fl := { z.fl with cmds := mput z.fl.cmds id c } })) (withCmd { (cmd 0xFF 0 0 0 0 []) with phase := .executing, dead := true } up);
    ⟨id, c, s, by decide +kernel +zetaReduce⟩),
   (let id : Nat := 7;
    let st : Status := .busy;
    let pre : Cmd → State → Option Status := fun _ _ => some .busy;
    let c : Cmd := cmd 0 0 0 0 0 [];
    let s : State := withCmd (cmd 0 0 0 0 0 []) up;
    let op : Nat := 0;
    ⟨id, op, pre, c, st, s, by decide +kernel +zetaReduce⟩)⟩

/-- A state and operands that meet the hypotheses of each clause of `Obligations.DoorbellRows`. -/
theorem witness_DoorbellRows :
    (∃ (r : Nat) (v : BitVec 32) (g : Ring) (s : State), s.hif.hostReady = true ∧ mfind s.hif.rings r = some g ∧ g.error = none ∧ v.toNat < 2 ^ g.cfg.sqDepth) ∧
    (∃ (r : Nat) (v : BitVec 32) (g : Ring) (s : State), s.hif.hostReady = true ∧ mfind s.hif.rings r = some g ∧ g.error = none ∧ 2 ^ g.cfg.sqDepth ≤ v.toNat) ∧
    (∃ (r : Nat) (v : BitVec 32) (g : Ring) (s : State), s.hif.hostReady = true ∧ mfind s.hif.rings r = some g ∧ g.error = none ∧ v.toNat < 2 ^ g.cfg.cqDepth ∧ (v.toNat + 2 ^ g.cfg.cqDepth - g.cqHead) % 2 ^ g.cfg.cqDepth ≤ g.used) ∧
    (∃ (r : Nat) (s : State), s.hif.hostReady = true ∧ mfind s.hif.rings r = none ∧ 1 ≤ r ∧ r < 1024) ∧
    (∃ (s : State), s.hif.hostReady = false) ∧
    (∃ (v : BitVec 32) (s : State), s.hif.hostReady = true ∧ v.toNat % 65536 < evqDepth s ∧ (v.toNat % 65536 + evqDepth s - s.hif.evqHead) % evqDepth s ≤ (s.hif.evqTail + evqDepth s - s.hif.evqHead) % evqDepth s) ∧
    (∃ (v : BitVec 32) (s : State), s.hif.hostReady = true ∧ evqDepth s ≤ v.toNat % 65536) ∧
    (∃ (v : BitVec 32) (rb : Nat) (d : Nat) (s : State), barLive s = true ∧ s.obs.ring = some (rb, d) ∧ v.toNat % 2 ^ 20 < 2 ^ d ∧ (v.toNat % 2 ^ 20 + 2 ^ d - s.obs.trHead) % 2 ^ d ≤ (s.obs.trIndex + 2 ^ d - s.obs.trHead) % 2 ^ d) :=
  ⟨(let r : Nat := 0;
    let g : Ring := (fun (z : Ring) => ({ z with error := none })) (Ring.init);
    let s : State := (fun (z : State) => ({ z with hif := { z.hif with rings := mput z.hif.rings r g } })) ((fun (z : State) => ({ z with hif := { z.hif with hostReady := true } })) (up));
    let v : BitVec 32 := 1;
    ⟨r, v, g, s, by decide +kernel +zetaReduce⟩),
   (let r : Nat := 0;
    let g : Ring := (fun (z : Ring) => ({ z with error := none })) (Ring.init);
    let v : BitVec 32 := 64;
    let s : State := (fun (z : State) => ({ z with hif := { z.hif with rings := mput z.hif.rings r g } })) ((fun (z : State) => ({ z with hif := { z.hif with hostReady := true } })) (up));
    ⟨r, v, g, s, by decide +kernel +zetaReduce⟩),
   (let r : Nat := 0;
    let g : Ring := { Ring.init with cqTail := 10, cqHead := 5, phase := true };
    let v : BitVec 32 := 10;
    let s : State := (fun (z : State) => ({ z with hif := { z.hif with rings := mput z.hif.rings r g } })) ((fun (z : State) => ({ z with hif := { z.hif with hostReady := true } })) (up));
    ⟨r, v, g, s, by decide +kernel +zetaReduce⟩),
   (let r : Nat := 1;
    let s : State := (fun (z : State) => ({ z with hif := { z.hif with rings := mdel z.hif.rings r } })) ((fun (z : State) => ({ z with hif := { z.hif with hostReady := true } })) (up));
    ⟨r, s, by decide +kernel +zetaReduce⟩),
   (let s : State := (fun (z : State) => ({ z with hif := { z.hif with hostReady := false } })) (up);
    ⟨s, by decide +kernel +zetaReduce⟩),
   (let v : BitVec 32 := 10;
    let s : State := (fun (z : State) => ({ z with hif := { z.hif with hostReady := true } })) (up.mapHif fun h => { h with evqTail := 12, evqHead := 3 });
    ⟨v, s, by decide +kernel +zetaReduce⟩),
   (let v : BitVec 32 := 65535;
    let s : State := (fun (z : State) => ({ z with hif := { z.hif with hostReady := true } })) (up);
    ⟨v, s, by decide +kernel +zetaReduce⟩),
   (let rb : Nat := 4096;
    let d : Nat := 6;
    let v : BitVec 32 := 63;
    let s : State := (fun (z : State) => ({ z with obs := { z.obs with ring := some (rb, d) } })) (up.mapObs fun o => { o with ring := some (4096, 6), trIndex := 63, trHead := 1 });
    ⟨v, rb, d, s, by decide +kernel +zetaReduce⟩)⟩

/-- A state and operands that meet the hypotheses of each clause of `Obligations.FetchAndInterruptRows`. -/
theorem witness_FetchAndInterruptRows :
    (∃ (r : Nat) (left : Nat) (g : Ring) (bytes : List Byte) (s : State), mayFetch s = true ∧ pickRing s = some (r, left) ∧ mfind s.hif.rings r = some g ∧ dmaAllowed s (g.cfg.sqBase.toNat + 64 * g.sqHead) 64 = true ∧ bytes.length = 64 ∧ fetchCheck { Cmd.init with ring := r, entry := bytes } = none ∧ groupAllowed s { Cmd.init with ring := r, entry := bytes } = true ∧ Cmd.flag { Cmd.init with ring := r, entry := bytes } 0 = false) ∧
    (∃ (r : Nat) (left : Nat) (g : Ring) (s : State), mayFetch s = true ∧ pickRing s = some (r, left) ∧ mfind s.hif.rings r = some g ∧ dmaAllowed s (g.cfg.sqBase.toNat + 64 * g.sqHead) 64 = false ∧ g.error = none) ∧
    (∃ (s : State), s.boot.d3hot = true) ∧
    (∃ (id : Nat) (c : Cmd) (s : State), s.tim.running = true ∧ firstDue s = some (id, c) ∧ mfind s.fl.cmds id = some c) ∧
    (∃ (e : Event) (s : State), evqOpen s = true ∧ s.fl.heldEv = [e] ∧ s.fl.lost = 0 ∧ evqRoom s = true ∧ evqAllowed s = true ∧ s.hreg.evqIntCount = 0) ∧
    (∃ (v : Nat) (s : State), s.boot.d3hot = false ∧ (unsignalled s v).2 ≠ 0 ∧ (unsignalled s v).1 ≠ [] ∧ (mget s.hif.msix v MsixEntry.init).mask = false) ∧
    (∃ (v : Nat) (s : State), s.boot.d3hot = false ∧ (unsignalled s v).2 ≠ 0 ∧ (unsignalled s v).1 ≠ [] ∧ (mget s.hif.msix v MsixEntry.init).mask = true) ∧
    (∃ (v : Nat) (s : State), v ≤ 1024 ∧ s.boot.d3hot = false) ∧
    (∃ (s : State), s.boot.d3hot = true) :=
  ⟨(let r : Nat := 0;
    let left : Nat := 0;
    let g : Ring := ({ Ring.init with sqHead := 63, sqTail := 1 } : Ring);
    let bytes : List Byte := entry 0x10 0 0 0 0 [];
    let s : State := (fun (z : State) => ({ z with hif := { z.hif with rings := mput z.hif.rings r g } })) (up.mapHif fun h => { h with rings := [(0, g)] });
    ⟨r, left, g, bytes, s, by decide +kernel +zetaReduce⟩),
   (let r : Nat := 0;
    let left : Nat := 0;
    let g : Ring := ({ Ring.init with sqHead := 63, sqTail := 1 } : Ring);
    let h : HostRead := .error;
    let s : State := (fun (z : State) => ({ z with hif := { z.hif with rings := mput z.hif.rings r g } })) ((up.mapHif fun h => { h with rings := [(0, g)] }).mapGuard fun x => { x with dmaRestrict := true });
    ⟨r, left, g, s, by decide +kernel +zetaReduce⟩),
   (let s : State := (fun (z : State) => ({ z with boot := { z.boot with d3hot := true } })) (up);
    ⟨s, by decide +kernel +zetaReduce⟩),
   (let id : Nat := 7;
    let c : Cmd := { (cmd 0xFF 1 0 0 0 [(8, 6, 1)]) with phase := .waiting };
    let s : State := (fun (z : State) => ({ z with fl := { z.fl with cmds := mput z.fl.cmds id c } })) ((fun (z : State) => ({ z with tim := { z.tim with running := true } })) ((withCmd { (cmd 0xFF 1 0 0 0 [(8, 6, 1)]) with phase := .waiting } up).mapTim fun t => { t with sec := 1, ns := 0 }));
    ⟨id, c, s, by decide +kernel +zetaReduce⟩),
   (let e : Event := Event.init;
    let s : State := (fun (z : State) => ({ z with hreg := { z.hreg with evqIntCount := 0 } })) ((fun (z : State) => ({ z with fl := { z.fl with lost := 0 } })) ((fun (z : State) => ({ z with fl := { z.fl with heldEv := [e] } })) ((up.mapFl fun f => { f with heldEv := [Event.init] }).mapHreg fun h => { h with evqIntCount := 0 })));
    ⟨e, s, by decide +kernel +zetaReduce⟩),
   (let v : Nat := 1024;
    let s : State := (fun (z : State) => ({ z with boot := { z.boot with d3hot := false } })) ((up.mapHif fun h => { h with evqUnsig := [5], msix := [(1024, { MsixEntry.init with mask := false })] }).mapHreg fun h => { h with evqIntTime := 1 });
    ⟨v, s, by decide +kernel +zetaReduce⟩),
   (let v : Nat := 1024;
    let s : State := (fun (z : State) => ({ z with boot := { z.boot with d3hot := false } })) ((up.mapHif fun h => { h with evqUnsig := [5], msix := [(1024, { MsixEntry.init with mask := true })] }).mapHreg fun h => { h with evqIntTime := 1 });
    ⟨v, s, by decide +kernel +zetaReduce⟩),
   (let s : State := (fun (z : State) => ({ z with boot := { z.boot with d3hot := false } })) (up);
    let v : Nat := 0;
    ⟨v, s, by decide +kernel +zetaReduce⟩),
   (let s : State := (fun (z : State) => ({ z with boot := { z.boot with d3hot := true } })) (up);
    ⟨s, by decide +kernel +zetaReduce⟩)⟩

/-- A state and operands that meet the hypotheses of each clause of `Obligations.HostInterfaceResetRows`. -/
theorem witness_HostInterfaceResetRows :
    (∃ (s : State), s.boot.fwReady = true) ∧
    (∃ (s : State), s.hreg.hifEnable = true) ∧
    (∃ (s : State), s.hreg.hifEnable = false) ∧
    (∃ (s : State), s.boot.fwReady = true ∧ s.hreg.hifEnable = true ∧ s.hif.hostReady = false ∧ (many s.fl.cmds fun _ c => c.dead) = false) :=
  ⟨(let s : State := (fun (z : State) => ({ z with boot := { z.boot with fwReady := true } })) (up);
    ⟨s, by decide +kernel +zetaReduce⟩),
   (let s : State := (fun (z : State) => ({ z with hreg := { z.hreg with hifEnable := true } })) (up);
    ⟨s, by decide +kernel +zetaReduce⟩),
   (let s : State := (fun (z : State) => ({ z with hreg := { z.hreg with hifEnable := false } })) (up);
    ⟨s, by decide +kernel +zetaReduce⟩),
   (let s : State := (fun (z : State) => ({ z with hif := { z.hif with hostReady := false } })) ((fun (z : State) => ({ z with hreg := { z.hreg with hifEnable := true } })) ((fun (z : State) => ({ z with boot := { z.boot with fwReady := true } })) (up)));
    ⟨s, by decide +kernel +zetaReduce⟩)⟩

/-- A state and operands that meet the hypotheses of each clause of `Obligations.RingCommands`. -/
theorem witness_RingCommands :
    (∃ (id : Nat) (c : Cmd) (s : State), Begins s id 0x04 c ∧ 1 ≤ c.target ∧ c.target ≤ 1023 ∧ c.indLen = 0 ∧ (ringParams c).valid = true ∧ c.inlZero 51 1 = true ∧ c.inlZero 54 10 = true ∧ mhas s.hif.rings c.target = false ∧ (ringParams c).allowed s = true) ∧
    (∃ (id : Nat) (c : Cmd) (g : Ring) (s : State), Begins s id 0x05 c ∧ 1 ≤ c.target ∧ c.target ≤ 1023 ∧ c.target ≠ c.ring ∧ noFields c = true ∧ mfind s.hif.rings c.target = some g ∧ g.deleting = false ∧ (many s.fl.cmds fun k d => decide (d.ring = c.target) && !d.dead && decide (k ≠ id)) = true ∧ c.dead = false ∧ (many s.fl.cmds fun _ d => decide (d.opcode = 0x05) && decide (d.phase = .executing)) = false) ∧
    (∃ (id : Nat) (c : Cmd) (g : Ring) (s : State), Begins s id 0x06 c ∧ 1 ≤ c.target ∧ c.target ≤ 1023 ∧ noFields c = true ∧ mfind s.hif.rings c.target = some g ∧ g.error.isSome = true ∧ reserved (beginCmd id c s) c.target = 0) ∧
    (∃ (id : Nat) (c : Cmd) (g : Ring) (s : State), Begins s id 0x07 c ∧ c.target ≤ 1023 ∧ noFields c = true ∧ mfind s.hif.rings c.target = some g ∧ s.fl.cmds.length + s.fl.heldCpl.length < 16384) ∧
    (∃ (id : Nat) (c : Cmd) (s : State), Begins s id 0x01 c ∧ plainBad c 0 0 = false) ∧
    (∃ (id : Nat) (c : Cmd) (s : State), Begins s id 0x02 c ∧ blockBad c 0 256 = false ∧ dmaAllowed s c.indAddr 256 = true) :=
  ⟨(let c : Cmd := cmd (0x04) (0) (1023) (0) (4096) [(48, 1, 6), (49, 1, 6)];
    let id : Nat := 7;
    let s : State := withCmd c (up);
    ⟨id, c, s, by unfold Begins; decide +kernel +zetaReduce⟩),
   (let g : Ring := Ring.init;
    let c : Cmd := cmd (0x05) (0) (1) (0) (4096) [];
    let id : Nat := 7;
    let s : State := (withCmd c ((up.mapHif fun h => { h with rings := [(0, Ring.init), (1, Ring.init)] }))).mapFl fun f => { f with cmds := [(7, c), (8, { (cmd 0 0 0 0 0 []) with ring := 1 })] };
    ⟨id, c, g, s, by unfold Begins; decide +kernel +zetaReduce⟩),
   (let g : Ring := { Ring.init with error := some 0 };
    let c : Cmd := cmd (0x06) (0) (1) (0) (4096) [];
    let id : Nat := 7;
    let s : State := withCmd c (up.mapHif fun h => { h with rings := [(0, Ring.init), (1, { Ring.init with error := some 0 })] });
    ⟨id, c, g, s, by unfold Begins; decide +kernel +zetaReduce⟩),
   (let g : Ring := Ring.init;
    let c : Cmd := cmd (0x07) (0) (0) (0) (4096) [];
    let id : Nat := 7;
    let s : State := withCmd c (up);
    ⟨id, c, g, s, by unfold Begins; decide +kernel +zetaReduce⟩),
   (let c : Cmd := cmd (0x01) (0) (0) (0) (4096) [];
    let id : Nat := 7;
    let s : State := withCmd c (up);
    ⟨id, c, s, by unfold Begins; decide +kernel +zetaReduce⟩),
   (let c : Cmd := cmd (0x02) (0) (0) (256) (4096) [];
    let id : Nat := 7;
    let s : State := withCmd c (up);
    ⟨id, c, s, by unfold Begins; decide +kernel +zetaReduce⟩)⟩

/-- A state and operands that meet the hypotheses of each clause of `Obligations.RegisterReadRows`. -/
theorem witness_RegisterReadRows :
    (∃ (off : Nat) (v : Nat) (s : State), barLive s = true ∧ off % 4 = 0 ∧ offBlock s off = false ∧ off ≠ 0x30000 ∧ slotOf off = none ∧ reg64 s off = some v) ∧
    (∃ (off : Nat) (v : Nat) (s : State), barLive s = true ∧ off % 8 = 4 ∧ offBlock s off = false ∧ slotOf off = none ∧ reg64 s (off - 4) = some v) ∧
    (∃ (s : State), barLive s = true) ∧
    (∃ (off : Nat) (v : Nat) (s : State), barLive s = true ∧ off % 8 = 0 ∧ offBlock s off = false ∧ off ≠ 0x30000 ∧ slotOf off = none ∧ reg64 s off = some v) ∧
    (∃ (off : Nat) (len : Nat) (s : State), barLive s = true ∧ s.guard.bar4 = false ∧ len ∈ [4, 8, 16, 32, 64] ∧ off % len = 0) ∧
    (∃ (off : Nat) (k : Nat) (s : State), barLive s = true ∧ s.guard.bar4 = true ∧ s.obs.snapDone ≠ 0 ∧ k < 64 ∧ off = 0x1000 + 64 + 8 * k) ∧
    (∃ (bar : Nat) (off : Nat) (len : Nat) (s : State), barLive s = true ∧ ((bar = 0 ∧ ((len ≠ 4 ∧ len ≠ 8) ∨ off % len ≠ 0)) ∨ (bar = 2 ∧ (8 < len ∨ off % len ≠ 0)) ∨ (bar = 4 ∧ (64 < len ∨ len < 4 ∨ off % len ≠ 0)))) ∧
    (∃ (s : State), barLive s = true ∧ s.tim.blockOn = true ∧ s.tim.running = true) ∧
    (∃ (i : Nat) (s : State), barLive s = true ∧ i < 256) ∧
    (∃ (off : Nat) (s : State), barLive s = true ∧ s.tim.blockOn = false ∧ 0x30000 ≤ off ∧ off < 0x3001C) ∧
    (∃ (s : State), s.boot.pcieTrain = true ∧ s.boot.fwReady = false) ∧
    (∃ (s : State), s.boot.pcieTrain = true ∧ s.boot.fwReady = true) :=
  ⟨(let off : Nat := 0x10010;
    let v : Nat := 4096;
    let s : State := up.mapHreg fun h => { h with ring0 := { RingCfg.init with sqBase := 4096 } };
    ⟨off, v, s, by decide +kernel +zetaReduce⟩),
   (let off : Nat := 0x10014;
    let v : Nat := 0;
    let s : State := up;
    ⟨off, v, s, by decide +kernel +zetaReduce⟩),
   (let s : State := up;
    ⟨s, by decide +kernel +zetaReduce⟩),
   (let off : Nat := 0x10010;
    let v : Nat := 4096;
    let s : State := up.mapHreg fun h => { h with ring0 := { RingCfg.init with sqBase := 4096 } };
    ⟨off, v, s, by decide +kernel +zetaReduce⟩),
   (let off : Nat := 8;
    let len : Nat := 4;
    let s : State := (fun (z : State) => ({ z with guard := { z.guard with bar4 := false } })) (up);
    ⟨off, len, s, by decide +kernel +zetaReduce⟩),
   (let off : Nat := 4160;
    let k : Nat := 0;
    let s : State := (fun (z : State) => ({ z with obs := { z.obs with snapDone := 1 } })) ((fun (z : State) => ({ z with guard := { z.guard with bar4 := true } })) (up));
    ⟨off, k, s, by decide +kernel +zetaReduce⟩),
   (let s : State := up;
    let bar : Nat := 0;
    let off : Nat := 0;
    let len : Nat := 0;
    ⟨bar, off, len, s, by decide +kernel +zetaReduce⟩),
   (let s : State := (fun (z : State) => ({ z with tim := { z.tim with running := true } })) ((fun (z : State) => ({ z with tim := { z.tim with blockOn := true } })) (up));
    ⟨s, by decide +kernel +zetaReduce⟩),
   (let s : State := up;
    let i : Nat := 0;
    ⟨i, s, by decide +kernel +zetaReduce⟩),
   (let off : Nat := 0x30000;
    let s : State := (fun (z : State) => ({ z with tim := { z.tim with blockOn := false } })) (up);
    ⟨off, s, by decide +kernel +zetaReduce⟩),
   (let s : State := (fun (z : State) => ({ z with boot := { z.boot with fwReady := false } })) ((fun (z : State) => ({ z with boot := { z.boot with pcieTrain := true } })) (up));
    ⟨s, by decide +kernel +zetaReduce⟩),
   (let s : State := (fun (z : State) => ({ z with boot := { z.boot with fwReady := true } })) ((fun (z : State) => ({ z with boot := { z.boot with pcieTrain := true } })) (up));
    ⟨s, by decide +kernel +zetaReduce⟩)⟩

/-- A state and operands that meet the hypotheses of each clause of `Obligations.RegisterWriteRows`. -/
theorem witness_RegisterWriteRows :
    (∃ (off : Nat) (s : State), barLive s = true ∧ s.hreg.hifEnable = true ∧ isParam off = true ∧ off % 4 = 0) ∧
    (∃ (v : BitVec 64) (s : State), barLive s = true ∧ s.hreg.hifEnable = false ∧ v.toNat % 4096 = 0) ∧
    (∃ (v : BitVec 64) (s : State), barLive s = true ∧ s.hreg.hifEnable = false ∧ v.toNat % 4096 ≠ 0) ∧
    (∃ (s : State), barLive s = true ∧ s.hreg.hifEnable = false) ∧
    (∃ (low : BitVec 32) (s : State), barLive s = true ∧ s.hreg.hifEnable = false ∧ mfind s.hreg.staged 0x10018 = some low ∧ low.toNat % 4096 = 0) ∧
    (∃ (s : State), barLive s = true) ∧
    (∃ (r : Nat) (s : State), barLive s = true ∧ r ≤ 1023) ∧
    (∃ (bar : Nat) (off : Nat) (len : Nat) (s : State), barLive s = true ∧ ((bar = 0 ∧ len ≠ 4 ∧ len ≠ 8) ∨ (bar = 0 ∧ off % 4 ≠ 0) ∨ (bar = 2 ∧ len ≠ 4) ∨ (bar = 2 ∧ off % 4 ≠ 0) ∨ bar = 4)) ∧
    (∃ (s : State), barLive s = true) ∧
    (∃ (s : State), barLive s = true ∧ s.tim.blockOn = true ∧ s.tim.running = true) ∧
    (∃ (i : Nat) (s : State), barLive s = true ∧ i < 256) ∧
    (∃ (off : Nat) (s : State), barLive s = true ∧ s.tim.blockOn = false ∧ 0x30000 ≤ off ∧ off < 0x3001C) ∧
    (∃ (s : State), s.boot.pcieTrain = true ∧ s.boot.fwReady = true) :=
  ⟨(let off : Nat := 0x10024;
    let s : State := (fun (z : State) => ({ z with hreg := { z.hreg with hifEnable := true } })) (up);
    ⟨off, s, by decide +kernel +zetaReduce⟩),
   (let v : BitVec 64 := 0x10000000;
    let s : State := (fun (z : State) => ({ z with hreg := { z.hreg with hifEnable := false } })) (up);
    ⟨v, s, by decide +kernel +zetaReduce⟩),
   (let s : State := (fun (z : State) => ({ z with hreg := { z.hreg with hifEnable := false } })) (up);
    let v : BitVec 64 := 1;
    ⟨v, s, by decide +kernel +zetaReduce⟩),
   (let s : State := (fun (z : State) => ({ z with hreg := { z.hreg with hifEnable := false } })) (up);
    ⟨s, by decide +kernel +zetaReduce⟩),
   (let low : BitVec 32 := 0x1000;
    let s : State := (fun (z : State) => ({ z with hreg := { z.hreg with staged := mput z.hreg.staged 0x10018 low } })) ((fun (z : State) => ({ z with hreg := { z.hreg with hifEnable := false } })) (up));
    ⟨low, s, by decide +kernel +zetaReduce⟩),
   (let s : State := up;
    ⟨s, by decide +kernel +zetaReduce⟩),
   (let s : State := up;
    let r : Nat := 0;
    ⟨r, s, by decide +kernel +zetaReduce⟩),
   (let s : State := up;
    let bar : Nat := 0;
    let off : Nat := 0;
    let len : Nat := 0;
    ⟨bar, off, len, s, by decide +kernel +zetaReduce⟩),
   (let s : State := up;
    ⟨s, by decide +kernel +zetaReduce⟩),
   (let s : State := (fun (z : State) => ({ z with tim := { z.tim with running := true } })) ((fun (z : State) => ({ z with tim := { z.tim with blockOn := true } })) (up));
    ⟨s, by decide +kernel +zetaReduce⟩),
   (let s : State := up;
    let i : Nat := 0;
    ⟨i, s, by decide +kernel +zetaReduce⟩),
   (let off : Nat := 0x30000;
    let s : State := (fun (z : State) => ({ z with tim := { z.tim with blockOn := false } })) (up);
    ⟨off, s, by decide +kernel +zetaReduce⟩),
   (let s : State := (fun (z : State) => ({ z with boot := { z.boot with fwReady := true } })) ((fun (z : State) => ({ z with boot := { z.boot with pcieTrain := true } })) (up));
    ⟨s, by decide +kernel +zetaReduce⟩)⟩

/-- A state and operands that meet the hypotheses of each clause of `Obligations.SnapshotRows`. -/
theorem witness_SnapshotRows :
    (∃ (id : Nat) (c : Cmd) (s : State), Begins s id 0xC0 c ∧ plainBad c 0 1 = false ∧ c.byte 32 ≤ 3 ∧ s.obs.snapRun = none) ∧
    (∃ (id : Nat) (c : Cmd) (r : SnapRun) (s : State), Begins s id 0xC0 c ∧ plainBad c 0 1 = false ∧ c.byte 32 ≤ 3 ∧ s.obs.snapRun = some r) ∧
    (∃ (id : Nat) (c : Cmd) (s : State), Begins s id 0xC1 c ∧ plainBad c 0 12 = false ∧ c.inl 32 8 % 4096 = 0 ∧ c.inl 40 4 ≤ 10000 ∧ dmaAllowed s (c.inl 32 8) snapSize = true) ∧
    (∃ (s : State), s.obs.snapPeriod ≠ 0 ∧ s.obs.snapRun = none) ∧
    (∃ (r : SnapRun) (s : State), s.obs.snapPeriod ≠ 0 ∧ s.obs.snapRun = some r) ∧
    (∃ (r : SnapRun) (s : State), s.obs.snapRun = some r ∧ r.dma = false ∧ s.obs.snapWait = []) :=
  ⟨(let c : Cmd := cmd (0xC0) (0) (0) (0) (4096) [];
    let id : Nat := 7;
    let s : State := withCmd c ((fun (z : State) => ({ z with obs := { z.obs with snapRun := none } })) (up));
    ⟨id, c, s, by unfold Begins; decide +kernel +zetaReduce⟩),
   (let r : SnapRun := SnapRun.init;
    let c : Cmd := cmd (0xC0) (0) (0) (0) (4096) [];
    let id : Nat := 7;
    let s : State := withCmd c ((fun (z : State) => ({ z with obs := { z.obs with snapRun := some r } })) (up));
    ⟨id, c, r, s, by unfold Begins; decide +kernel +zetaReduce⟩),
   (let c : Cmd := cmd (0xC1) (0) (0) (0) (4096) [];
    let id : Nat := 7;
    let s : State := withCmd c (up);
    ⟨id, c, s, by unfold Begins; decide +kernel +zetaReduce⟩),
   (let s : State := (fun (z : State) => ({ z with obs := { z.obs with snapRun := none } })) ((fun (z : State) => ({ z with obs := { z.obs with snapPeriod := 1 } })) (up));
    ⟨s, by decide +kernel +zetaReduce⟩),
   (let r : SnapRun := SnapRun.init;
    let s : State := (fun (z : State) => ({ z with obs := { z.obs with snapRun := some r } })) ((fun (z : State) => ({ z with obs := { z.obs with snapPeriod := 1 } })) (up));
    ⟨r, s, by decide +kernel +zetaReduce⟩),
   (let r : SnapRun := (fun (z : SnapRun) => ({ z with dma := false })) (SnapRun.init);
    let s : State := (fun (z : State) => ({ z with obs := { z.obs with snapWait := [] } })) ((fun (z : State) => ({ z with obs := { z.obs with snapRun := some r } })) (up));
    ⟨r, s, by decide +kernel +zetaReduce⟩)⟩

/-- A state and operands that meet the hypotheses of each clause of `Obligations.ProfilingAndTraceRows`. -/
theorem witness_ProfilingAndTraceRows :
    (∃ (id : Nat) (c : Cmd) (s : State), Begins s id 0xC2 c ∧ plainBad c 7 4 = false ∧ c.byte 32 ≤ 3 ∧ c.inlZero 33 1 = true ∧ profCodeOk (c.inl 34 2) = true ∧ c.flag 2 = false) ∧
    (∃ (id : Nat) (c : Cmd) (s : State), Begins s id 0xC3 c ∧ plainBad c 8 0 = false) ∧
    (∃ (id : Nat) (c : Cmd) (s : State), Begins s id 0xC4 c ∧ plainBad c 255 4 = false ∧ 100 ≤ c.inl 32 4 ∧ c.inl 32 4 ≤ 10000000) ∧
    (∃ (id : Nat) (c : Cmd) (b : Bw) (s : State), Begins s id 0xC5 c ∧ plainBad c 255 0 = false ∧ mget s.obs.bw c.target Bw.init = b ∧ b.rates.1 < 2 ^ 32 ∧ b.rates.2 < 2 ^ 32 ∧ b.peaks.1 < 2 ^ 32 ∧ b.peaks.2 < 2 ^ 32) ∧
    (∃ (p : Nat) (s : State), s.boot.fwReady = true ∧ p ≤ 255 ∧ (mget s.obs.bw p Bw.init).existed = false) ∧
    (∃ (id : Nat) (c : Cmd) (s : State), Begins s id 0xC6 c ∧ traceBad c = false ∧ c.target = 0x100 ∧ c.flag 2 = false) ∧
    (∃ (id : Nat) (c : Cmd) (s : State), Begins s id 0xC6 c ∧ traceBad c = false ∧ c.target ≠ 0x100 ∧ c.flag 2 = false ∧ c.byte 32 ≠ 0) ∧
    (∃ (id : Nat) (c : Cmd) (s : State), Begins s id 0xC7 c ∧ plainBad c 0 0 = false) ∧
    (∃ (s : State), s.obs.trUnposted ≠ 0 ∧ s.obs.trPostAt = none) :=
  ⟨(let c : Cmd := cmd (0xC2) (0) (0) (0) (4096) [(32, 1, 3), (34, 2, 0x100)];
    let id : Nat := 7;
    let s : State := withCmd c (up);
    ⟨id, c, s, by unfold Begins; decide +kernel +zetaReduce⟩),
   (let c : Cmd := cmd (0xC3) (0) (0) (0) (4096) [];
    let id : Nat := 7;
    let s : State := withCmd c (up);
    ⟨id, c, s, by unfold Begins; decide +kernel +zetaReduce⟩),
   (let c : Cmd := cmd (0xC4) (0) (0) (0) (4096) [(32, 4, 100)];
    let id : Nat := 7;
    let s : State := withCmd c (up);
    ⟨id, c, s, by unfold Begins; decide +kernel +zetaReduce⟩),
   (let c : Cmd := cmd (0xC5) (0) (0) (0) (4096) [];
    let id : Nat := 7;
    let s : State := withCmd c (up);
    let b : Bw := Bw.init;
    ⟨id, c, b, s, by unfold Begins; decide +kernel +zetaReduce⟩),
   (let s : State := (fun (z : State) => ({ z with boot := { z.boot with fwReady := true } })) (up);
    let p : Nat := 0;
    ⟨p, s, by decide +kernel +zetaReduce⟩),
   (let c : Cmd := cmd (0xC6) (0) (0x100) (0) (4096) [(33, 1, 0x10), (40, 1, 6)];
    let id : Nat := 7;
    let s : State := withCmd c (up);
    ⟨id, c, s, by unfold Begins; decide +kernel +zetaReduce⟩),
   (let c : Cmd := cmd (0xC6) (0) (5) (0) (4096) [(32, 1, 30)];
    let id : Nat := 7;
    let s : State := withCmd c (up);
    ⟨id, c, s, by unfold Begins; decide +kernel +zetaReduce⟩),
   (let c : Cmd := cmd (0xC7) (0) (0) (0) (4096) [];
    let id : Nat := 7;
    let s : State := withCmd c (up);
    ⟨id, c, s, by unfold Begins; decide +kernel +zetaReduce⟩),
   (let s : State := (fun (z : State) => ({ z with obs := { z.obs with trPostAt := none } })) ((fun (z : State) => ({ z with obs := { z.obs with trUnposted := 1 } })) (up));
    ⟨s, by decide +kernel +zetaReduce⟩)⟩

/-- A state and operands that meet the hypotheses of each clause of `Obligations.PowerStateRows`. -/
theorem witness_PowerStateRows :
    (∃ (id : Nat) (c : Cmd) (s : State), Begins s id 0x90 c ∧ powerBad c = false ∧ c.byte 32 = 1 ∧ s.boot.state = .active ∧ queuesEmpty s = false) ∧
    (∃ (id : Nat) (c : Cmd) (s : State), Begins s id 0x90 c ∧ powerBad c = false ∧ c.byte 32 = 0 ∧ s.boot.state = .active) ∧
    (∃ (id : Nat) (c : Cmd) (s : State), Begins s id 0x90 c ∧ powerBad c = false ∧ c.byte 32 = 2 ∧ s.boot.state = .quiesce ∧ holdsRole s = false ∧ othersExecute id (beginCmd id c s) = false) ∧
    (∃ (s : State), s.boot.state ≠ .active) ∧
    (∃ (s : State), s.buf.drain = true ∧ s.boot.state = .active) ∧
    (∃ (s : State), s.boot.state = .retain ∧ s.retn.early = none) ∧
    (∃ (id : Nat) (c : Cmd) (s : State), Begins s id 0x91 c ∧ plainBad c 0 1 = false ∧ c.byte 32 ≤ 1 ∧ s.bed.cageHeld = false) ∧
    (∃ (id : Nat) (c : Cmd) (s : State), Begins s id 0x91 c ∧ plainBad c 0 1 = false ∧ c.byte 32 = 1 ∧ s.bed.cageHeld = true) ∧
    (∃ (id : Nat) (c : Cmd) (s : State), Begins s id 0x92 c ∧ plainBad c 0 0 = false) ∧
    (∃ (s : State), s.boot.started = true) ∧
    (∃ (s : State), s.health.vackSince = true) ∧
    (∃ (s : State), s.retn.inRetain = true ∧ s.retn.timer ≠ 0 ∧ bitOf s.retn.sources 1 = true) ∧
    (∃ (n : Nat) (s : State), n < 32 ∧ railUp s 8 = true ∧ s.retn.inRetain = true ∧ bitOf s.retn.sources 2 = true) ∧
    (∃ (s : State), railUp s 11 = true ∧ s.retn.inRetain = true ∧ bitOf s.retn.sources 3 = true) ∧
    (∃ (n : Nat) (s : State), n < 64 ∧ railUp s 7 = true ∧ s.retn.inRetain = true ∧ bitOf s.retn.sources 4 = true) ∧
    (∃ (b : Nat) (had : BitVec 32 × Nat) (s : State), s.boot.started = true ∧ s.retn.check.contains b = true ∧ mfind s.retn.sigs b = some had) :=
  ⟨(let c : Cmd := cmd (0x90) (0) (0) (0) (4096) [(32, 1, 1)];
    let id : Nat := 7;
    let s : State := withCmd c ((fun (z : State) => ({ z with boot := { z.boot with state := .active } })) (up.mapBuf fun b => { b with iq := [(0, { Queue.init with pkts := [Pkt.init] })] }));
    ⟨id, c, s, by unfold Begins; decide +kernel +zetaReduce⟩),
   (let c : Cmd := cmd (0x90) (0) (0) (0) (4096) [(32, 1, 0)];
    let id : Nat := 7;
    let s : State := withCmd c ((fun (z : State) => ({ z with boot := { z.boot with state := .active } })) (up));
    ⟨id, c, s, by unfold Begins; decide +kernel +zetaReduce⟩),
   (let c : Cmd := cmd (0x90) (0) (0) (0) (4096) [(32, 1, 2)];
    let id : Nat := 7;
    let s : State := withCmd c ((fun (z : State) => ({ z with boot := { z.boot with state := .quiesce } })) (up));
    ⟨id, c, s, by unfold Begins; decide +kernel +zetaReduce⟩),
   (let s : State := up.mapBoot fun b => { b with state := .quiesce };
    ⟨s, by decide +kernel +zetaReduce⟩),
   (let s : State := (fun (z : State) => ({ z with boot := { z.boot with state := .active } })) ((fun (z : State) => ({ z with buf := { z.buf with drain := true } })) (up));
    ⟨s, by decide +kernel +zetaReduce⟩),
   (let s : State := (fun (z : State) => ({ z with retn := { z.retn with early := none } })) ((fun (z : State) => ({ z with boot := { z.boot with state := .retain } })) (up));
    ⟨s, by decide +kernel +zetaReduce⟩),
   (let c : Cmd := cmd (0x91) (0) (0) (0) (4096) [];
    let id : Nat := 7;
    let s : State := withCmd c ((fun (z : State) => ({ z with bed := { z.bed with cageHeld := false } })) (up));
    ⟨id, c, s, by unfold Begins; decide +kernel +zetaReduce⟩),
   (let c : Cmd := cmd (0x91) (0) (0) (0) (4096) [(32, 1, 1)];
    let id : Nat := 7;
    let s : State := withCmd c ((fun (z : State) => ({ z with bed := { z.bed with cageHeld := true } })) (up));
    ⟨id, c, s, by unfold Begins; decide +kernel +zetaReduce⟩),
   (let c : Cmd := cmd (0x92) (0) (0) (0) (4096) [];
    let id : Nat := 7;
    let s : State := withCmd c (up);
    ⟨id, c, s, by unfold Begins; decide +kernel +zetaReduce⟩),
   (let s : State := (fun (z : State) => ({ z with boot := { z.boot with started := true } })) (up);
    ⟨s, by decide +kernel +zetaReduce⟩),
   (let s : State := (fun (z : State) => ({ z with health := { z.health with vackSince := true } })) (up);
    ⟨s, by decide +kernel +zetaReduce⟩),
   (let s : State := (fun (z : State) => ({ z with retn := { z.retn with sources := 2 ^ 64 - 1 } })) ((fun (z : State) => ({ z with retn := { z.retn with timer := 1 } })) ((fun (z : State) => ({ z with retn := { z.retn with inRetain := true } })) (up)));
    ⟨s, by decide +kernel +zetaReduce⟩),
   (let s : State := (fun (z : State) => ({ z with retn := { z.retn with sources := 2 ^ 64 - 1 } })) ((fun (z : State) => ({ z with retn := { z.retn with inRetain := true } })) (up));
    let n : Nat := 0;
    ⟨n, s, by decide +kernel +zetaReduce⟩),
   (let s : State := (fun (z : State) => ({ z with retn := { z.retn with sources := 2 ^ 64 - 1 } })) ((fun (z : State) => ({ z with retn := { z.retn with inRetain := true } })) (up));
    ⟨s, by decide +kernel +zetaReduce⟩),
   (let s : State := (fun (z : State) => ({ z with retn := { z.retn with sources := 2 ^ 64 - 1 } })) ((fun (z : State) => ({ z with retn := { z.retn with inRetain := true } })) (up));
    let n : Nat := 0;
    ⟨n, s, by decide +kernel +zetaReduce⟩),
   (let b : Nat := 5;
    let had : BitVec 32 × Nat := (1, 0);
    let s : State := (fun (z : State) => ({ z with retn := { z.retn with sigs := mput z.retn.sigs b had } })) ((fun (z : State) => ({ z with boot := { z.boot with started := true } })) (up.mapRetn fun r => { r with check := [5], sigs := [(5, (1, 0))] }));
    ⟨b, had, s, by decide +kernel +zetaReduce⟩)⟩

/-- A state and operands that meet the hypotheses of each clause of `Obligations.WakeRows`. -/
theorem witness_WakeRows :
    (∃ (s : State), s.retn.inRetain = true ∧ s.retn.timer ≠ 0 ∧ bitOf s.retn.sources 1 = true) ∧
    (∃ (n : Nat) (s : State), n < 32 ∧ railUp s 8 = true ∧ s.retn.inRetain = true ∧ bitOf s.retn.sources 2 = true) ∧
    (∃ (s : State), railUp s 11 = true ∧ s.retn.inRetain = true ∧ bitOf s.retn.sources 3 = true) ∧
    (∃ (n : Nat) (s : State), n < 64 ∧ railUp s 7 = true ∧ s.retn.inRetain = true ∧ bitOf s.retn.sources 4 = true) ∧
    (∃ (i : Instr) (n : Nat) (s : State), s.retn.sources = 0 ∧ i ∈ [Instr.wakeTimer, .wakePresenceChange n, .wakePpsEdge, .wakeGarnetActivity n]) ∧
    (∃ (i : Instr) (n : Nat) (s : State), s.retn.inRetain = false ∧ s.boot.state ≠ .retain ∧ i ∈ [Instr.wakeTimer, .wakePresenceChange n, .wakePpsEdge, .wakeGarnetActivity n]) ∧
    (∃ (b : Nat) (had : BitVec 32 × Nat) (s : State), s.boot.started = true ∧ s.retn.check.contains b = true ∧ mfind s.retn.sigs b = some had) ∧
    (∃ (b : Nat) (s : State), (region s (1 + b)).mixed = false) :=
  ⟨(let s : State := (fun (z : State) => ({ z with retn := { z.retn with sources := 2 ^ 64 - 1 } })) ((fun (z : State) => ({ z with retn := { z.retn with timer := 1 } })) ((fun (z : State) => ({ z with retn := { z.retn with inRetain := true } })) (up)));
    ⟨s, by decide +kernel +zetaReduce⟩),
   (let s : State := (fun (z : State) => ({ z with retn := { z.retn with sources := 2 ^ 64 - 1 } })) ((fun (z : State) => ({ z with retn := { z.retn with inRetain := true } })) (up));
    let n : Nat := 0;
    ⟨n, s, by decide +kernel +zetaReduce⟩),
   (let s : State := (fun (z : State) => ({ z with retn := { z.retn with sources := 2 ^ 64 - 1 } })) ((fun (z : State) => ({ z with retn := { z.retn with inRetain := true } })) (up));
    ⟨s, by decide +kernel +zetaReduce⟩),
   (let s : State := (fun (z : State) => ({ z with retn := { z.retn with sources := 2 ^ 64 - 1 } })) ((fun (z : State) => ({ z with retn := { z.retn with inRetain := true } })) (up));
    let n : Nat := 0;
    ⟨n, s, by decide +kernel +zetaReduce⟩),
   (let i : Instr := .wakeTimer;
    let n : Nat := 0;
    let s : State := (fun (z : State) => ({ z with retn := { z.retn with sources := 0 } })) (up);
    ⟨i, n, s, by decide +kernel +zetaReduce⟩),
   (let i : Instr := .wakeTimer;
    let n : Nat := 0;
    let s : State := (fun (z : State) => ({ z with retn := { z.retn with inRetain := false } })) (up);
    ⟨i, n, s, by decide +kernel +zetaReduce⟩),
   (let b : Nat := 5;
    let had : BitVec 32 × Nat := (1, 0);
    let s : State := (fun (z : State) => ({ z with retn := { z.retn with sigs := mput z.retn.sigs b had } })) ((fun (z : State) => ({ z with boot := { z.boot with started := true } })) (up.mapRetn fun r => { r with check := [5], sigs := [(5, (1, 0))] }));
    ⟨b, had, s, by decide +kernel +zetaReduce⟩),
   (let s : State := up;
    let b : Nat := 0;
    ⟨b, s, by decide +kernel +zetaReduce⟩)⟩

/-- A state and operands that meet the hypotheses of each clause of `Obligations.CalibrationRows`. -/
theorem witness_CalibrationRows :
    (∃ (n : Nat) (l : Lane) (s : State), s.lanes.tab.find? (fun p => p.2.waitSlot && p.2.cal.isSome) = some (n, l) ∧ slotsUsed s < 64 ∧ s.bed.boActive = false ∧ railUp s 5 = true ∧ railUp s 6 = true) ∧
    (∃ (n : Nat) (meas : List Meas) (t0 : Int) (t1 : Int) (c : Cal) (s : State), (lane s n).cal = some c ∧ (lane s n).waitSlot = false ∧ c.running = true ∧ c.geode = false ∧ c.runs = [] ∧ s.bed.boActive = false ∧ fgRunOk s n { meas := meas, t0 := t0, t1 := t1 } = true) ∧
    (∃ (n : Nat) (meas : List Meas) (t0 : Int) (t1 : Int) (c : Cal) (s : State), (lane s n).cal = some c ∧ (lane s n).waitSlot = false ∧ c.running = true ∧ c.geode = false ∧ c.runs = [] ∧ c.attempt = 1 ∧ s.bed.boActive = false ∧ fgRunOk s n { meas := meas, t0 := t0, t1 := t1 } = false) ∧
    (∃ (n : Nat) (meas : List Meas) (t0 : Int) (t1 : Int) (c : Cal) (s : State), (lane s n).cal = some c ∧ (lane s n).waitSlot = false ∧ c.running = true ∧ c.geode = false ∧ c.runs = [] ∧ c.attempt = 2 ∧ c.failed1 = [] ∧ s.bed.boActive = false ∧ fgRunOk s n { meas := meas, t0 := t0, t1 := t1 } = false) ∧
    (∃ (s : State), s.bed.boActive = true) ∧
    (∃ (n : Nat) (c : Cal) (s : State), (lane s n).cal = some c ∧ c.attempt = 2 ∧ c.running = false ∧ s.bed.boActive = false) :=
  ⟨(let n : Nat := 0;
    let l : Lane := ({ Lane.init with waitSlot := true, cal := some Cal.init } : Lane);
    let s : State := (fun (z : State) => ({ z with bed := { z.bed with boActive := false } })) (up.mapLanes fun b => { b with tab := [(0, l)] });
    ⟨n, l, s, by decide +kernel +zetaReduce⟩),
   (let n : Nat := 0;
    let c : Cal := (fun (z : Cal) => ({ z with runs := [] })) ((fun (z : Cal) => ({ z with geode := false })) ((fun (z : Cal) => ({ z with running := true })) (Cal.init)));
    let meas : List Meas := zeroMeas;
    let t0 : Int := 640;
    let t1 : Int := 640;
    let s : State := (fun (z : State) => ({ z with bed := { z.bed with boActive := false } })) ((fun (z : State) => (modLane n (fun y => { y with waitSlot := false }) z)) ((fun (z : State) => (modLane n (fun y => { y with cal := some c }) z)) (up)));
    ⟨n, meas, t0, t1, c, s, by decide +kernel +zetaReduce⟩),
   (let n : Nat := 0;
    let c : Cal := (fun (z : Cal) => ({ z with attempt := 1 })) ((fun (z : Cal) => ({ z with runs := [] })) ((fun (z : Cal) => ({ z with geode := false })) ((fun (z : Cal) => ({ z with running := true })) (Cal.init))));
    let s : State := (fun (z : State) => ({ z with bed := { z.bed with boActive := false } })) ((fun (z : State) => (modLane n (fun y => { y with waitSlot := false }) z)) ((fun (z : State) => (modLane n (fun y => { y with cal := some c }) z)) (up)));
    let meas : List Meas := [];
    let t0 : Int := 0;
    let t1 : Int := 0;
    ⟨n, meas, t0, t1, c, s, by decide +kernel +zetaReduce⟩),
   (let n : Nat := 0;
    let c : Cal := (fun (z : Cal) => ({ z with failed1 := [] })) ((fun (z : Cal) => ({ z with attempt := 2 })) ((fun (z : Cal) => ({ z with runs := [] })) ((fun (z : Cal) => ({ z with geode := false })) ((fun (z : Cal) => ({ z with running := true })) (Cal.init)))));
    let s : State := (fun (z : State) => ({ z with bed := { z.bed with boActive := false } })) ((fun (z : State) => (modLane n (fun y => { y with waitSlot := false }) z)) ((fun (z : State) => (modLane n (fun y => { y with cal := some c }) z)) (up)));
    let meas : List Meas := [];
    let t0 : Int := 0;
    let t1 : Int := 0;
    ⟨n, meas, t0, t1, c, s, by decide +kernel +zetaReduce⟩),
   (let s : State := (fun (z : State) => ({ z with bed := { z.bed with boActive := true } })) (up);
    ⟨s, by decide +kernel +zetaReduce⟩),
   (let n : Nat := 0;
    let c : Cal := (fun (z : Cal) => ({ z with running := false })) ((fun (z : Cal) => ({ z with attempt := 2 })) (Cal.init));
    let s : State := (fun (z : State) => ({ z with bed := { z.bed with boActive := false } })) ((fun (z : State) => (modLane n (fun y => { y with cal := some c }) z)) (up));
    ⟨n, c, s, by decide +kernel +zetaReduce⟩)⟩

/-- A state and operands that meet the hypotheses of each clause of `Obligations.TrimAndRotationRows`. -/
theorem witness_TrimAndRotationRows :
    (∃ (n : Nat) (s : State), (lane s n).state ≠ .off) ∧
    (∃ (n : Nat) (b : Nat) (o : Nat) (i : Nat) (s : State), (lane s n).state = .acquired ∧ laneFrozen s (lane s n) = false ∧ (lane s n).forced = false ∧ (lane s n).rot = none ∧ nextBank (lane s n) = some b ∧ longest (lane s n) (bankInService (lane s n) b) = some o ∧ longest (lane s n) (bankSpares (lane s n) b) = some i) ∧
    (∃ (n : Nat) (s : State), laneFrozen s (lane s n) = true) ∧
    (∃ (n : Nat) (a : BgRun) (r : Rot) (s : State), (lane s n).rot = some r ∧ r.phase = .shadow ∧ laneFrozen s (lane s n) = false ∧ holdsRole s = false ∧ bgOk s n r.inc true a = true ∧ (lane s n).withdrawn = false ∧ (lane s n).sliceFault.getLsbD r.inc = false ∧ (lane s n).sliceMap.getLsbD r.out = true) ∧
    (∃ (n : Nat) (a : BgRun) (r : Rot) (s : State), (lane s n).rot = some r ∧ r.phase = .standby ∧ (lane s n).state = .acquired ∧ laneFrozen s (lane s n) = false ∧ holdsRole s = false ∧ bgOk s n r.out false a = true) ∧
    (∃ (n : Nat) (s : State), (lane s n).state = .noSignal ∧ (lane s n).swOpen = false ∧ (lane s n).loop = false) :=
  ⟨(let s : State := up;
    let n : Nat := 0;
    ⟨n, s, by decide +kernel +zetaReduce⟩),
   (let n : Nat := 0;
    let l := ({ Lane.init with sliceMap := 0x3FFFFFFFC3FFFFFFF, state := .acquired } : Lane);
    let b : Nat := (nextBank l).getD 0;
    let o : Nat := (longest l (bankInService l b)).getD 0;
    let i : Nat := (longest l (bankSpares l b)).getD 0;
    let s : State := (fun (z : State) => (modLane n (fun y => { y with rot := none }) z)) ((fun (z : State) => (modLane n (fun y => { y with forced := false }) z)) ((fun (z : State) => (modLane n (fun y => { y with state := .acquired }) z)) (up.mapLanes fun z => { z with tab := [(0, l)] })));
    ⟨n, b, o, i, s, by decide +kernel +zetaReduce⟩),
   (let s : State := modLane 0 (fun l => { l with state := .los }) up;
    let n : Nat := 0;
    ⟨n, s, by decide +kernel +zetaReduce⟩),
   (let n : Nat := 0;
    let r : Rot := (fun (z : Rot) => ({ z with phase := .shadow })) (Rot.init);
    let s : State := (fun (z : State) => (modLane n (fun y => { y with withdrawn := false }) z)) ((fun (z : State) => (modLane n (fun y => { y with rot := some r }) z)) (up));
    let a : BgRun := { offset := ⟨0, 0⟩, gain := ⟨0, 0⟩, skew := ⟨0, 0⟩, t0 := 640, t1 := 640 };
    ⟨n, a, r, s, by decide +kernel +zetaReduce⟩),
   (let n : Nat := 0;
    let r : Rot := (fun (z : Rot) => ({ z with phase := .standby })) (Rot.init);
    let s : State := (fun (z : State) => (modLane n (fun y => { y with state := .acquired }) z)) ((fun (z : State) => (modLane n (fun y => { y with rot := some r }) z)) (up));
    let a : BgRun := { offset := ⟨0, 0⟩, gain := ⟨0, 0⟩, skew := ⟨0, 0⟩, t0 := 640, t1 := 640 };
    ⟨n, a, r, s, by decide +kernel +zetaReduce⟩),
   (let n : Nat := 0;
    let s : State := (fun (z : State) => (modLane n (fun y => { y with loop := false }) z)) ((fun (z : State) => (modLane n (fun y => { y with swOpen := false }) z)) ((fun (z : State) => (modLane n (fun y => { y with state := .noSignal }) z)) (up)));
    ⟨n, s, by decide +kernel +zetaReduce⟩)⟩

/-- A state and operands that meet the hypotheses of each clause of `Obligations.AcquisitionRows`. -/
theorem witness_AcquisitionRows :
    (∃ (n : Nat) (rms : Nat) (s : State), mayAttempt s (lane s n) = true ∧ (lane s n).state = .noSignal ∧ (lane s n).set.sdThresh * 1000 < rms) ∧
    (∃ (n : Nat) (rms : Nat) (h : Held) (s : State), mayAttempt s (lane s n) = true ∧ (lane s n).state = .losHeld ∧ (lane s n).set.sdThresh * 1000 < rms ∧ (lane s n).held = some h ∧ warmOk s n = true) ∧
    (∃ (n : Nat) (rms : Nat) (s : State), (mayAttempt s (lane s n) = false ∨ rms ≤ (lane s n).set.sdThresh * 1000)) ∧
    (∃ (n : Nat) (eyes : List Nat) (s : State), (lane s n).state = .ctleSearch ∧ s.bed.boActive = false ∧ eyes.length = 33) ∧
    (∃ (l : List Nat) (k : Nat), k < l.length) ∧
    (∃ (n : Nat) (f : Int) (s : State), (lane s n).state = .freq ∧ -35000 ≤ f ∧ f ≤ 35000) ∧
    (∃ (n : Nat) (mse : List Int) (s : State), (lane s n).state = .converge ∧ s.bed.boActive = false ∧ mseStable mse = true) ∧
    (∃ (n : Nat) (m : LaneMeas) (q : Qual) (s : State), (lane s n).state = .qualify ∧ s.bed.boActive = false ∧ qualified s n m q = true) ∧
    (∃ (n : Nat) (m : LaneMeas) (q : Qual) (s : State), (m.snr.toInt < 100 ∨ q.markers < 2 ∨ 1 < q.bad ∨ (q.inner = false ∧ rxCode s n ≠ .none))) ∧
    (∃ (n : Nat) (s : State), (lane s n).state = .qualify ∧ s.bed.boActive = false) ∧
    (∃ (n : Nat) (s : State), ((lane s n).state = .freq ∨ ((lane s n).state = .converge ∧ s.bed.boActive = false))) ∧
    (∃ (n : Nat) (rms : Nat) (s : State), (lane s n).state = .expired ∧ 2 * rms < (lane s n).set.sdThresh * 1000) ∧
    (∃ (n : Nat) (s : State), (lane s n).state = .expired) ∧
    (∃ (n : Nat) (latency : Nat) (eyes : List Nat) (mse : List Int) (m : LaneMeas) (q : Qual) (i : Instr) (s : State), s.bed.boActive = true ∧ i ∈ [Instr.ctleSearchDone n eyes, .convergeDone n m mse, .qualifyPass n m q latency, .qualifyWindowEnd n]) :=
  ⟨(let n : Nat := 0;
    let rms : Nat := 1000000;
    let s : State := (fun (z : State) => (modLane n (fun y => { y with state := .noSignal }) z)) (up);
    ⟨n, rms, s, by decide +kernel +zetaReduce⟩),
   (let n : Nat := 0;
    let rms : Nat := 1000000;
    let h : Held := ({ Held.init with since := 0, temp := laneTemp up 0, mode := rxMode (lane up 0), eqMode := nextEq (lane up 0) (cage up 0).c2m } : Held);
    let s : State := (fun (z : State) => (modLane n (fun y => { y with held := some h }) z)) ((fun (z : State) => (modLane n (fun y => { y with state := .losHeld }) z)) (modLane 0 (fun l => { l with state := .losHeld, held := some h }) up));
    ⟨n, rms, h, s, by decide +kernel +zetaReduce⟩),
   (let s : State := modLane 0 (fun l => { l with ready := false }) up;
    let n : Nat := 0;
    let rms : Nat := 0;
    ⟨n, rms, s, by decide +kernel +zetaReduce⟩),
   (let n : Nat := 0;
    let eyes : List Nat := List.replicate 33 0;
    let s : State := (fun (z : State) => ({ z with bed := { z.bed with boActive := false } })) ((fun (z : State) => (modLane n (fun y => { y with state := .ctleSearch }) z)) (up));
    ⟨n, eyes, s, by decide +kernel +zetaReduce⟩),
   (let l : List Nat := [1];
    let k : Nat := 0;
    ⟨l, k, by decide +kernel +zetaReduce⟩),
   (let n : Nat := 0;
    let s : State := (fun (z : State) => (modLane n (fun y => { y with state := .freq }) z)) (up);
    let f : Int := 0;
    ⟨n, f, s, by decide +kernel +zetaReduce⟩),
   (let n : Nat := 0;
    let mse : List Int := List.replicate 8 0;
    let s : State := (fun (z : State) => ({ z with bed := { z.bed with boActive := false } })) ((fun (z : State) => (modLane n (fun y => { y with state := .converge }) z)) (up));
    ⟨n, mse, s, by decide +kernel +zetaReduce⟩),
   (let n : Nat := 0;
    let m : LaneMeas := { snr := 100, vga := 2, freq := 3, blocks := [] };
    let s : State := (fun (z : State) => ({ z with bed := { z.bed with boActive := false } })) ((fun (z : State) => (modLane n (fun y => { y with state := .qualify }) z)) (up));
    let q : Qual := { markers := 2, inner := true, bad := 0 };
    ⟨n, m, q, s, by decide +kernel +zetaReduce⟩),
   (let s : State := up;
    let n : Nat := 0;
    let m : LaneMeas := { snr := 1, vga := 2, freq := 3, blocks := [] };
    let q : Qual := { markers := 2, inner := true, bad := 0 };
    ⟨n, m, q, s, by decide +kernel +zetaReduce⟩),
   (let n : Nat := 0;
    let s : State := (fun (z : State) => ({ z with bed := { z.bed with boActive := false } })) ((fun (z : State) => (modLane n (fun y => { y with state := .qualify }) z)) (up));
    ⟨n, s, by decide +kernel +zetaReduce⟩),
   (let n : Nat := 0;
    let s : State := (fun (z : State) => (modLane n (fun y => { y with state := .freq }) z)) (up);
    ⟨n, s, by decide +kernel +zetaReduce⟩),
   (let n : Nat := 0;
    let s : State := (fun (z : State) => (modLane n (fun y => { y with state := .expired }) z)) (up);
    let rms : Nat := 0;
    ⟨n, rms, s, by decide +kernel +zetaReduce⟩),
   (let n : Nat := 0;
    let s : State := (fun (z : State) => (modLane n (fun y => { y with state := .expired }) z)) (up);
    ⟨n, s, by decide +kernel +zetaReduce⟩),
   (let n : Nat := 0;
    let latency : Nat := 0;
    let eyes : List Nat := [];
    let i : Instr := .qualifyWindowEnd 0;
    let s : State := (fun (z : State) => ({ z with bed := { z.bed with boActive := true } })) (up);
    let mse : List Int := [];
    let m : LaneMeas := { snr := 1, vga := 2, freq := 3, blocks := [] };
    let q : Qual := { markers := 2, inner := true, bad := 0 };
    ⟨n, latency, eyes, mse, m, q, i, s, by decide +kernel +zetaReduce⟩)⟩

/-- A state and operands that meet the hypotheses of each clause of `Obligations.LossAndWarmRows`. -/
theorem witness_LossAndWarmRows :
    (∃ (n : Nat) (rms : Nat) (s : State), (lane s n).state = .acquired ∧ 2 * rms < (lane s n).set.sdThresh * 1000) ∧
    (∃ (n : Nat) (rms : Nat) (s : State), (lane s n).state = .losPending ∧ (lane s n).set.sdThresh * 1000 < rms) ∧
    (∃ (n : Nat) (s : State), (lane s n).state = .losPending) ∧
    (∃ (n : Nat) (bad : Nat) (missing : Nat) (s : State), (lane s n).state = .acquired ∧ (8 ≤ bad ∨ 2 ≤ missing)) ∧
    (∃ (n : Nat) (s : State), (lane s n).state = .losHeld) ∧
    (∃ (n : Nat) (f : Int) (s : State), (lane s n).state = .warm ∧ s.bed.boActive = false ∧ -35000 ≤ f ∧ f ≤ 35000) ∧
    (∃ (n : Nat) (m : LaneMeas) (q : Qual) (s : State), (lane s n).state = .warm ∧ (lane s n).warmFreq = true ∧ s.bed.boActive = false ∧ qualified s n m q = true) ∧
    (∃ (n : Nat) (s : State), (lane s n).state = .warm ∧ s.bed.boActive = false) ∧
    (∃ (n : Nat) (p : Nat) (q : Port) (s : State), (lane s n).port = some p ∧ port? s p = some q ∧ (lane s n).opMode = 2 ∧ (lane s n).xwin.isSome = true ∧ (lane s n).state ≠ .acquired ∧ isSecondary s = false ∧ s.bed.boActive = false) ∧
    (∃ (n : Nat) (p : Nat) (s : State), (lane s n).port = some p ∧ (lane s n).opMode = 2 ∧ (lane s n).xwin.isSome = true ∧ (lane s n).state ≠ .acquired ∧ isSecondary s = true ∧ s.bed.boActive = false) :=
  ⟨(let n : Nat := 0;
    let s : State := (fun (z : State) => (modLane n (fun y => { y with state := .acquired }) z)) (up);
    let rms : Nat := 0;
    ⟨n, rms, s, by decide +kernel +zetaReduce⟩),
   (let n : Nat := 0;
    let rms : Nat := 1000000;
    let s : State := (fun (z : State) => (modLane n (fun y => { y with state := .losPending }) z)) (up);
    ⟨n, rms, s, by decide +kernel +zetaReduce⟩),
   (let n : Nat := 0;
    let s : State := (fun (z : State) => (modLane n (fun y => { y with state := .losPending }) z)) (up);
    ⟨n, s, by decide +kernel +zetaReduce⟩),
   (let n : Nat := 0;
    let bad : Nat := 8;
    let s : State := (fun (z : State) => (modLane n (fun y => { y with state := .acquired }) z)) (up);
    let missing : Nat := 0;
    ⟨n, bad, missing, s, by decide +kernel +zetaReduce⟩),
   (let n : Nat := 0;
    let s : State := (fun (z : State) => (modLane n (fun y => { y with state := .losHeld }) z)) (up);
    ⟨n, s, by decide +kernel +zetaReduce⟩),
   (let n : Nat := 0;
    let s : State := (fun (z : State) => ({ z with bed := { z.bed with boActive := false } })) ((fun (z : State) => (modLane n (fun y => { y with state := .warm }) z)) (up));
    let f : Int := 0;
    ⟨n, f, s, by decide +kernel +zetaReduce⟩),
   (let n : Nat := 0;
    let m : LaneMeas := { snr := 100, vga := 2, freq := 3, blocks := [] };
    let s : State := (fun (z : State) => ({ z with bed := { z.bed with boActive := false } })) ((fun (z : State) => (modLane n (fun y => { y with warmFreq := true }) z)) ((fun (z : State) => (modLane n (fun y => { y with state := .warm }) z)) (up)));
    let q : Qual := { markers := 2, inner := true, bad := 0 };
    ⟨n, m, q, s, by decide +kernel +zetaReduce⟩),
   (let n : Nat := 0;
    let s : State := (fun (z : State) => ({ z with bed := { z.bed with boActive := false } })) ((fun (z : State) => (modLane n (fun y => { y with state := .warm }) z)) (up));
    ⟨n, s, by decide +kernel +zetaReduce⟩),
   (let n : Nat := 0;
    let p : Nat := 0;
    let q : Port := Port.init;
    let s : State := (fun (z : State) => ({ z with bed := { z.bed with boActive := false } })) ((fun (z : State) => (modLane n (fun y => { y with opMode := 2 }) z)) ((fun (z : State) => ({ z with ports := { z.ports with tab := mput z.ports.tab p q } })) ((fun (z : State) => (modLane n (fun y => { y with port := some p }) z)) (modLane 0 (fun l => { l with xwin := some 0, state := .los }) up))));
    ⟨n, p, q, s, by decide +kernel +zetaReduce⟩),
   (let n : Nat := 0;
    let p : Nat := 0;
    let s : State := (fun (z : State) => ({ z with bed := { z.bed with boActive := false } })) ((fun (z : State) => ({ z with bed := { z.bed with geoRole := 2 } })) ((fun (z : State) => (modLane n (fun y => { y with opMode := 2 }) z)) ((fun (z : State) => (modLane n (fun y => { y with port := some p }) z)) (modLane 0 (fun l => { l with xwin := some 0, state := .los }) up))));
    ⟨n, p, s, by decide +kernel +zetaReduce⟩)⟩

/-- A state and operands that meet the hypotheses of each clause of `Obligations.RampAndLaneCommands`. -/
theorem witness_RampAndLaneCommands :
    (∃ (n : Nat) (s : State), (lane s n).tx = .rampUp ∧ (lane s n).step < 63) ∧
    (∃ (n : Nat) (s : State), (lane s n).tx = .rampUp ∧ 63 ≤ (lane s n).step) ∧
    (∃ (n : Nat) (s : State), (lane s n).tx = .rampDown ∧ 1 < (lane s n).step) ∧
    (∃ (n : Nat) (s : State), (lane s n).tx = .transmitting ∧ (lane s n).amplStep < 64) ∧
    (∃ (n : Nat) (s : State), (lane s n).tx = .stopping) ∧
    (∃ (id : Nat) (c : Cmd) (s : State), Begins s id 0x18 c ∧ laneSetCheck c s = none) ∧
    (∃ (c : Cmd), c.inl 32 4 = 0) ∧
    (∃ (c : Cmd), c.inl 32 4 = 0x1000) ∧
    (∃ (c : Cmd), c.inl 32 4 = 0x200) ∧
    (∃ (id : Nat) (c : Cmd) (s : State), Begins s id 0x19 c ∧ c.target ≤ 255 ∧ 368 ≤ c.indLen ∧ c.inlZero 32 32 = true ∧ dmaAllowed s c.indAddr 368 = true ∧ laneMoves (lane s c.target) = false) ∧
    (∃ (id : Nat) (c : Cmd) (s : State), Begins s id 0x1A c ∧ c.target ≤ 255 ∧ noFields c = true ∧ (lane s c.target).port.isSome = true ∧ railUp s 5 = true ∧ railUp s 6 = true ∧ (lane s c.target).ready = true ∧ (lane s c.target).cal = none) ∧
    (∃ (id : Nat) (c : Cmd) (s : State), Begins s id 0x1B c ∧ c.target ≤ 255 ∧ c.indLen = 0 ∧ byteAt c.entry 32 = 1 ∧ c.inlZero 33 31 = true ∧ (lane s c.target).tx = .hiZ) ∧
    (∃ (id : Nat) (c : Cmd) (s : State), Begins s id 0x1B c ∧ c.target ≤ 255 ∧ c.indLen = 0 ∧ byteAt c.entry 32 = 1 ∧ c.inlZero 33 31 = true ∧ (lane s c.target).tx = .transmitting) ∧
    (∃ (id : Nat) (c : Cmd) (s : State), Begins s id 0x1B c ∧ c.target ≤ 255 ∧ c.indLen = 0 ∧ byteAt c.entry 32 = 0 ∧ c.inlZero 33 31 = true ∧ isSecondary s = true) ∧
    (∃ (id : Nat) (c : Cmd) (s : State), Begins s id 0x1C c ∧ c.target ≤ 255 ∧ c.indLen = 0 ∧ byteAt c.entry 32 = 1 ∧ byteAt c.entry 41 < 16 ∧ c.inlZero 42 22 = true ∧ (lane s c.target).port.isSome = true ∧ mapValid (lane s c.target) (BitVec.ofNat 68 (c.inl 33 9)) = true) ∧
    (∃ (id : Nat) (c : Cmd) (s : State), Begins s id 0x1C c ∧ c.target ≤ 255 ∧ c.indLen = 0 ∧ byteAt c.entry 32 = 0 ∧ byteAt c.entry 41 < 16 ∧ c.inlZero 42 22 = true ∧ (lane s c.target).port.isSome = true) ∧
    (∃ (p : Nat), p < 4) ∧
    (∃ (bits : List Bool), bits.length % 2 = 0) :=
  ⟨(let n : Nat := 0;
    let s : State := (fun (z : State) => (modLane n (fun y => { y with tx := .rampUp }) z)) (up);
    ⟨n, s, by decide +kernel +zetaReduce⟩),
   (let n : Nat := 0;
    let s : State := (fun (z : State) => (modLane n (fun y => { y with step := 63 }) z)) ((fun (z : State) => (modLane n (fun y => { y with tx := .rampUp }) z)) (up));
    ⟨n, s, by decide +kernel +zetaReduce⟩),
   (let n : Nat := 0;
    let s : State := (fun (z : State) => (modLane n (fun y => { y with step := 2 }) z)) ((fun (z : State) => (modLane n (fun y => { y with tx := .rampDown }) z)) (up));
    ⟨n, s, by decide +kernel +zetaReduce⟩),
   (let n : Nat := 0;
    let s : State := (fun (z : State) => (modLane n (fun y => { y with tx := .transmitting }) z)) (modLane 0 (fun l => { l with amplStep := 63 }) up);
    ⟨n, s, by decide +kernel +zetaReduce⟩),
   (let n : Nat := 0;
    let s : State := (fun (z : State) => (modLane n (fun y => { y with tx := .stopping }) z)) (up);
    ⟨n, s, by decide +kernel +zetaReduce⟩),
   (let c : Cmd := cmd (0x18) (0) (0) (0) (4096) [];
    let id : Nat := 7;
    let s : State := withCmd c (up);
    ⟨id, c, s, by unfold Begins; decide +kernel +zetaReduce⟩),
   (let c : Cmd := Cmd.init;
    ⟨c, by decide +kernel +zetaReduce⟩),
   (let c : Cmd := cmd 0x18 0 0 0 0 [(32, 4, 0x1000)];
    ⟨c, by decide +kernel +zetaReduce⟩),
   (let c : Cmd := cmd 0x18 0 0 0 0 [(32, 4, 0x200)];
    ⟨c, by decide +kernel +zetaReduce⟩),
   (let c : Cmd := cmd (0x19) (0) (0) (368) (8192) [];
    let id : Nat := 7;
    let s : State := withCmd c (modLane 0 (fun l => { l with state := .los }) up);
    ⟨id, c, s, by unfold Begins; decide +kernel +zetaReduce⟩),
   (let c : Cmd := cmd (0x1A) (0) (0) (0) (4096) [];
    let id : Nat := 7;
    let s : State := withCmd c ((fun (z : State) => (modLane c.target (fun y => { y with cal := none }) z)) ((fun (z : State) => (modLane c.target (fun y => { y with ready := true }) z)) (up)));
    ⟨id, c, s, by unfold Begins; decide +kernel +zetaReduce⟩),
   (let c : Cmd := cmd (0x1B) (0) (0) (0) (4096) [(32, 1, 1)];
    let id : Nat := 7;
    let s : State := withCmd c ((fun (z : State) => (modLane c.target (fun y => { y with tx := .hiZ }) z)) (up));
    ⟨id, c, s, by unfold Begins; decide +kernel +zetaReduce⟩),
   (let c : Cmd := cmd (0x1B) (0) (0) (0) (4096) [(32, 1, 1)];
    let id : Nat := 7;
    let s : State := withCmd c ((fun (z : State) => (modLane c.target (fun y => { y with tx := .transmitting }) z)) (up));
    ⟨id, c, s, by unfold Begins; decide +kernel +zetaReduce⟩),
   (let c : Cmd := cmd (0x1B) (0) (0) (0) (4096) [(32, 1, 0)];
    let id : Nat := 7;
    let s : State := withCmd c ((fun (z : State) => ({ z with bed := { z.bed with geoRole := 2 } })) (up));
    ⟨id, c, s, by unfold Begins; decide +kernel +zetaReduce⟩),
   (let c : Cmd := cmd (0x1C) (0) (0) (0) (4096) [(32, 1, 1), (33, 9, 0x3FFFFFFFC00000000 + 0xFFFFFFFF)];
    let id : Nat := 7;
    let s : State := withCmd c (up);
    ⟨id, c, s, by unfold Begins; decide +kernel +zetaReduce⟩),
   (let c : Cmd := cmd (0x1C) (0) (0) (0) (4096) [(32, 1, 0)];
    let id : Nat := 7;
    let s : State := withCmd c (up);
    ⟨id, c, s, by unfold Begins; decide +kernel +zetaReduce⟩),
   (let p : Nat := 1;
    ⟨p, by decide +kernel +zetaReduce⟩),
   (let bits : List Bool := [true, false, true, true];
    ⟨bits, by decide +kernel +zetaReduce⟩)⟩

/-- A state and operands that meet the hypotheses of each clause of `Obligations.DegradeThresholdsInOrder`. -/
theorem witness_DegradeThresholdsInOrder :
    (∃ (id : Nat) (c : Cmd) (s : State), Begins s id 0x10 c ∧ c.byte 37 ≠ 0 ∧ c.byte 37 < c.byte 38) ∧
    (∃ (id : Nat) (c : Cmd) (s : State), Begins s id 0x12 c ∧ sel (c.byte 32) 2 = true ∧ c.byte 37 ≠ 0 ∧ c.byte 37 < c.byte 38) :=
  ⟨(let c : Cmd := cmd (0x10) (0) (0) (0) (4096) [(37, 1, 1), (38, 1, 2)];
    let id : Nat := 7;
    let s : State := withCmd c (up);
    ⟨id, c, s, by unfold Begins; decide +kernel +zetaReduce⟩),
   (let c : Cmd := cmd (0x12) (0) (0) (0) (4096) [(32, 1, 4), (37, 1, 1), (38, 1, 2)];
    let id : Nat := 7;
    let s : State := withCmd c (up);
    ⟨id, c, s, by unfold Begins; decide +kernel +zetaReduce⟩)⟩

/-- A state and operands that meet the hypotheses of each clause of `Obligations.PortRows`. -/
theorem witness_PortRows :
    (∃ (p : Nat) (q : Port) (s : State), port? s p = some q ∧ q.state = .aligning ∧ q.deleting = false) ∧
    (∃ (p : Nat) (q : Port) (s : State), port? s p = some q ∧ q.state = .aligning ∧ q.loopback = 2) ∧
    (∃ (p : Nat) (q : Port) (s : State), port? s p = some q ∧ q.state = .up) ∧
    (∃ (p : Nat) (n : Nat) (q : Port) (s : State), port? s p = some q ∧ q.state = .up ∧ q.rf = false ∧ 0 < n) ∧
    (∃ (p : Nat) (q : Port) (s : State), port? s p = some q ∧ q.state = .up) ∧
    (∃ (p : Nat) (q : Port) (s : State), port? s p = some q) ∧
    (∃ (p : Nat) (total : Nat) (unc : Nat) (sym : Nat) (q : Port) (s : State), port? s p = some q ∧ q.state = .up ∧ q.degSet ≠ 0 ∧ q.leftUp = false ∧ 0 < total ∧ q.degSet * (544 * total) < (sym + 16 * unc) * 100000) ∧
    (∃ (p : Nat) (total : Nat) (unc : Nat) (sym : Nat) (q : Port) (s : State), port? s p = some q ∧ q.state = .up ∧ q.degSet ≠ 0 ∧ q.leftUp = false ∧ 0 < total ∧ (sym + 16 * unc) * 100000 ≤ q.degSet * (544 * total) ∧ (sym + 16 * unc) * 100000 ≤ q.degClear * (544 * total) ∧ q.degraded = true ∧ q.clearWin = 9) ∧
    (∃ (id : Nat) (k : Nat) (c : Cmd) (s : State), Begins s id 0x10 c ∧ portCreateBad c s = false ∧ formLanes (c.byte 33) (c.byte 41) = some k ∧ ((List.range' c.target k).any fun n => (lane s n).port.isSome) = false ∧ railUp s 5 = true ∧ railUp s 6 = true ∧ initDone s 0 = true ∧ c.byte 39 = 0 ∧ qminFits (profile s) ((portQueues c.target).foldl (fun m i => mput m i { Queue.init with emptyAt := s.now }) s.buf.iq) s.buf.eq s.buf.ingReserve s.buf.egrMinPool = true) ∧
    (∃ (id : Nat) (c : Cmd) (q : Port) (s : State), Begins s id 0x11 c ∧ c.target ≤ 255 ∧ noFields c = true ∧ port? s c.target = some q) ∧
    (∃ (id : Nat) (c : Cmd) (q : Port) (s : State), Begins s id 0x12 c ∧ plainBad c 255 10 = false ∧ c.byte 32 = 1 ∧ c.byte 33 = 0 ∧ c.byte 41 = 0 ∧ portFieldBad c 0 = false ∧ port? s c.target = some q) ∧
    (∃ (id : Nat) (c : Cmd) (q : Port) (s : State), Begins s id 0x13 c ∧ counterBlockBad c 255 392 = false ∧ clearWrapOn c = false ∧ port? s c.target = some q ∧ dmaAllowed s c.indAddr (portBlock s c.target).length = true) :=
  ⟨(let p : Nat := 0;
    let q : Port := (fun (z : Port) => ({ z with deleting := false })) ((fun (z : Port) => ({ z with state := .aligning })) (Port.init));
    let s : State := (fun (z : State) => ({ z with ports := { z.ports with tab := mput z.ports.tab p q } })) (up);
    ⟨p, q, s, by decide +kernel +zetaReduce⟩),
   (let p : Nat := 0;
    let q : Port := (fun (z : Port) => ({ z with loopback := 2 })) ((fun (z : Port) => ({ z with state := .aligning })) (Port.init));
    let s : State := (fun (z : State) => ({ z with ports := { z.ports with tab := mput z.ports.tab p q } })) (up);
    ⟨p, q, s, by decide +kernel +zetaReduce⟩),
   (let p : Nat := 0;
    let q : Port := (fun (z : Port) => ({ z with state := .up })) (Port.init);
    let s : State := (fun (z : State) => ({ z with ports := { z.ports with tab := mput z.ports.tab p q } })) (up);
    ⟨p, q, s, by decide +kernel +zetaReduce⟩),
   (let p : Nat := 0;
    let q : Port := (fun (z : Port) => ({ z with rf := false })) ((fun (z : Port) => ({ z with state := .up })) (Port.init));
    let n : Nat := 1;
    let s : State := (fun (z : State) => ({ z with ports := { z.ports with tab := mput z.ports.tab p q } })) (up);
    ⟨p, n, q, s, by decide +kernel +zetaReduce⟩),
   (let p : Nat := 0;
    let q : Port := (fun (z : Port) => ({ z with state := .up })) (Port.init);
    let s : State := (fun (z : State) => ({ z with ports := { z.ports with tab := mput z.ports.tab p q } })) (up);
    ⟨p, q, s, by decide +kernel +zetaReduce⟩),
   (let p : Nat := 0;
    let q : Port := Port.init;
    let s : State := (fun (z : State) => ({ z with ports := { z.ports with tab := mput z.ports.tab p q } })) (up);
    ⟨p, q, s, by decide +kernel +zetaReduce⟩),
   (let p : Nat := 0;
    let q : Port := { upPort with degSet := 1 };
    let total : Nat := 1;
    let sym : Nat := 1;
    let s : State := (fun (z : State) => ({ z with ports := { z.ports with tab := mput z.ports.tab p q } })) (up);
    let unc : Nat := 0;
    ⟨p, total, unc, sym, q, s, by decide +kernel +zetaReduce⟩),
   (let p : Nat := 0;
    let q : Port := (fun (z : Port) => ({ z with clearWin := 9 })) ((fun (z : Port) => ({ z with degraded := true })) ((fun (z : Port) => ({ z with leftUp := false })) ((fun (z : Port) => ({ z with degSet := 1 })) ((fun (z : Port) => ({ z with state := .up })) (Port.init)))));
    let total : Nat := 1;
    let s : State := (fun (z : State) => ({ z with ports := { z.ports with tab := mput z.ports.tab p q } })) (up);
    let unc : Nat := 0;
    let sym : Nat := 0;
    ⟨p, total, unc, sym, q, s, by decide +kernel +zetaReduce⟩),
   (let k : Nat := 4;
    let c : Cmd := cmd (0x10) (0) (4) (0) (4096) [(33, 1, 2), (34, 2, 0x05EE)];
    let id : Nat := 7;
    let s : State := withCmd c (up);
    ⟨id, k, c, s, by unfold Begins; decide +kernel +zetaReduce⟩),
   (let q : Port := Port.init;
    let c : Cmd := cmd (0x11) (0) (0) (0) (4096) [];
    let id : Nat := 7;
    let s : State := withCmd c ((fun (z : State) => ({ z with ports := { z.ports with tab := mput z.ports.tab c.target q } })) (up));
    ⟨id, c, q, s, by unfold Begins; decide +kernel +zetaReduce⟩),
   (let q : Port := Port.init;
    let c : Cmd := cmd (0x12) (0) (0) (0) (4096) [(32, 1, 1), (34, 2, 0x2800)];
    let id : Nat := 7;
    let s : State := withCmd c ((fun (z : State) => ({ z with ports := { z.ports with tab := mput z.ports.tab c.target q } })) (up));
    ⟨id, c, q, s, by unfold Begins; decide +kernel +zetaReduce⟩),
   (let q : Port := Port.init;
    let c : Cmd := cmd (0x13) (0) (0) (392) (8192) [];
    let id : Nat := 7;
    let s : State := withCmd c ((fun (z : State) => ({ z with ports := { z.ports with tab := mput z.ports.tab c.target q } })) (up));
    ⟨id, c, q, s, by unfold Begins; decide +kernel +zetaReduce⟩)⟩

/-- A state and operands that meet the hypotheses of each clause of `Obligations.CageBringUpRows`. -/
theorem witness_CageBringUpRows :
    (∃ (n : Nat) (s : State), cageLive s = true ∧ n < 32 ∧ (cage s n).present = false ∧ (cage s n).state = .absent) ∧
    (∃ (n : Nat) (s : State), cageLive s = true ∧ (cage s n).present = true) ∧
    (∃ (n : Nat) (s : State), cageLive s = true ∧ (cage s n).present = true) ∧
    (∃ (n : Nat) (s : State), cageLive s = true ∧ (cage s n).state = .powerOn) ∧
    (∃ (n : Nat) (i : ModuleInfo) (s : State), cageLive s = true ∧ (cage s n).state = .mgmtInit ∧ i.revision = 5 ∧ cagePorts s n = []) ∧
    (∃ (n : Nat) (i : ModuleInfo) (s : State), cageLive s = true ∧ (cage s n).state = .mgmtInit ∧ i.revision ≠ 5) ∧
    (∃ (n : Nat) (s : State), cageLive s = true ∧ (cage s n).state = .mgmtInit) ∧
    (∃ (n : Nat) (s : State), cageLive s = true ∧ (cage s n).state = .powerUp ∧ cagePorts s n = []) ∧
    (∃ (n : Nat) (s : State), cageLive s = true ∧ (cage s n).state = .powerUp) ∧
    (∃ (p : Nat) (q : Port) (s : State), cageLive s = true ∧ port? s p = some q ∧ q.dp = .waiting) ∧
    (∃ (p : Nat) (q : Port) (s : State), cageLive s = true ∧ port? s p = some q ∧ q.dp = .waiting ∧ (cage s (p / 8)).state = .ready) ∧
    (∃ (i : Instr) (n : Nat) (s : State), cageLive s = false ∧ i ∈ [Instr.cagePowerOnDone n, .mgmtInitTimeout n, .moduleReady n, .powerUpTimeout n, .prsGlitch n]) :=
  ⟨(let n : Nat := 0;
    let s : State := (fun (z : State) => (modCage n (fun y => { y with state := .absent }) z)) ((fun (z : State) => (modCage n (fun y => { y with present := false }) z)) (up));
    ⟨n, s, by decide +kernel +zetaReduce⟩),
   (let n : Nat := 0;
    let s : State := (fun (z : State) => (modCage n (fun y => { y with present := true }) z)) (up);
    ⟨n, s, by decide +kernel +zetaReduce⟩),
   (let n : Nat := 0;
    let s : State := (fun (z : State) => (modCage n (fun y => { y with present := true }) z)) (up);
    ⟨n, s, by decide +kernel +zetaReduce⟩),
   (let n : Nat := 0;
    let s : State := (fun (z : State) => (modCage n (fun y => { y with state := .powerOn }) z)) (up);
    ⟨n, s, by decide +kernel +zetaReduce⟩),
   (let n : Nat := 5;
    let i : ModuleInfo := { revision := 5, fast := false, maxWrite := 8, apps := [], precodeTx := false, precodeRx := false, turnOnNs := 5 };
    let s : State := (fun (z : State) => (modCage n (fun y => { y with state := .mgmtInit }) z)) (up);
    ⟨n, i, s, by decide +kernel +zetaReduce⟩),
   (let n : Nat := 0;
    let s : State := (fun (z : State) => (modCage n (fun y => { y with state := .mgmtInit }) z)) (up);
    let i : ModuleInfo := { revision := 0x50, fast := false, maxWrite := 8, apps := [{ rate := 0, lanes := 1, c2m := false, mode := 0 }], precodeTx := false, precodeRx := false, turnOnNs := 5 };
    ⟨n, i, s, by decide +kernel +zetaReduce⟩),
   (let n : Nat := 0;
    let s : State := (fun (z : State) => (modCage n (fun y => { y with state := .mgmtInit }) z)) (up);
    ⟨n, s, by decide +kernel +zetaReduce⟩),
   (let n : Nat := 5;
    let s : State := (fun (z : State) => (modCage n (fun y => { y with state := .powerUp }) z)) (up);
    ⟨n, s, by decide +kernel +zetaReduce⟩),
   (let n : Nat := 0;
    let s : State := (fun (z : State) => (modCage n (fun y => { y with state := .powerUp }) z)) (up);
    ⟨n, s, by decide +kernel +zetaReduce⟩),
   (let p : Nat := 0;
    let q : Port := (fun (z : Port) => ({ z with dp := .waiting })) (Port.init);
    let s : State := (fun (z : State) => ({ z with ports := { z.ports with tab := mput z.ports.tab p q } })) (up);
    ⟨p, q, s, by decide +kernel +zetaReduce⟩),
   (let p : Nat := 0;
    let q : Port := (fun (z : Port) => ({ z with dp := .waiting })) (Port.init);
    let s : State := (fun (z : State) => (modCage (p / 8) (fun y => { y with state := .ready }) z)) ((fun (z : State) => ({ z with ports := { z.ports with tab := mput z.ports.tab p q } })) (up));
    ⟨p, q, s, by decide +kernel +zetaReduce⟩),
   (let n : Nat := 3;
    let i : Instr := .cagePowerOnDone 3;
    let s : State := (fun (z : State) => ({ z with boot := { z.boot with started := false } })) (up);
    ⟨i, n, s, by decide +kernel +zetaReduce⟩)⟩

/-- A state and operands that meet the hypotheses of each clause of `Obligations.CageServiceRows`. -/
theorem witness_CageServiceRows :
    (∃ (n : Nat) (s : State), cageLive s = true ∧ cageManaged (cage s n) = true) ∧
    (∃ (n : Nat) (s : State), cageLive s = true ∧ cageManaged (cage s n) = true) ∧
    (∃ (n : Nat) (id : Nat) (x : CageXfer) (r : List CageXfer) (c : Cmd) (s : State), cageLive s = true ∧ (cage s n).i2c = x :: r ∧ x.cmd = some id ∧ mfind s.fl.cmds id = some c ∧ c.opcode ≠ 0xD2 ∧ (cage s n).mediaCmd = none) ∧
    (∃ (n : Nat) (id : Nat) (x : CageXfer) (r : List CageXfer) (c : Cmd) (s : State), cageLive s = true ∧ (cage s n).i2c = x :: r ∧ x.cmd = some id ∧ mfind s.fl.cmds id = some c ∧ c.opcode = 0xD2 ∧ (cage s n).mediaCmd = none) ∧
    (∃ (n : Nat) (x : CageXfer) (r : List CageXfer) (s : State), cageLive s = true ∧ (cage s n).i2c = x :: r ∧ x.fails < 2) ∧
    (∃ (n : Nat) (x : CageXfer) (r : List CageXfer) (s : State), cageLive s = true ∧ (cage s n).i2c = x :: r ∧ 2 ≤ x.fails ∧ (cage s n).state = .ready ∧ (cage s n).mediaCmd = none) ∧
    (∃ (n : Nat) (s : State), cageLive s = true ∧ (cage s n).i2c = [] ∧ ((cage s n).state = .mgmtInit ∨ cageManaged (cage s n) = true) ∧ (cage s n).mediaCmd = none) ∧
    (∃ (id : Nat) (c : Cmd) (s : State), Begins s id 0xD0 c ∧ plainBad c 31 5 = false ∧ c.byte 32 = 4 ∧ c.byte 35 = 0 ∧ 1 ≤ c.byte 36 ∧ c.byte 36 ≤ 0x64 ∧ cageLive s = true) ∧
    (∃ (id : Nat) (c : Cmd) (s : State), Begins s id 0xD0 c ∧ cageSetCheck c s = none ∧ c.byte 32 = 1 ∧ c.byte 33 = 1 ∧ (cage s c.target).c2m = false ∧ cageLive s = true ∧ cagePorts s c.target = []) ∧
    (∃ (id : Nat) (c : Cmd) (s : State), Begins s id 0xD1 c ∧ plainBad c 31 0 = false ∧ cageLive s = true ∧ (cage s c.target).state = .fault) ∧
    (∃ (id : Nat) (c : Cmd) (s : State), Begins s id 0xD1 c ∧ plainBad c 31 0 = false ∧ cageLive s = true ∧ (cage s c.target).state ≠ .fault) ∧
    (∃ (id : Nat) (c : Cmd) (s : State), Begins s id 0xD2 c ∧ transferBad c = false ∧ transferReady s c.target = true ∧ dmaAllowed s c.indAddr c.indLen = true) ∧
    (∃ (id : Nat) (b : List Byte) (c : Cmd) (i : ModuleInfo) (s : State), Begins s id 0xD3 c ∧ transferBad c = false ∧ (cage s c.target).info = some i ∧ c.byte 35 ≤ i.maxWrite ∧ transferReady s c.target = true ∧ writesManaged c = false ∧ b.length = c.byte 35 ∧ dmaAllowed s c.indAddr c.indLen = true) ∧
    (∃ (id : Nat) (c : Cmd) (s : State), Begins s id 0xD3 c ∧ transferBad c = false ∧ (cage s c.target).info = none ∧ transferReady s c.target = true ∧ writesManaged c = true) ∧
    (∃ (id : Nat) (c : Cmd) (s : State), Begins s id 0xD4 c ∧ counterBlockBad c 31 320 = false ∧ s.bed.cageHeld = false ∧ clearWrapOn c = false ∧ dmaAllowed s c.indAddr (cageBlock s c.target).length = true) ∧
    (∃ (id : Nat) (c : Cmd) (s : State), Begins s id 0xD5 c ∧ plainBad c 31 0 = false ∧ s.bed.cageHeld = false) :=
  ⟨(let s : State := up;
    let n : Nat := 0;
    ⟨n, s, by decide +kernel +zetaReduce⟩),
   (let s : State := up;
    let n : Nat := 0;
    ⟨n, s, by decide +kernel +zetaReduce⟩),
   (let n : Nat := 0;
    let r : List CageXfer := [];
    let id : Nat := 7;
    let c : Cmd := cmd 0xD3 0 0 0 0 [];
    let x : CageXfer := ({ CageXfer.init with cmd := some 7 } : CageXfer);
    let s : State := (fun (z : State) => (modCage n (fun y => { y with mediaCmd := none }) z)) ((fun (z : State) => ({ z with fl := { z.fl with cmds := mput z.fl.cmds id c } })) ((fun (z : State) => (modCage n (fun y => { y with i2c := x :: r }) z)) (up)));
    ⟨n, id, x, r, c, s, by decide +kernel +zetaReduce⟩),
   (let n : Nat := 0;
    let r : List CageXfer := [];
    let id : Nat := 7;
    let c : Cmd := cmd 0xD2 0 0 1 8192 [(34, 1, 0), (35, 1, 1)];
    let x : CageXfer := ({ CageXfer.init with cmd := some 7 } : CageXfer);
    let s : State := (fun (z : State) => (modCage n (fun y => { y with mediaCmd := none }) z)) ((fun (z : State) => ({ z with fl := { z.fl with cmds := mput z.fl.cmds id c } })) ((fun (z : State) => (modCage n (fun y => { y with i2c := x :: r }) z)) (up)));
    ⟨n, id, x, r, c, s, by decide +kernel +zetaReduce⟩),
   (let n : Nat := 0;
    let r : List CageXfer := [];
    let x : CageXfer := CageXfer.init;
    let s : State := (fun (z : State) => (modCage n (fun y => { y with i2c := x :: r }) z)) (up);
    ⟨n, x, r, s, by decide +kernel +zetaReduce⟩),
   (let n : Nat := 0;
    let r : List CageXfer := [];
    let x : CageXfer := (fun (z : CageXfer) => ({ z with fails := 2 })) (CageXfer.init);
    let s : State := (fun (z : State) => (modCage n (fun y => { y with mediaCmd := none }) z)) ((fun (z : State) => (modCage n (fun y => { y with state := .ready }) z)) ((fun (z : State) => (modCage n (fun y => { y with i2c := x :: r }) z)) (up)));
    ⟨n, x, r, s, by decide +kernel +zetaReduce⟩),
   (let n : Nat := 0;
    let s : State := (fun (z : State) => (modCage n (fun y => { y with mediaCmd := none }) z)) ((fun (z : State) => (modCage n (fun y => { y with state := .mgmtInit }) z)) ((fun (z : State) => (modCage n (fun y => { y with i2c := [] }) z)) (up)));
    ⟨n, s, by decide +kernel +zetaReduce⟩),
   (let c : Cmd := cmd (0xD0) (0) (0) (0) (4096) [(32, 1, 4), (35, 1, 0), (36, 1, 1)];
    let id : Nat := 7;
    let s : State := withCmd c (up);
    ⟨id, c, s, by unfold Begins; decide +kernel +zetaReduce⟩),
   (let c : Cmd := cmd (0xD0) (0) (5) (0) (4096) [(32, 1, 1), (33, 1, 1)];
    let id : Nat := 7;
    let s : State := withCmd c ((fun (z : State) => (modCage c.target (fun y => { y with c2m := false }) z)) (up));
    ⟨id, c, s, by unfold Begins; decide +kernel +zetaReduce⟩),
   (let c : Cmd := cmd (0xD1) (0) (0) (0) (4096) [];
    let id : Nat := 7;
    let s : State := withCmd c ((fun (z : State) => (modCage c.target (fun y => { y with state := .fault }) z)) (up));
    ⟨id, c, s, by unfold Begins; decide +kernel +zetaReduce⟩),
   (let c : Cmd := cmd (0xD1) (0) (0) (0) (4096) [];
    let id : Nat := 7;
    let s : State := withCmd c (up);
    ⟨id, c, s, by unfold Begins; decide +kernel +zetaReduce⟩),
   (let c : Cmd := cmd (0xD2) (0) (0) (1) (4096) [(34, 1, 255), (35, 1, 1)];
    let id : Nat := 7;
    let s : State := withCmd c (up);
    ⟨id, c, s, by unfold Begins; decide +kernel +zetaReduce⟩),
   (let i : ModuleInfo := { revision := 0x50, fast := false, maxWrite := 8, apps := [], precodeTx := false, precodeRx := false, turnOnNs := 5 };
    let b : List Byte := [7];
    let c : Cmd := cmd (0xD3) (0) (0) (1) (4096) [(34, 1, 125), (35, 1, 1)];
    let id : Nat := 7;
    let s : State := withCmd c ((fun (z : State) => (modCage c.target (fun y => { y with info := some i }) z)) (up));
    ⟨id, b, c, i, s, by unfold Begins; decide +kernel +zetaReduce⟩),
   (let c : Cmd := cmd (0xD3) (0) (0) (1) (4096) [(34, 1, 126), (35, 1, 1)];
    let id : Nat := 7;
    let s : State := withCmd c ((fun (z : State) => (modCage c.target (fun y => { y with info := none }) z)) (up));
    ⟨id, c, s, by unfold Begins; decide +kernel +zetaReduce⟩),
   (let c : Cmd := cmd (0xD4) (0) (0) (320) (4096) [];
    let id : Nat := 7;
    let s : State := withCmd c ((fun (z : State) => ({ z with bed := { z.bed with cageHeld := false } })) (up));
    ⟨id, c, s, by unfold Begins; decide +kernel +zetaReduce⟩),
   (let c : Cmd := cmd (0xD5) (0) (0) (0) (4096) [];
    let id : Nat := 7;
    let s : State := withCmd c ((fun (z : State) => ({ z with bed := { z.bed with cageHeld := false } })) (up));
    ⟨id, c, s, by unfold Begins; decide +kernel +zetaReduce⟩)⟩

/-- A state and operands that meet the hypotheses of each clause of `Obligations.PageAndTrainingRows`. -/
theorem witness_PageAndTrainingRows :
    (∃ (n : Nat) (i : Nat) (s : State), (pair s n i).state = .page ∧ (pair s n i).wait2a = false ∧ (pair s n i).lastBurst = false) ∧
    (∃ (n : Nat) (i : Nat) (s : State), (pair s n i).page = []) ∧
    (∃ (n : Nat) (i : Nat) (b : List Byte) (s : State), (pair s n i).state = .page ∧ pageValid b = true ∧ byteAt b 3 = kindIndex n i ∧ (link s n).accepted = [] ∧ byteAt b 1 = 2 ∧ wireAt b 4 4 ≠ (pair s n i).nonce.toNat) ∧
    (∃ (n : Nat) (i : Nat) (b : List Byte) (s : State), (pair s n i).state = .page ∧ pageValid b = false) ∧
    (∃ (n : Nat) (i : Nat) (s : State), (pair s n i).state = .page ∧ (pair s n i).wait2a = true) ∧
    (∃ (n : Nat) (i : Nat) (s : State), (pair s n i).state = .page ∧ (pair s n i).leader = true ∧ (pair s n i).lastBurst = true) ∧
    (∃ (w : Nat), statusOk w = false) ∧
    (∃ (n : Nat) (i : Nat) (w : Nat) (s : State), statusOk w = true ∧ stepOf w = 2 ∧ w.testBit 25 = false ∧ (pair s n i).state = .page ∧ (pair s n i).leader = false ∧ (pair s n i).page ≠ [] ∧ (pair s n i).ackSent = true) ∧
    (∃ (n : Nat) (i : Nat) (w : Nat) (s : State), statusOk w = true ∧ stepOf w = 4 ∧ w.testBit 25 = false ∧ (pair s n i).state = .train ∧ (pair s n i).phase = .p4) ∧
    (∃ (n : Nat) (i : Nat) (s : State), (pair s n i).state = .train ∧ (pair s n i).leader = true ∧ (pair s n i).phase = .p2a) ∧
    (∃ (n : Nat) (i : Nat) (s : State), (pair s n i).state = .train ∧ (pair s n i).leader = false ∧ (pair s n i).phase = .p3b) ∧
    (∃ (n : Nat) (i : Nat) (s : State), (pair s n i).state = .train ∧ (pair s n i).leader = false ∧ (pair s n i).phase = .p2b) ∧
    (∃ (n : Nat) (i : Nat) (s : State), (pair s n i).state = .train) ∧
    (∃ (n : Nat) (i : Nat) (s : State), (pair s n i).state = .quiet ∧ 3 ≤ (pair s n i).fails) ∧
    (∃ (n : Nat) (i : Nat) (s : State), (pair s n i).state = .quiet ∧ (pair s n i).fails < 3) ∧
    (∃ (n : Nat) (i : Nat) (s : State), (pair s n i).state = .retrain ∧ (pair s n i).phase = .rest) :=
  ⟨(let n : Nat := 0;
    let i : Nat := 0;
    let s : State := (fun (z : State) => (modPair n i (fun y => { y with lastBurst := false }) z)) ((fun (z : State) => (modPair n i (fun y => { y with wait2a := false }) z)) ((fun (z : State) => (modPair n i (fun y => { y with state := .page }) z)) (up)));
    ⟨n, i, s, by decide +kernel +zetaReduce⟩),
   (let n : Nat := 0;
    let i : Nat := 0;
    let s : State := (fun (z : State) => (modPair n i (fun y => { y with page := [] }) z)) (up);
    ⟨n, i, s, by decide +kernel +zetaReduce⟩),
   (let n : Nat := 0;
    let i : Nat := 0;
    let b : List Byte := pageB 2 0 9;
    let s : State := (fun (z : State) => (modLink n (fun y => { y with accepted := [] }) z)) ((fun (z : State) => (modPair n i (fun y => { y with state := .page }) z)) (up));
    ⟨n, i, b, s, by decide +kernel +zetaReduce⟩),
   (let n : Nat := 0;
    let i : Nat := 0;
    let s : State := (fun (z : State) => (modPair n i (fun y => { y with state := .page }) z)) (up);
    let b : List Byte := [];
    ⟨n, i, b, s, by decide +kernel +zetaReduce⟩),
   (let n : Nat := 0;
    let i : Nat := 0;
    let s : State := (fun (z : State) => (modPair n i (fun y => { y with wait2a := true }) z)) ((fun (z : State) => (modPair n i (fun y => { y with state := .page }) z)) (up));
    ⟨n, i, s, by decide +kernel +zetaReduce⟩),
   (let n : Nat := 0;
    let i : Nat := 0;
    let s : State := (fun (z : State) => (modPair n i (fun y => { y with lastBurst := true }) z)) ((fun (z : State) => (modPair n i (fun y => { y with leader := true }) z)) ((fun (z : State) => (modPair n i (fun y => { y with state := .page }) z)) (up)));
    ⟨n, i, s, by decide +kernel +zetaReduce⟩),
   (let w : Nat := 0;
    ⟨w, by decide +kernel +zetaReduce⟩),
   (let n : Nat := 0;
    let i : Nat := 0;
    let w : Nat := stepB (2 * 2 ^ 28);
    let s : State := (fun (z : State) => (modPair n i (fun y => { y with ackSent := true }) z)) ((fun (z : State) => (modPair n i (fun y => { y with leader := false }) z)) ((fun (z : State) => (modPair n i (fun y => { y with state := .page }) z)) (modPair 0 0 (fun p => { p with page := pageB 1 0 5 }) up)));
    ⟨n, i, w, s, by decide +kernel +zetaReduce⟩),
   (let n : Nat := 0;
    let i : Nat := 0;
    let w : Nat := stepB (4 * 2 ^ 28);
    let s : State := (fun (z : State) => (modPair n i (fun y => { y with phase := .p4 }) z)) ((fun (z : State) => (modPair n i (fun y => { y with state := .train }) z)) (up));
    ⟨n, i, w, s, by decide +kernel +zetaReduce⟩),
   (let n : Nat := 0;
    let i : Nat := 0;
    let s : State := (fun (z : State) => (modPair n i (fun y => { y with phase := .p2a }) z)) ((fun (z : State) => (modPair n i (fun y => { y with leader := true }) z)) ((fun (z : State) => (modPair n i (fun y => { y with state := .train }) z)) (up)));
    ⟨n, i, s, by decide +kernel +zetaReduce⟩),
   (let n : Nat := 0;
    let i : Nat := 0;
    let s : State := (fun (z : State) => (modPair n i (fun y => { y with phase := .p3b }) z)) ((fun (z : State) => (modPair n i (fun y => { y with leader := false }) z)) ((fun (z : State) => (modPair n i (fun y => { y with state := .train }) z)) (up)));
    ⟨n, i, s, by decide +kernel +zetaReduce⟩),
   (let n : Nat := 0;
    let i : Nat := 0;
    let s : State := (fun (z : State) => (modPair n i (fun y => { y with phase := .p2b }) z)) ((fun (z : State) => (modPair n i (fun y => { y with leader := false }) z)) ((fun (z : State) => (modPair n i (fun y => { y with state := .train }) z)) (up)));
    ⟨n, i, s, by decide +kernel +zetaReduce⟩),
   (let n : Nat := 0;
    let i : Nat := 0;
    let s : State := (fun (z : State) => (modPair n i (fun y => { y with state := .train }) z)) (up);
    ⟨n, i, s, by decide +kernel +zetaReduce⟩),
   (let n : Nat := 0;
    let i : Nat := 0;
    let s : State := (fun (z : State) => (modPair n i (fun y => { y with fails := 3 }) z)) ((fun (z : State) => (modPair n i (fun y => { y with state := .quiet }) z)) (up));
    ⟨n, i, s, by decide +kernel +zetaReduce⟩),
   (let n : Nat := 0;
    let i : Nat := 0;
    let s : State := (fun (z : State) => (modPair n i (fun y => { y with state := .quiet }) z)) (up);
    ⟨n, i, s, by decide +kernel +zetaReduce⟩),
   (let n : Nat := 0;
    let i : Nat := 0;
    let s : State := (fun (z : State) => (modPair n i (fun y => { y with phase := .rest }) z)) ((fun (z : State) => (modPair n i (fun y => { y with state := .retrain }) z)) (up));
    ⟨n, i, s, by decide +kernel +zetaReduce⟩)⟩

/-- A state and operands that meet the hypotheses of each clause of `Obligations.PairSleepAndLossRows`. -/
theorem witness_PairSleepAndLossRows :
    (∃ (n : Nat) (i : Nat) (tx : Nat) (rx : Nat) (s : State), lpiOn s n = true ∧ (link s n).test = 0 ∧ (link s n).propose = none ∧ (link s n).sleepAt = none ∧ max tx rx * 100 < (link s n).set.shrink * (((activePairs s n).length - 1) * 207660 * (link s n).set.window) ∧ max 1 (effMin s n) ≤ (activePairs s n).length - 1 ∧ highestActive s n = some i ∧ lowestPair s n ≠ some i ∧ (pair s n i).agreed = false) ∧
    (∃ (n : Nat) (i : Nat) (tx : Nat) (rx : Nat) (s : State), growMet s n tx rx = true ∧ lowestAsleep s n = some i ∧ (pair s n i).state = .sleep) ∧
    (∃ (n : Nat) (tx : Nat) (rx : Nat) (s : State), growMet s n tx rx = false) ∧
    (∃ (n : Nat) (i : Nat) (s : State), (pair s n i).state = .active ∧ (pair s n i).agreed = true) ∧
    (∃ (n : Nat) (i : Nat) (s : State), (pair s n i).state = .sleep ∧ (pair s n i).leader = true ∧ s.bed.boActive = false) ∧
    (∃ (n : Nat) (i : Nat) (s : State), (pair s n i).state = .sleep ∧ (pair s n i).leader = true ∧ s.bed.boActive = true) ∧
    (∃ (n : Nat) (i : Nat) (s : State), (pair s n i).state = .sleep) ∧
    (∃ (n : Nat) (i : Nat) (s : State), (pair s n i).state = .sleep) ∧
    (∃ (n : Nat) (i : Nat) (s : State), (pair s n i).state = .sleep ∧ (pair s n i).detecting = true) ∧
    (∃ (n : Nat) (i : Nat) (s : State), (pair s n i).state = .waking ∧ (pair s n i).startRx = true ∧ (many s.fl.cmds fun _ c => decide (c.opcode = 0x32)) = false) ∧
    (∃ (n : Nat) (i : Nat) (s : State), (pair s n i).state = .waking ∧ (pair s n i).startRx = false) ∧
    (∃ (n : Nat) (i : Nat) (s : State), (pair s n i).state = .waking ∧ (pair s n i).tries < 2) ∧
    (∃ (n : Nat) (i : Nat) (s : State), (pair s n i).state = .waking ∧ 2 ≤ (pair s n i).tries) ∧
    (∃ (n : Nat) (i : Nat) (s : State), (pair s n i).state = .active) ∧
    (∃ (n : Nat) (i : Nat) (s : State), (pair s n i).state = .active) ∧
    (∃ (n : Nat) (i : Nat) (s : State), (pair s n i).state = .stdLost) ∧
    (∃ (n : Nat) (i : Nat) (s : State), (pair s n i).state = .stdAcquired) ∧
    (∃ (n : Nat) (s : State), stdMode s n = true ∧ (link s n).running = true ∧ (link s n).ending = none) :=
  ⟨(let n : Nat := 0;
    let i : Nat := 1;
    let tx : Nat := 0;
    let rx : Nat := 0;
    let s : State := (fun (z : State) => (modPair n i (fun y => { y with agreed := false }) z)) ((fun (z : State) => (modLink n (fun y => { y with sleepAt := none }) z)) ((fun (z : State) => (modLink n (fun y => { y with propose := none }) z)) ((fun (z : State) => (modLink n (fun y => { y with test := 0 }) z)) (modLink 0 (fun l => { l with lpi := true, set := { l.set with lpiEn := true, minActive := 1, shrink := 1, window := 1 } }) (modPair 0 1 (fun p => { p with state := .active }) up)))));
    ⟨n, i, tx, rx, s, by decide +kernel +zetaReduce⟩),
   (let n : Nat := 0;
    let i : Nat := 0;
    let s : State := (fun (z : State) => (modPair n i (fun y => { y with state := .sleep }) z)) (up);
    let tx : Nat := 0;
    let rx : Nat := 0;
    ⟨n, i, tx, rx, s, by decide +kernel +zetaReduce⟩),
   (let s : State := up;
    let n : Nat := 0;
    let tx : Nat := 0;
    let rx : Nat := 0;
    ⟨n, tx, rx, s, by decide +kernel +zetaReduce⟩),
   (let n : Nat := 0;
    let i : Nat := 0;
    let s : State := (fun (z : State) => (modPair n i (fun y => { y with agreed := true }) z)) ((fun (z : State) => (modPair n i (fun y => { y with state := .active }) z)) (up));
    ⟨n, i, s, by decide +kernel +zetaReduce⟩),
   (let n : Nat := 0;
    let i : Nat := 0;
    let s : State := (fun (z : State) => ({ z with bed := { z.bed with boActive := false } })) ((fun (z : State) => (modPair n i (fun y => { y with leader := true }) z)) ((fun (z : State) => (modPair n i (fun y => { y with state := .sleep }) z)) (up)));
    ⟨n, i, s, by decide +kernel +zetaReduce⟩),
   (let n : Nat := 0;
    let i : Nat := 0;
    let s : State := (fun (z : State) => ({ z with bed := { z.bed with boActive := true } })) ((fun (z : State) => (modPair n i (fun y => { y with leader := true }) z)) ((fun (z : State) => (modPair n i (fun y => { y with state := .sleep }) z)) (up)));
    ⟨n, i, s, by decide +kernel +zetaReduce⟩),
   (let n : Nat := 0;
    let i : Nat := 0;
    let s : State := (fun (z : State) => (modPair n i (fun y => { y with state := .sleep }) z)) (up);
    ⟨n, i, s, by decide +kernel +zetaReduce⟩),
   (let n : Nat := 0;
    let i : Nat := 0;
    let s : State := (fun (z : State) => (modPair n i (fun y => { y with state := .sleep }) z)) (up);
    ⟨n, i, s, by decide +kernel +zetaReduce⟩),
   (let n : Nat := 0;
    let i : Nat := 0;
    let s : State := (fun (z : State) => (modPair n i (fun y => { y with detecting := true }) z)) ((fun (z : State) => (modPair n i (fun y => { y with state := .sleep }) z)) (up));
    ⟨n, i, s, by decide +kernel +zetaReduce⟩),
   (let n : Nat := 0;
    let i : Nat := 0;
    let s : State := (fun (z : State) => (modPair n i (fun y => { y with startRx := true }) z)) ((fun (z : State) => (modPair n i (fun y => { y with state := .waking }) z)) (up));
    ⟨n, i, s, by decide +kernel +zetaReduce⟩),
   (let n : Nat := 0;
    let i : Nat := 0;
    let s : State := (fun (z : State) => (modPair n i (fun y => { y with startRx := false }) z)) ((fun (z : State) => (modPair n i (fun y => { y with state := .waking }) z)) (up));
    ⟨n, i, s, by decide +kernel +zetaReduce⟩),
   (let n : Nat := 0;
    let i : Nat := 0;
    let s : State := (fun (z : State) => (modPair n i (fun y => { y with state := .waking }) z)) (up);
    ⟨n, i, s, by decide +kernel +zetaReduce⟩),
   (let n : Nat := 0;
    let i : Nat := 0;
    let s : State := (fun (z : State) => (modPair n i (fun y => { y with tries := 2 }) z)) ((fun (z : State) => (modPair n i (fun y => { y with state := .waking }) z)) (up));
    ⟨n, i, s, by decide +kernel +zetaReduce⟩),
   (let n : Nat := 0;
    let i : Nat := 0;
    let s : State := (fun (z : State) => (modPair n i (fun y => { y with state := .active }) z)) (up);
    ⟨n, i, s, by decide +kernel +zetaReduce⟩),
   (let n : Nat := 0;
    let i : Nat := 0;
    let s : State := (fun (z : State) => (modPair n i (fun y => { y with state := .active }) z)) (up);
    ⟨n, i, s, by decide +kernel +zetaReduce⟩),
   (let n : Nat := 0;
    let i : Nat := 0;
    let s : State := (fun (z : State) => (modPair n i (fun y => { y with state := .stdLost }) z)) (up);
    ⟨n, i, s, by decide +kernel +zetaReduce⟩),
   (let n : Nat := 0;
    let i : Nat := 0;
    let s : State := (fun (z : State) => (modPair n i (fun y => { y with state := .stdAcquired }) z)) (up);
    ⟨n, i, s, by decide +kernel +zetaReduce⟩),
   (let n : Nat := 0;
    let s : State := (fun (z : State) => (modLink n (fun y => { y with ending := none }) z)) ((fun (z : State) => (modLink n (fun y => { y with running := true }) z)) ((fun (z : State) => ({ z with gar := { z.gar with mode := 2 } })) (up)));
    ⟨n, s, by decide +kernel +zetaReduce⟩)⟩

/-- A state and operands that meet the hypotheses of each clause of `Obligations.GarnetCommands`. -/
theorem witness_GarnetCommands :
    (∃ (id : Nat) (c : Cmd) (s : State), Begins s id 0x30 c ∧ garnetSetBad c = false ∧ c.target < 64 ∧ c.inl 32 4 = 1) ∧
    (∃ (id : Nat) (c : Cmd) (s : State), Begins s id 0x30 c ∧ garnetSetBad c = false ∧ c.target = 0x100 ∧ c.inl 32 4 = 2) ∧
    (∃ (id : Nat) (c : Cmd) (s : State), Begins s id 0x31 c ∧ linkTarget c.target = true ∧ noFields c = true ∧ geodeOff c s = false) ∧
    (∃ (id : Nat) (c : Cmd) (s : State), Begins s id 0x32 c ∧ pairBad c = false ∧ c.indLen = 0 ∧ stdMode s c.target = false ∧ geodeOff c s = false ∧ (pair s c.target (c.byte 32)).state = .active ∧ activePairs s c.target ≠ [c.byte 32]) ∧
    (∃ (id : Nat) (c : Cmd) (s : State), Begins s id 0x32 c ∧ pairBad c = false ∧ c.indLen = 0 ∧ stdMode s c.target = false ∧ (pair s c.target (c.byte 32)).state.unready = true) ∧
    (∃ (id : Nat) (c : Cmd) (s : State), Begins s id 0x33 c ∧ linkTarget c.target = true ∧ counterBlockBad c geodeLink (176 + 128 * pairsOf c.target) = false ∧ clearWrapOn c = false ∧ dmaAllowed s c.indAddr (garnetBlock s c.target).length = true) ∧
    (∃ (id : Nat) (c : Cmd) (s : State), Begins s id 0x34 c ∧ pairBad c = false ∧ 4168 ≤ c.indLen ∧ stdMode s c.target = false ∧ geodeOff c s = false ∧ dmaAllowed s c.indAddr 4168 = true ∧ (pair s c.target (c.byte 32)).state = .active ∧ (many (beginCmd id c s).fl.cmds fun j d => decide (j ≠ id) && decide (d.opcode = 0x34) && decide (d.target = c.target) && decide (d.phase = .executing)) = false) ∧
    (∃ (id : Nat) (c : Cmd) (s : State), Begins s id 0x35 c ∧ linkTarget c.target = true ∧ c.byte 32 = 1 ∧ c.inlZero 33 31 = true ∧ c.indLen = 0 ∧ geodeOff c s = false ∧ (link s c.target).set.loopback = 0) ∧
    (∃ (id : Nat) (c : Cmd) (s : State), Begins s id 0x35 c ∧ linkTarget c.target = true ∧ c.byte 32 = 0 ∧ c.inlZero 33 31 = true ∧ c.indLen = 0 ∧ geodeOff c s = false ∧ (link s c.target).test = 0) ∧
    (∃ (id : Nat) (c : Cmd) (s : State), Begins s id 0x35 c ∧ linkTarget c.target = true ∧ c.byte 32 = 3 ∧ c.inlZero 33 31 = true ∧ 128 ≤ c.indLen ∧ (link s c.target).test = 0) :=
  ⟨(let c : Cmd := cmd (0x30) (0) (0) (0) (4096) [(32, 4, 1)];
    let id : Nat := 7;
    let s : State := withCmd c (up);
    ⟨id, c, s, by unfold Begins; decide +kernel +zetaReduce⟩),
   (let c : Cmd := cmd (0x30) (0) (0x100) (0) (4096) [(32, 4, 2)];
    let id : Nat := 7;
    let s : State := withCmd c (up);
    ⟨id, c, s, by unfold Begins; decide +kernel +zetaReduce⟩),
   (let c : Cmd := cmd (0x31) (0) (0) (0) (4096) [];
    let id : Nat := 7;
    let s : State := withCmd c (up);
    ⟨id, c, s, by unfold Begins; decide +kernel +zetaReduce⟩),
   (let c : Cmd := cmd (0x32) (0) (0) (0) (4096) [];
    let id : Nat := 7;
    let s : State := withCmd c ((fun (z : State) => (modPair c.target (c.byte 32) (fun y => { y with state := .active }) z)) (modPair 0 1 (fun p => { p with state := .active }) up));
    ⟨id, c, s, by unfold Begins; decide +kernel +zetaReduce⟩),
   (let c : Cmd := cmd (0x32) (0) (0) (0) (4096) [];
    let id : Nat := 7;
    let s : State := withCmd c (modPair 0 0 (fun p => { p with state := .quiet }) up);
    ⟨id, c, s, by unfold Begins; decide +kernel +zetaReduce⟩),
   (let c : Cmd := cmd (0x33) (0) (0) (1024) (4096) [];
    let id : Nat := 7;
    let s : State := withCmd c (up);
    ⟨id, c, s, by unfold Begins; decide +kernel +zetaReduce⟩),
   (let c : Cmd := cmd (0x34) (0) (0) (4168) (4096) [];
    let id : Nat := 7;
    let s : State := withCmd c ((fun (z : State) => (modPair c.target (c.byte 32) (fun y => { y with state := .active }) z)) (up));
    ⟨id, c, s, by unfold Begins; decide +kernel +zetaReduce⟩),
   (let c : Cmd := cmd (0x35) (0) (0) (0) (4096) [(32, 1, 1)];
    let id : Nat := 7;
    let s : State := withCmd c ((fun (z : State) => (modLink c.target (fun y => { y with set := { y.set with loopback := 0 } }) z)) (up));
    ⟨id, c, s, by unfold Begins; decide +kernel +zetaReduce⟩),
   (let c : Cmd := cmd (0x35) (0) (0) (0) (4096) [(32, 1, 0)];
    let id : Nat := 7;
    let s : State := withCmd c ((fun (z : State) => (modLink c.target (fun y => { y with test := 0 }) z)) (up));
    ⟨id, c, s, by unfold Begins; decide +kernel +zetaReduce⟩),
   (let c : Cmd := cmd (0x35) (0) (0) (128) (4096) [(32, 1, 3)];
    let id : Nat := 7;
    let s : State := withCmd c ((fun (z : State) => (modLink c.target (fun y => { y with test := 0 }) z)) (up));
    ⟨id, c, s, by unfold Begins; decide +kernel +zetaReduce⟩)⟩

/-- A state and operands that meet the hypotheses of each clause of `Obligations.FlitRows`. -/
theorem witness_FlitRows :
    (∃ (n : Nat) (i : Nat) (s : State), (pair s n i).state ≠ .active) ∧
    (∃ (n : Nat) (i : Nat) (s : State), (pair s n i).state = .active ∧ (link s n).set.loopback ≠ 1) ∧
    (∃ (n : Nat) (i : Nat) (f : List Byte) (s : State), (pair s n i).state = .active ∧ (link s n).running = true ∧ (link s n).set.loopback ≠ 1 ∧ ((f.length ≠ 256 ∨ wireAt f 252 4 ≠ (crc32c (f.take 252)).toNat))) ∧
    (∃ (n : Nat) (i : Nat) (f : List Byte) (s : State), (pair s n i).state = .active ∧ (link s n).running = true ∧ (link s n).set.loopback ≠ 1 ∧ f.length = 256 ∧ wireAt f 252 4 = (crc32c (f.take 252)).toNat ∧ wireAt f 0 4 / 2 ^ 19 % 4 = 0 ∧ wireAt f 0 4 % 256 = 0xFF ∧ wireAt f 0 4 / 2 ^ 21 = (link s n).e ∧ (link s n).ahead = [] ∧ (link s n).part = []) ∧
    (∃ (n : Nat) (i : Nat) (d : Nat) (f : List Byte) (s : State), (pair s n i).state = .active ∧ (link s n).running = true ∧ (link s n).set.loopback ≠ 1 ∧ f.length = 256 ∧ wireAt f 252 4 = (crc32c (f.take 252)).toNat ∧ wireAt f 0 4 / 2 ^ 19 % 4 = 0 ∧ wireAt f 0 4 % 256 = 0xFF ∧ (wireAt f 0 4 / 2 ^ 21 + 2048 - (link s n).e) % 2048 = d ∧ d ≠ 0) ∧
    (∃ (n : Nat) (s : State), (link s n).running = true ∧ (link s n).nakWait = false ∧ (link s n).ahead ≠ []) ∧
    (∃ (n : Nat) (s : State), (link s n).nakWait = true) ∧
    (∃ (n : Nat) (s : State), (link s n).running = true ∧ (link s n).replay ≠ [] ∧ (link s n).resend = [] ∧ activePairs s n ≠ [] ∧ (link s n).replays < 8) ∧
    (∃ (n : Nat) (s : State), activePairs s n = []) ∧
    (∃ (n : Nat) (s : State), (link s n).ending ≠ none ∧ (link s n).running = true) ∧
    (∃ (n : Nat) (i : Nat) (f : Flit) (r : List Flit) (s : State), (pair s n i).state = .active ∧ (link s n).running = true ∧ stdMode s n = false ∧ (link s n).resend = f :: r) ∧
    (∃ (n : Nat) (i : Nat) (s : State), (pair s n i).state = .active ∧ (link s n).running = true ∧ stdMode s n = false ∧ (link s n).resend = [] ∧ (link s n).up = false) ∧
    (∃ (n : Nat) (i : Nat) (r : List Byte) (s : State), (pair s n i).state = .active ∧ (link s n).running = true ∧ stdMode s n = false ∧ (link s n).resend = [] ∧ (link s n).up = true ∧ (link s n).replay.length < 1024 ∧ (link s n).txPart = [] ∧ (link s n).ctl = [r] ∧ (link s n).resp = [] ∧ (link s n).pkt = none ∧ r ≠ [] ∧ r.length < 248 ∧ byteAt r 0 ≠ 0x51) :=
  ⟨(let s : State := modPair 0 0 (fun p => { p with state := .quiet }) up;
    let n : Nat := 0;
    let i : Nat := 0;
    ⟨n, i, s, by decide +kernel +zetaReduce⟩),
   (let n : Nat := 0;
    let i : Nat := 0;
    let s : State := (fun (z : State) => (modPair n i (fun y => { y with state := .active }) z)) (up);
    ⟨n, i, s, by decide +kernel +zetaReduce⟩),
   (let n : Nat := 0;
    let i : Nat := 0;
    let f : List Byte := [];
    let s : State := (fun (z : State) => (modLink n (fun y => { y with running := true }) z)) ((fun (z : State) => (modPair n i (fun y => { y with state := .active }) z)) (up));
    ⟨n, i, f, s, by decide +kernel +zetaReduce⟩),
   (let n : Nat := 0;
    let i : Nat := 0;
    let f : List Byte := flitB 0xFF;
    let s : State := (fun (z : State) => (modLink n (fun y => { y with part := [] }) z)) ((fun (z : State) => (modLink n (fun y => { y with ahead := [] }) z)) ((fun (z : State) => (modLink n (fun y => { y with running := true }) z)) ((fun (z : State) => (modPair n i (fun y => { y with state := .active }) z)) (up))));
    ⟨n, i, f, s, by decide +kernel +zetaReduce, by decide +kernel +zetaReduce, by decide +kernel +zetaReduce, by decide +kernel +zetaReduce, flitB_crc _, by decide +kernel +zetaReduce⟩),
   (let n : Nat := 0;
    let i : Nat := 0;
    let f : List Byte := flitB (2047 * 2 ^ 21 + 0xFF);
    let d : Nat := 2047;
    let s : State := (fun (z : State) => (modLink n (fun y => { y with running := true }) z)) ((fun (z : State) => (modPair n i (fun y => { y with state := .active }) z)) (up));
    ⟨n, i, d, f, s, by decide +kernel +zetaReduce, by decide +kernel +zetaReduce, by decide +kernel +zetaReduce, by decide +kernel +zetaReduce, flitB_crc _, by decide +kernel +zetaReduce⟩),
   (let n : Nat := 0;
    let s : State := (fun (z : State) => (modLink n (fun y => { y with nakWait := false }) z)) ((fun (z : State) => (modLink n (fun y => { y with running := true }) z)) (modLink 0 (fun l => { l with ahead := [(1, Flit.init)] }) up));
    ⟨n, s, by decide +kernel +zetaReduce⟩),
   (let n : Nat := 0;
    let s : State := (fun (z : State) => (modLink n (fun y => { y with nakWait := true }) z)) (up);
    ⟨n, s, by decide +kernel +zetaReduce⟩),
   (let n : Nat := 0;
    let s : State := (fun (z : State) => (modLink n (fun y => { y with resend := [] }) z)) ((fun (z : State) => (modLink n (fun y => { y with running := true }) z)) (modLink 0 (fun l => { l with replay := [Flit.init] }) up));
    ⟨n, s, by decide +kernel +zetaReduce⟩),
   (let s : State := modPair 0 0 (fun p => { p with state := .quiet }) up;
    let n : Nat := 0;
    ⟨n, s, by decide +kernel +zetaReduce⟩),
   (let n : Nat := 0;
    let s : State := (fun (z : State) => (modLink n (fun y => { y with running := true }) z)) (modLink 0 (fun l => { l with ending := some true }) up);
    ⟨n, s, by decide +kernel +zetaReduce⟩),
   (let n : Nat := 0;
    let i : Nat := 0;
    let r : List Flit := [];
    let f : Flit := Flit.init;
    let s : State := (fun (z : State) => (modLink n (fun y => { y with resend := f :: r }) z)) ((fun (z : State) => (modLink n (fun y => { y with running := true }) z)) ((fun (z : State) => (modPair n i (fun y => { y with state := .active }) z)) (up)));
    ⟨n, i, f, r, s, by decide +kernel +zetaReduce⟩),
   (let n : Nat := 0;
    let i : Nat := 0;
    let s : State := (fun (z : State) => (modLink n (fun y => { y with up := false }) z)) ((fun (z : State) => (modLink n (fun y => { y with resend := [] }) z)) ((fun (z : State) => (modLink n (fun y => { y with running := true }) z)) ((fun (z : State) => (modPair n i (fun y => { y with state := .active }) z)) (up))));
    ⟨n, i, s, by decide +kernel +zetaReduce⟩),
   (let n : Nat := 0;
    let i : Nat := 0;
    let r : List Byte := [0x21, 0, 0, 0];
    let s : State := (fun (z : State) => (modLink n (fun y => { y with pkt := none }) z)) ((fun (z : State) => (modLink n (fun y => { y with resp := [] }) z)) ((fun (z : State) => (modLink n (fun y => { y with ctl := [r] }) z)) ((fun (z : State) => (modLink n (fun y => { y with txPart := [] }) z)) ((fun (z : State) => (modLink n (fun y => { y with up := true }) z)) ((fun (z : State) => (modLink n (fun y => { y with resend := [] }) z)) ((fun (z : State) => (modLink n (fun y => { y with running := true }) z)) ((fun (z : State) => (modPair n i (fun y => { y with state := .active }) z)) (up))))))));
    ⟨n, i, r, s, by decide +kernel +zetaReduce⟩)⟩

/-- A state and operands that meet the hypotheses of each clause of `Obligations.LinkRecords`. -/
theorem witness_LinkRecords :
    (∃ (n : Nat) (r : List Byte) (s : State), (link s n).recs.find? (isType 0x11) = some r ∧ headerBad (r.take 16) = true) ∧
    (∃ (n : Nat) (r : List Byte) (s : State), n ≠ geodeLink ∧ (link s n).recs.find? (isType 0x11) = some r ∧ headerBad (r.take 16) = false ∧ creditRoom (link s n) < cellsOf (hdrLen (r.take 16))) ∧
    (∃ (n : Nat) (r : List Byte) (s : State), (link s n).recs.find? (isType 0x11) = some r ∧ headerBad (r.take 16) = false ∧ cellsOf (hdrLen (r.take 16)) ≤ creditRoom (link s n) ∧ queue? s true (hdrEq (r.take 16)) = none) ∧
    (∃ (n : Nat) (r : List Byte) (x : Queue) (s : State), (link s n).recs.find? (isType 0x11) = some r ∧ headerBad (r.take 16) = false ∧ cellsOf (hdrLen (r.take 16)) ≤ creditRoom (link s n) ∧ queue? s true (hdrEq (r.take 16)) = some x ∧ egressRuns' s (hdrEq (r.take 16)) = true ∧ (profile s x.prof).wred = 0 ∧ x.depth + cellsOf (r.drop 16).length ≤ (profile s x.prof).qmax * 16 ∧ (profile s x.prof).spill = false ∧ cellsOf (r.drop 16).length + x.od ≤ (profile s x.prof).qmin) ∧
    (∃ (n : Nat) (r : List Byte) (s : State), (link s n).recs.find? (isType 0x21) = some r ∧ mhas (link s n).lookups (wireAt r 2 2 % 1024) = false) ∧
    (∃ (n : Nat) (r : List Byte) (s : State), (link s n).recs.find? (isType 0x21) = some r ∧ mhas (link s n).lookups (wireAt r 2 2 % 1024) = true) ∧
    (∃ (n : Nat) (r : List Byte) (s : State), (link s n).recs.find? (isType 0x41) = some r ∧ byteAt r 1 = 1) ∧
    (∃ (n : Nat) (s : State), n < 64 ∧ (link s n).up = true ∧ ingressRuns s = true ∧ ((link s n).freed + BitVec.ofNat 32 (link s n).set.credits - (link s n).adv).toNat < 2 ^ 31) ∧
    (∃ (n : Nat) (s : State), n < 64 ∧ (link s n).up = true ∧ ingressRuns s = false) ∧
    (∃ (n : Nat) (s : State), (link s n).up = false) ∧
    (∃ (n : Nat) (k : Nat) (s : State), n < 64 ∧ k < 8 ∧ (link s n).stalls.contains k = false ∧ creditStalled s n k = false) ∧
    (∃ (n : Nat) (k : Nat) (s : State), n < 64 ∧ k < 8 ∧ (link s n).stalls.contains k = false ∧ creditStalled s n k = true) ∧
    (∃ (n : Nat) (r : List Byte) (s : State), (link s n).recs.find? (isCtl 1) = some r ∧ (link s n).propose = some (byteAt r 2) ∧ (pair s n (byteAt r 2)).state = .active) ∧
    (∃ (n : Nat) (r : List Byte) (s : State), (link s n).recs.find? (isCtl 2) = some r ∧ (link s n).propose = some (byteAt r 2) ∧ (pair s n (byteAt r 2)).state = .active) ∧
    (∃ (n : Nat) (r : List Byte) (s : State), (link s n).recs.find? (isCtl 3) = some r ∧ (link s n).propose = some (byteAt r 2)) ∧
    (∃ (n : Nat) (k : Nat) (s : State), (link s n).propose = some k) ∧
    (∃ (n : Nat) (r : List Byte) (s : State), (link s n).recs.find? (isCtl 4) = some r) ∧
    (∃ (r : List Byte) (e : Nat) (s : State), (link s geodeLink).recs.find? (isCtl 5) = some r ∧ s.geo.echoAt = some e) ∧
    (∃ (n : Nat) (f : List Byte) (s : State), stdMode s n = true ∧ (link s n).running = true ∧ fcsOk f = false) ∧
    (∃ (n : Nat) (r : List Byte) (s : State), stdMode s n = true ∧ (link s n).up = true ∧ (link s n).ctl = [r] ∧ (link s n).resp = [] ∧ r.length ≤ 1500) :=
  ⟨(let n : Nat := 0;
    let r : List Byte := recB 6 0;
    let s : State := (fun (z : State) => (modLink n (fun y => { y with recs := [r] }) z)) (up);
    ⟨n, r, s, by decide +kernel +zetaReduce⟩),
   (let n : Nat := 0;
    let r : List Byte := recB 0 0;
    let s : State := (fun (z : State) => (modLink n (fun y => { y with recs := [r] }) z)) (up);
    ⟨n, r, s, by decide +kernel +zetaReduce⟩),
   (let n : Nat := 0;
    let r : List Byte := recB 0 1;
    let s : State := (fun (z : State) => (modLink n (fun y => { y with recs := [r] }) z)) (modLink 0 (fun l => { l with adv := 8 }) up);
    ⟨n, r, s, by decide +kernel +zetaReduce⟩),
   (let n : Nat := 0;
    let r : List Byte := recB 0 0;
    let x : Queue := Queue.init;
    let s : State := (fun (z : State) => ({ z with buf := { z.buf with eq := mput z.buf.eq (hdrEq (r.take 16)) x } })) ((fun (z : State) => (modLink n (fun y => { y with recs := [r] }) z)) ((modLink 0 (fun l => { l with adv := 8 }) up).mapBuf fun b => { b with profiles := [(0, { Profile.init with spill := false, wred := 0, qmin := 16, qmax := 64 })] }));
    ⟨n, r, x, s, by decide +kernel +zetaReduce⟩),
   (let n : Nat := 0;
    let r : List Byte := [0x21, 0, 0, 5, 1, 0, 0, 0];
    let s : State := (fun (z : State) => (modLink n (fun y => { y with recs := [r] }) z)) (up);
    ⟨n, r, s, by decide +kernel +zetaReduce⟩),
   (let n : Nat := 0;
    let r : List Byte := [0x21, 0, 0, 5, 1, 0, 0, 0];
    let s : State := (fun (z : State) => (modLink n (fun y => { y with recs := [r] }) z)) (modLink 0 (fun l => { l with lookups := [(5, Lookup.init)] }) up);
    ⟨n, r, s, by decide +kernel +zetaReduce⟩),
   (let n : Nat := 0;
    let r : List Byte := [0x41, 1, 0, 0, 0, 0, 0, 9];
    let s : State := (fun (z : State) => (modLink n (fun y => { y with recs := [r] }) z)) (up);
    ⟨n, r, s, by decide +kernel +zetaReduce⟩),
   (let n : Nat := 0;
    let s : State := (fun (z : State) => (modLink n (fun y => { y with up := true }) z)) (up);
    ⟨n, s, by decide +kernel +zetaReduce⟩),
   (let n : Nat := 0;
    let s : State := (fun (z : State) => (modLink n (fun y => { y with up := true }) z)) (up.mapBuf fun b => { b with drain := true });
    ⟨n, s, by decide +kernel +zetaReduce⟩),
   (let n : Nat := 0;
    let s : State := (fun (z : State) => (modLink n (fun y => { y with up := false }) z)) (up);
    ⟨n, s, by decide +kernel +zetaReduce⟩),
   (let s : State := up;
    let n : Nat := 0;
    let k : Nat := 0;
    ⟨n, k, s, by decide +kernel +zetaReduce⟩),
   (let n : Nat := 0;
    let k : Nat := 7;
    let s : State := { up with now := 10 ^ 10, buf := { up.buf with iq := [(7, { Queue.init with pkts := [{ Pkt.init with bytes := zeros 64 }] })] } };
    ⟨n, k, s, by decide +kernel +zetaReduce⟩),
   (let n : Nat := 0;
    let r : List Byte := [0x51, 1, 0, 0, 0, 0, 0, 0];
    let s : State := (fun (z : State) => (modPair n (byteAt r 2) (fun y => { y with state := .active }) z)) ((fun (z : State) => (modLink n (fun y => { y with propose := some (byteAt r 2) }) z)) ((fun (z : State) => (modLink n (fun y => { y with recs := [r] }) z)) (modLink 0 (fun l => { l with propose := some 0 }) up)));
    ⟨n, r, s, by decide +kernel +zetaReduce⟩),
   (let n : Nat := 0;
    let r : List Byte := [0x51, 2, 0, 0, 0, 0, 0, 0];
    let s : State := (fun (z : State) => (modPair n (byteAt r 2) (fun y => { y with state := .active }) z)) ((fun (z : State) => (modLink n (fun y => { y with propose := some (byteAt r 2) }) z)) ((fun (z : State) => (modLink n (fun y => { y with recs := [r] }) z)) (modLink 0 (fun l => { l with propose := some 0 }) up)));
    ⟨n, r, s, by decide +kernel +zetaReduce⟩),
   (let n : Nat := 0;
    let r : List Byte := [0x51, 3, 0, 0, 0, 0, 0, 0];
    let s : State := (fun (z : State) => (modLink n (fun y => { y with propose := some (byteAt r 2) }) z)) ((fun (z : State) => (modLink n (fun y => { y with recs := [r] }) z)) (modLink 0 (fun l => { l with propose := some 0 }) up));
    ⟨n, r, s, by decide +kernel +zetaReduce⟩),
   (let n : Nat := 0;
    let k : Nat := 0;
    let s : State := (fun (z : State) => (modLink n (fun y => { y with propose := some k }) z)) (up);
    ⟨n, k, s, by decide +kernel +zetaReduce⟩),
   (let n : Nat := 0;
    let r : List Byte := [0x51, 4, 0, 0, 1, 2, 3, 4];
    let s : State := (fun (z : State) => (modLink n (fun y => { y with recs := [r] }) z)) (up);
    ⟨n, r, s, by decide +kernel +zetaReduce⟩),
   (let r : List Byte := [0x51, 5, 0, 0, 1, 2, 3, 4];
    let e : Nat := 0;
    let s : State := (fun (z : State) => ({ z with geo := { z.geo with echoAt := some e } })) ((fun (z : State) => (modLink geodeLink (fun y => { y with recs := [r] }) z)) (up));
    ⟨r, e, s, by decide +kernel +zetaReduce⟩),
   (let n : Nat := 0;
    let s : State := (fun (z : State) => (modLink n (fun y => { y with running := true }) z)) ((fun (z : State) => ({ z with gar := { z.gar with mode := 2 } })) (up));
    let f : List Byte := [];
    ⟨n, f, s, by decide +kernel +zetaReduce⟩),
   (let n : Nat := 0;
    let r : List Byte := [0x51, 4, 0, 0, 1, 2, 3, 4];
    let s : State := (fun (z : State) => (modLink n (fun y => { y with resp := [] }) z)) ((fun (z : State) => (modLink n (fun y => { y with ctl := [r] }) z)) ((fun (z : State) => (modLink n (fun y => { y with up := true }) z)) ((fun (z : State) => ({ z with gar := { z.gar with mode := 2 } })) (up))));
    ⟨n, r, s, by decide +kernel +zetaReduce⟩)⟩

/-- A state and operands that meet the hypotheses of each clause of `Obligations.LinkControlAndOuterFrames`. -/
theorem witness_LinkControlAndOuterFrames :
    (∃ (n : Nat) (r : List Byte) (s : State), (link s n).recs.find? (isCtl 1) = some r ∧ (link s n).propose = some (byteAt r 2) ∧ (pair s n (byteAt r 2)).state = .active) ∧
    (∃ (n : Nat) (r : List Byte) (s : State), (link s n).recs.find? (isCtl 1) = some r ∧ (link s n).propose ≠ some (byteAt r 2) ∧ lpiOn s n = false) ∧
    (∃ (n : Nat) (tx : Nat) (rx : Nat) (r : List Byte) (s : State), (link s n).recs.find? (isCtl 1) = some r ∧ (link s n).propose ≠ some (byteAt r 2) ∧ lpiOn s n = true ∧ highestActive s n = some (byteAt r 2) ∧ effMin s n + 1 ≤ (activePairs s n).length ∧ growMet s n tx rx = false) ∧
    (∃ (n : Nat) (r : List Byte) (s : State), (link s n).recs.find? (isCtl 2) = some r ∧ (link s n).propose = some (byteAt r 2) ∧ (pair s n (byteAt r 2)).state = .active) ∧
    (∃ (n : Nat) (r : List Byte) (s : State), (link s n).recs.find? (isCtl 2) = some r ∧ (link s n).propose ≠ some (byteAt r 2)) ∧
    (∃ (n : Nat) (r : List Byte) (s : State), (link s n).recs.find? (isCtl 3) = some r ∧ (link s n).propose = some (byteAt r 2)) ∧
    (∃ (n : Nat) (r : List Byte) (s : State), (link s n).recs.find? (isCtl 4) = some r) ∧
    (∃ (r : List Byte) (e : Nat) (s : State), (link s geodeLink).recs.find? (isCtl 5) = some r ∧ s.geo.echoAt = some e) ∧
    (∃ (n : Nat) (r : List Byte) (s : State), n ≠ geodeLink ∧ (link s n).recs.find? (isCtl 5) = some r) ∧
    (∃ (n : Nat) (f : List Byte) (s : State), stdMode s n = true ∧ (link s n).running = true ∧ fcsOk f = false) ∧
    (∃ (n : Nat) (k : Nat) (f : List Byte) (r : List Byte) (s : State), stdMode s n = true ∧ (link s n).running = true ∧ fcsOk f = true ∧ f.length ≤ 10274 ∧ wireAt f 12 2 = s.gar.etherType.toNat ∧ slice f 14 (f.length - 18) = r ++ zeros k ∧ r.length = 8 ∧ byteAt r 0 = 0x51 ∧ recordErr s n r = false) ∧
    (∃ (n : Nat) (s : State), stdMode s n = false) ∧
    (∃ (n : Nat) (r : List Byte) (s : State), stdMode s n = true ∧ (link s n).up = true ∧ (link s n).ctl = [r] ∧ (link s n).resp = [] ∧ r.length ≤ 1500) :=
  ⟨(let n : Nat := 0;
    let r : List Byte := [0x51, 1, 0, 0, 0, 0, 0, 0];
    let s : State := (fun (z : State) => (modPair n (byteAt r 2) (fun y => { y with state := .active }) z)) ((fun (z : State) => (modLink n (fun y => { y with propose := some (byteAt r 2) }) z)) ((fun (z : State) => (modLink n (fun y => { y with recs := [r] }) z)) (modLink 0 (fun l => { l with propose := some 0 }) up)));
    ⟨n, r, s, by decide +kernel +zetaReduce⟩),
   (let n : Nat := 0;
    let r : List Byte := [0x51, 1, 0, 0, 0, 0, 0, 0];
    let s : State := (fun (z : State) => (modLink n (fun y => { y with recs := [r] }) z)) (up);
    ⟨n, r, s, by decide +kernel +zetaReduce⟩),
   (let n : Nat := 0;
    let tx : Nat := 0;
    let rx : Nat := 0;
    let r : List Byte := [0x51, 1, 1, 0, 0, 0, 0, 0];
    let s : State := (fun (z : State) => (modLink n (fun y => { y with recs := [r] }) z)) (modLink 0 (fun l => { l with lpi := true, set := { l.set with lpiEn := true, minActive := 1, shrink := 1, window := 1 } }) (modPair 0 1 (fun p => { p with state := .active }) up));
    ⟨n, tx, rx, r, s, by decide +kernel +zetaReduce⟩),
   (let n : Nat := 0;
    let r : List Byte := [0x51, 2, 0, 0, 0, 0, 0, 0];
    let s : State := (fun (z : State) => (modPair n (byteAt r 2) (fun y => { y with state := .active }) z)) ((fun (z : State) => (modLink n (fun y => { y with propose := some (byteAt r 2) }) z)) ((fun (z : State) => (modLink n (fun y => { y with recs := [r] }) z)) (modLink 0 (fun l => { l with propose := some 0 }) up)));
    ⟨n, r, s, by decide +kernel +zetaReduce⟩),
   (let n : Nat := 0;
    let r : List Byte := [0x51, 2, 0, 0, 0, 0, 0, 0];
    let s : State := (fun (z : State) => (modLink n (fun y => { y with recs := [r] }) z)) (up);
    ⟨n, r, s, by decide +kernel +zetaReduce⟩),
   (let n : Nat := 0;
    let r : List Byte := [0x51, 3, 0, 0, 0, 0, 0, 0];
    let s : State := (fun (z : State) => (modLink n (fun y => { y with propose := some (byteAt r 2) }) z)) ((fun (z : State) => (modLink n (fun y => { y with recs := [r] }) z)) (modLink 0 (fun l => { l with propose := some 0 }) up));
    ⟨n, r, s, by decide +kernel +zetaReduce⟩),
   (let n : Nat := 0;
    let r : List Byte := [0x51, 4, 0, 0, 1, 2, 3, 4];
    let s : State := (fun (z : State) => (modLink n (fun y => { y with recs := [r] }) z)) (up);
    ⟨n, r, s, by decide +kernel +zetaReduce⟩),
   (let r : List Byte := [0x51, 5, 0, 0, 1, 2, 3, 4];
    let e : Nat := 0;
    let s : State := (fun (z : State) => ({ z with geo := { z.geo with echoAt := some e } })) ((fun (z : State) => (modLink geodeLink (fun y => { y with recs := [r] }) z)) (up));
    ⟨r, e, s, by decide +kernel +zetaReduce⟩),
   (let n : Nat := 0;
    let r : List Byte := [0x51, 5, 0, 0, 1, 2, 3, 4];
    let s : State := (fun (z : State) => (modLink n (fun y => { y with recs := [r] }) z)) (up);
    ⟨n, r, s, by decide +kernel +zetaReduce⟩),
   (let n : Nat := 0;
    let s : State := (fun (z : State) => (modLink n (fun y => { y with running := true }) z)) ((fun (z : State) => ({ z with gar := { z.gar with mode := 2 } })) (up));
    let f : List Byte := [];
    ⟨n, f, s, by decide +kernel +zetaReduce⟩),
   (let n : Nat := 0;
    let k : Nat := 38;
    let r : List Byte := [0x51, 4, 0, 0, 1, 2, 3, 4];
    let f : List Byte := withFcs (zeros 12 ++ beBytes 2 up.gar.etherType.toNat ++ r ++ zeros 42);
    let s : State := (fun (z : State) => (modLink n (fun y => { y with running := true }) z)) ((fun (z : State) => ({ z with gar := { z.gar with mode := 2 } })) (up));
    ⟨n, k, f, r, s, by decide +kernel +zetaReduce, by decide +kernel +zetaReduce, withFcs_ok _, by decide +kernel +zetaReduce⟩),
   (let s : State := up;
    let n : Nat := 0;
    ⟨n, s, by decide +kernel +zetaReduce⟩),
   (let n : Nat := 0;
    let r : List Byte := [0x51, 4, 0, 0, 1, 2, 3, 4];
    let s : State := (fun (z : State) => (modLink n (fun y => { y with resp := [] }) z)) ((fun (z : State) => (modLink n (fun y => { y with ctl := [r] }) z)) ((fun (z : State) => (modLink n (fun y => { y with up := true }) z)) ((fun (z : State) => ({ z with gar := { z.gar with mode := 2 } })) (up))));
    ⟨n, r, s, by decide +kernel +zetaReduce⟩)⟩

/-- A state and operands that meet the hypotheses of each clause of `Obligations.IngressRows`. -/
theorem witness_IngressRows :
    (∃ (p : Nat) (f : Bool) (q : Port) (s : State), port? s p = some q ∧ q.state ≠ .up ∧ (f = false ∨ q.cut = false)) ∧
    (∃ (p : Nat) (l : List Byte) (q : Port) (s : State), port? s p = some q ∧ q.state ≠ .up ∧ q.cut = true ∧ isSecondary s = false ∧ ingressRuns s = false ∧ q.loopback ≠ 3 ∧ 64 ≤ l.length ∧ l.length ≤ q.maxFrame ∧ wireAt l 12 2 ≠ 0x8808) ∧
    (∃ (p : Nat) (l : List Byte) (q : Port) (s : State), port? s p = some q ∧ q.state = .up ∧ q.deleting = false ∧ l.length < 64 ∧ fcsOk l = true) ∧
    (∃ (p : Nat) (q : Port) (s : State), port? s p = some q ∧ q.state = .up ∧ q.deleting = false ∧ isSecondary s = true) ∧
    (∃ (p : Nat) (l : List Byte) (f : Bool) (q : Port) (x : Queue) (s : State), port? s p = some q ∧ q.state = .up ∧ q.deleting = false ∧ isSecondary s = false ∧ ingressRuns s = true ∧ (rxRow l q.maxFrame (f || !fcsOk l) = 0 ∨ rxRow l q.maxFrame (f || !fcsOk l) = 14) ∧ queue? s false (8 * p + (classifyFrame s p l).1) = some x ∧ (profile s x.prof).wred = 0 ∧ (profile s x.prof).spill = false ∧ x.od + cellsOf l.length ≤ (profile s x.prof).qmin ∧ x.depth + cellsOf l.length ≤ (profile s x.prof).qmax * 16) ∧
    (∃ (p : Nat) (l : List Byte) (f : Bool) (q : Port) (x : Queue) (s : State), port? s p = some q ∧ q.state = .up ∧ q.deleting = false ∧ isSecondary s = false ∧ ingressRuns s = true ∧ rxRow l q.maxFrame (f || !fcsOk l) = 0 ∧ (classifyFrame s p l).1 < 8 ∧ queue? s false (8 * p + (classifyFrame s p l).1) = some x ∧ (profile s x.prof).wred = 0 ∧ (profile s x.prof).spill = false ∧ (profile s x.prof).qmax * 16 < x.depth + 1) ∧
    (∃ (n : Nat) (s : State), ((link s n).up = false ∨ (link s n).pkt ≠ none ∨ (link s n).ctl ≠ [] ∨ (link s n).resp ≠ [] ∨ isSecondary s = true)) ∧
    (∃ (n : Nat) (p : Nat) (c : Nat) (d : Map Nat) (s : State), ingressPick s n [7, 6, 5, 4, 3, 2, 1, 0] = some (p, c, d)) ∧
    (∃ (n : Nat) (p : Nat) (c : Nat) (d : Map Nat) (k : Pkt) (f : List Found) (s : State), mayPick s n = true ∧ stdMode s n = false ∧ ingressPick s n [7, 6, 5, 4, 3, 2, 1, 0] = some (p, c, d) ∧ ingressHead s p c = some k ∧ k.poison = false ∧ anyBad s (packetFound s k f) = false) ∧
    (∃ (n : Nat) (p : Nat) (c : Nat) (d : Map Nat) (k : Pkt) (x : Queue) (f : List Found) (s : State), mayPick s n = true ∧ stdMode s n = true ∧ ingressPick s n [7, 6, 5, 4, 3, 2, 1, 0] = some (p, c, d) ∧ ingressHead s p c = some k ∧ queue? s false (8 * p + c) = some x ∧ k.poison = false ∧ anyBad s (packetFound s k f) = false) ∧
    (∃ (n : Nat) (p : Nat) (c : Nat) (d : Map Nat) (k : Pkt) (x : Queue) (f : List Found) (s : State), mayPick s n = true ∧ c < 8 ∧ ingressPick s n [7, 6, 5, 4, 3, 2, 1, 0] = some (p, c, d) ∧ ingressHead s p c = some k ∧ queue? s false (8 * p + c) = some x ∧ (k.poison = true ∨ anyBad s (packetFound s k f) = true)) ∧
    (∃ (n : Nat) (p : Nat) (c : Nat) (d : Map Nat) (k : Pkt) (x : Queue) (f : List Found) (s : State), mayPick s n = true ∧ ingressPick s n [7, 6, 5, 4, 3, 2, 1, 0] = some (p, c, d) ∧ ingressHead s p c = some k ∧ queue? s false (8 * p + c) = some x ∧ sending s false (8 * p + c) = 0 ∧ anyBad s (packetFound s k f) = true) ∧
    (∃ (eg : Bool) (q : Nat) (x : Queue) (s : State), queue? s eg q = some x ∧ spillRange x = none) ∧
    (∃ (eg : Bool) (q : Nat) (x : Queue) (r : Nat × Nat) (s : State), queue? s eg q = some x ∧ spillRange x = some r) ∧
    (∃ (eg : Bool) (q : Nat) (s : State), queue? s eg q = none) ∧
    (∃ (eg : Bool) (q : Nat) (x : Queue) (s : State), queue? s eg q = some x) :=
  ⟨(let p : Nat := 0;
    let q : Port := Port.init;
    let s : State := (fun (z : State) => ({ z with ports := { z.ports with tab := mput z.ports.tab p q } })) (up.mapPorts fun b => { b with tab := [(0, Port.init)] });
    let f : Bool := false;
    ⟨p, f, q, s, by decide +kernel +zetaReduce⟩),
   (let p : Nat := 0;
    let q : Port := ({ Port.init with cut := true } : Port);
    let l : List Byte := zeros 64;
    let s : State := (fun (z : State) => ({ z with ports := { z.ports with tab := mput z.ports.tab p q } })) ((up.mapBuf fun b => { b with drain := true }).mapPorts fun b => { b with tab := [(0, q)] });
    ⟨p, l, q, s, by decide +kernel +zetaReduce⟩),
   (let p : Nat := 0;
    let q : Port := upPort;
    let l : List Byte := withFcs (zeros 63);
    let s : State := (fun (z : State) => ({ z with ports := { z.ports with tab := mput z.ports.tab p q } })) (up);
    ⟨p, l, q, s, by decide +kernel +zetaReduce, by decide +kernel +zetaReduce, by decide +kernel +zetaReduce, by decide +kernel +zetaReduce, withFcs_ok _⟩),
   (let p : Nat := 0;
    let q : Port := upPort;
    let s : State := (fun (z : State) => ({ z with bed := { z.bed with geoRole := 2 } })) ((fun (z : State) => ({ z with ports := { z.ports with tab := mput z.ports.tab p q } })) (up.mapBed fun b => { b with geoRole := 2 }));
    ⟨p, q, s, by decide +kernel +zetaReduce⟩),
   (let q : Port := upPort;
    let l : List Byte := zeros 64;
    let f : Bool := true;
    let x : Queue := Queue.init;
    let p : Nat := 0;
    let s : State := (fun (z : State) => ({ z with ports := { z.ports with tab := mput z.ports.tab p q } })) (up.mapBuf fun zz => { zz with profiles := [(0, { Profile.init with spill := false, qmin := 16, qmax := 64 })] });
    ⟨p, l, f, q, x, s, by decide +kernel +zetaReduce⟩),
   (let q : Port := upPort;
    let l : List Byte := withFcs (zeros 64);
    let f : Bool := false;
    let x : Queue := Queue.init;
    let p : Nat := 0;
    let s : State := (fun (z : State) => ({ z with ports := { z.ports with tab := mput z.ports.tab p q } })) (up.mapBuf fun zz => { zz with profiles := [(0, { Profile.init with spill := false, qmin := 16, qmax := 0 })] });
    ⟨p, l, f, q, x, s, by decide +kernel +zetaReduce, by decide +kernel +zetaReduce, by decide +kernel +zetaReduce, by decide +kernel +zetaReduce, by decide +kernel +zetaReduce, (by show rxRow (withFcs (zeros 64)) _ (false || !fcsOk (withFcs (zeros 64))) = 0; rw [withFcs_ok]; decide +kernel +zetaReduce), by decide +kernel +zetaReduce⟩),
   (let n : Nat := 0;
    let s : State := (fun (z : State) => (modLink n (fun y => { y with up := false }) z)) (modLink 0 (fun l => { l with up := false }) up);
    ⟨n, s, by decide +kernel +zetaReduce⟩),
   (let x := ({ Queue.init with pkts := [{ Pkt.init with bytes := zeros 64, header := zeros 16, res := 1 }] } : Queue);
    let s : State := modLink 0 (fun l => { l with limit := [(0, 8)] }) (up.mapBuf fun b => { b with iq := [(0, x)] });
    let d : Map Nat := ((ingressPick s 0 [7, 6, 5, 4, 3, 2, 1, 0]).map (·.2.2)).getD [];
    let n : Nat := 0;
    let p : Nat := 0;
    let c : Nat := 0;
    ⟨n, p, c, d, s, by decide +kernel +zetaReduce⟩),
   (let pk := ({ Pkt.init with bytes := zeros 64, header := zeros 16, res := 1 } : Pkt);
    let x := ({ Queue.init with pkts := [pk] } : Queue);
    let s : State := modLink 0 (fun l => { l with limit := [(0, 8)] }) (up.mapBuf fun b => { b with iq := [(0, x)] });
    let k : Pkt := pk;
    let d : Map Nat := ((ingressPick s 0 [7, 6, 5, 4, 3, 2, 1, 0]).map (·.2.2)).getD [];
    let n : Nat := 0;
    let p : Nat := 0;
    let c : Nat := 0;
    let f : List Found := [];
    ⟨n, p, c, d, k, f, s, by decide +kernel +zetaReduce⟩),
   (let p : Nat := 0;
    let c : Nat := 0;
    let pk := ({ Pkt.init with bytes := zeros 64, header := zeros 16, res := 1 } : Pkt);
    let x : Queue := ({ Queue.init with pkts := [pk] } : Queue);
    let s : State := (fun (z : State) => ({ z with buf := { z.buf with iq := mput z.buf.iq (8 * p + c) x } })) ((fun (z : State) => ({ z with gar := { z.gar with mode := 2 } })) (modLink 0 (fun l => { l with limit := [(0, 8)] }) ((up.mapBuf fun b => { b with iq := [(0, x)] }).mapGar fun g => { g with mode := 2 })));
    let k : Pkt := pk;
    let d : Map Nat := ((ingressPick s 0 [7, 6, 5, 4, 3, 2, 1, 0]).map (·.2.2)).getD [];
    let n : Nat := 0;
    let f : List Found := [];
    ⟨n, p, c, d, k, x, f, s, by decide +kernel +zetaReduce⟩),
   (let p : Nat := 0;
    let c : Nat := 0;
    let pk := ({ Pkt.init with bytes := zeros 64, header := zeros 16, res := 1, poison := true } : Pkt);
    let x : Queue := ({ Queue.init with pkts := [pk] } : Queue);
    let s : State := (fun (z : State) => ({ z with buf := { z.buf with iq := mput z.buf.iq (8 * p + c) x } })) (modLink 0 (fun l => { l with limit := [(0, 8)] }) (up.mapBuf fun b => { b with iq := [(0, x)] }));
    let k : Pkt := pk;
    let d : Map Nat := ((ingressPick s 0 [7, 6, 5, 4, 3, 2, 1, 0]).map (·.2.2)).getD [];
    let n : Nat := 0;
    let f : List Found := [];
    ⟨n, p, c, d, k, x, f, s, by decide +kernel +zetaReduce⟩),
   (let p : Nat := 0;
    let c : Nat := 0;
    let pk := ({ Pkt.init with bytes := zeros 64, header := zeros 16, res := 1 } : Pkt);
    let f : List Found := [{ region := 0, unit := 0, flips := 3, slip := 0 }];
    let x : Queue := ({ Queue.init with pkts := [pk] } : Queue);
    let s : State := (fun (z : State) => ({ z with buf := { z.buf with iq := mput z.buf.iq (8 * p + c) x } })) (modLink 0 (fun l => { l with limit := [(0, 8)] }) (up.mapBuf fun b => { b with iq := [(0, x)] }));
    let k : Pkt := pk;
    let d : Map Nat := ((ingressPick s 0 [7, 6, 5, 4, 3, 2, 1, 0]).map (·.2.2)).getD [];
    let n : Nat := 0;
    ⟨n, p, c, d, k, x, f, s, by decide +kernel +zetaReduce⟩),
   (let x : Queue := Queue.init;
    let s : State := up;
    let eg : Bool := false;
    let q : Nat := 0;
    ⟨eg, q, x, s, by decide +kernel +zetaReduce⟩),
   (let x : Queue := ({ Queue.init with placed := 2, pages := [{ Page.init with count := 2, opened := true }], pkts := [{ Pkt.init with bytes := zeros 300, spill := true, cells := [.staged, .staged] }] } : Queue);
    let r : Nat × Nat := (0, 2);
    let s : State := up.mapBuf fun b => { b with iq := [(0, x)] };
    let eg : Bool := false;
    let q : Nat := 0;
    ⟨eg, q, x, r, s, by decide +kernel +zetaReduce⟩),
   (let q : Nat := 9;
    let s : State := up;
    let eg : Bool := false;
    ⟨eg, q, s, by decide +kernel +zetaReduce⟩),
   (let x : Queue := ({ Queue.init with placed := 2, pages := [{ Page.init with count := 2, opened := true }], pkts := [{ Pkt.init with bytes := zeros 300, spill := true, cells := [.requested, .requested] }] } : Queue);
    let s : State := up.mapBuf fun b => { b with iq := [(0, x)] };
    let eg : Bool := false;
    let q : Nat := 0;
    ⟨eg, q, x, s, by decide +kernel +zetaReduce⟩)⟩

/-- A state and operands that meet the hypotheses of each clause of `Obligations.EgressRows`. -/
theorem witness_EgressRows :
    (∃ (p : Nat) (s : State), (portSends s p = false ∨ mhas s.sched.chosen p = true)) ∧
    (∃ (p : Nat) (c : Nat) (b : Bool) (path : List (Nat × Bool)) (x : Queue) (k : Pkt) (s : State), portSends s p = true ∧ mhas s.sched.chosen p = false ∧ (portD s p).loopback ≠ 3 ∧ choosePath s 4 p = path ∧ path.getLast? = some (c, b) ∧ queue? s true (numberOf c) = some x ∧ x.head? = some k ∧ headReason s p k.bytes.length = none) ∧
    (∃ (p : Nat) (c : Nat) (r : Nat) (b : Bool) (path : List (Nat × Bool)) (x : Queue) (k : Pkt) (s : State), portSends s p = true ∧ mhas s.sched.chosen p = false ∧ (portD s p).loopback ≠ 3 ∧ choosePath s 4 p = path ∧ path.getLast? = some (c, b) ∧ queue? s true (numberOf c) = some x ∧ x.head? = some k ∧ headReason s p k.bytes.length = some r ∧ eqPort s (numberOf c) = p) ∧
    (∃ (q : Nat) (s : State), queue? s true q = none) ∧
    (∃ (q : Nat) (r : Nat) (x : Queue) (k : Pkt) (s : State), queue? s true q = some x ∧ x.pkts.head? = some k ∧ headReason s (eqPort s q) k.bytes.length = some r) ∧
    (∃ (q : Nat) (f : List Found) (x : Queue) (k : Pkt) (s : State), queue? s true q = some x ∧ x.pkts.head? = some k ∧ headReason s (eqPort s q) k.bytes.length = none ∧ k.poison = false ∧ anyBad s (packetFound s k f) = false) ∧
    (∃ (q : Nat) (f : List Found) (x : Queue) (k : Pkt) (s : State), queue? s true q = some x ∧ x.head? = some k ∧ headReason s (eqPort s q) k.bytes.length = none ∧ (k.poison = true ∨ anyBad s (packetFound s k f) = true) ∧ portSends s (eqPort s q) = true) ∧
    (∃ (q : Nat) (f : List Found) (x : Queue) (k : Pkt) (s : State), queue? s true q = some x ∧ x.head? = some k ∧ headReason s (eqPort s q) k.bytes.length = none ∧ anyBad s (packetFound s k f) = true ∧ portSends s (eqPort s q) = true) ∧
    (∃ (p : Nat) (s : State), mfind s.sched.chosen p = none) ∧
    (∃ (p : Nat) (f : List Found) (h : Chosen) (x : Queue) (k : Pkt) (s : State), mfind s.sched.chosen p = some h ∧ queue? s true h.eq = some x ∧ x.head? = some k ∧ headReason s p k.bytes.length = none ∧ portSends s p = true ∧ k.poison = false ∧ anyBad s (packetFound s k f) = false) ∧
    (∃ (h : List Byte), hdrAction h = 0) ∧
    (∃ (h : List Byte) (s : State), hdrAction h = 2 ∧ s.tim.running = true ∧ s.tim.caps.length < 4096) ∧
    (∃ (p : Nat) (f : List Found) (h : Chosen) (x : Queue) (k : Pkt) (s : State), s.sched.chosen = [(p, h)] ∧ queue? s true h.eq = some x ∧ x.head? = some k ∧ headReason s p k.bytes.length = none ∧ portSends s p = true ∧ (k.poison = true ∨ anyBad s (packetFound s k f) = true) ∧ eqPort s h.eq = p) ∧
    (∃ (k : Nat) (n : Node) (s : State), node? s k = some n) :=
  ⟨(let s : State := up.mapPorts fun b => { b with tab := [(0, Port.init)] };
    let p : Nat := 0;
    ⟨p, s, by decide +kernel +zetaReduce⟩),
   (let p : Nat := 0;
    let k : Pkt := ({ Pkt.init with bytes := zeros 68, header := zeros 16, res := 1 } : Pkt);
    let x : Queue := ({ Queue.init with pkts := [k] } : Queue);
    let c : Nat := 0x40000000;
    let b : Bool := false;
    let s : State := (fun (z : State) => ({ z with buf := { z.buf with eq := mput z.buf.eq (numberOf c) x } })) ((fun (z : State) => ({ z with sched := { z.sched with chosen := mdel z.sched.chosen p } })) (up.mapBuf fun b => { b with eq := [(0, x)] }));
    let path : List (Nat × Bool) := choosePath s 4 0;
    ⟨p, c, b, path, x, k, s, by decide +kernel +zetaReduce⟩),
   (let p : Nat := 0;
    let k : Pkt := ({ Pkt.init with bytes := zeros 38, header := zeros 16, res := 1 } : Pkt);
    let x : Queue := ({ Queue.init with pkts := [k] } : Queue);
    let c : Nat := 0x40000000;
    let b : Bool := false;
    let s : State := (fun (z : State) => ({ z with buf := { z.buf with eq := mput z.buf.eq (numberOf c) x } })) ((fun (z : State) => ({ z with sched := { z.sched with chosen := mdel z.sched.chosen p } })) (up.mapBuf fun b => { b with eq := [(0, x)] }));
    let path : List (Nat × Bool) := choosePath s 4 0;
    let r : Nat := 30;
    ⟨p, c, r, b, path, x, k, s, by decide +kernel +zetaReduce⟩),
   (let q : Nat := 9;
    let s : State := up;
    ⟨q, s, by decide +kernel +zetaReduce⟩),
   (let q : Nat := 0;
    let k : Pkt := ({ Pkt.init with bytes := zeros 38, header := zeros 16, res := 1 } : Pkt);
    let x : Queue := ({ Queue.init with pkts := [k] } : Queue);
    let s : State := (fun (z : State) => ({ z with buf := { z.buf with eq := mput z.buf.eq q x } })) (up.mapBuf fun b => { b with eq := [(0, x)] });
    let r : Nat := 30;
    ⟨q, r, x, k, s, by decide +kernel +zetaReduce⟩),
   (let q : Nat := 0;
    let k : Pkt := ({ Pkt.init with bytes := zeros 68, header := zeros 16, res := 1 } : Pkt);
    let x : Queue := ({ Queue.init with pkts := [k] } : Queue);
    let s : State := (fun (z : State) => ({ z with buf := { z.buf with eq := mput z.buf.eq q x } })) (up.mapBuf fun b => { b with eq := [(0, x)] });
    let f : List Found := [];
    ⟨q, f, x, k, s, by decide +kernel +zetaReduce⟩),
   (let q : Nat := 0;
    let k : Pkt := ({ Pkt.init with bytes := zeros 68, header := zeros 16, res := 1, poison := true } : Pkt);
    let x : Queue := ({ Queue.init with pkts := [k] } : Queue);
    let s : State := (fun (z : State) => ({ z with buf := { z.buf with eq := mput z.buf.eq q x } })) (up.mapBuf fun b => { b with eq := [(0, x)] });
    let f : List Found := [];
    ⟨q, f, x, k, s, by decide +kernel +zetaReduce⟩),
   (let q : Nat := 0;
    let k : Pkt := ({ Pkt.init with bytes := zeros 68, header := zeros 16, res := 1 } : Pkt);
    let x : Queue := ({ Queue.init with pkts := [k] } : Queue);
    let f : List Found := [{ region := 0, unit := 0, flips := 3, slip := 0 }];
    let s : State := (fun (z : State) => ({ z with buf := { z.buf with eq := mput z.buf.eq q x } })) (up.mapBuf fun b => { b with eq := [(0, x)] });
    ⟨q, f, x, k, s, by decide +kernel +zetaReduce⟩),
   (let p : Nat := 0;
    let s : State := (fun (z : State) => ({ z with sched := { z.sched with chosen := mdel z.sched.chosen p } })) (up);
    ⟨p, s, by decide +kernel +zetaReduce⟩),
   (let p : Nat := 0;
    let k : Pkt := ({ Pkt.init with bytes := zeros 68, header := zeros 16, res := 1 } : Pkt);
    let x : Queue := ({ Queue.init with pkts := [k] } : Queue);
    let s0 := up.mapBuf fun b => { b with eq := [(0, x)] };
    let h : Chosen := ({ Chosen.init with eq := 0, path := choosePath s0 4 0 } : Chosen);
    let s : State := (fun (z : State) => ({ z with buf := { z.buf with eq := mput z.buf.eq h.eq x } })) ((fun (z : State) => ({ z with sched := { z.sched with chosen := mput z.sched.chosen p h } })) (s0.mapSched fun c => { c with chosen := [(0, h)] }));
    let f : List Found := [];
    ⟨p, f, h, x, k, s, by decide +kernel +zetaReduce⟩),
   (let h : List Byte := [];
    ⟨h, by decide +kernel +zetaReduce⟩),
   (let h : List Byte := [0, 0x10];
    let s : State := (fun (z : State) => ({ z with tim := { z.tim with running := true } })) (up);
    ⟨h, s, by decide +kernel +zetaReduce⟩),
   (let k : Pkt := ({ Pkt.init with bytes := zeros 68, header := zeros 16, res := 1, poison := true } : Pkt);
    let x : Queue := ({ Queue.init with pkts := [k] } : Queue);
    let s0 := up.mapBuf fun b => { b with eq := [(0, x)] };
    let h : Chosen := ({ Chosen.init with eq := 0, path := choosePath s0 4 0 } : Chosen);
    let s : State := (fun (z : State) => ({ z with buf := { z.buf with eq := mput z.buf.eq h.eq x } })) (s0.mapSched fun c => { c with chosen := [(0, h)] });
    let p : Nat := 0;
    let f : List Found := [];
    ⟨p, f, h, x, k, s, by decide +kernel +zetaReduce⟩),
   (let k : Nat := 0x40000000;
    let n : Node := Node.init;
    let s : State := (fun (z : State) => ({ z with sched := { z.sched with nodes := mput z.sched.nodes k n } })) (up);
    ⟨k, n, s, by decide +kernel +zetaReduce⟩)⟩

/-- A state and operands that meet the hypotheses of each clause of `Obligations.TrafficManagerSettings`. -/
theorem witness_TrafficManagerSettings :
    (∃ (id : Nat) (c : Cmd) (s : State), Begins s id 0x40 c ∧ bufferSetPre c s = none ∧ isSecondary s = false ∧ c.byte 32 = 1 ∧ s.ports.tab = [] ∧ shareSum s ≤ s.buf.egrLanding * 1024 ∧ qminFits (profile s) s.buf.iq s.buf.eq (c.inl 33 1) s.buf.egrMinPool = true) ∧
    (∃ (id : Nat) (c : Cmd) (s : State), Begins s id 0x40 c ∧ bufferSetPre c s = none ∧ isSecondary s = false ∧ c.byte 32 = 8 ∧ shareSum s ≤ s.buf.egrLanding * 1024 ∧ qminFits (profile s) s.buf.iq s.buf.eq s.buf.ingReserve s.buf.egrMinPool = true) ∧
    (∃ (id : Nat) (c : Cmd) (s : State), Begins s id 0x40 c ∧ bufferSetPre c s = none ∧ isSecondary s = true) ∧
    (∃ (id : Nat) (c : Cmd) (s : State), Begins s id 0x40 c ∧ bufferSetPre c s = none ∧ isSecondary s = false ∧ c.byte 32 = 2 ∧ s.ports.tab ≠ []) ∧
    (∃ (id : Nat) (c : Cmd) (s : State), Begins s id 0x41 c ∧ profileSetPre c s = none ∧ isSecondary s = false ∧ c.byte 32 = 2 ∧ qminFits (profile s) s.buf.iq s.buf.eq s.buf.ingReserve s.buf.egrMinPool = true) ∧
    (∃ (id : Nat) (c : Cmd) (s : State), Begins s id 0x41 c ∧ profileSetPre c s = none ∧ isSecondary s = false ∧ c.byte 32 = 1 ∧ qminFits (fun n => if n = c.target then { profile s c.target with qmin := c.inl 34 2 } else profile s n) s.buf.iq s.buf.eq s.buf.ingReserve s.buf.egrMinPool = false) ∧
    (∃ (id : Nat) (c : Cmd) (o : Wred) (s : State), Begins s id 0x42 c ∧ wredSetPre c s = none ∧ isSecondary s = false ∧ c.byte 32 = 3 ∧ o = mget s.buf.wred c.target Wred.init) ∧
    (∃ (id : Nat) (c : Cmd) (s : State), Begins s id 0x43 c ∧ classifySetPre c s = none ∧ isSecondary s = false ∧ c.byte 32 = 1) ∧
    (∃ (id : Nat) (l : List Byte) (c : Cmd) (s : State), Begins s id 0x43 c ∧ classifySetPre c s = none ∧ isSecondary s = false ∧ c.byte 32 = 4 ∧ dmaAllowed s c.indAddr 64 = true ∧ l.length = 64 ∧ (∀ b, b ∈ l → b.toNat ≤ 31 ∧ b.toNat % 4 ≠ 3)) ∧
    (∃ (id : Nat) (l : List Byte) (c : Cmd) (s : State), Begins s id 0x43 c ∧ classifySetPre c s = none ∧ isSecondary s = false ∧ c.byte 32 = 4 ∧ dmaAllowed s c.indAddr 64 = true ∧ l.length = 64 ∧ (∃ b, b ∈ l ∧ b.toNat % 4 = 3)) ∧
    (∃ (id : Nat) (c : Cmd) (q : Queue) (s : State), Begins s id 0x44 c ∧ iqSetPre c s = none ∧ isSecondary s = false ∧ queue? s false c.target = some q ∧ qminFits (profile s) (mput s.buf.iq c.target { q with prof := c.inl 32 2 }) s.buf.eq s.buf.ingReserve s.buf.egrMinPool = true) ∧
    (∃ (id : Nat) (c : Cmd) (s : State), Begins s id 0x45 c ∧ memorySetPre c s = none ∧ isSecondary s = false ∧ c.inl 32 4 = 2 ∧ s.mem.part = s.mem.partNext) ∧
    (∃ (id : Nat) (c : Cmd) (s : State), Begins s id 0x45 c ∧ memorySetPre c s = none ∧ isSecondary s = false ∧ c.inl 32 4 = 1 ∧ s.ports.tab = [] ∧ (many s.tbl.tables fun _ t => t.hbm) = false ∧ hbmReady s = true) ∧
    (∃ (id : Nat) (c : Cmd) (s : State), Begins s id 0x45 c ∧ memorySetPre c s = none ∧ isSecondary s = false ∧ c.inl 32 4 = 1 ∧ s.ports.tab ≠ []) ∧
    (∃ (id : Nat) (c : Cmd) (s : State), Begins s id 0x46 c ∧ c.target = 0x100 ∧ blockBad c 0x100 64 = false ∧ dmaAllowed s c.indAddr 64 = true) ∧
    (∃ (id : Nat) (c : Cmd) (s : State), Begins s id 0x46 c ∧ c.target < 256 ∧ 72 ≤ c.indLen ∧ c.byte 32 ≤ 1 ∧ c.inlZero 33 30 = true ∧ c.byte 63 = 0 ∧ dmaAllowed s c.indAddr 72 = true) ∧
    (∃ (id : Nat) (c : Cmd) (q : Queue) (s : State), Begins s id 0x47 c ∧ c.target < 131072 ∧ 64 ≤ c.indLen ∧ c.inlZero 32 32 = true ∧ queue? s true c.target = some q ∧ dmaAllowed s c.indAddr 64 = true) ∧
    (∃ (id : Nat) (c : Cmd) (s : State), Begins s id 0x47 c ∧ c.target < 131072 ∧ 64 ≤ c.indLen ∧ c.inlZero 32 32 = true ∧ queue? s true c.target = none) ∧
    (∃ (id : Nat) (c : Cmd) (f : NodeFields) (s : State), Begins s id 0x50 c ∧ f = nodeFields (inlBytes c) ∧ nodeCreatePre c s = none ∧ isSecondary s = false ∧ tierOf c.target ≠ 4 ∧ qminFits (profile s) s.buf.iq s.buf.eq s.buf.ingReserve s.buf.egrMinPool = true) ∧
    (∃ (id : Nat) (c : Cmd) (s : State), Begins s id 0x51 c ∧ nodeDeletePre c s = none ∧ isSecondary s = false ∧ childrenOf s c.target = [] ∧ s.sched.chosen = [] ∧ tierOf c.target ≠ 4) ∧
    (∃ (id : Nat) (c : Cmd) (f : NodeFields) (s : State), Begins s id 0x52 c ∧ f = nodeFields (inlBytes c) ∧ nodeSetPre c s = none ∧ isSecondary s = false ∧ sel f.valid 0 = false ∧ sel f.valid 8 = false ∧ qminFits (profile s) s.buf.iq s.buf.eq s.buf.ingReserve s.buf.egrMinPool = true) ∧
    (∃ (id : Nat) (l : List Byte) (c : Cmd) (s : State) (u : State), Begins s id 0x53 c ∧ nodeBatchPre c s = none ∧ isSecondary s = false ∧ dmaAllowed s c.indAddr (40 * c.inl 32 2) = true ∧ l.length = 40 * c.inl 32 2 ∧ batchRun 0 [] ((List.range (c.inl 32 2)).map fun i => slice l (40 * i) 40) (keepData id (.data l) (beginCmd id c s)) = .inl u) ∧
    (∃ (id : Nat) (c : Cmd) (s : State), Begins s id 0x54 c ∧ tierOf c.target ≠ 0 ∧ nodeTargetBad c.target = false ∧ noFields c = true ∧ (node? s c.target).isSome = true) :=
  ⟨(let c : Cmd := cmd (0x40) (0) (0) (0) (4096) [(32, 1, 1), (33, 1, 0x80)];
    let id : Nat := 7;
    let s : State := withCmd c ((fun (z : State) => ({ z with ports := { z.ports with tab := [] } })) (up));
    ⟨id, c, s, by unfold Begins; decide +kernel +zetaReduce⟩),
   (let c : Cmd := cmd (0x40) (0) (0) (0) (4096) [(32, 1, 8)];
    let id : Nat := 7;
    let s : State := withCmd c (up);
    ⟨id, c, s, by unfold Begins; decide +kernel +zetaReduce⟩),
   (let c : Cmd := cmd (0x40) (0) (0) (0) (4096) [];
    let id : Nat := 7;
    let s : State := withCmd c ((fun (z : State) => ({ z with bed := { z.bed with geoRole := 2 } })) (up));
    ⟨id, c, s, by unfold Begins; decide +kernel +zetaReduce⟩),
   (let c : Cmd := cmd (0x40) (0) (0) (0) (4096) [(32, 1, 2), (34, 1, 0x10)];
    let id : Nat := 7;
    let s : State := withCmd c (up);
    ⟨id, c, s, by unfold Begins; decide +kernel +zetaReduce⟩),
   (let c : Cmd := cmd (0x41) (0) (0) (0) (4096) [(32, 1, 2), (36, 4, 1)];
    let id : Nat := 7;
    let s : State := withCmd c (up);
    ⟨id, c, s, by unfold Begins; decide +kernel +zetaReduce⟩),
   (let c : Cmd := cmd (0x41) (0) (0) (0) (4096) [(32, 1, 1), (34, 2, 65535)];
    let id : Nat := 7;
    let s : State := withCmd c (up.mapBuf fun b => { b with ingReserve := 0 });
    ⟨id, c, s, by unfold Begins; decide +kernel +zetaReduce⟩),
   (let c : Cmd := cmd (0x42) (0) (0) (0) (4096) [(32, 1, 3), (33, 1, 15), (34, 1, 1), (35, 1, 2)];
    let id : Nat := 7;
    let s : State := withCmd c (up);
    let o : Wred := Wred.init;
    ⟨id, c, o, s, by unfold Begins; decide +kernel +zetaReduce⟩),
   (let c : Cmd := cmd (0x43) (0) (0) (0) (4096) [(32, 1, 1)];
    let id : Nat := 7;
    let s : State := withCmd c (up);
    ⟨id, c, s, by unfold Begins; decide +kernel +zetaReduce⟩),
   (let l : List Byte := zeros 64;
    let c : Cmd := cmd (0x43) (0) (0) (64) (4096) [(32, 1, 4)];
    let id : Nat := 7;
    let s : State := withCmd c (up);
    ⟨id, l, c, s, by unfold Begins; decide +kernel +zetaReduce⟩),
   (let l : List Byte := [3] ++ zeros 63;
    let c : Cmd := cmd (0x43) (0) (0) (64) (4096) [(32, 1, 4)];
    let id : Nat := 7;
    let s : State := withCmd c (up);
    ⟨id, l, c, s, by unfold Begins; decide +kernel +zetaReduce⟩),
   (let q : Queue := Queue.init;
    let c : Cmd := cmd (0x44) (0) (0) (0) (4096) [];
    let id : Nat := 7;
    let s : State := withCmd c ((fun (z : State) => ({ z with buf := { z.buf with iq := mput z.buf.iq c.target q } })) (up));
    ⟨id, c, q, s, by unfold Begins; decide +kernel +zetaReduce⟩),
   (let c : Cmd := cmd (0x45) (0) (0) (0) (4096) [(32, 4, 2), (37, 1, 1)];
    let id : Nat := 7;
    let s : State := withCmd c (up);
    ⟨id, c, s, by unfold Begins; decide +kernel +zetaReduce⟩),
   (let c : Cmd := cmd (0x45) (0) (0) (0) (4096) [(32, 4, 1)];
    let id : Nat := 7;
    let s : State := withCmd c ((fun (z : State) => ({ z with ports := { z.ports with tab := [] } })) (up));
    ⟨id, c, s, by unfold Begins; decide +kernel +zetaReduce⟩),
   (let c : Cmd := cmd (0x45) (0) (0) (0) (4096) [(32, 4, 1)];
    let id : Nat := 7;
    let s : State := withCmd c (up);
    ⟨id, c, s, by unfold Begins; decide +kernel +zetaReduce⟩),
   (let c : Cmd := cmd (0x46) (0) (0x100) (64) (4096) [];
    let id : Nat := 7;
    let s : State := withCmd c (up);
    ⟨id, c, s, by unfold Begins; decide +kernel +zetaReduce⟩),
   (let c : Cmd := cmd (0x46) (0) (0) (72) (4096) [(63, 1, 0)];
    let id : Nat := 7;
    let s : State := withCmd c (up);
    ⟨id, c, s, by unfold Begins; decide +kernel +zetaReduce⟩),
   (let q : Queue := Queue.init;
    let c : Cmd := cmd (0x47) (0) (0) (64) (4096) [];
    let id : Nat := 7;
    let s : State := withCmd c ((fun (z : State) => ({ z with buf := { z.buf with eq := mput z.buf.eq c.target q } })) (up));
    ⟨id, c, q, s, by unfold Begins; decide +kernel +zetaReduce⟩),
   (let c : Cmd := cmd (0x47) (0) (131071) (64) (4096) [];
    let id : Nat := 7;
    let s : State := withCmd c (up);
    ⟨id, c, s, by unfold Begins; decide +kernel +zetaReduce⟩),
   (let c : Cmd := cmd (0x50) (0) (0x10000001) (0) (4096) [(40, 2, 1), (52, 4, 0xA0), (56, 4, 0xA0)];
    let f : NodeFields := nodeFields (inlBytes c);
    let id : Nat := 7;
    let s : State := withCmd c (up);
    ⟨id, c, f, s, by unfold Begins; decide +kernel +zetaReduce⟩),
   (let c : Cmd := cmd (0x51) (0) (0x10000000) (0) (4096) [];
    let id : Nat := 7;
    let s : State := withCmd c ((fun (z : State) => ({ z with sched := { z.sched with chosen := [] } })) (up.mapSched fun x => { x with nodes := [(0x10000000, Node.init)] }));
    ⟨id, c, s, by unfold Begins; decide +kernel +zetaReduce⟩),
   (let c : Cmd := cmd (0x52) (0) (0x10000000) (0) (4096) [(32, 4, 4), (40, 2, 7)];
    let f : NodeFields := nodeFields (inlBytes c);
    let id : Nat := 7;
    let s : State := withCmd c (up);
    ⟨id, c, f, s, by unfold Begins; decide +kernel +zetaReduce⟩),
   (let l : List Byte := leBytes 4 0x10000000 ++ zeros 4 ++ leBytes 4 4 ++ zeros 4 ++ [7] ++ zeros 23;
    let c : Cmd := cmd (0x53) (0) (0) (40) (4096) [(32, 2, 1)];
    let id : Nat := 7;
    let s : State := withCmd c (up);
    let u : State := (match batchRun 0 [] ((List.range (c.inl 32 2)).map fun i => slice l (40 * i) 40) (keepData 7 (.data l) (beginCmd 7 c s)) with | .inl u => u | .inr _ => s);
    ⟨id, l, c, s, u, by unfold Begins; decide +kernel +zetaReduce⟩),
   (let c : Cmd := cmd (0x54) (0) (0x40000000) (0) (4096) [];
    let id : Nat := 7;
    let s : State := withCmd c (up);
    ⟨id, c, s, by unfold Begins; decide +kernel +zetaReduce⟩)⟩

/-- A state and operands that meet the hypotheses of each clause of `Obligations.SchedulerNodeCommands`. -/
theorem witness_SchedulerNodeCommands :
    (∃ (id : Nat) (c : Cmd) (f : NodeFields) (s : State), Begins s id 0x50 c ∧ f = nodeFields (inlBytes c) ∧ nodeCreatePre c s = none ∧ isSecondary s = false ∧ tierOf c.target ≠ 4 ∧ qminFits (profile s) s.buf.iq s.buf.eq s.buf.ingReserve s.buf.egrMinPool = true) ∧
    (∃ (id : Nat) (c : Cmd) (f : NodeFields) (s : State), Begins s id 0x50 c ∧ f = nodeFields (inlBytes c) ∧ nodeCreatePre c s = none ∧ isSecondary s = false ∧ tierOf c.target = 4 ∧ qminFits (profile s) s.buf.iq (mput s.buf.eq (numberOf c.target) { Queue.init with prof := f.prof, emptyAt := s.now }) s.buf.ingReserve s.buf.egrMinPool = true) ∧
    (∃ (id : Nat) (c : Cmd) (f : NodeFields) (s : State), Begins s id 0x50 c ∧ f = nodeFields (inlBytes c) ∧ nodeTargetBad c.target = false ∧ c.indLen = 0 ∧ fieldsBad (tierOf c.target) 0x1FF f = false ∧ ratesBad f.cir f.pir = false ∧ f.prof = 0 ∧ (node? s c.target).isSome = true) ∧
    (∃ (id : Nat) (c : Cmd) (s : State), Begins s id 0x51 c ∧ nodeDeletePre c s = none ∧ isSecondary s = false ∧ childrenOf s c.target = [] ∧ s.sched.chosen = [] ∧ tierOf c.target ≠ 4) ∧
    (∃ (id : Nat) (c : Cmd) (s : State), Begins s id 0x51 c ∧ nodeDeletePre c s = none ∧ isSecondary s = false ∧ childrenOf s c.target = [] ∧ tierOf c.target = 4) ∧
    (∃ (id : Nat) (c : Cmd) (s : State), Begins s id 0x51 c ∧ nodeDeletePre c s = none ∧ isSecondary s = false ∧ childrenOf s c.target ≠ []) ∧
    (∃ (id : Nat) (c : Cmd) (f : NodeFields) (s : State), Begins s id 0x52 c ∧ f = nodeFields (inlBytes c) ∧ nodeSetPre c s = none ∧ isSecondary s = false ∧ sel f.valid 0 = false ∧ sel f.valid 8 = false ∧ qminFits (profile s) s.buf.iq s.buf.eq s.buf.ingReserve s.buf.egrMinPool = true) ∧
    (∃ (id : Nat) (l : List Byte) (c : Cmd) (s : State) (u : State), Begins s id 0x53 c ∧ nodeBatchPre c s = none ∧ isSecondary s = false ∧ dmaAllowed s c.indAddr (40 * c.inl 32 2) = true ∧ l.length = 40 * c.inl 32 2 ∧ batchRun 0 [] ((List.range (c.inl 32 2)).map fun i => slice l (40 * i) 40) (keepData id (.data l) (beginCmd id c s)) = .inl u) ∧
    (∃ (id : Nat) (i : Nat) (st : Status) (l : List Byte) (c : Cmd) (s : State), Begins s id 0x53 c ∧ nodeBatchPre c s = none ∧ isSecondary s = false ∧ dmaAllowed s c.indAddr (40 * c.inl 32 2) = true ∧ l.length = 40 * c.inl 32 2 ∧ batchRun 0 [] ((List.range (c.inl 32 2)).map fun i => slice l (40 * i) 40) (keepData id (.data l) (beginCmd id c s)) = .inr (i, st)) ∧
    (∃ (id : Nat) (c : Cmd) (n : Node) (s : State), Begins s id 0x54 c ∧ tierOf c.target ≠ 0 ∧ nodeTargetBad c.target = false ∧ noFields c = true ∧ (node? s c.target).isSome = true ∧ n = nodeNow s c.target) ∧
    (∃ (id : Nat) (c : Cmd) (s : State), Begins s id 0x54 c ∧ tierOf c.target ≠ 0 ∧ nodeTargetBad c.target = false ∧ noFields c = true ∧ node? s c.target = none) :=
  ⟨(let c : Cmd := cmd (0x50) (0) (0x10000001) (0) (4096) [(40, 2, 1), (52, 4, 0xA0), (56, 4, 0xA0)];
    let f : NodeFields := nodeFields (inlBytes c);
    let id : Nat := 7;
    let s : State := withCmd c (up);
    ⟨id, c, f, s, by unfold Begins; decide +kernel +zetaReduce⟩),
   (let c : Cmd := cmd (0x50) (0) (0x40000001) (0) (4096) [(40, 2, 1023), (52, 4, 0x40000), (56, 4, 0xA0)];
    let f : NodeFields := nodeFields (inlBytes c);
    let id : Nat := 7;
    let s : State := withCmd c (up);
    ⟨id, c, f, s, by unfold Begins; decide +kernel +zetaReduce⟩),
   (let c : Cmd := cmd (0x50) (0) (0x10000000) (0) (4096) [(40, 2, 1), (52, 4, 0xA0), (56, 4, 0xA0)];
    let f : NodeFields := nodeFields (inlBytes c);
    let id : Nat := 7;
    let s : State := withCmd c (up);
    ⟨id, c, f, s, by unfold Begins; decide +kernel +zetaReduce⟩),
   (let c : Cmd := cmd (0x51) (0) (0x10000000) (0) (4096) [];
    let id : Nat := 7;
    let s : State := withCmd c ((fun (z : State) => ({ z with sched := { z.sched with chosen := [] } })) (up.mapSched fun x => { x with nodes := [(0x10000000, Node.init)] }));
    ⟨id, c, s, by unfold Begins; decide +kernel +zetaReduce⟩),
   (let c : Cmd := cmd (0x51) (0) (0x40000000) (0) (4096) [];
    let id : Nat := 7;
    let s : State := withCmd c (up);
    ⟨id, c, s, by unfold Begins; decide +kernel +zetaReduce⟩),
   (let c : Cmd := cmd (0x51) (0) (0x10000000) (0) (4096) [];
    let id : Nat := 7;
    let s : State := withCmd c (up);
    ⟨id, c, s, by unfold Begins; decide +kernel +zetaReduce⟩),
   (let c : Cmd := cmd (0x52) (0) (0x10000000) (0) (4096) [(32, 4, 4), (40, 2, 7)];
    let f : NodeFields := nodeFields (inlBytes c);
    let id : Nat := 7;
    let s : State := withCmd c (up);
    ⟨id, c, f, s, by unfold Begins; decide +kernel +zetaReduce⟩),
   (let l : List Byte := leBytes 4 0x10000000 ++ zeros 4 ++ leBytes 4 4 ++ zeros 4 ++ [7] ++ zeros 23;
    let c : Cmd := cmd (0x53) (0) (0) (40) (4096) [(32, 2, 1)];
    let id : Nat := 7;
    let s : State := withCmd c (up);
    let u : State := (match batchRun 0 [] ((List.range (c.inl 32 2)).map fun i => slice l (40 * i) 40) (keepData 7 (.data l) (beginCmd 7 c s)) with | .inl u => u | .inr _ => s);
    ⟨id, l, c, s, u, by unfold Begins; decide +kernel +zetaReduce⟩),
   (let l : List Byte := leBytes 4 0x10000009 ++ zeros 4 ++ leBytes 4 4 ++ zeros 4 ++ [7] ++ zeros 23;
    let st : Status := .objectNotFound;
    let i : Nat := 0;
    let c : Cmd := cmd (0x53) (0) (0) (40) (4096) [(32, 2, 1)];
    let id : Nat := 7;
    let s : State := withCmd c (up);
    ⟨id, i, st, l, c, s, by unfold Begins; decide +kernel +zetaReduce⟩),
   (let c : Cmd := cmd (0x54) (0) (0x40000000) (0) (4096) [];
    let id : Nat := 7;
    let s : State := withCmd c (up);
    let n : Node := nodeNow s c.target;
    ⟨id, c, n, s, by unfold Begins; decide +kernel +zetaReduce⟩),
   (let c : Cmd := cmd (0x54) (0) (0x40000001) (0) (4096) [];
    let id : Nat := 7;
    let s : State := withCmd c (up);
    ⟨id, c, s, by unfold Begins; decide +kernel +zetaReduce⟩)⟩

/-- A state and operands that meet the hypotheses of each clause of `Obligations.LookupAndEpochRows`. -/
theorem witness_LookupAndEpochRows :
    (∃ (s : State), s.gar.rrLink ≤ 64) ∧
    (∃ (n : Nat) (tag : Nat) (r : List Nat) (x : Lookup) (s : State), (linkTurns s.gar.rrLink).find? (fun k => !(inputQueue s k).isEmpty) = some n ∧ n ≠ diagTurn ∧ (link s n).inq = tag :: r ∧ mfind (link s n).lookups tag = some x ∧ x.old = none) ∧
    (∃ (id : Nat) (r : List Nat) (x : Lookup) (s : State), (linkTurns s.gar.rrLink).find? (fun k => !(inputQueue s k).isEmpty) = some diagTurn ∧ s.tbl.diagQueue = id :: r ∧ mfind s.tbl.diag id = some x ∧ x.old = none) ∧
    (∃ (n : Nat) (k : Nat) (s : State), k ≤ 64 ∧ s.gar.rrLink < k ∧ inputQueue s k ≠ [] ∧ (linkTurns s.gar.rrLink).find? (fun k => !(inputQueue s k).isEmpty) = some n) ∧
    (∃ (t : Table) (vrf : Nat) (key : List Byte) (e : Entry), bestMatch t vrf key = some e) ∧
    (∃ (t : Table) (vrf : Nat) (key : List Byte), bestMatch t vrf key = none) ∧
    (∃ (n : Nat) (tag : Nat) (s : State), lookupAt s n tag = none) ∧
    (∃ (n : Nat) (tag : Nat) (f : List Found) (x : Lookup) (b : List Byte) (tb : Table) (s : State), n ≠ diagTurn ∧ mfind (link s n).lookups tag = some x ∧ x.taken = some b ∧ tag < 1024 ∧ byteAt b 1 ≤ 3 ∧ table? s x.table = some tb ∧ anyBad s (wordsFound s x.words f) = false) ∧
    (∃ (n : Nat) (tag : Nat) (x : Lookup) (b : List Byte) (s : State), n ≠ diagTurn ∧ mfind (link s n).lookups tag = some x ∧ x.taken = some b ∧ 1024 ≤ tag) ∧
    (∃ (id : Nat) (f : List Found) (x : Lookup) (b : List Byte) (c : Cmd) (s : State), mfind s.tbl.diag id = some x ∧ x.taken = some b ∧ mfind s.fl.cmds id = some c ∧ anyBad s (wordsFound s x.words f) = false) ∧
    (∃ (n : Nat) (tag : Nat) (x : Lookup) (b : List Byte) (tb : Table) (f : Found) (s : State), n ≠ diagTurn ∧ mfind (link s n).lookups tag = some x ∧ x.taken = some b ∧ x.old = none ∧ table? s (byteAt x.req 4) = some tb ∧ tb.kind ≠ 2 ∧ tag < 1024 ∧ byteAt b 1 ≤ 1 ∧ unitBad s f = true) ∧
    (∃ (s : State), s.bed.boActive = true) ∧
    (∃ (s : State), isSecondary s = false ∧ s.tbl.commits = []) ∧
    (∃ (s : State), isSecondary s = true ∧ s.geo.epochIn = none) ∧
    (∃ (c : Commit) (r : List Commit) (s : State), s.bed.boActive = false ∧ isSecondary s = false ∧ s.tbl.commits = c :: r) :=
  ⟨(let s : State := up;
    ⟨s, by decide +kernel +zetaReduce⟩),
   (let n : Nat := 0;
    let tag : Nat := 5;
    let r : List Nat := [6];
    let x : Lookup := ({ Lookup.init with req := [0x21, 0, 0, 5, 1, 0, 0, 0] ++ zeros 24 } : Lookup);
    let s : State := (fun (z : State) => (modLink n (fun y => { y with inq := tag :: r }) z)) (modLink 0 (fun l => { l with inq := [5, 6], lookups := [(5, x)] }) up);
    ⟨n, tag, r, x, s, by decide +kernel +zetaReduce⟩),
   (let id : Nat := 0;
    let r : List Nat := [];
    let x : Lookup := (fun (z : Lookup) => ({ z with old := none })) (Lookup.init);
    let s : State := (fun (z : State) => ({ z with tbl := { z.tbl with diag := mput z.tbl.diag id x } })) ((fun (z : State) => ({ z with tbl := { z.tbl with diagQueue := id :: r } })) (up));
    ⟨id, r, x, s, by decide +kernel +zetaReduce⟩),
   (let k : Nat := 1;
    let n : Nat := 1;
    let s : State := modLink 1 (fun l => { l with inq := [5] }) up;
    ⟨n, k, s, by decide +kernel +zetaReduce⟩),
   (let vrf : Nat := 0;
    let key : List Byte := zeros 4;
    let t : Table := { Table.init with kind := 2, keyLen := 4, entries := [{ Entry.init with key := zeros 4 }] };
    let e : Entry := { Entry.init with key := zeros 4 };
    ⟨t, vrf, key, e, by decide +kernel +zetaReduce⟩),
   (let t : Table := Table.init;
    let vrf : Nat := 0;
    let key : List Byte := [];
    ⟨t, vrf, key, by decide +kernel +zetaReduce⟩),
   (let s : State := up;
    let n : Nat := 0;
    let tag : Nat := 0;
    ⟨n, tag, s, by decide +kernel +zetaReduce⟩),
   (let n : Nat := 0;
    let tag : Nat := 5;
    let b : List Byte := [0x31, 0];
    let tb : Table := Table.init;
    let x : Lookup := ({ Lookup.init with taken := some [0x31, 0] } : Lookup);
    let s : State := (fun (z : State) => ({ z with tbl := { z.tbl with tables := mput z.tbl.tables x.table tb } })) ((modLink 0 (fun l => { l with lookups := [(5, x)] }) up).mapTbl fun y => { y with tables := [(x.table, tb)] });
    let f : List Found := [];
    ⟨n, tag, f, x, b, tb, s, by decide +kernel +zetaReduce⟩),
   (let n : Nat := 0;
    let tag : Nat := 1029;
    let b : List Byte := [0x31, 0];
    let x : Lookup := ({ Lookup.init with taken := some [0x31, 0] } : Lookup);
    let s : State := modLink 0 (fun l => { l with lookups := [(1029, x)] }) up;
    ⟨n, tag, x, b, s, by decide +kernel +zetaReduce⟩),
   (let b : List Byte := [];
    let id : Nat := 0;
    let c : Cmd := Cmd.init;
    let x : Lookup := (fun (z : Lookup) => ({ z with taken := some b })) (Lookup.init);
    let s : State := (fun (z : State) => ({ z with fl := { z.fl with cmds := mput z.fl.cmds id c } })) ((fun (z : State) => ({ z with tbl := { z.tbl with diag := mput z.tbl.diag id x } })) (up));
    let f : List Found := [];
    ⟨id, f, x, b, c, s, by decide +kernel +zetaReduce⟩),
   (let n : Nat := 0;
    let tag : Nat := 5;
    let b : List Byte := [0x31, 0];
    let f : Found := { region := 1, unit := unitBase 1, flips := 3, slip := 0 };
    let tb : Table := { Table.init with kind := 0 };
    let x : Lookup := ({ Lookup.init with taken := some [0x31, 0], req := [0x21, 0, 0, 5, 1, 0, 0, 0] ++ zeros 24 } : Lookup);
    let s : State := (fun (z : State) => ({ z with tbl := { z.tbl with tables := mput z.tbl.tables (byteAt x.req 4) tb } })) ((modLink 0 (fun l => { l with lookups := [(5, x)] }) up).mapTbl fun y => { y with tables := [(1, tb)] });
    ⟨n, tag, x, b, tb, f, s, by decide +kernel +zetaReduce⟩),
   (let s : State := (fun (z : State) => ({ z with bed := { z.bed with boActive := true } })) (up);
    ⟨s, by decide +kernel +zetaReduce⟩),
   (let s : State := (fun (z : State) => ({ z with tbl := { z.tbl with commits := [] } })) (up);
    ⟨s, by decide +kernel +zetaReduce⟩),
   (let s : State := (fun (z : State) => ({ z with geo := { z.geo with epochIn := none } })) ((fun (z : State) => ({ z with bed := { z.bed with geoRole := 2 } })) (up));
    ⟨s, by decide +kernel +zetaReduce⟩),
   (let r : List Commit := [];
    let c : Commit := Commit.init;
    let s : State := (fun (z : State) => ({ z with tbl := { z.tbl with commits := c :: r } })) ((fun (z : State) => ({ z with bed := { z.bed with boActive := false } })) (up));
    ⟨c, r, s, by decide +kernel +zetaReduce⟩)⟩

/-- A state and operands that meet the hypotheses of each clause of `Obligations.TableCommands`. -/
theorem witness_TableCommands :
    (∃ (id : Nat) (nb : Nat) (c : Cmd) (s : State), Begins s id 0x60 c ∧ tableCreatePre c s = none ∧ isSecondary s = false ∧ c.byte 33 = 0 ∧ nb = banksFor (c.byte 32) false (c.inl 36 4) (c.byte 34) * c.byte 35 ∧ nb ≤ (freeBanks s).length ∧ ((freeBanks s).take nb).all (fun b => initDone s (1 + b)) = true ∧ (c.byte 32 ≠ 2 → sizeSum s (c.byte 32) + c.inl 36 4 ≤ perTable (c.byte 32))) ∧
    (∃ (id : Nat) (c : Cmd) (tb : Table) (s : State), Begins s id 0x61 c ∧ tableDeletePre c s = none ∧ isSecondary s = false ∧ table? s c.target = some tb ∧ ((stagedAll s).any fun u => decide (u.table = c.target)) = false) ∧
    (∃ (id : Nat) (c : Cmd) (s : State), Begins s id 0x61 c ∧ tableDeletePre c s = none ∧ isSecondary s = false ∧ ((stagedAll s).any fun u => decide (u.table = c.target)) = true) ∧
    (∃ (id : Nat) (l : List Byte) (c : Cmd) (tb : Table) (hd : Handle) (s : State), Begins s id 0x62 c ∧ tableUpdatePre c s = none ∧ isSecondary s = false ∧ table? s c.target = some tb ∧ tableReady s tb = true ∧ dmaAllowed s c.indAddr c.indLen = true ∧ l.length = c.indLen ∧ c.inl 36 4 = 1 ∧ c.byte 32 ≠ 0 ∧ mfind s.tbl.handles (c.byte 32) = some hd ∧ updateFails s (c.byte 32) c.target tb hd.staged (parseUpdate c.target tb l) l = none) ∧
    (∃ (id : Nat) (st : Status) (l : List Byte) (c : Cmd) (tb : Table) (hd : Handle) (s : State), Begins s id 0x62 c ∧ tableUpdatePre c s = none ∧ isSecondary s = false ∧ table? s c.target = some tb ∧ tableReady s tb = true ∧ dmaAllowed s c.indAddr c.indLen = true ∧ l.length = c.indLen ∧ c.inl 36 4 = 1 ∧ c.byte 32 ≠ 0 ∧ mfind s.tbl.handles (c.byte 32) = some hd ∧ updateFails s (c.byte 32) c.target tb hd.staged (parseUpdate c.target tb l) l = some st) ∧
    (∃ (id : Nat) (pl : List (List Place)) (mg : List Found) (l : List Byte) (c : Cmd) (tb : Table) (w : Update × Bool × State) (s : State), Begins s id 0x62 c ∧ tableUpdatePre c s = none ∧ isSecondary s = false ∧ table? s c.target = some tb ∧ tableReady s tb = true ∧ dmaAllowed s c.indAddr c.indLen = true ∧ l.length = c.indLen ∧ c.inl 36 4 = 1 ∧ c.byte 32 = 0 ∧ updateFails s 0 c.target tb [] (parseUpdate c.target tb l) l = none ∧ w = writeEntry .update false tb (parseUpdate c.target tb l) (pl.getD 0 []) mg (beginCmd id c s)) ∧
    (∃ (f : Found) (r : Nat) (u : Nat) (s : State), 64 < r ∧ f.region = r ∧ f.unit = u ∧ unitBad s f = true) ∧
    (∃ (id : Nat) (h : Nat) (c : Cmd) (s : State), Begins s id 0x63 c ∧ c.target = 0 ∧ noFields c = true ∧ isSecondary s = false ∧ freeHandle s = some h) ∧
    (∃ (id : Nat) (c : Cmd) (s : State), Begins s id 0x63 c ∧ c.target = 0 ∧ noFields c = true ∧ isSecondary s = false ∧ freeHandle s = none) ∧
    (∃ (h : Nat) (s : State), freeHandle s = some h) ∧
    (∃ (id : Nat) (c : Cmd) (hd : Handle) (s : State), Begins s id 0x64 c ∧ handlePre c s = none ∧ isSecondary s = false ∧ mfind s.tbl.handles c.target = some hd ∧ hd.staged = []) ∧
    (∃ (id : Nat) (c : Cmd) (hd : Handle) (s : State), Begins s id 0x64 c ∧ handlePre c s = none ∧ isSecondary s = false ∧ mfind s.tbl.handles c.target = some hd ∧ hd.staged ≠ []) ∧
    (∃ (id : Nat) (c : Cmd) (s : State), Begins s id 0x65 c ∧ handlePre c s = none ∧ isSecondary s = false) ∧
    (∃ (id : Nat) (c : Cmd) (s : State), Begins s id 0x65 c ∧ 1 ≤ c.target ∧ c.target ≤ 16 ∧ noFields c = true ∧ mfind s.tbl.handles c.target = none) ∧
    (∃ (id : Nat) (c : Cmd) (s : State), Begins s id 0x66 c ∧ blockBad c 0 272 = false ∧ dmaAllowed s c.indAddr (epochBlock s).length = true) ∧
    (∃ (id : Nat) (c : Cmd) (tb : Table) (s : State), Begins s id 0x67 c ∧ counterBlockBad c 255 80 = false ∧ c.byte 63 = 0 ∧ table? s c.target = some tb ∧ dmaAllowed s c.indAddr (tableBlock s c.target tb).length = true) ∧
    (∃ (id : Nat) (r : List Byte) (c : Cmd) (s : State), Begins s id 0x68 c ∧ shapeBad c 255 0 = false ∧ 32 ≤ c.indLen ∧ dmaAllowed s c.indAddr c.indLen = true ∧ s.tbl.diag.length < 64 ∧ r.length = c.indLen ∧ byteAt r 0 = 0x21 ∧ c.indLen = 32 + round8 (byteAt r 5) ∧ byteAt r 4 = c.target) ∧
    (∃ (id : Nat) (c : Cmd) (s : State), Begins s id 0x68 c ∧ shapeBad c 255 0 = false ∧ 32 ≤ c.indLen ∧ dmaAllowed s c.indAddr c.indLen = true ∧ 64 ≤ s.tbl.diag.length) :=
  ⟨(let c : Cmd := cmd (0x60) (0) (2) (0) (4096) [(32, 1, 2), (34, 1, 8), (35, 1, 1), (36, 4, 8)];
    let nb : Nat := banksFor (c.byte 32) false (c.inl 36 4) (c.byte 34) * c.byte 35;
    let id : Nat := 7;
    let s : State := withCmd c (up);
    ⟨id, nb, c, s, by unfold Begins; decide +kernel +zetaReduce⟩),
   (let tb : Table := Table.init;
    let c : Cmd := cmd (0x61) (0) (0) (0) (4096) [];
    let id : Nat := 7;
    let s : State := withCmd c ((fun (z : State) => ({ z with tbl := { z.tbl with tables := mput z.tbl.tables c.target tb } })) (up));
    ⟨id, c, tb, s, by unfold Begins; decide +kernel +zetaReduce⟩),
   (let c : Cmd := cmd (0x61) (0) (1) (0) (4096) [];
    let id : Nat := 7;
    let s : State := withCmd c (up.mapTbl fun y => { y with handles := [(1, { Handle.init with staged := [{ Update.init with table := 1 }] })] });
    ⟨id, c, s, by unfold Begins; decide +kernel +zetaReduce⟩),
   (let l : List Byte := zeros 24;
    let hd : Handle := Handle.init;
    let tb : Table := { Table.init with kind := 2, keyLen := 8, size := 8, banks := [0] };
    let c : Cmd := cmd (0x62) (0) (1) (24) (4096) [(32, 1, 1), (36, 4, 1)];
    let id : Nat := 7;
    let s : State := withCmd c (up.mapTbl fun y => { y with handles := [(1, Handle.init)], tables := [(1, { Table.init with kind := 2, keyLen := 8, size := 8, banks := [0] })] });
    ⟨id, l, c, tb, hd, s, by unfold Begins; decide +kernel +zetaReduce⟩),
   (let l : List Byte := [1] ++ zeros 23;
    let st : Status := .objectNotFound;
    let hd : Handle := Handle.init;
    let tb : Table := { Table.init with kind := 2, keyLen := 8, size := 8, banks := [0] };
    let c : Cmd := cmd (0x62) (0) (1) (24) (4096) [(32, 1, 1), (36, 4, 1)];
    let id : Nat := 7;
    let s : State := withCmd c (up.mapTbl fun y => { y with handles := [(1, Handle.init)], tables := [(1, { Table.init with kind := 2, keyLen := 8, size := 8, banks := [0] })] });
    ⟨id, st, l, c, tb, hd, s, by unfold Begins; decide +kernel +zetaReduce⟩),
   (let l : List Byte := zeros 24;
    let tb : Table := { Table.init with kind := 2, keyLen := 8, size := 8, banks := [0] };
    let c : Cmd := cmd (0x62) (0) (1) (24) (4096) [(36, 4, 1)];
    let id : Nat := 7;
    let s : State := withCmd c (up.mapTbl fun y => { y with tables := [(1, { Table.init with kind := 2, keyLen := 8, size := 8, banks := [0] })] });
    let w : Update × Bool × State := writeEntry .update false tb (parseUpdate c.target tb l) [] [] (beginCmd 7 c s);
    let pl : List (List Place) := [];
    let mg : List Found := [];
    ⟨id, pl, mg, l, c, tb, w, s, by unfold Begins; decide +kernel +zetaReduce⟩),
   (let r : Nat := 65;
    let u : Nat := 0;
    let f : Found := { region := 65, unit := 0, flips := 0, slip := 0 };
    let s : State := poison 65 0 up;
    ⟨f, r, u, s, by decide +kernel +zetaReduce⟩),
   (let h : Nat := 1;
    let c : Cmd := cmd (0x63) (0) (0) (0) (4096) [];
    let id : Nat := 7;
    let s : State := withCmd c (up);
    ⟨id, h, c, s, by unfold Begins; decide +kernel +zetaReduce⟩),
   (let c : Cmd := cmd (0x63) (0) (0) (0) (4096) [];
    let id : Nat := 7;
    let s : State := withCmd c (up.mapTbl fun y => { y with handles := (List.range' 1 16).map fun h => (h, Handle.init) });
    ⟨id, c, s, by unfold Begins; decide +kernel +zetaReduce⟩),
   (let h : Nat := 1;
    let s : State := up;
    ⟨h, s, by decide +kernel +zetaReduce⟩),
   (let hd : Handle := Handle.init;
    let c : Cmd := cmd (0x64) (0) (1) (0) (4096) [];
    let id : Nat := 7;
    let s : State := withCmd c (up.mapTbl fun y => { y with handles := [(1, Handle.init)] });
    ⟨id, c, hd, s, by unfold Begins; decide +kernel +zetaReduce⟩),
   (let hd : Handle := { Handle.init with staged := [Update.init] };
    let c : Cmd := cmd (0x64) (0) (1) (0) (4096) [];
    let id : Nat := 7;
    let s : State := withCmd c (up.mapTbl fun y => { y with handles := [(1, { Handle.init with staged := [Update.init] })] });
    ⟨id, c, hd, s, by unfold Begins; decide +kernel +zetaReduce⟩),
   (let c : Cmd := cmd (0x65) (0) (1) (0) (4096) [];
    let id : Nat := 7;
    let s : State := withCmd c (up.mapTbl fun y => { y with handles := [(1, Handle.init)] });
    ⟨id, c, s, by unfold Begins; decide +kernel +zetaReduce⟩),
   (let c : Cmd := cmd (0x65) (0) (1) (0) (4096) [];
    let id : Nat := 7;
    let s : State := withCmd c (up);
    ⟨id, c, s, by unfold Begins; decide +kernel +zetaReduce⟩),
   (let c : Cmd := cmd (0x66) (0) (0) (272) (4096) [];
    let id : Nat := 7;
    let s : State := withCmd c (up);
    ⟨id, c, s, by unfold Begins; decide +kernel +zetaReduce⟩),
   (let tb : Table := Table.init;
    let c : Cmd := cmd (0x67) (0) (1) (80) (4096) [(63, 1, 0)];
    let id : Nat := 7;
    let s : State := withCmd c ((fun (z : State) => ({ z with tbl := { z.tbl with tables := mput z.tbl.tables c.target tb } })) (up));
    ⟨id, c, tb, s, by unfold Begins; decide +kernel +zetaReduce⟩),
   (let r : List Byte := [0x21, 0, 0, 0, 1, 8] ++ zeros 34;
    let c : Cmd := cmd (0x68) (0) (1) (40) (4096) [];
    let id : Nat := 7;
    let s : State := withCmd c (up);
    ⟨id, r, c, s, by unfold Begins; decide +kernel +zetaReduce⟩),
   (let c : Cmd := cmd (0x68) (0) (1) (40) (4096) [];
    let id : Nat := 7;
    let s : State := withCmd c (up.mapTbl fun t => { t with diag := (List.range 64).map fun k => (k, Lookup.init) });
    ⟨id, c, s, by unfold Begins; decide +kernel +zetaReduce⟩)⟩

/-- A state and operands that meet the hypotheses of each clause of `Obligations.MemoryRows`. -/
theorem witness_MemoryRows :
    (∃ (k : Nat) (p : Nat) (fl : Nat) (sl : Nat) (s : State), k ≤ 4 ∧ (region s (scrubHome k).1).scrub = p ∧ initDone s (homeRegion (scrubAt k p).1) = true ∧ scrubGoesOn k p = true ∧ readOutcome s { region := (scrubAt k p).1, unit := (scrubAt k p).2, flips := fl, slip := sl } = .clean) ∧
    (∃ (k : Nat) (p : Nat) (fl : Nat) (sl : Nat) (s : State), k ≤ 4 ∧ (region s (scrubHome k).1).scrub = p ∧ initDone s (homeRegion (scrubAt k p).1) = true ∧ scrubGoesOn k p = true ∧ (scrubAt k p).1 < 69 ∧ poisoned s (scrubAt k p).1 (scrubAt k p).2 = false ∧ readOutcome s { region := (scrubAt k p).1, unit := (scrubAt k p).2, flips := fl, slip := sl } = .uncorrectable) ∧
    (∃ (k : Nat) (p : Nat) (fl : Nat) (sl : Nat) (x : Nat) (s : State), k ≤ 4 ∧ (region s (scrubHome k).1).scrub = p ∧ initDone s (homeRegion (scrubAt k p).1) = true ∧ scrubGoesOn k p = true ∧ (scrubAt k p).1 < 69 ∧ readOutcome s { region := (scrubAt k p).1, unit := (scrubAt k p).2, flips := fl, slip := sl } = .corrected x) ∧
    (∃ (k : Nat) (p : Nat) (fl : Nat) (sl : Nat) (s : State), k ≤ 4 ∧ (region s (scrubHome k).1).scrub = p ∧ initDone s (homeRegion (scrubAt k p).1) = true ∧ scrubGoesOn k p = false ∧ readOutcome s { region := (scrubAt k p).1, unit := (scrubAt k p).2, flips := fl, slip := sl } = .clean) ∧
    (∃ (k : Nat), 4 < k) ∧
    (∃ (m : Nat) (ch : Nat) (bank : Nat) (row : Nat) (j : Nat) (s : State), m ≤ 3 ∧ (stack s m).repairAt = none ∧ s.bed.boActive = false ∧ initDone s (65 + m) = true ∧ rowQualifies s m ch bank row = true ∧ softSlot s m = some j) ∧
    (∃ (m : Nat) (ch : Nat) (bank : Nat) (row : Nat) (s : State), m ≤ 3 ∧ (stack s m).repairAt = none ∧ s.bed.boActive = false ∧ initDone s (65 + m) = true ∧ rowQualifies s m ch bank row = true) ∧
    (∃ (m : Nat) (a : Nat) (s : State), (stack s m).repairAt = some a ∧ s.now < a + 1000000000) ∧
    (∃ (m : Nat) (ch : Nat) (bank : Nat) (row : Nat) (s : State), rowQualifies s m ch bank row = false) ∧
    (∃ (m : Nat) (ch : Nat) (s : State), m ≤ 3 ∧ ch ≤ 31 ∧ initDone s (65 + m) = true ∧ s.bed.boActive = false) ∧
    (∃ (m : Nat) (ch : Nat) (s : State), m ≤ 3 ∧ ch ≤ 31 ∧ initDone s (65 + m) = true ∧ s.bed.boActive = false) ∧
    (∃ (m : Nat) (ch : Nat) (s : State), m ≤ 3 ∧ ch ≤ 31 ∧ initDone s (65 + m) = true ∧ s.bed.boActive = true) ∧
    (∃ (m : Nat) (ch : Nat) (s : State), m ≤ 3 ∧ ch ≤ 31 ∧ (channel s (32 * m + ch)).queue.length < 256) ∧
    (∃ (m : Nat) (ch : Nat) (s : State), m ≤ 3 ∧ ch ≤ 31 ∧ 256 ≤ (channel s (32 * m + ch)).queue.length) ∧
    (∃ (m : Nat) (ch : Nat) (key : Nat) (r : Req) (s : State), m ≤ 3 ∧ markOverdue (32 * m + ch) s = s ∧ (channel s (32 * m + ch)).waiting = [] ∧ (channel s (32 * m + ch)).queue.find? (fun r => decide (r.id = key)) = some r) ∧
    (∃ (m : Nat) (ch : Nat) (key : Nat) (r : Req) (s : State), m ≤ 3 ∧ (channel s (32 * m + ch)).queue = [] ∧ (channel s (32 * m + ch)).waiting = [] ∧ (channel s (32 * m + ch)).issued = some r ∧ r.id = key) ∧
    (∃ (busy : List Nat) (l : List Req) (r : Req), pickReq busy l = some r) ∧
    (∃ (m : Nat) (ch : Nat) (busy : List Nat) (r : Req) (s : State), markOverdue (32 * m + ch) s = s ∧ (channel s (32 * m + ch)).waiting = [] ∧ pickReq busy (channel s (32 * m + ch)).queue = some r) ∧
    (∃ (m : Nat) (ch : Nat) (s : State), (channel s (32 * m + ch)).queue = [] ∧ (channel s (32 * m + ch)).issued = none) :=
  ⟨(let s : State := up;
    let k : Nat := 0;
    let p : Nat := 0;
    let fl : Nat := 0;
    let sl : Nat := 0;
    ⟨k, p, fl, sl, s, by decide +kernel +zetaReduce⟩),
   (let k : Nat := 0;
    let p : Nat := 0;
    let sl : Nat := 0;
    let s : State := up;
    let fl : Nat := 3;
    ⟨k, p, fl, sl, s, by decide +kernel +zetaReduce⟩),
   (let k : Nat := 0;
    let p : Nat := 0;
    let sl : Nat := 0;
    let x : Nat := 1;
    let s : State := up;
    let fl : Nat := 1;
    ⟨k, p, fl, sl, x, s, by decide +kernel +zetaReduce⟩),
   (let k : Nat := 1;
    let p : Nat := 2 ^ 29 - 1;
    let s : State := modRegion 65 (fun g => { g with scrub := 2 ^ 29 - 1 }) up;
    let fl : Nat := 0;
    let sl : Nat := 0;
    ⟨k, p, fl, sl, s, by decide +kernel +zetaReduce⟩),
   (let k : Nat := 5;
    ⟨k, by decide +kernel +zetaReduce⟩),
   (let m : Nat := 0;
    let ch : Nat := 0;
    let bank : Nat := (Config.hbmRow 0).1;
    let row : Nat := (Config.hbmRow 0).2;
    let s : State := (fun (z : State) => ({ z with bed := { z.bed with boActive := false } })) (modStack 0 (fun g => { g with errs := [{ unit := 0, time := 0, bad := true }] }) up);
    let j : Nat := 0;
    ⟨m, ch, bank, row, j, s, by decide +kernel +zetaReduce, by decide +kernel +zetaReduce, by decide +kernel +zetaReduce, by decide +kernel +zetaReduce, rowQualifies_bad 0 0 _ rfl (by decide +kernel), by decide +kernel +zetaReduce⟩),
   (let m : Nat := 0;
    let ch : Nat := 0;
    let bank : Nat := (Config.hbmRow 0).1;
    let row : Nat := (Config.hbmRow 0).2;
    let s : State := (fun (z : State) => ({ z with bed := { z.bed with boActive := false } })) (modStack 0 (fun g => { g with errs := [{ unit := 0, time := 0, bad := true }] }) up);
    ⟨m, ch, bank, row, s, by decide +kernel +zetaReduce, by decide +kernel +zetaReduce, by decide +kernel +zetaReduce, by decide +kernel +zetaReduce, rowQualifies_bad 0 0 _ rfl (by decide +kernel)⟩),
   (let a : Nat := 0;
    let s : State := modStack 0 (fun g => { g with repairAt := some 0 }) up;
    let m : Nat := 0;
    ⟨m, a, s, by decide +kernel +zetaReduce⟩),
   (let s : State := up;
    let m : Nat := 0;
    let ch : Nat := 0;
    let bank : Nat := 0;
    let row : Nat := 0;
    ⟨m, ch, bank, row, s, by decide +kernel +zetaReduce⟩),
   (let s : State := (fun (z : State) => ({ z with bed := { z.bed with boActive := false } })) (up);
    let m : Nat := 0;
    let ch : Nat := 0;
    ⟨m, ch, s, by decide +kernel +zetaReduce⟩),
   (let s : State := (fun (z : State) => ({ z with bed := { z.bed with boActive := false } })) (up);
    let m : Nat := 0;
    let ch : Nat := 0;
    ⟨m, ch, s, by decide +kernel +zetaReduce⟩),
   (let s : State := (fun (z : State) => ({ z with bed := { z.bed with boActive := true } })) (up);
    let m : Nat := 0;
    let ch : Nat := 0;
    ⟨m, ch, s, by decide +kernel +zetaReduce⟩),
   (let s : State := up;
    let m : Nat := 0;
    let ch : Nat := 0;
    ⟨m, ch, s, by decide +kernel +zetaReduce⟩),
   (let m : Nat := 3;
    let ch : Nat := 31;
    let s : State := modChannel 127 (fun x => { x with queue := List.replicate 256 Req.init }) up;
    ⟨m, ch, s, by decide +kernel +zetaReduce⟩),
   (let m : Nat := 0;
    let ch : Nat := 0;
    let r : Req := Req.init;
    let key : Nat := Req.init.id;
    let s : State := (fun (z : State) => (modChannel (32 * m + ch) (fun y => { y with waiting := [] }) z)) (modChannel 0 (fun x => { x with queue := [Req.init] }) up);
    ⟨m, ch, key, r, s, by decide +kernel +zetaReduce⟩),
   (let key : Nat := 0;
    let m : Nat := 0;
    let ch : Nat := 0;
    let r : Req := (fun (z : Req) => ({ z with id := key })) (Req.init);
    let s : State := (fun (z : State) => (modChannel (32 * m + ch) (fun y => { y with issued := some r }) z)) ((fun (z : State) => (modChannel (32 * m + ch) (fun y => { y with waiting := [] }) z)) ((fun (z : State) => (modChannel (32 * m + ch) (fun y => { y with queue := [] }) z)) (up)));
    ⟨m, ch, key, r, s, by decide +kernel +zetaReduce⟩),
   (let r : Req := Req.init;
    let l : List Req := [Req.init];
    let busy : List Nat := [];
    ⟨busy, l, r, by decide +kernel +zetaReduce⟩),
   (let m : Nat := 0;
    let ch : Nat := 0;
    let r : Req := Req.init;
    let s : State := (fun (z : State) => (modChannel (32 * m + ch) (fun y => { y with waiting := [] }) z)) (modChannel 0 (fun x => { x with queue := [Req.init] }) up);
    let busy : List Nat := [];
    ⟨m, ch, busy, r, s, by decide +kernel +zetaReduce⟩),
   (let m : Nat := 0;
    let ch : Nat := 0;
    let s : State := (fun (z : State) => (modChannel (32 * m + ch) (fun y => { y with issued := none }) z)) ((fun (z : State) => (modChannel (32 * m + ch) (fun y => { y with queue := [] }) z)) (up));
    ⟨m, ch, s, by decide +kernel +zetaReduce⟩)⟩

/-- A state and operands that meet the hypotheses of each clause of `Obligations.MemoryReadsAfterWrites`. -/
theorem witness_MemoryReadsAfterWrites :
    (∃ (m : Memory), m.wf = true) ∧
    (∃ (m : Memory), m.wf = true) ∧
    (∃ (m : Memory) (n : Memory), m.wf = true ∧ n.wf = true) ∧
    (∃ (id : Nat) (l : List Byte) (c : Cmd) (s : State), Begins s id 0xA1 c ∧ memCmdBad c = false ∧ initDone s c.target = true ∧ s.guard.debug = true ∧ dmaAllowed s c.indAddr c.memLen = true ∧ l.length = c.memLen ∧ partialWords c.target c.memOff c.memLen = []) ∧
    (∃ (id : Nat) (u : Nat) (l : List Byte) (c : Cmd) (s : State), Begins s id 0xA1 c ∧ memCmdBad c = false ∧ initDone s c.target = true ∧ s.guard.debug = true ∧ dmaAllowed s c.indAddr c.memLen = true ∧ l.length = c.memLen ∧ partialWords c.target c.memOff c.memLen = [u] ∧ poisoned s c.target u = true ∧ unitBad s { region := c.target, unit := u, flips := 0, slip := 0 } = true) ∧
    (∃ (id : Nat) (c : Cmd) (s : State), Begins s id 0xA1 c ∧ memCmdBad c = false ∧ initDone s c.target = true ∧ s.guard.debug = false) ∧
    (∃ (id : Nat) (c : Cmd) (s : State), Begins s id 0xA0 c ∧ memCmdBad c = false ∧ initDone s c.target = true ∧ dmaAllowed s c.indAddr c.memLen = true ∧ (region s c.target).bad = [] ∧ (region s c.target).mixed = false) ∧
    (∃ (id : Nat) (u : Nat) (c : Cmd) (s : State), Begins s id 0xA0 c ∧ memCmdBad c = false ∧ initDone s c.target = true ∧ dmaAllowed s c.indAddr c.memLen = true ∧ (region s c.target).bad = [u] ∧ (region s c.target).mixed = false ∧ unitBase c.target + c.memOff / wordBytes c.target ≤ u ∧ u ≤ unitBase c.target + (c.memOff + c.memLen - 1) / wordBytes c.target) ∧
    (∃ (id : Nat) (c : Cmd) (s : State), Begins s id 0xA0 c ∧ memCmdBad c = false ∧ initDone s c.target = false) ∧
    (∃ (d : Nat), d < 2 ^ 64) ∧
    (∃ j, j < 72) ∧
    (∃ i, i < 64) ∧
    (∃ j, j < 72) :=
  ⟨(let m : Memory := [];
    ⟨m, by decide +kernel +zetaReduce⟩),
   (let m : Memory := [];
    ⟨m, by decide +kernel +zetaReduce⟩),
   (let m : Memory := [];
    let n : Memory := [];
    ⟨m, n, by decide +kernel +zetaReduce⟩),
   (let l : List Byte := zeros 256;
    let c : Cmd := cmd (0xA1) (0) (0) (256) (4096) [(40, 4, 256)];
    let id : Nat := 7;
    let s : State := withCmd c ((fun (z : State) => ({ z with guard := { z.guard with debug := true } })) (up));
    ⟨id, l, c, s, by unfold Begins; decide +kernel +zetaReduce⟩),
   (let u : Nat := 0;
    let l : List Byte := zeros 4;
    let c : Cmd := cmd (0xA1) (0) (0) (4) (4096) [(40, 4, 4)];
    let id : Nat := 7;
    let s : State := withCmd c ((fun (z : State) => ({ z with guard := { z.guard with debug := true } })) (modRegion 0 (fun g => { g with bad := [0] }) up));
    ⟨id, u, l, c, s, by unfold Begins; decide +kernel +zetaReduce⟩),
   (let c : Cmd := cmd (0xA1) (0) (0) (256) (4096) [(40, 4, 256)];
    let id : Nat := 7;
    let s : State := withCmd c ((fun (z : State) => ({ z with guard := { z.guard with debug := false } })) (up));
    ⟨id, c, s, by unfold Begins; decide +kernel +zetaReduce⟩),
   (let c : Cmd := cmd (0xA0) (0) (0) (256) (4096) [(40, 4, 256)];
    let id : Nat := 7;
    let s : State := withCmd c (up);
    ⟨id, c, s, by unfold Begins; decide +kernel +zetaReduce⟩),
   (let u : Nat := 0;
    let c : Cmd := cmd (0xA0) (0) (0) (256) (4096) [(40, 4, 256)];
    let id : Nat := 7;
    let s : State := withCmd c (modRegion 0 (fun g => { g with bad := [0] }) up);
    ⟨id, u, c, s, by unfold Begins; decide +kernel +zetaReduce⟩),
   (let c : Cmd := cmd (0xA0) (0) (0) (256) (4096) [(40, 4, 256)];
    let id : Nat := 7;
    let s : State := withCmd c (up.mapBoot fun b => { b with initDone := 0 });
    ⟨id, c, s, by unfold Begins; decide +kernel +zetaReduce⟩),
   (let d : Nat := 0;
    ⟨d, by decide +kernel +zetaReduce⟩),
   (let j := 0;
    ⟨j, by decide +kernel +zetaReduce⟩),
   (let i := 0;
    ⟨i, by decide +kernel +zetaReduce⟩),
   (let j := 0;
    ⟨j, by decide +kernel +zetaReduce⟩)⟩

/-- A state and operands that meet the hypotheses of each clause of `Obligations.TimeCommands`. -/
theorem witness_TimeCommands :
    (∃ (id : Nat) (c : Cmd) (s : State), Begins s id 0x80 c ∧ plainBad c 0 16 = false ∧ c.byte 32 = 0 ∧ c.byte 33 = 0 ∧ c.inl 40 4 ≤ 999999999 ∧ isSecondary s = false ∧ c.flag 2 = false) ∧
    (∃ (id : Nat) (c : Cmd) (s : State), Begins s id 0x80 c ∧ plainBad c 0 16 = false ∧ c.byte 32 = 2 ∧ c.byte 33 = 0 ∧ s.tim.running = true ∧ clockUnits s < setUnits c) ∧
    (∃ (id : Nat) (c : Cmd) (s : State), Begins s id 0x80 c ∧ plainBad c 0 16 = false ∧ c.byte 32 = 1 ∧ c.byte 33 = 0 ∧ c.inl 40 4 ≤ 999999999 ∧ s.tim.running = false) ∧
    (∃ (id : Nat) (c : Cmd) (s : State), Begins s id 0x80 c ∧ plainBad c 0 16 = false ∧ c.byte 32 = 0 ∧ c.byte 33 = 0 ∧ c.inl 40 4 ≤ 999999999 ∧ isSecondary s = true) ∧
    (∃ (id : Nat) (c : Cmd) (s : State), Begins s id 0x81 c ∧ plainBad c 0 8 = false ∧ (signed 64 (c.inl 32 8)).natAbs < 1000000000 * 2 ^ 16 ∧ s.tim.running = true ∧ isSecondary s = false ∧ c.flag 2 = false) ∧
    (∃ (id : Nat) (c : Cmd) (s : State), Begins s id 0x82 c ∧ plainBad c 0 12 = false ∧ c.byte 32 = 1 ∧ c.inlZero 33 3 = true ∧ isSecondary s = false ∧ c.flag 2 = false) ∧
    (∃ (id : Nat) (c : Cmd) (s : State), Begins s id 0x82 c ∧ plainBad c 0 12 = false ∧ c.byte 32 = 0 ∧ c.inlZero 33 3 = true ∧ isSecondary s = false ∧ c.flag 2 = false) ∧
    (∃ (id : Nat) (c : Cmd) (s : State), Begins s id 0x83 c ∧ plainBad c 0 0 = false ∧ c.flag 2 = false) ∧
    (∃ (id : Nat) (c : Cmd) (s : State), Begins s id 0x83 c ∧ plainBad c 0 0 = false ∧ c.flag 2 = true ∧ s.tim.blockOn = false) ∧
    (∃ (id : Nat) (c : Cmd) (s : State), Begins s id 0x87 c ∧ plainBad c 0 0 = false ∧ c.flag 2 = false) ∧
    (∃ (id : Nat) (c : Cmd) (s : State), Begins s id 0x84 c ∧ plainBad c 0 8 = false ∧ c.byte 32 ≤ 31 ∧ c.byte 35 = 0 ∧ 1 ≤ c.inl 36 4 ∧ c.inl 36 4 ≤ 500000 ∧ synceMissing c s = false ∧ c.flag 2 = false) ∧
    (∃ (id : Nat) (c : Cmd) (q : Port) (s : State), Begins s id 0x85 c ∧ portTsSetPre c s = none ∧ port? s c.target = some q ∧ s.tim.running = true ∧ isSecondary s = false ∧ c.flag 2 = false) ∧
    (∃ (id : Nat) (c : Cmd) (s : State), Begins s id 0x86 c ∧ shapeBad c 0 4 = false ∧ 1 ≤ c.inl 32 4 ∧ c.inl 32 4 ≤ 4096 ∧ 32 * c.inl 32 4 ≤ c.indLen ∧ dmaAllowed s c.indAddr (32 * c.inl 32 4) = true ∧ c.flag 2 = false ∧ s.tim.caps ≠ []) :=
  ⟨(let c : Cmd := cmd (0x80) (0) (0) (0) (4096) [(32, 1, 0), (33, 1, 0)];
    let id : Nat := 7;
    let s : State := withCmd c (up);
    ⟨id, c, s, by unfold Begins; decide +kernel +zetaReduce⟩),
   (let c : Cmd := cmd (0x80) (0) (0) (0) (4096) [(32, 1, 2), (34, 6, 10)];
    let id : Nat := 7;
    let s : State := withCmd c ((fun (z : State) => ({ z with tim := { z.tim with running := true } })) (up));
    ⟨id, c, s, by unfold Begins; decide +kernel +zetaReduce⟩),
   (let c : Cmd := cmd (0x80) (0) (0) (0) (4096) [(32, 1, 1), (33, 1, 0)];
    let id : Nat := 7;
    let s : State := withCmd c ((fun (z : State) => ({ z with tim := { z.tim with running := false } })) (up));
    ⟨id, c, s, by unfold Begins; decide +kernel +zetaReduce⟩),
   (let c : Cmd := cmd (0x80) (0) (0) (0) (4096) [(32, 1, 0), (33, 1, 0)];
    let id : Nat := 7;
    let s : State := withCmd c ((fun (z : State) => ({ z with bed := { z.bed with geoRole := 2 } })) (up));
    ⟨id, c, s, by unfold Begins; decide +kernel +zetaReduce⟩),
   (let c : Cmd := cmd (0x81) (0) (0) (0) (4096) [];
    let id : Nat := 7;
    let s : State := withCmd c ((fun (z : State) => ({ z with tim := { z.tim with running := true } })) (up));
    ⟨id, c, s, by unfold Begins; decide +kernel +zetaReduce⟩),
   (let c : Cmd := cmd (0x82) (0) (0) (0) (4096) [(32, 1, 1)];
    let id : Nat := 7;
    let s : State := withCmd c (up);
    ⟨id, c, s, by unfold Begins; decide +kernel +zetaReduce⟩),
   (let c : Cmd := cmd (0x82) (0) (0) (0) (4096) [(32, 1, 0)];
    let id : Nat := 7;
    let s : State := withCmd c (up);
    ⟨id, c, s, by unfold Begins; decide +kernel +zetaReduce⟩),
   (let c : Cmd := cmd (0x83) (0) (0) (0) (4096) [];
    let id : Nat := 7;
    let s : State := withCmd c (up);
    ⟨id, c, s, by unfold Begins; decide +kernel +zetaReduce⟩),
   (let c : Cmd := cmd (0x83) (4) (0) (0) (4096) [];
    let id : Nat := 7;
    let s : State := withCmd c ((fun (z : State) => ({ z with tim := { z.tim with blockOn := false } })) (up));
    ⟨id, c, s, by unfold Begins; decide +kernel +zetaReduce⟩),
   (let c : Cmd := cmd (0x87) (0) (0) (0) (4096) [];
    let id : Nat := 7;
    let s : State := withCmd c (up);
    ⟨id, c, s, by unfold Begins; decide +kernel +zetaReduce⟩),
   (let c : Cmd := cmd (0x84) (0) (0) (0) (4096) [(35, 1, 0), (36, 4, 1)];
    let id : Nat := 7;
    let s : State := withCmd c (up);
    ⟨id, c, s, by unfold Begins; decide +kernel +zetaReduce⟩),
   (let q : Port := Port.init;
    let c : Cmd := cmd (0x85) (0) (0) (0) (4096) [];
    let id : Nat := 7;
    let s : State := withCmd c ((fun (z : State) => ({ z with tim := { z.tim with running := true } })) ((fun (z : State) => ({ z with ports := { z.ports with tab := mput z.ports.tab c.target q } })) (up)));
    ⟨id, c, q, s, by unfold Begins; decide +kernel +zetaReduce⟩),
   (let c : Cmd := cmd (0x86) (0) (0) (32) (4096) [(32, 4, 1)];
    let id : Nat := 7;
    let s : State := withCmd c (up.mapTim fun t => { t with caps := [zeros 32] });
    ⟨id, c, s, by unfold Begins; decide +kernel +zetaReduce⟩)⟩

/-- A state and operands that meet the hypotheses of each clause of `Obligations.TimeRows`. -/
theorem witness_TimeRows :
    (∃ (s : State), s.tim.running = true) ∧
    (∃ (s : State), s.tim.running = false) ∧
    (∃ (p : Nat), p < 2) ∧
    (∃ (s : State), (s.tim.pins.getLsbD 0 = false ∨ railUp s 11 = false)) ∧
    (∃ (a : Nat) (s : State), s.tim.ppsAt = some a ∧ s.now < a + 100000000) ∧
    (∃ (s : State), s.tim.pins.getLsbD 0 = true ∧ railUp s 11 = true ∧ s.tim.ppsAt = none ∧ s.tim.running = true ∧ s.tim.caps.length < 4096) ∧
    (∃ (d : Nat) (s : State), s.tim.pins.getLsbD 0 = true ∧ railUp s 11 = true ∧ ppsApart s = some d ∧ 900000000 ≤ d ∧ d ≤ 1100000000 ∧ s.tim.ppsAt.any (fun a => decide (s.now < a + 100000000)) = false) ∧
    (∃ (s : State), s.tim.ppsHere = true) ∧
    (∃ (s : State), s.tim.ppsHere = false) ∧
    (∃ (s : State), s.tim.servo = .tracking) ∧
    (∃ (s : State), s.tim.servo ≠ .tracking) ∧
    (∃ (s : State), s.tim.pins.getLsbD 3 = true ∧ (lane s s.tim.src0).state = .acquired ∧ (lane s s.tim.src0).port.isSome = true) ∧
    (∃ (o : Nat) (s : State), o < 2 ∧ s.tim.pins.getLsbD (3 + o) = false) :=
  ⟨(let s : State := (fun (z : State) => ({ z with tim := { z.tim with running := true } })) (up);
    ⟨s, by decide +kernel +zetaReduce⟩),
   (let s : State := (fun (z : State) => ({ z with tim := { z.tim with running := false } })) (up);
    ⟨s, by decide +kernel +zetaReduce⟩),
   (let p : Nat := 0;
    ⟨p, by decide +kernel +zetaReduce⟩),
   (let s : State := (fun (z : State) => ({ z with tim := { z.tim with pins := 0 } })) (up);
    ⟨s, by decide +kernel +zetaReduce⟩),
   (let a : Nat := 0;
    let s : State := (fun (z : State) => ({ z with tim := { z.tim with ppsAt := some a } })) (up);
    ⟨a, s, by decide +kernel +zetaReduce⟩),
   (let s : State := (fun (z : State) => ({ z with tim := { z.tim with running := true } })) ((fun (z : State) => ({ z with tim := { z.tim with ppsAt := none } })) ((fun (z : State) => ({ z with tim := { z.tim with pins := BitVec.allOnes _ } })) (up)));
    ⟨s, by decide +kernel +zetaReduce⟩),
   (let d : Nat := 10 ^ 9;
    let s : State := (fun (z : State) => ({ z with tim := { z.tim with pins := BitVec.allOnes _ } })) ({ (up.mapTim fun t => { t with ppsAt := some 0 }) with now := 10 ^ 9 });
    ⟨d, s, by decide +kernel +zetaReduce⟩),
   (let s : State := (fun (z : State) => ({ z with tim := { z.tim with ppsHere := true } })) (up);
    ⟨s, by decide +kernel +zetaReduce⟩),
   (let s : State := (fun (z : State) => ({ z with tim := { z.tim with ppsHere := false } })) (up);
    ⟨s, by decide +kernel +zetaReduce⟩),
   (let s : State := (fun (z : State) => ({ z with tim := { z.tim with servo := .tracking } })) (up);
    ⟨s, by decide +kernel +zetaReduce⟩),
   (let s : State := up;
    ⟨s, by decide +kernel +zetaReduce⟩),
   (let s : State := (fun (z : State) => ({ z with tim := { z.tim with pins := BitVec.allOnes _ } })) (up);
    ⟨s, by decide +kernel +zetaReduce⟩),
   (let s : State := (fun (z : State) => ({ z with tim := { z.tim with pins := 0 } })) (up);
    let o : Nat := 0;
    ⟨o, s, by decide +kernel +zetaReduce⟩)⟩

/-- A state and operands that meet the hypotheses of each clause of `Obligations.AuxiliaryRowsAndCommands`. -/
theorem witness_AuxiliaryRowsAndCommands :
    (∃ (id : Nat) (c : Cmd) (s : State), Begins s id 0xD8 c ∧ dacChanging s = false ∧ plainBad c 0 5 = false ∧ c.inl 34 2 ≤ 4095 ∧ c.byte 36 ≤ 2 ∧ auxUp s = true ∧ ((maskBits 16 (c.inl 32 2)).any fun m => (dacOut s m).fault) = false) ∧
    (∃ (id : Nat) (c : Cmd) (s : State), Begins s id 0xD8 c ∧ dacChanging s = false ∧ plainBad c 0 5 = false ∧ c.inl 34 2 ≤ 4095 ∧ c.byte 36 ≤ 2 ∧ auxUp s = true ∧ ((maskBits 16 (c.inl 32 2)).any fun m => (dacOut s m).fault) = true) ∧
    (∃ (s : State), dacChanging s = true) ∧
    (∃ (m : Nat) (s : State), m < 16 ∧ auxUp s = true ∧ s.bed.auxValid = true ∧ (dacOut s m).fault = false) ∧
    (∃ (m : Nat) (s : State), m < 16 ∧ auxUp s = true ∧ s.bed.auxValid = true ∧ (dacOut s m).fault = true) ∧
    (∃ (id : Nat) (c : Cmd) (s : State), Begins s id 0xD9 c ∧ plainBad c 0 8 = false ∧ c.inl 32 2 ≠ 0 ∧ c.byte 34 = 1 ∧ c.byte 35 = 0 ∧ 10 ≤ c.inl 36 4 ∧ c.inl 36 4 ≤ 1000000 ∧ auxUp s = true ∧ c.flag 2 = false) ∧
    (∃ (id : Nat) (c : Cmd) (s : State), Begins s id 0xDA c ∧ plainBad c 0 0 = false ∧ auxUp s = true ∧ c.flag 2 = false ∧ s.adc.run = 0) ∧
    (∃ (id : Nat) (c : Cmd) (s : State), Begins s id 0xDA c ∧ plainBad c 0 0 = false ∧ auxUp s = true ∧ s.adc.run ≠ 0 ∧ s.adc.latched = false) ∧
    (∃ (id : Nat) (c : Cmd) (s : State), Begins s id 0xDA c ∧ plainBad c 0 0 = false ∧ auxUp s = true ∧ s.adc.run ≠ 0 ∧ s.adc.latched = true) ∧
    (∃ (id : Nat) (c : Cmd) (s : State), Begins s id 0xDA c ∧ plainBad c 0 0 = false ∧ auxUp s = false) ∧
    (∃ (s : State), s.adc.source ≠ 1) ∧
    (∃ (s : State), s.adc.source = 1 ∧ s.adc.mask ≠ 0 ∧ auxUp s = true ∧ s.adc.run = 0) ∧
    (∃ (s : State), s.adc.run = 0) ∧
    (∃ (s : State), s.adc.run ≠ 0) ∧
    (∃ (s : State), s.adc.run = 1) ∧
    (∃ (id : Nat) (c : Cmd) (s : State), Begins s id 0xDB c ∧ counterBlockBad c 0 80 = false ∧ c.byte 63 = 0 ∧ auxUp s = true ∧ dmaAllowed s c.indAddr (auxBlock s).length = true) :=
  ⟨(let c : Cmd := cmd (0xD8) (0) (0) (0) (4096) [];
    let id : Nat := 7;
    let s : State := withCmd c (up);
    ⟨id, c, s, by unfold Begins; decide +kernel +zetaReduce⟩),
   (let c : Cmd := cmd (0xD8) (0) (0) (0) (4096) [(32, 2, 0x8000)];
    let id : Nat := 7;
    let s : State := withCmd c (modDac 15 (fun d => { d with fault := true }) up);
    ⟨id, c, s, by unfold Begins; decide +kernel +zetaReduce⟩),
   (let s : State := modDac 0 (fun d => { d with changing := true }) up;
    ⟨s, by decide +kernel +zetaReduce⟩),
   (let s : State := (fun (z : State) => ({ z with bed := { z.bed with auxValid := true } })) (up);
    let m : Nat := 0;
    ⟨m, s, by decide +kernel +zetaReduce⟩),
   (let m : Nat := 15;
    let s : State := (fun (z : State) => (modDac m (fun d => { d with fault := true }) z)) ((fun (z : State) => ({ z with bed := { z.bed with auxValid := true } })) (up));
    ⟨m, s, by decide +kernel +zetaReduce⟩),
   (let c : Cmd := cmd (0xD9) (0) (0) (0) (4096) [(32, 2, 1), (34, 1, 1), (35, 1, 0), (36, 4, 10)];
    let id : Nat := 7;
    let s : State := withCmd c (up);
    ⟨id, c, s, by unfold Begins; decide +kernel +zetaReduce⟩),
   (let c : Cmd := cmd (0xDA) (0) (0) (0) (4096) [];
    let id : Nat := 7;
    let s : State := withCmd c ((fun (z : State) => ({ z with adc := { z.adc with run := 0 } })) (up));
    ⟨id, c, s, by unfold Begins; decide +kernel +zetaReduce⟩),
   (let c : Cmd := cmd (0xDA) (0) (0) (0) (4096) [];
    let id : Nat := 7;
    let s : State := withCmd c ((fun (z : State) => ({ z with adc := { z.adc with latched := false } })) ((fun (z : State) => ({ z with adc := { z.adc with run := 1 } })) (up)));
    ⟨id, c, s, by unfold Begins; decide +kernel +zetaReduce⟩),
   (let c : Cmd := cmd (0xDA) (0) (0) (0) (4096) [];
    let id : Nat := 7;
    let s : State := withCmd c ((fun (z : State) => ({ z with adc := { z.adc with latched := true } })) ((fun (z : State) => ({ z with adc := { z.adc with run := 1 } })) (up)));
    ⟨id, c, s, by unfold Begins; decide +kernel +zetaReduce⟩),
   (let c : Cmd := cmd (0xDA) (0) (0) (0) (4096) [];
    let id : Nat := 7;
    let s : State := withCmd c ((fun (z : State) => ({ z with bed := { z.bed with railOk := 0 } })) (up));
    ⟨id, c, s, by unfold Begins; decide +kernel +zetaReduce⟩),
   (let s : State := up;
    ⟨s, by decide +kernel +zetaReduce⟩),
   (let s : State := (fun (z : State) => ({ z with adc := { z.adc with run := 0 } })) ((fun (z : State) => ({ z with adc := { z.adc with mask := 1 } })) ((fun (z : State) => ({ z with adc := { z.adc with source := 1 } })) (up)));
    ⟨s, by decide +kernel +zetaReduce⟩),
   (let s : State := (fun (z : State) => ({ z with adc := { z.adc with run := 0 } })) (up);
    ⟨s, by decide +kernel +zetaReduce⟩),
   (let s : State := (fun (z : State) => ({ z with adc := { z.adc with run := 1 } })) (up);
    ⟨s, by decide +kernel +zetaReduce⟩),
   (let s : State := (fun (z : State) => ({ z with adc := { z.adc with run := 1 } })) (up);
    ⟨s, by decide +kernel +zetaReduce⟩),
   (let c : Cmd := cmd (0xDB) (0) (0) (80) (4096) [(63, 1, 0)];
    let id : Nat := 7;
    let s : State := withCmd c (up);
    ⟨id, c, s, by unfold Begins; decide +kernel +zetaReduce⟩)⟩

/-- A state and operands that meet the hypotheses of each clause of `Obligations.GeodeRecordRows`. -/
theorem witness_GeodeRecordRows :
    (∃ (s : State), s.bed.geoRole ≠ 0 ∧ geoUp s = true) ∧
    (∃ (s : State), (s.bed.geoRole = 0 ∨ geoUp s = false)) ∧
    (∃ (s : State), s.bed.geoRole = 0) ∧
    (∃ (r : List Byte) (s : State), s.bed.geoRole ≠ 0 ∧ (link s geodeLink).recs.find? (isType 0x60) = some r ∧ (2 < byteAt r 1 ∨ 3 < byteAt r 2)) ∧
    (∃ (r : List Byte) (s : State), s.bed.geoRole = 2 ∧ s.geo.blind = false ∧ s.geo.peer ≠ none ∧ (link s geodeLink).recs.find? (isType 0x60) = some r ∧ byteAt r 1 ≤ 2 ∧ byteAt r 2 ≤ 3) ∧
    (∃ (r : List Byte) (s : State), s.bed.geoRole = 1 ∧ s.geo.blind = false ∧ s.geo.inn = none ∧ s.geo.out = none ∧ (link s geodeLink).recs.find? (isType 0x60) = some r ∧ byteAt r 1 = 1 ∧ byteAt r 2 ≤ 3) ∧
    (∃ (r : List Byte) (s : State), s.bed.geoRole = 1 ∧ s.geo.blind = false ∧ s.geo.out = none ∧ s.geo.resynced = false ∧ (link s geodeLink).recs.find? (isType 0x60) = some r ∧ byteAt r 1 = 2 ∧ byteAt r 2 < 3) ∧
    (∃ (s : State), roleNow s = 1 ∧ geoUp s = true ∧ s.tim.running = true) ∧
    (∃ (s : State), s.tim.running = false) ∧
    (∃ (r : List Byte) (s : State), roleNow s = 2 ∧ geoUp s = true ∧ (link s geodeLink).recs.find? (isType 0x68) = some r ∧ bitOf (byteAt r 25) 0 = true ∧ s.geo.timeSet = false ∧ wireAt r 8 8 * 1000000000 + wireAt r 16 4 + s.geo.oneWay < 2 ^ 64 * 1000000000) ∧
    (∃ (r : List Byte) (s : State), (link s geodeLink).recs.find? (isType 0x68) = some r ∧ bitOf (byteAt r 25) 0 = false) ∧
    (∃ (s : State), roleNow s ≠ 2) ∧
    (∃ (s : State), roleNow s = 2 ∧ geoUp s = true) ∧
    (∃ (r : List Byte) (s : State) (u : State), roleNow s = 2 ∧ (link s geodeLink).recs.find? mirrorKind = some r ∧ byteAt r 0 = 0x64 ∧ s.geo.epochIn.any (·.ended) = false ∧ s.geo.inSync = true ∧ s.geo.seqKnown = true ∧ BitVec.ofNat 32 (wireAt r 4 4) = s.geo.seq + 1 ∧ applyMirrored (cmdOfConfig r) ((modLink geodeLink (fun l => { l with recs := l.recs.erase r }) s).mapGeo fun g => { g with seq := BitVec.ofNat 32 (wireAt r 4 4), seqKnown := true }) = some u) ∧
    (∃ (r : List Byte) (s : State), roleNow s = 2 ∧ (link s geodeLink).recs.find? mirrorKind = some r ∧ byteAt r 0 = 0x64 ∧ s.geo.epochIn.any (·.ended) = false ∧ s.geo.seqKnown = true ∧ BitVec.ofNat 32 (wireAt r 4 4) ≠ s.geo.seq + 1 ∧ byteAt r 1 ≠ 0x45) ∧
    (∃ (r : List Byte) (s : State), roleNow s = 2 ∧ (link s geodeLink).recs.find? mirrorKind = some r ∧ byteAt r 0 = 0x65 ∧ s.geo.epochIn = none) ∧
    (∃ (r : List Byte) (e : EpochIn) (s : State), roleNow s = 2 ∧ (link s geodeLink).recs.find? mirrorKind = some r ∧ byteAt r 0 = 0x65 ∧ s.geo.epochIn = some e ∧ e.ended = false) ∧
    (∃ (r : List Byte) (e : EpochIn) (tb : Table) (s : State), roleNow s = 2 ∧ (link s geodeLink).recs.find? mirrorKind = some r ∧ byteAt r 0 = 0x66 ∧ s.geo.epochIn = some e ∧ e.ended = false ∧ table? s (byteAt r 1) = some tb) ∧
    (∃ (r : List Byte) (e : EpochIn) (s : State), roleNow s = 2 ∧ (link s geodeLink).recs.find? mirrorKind = some r ∧ byteAt r 0 = 0x67 ∧ s.geo.epochIn = some e ∧ e.ended = false ∧ e.num = wireAt r 8 8 ∧ e.full = true ∧ s.geo.resync = true ∧ e.count = e.updates.length ∧ s.bed.boActive = false) ∧
    (∃ (r : List Byte) (s : State), roleNow s = 2 ∧ (link s geodeLink).recs.find? mirrorKind = some r ∧ byteAt r 0 = 0x67 ∧ s.geo.epochIn = none) :=
  ⟨(let s : State := (fun (z : State) => ({ z with bed := { z.bed with geoRole := 1 } })) (up);
    ⟨s, by decide +kernel +zetaReduce⟩),
   (let s : State := (fun (z : State) => ({ z with bed := { z.bed with geoRole := 0 } })) (up);
    ⟨s, by decide +kernel +zetaReduce⟩),
   (let s : State := (fun (z : State) => ({ z with bed := { z.bed with geoRole := 0 } })) (up);
    ⟨s, by decide +kernel +zetaReduce⟩),
   (let r : List Byte := [0x60, 3] ++ zeros 30;
    let s : State := (fun (z : State) => (modLink geodeLink (fun y => { y with recs := [r] }) z)) ((fun (z : State) => ({ z with bed := { z.bed with geoRole := 1 } })) (up));
    ⟨r, s, by decide +kernel +zetaReduce⟩),
   (let r : List Byte := [0x60, 2] ++ zeros 30;
    let s : State := (fun (z : State) => (modLink geodeLink (fun y => { y with recs := [r] }) z)) ((fun (z : State) => ({ z with geo := { z.geo with blind := false } })) ((fun (z : State) => ({ z with bed := { z.bed with geoRole := 2 } })) (up.mapGeo fun g => { g with peer := some Hello.init })));
    ⟨r, s, by decide +kernel +zetaReduce⟩),
   (let r : List Byte := [0x60, 1] ++ zeros 30;
    let s : State := (fun (z : State) => (modLink geodeLink (fun y => { y with recs := [r] }) z)) ((fun (z : State) => ({ z with geo := { z.geo with out := none } })) ((fun (z : State) => ({ z with geo := { z.geo with inn := none } })) ((fun (z : State) => ({ z with geo := { z.geo with blind := false } })) ((fun (z : State) => ({ z with bed := { z.bed with geoRole := 1 } })) (up)))));
    ⟨r, s, by decide +kernel +zetaReduce⟩),
   (let r : List Byte := [0x60, 2, 2] ++ zeros 29;
    let s : State := (fun (z : State) => (modLink geodeLink (fun y => { y with recs := [r] }) z)) ((fun (z : State) => ({ z with geo := { z.geo with resynced := false } })) ((fun (z : State) => ({ z with geo := { z.geo with out := none } })) ((fun (z : State) => ({ z with geo := { z.geo with blind := false } })) ((fun (z : State) => ({ z with bed := { z.bed with geoRole := 1 } })) (up)))));
    ⟨r, s, by decide +kernel +zetaReduce⟩),
   (let s : State := (fun (z : State) => ({ z with tim := { z.tim with running := true } })) ((fun (z : State) => ({ z with bed := { z.bed with geoRole := 1 } })) (up));
    ⟨s, by decide +kernel +zetaReduce⟩),
   (let s : State := (fun (z : State) => ({ z with tim := { z.tim with running := false } })) (up);
    ⟨s, by decide +kernel +zetaReduce⟩),
   (let r : List Byte := [0x68] ++ zeros 24 ++ [1] ++ zeros 6;
    let s : State := (fun (z : State) => ({ z with geo := { z.geo with timeSet := false } })) ((fun (z : State) => (modLink geodeLink (fun y => { y with recs := [r] }) z)) ((fun (z : State) => ({ z with bed := { z.bed with geoRole := 2 } })) (up)));
    ⟨r, s, by decide +kernel +zetaReduce⟩),
   (let r : List Byte := [0x68] ++ zeros 31;
    let s : State := (fun (z : State) => (modLink geodeLink (fun y => { y with recs := [r] }) z)) (up);
    ⟨r, s, by decide +kernel +zetaReduce⟩),
   (let s : State := up;
    ⟨s, by decide +kernel +zetaReduce⟩),
   (let s : State := (fun (z : State) => ({ z with bed := { z.bed with geoRole := 2 } })) (up);
    ⟨s, by decide +kernel +zetaReduce⟩),
   (let r : List Byte := [0x64, 0x40] ++ zeros 5 ++ [1] ++ zeros 8 ++ [1, 0x80] ++ zeros 30;
    let s : State := (fun (z : State) => ({ z with geo := { z.geo with seqKnown := true } })) ((fun (z : State) => ({ z with geo := { z.geo with inSync := true } })) ((fun (z : State) => (modLink geodeLink (fun y => { y with recs := [r] }) z)) ((fun (z : State) => ({ z with bed := { z.bed with geoRole := 2 } })) ((modLink geodeLink (fun l => { l with recs := [[0x64, 0x40] ++ zeros 5 ++ [1] ++ zeros 8 ++ [1, 0x80] ++ zeros 30] }) up).mapPorts fun b => { b with tab := [] }))));
    let u : State := (applyMirrored (cmdOfConfig r) ((modLink geodeLink (fun l => { l with recs := l.recs.erase r }) s).mapGeo fun g => { g with seq := BitVec.ofNat 32 (wireAt r 4 4), seqKnown := true })).getD s;
    ⟨r, s, u, by decide +kernel +zetaReduce⟩),
   (let r : List Byte := [0x64, 0x40] ++ zeros 46;
    let s : State := (fun (z : State) => ({ z with geo := { z.geo with seqKnown := true } })) ((fun (z : State) => (modLink geodeLink (fun y => { y with recs := [r] }) z)) ((fun (z : State) => ({ z with bed := { z.bed with geoRole := 2 } })) (up)));
    ⟨r, s, by decide +kernel +zetaReduce⟩),
   (let r : List Byte := [0x65, 1] ++ zeros 30;
    let s : State := (fun (z : State) => ({ z with geo := { z.geo with epochIn := none } })) ((fun (z : State) => (modLink geodeLink (fun y => { y with recs := [r] }) z)) ((fun (z : State) => ({ z with bed := { z.bed with geoRole := 2 } })) (up)));
    ⟨r, s, by decide +kernel +zetaReduce⟩),
   (let r : List Byte := [0x65, 1] ++ zeros 30;
    let e : EpochIn := (fun (z : EpochIn) => ({ z with ended := false })) (EpochIn.init);
    let s : State := (fun (z : State) => ({ z with geo := { z.geo with epochIn := some e } })) ((fun (z : State) => (modLink geodeLink (fun y => { y with recs := [r] }) z)) ((fun (z : State) => ({ z with bed := { z.bed with geoRole := 2 } })) (up)));
    ⟨r, e, s, by decide +kernel +zetaReduce⟩),
   (let r : List Byte := [0x66, 1] ++ zeros 30;
    let e : EpochIn := (fun (z : EpochIn) => ({ z with ended := false })) (EpochIn.init);
    let tb : Table := Table.init;
    let s : State := (fun (z : State) => ({ z with tbl := { z.tbl with tables := mput z.tbl.tables (byteAt r 1) tb } })) ((fun (z : State) => ({ z with geo := { z.geo with epochIn := some e } })) ((fun (z : State) => (modLink geodeLink (fun y => { y with recs := [r] }) z)) ((fun (z : State) => ({ z with bed := { z.bed with geoRole := 2 } })) (up))));
    ⟨r, e, tb, s, by decide +kernel +zetaReduce⟩),
   (let r : List Byte := [0x67, 0] ++ zeros 30;
    let e : EpochIn := (fun (z : EpochIn) => ({ z with full := true })) ((fun (z : EpochIn) => ({ z with ended := false })) (EpochIn.init));
    let s : State := (fun (z : State) => ({ z with bed := { z.bed with boActive := false } })) ((fun (z : State) => ({ z with geo := { z.geo with resync := true } })) ((fun (z : State) => ({ z with geo := { z.geo with epochIn := some e } })) ((fun (z : State) => (modLink geodeLink (fun y => { y with recs := [r] }) z)) ((fun (z : State) => ({ z with bed := { z.bed with geoRole := 2 } })) (up)))));
    ⟨r, e, s, by decide +kernel +zetaReduce⟩),
   (let r : List Byte := [0x67, 0] ++ zeros 30;
    let s : State := (fun (z : State) => ({ z with geo := { z.geo with epochIn := none } })) ((fun (z : State) => (modLink geodeLink (fun y => { y with recs := [r] }) z)) ((fun (z : State) => ({ z with bed := { z.bed with geoRole := 2 } })) (up)));
    ⟨r, s, by decide +kernel +zetaReduce⟩)⟩

/-- A state and operands that meet the hypotheses of each clause of `Obligations.GeodeRolesAndCommands`. -/
theorem witness_GeodeRolesAndCommands :
    (∃ (r : List Byte) (s : State), roleNow s = 2 ∧ (link s geodeLink).recs.find? mirrorKind = some r ∧ byteAt r 0 = 0x61 ∧ s.geo.epochIn.any (·.ended) = false ∧ 1 ≤ byteAt r 1 ∧ byteAt r 1 ≤ 2) ∧
    (∃ (r : List Byte) (s : State), roleNow s = 2 ∧ (link s geodeLink).recs.find? mirrorKind = some r ∧ byteAt r 0 = 0x61 ∧ s.geo.epochIn.any (·.ended) = false ∧ (byteAt r 1 = 0 ∨ 2 < byteAt r 1)) ∧
    (∃ (r : List Byte) (s : State), (link s geodeLink).recs.find? (isType 0x62) = some r) ∧
    (∃ (s : State), s.geo.inn = none) ∧
    (∃ (i : GeoIn) (s : State), s.geo.inn = some i ∧ i.dark = false ∧ i.lost = false) ∧
    (∃ (i : GeoIn) (s : State), s.geo.inn = some i ∧ (i.dark = true ∨ i.lost = true) ∧ i.ramping = false) ∧
    (∃ (r : List Byte) (o : GeoOut) (s : State), (link s geodeLink).recs.find? (isType 0x63) = some r ∧ s.geo.out = some o ∧ o.item = false ∧ o.cmd = none) ∧
    (∃ (r : List Byte) (o : GeoOut) (id : Nat) (s : State), (link s geodeLink).recs.find? (isType 0x63) = some r ∧ s.geo.out = some o ∧ o.item = false ∧ o.cmd = some id) ∧
    (∃ (s : State), (s.bed.geoRole = 0 ∨ geoUp s = true ∨ s.geo.wasUp = false)) ∧
    (∃ (s : State), s.bed.geoRole ≠ 0 ∧ geoUp s = false ∧ s.geo.wasUp = true ∧ s.bed.geoSll = false) ∧
    (∃ (s : State), s.bed.geoRole = 1 ∧ s.geo.blind = false ∧ geoUp s = false ∧ s.geo.wasUp = true ∧ s.geo.inn = none ∧ s.bed.geoSll = true ∧ healthState s ≠ 3) ∧
    (∃ (s : State), s.bed.geoRole = 2 ∧ geoUp s = false ∧ s.geo.wasUp = true ∧ s.geo.inn = none ∧ s.geo.out = none ∧ s.bed.geoSll = true ∧ healthState s ≠ 3) ∧
    (∃ (s : State), (s.geo.lossSince = none ∨ geoUp s = true ∨ s.bed.geoSll = false)) ∧
    (∃ (a : Nat) (s : State), s.geo.lossSince = some a ∧ geoUp s = false ∧ roleNow s = 2 ∧ healthState s ≠ 3 ∧ s.bed.geoSll = true) ∧
    (∃ (id : Nat) (c : Cmd) (s : State), Begins s id 0xB3 c ∧ plainBad c 0 1 = false ∧ c.byte 32 ≤ 1) ∧
    (∃ (id : Nat) (c : Cmd) (s : State), Begins s id 0xB4 c ∧ s.tbl.commits = [] ∧ plainBad c 0 0 = false ∧ roleNow s ≠ 1) ∧
    (∃ (id : Nat) (c : Cmd) (s : State), Begins s id 0xB4 c ∧ s.tbl.commits = [] ∧ plainBad c 0 0 = false ∧ roleNow s = 1 ∧ peerCanTake s = false) ∧
    (∃ (id : Nat) (c : Cmd) (h : Hello) (s : State), Begins s id 0xB4 c ∧ s.tbl.commits = [] ∧ plainBad c 0 0 = false ∧ roleNow s = 1 ∧ peerCanTake s = true ∧ s.geo.peer = some h ∧ h.inSync = true) ∧
    (∃ (s : State), s.tbl.commits ≠ []) ∧
    (∃ (id : Nat) (c : Cmd) (s : State), Begins s id 0xB5 c ∧ plainBad c 0 0 = false ∧ peerNow s = none) :=
  ⟨(let r : List Byte := [0x61, 2] ++ zeros 6;
    let s : State := (fun (z : State) => (modLink geodeLink (fun y => { y with recs := [r] }) z)) ((fun (z : State) => ({ z with bed := { z.bed with geoRole := 2 } })) (up));
    ⟨r, s, by decide +kernel +zetaReduce⟩),
   (let r : List Byte := [0x61, 3] ++ zeros 6;
    let s : State := (fun (z : State) => (modLink geodeLink (fun y => { y with recs := [r] }) z)) ((fun (z : State) => ({ z with bed := { z.bed with geoRole := 2 } })) (up));
    ⟨r, s, by decide +kernel +zetaReduce⟩),
   (let r : List Byte := [0x62, 0] ++ zeros 6;
    let s : State := (fun (z : State) => (modLink geodeLink (fun y => { y with recs := [r] }) z)) (up);
    ⟨r, s, by decide +kernel +zetaReduce⟩),
   (let s : State := (fun (z : State) => ({ z with geo := { z.geo with inn := none } })) (up);
    ⟨s, by decide +kernel +zetaReduce⟩),
   (let i : GeoIn := (fun (z : GeoIn) => ({ z with lost := false })) ((fun (z : GeoIn) => ({ z with dark := false })) (GeoIn.init));
    let s : State := (fun (z : State) => ({ z with geo := { z.geo with inn := some i } })) (up);
    ⟨i, s, by decide +kernel +zetaReduce⟩),
   (let i : GeoIn := (fun (z : GeoIn) => ({ z with ramping := false })) ((fun (z : GeoIn) => ({ z with dark := true })) (GeoIn.init));
    let s : State := (fun (z : State) => ({ z with geo := { z.geo with inn := some i } })) (up);
    ⟨i, s, by decide +kernel +zetaReduce⟩),
   (let r : List Byte := [0x63, 0] ++ zeros 6;
    let o : GeoOut := (fun (z : GeoOut) => ({ z with cmd := none })) ((fun (z : GeoOut) => ({ z with item := false })) (GeoOut.init));
    let s : State := (fun (z : State) => ({ z with geo := { z.geo with out := some o } })) ((fun (z : State) => (modLink geodeLink (fun y => { y with recs := [r] }) z)) (up));
    ⟨r, o, s, by decide +kernel +zetaReduce⟩),
   (let id : Nat := 0;
    let r : List Byte := [0x63, 0] ++ zeros 6;
    let o : GeoOut := (fun (z : GeoOut) => ({ z with cmd := some id })) ((fun (z : GeoOut) => ({ z with item := false })) (GeoOut.init));
    let s : State := (fun (z : State) => ({ z with geo := { z.geo with out := some o } })) ((fun (z : State) => (modLink geodeLink (fun y => { y with recs := [r] }) z)) (up));
    ⟨r, o, id, s, by decide +kernel +zetaReduce⟩),
   (let s : State := (fun (z : State) => ({ z with bed := { z.bed with geoRole := 0 } })) (up);
    ⟨s, by decide +kernel +zetaReduce⟩),
   (let s : State := (fun (z : State) => ({ z with bed := { z.bed with geoSll := false } })) ((fun (z : State) => ({ z with geo := { z.geo with wasUp := true } })) ((fun (z : State) => (modLink geodeLink (fun l => { l with up := false }) z)) ((fun (z : State) => ({ z with bed := { z.bed with geoRole := 1 } })) (up))));
    ⟨s, by decide +kernel +zetaReduce⟩),
   (let s : State := (fun (z : State) => ({ z with bed := { z.bed with geoSll := true } })) ((fun (z : State) => ({ z with geo := { z.geo with inn := none } })) ((fun (z : State) => ({ z with geo := { z.geo with wasUp := true } })) ((fun (z : State) => (modLink geodeLink (fun l => { l with up := false }) z)) ((fun (z : State) => ({ z with geo := { z.geo with blind := false } })) ((fun (z : State) => ({ z with bed := { z.bed with geoRole := 1 } })) (up))))));
    ⟨s, by decide +kernel +zetaReduce⟩),
   (let s : State := (fun (z : State) => ({ z with bed := { z.bed with geoSll := true } })) ((fun (z : State) => ({ z with geo := { z.geo with out := none } })) ((fun (z : State) => ({ z with geo := { z.geo with inn := none } })) ((fun (z : State) => ({ z with geo := { z.geo with wasUp := true } })) ((fun (z : State) => (modLink geodeLink (fun l => { l with up := false }) z)) ((fun (z : State) => ({ z with bed := { z.bed with geoRole := 2 } })) (up))))));
    ⟨s, by decide +kernel +zetaReduce⟩),
   (let s : State := (fun (z : State) => ({ z with geo := { z.geo with lossSince := none } })) (up);
    ⟨s, by decide +kernel +zetaReduce⟩),
   (let a : Nat := 0;
    let s : State := (fun (z : State) => ({ z with bed := { z.bed with geoSll := true } })) ((fun (z : State) => ({ z with bed := { z.bed with geoRole := 2 } })) ((fun (z : State) => (modLink geodeLink (fun l => { l with up := false }) z)) ((fun (z : State) => ({ z with geo := { z.geo with lossSince := some a } })) (up))));
    ⟨a, s, by decide +kernel +zetaReduce⟩),
   (let c : Cmd := cmd (0xB3) (0) (0) (0) (4096) [];
    let id : Nat := 7;
    let s : State := withCmd c (up);
    ⟨id, c, s, by unfold Begins; decide +kernel +zetaReduce⟩),
   (let c : Cmd := cmd (0xB4) (0) (0) (0) (4096) [];
    let id : Nat := 7;
    let s : State := withCmd c ((fun (z : State) => ({ z with tbl := { z.tbl with commits := [] } })) (up));
    ⟨id, c, s, by unfold Begins; decide +kernel +zetaReduce⟩),
   (let c : Cmd := cmd (0xB4) (0) (0) (0) (4096) [];
    let id : Nat := 7;
    let s : State := withCmd c ((fun (z : State) => ({ z with bed := { z.bed with geoRole := 1 } })) ((fun (z : State) => ({ z with tbl := { z.tbl with commits := [] } })) (up)));
    ⟨id, c, s, by unfold Begins; decide +kernel +zetaReduce⟩),
   (let h : Hello := { Hello.init with role := 2, inSync := true };
    let c : Cmd := cmd (0xB4) (0) (0) (0) (4096) [];
    let id : Nat := 7;
    let s : State := withCmd c ((fun (z : State) => ({ z with geo := { z.geo with peer := some h } })) ((fun (z : State) => ({ z with bed := { z.bed with geoRole := 1 } })) ((fun (z : State) => ({ z with tbl := { z.tbl with commits := [] } })) (up))));
    ⟨id, c, h, s, by unfold Begins; decide +kernel +zetaReduce⟩),
   (let s : State := up.mapTbl fun t => { t with commits := [Commit.init] };
    ⟨s, by decide +kernel +zetaReduce⟩),
   (let c : Cmd := cmd (0xB5) (0) (0) (0) (4096) [];
    let id : Nat := 7;
    let s : State := withCmd c (up);
    ⟨id, c, s, by unfold Begins; decide +kernel +zetaReduce⟩)⟩

/-- A state and operands that meet the hypotheses of each clause of `Obligations.PadReleaseTakesTheHold`. -/
theorem witness_PadReleaseTakesTheHold :
    (∃ (id : Nat) (c : Cmd) (s : State), Begins s id 0x91 c ∧ plainBad c 0 1 = false ∧ c.byte 32 = 1 ∧ s.bed.cageHeld = true) ∧
    (∃ (id : Nat) (c : Cmd) (s : State), Begins s id 0x91 c ∧ plainBad c 0 1 = false ∧ (c.byte 32 = 0 ∨ (c.byte 32 = 1 ∧ s.bed.cageHeld = false))) ∧
    (∃ (id : Nat) (c : Cmd) (s : State), Begins s id 0x91 c ∧ 1 < c.byte 32) :=
  ⟨(let c : Cmd := cmd (0x91) (0) (0) (0) (4096) [(32, 1, 1)];
    let id : Nat := 7;
    let s : State := withCmd c ((fun (z : State) => ({ z with bed := { z.bed with cageHeld := true } })) (up));
    ⟨id, c, s, by unfold Begins; decide +kernel +zetaReduce⟩),
   (let c : Cmd := cmd (0x91) (0) (0) (0) (4096) [(32, 1, 0)];
    let id : Nat := 7;
    let s : State := withCmd c (up);
    ⟨id, c, s, by unfold Begins; decide +kernel +zetaReduce⟩),
   (let c : Cmd := cmd (0x91) (0) (0) (0) (4096) [(32, 1, 2)];
    let id : Nat := 7;
    let s : State := withCmd c (up);
    ⟨id, c, s, by unfold Begins; decide +kernel +zetaReduce⟩)⟩

/-- A state and operands that meet the hypotheses of each clause of `Obligations.PorEndsTheHold`. -/
theorem witness_PorEndsTheHold :
    (∃ (s : State), s.bed.cageHeld = true) :=
   (let s : State := (fun (z : State) => ({ z with bed := { z.bed with cageHeld := true } })) (up);
    ⟨s, by decide +kernel +zetaReduce⟩)

/-- A state and operands that meet the hypotheses of each clause of `Obligations.EveryStepKeepsTheInvariant`. -/
theorem witness_EveryStepKeepsTheInvariant :
    (∃ (s : State) (t : State), Inv s ∧ step s = .next t) :=
   (let s : State := up;
    let t : State := (match step up with | .next t => t | _ => up);
    ⟨s, t, up_inv, rfl⟩)

/-- A state and operands that meet the hypotheses of each clause of `Obligations.OtpBitsNeverReturnToZero`. -/
theorem witness_OtpBitsNeverReturnToZero :
    (∃ (s : State) (t : State) (a : Nat) (i : Nat), Memory.wf s.otp.bytes = true ∧ step s = .next t ∧ (Memory.get s.otp.bytes a).getLsbD i = true) :=
   (let s : State := up.mapOtp fun o => { o with bytes := [(4, 1)] };
    let t : State := (match step (up.mapOtp fun o => { o with bytes := [(4, 1)] }) with | .next t => t | _ => up);
    let a : Nat := 4;
    let i : Nat := 0;
    ⟨s, t, a, i, by decide +kernel, rfl, by decide +kernel⟩)

/-- A state and operands that meet the hypotheses of each clause of `Obligations.ErrorLogOnlyGrows`. -/
theorem witness_ErrorLogOnlyGrows :
    (∃ (c : Instr), c ≠ .porNAssert ∧ c ≠ .vddBedrockLoss) :=
   (let c : Instr := .nop 7;
    ⟨c, by decide +kernel +zetaReduce⟩)

end Sys2Proof.Tests
end

section
/-! PROOFS. POR_N ends the hold of the cage group and puts every pin in the Reset column (R47). -/
namespace Sys2Proof.Machine

/-- The state that POR_N_ASSERT leads to. -/
def porAssertedState (s : State) : State := (porReset s).mapBed fun b => { b with porAsserted := true, waitGroupA := s.bed.waitGroupA }

theorem exec_porNAssert (s : State) : exec .porNAssert s = .next (porAssertedState s) := rfl

@[simp] theorem porReset_mgmt (s : State) : (porReset s).mgmt = State.reset.mgmt := rfl
@[simp] theorem porReset_dac (s : State) : (porReset s).dac = State.reset.dac := rfl
@[simp] theorem porReset_lanes (s : State) : (porReset s).lanes = State.reset.lanes := rfl
@[simp] theorem porReset_cages (s : State) : (porReset s).cages = State.reset.cages := rfl
@[simp] theorem porReset_ports (s : State) : (porReset s).ports = State.reset.ports := rfl
@[simp] theorem porReset_gar (s : State) : (porReset s).gar = State.reset.gar := rfl
@[simp] theorem porReset_tim (s : State) : (porReset s).tim = State.reset.tim := rfl
@[simp] theorem porReset_adc (s : State) : (porReset s).adc = State.reset.adc := rfl
@[simp] theorem porReset_bed_cageHeld (s : State) : (porReset s).bed.cageHeld = false := rfl
@[simp] theorem porReset_bed_tripped (s : State) : (porReset s).bed.tripped = false := rfl

/-- While POR_N is asserted the device is in the Reset column, whatever its supplies (R42). -/
theorem inResetColumn_of_porAsserted {s : State} (h : s.bed.porAsserted = true) : inResetColumn s = true := by
  simp [inResetColumn, h]

/-- In the Reset column, with THERMTRIP_N not asserted, only a pin's supply decides between its Reset and its Unpowered state (R44). -/
theorem pinState_of_inResetColumn {s : State} (trip : s.bed.tripped = false) (col : inResetColumn s = true) (p : Pin) :
    pinState s p = if pinPowered s p then resetState p else .released := by
  cases hp : pinPowered s p <;> simp [pinState, hp, trip, col]

/-- Settles O56: POR_N_ASSERT resets every group whether or not pins are held, and with the trip cleared and POR_N asserted each pin is in
the Reset column. -/
theorem porEndsTheHold : Obligations.PorEndsTheHold := by
  unfold Obligations.PorEndsTheHold
  intro s _
  have trip : (porAssertedState s).bed.tripped = false := by simp [porAssertedState]
  have por : (porAssertedState s).bed.porAsserted = true := by simp [porAssertedState]
  have pins := pinState_of_inResetColumn trip (inResetColumn_of_porAsserted por)
  refine ⟨porAssertedState s, exec_porNAssert s, ?_, ?_, ?_, ?_, ?_, ?_, ?_, ?_, ?_, trip, por, pins⟩ <;> simp [porAssertedState]

end Sys2Proof.Machine
end

section
/-! PROOFS. PORT_CREATE and PORT_SET refuse a DEG_CLEAR above a DEG_SET that is not zero at step 3 of R380 (R168). -/
namespace Sys2Proof.Machine

theorem exec_portCreate (id : Nat) (s : State) : exec (.portCreate id) s = execPortCreate id s := rfl

theorem exec_portSet (id : Nat) (s : State) : exec (.portSet id) s = execPortSet id s := rfl

@[simp] theorem Cmd.begun_byte (c : Cmd) (s : State) (i : Nat) : (c.begun s).byte i = c.byte i := rfl

@[simp] theorem firstFail_of_failed (st : Status) (checks : List (Bool × Status)) : firstFail ((true, st) :: checks) = some st := rfl

/-- That a command begins does not change whether it is late: the clock stays. -/
@[simp] theorem Cmd.begun_beginCmd (id : Nat) (c d : Cmd) (s : State) : d.begun (beginCmd id c s) = d.begun s := rfl

/-- A command that begins and fails one of its checks completes with that check's status, and has begun and ended and done nothing else
(R380). -/
theorem runCmd_of_failed_check {id op : Nat} {pre : Cmd → State → Option Status} {body : Cmd → State → Ran} {c : Cmd} {s : State}
    {st : Status} (begins : mayBegin s id op = some c) (failed : pre (c.begun s) (beginCmd id c s) = some st) :
    runCmd id op pre body s = finishFail id st (beginCmd id c s) := by
  simp [runCmd, begins, failed]

/-- The thresholds are the fields that bit 2 of PORT_SET's VALID selects: R168 is their check. -/
theorem portFieldBad_thresholds_iff (c : Cmd) : portFieldBad c 2 = true ↔ c.byte 37 ≠ 0 ∧ c.byte 37 < c.byte 38 := by
  simp [portFieldBad]

/-- PORT_CREATE checks every field that it shares with PORT_SET. -/
theorem portCreateBad_of_field {c : Cmd} {k : Nat} (hk : k ∈ [0, 1, 2, 3]) (bad : portFieldBad c k = true) (s : State) :
    portCreateBad c s = true := by
  have shared : [0, 1, 2, 3].any (portFieldBad c) = true := List.any_eq_true.mpr ⟨k, hk, bad⟩
  simp [portCreateBad, shared]

/-- A PORT_CREATE with bad fields completes INVALID_FIELD. -/
theorem execPortCreate_of_bad {id : Nat} {c : Cmd} {s : State} (begins : mayBegin s id 0x10 = some c)
    (bad : portCreateBad (c.begun s) (beginCmd id c s) = true) :
    execPortCreate id s = .next (finishFail id .invalidField (beginCmd id c s)) :=
  congrArg _ (runCmd_of_failed_check begins (by simp only [bad, firstFail_of_failed]))

/-- A PORT_SET that selects a field with a bad value completes INVALID_FIELD. -/
theorem execPortSet_of_bad_field {id k : Nat} {c : Cmd} {s : State} (begins : mayBegin s id 0x12 = some c) (hk : k ∈ [0, 1, 2, 3])
    (selected : sel (c.byte 32) k = true) (bad : portFieldBad (c.begun s) k = true) :
    execPortSet id s = .next (finishFail id .invalidField (beginCmd id c s)) := by
  have chosen : [0, 1, 2, 3].any (fun k => sel (c.byte 32) k && portFieldBad (c.begun s) k) = true :=
    List.any_eq_true.mpr ⟨k, hk, by simp [selected, bad]⟩
  exact congrArg _ (runCmd_of_failed_check begins (by
    simp only [Cmd.begun_byte, chosen, Bool.or_true, Bool.true_or, firstFail_of_failed]))

/-- Settles O32: the thresholds out of order are a bad field 2, which PORT_CREATE always checks and PORT_SET checks where it is selected. -/
theorem degradeThresholdsInOrder : Obligations.DegradeThresholdsInOrder := by
  unfold Obligations.DegradeThresholdsInOrder
  have bad : ∀ (c : Cmd) (s : State), c.byte 37 ≠ 0 → c.byte 37 < c.byte 38 → portFieldBad (c.begun s) 2 = true :=
    fun c s on above => (portFieldBad_thresholds_iff (c.begun s)).mpr ⟨on, above⟩
  constructor
  · intro id c s ⟨begins, _⟩ on above
    rw [exec_portCreate]
    exact execPortCreate_of_bad begins (portCreateBad_of_field (by decide) (bad c s on above) _)
  · intro id c s ⟨begins, _⟩ selected on above
    rw [exec_portSet]
    exact execPortSet_of_bad_field begins (by decide) selected (bad c s on above)

end Sys2Proof.Machine
end

section
/-! PROOFS. A NOP that is well formed begins and completes, and its completion is all that happens (R386). -/
namespace Sys2Proof.Machine

theorem exec_nop (id : Nat) (s : State) : exec (.nop id) s = execNop id s := rfl

@[simp] theorem Cmd.begun_target (c : Cmd) (s : State) : (c.begun s).target = c.target := rfl

@[simp] theorem Cmd.begun_flag (c : Cmd) (s : State) (i : Nat) : (c.begun s).flag i = c.flag i := rfl

@[simp] theorem noFields_begun (c : Cmd) (s : State) : noFields (c.begun s) = noFields c := rfl

@[simp] theorem firstFail_nil : firstFail [] = none := rfl

@[simp] theorem firstFail_of_passed (st : Status) (checks : List (Bool × Status)) :
    firstFail ((false, st) :: checks) = firstFail checks := rfl

/-- A command that begins and passes the checks of steps 3 and 4, its clock running if it is timed, completes with what its body answers when
the body answers that it is done (R380, R446). -/
theorem runCmd_of_passed_checks {id op : Nat} {pre : Cmd → State → Option Status} {body : Cmd → State → Ran} {c : Cmd} {s : State}
    (begins : Begins s id op c) (passed : pre (c.begun s) (beginCmd id c s) = none) {r : Ran}
    (answer : body (c.begun s) (beginCmd id c s) = r) (done : r.done = true) :
    runCmd id op pre body s = finish id r.st r.r0 r.r1 r.eff r.s := by
  obtain ⟨may, clock⟩ := begins
  simp [runCmd, may, passed, clock, answer, done]

/-- A NOP with TARGET 0 and no field completes SUCCESS with results zero and EXEC_NS all ones (R386). -/
theorem execNop_of_begins {id : Nat} {c : Cmd} {s : State} (begins : Begins s id 0x00 c) (target : c.target = 0)
    (fields : noFields c = true) : execNop id s = .next (finish id .success 0 0 false (beginCmd id c s)) :=
  congrArg _ (runCmd_of_passed_checks begins (by simp [target, fields]) rfl rfl)

/-- A command that begins and then completes with no effect of its own changes no more than a completion may. -/
theorem finish_beginCmd_done (id : Nat) (c : Cmd) (st : Status) (r0 r1 : BitVec 64) (eff : Bool) (s : State) :
    DoneKeeps s (finish id st r0 r1 eff (beginCmd id c s)) :=
  (beginCmd_done id c s).trans (finish_done id st r0 r1 eff _)

/-- Settles O15: both checks of NOP pass and its body changes nothing, so the device sees the begin and the completion only. -/
theorem nopHasNoEffect : Obligations.NopHasNoEffect := by
  unfold Obligations.NopHasNoEffect
  intro id c s begins target fields
  have run : exec (.nop id) s = .next (finish id .success 0 0 false (beginCmd id c s)) :=
    (exec_nop id s).trans (execNop_of_begins begins target fields)
  have k := finish_beginCmd_done id c .success 0 0 false s
  exact ⟨run, _, run, k.bed, k.guard, k.elog, k.health, k.otp, k.cages, k.lanes, k.ports, k.buf, k.sched, k.tbl, k.mem, k.tim, k.boot, k.retn,
    k.dac, k.adc, k.rep, k.link⟩

end Sys2Proof.Machine
end

section
/-! PROOFS. PAD_RELEASE ends the hold of the cage group and lets its 32 cages resume; nothing that a resuming cage does reaches the Bedrock
state, the DACs or the guard (R432, R165, R491). -/
namespace Sys2Proof.Machine

/-- `t` has the Bedrock state, the DACs and the guard of `s`: an operation on cages, ports and lanes changes none of them. -/
structure CageFrame (s t : State) : Prop where
  /-- Kept. -/
  bed : t.bed = s.bed
  /-- Kept. -/
  dac : t.dac = s.dac
  /-- Kept. -/
  guard : t.guard = s.guard

theorem CageFrame.refl (s : State) : CageFrame s s := ⟨rfl, rfl, rfl⟩

theorem CageFrame.trans {s t u : State} (h : CageFrame s t) (k : CageFrame t u) : CageFrame s u :=
  ⟨k.bed.trans h.bed, k.dac.trans h.dac, k.guard.trans h.guard⟩

theorem DoneKeeps.cageFrame {s t : State} (h : DoneKeeps s t) : CageFrame s t := ⟨h.bed, h.dac, h.guard⟩

theorem forEach_cageFrame {f : Nat → State → State} (hf : ∀ n s, CageFrame s (f n s)) (l : List Nat) (s : State) :
    CageFrame s (forEach l f s) := by
  induction l generalizing s with
  | nil => exact .refl s
  | cons n l ih => exact (hf n s).trans (ih (f n s))

theorem modLane_cageFrame (n : Nat) (f : Lane → Lane) (s : State) : CageFrame s (modLane n f s) := ⟨rfl, rfl, rfl⟩

theorem modCage_cageFrame (n : Nat) (f : Cage → Cage) (s : State) : CageFrame s (modCage n f s) := ⟨rfl, rfl, rfl⟩

theorem modPort_cageFrame (p : Nat) (f : Port → Port) (s : State) : CageFrame s (modPort p f s) := by
  unfold modPort
  split
  · exact .refl s
  · exact ⟨rfl, rfl, rfl⟩

theorem laneRampUp_cageFrame (n : Nat) (s : State) : CageFrame s (laneRampUp n s) := by
  unfold laneRampUp
  dsimp only
  split
  · exact .refl s
  · cases (lane s n).tx with
    | rampUp | transmitting => exact .refl s
    | rampDown | hiZ | muted | stopping => exact modLane_cageFrame n _ s

theorem laneRampDown_cageFrame (n : Nat) (stop : Bool) (s : State) : CageFrame s (laneRampDown n stop s) := by
  unfold laneRampDown
  dsimp only
  cases (lane s n).tx with
  | hiZ | stopping => exact .refl s
  | rampDown | rampUp | transmitting => exact modLane_cageFrame n _ s
  | muted =>
    cases stop with
    | false => exact .refl s
    | true => exact modLane_cageFrame n _ s

/-- A fault reaches the cage's lanes and ports, posts an event, and ends the commands that waited for the module (Table 6.8). -/
theorem cageFault_cageFrame (n cause : Nat) (s : State) : CageFrame s (cageFault n cause s) := by
  unfold cageFault
  dsimp only
  split
  · exact (modCage_cageFrame n _ s).trans (finishAll_done _ _ _ _).cageFrame
  · refine .trans ?_ (finishAll_done _ _ _ _).cageFrame
    refine .trans ?_ (post_keeps _ _ _ _ _).done.cageFrame
    refine .trans ?_ (modCage_cageFrame n _ _)
    refine .trans ?_ (forEach_cageFrame (fun p => modPort_cageFrame p _) _ _)
    exact forEach_cageFrame (fun k => laneRampDown_cageFrame k true) _ s

theorem dpRamped_cageFrame (p : Nat) (s : State) : CageFrame s (dpRamped p s) :=
  (modPort_cageFrame p _ s).trans (modCage_cageFrame _ _ _)

theorem dpStart_cageFrame (p : Nat) (s : State) : CageFrame s (dpStart p s) := by
  unfold dpStart
  split
  · exact .refl s
  · dsimp only
    split
    · have ramps := (modPort_cageFrame p (fun q => { q with dp := .ramping }) s).trans
        (forEach_cageFrame laneRampUp_cageFrame (portLanes (modPort p (fun q => { q with dp := .ramping }) s) p) _)
      split
      · exact ramps.trans (dpRamped_cageFrame p _)
      · exact ramps
    · exact .refl s

theorem cageWriteApps_cageFrame (n : Nat) (ps : List Nat) (s : State) : CageFrame s (cageWriteApps n ps s) := by
  unfold cageWriteApps
  dsimp only
  split
  · exact .refl s
  · split
    · exact modCage_cageFrame n _ s
    · exact cageFault_cageFrame n 3 s

theorem cageLowPower_cageFrame (n : Nat) (s : State) : CageFrame s (cageLowPower n s) := by
  unfold cageLowPower
  dsimp only
  split
  · exact .refl s
  · split
    · exact .refl s
    · split
      · exact cageFault_cageFrame n 2 s
      · split
        · exact .refl s
        · have apps := cageWriteApps_cageFrame n (cagePorts s n) s
          split
          · exact apps.trans (modCage_cageFrame n _ _)
          · exact apps

/-- A cage that resumes writes the applications of its ports, if it has any. -/
theorem resumedApps_cageFrame (n : Nat) (s : State) :
    CageFrame s (if cagePorts s n = [] then s else cageWriteApps n (cagePorts s n) s) := by
  split
  · exact .refl s
  · exact cageWriteApps_cageFrame n _ s

/-- Whatever a cage's module reports, the cage that resumes changes no more than its own levels, its lanes and its ports (R165). -/
theorem cageResume_cageFrame (mods : List ModReport) (n : Nat) (s : State) : CageFrame s (cageResume mods n s) := by
  unfold cageResume
  split
  · exact modCage_cageFrame n _ s
  · next m _ =>
    refine (modCage_cageFrame n (fun g => cageFrom g m) s).trans ?_
    generalize modCage n (fun g => cageFrom g m) s = t
    dsimp only
    split
    · exact cageFault_cageFrame n 7 t
    · split
      · exact cageLowPower_cageFrame n t
      · exact resumedApps_cageFrame n t
      · exact (resumedApps_cageFrame n t).trans (forEach_cageFrame dpStart_cageFrame _ _)
      · exact .refl t

/-- The cage blocks take over the held levels of all 32 cages. -/
def takeHold (mods : List ModReport) (s : State) : State :=
  forEach (List.range 32) (cageResume mods) (s.mapBed fun b => { b with cageHeld := false })

/-- Taking over the held levels ends the hold and changes nothing else of the Bedrock state, nor the DACs or the guard. -/
theorem takeHold_cageFrame (mods : List ModReport) (s : State) :
    CageFrame (s.mapBed fun b => { b with cageHeld := false }) (takeHold mods s) :=
  forEach_cageFrame (cageResume_cageFrame mods) _ _

theorem exec_padRelease (id : Nat) (mods : List ModReport) (s : State) : exec (.padRelease id mods) s = execPadRelease id mods s := rfl

@[simp] theorem plainBad_begun (c : Cmd) (s : State) (last n : Nat) : plainBad (c.begun s) last n = plainBad c last n := rfl

/-- A PAD_RELEASE without a reserved bit takes over the held levels exactly when it names a group that is held (R432). -/
theorem padRelease_does {id : Nat} {mods : List ModReport} {c : Cmd} {s : State} (begins : Begins s id 0x91 c)
    (plain : plainBad c 0 1 = false) (reserved : c.byte 32 ≤ 1) :
    Does (.padRelease id mods) id c s 0 0 fun x => if bitOf (c.byte 32) 0 && s.bed.cageHeld then takeHold mods x else x := by
  have passed : firstFail [(plainBad (c.begun s) 0 1 || decide (1 < (c.begun s).byte 32), Status.invalidField)] = none := by
    simp [plain, Nat.not_lt.mpr reserved]
  exact congrArg _ (runCmd_of_passed_checks (r := .ok _) begins passed (apply_ite Ran.ok _ _ _).symm rfl)

/-- A PAD_RELEASE with a reserved bit of byte 32 completes INVALID_FIELD (R17). -/
theorem exec_padRelease_of_reserved {id : Nat} {mods : List ModReport} {c : Cmd} {s : State} (begins : Begins s id 0x91 c)
    (reserved : 1 < c.byte 32) : exec (.padRelease id mods) s = .next (finishFail id .invalidField (beginCmd id c s)) := by
  obtain ⟨may, _⟩ := begins
  rw [exec_padRelease]
  exact congrArg _ (runCmd_of_failed_check may (by simp [reserved]))

/-- Settles O55: the hold is taken exactly when it is named and held, and what the 32 cages do as they resume keeps it ended. -/
theorem padReleaseTakesTheHold : Obligations.PadReleaseTakesTheHold := by
  unfold Obligations.PadReleaseTakesTheHold
  refine ⟨fun id mods c s begins plain named held => ?_, fun id mods c s begins plain idle => ?_,
    fun id mods c s begins reserved => exec_padRelease_of_reserved begins reserved⟩
  · have run : Does (.padRelease id mods) id c s 0 0 (takeHold mods) := by
      simpa [named, held, bitOf] using padRelease_does (mods := mods) begins plain (by omega)
    have done := (finish_done id .success 0 0 true (takeHold mods (beginCmd id c s))).cageFrame
    obtain ⟨bed, dac, guard⟩ := (takeHold_cageFrame mods (beginCmd id c s)).trans done
    exact ⟨run, _, run, by rw [bed]; rfl, dac, guard⟩
  · obtain unnamed | ⟨named, free⟩ := idle
    · simpa [unnamed, bitOf] using padRelease_does (mods := mods) begins plain (by omega)
    · simpa [free] using padRelease_does (mods := mods) begins plain (by omega)

end Sys2Proof.Machine
end

section
/-! PROOFS. The vital part of a state: what the three statements about every step are about. -/
namespace Sys2Proof.Machine

/-- What the device may not lose or leave its bounds in: the error log, board OTP, the bytes of every memory region, NANOSECONDS, the set
points of AVSBus, and the management address. -/
structure Vital where
  /-- The error log. -/
  elog : Elog
  /-- Board OTP. -/
  otp : Memory
  /-- The bytes of each region. -/
  cells : List Memory
  /-- NANOSECONDS. -/
  ns : Nat
  /-- The set points: acknowledged, requested, previous. -/
  points : Nat × Nat × Nat
  /-- The set point to be tried again. -/
  retry : Option Nat
  /-- The management address. -/
  addr : Nat

/-- The vital part of a state. -/
def vital (s : State) : Vital where
  elog := s.elog
  otp := s.otp.bytes
  cells := s.mem.regions.map fun r => r.2.cells
  ns := s.tim.ns
  points := (s.bed.avsSet, s.bed.avsReq, s.bed.avsPrev)
  retry := s.bed.avsRetry
  addr := s.mgmt.addr

@[simp] theorem vital_ite {c : Prop} [Decidable c] (a b : State) :
    vital (if c then a else b) = if c then vital a else vital b := apply_ite vital c a b

@[simp] theorem ite_state {c : Prop} [Decidable c] (a b : Ran) : (if c then a else b).s = if c then a.s else b.s := apply_ite Ran.s c a b

@[simp] theorem vital_with_queue (s : State) (q : List Instr) : vital { s with pending := q } = vital s := (rfl)

@[simp] theorem vital_foldl {α : Type} {f : State → α → State} (still : ∀ s a, vital (f s a) = vital s) (l : List α) (s : State) :
    vital (l.foldl f s) = vital s := by
  induction l generalizing s with
  | nil => rfl
  | cons a l ih => exact (ih (f s a)).trans (still s a)



theorem PostKeeps.vital {s t : State} (h : PostKeeps s t) : vital t = vital s := by
  simp only [Machine.vital, h.elog, h.otp, h.mem, h.tim, h.bed, h.mgmt]

theorem DoneKeeps.vital {s t : State} (h : DoneKeeps s t) : vital t = vital s := by
  simp only [Machine.vital, h.elog, h.otp, h.mem, h.tim, h.bed, h.mgmt]

theorem CauseKeeps.vital {s t : State} (h : CauseKeeps s t) : vital t = vital s := by
  rw [Machine.vital, Machine.vital, h.elog, h.otp, h.mem, h.tim, h.bed, h.mgmt]
@[simp] theorem vital_mapHealth (f : Health → Health) (s : State) : vital (s.mapHealth f) = vital s := (rfl)
@[simp] theorem vital_mapGuard (f : Guard → Guard) (s : State) : vital (s.mapGuard f) = vital s := (rfl)
@[simp] theorem vital_mapDac (f : DacBank → DacBank) (s : State) : vital (s.mapDac f) = vital s := (rfl)
@[simp] theorem vital_mapFuse (f : Fuse → Fuse) (s : State) : vital (s.mapFuse f) = vital s := (rfl)
@[simp] theorem vital_mapRep (f : Repair → Repair) (s : State) : vital (s.mapRep f) = vital s := (rfl)
@[simp] theorem vital_mapBoot (f : Boot → Boot) (s : State) : vital (s.mapBoot f) = vital s := (rfl)
@[simp] theorem vital_mapHreg (f : Hreg → Hreg) (s : State) : vital (s.mapHreg f) = vital s := (rfl)
@[simp] theorem vital_mapHif (f : Hif → Hif) (s : State) : vital (s.mapHif f) = vital s := (rfl)
@[simp] theorem vital_mapFl (f : Flight → Flight) (s : State) : vital (s.mapFl f) = vital s := (rfl)
@[simp] theorem vital_mapLanes (f : LaneBank → LaneBank) (s : State) : vital (s.mapLanes f) = vital s := (rfl)
@[simp] theorem vital_mapCages (f : CageBank → CageBank) (s : State) : vital (s.mapCages f) = vital s := (rfl)
@[simp] theorem vital_mapPorts (f : PortBank → PortBank) (s : State) : vital (s.mapPorts f) = vital s := (rfl)
@[simp] theorem vital_mapRetn (f : Retain → Retain) (s : State) : vital (s.mapRetn f) = vital s := (rfl)
@[simp] theorem vital_mapGar (f : Garnet → Garnet) (s : State) : vital (s.mapGar f) = vital s := (rfl)
@[simp] theorem vital_mapBuf (f : Buffer → Buffer) (s : State) : vital (s.mapBuf f) = vital s := (rfl)
@[simp] theorem vital_mapSched (f : Sched → Sched) (s : State) : vital (s.mapSched f) = vital s := (rfl)
@[simp] theorem vital_mapTbl (f : Tables → Tables) (s : State) : vital (s.mapTbl f) = vital s := (rfl)
@[simp] theorem vital_mapObs (f : Obs → Obs) (s : State) : vital (s.mapObs f) = vital s := (rfl)
@[simp] theorem vital_mapGeo (f : Geode → Geode) (s : State) : vital (s.mapGeo f) = vital s := (rfl)
@[simp] theorem vital_mapAdc (f : Adc → Adc) (s : State) : vital (s.mapAdc f) = vital s := (rfl)

@[simp] theorem vital_mapMem {f : Mem → Mem} {s : State} (same : ((f s.mem).regions.map fun r => r.2.cells) = s.mem.regions.map fun r => r.2.cells) :
    vital (s.mapMem f) = vital s := by
  simp [vital, same]

@[simp] theorem vital_mapTim {f : Tim → Tim} {s : State} (same : (f s.tim).ns = s.tim.ns) : vital (s.mapTim f) = vital s := by
  simp [vital, same]

@[simp] theorem vital_mapMgmt {f : Mgmt → Mgmt} {s : State} (same : (f s.mgmt).addr = s.mgmt.addr) : vital (s.mapMgmt f) = vital s := by
  simp [vital, same]

@[simp] theorem vital_mapOtp {f : Otp → Otp} {s : State} (same : (f s.otp).bytes = s.otp.bytes) : vital (s.mapOtp f) = vital s := by
  simp [vital, same]

@[simp] theorem vital_mapBed {f : Bed → Bed} {s : State} (set : (f s.bed).avsSet = s.bed.avsSet) (req : (f s.bed).avsReq = s.bed.avsReq)
    (prev : (f s.bed).avsPrev = s.bed.avsPrev) (retry : (f s.bed).avsRetry = s.bed.avsRetry) : vital (s.mapBed f) = vital s := by
  simp [vital, set, req, prev, retry]

@[simp] theorem vital_tick (s : State) : vital s.tick = vital s := (rfl)

@[simp] theorem Ran.fail_s (st : Status) (s : State) : (Ran.fail st s).s = s := rfl

@[simp] theorem Ran.ok_s (s : State) : (Ran.ok s).s = s := rfl

end Sys2Proof.Machine
end

section
/-! PROOFS. The operations and commands that leave the vital part as it is. -/
namespace Sys2Proof.Machine

@[simp] theorem vital_freeBytes (n : Nat) (s : State) : vital (freeBytes n s).2 = vital s := (rfl)

theorem vital_execBedrockClkCheck (edges : Nat) (s : State) {t : State} (h : execBedrockClkCheck edges s = .next t) : vital t = vital s := by
  cases h
  simp

@[simp] theorem vital_clkreqOn (s : State) : vital (clkreqOn s) = vital s := by
  simp [clkreqOn]

@[simp] theorem vital_spareRowsIn (s : State) : vital (spareRowsIn s) = vital s := by
  simp [spareRowsIn]

@[simp] theorem vital_startDevice (s : State) : vital (startDevice s) = vital s := by
  simp [startDevice]

@[simp] theorem vital_tryStart (s : State) : vital (tryStart s) = vital s := by
  simp [tryStart]

theorem vital_execBedrockUp (temps : List (Nat × Int)) (s : State) {t : State} (h : execBedrockUp temps s = .next t) : vital t = vital s := by
  cases h
  simp

@[simp] theorem vital_otpDetach (s : State) : vital (otpDetach s) = vital s := by
  simp [otpDetach]

@[simp] theorem vital_guardRestore (s : State) : vital (guardRestore s) = vital s := by
  simp [guardRestore]

@[simp] theorem vital_geodePush (b : List Byte) (s : State) : vital (geodePush b s) = vital s := (rfl)

@[simp] theorem vital_mirrorDrain (n : Nat) (s : State) : vital (mirrorDrain n s) = vital s := (mirrorDrain_done n s).vital

@[simp] theorem vital_mirrorPush (k num : Nat) (b : List Byte) (s : State) : vital (mirrorPush k num b s) = vital s := by
  simp [mirrorPush]

@[simp] theorem vital_mirrorConfig (op target : Nat) (inl data : List Byte) (s : State) : vital (mirrorConfig op target inl data s) = vital s := by
  simp [mirrorConfig]

@[simp] theorem vital_mirrorCmd (c : Cmd) (st : Status) (s : State) : vital (mirrorCmd c st s) = vital s := by
  simp [mirrorCmd]

@[simp] theorem vital_profEvent (ev inst n : Nat) (s : State) : vital (profEvent ev inst n s) = vital s := by
  simp [profEvent]

@[simp] theorem vital_loseEvent (s : State) : vital (loseEvent s) = vital s := by
  simp [loseEvent]

@[simp] theorem vital_hostWrite (addr : Nat) (bytes : List Byte) (s : State) : vital (hostWrite addr bytes s) = vital s := (rfl)

@[simp] theorem vital_msixFire (v : Nat) (s : State) : vital (msixFire v s) = vital s := by
  simp [msixFire]

@[simp] theorem vital_msixCount (v count n : Nat) (s : State) : vital (msixCount v count n s) = vital s := by
  simp [msixCount]

@[simp] theorem vital_evqWrite (e : Event) (s : State) : vital (evqWrite e s) = vital s := by
  simp [evqWrite]

@[simp] theorem vital_evqDrain (l : List Event) (s : State) : vital (evqDrain l s).2 = vital s := (evqDrain_keeps l s).vital

@[simp] theorem vital_setHifErr (bits : BitVec 7) (s : State) : vital (setHifErr bits s) = vital s := by
  simp [setHifErr]

@[simp] theorem vital_deliverEvents (s : State) : vital (deliverEvents s) = vital s := (deliverEvents_keeps s).vital

@[simp] theorem vital_postEvent (e : Event) (s : State) : vital (postEvent e s) = vital s := (postEvent_keeps e s).vital

@[simp] theorem vital_post (code sev obj detail : Nat) (s : State) : vital (post code sev obj detail s) = vital s := by
  simp [post]

@[simp] theorem vital_ringError (r c : Nat) (s : State) : vital (ringError r c s) = vital s := (ringError_keeps r c s).vital

@[simp] theorem vital_writeCompletion (c : Completion) (s : State) : vital (writeCompletion c s) = vital s := (writeCompletion_keeps c s).vital

@[simp] theorem vital_finishOne (id : Nat) (st : Status) (r0 r1 : BitVec 64) (eff : Bool) (s : State) :
    vital (finishOne id st r0 r1 eff s) = vital s := (finishOne_done id st r0 r1 eff s).vital

@[simp] theorem vital_settleDeletes (n : Nat) (s : State) : vital (settleDeletes n s) = vital s := (settleDeletes_done n s).vital

@[simp] theorem vital_finish (id : Nat) (st : Status) (r0 r1 : BitVec 64) (eff : Bool) (s : State) :
    vital (finish id st r0 r1 eff s) = vital s := (finish_done id st r0 r1 eff s).vital

@[simp] theorem vital_endProposal (i : Nat) (st : Status) (s : State) : vital (endProposal i st s) = vital s := (endProposal_cause i st s).vital

@[simp] theorem vital_abortProposals (s : State) : vital (abortProposals s) = vital s := (abortProposals_cause s).vital

@[simp] theorem vital_setCauses (c : BitVec 12) (s : State) : vital (setCauses c s) = vital s := (setCauses_cause c s).vital

@[simp] theorem vital_clearCause (i : Nat) (s : State) : vital (clearCause i s) = vital s := by
  simp [clearCause]

@[simp] theorem vital_forEach {f : Nat → State → State} (still : ∀ n s, vital (f n s) = vital s) (l : List Nat) (s : State) :
    vital (forEach l f s) = vital s :=
  vital_foldl (fun s n => still n s) l s

@[simp] theorem vital_modLink (n : Nat) (f : Link → Link) (s : State) : vital (modLink n f s) = vital s := by
  simp [modLink]

@[simp] theorem vital_modPair (n i : Nat) (f : Pair → Pair) (s : State) : vital (modPair n i f s) = vital s := by
  simp [modPair]

@[simp] theorem vital_drawNonce (s : State) : vital (drawNonce s).2 = vital s := by
  simp [drawNonce]

@[simp] theorem vital_pairCount (n i k a : Nat) (s : State) : vital (pairCount n i k a s) = vital s := by
  simp [pairCount]

@[simp] theorem vital_sleepBank (n i : Nat) (s : State) : vital (sleepBank n i s) = vital s := by
  simp [sleepBank]

@[simp] theorem vital_pairPage (n i : Nat) (s : State) : vital (pairPage n i s) = vital s := by
  simp [pairPage]

@[simp] theorem vital_linkStart (n : Nat) (s : State) : vital (linkStart n s) = vital s := by
  simp [linkStart]

@[simp] theorem vital_garnetCauses (s : State) : vital (garnetCauses s) = vital s := by
  simp [garnetCauses]

@[simp] theorem vital_unfailPairs (n : Nat) (s : State) : vital (unfailPairs n s) = vital s := by
  simp [unfailPairs]

@[simp] theorem vital_linksStart (s : State) : vital (linksStart s) = vital s := by
  simp [linksStart]

@[simp] theorem vital_modStack (m : Nat) (f : Stack → Stack) (s : State) : vital (modStack m f s) = vital s := by
  simp [modStack]

@[simp] theorem vital_setCause (i : Nat) (s : State) : vital (setCause i s) = vital s := by
  simp [setCause]

@[simp] theorem vital_putCause (i : Nat) (on : Bool) (s : State) : vital (putCause i on s) = vital s := by
  simp [putCause]

@[simp] theorem vital_repairCause (s : State) : vital (repairCause s) = vital s := by
  simp [repairCause]

@[simp] theorem vital_softAgain (m : Nat) (s : State) : vital (softAgain m s) = vital s := by
  simp [softAgain]

@[simp] theorem vital_modLane (n : Nat) (f : Lane → Lane) (s : State) : vital (modLane n f s) = vital s := by
  simp [modLane]

@[simp] theorem vital_laneUpdate (n : Nat) (m : LaneMeas) (s : State) : vital (laneUpdate n m s) = vital s := by
  simp [laneUpdate]

@[simp] theorem vital_pairAdapt (n i : Nat) (m : PairMeas) (s : State) : vital (pairAdapt n i m s) = vital s := by
  simp [pairAdapt]

@[simp] theorem vital_reachedNow (ms : List (Nat × LaneMeas)) (ps : List (Nat × PairMeas)) (s : State) : vital (reachedNow ms ps s) = vital s := by
  simp [reachedNow]

@[simp] theorem vital_modCmd (id : Nat) (f : Cmd → Cmd) (s : State) : vital (modCmd id f s) = vital s := by
  unfold modCmd
  split <;> simp

@[simp] theorem vital_deferCommits (s : State) : vital (deferCommits s) = vital s := by
  simp [deferCommits]

theorem vital_execBrownoutWarning (uv : Nat) (ms : List (Nat × LaneMeas)) (ps : List (Nat × PairMeas)) (s : State)
    {t : State} (h : execBrownoutWarning uv ms ps s = .next t) : vital t = vital s := by
  cases h
  simp

@[simp] theorem vital_refreshStart (n i : Nat) (s : State) : vital (refreshStart n i s) = vital s := by
  simp [refreshStart]

@[simp] theorem vital_refreshDeferred (s : State) : vital (refreshDeferred s) = vital s := by
  simp [refreshDeferred]

theorem vital_execBrownoutRecovery (uv core : Nat) (s : State) {t : State} (h : execBrownoutRecovery uv core s = .next t) : vital t = vital s := by
  cases h
  simp

@[simp] theorem vital_railOff (r : Nat) (s : State) : vital (railOff r s) = vital s := by
  simp [railOff]

@[simp] theorem vital_retainLoss (r : Nat) (s : State) : vital (retainLoss r s) = vital s := by
  simp [retainLoss]

@[simp] theorem vital_coreRestart (s : State) : vital (coreRestart s) = vital s := by
  simp [coreRestart]

theorem vital_execCoreResetRestart (s : State) {t : State} (h : execCoreResetRestart s = .next t) : vital t = vital s := by
  cases h
  simp

@[simp] theorem vital_laneCauses (s : State) : vital (laneCauses s) = vital s := by
  simp [laneCauses]

@[simp] theorem vital_squelchSynce (n : Nat) (s : State) : vital (squelchSynce n s) = vital s := by
  simp [squelchSynce]

@[simp] theorem vital_modPort (p : Nat) (f : Port → Port) (s : State) : vital (modPort p f s) = vital s := by
  unfold modPort
  split <;> simp

@[simp] theorem vital_portCount (p k n : Nat) (s : State) : vital (portCount p k n s) = vital s := by
  simp [portCount]

@[simp] theorem vital_portDown (p detail : Nat) (s : State) : vital (portDown p detail s) = vital s := by
  simp [portDown]

@[simp] theorem vital_portLaneLost (n : Nat) (s : State) : vital (portLaneLost n s) = vital s := by
  simp [portLaneLost]
  (repeat' split) <;> simp

@[simp] theorem vital_laneCold (n : Nat) (s : State) : vital (laneCold n s) = vital s := by
  simp [laneCold]

@[simp] theorem vital_stopCal (n : Nat) (s : State) : vital (stopCal n s) = vital s := by
  unfold stopCal
  dsimp only
  (repeat' split) <;> simp

@[simp] theorem vital_cmdLaneDone (op n : Nat) (s : State) : vital (cmdLaneDone op n s) = vital s := by
  refine vital_forEach (fun id s => ?_) _ s
  dsimp only
  split
  · simp
  · split <;> simp

@[simp] theorem vital_modCage (c : Nat) (f : Cage → Cage) (s : State) : vital (modCage c f s) = vital s := by
  simp [modCage]

@[simp] theorem vital_finishAll (ids : List Nat) (st : Status) (eff : Bool) (s : State) : vital (finishAll ids st eff s) = vital s := by
  simp [finishAll]

@[simp] theorem vital_laneRampDown (n : Nat) (stop : Bool) (s : State) : vital (laneRampDown n stop s) = vital s := by
  simp [laneRampDown]
  split <;> simp

@[simp] theorem vital_cageFault (c cause : Nat) (s : State) : vital (cageFault c cause s) = vital s := by
  simp [cageFault]

@[simp] theorem vital_cageWriteApps (c : Nat) (ps : List Nat) (s : State) : vital (cageWriteApps c ps s) = vital s := by
  simp [cageWriteApps]
  split <;> simp

@[simp] theorem vital_cageLowPower (c : Nat) (s : State) : vital (cageLowPower c s) = vital s := by
  simp [cageLowPower]
  split <;> simp

@[simp] theorem vital_mediaSettle (c : Nat) (s : State) : vital (mediaSettle c s) = vital s := by
  unfold mediaSettle
  split <;> simp

@[simp] theorem vital_laneGate (n : Nat) (s : State) : vital (laneGate n s) = vital s := by
  simp [laneGate]

@[simp] theorem vital_cageTryPowerUp (c : Nat) (s : State) : vital (cageTryPowerUp c s) = vital s := by
  simp [cageTryPowerUp]

@[simp] theorem vital_cageIdle (c : Nat) (s : State) : vital (cageIdle c s) = vital s := by
  simp [cageIdle]

@[simp] theorem vital_portDeleteSettle (p : Nat) (s : State) : vital (portDeleteSettle p s) = vital s := by
  unfold portDeleteSettle
  split
  · rfl
  · split <;> simp

@[simp] theorem vital_laneStop (n : Nat) (s : State) : vital (laneStop n s) = vital s := by
  simp [laneStop]
  split <;> simp

@[simp] theorem vital_lanesStop (l : List Nat) (s : State) : vital (lanesStop l s) = vital s := by
  simp [lanesStop]

@[simp] theorem vital_linkCount (n k a : Nat) (s : State) : vital (linkCount n k a s) = vital s := by
  simp [linkCount]

@[simp] theorem vital_traceLose (s : State) : vital (traceLose s) = vital s := by
  simp [traceLose]

@[simp] theorem vital_traceWrite (t : Option Trace) (cause : Nat) (s : State) : vital (traceWrite t cause s) = vital s := by
  unfold traceWrite
  dsimp only
  (repeat' split) <;> simp

@[simp] theorem vital_modQueue (eg : Bool) (q : Nat) (f : Queue → Queue) (s : State) : vital (modQueue eg q f s) = vital s := by
  unfold modQueue
  split <;> simp

@[simp] theorem vital_markHead (eg : Bool) (q : Nat) (s : State) : vital (markHead eg q s) = vital s := by
  simp [markHead]

@[simp] theorem vital_requestQueue (eg : Bool) (q : Nat) (s : State) : vital (requestQueue eg q s) = vital s := by
  unfold requestQueue
  split <;> simp

@[simp] theorem vital_requestAll (s : State) : vital (requestAll s) = vital s := by
  simp [requestAll]

@[simp] theorem vital_popHead (eg : Bool) (q : Nat) (s : State) : vital (popHead eg q s) = vital s := by
  simp [popHead]

@[simp] theorem vital_txDone (n : Nat) (s : State) : vital (txDone n s) = vital s := by
  unfold txDone
  split <;> simp

@[simp] theorem vital_protoEnd (n reason : Nat) (s : State) : vital (protoEnd n reason s) = vital s := by
  unfold protoEnd
  dsimp only
  split
  · rfl
  · split
    · simp
    · split <;> simp

@[simp] theorem vital_linkClear (lost : Bool) (n reason : Nat) (s : State) : vital (linkClear lost n reason s) = vital s := by
  simp [linkClear]

@[simp] theorem vital_abortPairCmds (n : Nat) (s : State) : vital (abortPairCmds n s) = vital s := by
  simp [abortPairCmds]

@[simp] theorem vital_linksStop (reason : Nat) (s : State) : vital (linksStop reason s) = vital s := by
  simp [linksStop]

@[simp] theorem vital_cagesStop (s : State) : vital (cagesStop s) = vital s := by
  simp [cagesStop]

@[simp] theorem vital_railStop (rail : Nat) (s : State) : vital (railStop rail s) = vital s := by
  unfold railStop
  split
  · exact (vital_lanesStop _ _).trans (vital_mapTim rfl)
  · exact (vital_lanesStop _ _).trans (vital_mapTim rfl)
  · exact vital_linksStop 0 s
  · exact vital_cagesStop s
  · exact vital_mapBed rfl rfl rfl rfl

@[simp] theorem vital_recomputeTrims (n : Nat) (t : Int) (s : State) : vital (recomputeTrims n t s) = vital s := by
  simp [recomputeTrims]

@[simp] theorem vital_lanePower (n p mode : Nat) (loop : Bool) (s : State) : vital (lanePower n p mode loop s) = vital s := by
  simp [lanePower]

@[simp] theorem vital_laneRestart (n : Nat) (s : State) : vital (laneRestart n s) = vital s := by
  simp [laneRestart]
  split <;> simp

@[simp] theorem vital_modDac (m : Nat) (f : Dac → Dac) (s : State) : vital (modDac m f s) = vital s := by
  simp [modDac]

@[simp] theorem vital_dacApplyOtp (s : State) : vital (dacApplyOtp s) = vital s := by
  simp [dacApplyOtp]

@[simp] theorem vital_auxValidNow (s : State) : vital (auxValidNow s) = vital s := by
  simp [auxValidNow]

@[simp] theorem vital_railStart (rail : Nat) (s : State) : vital (railStart rail s) = vital s := by
  unfold railStart
  split <;> simp

@[simp] theorem vital_railOn (r : Nat) (s : State) : vital (railOn r s) = vital s := by
  simp [railOn]

theorem vital_execGroupCRailReturn (rail : Nat) (s : State) {t : State} (h : execGroupCRailReturn rail s = .next t) : vital t = vital s := by
  cases h
  simp

theorem vital_execVddioAuxValid (s : State) {t : State} (h : execVddioAuxValid s = .next t) : vital t = vital s := by
  cases h
  simp

@[simp] theorem vital_hifReset (s : State) : vital (hifReset s) = vital s := by
  simp [hifReset]

@[simp] theorem vital_pcieDown (s : State) : vital (pcieDown s) = vital s := by
  simp [pcieDown]

theorem vital_execRefclkReturn (clk : Nat) (s : State) {t : State} (h : execRefclkReturn clk s = .next t) : vital t = vital s := by
  cases h
  simp

@[simp] theorem vital_linkOff (n reason : Nat) (s : State) : vital (linkOff n reason s) = vital s := by
  simp [linkOff]

@[simp] theorem vital_linkRestart (n reason : Nat) (s : State) : vital (linkRestart n reason s) = vital s := by
  simp [linkRestart]

@[simp] theorem vital_hbmRestart (m : Nat) (s : State) : vital (hbmRestart m s) = vital s := by
  simp [hbmRestart]

@[simp] theorem vital_voltageFail (s : State) : vital (voltageFail s) = vital s := by
  simp [voltageFail]

@[simp] theorem vital_laneCount (n k a : Nat) (s : State) : vital (laneCount n k a s) = vital s := by
  simp [laneCount]

@[simp] theorem vital_losDeclare (n cause : Nat) (s : State) : vital (losDeclare n cause s) = vital s := by
  simp [losDeclare]

@[simp] theorem vital_calStart (n : Nat) (m : LaneMeas) (s : State) : vital (calStart n m s) = vital s := by
  simp [calStart]

theorem vital_execCalibrationSlotStart (m : LaneMeas) (s : State) {t : State} (h : execCalibrationSlotStart m s = .next t) : vital t = vital s := by
  cases h
  split <;> simp

@[simp] theorem vital_laneRampUp (n : Nat) (s : State) : vital (laneRampUp n s) = vital s := by
  simp [laneRampUp]
  split <;> simp

@[simp] theorem vital_dpRamped (p : Nat) (s : State) : vital (dpRamped p s) = vital s := by
  simp [dpRamped]

@[simp] theorem vital_dpStart (p : Nat) (s : State) : vital (dpStart p s) = vital s := by
  unfold dpStart
  split <;> simp

@[simp] theorem vital_laneReadyHook (n : Nat) (s : State) : vital (laneReadyHook n s) = vital s := by
  simp [laneReadyHook]
  split <;> simp

@[simp] theorem vital_calFinish (n result : Nat) (s : State) : vital (calFinish n result s) = vital s := by
  simp [calFinish]
  split <;> simp

@[simp] theorem vital_acceptSlices (n : Nat) (is : List Nat) (v : Nat → Verdict) (s : State) : vital (acceptSlices n is v s) = vital s := by
  refine vital_forEach (fun i t => ?_) _ s
  split
  · split <;> simp
  · rfl

@[simp] theorem vital_withdrawLane (n b : Nat) (s : State) : vital (withdrawLane n b s) = vital s := by
  simp [withdrawLane]

@[simp] theorem vital_markFaulty (n i : Nat) (s : State) : vital (markFaulty n i s) = vital s := by
  simp [markFaulty]
  split <;> simp

theorem vital_execForegroundRunEnd (lane' : Nat) (meas : List Meas) (t0 t1 : Int) (own : Nat) (s : State) {t : State}
    (h : execForegroundRunEnd lane' meas t0 t1 own s = .next t) : vital t = vital s := by
  cases h
  split
  · rfl
  · split
    · rfl
    · dsimp only
      split
      · simp
      · simp
      · split
        · simp
        · split <;> simp

theorem vital_execCalRetry (lane' : Nat) (s : State) {t : State} (h : execCalRetry lane' s = .next t) : vital t = vital s := by
  cases h
  split <;> simp

@[simp] theorem vital_readSensor (k : Nat) (reading : Option Int) (s : State) : vital (readSensor k reading s) = vital s := by
  unfold readSensor
  split <;> simp

theorem vital_execTrimUpdate (lane' : Nat) (reading : Option Int) (s : State) {t : State} (h : execTrimUpdate lane' reading s = .next t) :
    vital t = vital s := by
  cases h
  simp

theorem vital_execRotationStepStart (lane' : Nat) (s : State) {t : State} (h : execRotationStepStart lane' s = .next t) : vital t = vital s := by
  cases h
  dsimp only
  (repeat' split) <;> simp

@[simp] theorem vital_bgReject (n i : Nat) (s : State) : vital (bgReject n i s) = vital s := by
  simp [bgReject]

@[simp] theorem vital_bgAccept (n i : Nat) (d : Trim) (s : State) : vital (bgAccept n i d s) = vital s := by
  simp [bgAccept]

@[simp] theorem vital_bgMeasured (n i : Nat) (skewOnly : Bool) (runs : List BgRun) (s : State) :
    vital (bgMeasured n i skewOnly runs s) = vital s := by
  unfold bgMeasured
  split <;> simp

theorem vital_execRotationShadowEnd (lane' : Nat) (runs : List BgRun) (s : State)
    {t : State} (h : execRotationShadowEnd lane' runs s = .next t) : vital t = vital s := by
  cases h
  split <;> simp

theorem vital_execStandbyMeasurementEnd (lane' : Nat) (runs : List BgRun) (s : State)
    {t : State} (h : execStandbyMeasurementEnd lane' runs s = .next t) : vital t = vital s := by
  cases h
  split <;> simp

theorem vital_execNoiseMeasurement (lane' ptot : Nat) (s : State) {t : State} (h : execNoiseMeasurement lane' ptot s = .next t) :
    vital t = vital s := by
  cases h
  simp

theorem vital_execSignalPresent (lane' rms : Nat) (s : State) {t : State} (h : execSignalPresent lane' rms s = .next t) : vital t = vital s := by
  cases h
  simp

theorem vital_execCtleSearchDone (lane' : Nat) (eyes : List Nat) (s : State) {t : State} (h : execCtleSearchDone lane' eyes s = .next t) :
    vital t = vital s := by
  cases h
  simp

theorem vital_execFreqLock (lane' : Nat) (freq : Int) (s : State) {t : State} (h : execFreqLock lane' freq s = .next t) : vital t = vital s := by
  cases h
  simp

theorem vital_execConvergeDone (lane' : Nat) (m : LaneMeas) (mse : List Int) (s : State)
    {t : State} (h : execConvergeDone lane' m mse s = .next t) : vital t = vital s := by
  cases h
  simp

@[simp] theorem vital_portTryAlign (p : Nat) (s : State) : vital (portTryAlign p s) = vital s := by
  unfold portTryAlign
  split <;> simp

@[simp] theorem vital_laneAcquired (n : Nat) (warm : Bool) (m : LaneMeas) (latency : Nat) (s : State) :
    vital (laneAcquired n warm m latency s) = vital s := by
  simp [laneAcquired]
  split <;> simp

theorem vital_execQualifyPass (lane' : Nat) (m : LaneMeas) (q : Qual) (latency : Nat) (s : State)
    {t : State} (h : execQualifyPass lane' m q latency s = .next t) : vital t = vital s := by
  cases h
  simp

@[simp] theorem vital_expire (n : Nat) (s : State) : vital (expire n s) = vital s := by
  simp [expire]

theorem vital_execQualifyWindowEnd (lane' : Nat) (s : State) {t : State} (h : execQualifyWindowEnd lane' s = .next t) : vital t = vital s := by
  cases h
  simp

theorem vital_execPhaseBudgetExpiry (lane' rms : Nat) (s : State) {t : State} (h : execPhaseBudgetExpiry lane' rms s = .next t) :
    vital t = vital s := by
  cases h
  simp

theorem vital_execAcqGapEnd (lane' : Nat) (s : State) {t : State} (h : execAcqGapEnd lane' s = .next t) : vital t = vital s := by
  cases h
  simp

theorem vital_execAmplitudeLoss (lane' rms : Nat) (m : LaneMeas) (s : State) {t : State} (h : execAmplitudeLoss lane' rms m s = .next t) :
    vital t = vital s := by
  cases h
  simp

theorem vital_execAmplitudeReturn (lane' rms bad : Nat) (s : State) {t : State} (h : execAmplitudeReturn lane' rms bad s = .next t) :
    vital t = vital s := by
  cases h
  simp
  split <;> simp

theorem vital_execLosPendingTimeout (lane' : Nat) (s : State) {t : State} (h : execLosPendingTimeout lane' s = .next t) : vital t = vital s := by
  cases h
  simp

theorem vital_execAlignmentLoss (lane' bad missing : Nat) (m : LaneMeas) (s : State)
    {t : State} (h : execAlignmentLoss lane' bad missing m s = .next t) : vital t = vital s := by
  cases h
  simp

theorem vital_execLosHeldTimeout (lane' : Nat) (s : State) {t : State} (h : execLosHeldTimeout lane' s = .next t) : vital t = vital s := by
  cases h
  simp

theorem vital_execWarmFreqCheck (lane' : Nat) (freq : Int) (s : State) {t : State} (h : execWarmFreqCheck lane' freq s = .next t) :
    vital t = vital s := by
  cases h
  simp

theorem vital_execWarmQualify (lane' : Nat) (m : LaneMeas) (q : Qual) (latency : Nat) (s : State)
    {t : State} (h : execWarmQualify lane' m q latency s = .next t) : vital t = vital s := by
  cases h
  simp

theorem vital_execWarmFailed (lane' : Nat) (s : State) {t : State} (h : execWarmFailed lane' s = .next t) : vital t = vital s := by
  cases h
  simp

theorem vital_execX200Fallback (lane' : Nat) (s : State) {t : State} (h : execX200Fallback lane' s = .next t) : vital t = vital s := by
  cases h
  split <;> simp

theorem vital_execX200RxAlternate (lane' : Nat) (s : State) {t : State} (h : execX200RxAlternate lane' s = .next t) : vital t = vital s := by
  cases h
  split <;> simp

theorem vital_execPortAlignLock (port : Nat) (s : State) {t : State} (h : execPortAlignLock port s = .next t) : vital t = vital s := by
  cases h
  split <;> simp

theorem vital_execPortAlignTimeout (port : Nat) (skew : Bool) (s : State) {t : State} (h : execPortAlignTimeout port skew s = .next t) :
    vital t = vital s := by
  cases h
  split <;> simp

theorem vital_execPortAlignmentLoss (port : Nat) (hiSer : Bool) (s : State) {t : State} (h : execPortAlignmentLoss port hiSer s = .next t) :
    vital t = vital s := by
  cases h
  simp

theorem vital_execRemoteFaultReceived (port columns : Nat) (s : State) {t : State} (h : execRemoteFaultReceived port columns s = .next t) :
    vital t = vital s := by
  cases h
  split <;> simp

theorem vital_execRemoteFaultClear (port : Nat) (s : State) {t : State} (h : execRemoteFaultClear port s = .next t) : vital t = vital s := by
  cases h
  simp

@[simp] theorem vital_windowLanes (ns : List Nat) (ls : List (List Nat)) (s : State) : vital (windowLanes ns ls s) = vital s := by
  induction ns generalizing ls s with
  | nil => rfl
  | cons n ns ih =>
    cases ls with
    | nil => rfl
    | cons l ls => exact (ih _ _).trans (by simp)

theorem vital_execFecDegradeWindow (port total corrected uncorrectable symbols errored : Nat) (lanes : List (List Nat)) (s : State)
    {t : State} (h : execFecDegradeWindow port total corrected uncorrectable symbols errored lanes s = .next t) : vital t = vital s := by
  cases h
  split <;> simp

@[simp] theorem vital_bwFrame (p len : Nat) (tx : Bool) (s : State) : vital (bwFrame p len tx s) = vital s := by
  simp [bwFrame]

@[simp] theorem vital_countSent (p : Nat) (l : List Byte) (s : State) : vital (countSent p l s) = vital s := by
  simp [countSent]

@[simp] theorem vital_farReturn (p : Nat) (l : List Byte) (s : State) : vital (farReturn p l s) = vital s := by
  simp [farReturn]

@[simp] theorem vital_countReceived (p : Nat) (l : List Byte) (row : Nat) (s : State) : vital (countReceived p l row s) = vital s := by
  simp [countReceived]
  split <;> simp

@[simp] theorem vital_wredArrive (p : Profile) (eg : Bool) (q : Nat) (s : State) : vital (wredArrive p eg q s) = vital s := by
  simp [wredArrive]

@[simp] theorem vital_causeCount (port : Nat) (eg : Bool) (k n : Nat) (s : State) : vital (causeCount port eg k n s) = vital s := by
  simp [causeCount]

@[simp] theorem vital_queueDrop (eg : Bool) (q len : Nat) (s : State) : vital (queueDrop eg q len s) = vital s := by
  simp [queueDrop]

@[simp] theorem vital_dropCause (eg : Bool) (q len k tc : Nat) (t : Option Trace) (s : State) : vital (dropCause eg q len k tc t s) = vital s := by
  simp [dropCause]

@[simp] theorem vital_cellWritten (cell : Nat) (s : State) : vital (cellWritten cell s) = vital s := by
  simp [cellWritten]

@[simp] theorem vital_forgetChosen (q : Nat) (s : State) : vital (forgetChosen q s) = vital s := by
  simp [forgetChosen]

@[simp] theorem vital_dropHead (q k : Nat) (s : State) : vital (dropHead q k s) = vital s := by
  unfold dropHead
  dsimp only
  (repeat' split) <;> simp

theorem vital_execSchedulerChoose (port : Nat) (s : State) {t : State} (h : execSchedulerChoose port s = .next t) : vital t = vital s := by
  cases h
  dsimp only
  (repeat' split) <;> simp

@[simp] theorem vital_dropPoisoned (q : Nat) (all : Bool) (s : State) : vital (dropPoisoned q all s) = vital s := by
  simp [dropPoisoned]
  split <;> simp

@[simp] theorem vital_rowError (f : Found) (bad : Bool) (s : State) : vital (rowError f bad s) = vital s := by
  simp [rowError]

@[simp] theorem vital_postUe (w : Reader) (r unit : Nat) (s : State) : vital (postUe w r unit s) = vital s := by
  simp [postUe]

@[simp] theorem vital_cellUe (c : Nat) (s : State) : vital (cellUe c s) = vital s := by
  unfold cellUe
  split
  · rfl
  · simp

@[simp] theorem vital_sendStamp (s : State) (p : Nat) : vital (sendStamp s p).2 = vital s := by
  unfold sendStamp
  split <;> simp

@[simp] theorem vital_capture (port : Nat) (info : List Byte) (t : Stamp) (s : State) : vital (capture port info t s) = vital s := by
  simp [capture]

@[simp] theorem vital_timeAction (p : Nat) (h l : List Byte) (s : State) : vital (timeAction p h l s).2 = vital s := by
  unfold timeAction
  split
  · rfl
  · dsimp only
    split
    · simp
    · split <;> simp

@[simp] theorem vital_laneSend (n : Nat) (bits : List Bool) (s : State) : vital (laneSend n bits s) = vital s := by
  simp [laneSend]

@[simp] theorem vital_lanesSend (ns : List Nat) (bs : List (List Bool)) (s : State) : vital (lanesSend ns bs s) = vital s := by
  induction ns generalizing bs s with
  | nil => rfl
  | cons n ns ih =>
    cases bs with
    | nil => rfl
    | cons b bs => exact (ih _ _).trans (vital_laneSend n b s)

@[simp] theorem vital_modNode (t : Nat) (f : Node → Node) (s : State) : vital (modNode t f s) = vital s := by
  unfold modNode
  split <;> simp

@[simp] theorem vital_setVirt (t k : Nat) (v : Frac) (s : State) : vital (setVirt t k v s) = vital s := by
  simp [setVirt]

@[simp] theorem vital_tagPath (len t : Nat) (l : List (Nat × Bool)) (s : State) : vital (tagPath len t l s) = vital s := by
  induction l generalizing t s with
  | nil => rfl
  | cons e r ih => exact (ih _ _).trans (by simp)

@[simp] theorem vital_debitPath (path : List (Nat × Bool)) (len : Nat) (s : State) : vital (debitPath path len s) = vital s := by
  simp [debitPath]

@[simp] theorem vital_passCount (eg : Bool) (q len : Nat) (s : State) : vital (passCount eg q len s) = vital s := by
  simp [passCount]

theorem vital_execNodeReadyAgain (node : Nat) (s : State) {t : State} (h : execNodeReadyAgain node s = .next t) : vital t = vital s := by
  cases h
  simp

@[simp] theorem vital_quiesceSettle (s : State) : vital (quiesceSettle s) = vital s := by
  simp [quiesceSettle]

@[simp] theorem vital_geodeSend (b : List Byte) (s : State) : vital (geodeSend b s) = vital s := by
  simp [geodeSend]

@[simp] theorem vital_takenCheck (s : State) : vital (takenCheck s) = vital s := by
  unfold takenCheck
  split <;> simp

@[simp] theorem vital_rampUpEnd (n : Nat) (s : State) : vital (rampUpEnd n s) = vital s := by
  unfold rampUpEnd
  dsimp only
  (repeat' split) <;> simp

@[simp] theorem vital_darkCheck (s : State) : vital (darkCheck s) = vital s := by
  unfold darkCheck
  split <;> simp

@[simp] theorem vital_secondaryDark (c : Nat) (s : State) : vital (secondaryDark c s) = vital s := by
  simp [secondaryDark]

@[simp] theorem vital_rampDownEnd (n : Nat) (s : State) : vital (rampDownEnd n s) = vital s := by
  unfold rampDownEnd
  dsimp only
  (repeat' split) <;> simp

@[simp] theorem vital_settleDown (n : Nat) (s : State) : vital (settleDown n s) = vital s := by
  simp [settleDown]

theorem vital_execRampStep (lane' : Nat) (s : State) {t : State} (h : execRampStep lane' s = .next t) : vital t = vital s := by
  cases h
  simp
  split <;> simp

theorem vital_execTxOutputRelease (lane' : Nat) (s : State) {t : State} (h : execTxOutputRelease lane' s = .next t) : vital t = vital s := by
  cases h
  simp
  split <;> simp

@[simp] theorem vital_cagePowerOn (c : Nat) (s : State) : vital (cagePowerOn c s) = vital s := by
  simp [cagePowerOn]

theorem vital_execModulePresent (cage' : Nat) (s : State) {t : State} (h : execModulePresent cage' s = .next t) : vital t = vital s := by
  cases h
  simp

@[simp] theorem vital_cageRemove (c : Nat) (s : State) : vital (cageRemove c s) = vital s := by
  simp [cageRemove]

theorem vital_execModuleRemoval (cage' : Nat) (s : State) {t : State} (h : execModuleRemoval cage' s = .next t) : vital t = vital s := by
  cases h
  simp

theorem vital_execPrsGlitch (cage' : Nat) (s : State) {t : State} (h : execPrsGlitch cage' s = .next t) : vital t = vital s := by
  cases h
  simp

theorem vital_execCagePowerOnDone (cage' : Nat) (s : State) {t : State} (h : execCagePowerOnDone cage' s = .next t) : vital t = vital s := by
  cases h
  simp

theorem vital_execModuleLowPwrReport (cage' : Nat) (info : ModuleInfo) (s : State)
    {t : State} (h : execModuleLowPwrReport cage' info s = .next t) : vital t = vital s := by
  cases h
  simp

theorem vital_execMgmtInitTimeout (cage' : Nat) (s : State) {t : State} (h : execMgmtInitTimeout cage' s = .next t) : vital t = vital s := by
  cases h
  simp

@[simp] theorem vital_cageEnterReady (c : Nat) (s : State) : vital (cageEnterReady c s) = vital s := by
  simp [cageEnterReady]

theorem vital_execModuleReady (cage' : Nat) (s : State) {t : State} (h : execModuleReady cage' s = .next t) : vital t = vital s := by
  cases h
  simp

theorem vital_execPowerUpTimeout (cage' : Nat) (s : State) {t : State} (h : execPowerUpTimeout cage' s = .next t) : vital t = vital s := by
  cases h
  simp

theorem vital_execDpActivated (port : Nat) (s : State) {t : State} (h : execDpActivated port s = .next t) : vital t = vital s := by
  cases h
  simp

theorem vital_execDataPathTimeout (port : Nat) (s : State) {t : State} (h : execDataPathTimeout port s = .next t) : vital t = vital s := by
  cases h
  simp

@[simp] theorem vital_takeFlag (c : Nat) (s : State) (f : ModFlag) : vital (takeFlag c s f) = vital s := by
  simp [takeFlag]

@[simp] theorem vital_takeFlags (c : Nat) (flags : List ModFlag) (fault : Bool) (s : State) : vital (takeFlags c flags fault s) = vital s := by
  simp [takeFlags]

theorem vital_execCagePoll (cage' : Nat) (readings : List Byte) (flags : List ModFlag) (fault : Bool) (s : State)
    {t : State} (h : execCagePoll cage' readings flags fault s = .next t) : vital t = vital s := by
  cases h
  simp

theorem vital_execModuleInterrupt (cage' : Nat) (flags : List ModFlag) (fault : Bool) (s : State)
    {t : State} (h : execModuleInterrupt cage' flags fault s = .next t) : vital t = vital s := by
  cases h
  simp

@[simp] theorem vital_writeBlock (c : Cmd) (bytes : List Byte) (s : State) : vital (writeBlock c bytes s) = vital s := by
  simp [writeBlock]

@[simp] theorem vital_transferDone (id : Nat) (data : List Byte) (s : State) : vital (transferDone id data s) = vital s := by
  unfold transferDone
  split <;> simp

theorem vital_execI2cTransferComplete (cage' : Nat) (data : List Byte) (s : State)
    {t : State} (h : execI2cTransferComplete cage' data s = .next t) : vital t = vital s := by
  cases h
  dsimp only
  (repeat' split) <;> simp

theorem vital_execI2cTransferFail (cage' : Nat) (s : State) {t : State} (h : execI2cTransferFail cage' s = .next t) : vital t = vital s := by
  cases h
  split <;> simp

@[simp] theorem vital_followerWait (n i : Nat) (s : State) : vital (followerWait n i s) = vital s := by
  simp [followerWait]

theorem vital_execPageBurstSend (n i : Nat) (s : State) {t : State} (h : execPageBurstSend n i s = .next t) : vital t = vital s := by
  cases h
  simp

@[simp] theorem vital_pageHold (n i : Nat) (b : List Byte) (s : State) : vital (pageHold n i b s) = vital s := by
  simp [pageHold]

theorem vital_execPageFrameReceive (n i : Nat) (page : List Byte) (s : State) {t : State} (h : execPageFrameReceive n i page s = .next t) :
    vital t = vital s := by
  cases h
  simp

theorem vital_execFollowerStep2Timeout (n i : Nat) (s : State) {t : State} (h : execFollowerStep2Timeout n i s = .next t) : vital t = vital s := by
  cases h
  simp

@[simp] theorem vital_enterPhase (n i : Nat) (ph : TrainPhase) (rx ec : Bool) (s : State) : vital (enterPhase n i ph rx ec s) = vital s := by
  simp [enterPhase]

@[simp] theorem vital_trainStart (n i : Nat) (s : State) : vital (trainStart n i s) = vital s := by
  simp [trainStart]

@[simp] theorem vital_hearNeighbours (n i : Nat) (s : State) : vital (hearNeighbours n i s) = vital s := by
  simp [hearNeighbours]

@[simp] theorem vital_protoSweep (n : Nat) (s : State) : vital (protoSweep n s) = vital s := by
  simp [protoSweep]

@[simp] theorem vital_protoStart (n i : Nat) (s : State) : vital (protoStart n i s) = vital s := by
  simp [protoStart]

@[simp] theorem vital_wokenFor (id : Nat) (s : State) : vital (wokenFor id s) = vital s := by
  simp [wokenFor]

@[simp] theorem vital_tdrSettle (n i : Nat) (s : State) : vital (tdrSettle n i s) = vital s := by
  refine vital_forEach (fun id t => ?_) _ s
  dsimp only
  split <;> simp

@[simp] theorem vital_linkCheck (n : Nat) (s : State) : vital (linkCheck n s) = vital s := by
  simp [linkCheck]

@[simp] theorem vital_pairRetrain (n i cause : Nat) (s : State) : vital (pairRetrain n i cause s) = vital s := by
  simp [pairRetrain]

@[simp] theorem vital_pairWake (n i : Nat) (s : State) : vital (pairWake n i s) = vital s := by
  simp [pairWake]

@[simp] theorem vital_wakeLowest (n : Nat) (s : State) : vital (wakeLowest n s) = vital s := by
  unfold wakeLowest
  split <;> simp

@[simp] theorem vital_retrainGo (id n i : Nat) (s : State) : vital (retrainGo id n i s) = vital s := by
  simp [retrainGo]

@[simp] theorem vital_retrainSettle (n i : Nat) (s : State) : vital (retrainSettle n i s) = vital s := by
  simp [retrainSettle]

@[simp] theorem vital_pairActive (n i : Nat) (s : State) : vital (pairActive n i s) = vital s := by
  simp [pairActive]

@[simp] theorem vital_talkTake (n i : Nat) (m : PairMeas) (s : State) : vital (talkTake n i m s) = vital s := by
  simp [talkTake]

@[simp] theorem vital_duplexEnd (n i : Nat) (m : PairMeas) (s : State) : vital (duplexEnd n i m s) = vital s := by
  simp [duplexEnd]

@[simp] theorem vital_duplexFrame (n i w : Nat) (rx ec : Bool) (m : PairMeas) (s : State) :
    vital (duplexFrame n i w rx ec m s) = vital s := by
  unfold duplexFrame
  dsimp only
  split
  · simp
  · split <;> simp

@[simp] theorem vital_receiverTake (n i : Nat) (m : PairMeas) (s : State) : vital (receiverTake n i m s) = vital s := by
  simp [receiverTake]

@[simp] theorem vital_retrainAgain (n i : Nat) (s : State) : vital (retrainAgain n i s) = vital s := by
  simp [retrainAgain]

@[simp] theorem vital_pairFail (n i : Nat) (s : State) : vital (pairFail n i s) = vital s := by
  simp [pairFail]

@[simp] theorem vital_partnerPhaseEnd (n i w : Nat) (rx ec : Bool) (m : PairMeas) (s : State) :
    vital (partnerPhaseEnd n i w rx ec m s) = vital s := by
  unfold partnerPhaseEnd
  dsimp only
  split <;> simp

@[simp] theorem vital_trainFrame (n i w : Nat) (rx ec : Bool) (m : PairMeas) (s : State) : vital (trainFrame n i w rx ec m s) = vital s := by
  unfold trainFrame
  dsimp only
  split
  · rfl
  · simp

@[simp] theorem vital_pairSleep (n i : Nat) (s : State) : vital (pairSleep n i s) = vital s := by
  simp [pairSleep]

theorem vital_execTrainingFrameReceive (n i word : Nat) (rx ec : Bool) (m : PairMeas) (s : State) {t : State}
    (h : execTrainingFrameReceive n i word rx ec m s = .next t) : vital t = vital s := by
  cases h
  dsimp only
  split
  · rfl
  · split
    case h_2 | h_3 => exact vital_trainFrame n i word rx ec m s
    case h_7 => rfl
    all_goals simp

@[simp] theorem vital_hybridTake (n i : Nat) (m : PairMeas) (s : State) : vital (hybridTake n i m s) = vital s := by
  simp [hybridTake]

@[simp] theorem vital_echoTake (n i : Nat) (m : PairMeas) (s : State) : vital (echoTake n i m s) = vital s := (rfl)

theorem vital_execTrainingPhaseEnd (n i : Nat) (rx ec : Bool) (m : PairMeas) (s : State) {t : State}
    (h : execTrainingPhaseEnd n i rx ec m s = .next t) : vital t = vital s := by
  cases h
  dsimp only
  split
  · rfl
  · split <;> simp

theorem vital_execTrainingPhaseFail (n i : Nat) (s : State) {t : State} (h : execTrainingPhaseFail n i s = .next t) : vital t = vital s := by
  cases h
  simp

theorem vital_execQuietEnd (n i : Nat) (s : State) {t : State} (h : execQuietEnd n i s = .next t) : vital t = vital s := by
  cases h
  simp

theorem vital_execLpiShrinkTest (n tx rx : Nat) (s : State) {t : State} (h : execLpiShrinkTest n tx rx s = .next t) : vital t = vital s := by
  cases h
  split <;> simp

theorem vital_execLpiGrowTest (n tx rx : Nat) (s : State) {t : State} (h : execLpiGrowTest n tx rx s = .next t) : vital t = vital s := by
  cases h
  simp

@[simp] theorem vital_pairSend (n i : Nat) (bits : List Bool) (s : State) : vital (pairSend n i bits s) = vital s := by
  simp [pairSend]

@[simp] theorem vital_fillCodeword (n i : Nat) (s : State) : vital (fillCodeword n i s) = vital s := by
  simp [fillCodeword]

theorem vital_execSleepEntry (n i : Nat) (s : State) {t : State} (h : execSleepEntry n i s = .next t) : vital t = vital s := by
  cases h
  simp

theorem vital_execRefreshDue (n i : Nat) (s : State) {t : State} (h : execRefreshDue n i s = .next t) : vital t = vital s := by
  cases h
  simp

theorem vital_execPreambleDetect (n i : Nat) (confirmed refresh : Bool) (s : State)
    {t : State} (h : execPreambleDetect n i confirmed refresh s = .next t) : vital t = vital s := by
  cases h
  simp

theorem vital_execFalseWakeAbandon (n i : Nat) (s : State) {t : State} (h : execFalseWakeAbandon n i s = .next t) : vital t = vital s := by
  cases h
  simp

theorem vital_execStartMarkerReceive (n i : Nat) (own : Bool) (s : State) {t : State} (h : execStartMarkerReceive n i own s = .next t) :
    vital t = vital s := by
  cases h
  simp

theorem vital_execWakeTimeout (n i : Nat) (s : State) {t : State} (h : execWakeTimeout n i s = .next t) : vital t = vital s := by
  cases h
  simp

theorem vital_execPairLoss (n i : Nat) (alignment : Bool) (s : State) {t : State} (h : execPairLoss n i alignment s = .next t) :
    vital t = vital s := by
  cases h
  simp

theorem vital_execSnrRetrain (n i : Nat) (s : State) {t : State} (h : execSnrRetrain n i s = .next t) : vital t = vital s := by
  cases h
  simp

theorem vital_execRetrainQuietEnd (n i : Nat) (s : State) {t : State} (h : execRetrainQuietEnd n i s = .next t) : vital t = vital s := by
  cases h
  simp

@[simp] theorem vital_stdCheck (n : Nat) (s : State) : vital (stdCheck n s) = vital s := by
  simp [stdCheck]

theorem vital_execStdPairAcquired (n i : Nat) (s : State) {t : State} (h : execStdPairAcquired n i s = .next t) : vital t = vital s := by
  cases h
  simp

theorem vital_execStdPairLost (n i : Nat) (s : State) {t : State} (h : execStdPairLost n i s = .next t) : vital t = vital s := by
  cases h
  simp

@[simp] theorem vital_geodeUp (s : State) : vital (geodeUp s) = vital s := by
  simp [geodeUp]

@[simp] theorem vital_linkUp (n : Nat) (s : State) : vital (linkUp n s) = vital s := by
  simp [linkUp]

@[simp] theorem vital_releaseFlits (n d : Nat) (s : State) : vital (releaseFlits n d s) = vital s := by
  simp [releaseFlits]

@[simp] theorem vital_restartPairs (n : Nat) (s : State) : vital (restartPairs n s) = vital s := by
  simp [restartPairs]

@[simp] theorem vital_startReplay (n : Nat) (s : State) : vital (startReplay n s) = vital s := by
  simp [startReplay]

@[simp] theorem vital_takeAck (n an ackseq : Nat) (s : State) : vital (takeAck n an ackseq s) = vital s := by
  unfold takeAck
  dsimp only
  split
  · rfl
  · split <;> split <;> simp

@[simp] theorem vital_idleKeep (n : Nat) (s : State) : vital (idleKeep n s) = vital s := by
  simp [idleKeep]

@[simp] theorem vital_deliverRecord (n : Nat) (b : List Byte) (s : State) : vital (deliverRecord n b s) = vital s := by
  simp [deliverRecord]

@[simp] theorem vital_loseSync (s : State) : vital (loseSync s) = vital s := by
  simp [loseSync]

@[simp] theorem vital_takeRecords (n k : Nat) (b : List Byte) (s : State) : vital (takeRecords n k b s) = vital s := by
  induction k generalizing b s with
  | zero => rfl
  | succ k ih =>
    cases b with
    | nil => simp [takeRecords]
    | cons x r =>
      simp only [takeRecords]
      split <;> simp [ih]

@[simp] theorem vital_deliverFlit (n : Nat) (f : Flit) (s : State) : vital (deliverFlit n f s) = vital s := by
  simp [deliverFlit]

@[simp] theorem vital_deliverHeld (n k : Nat) (s : State) : vital (deliverHeld n k s) = vital s := by
  induction k generalizing s with
  | zero => rfl
  | succ k ih =>
    unfold deliverHeld
    split
    · rfl
    · exact (ih _).trans (by simp)

@[simp] theorem vital_takeData (n : Nat) (f : Flit) (s : State) : vital (takeData n f s) = vital s := by
  simp [takeData]

theorem vital_execFlitReceive (n i : Nat) (flit : List Byte) (total corrected uncorrectable : Nat) (hit : Bool) (s : State)
    {t : State} (h : execFlitReceive n i flit total corrected uncorrectable hit s = .next t) : vital t = vital s := by
  cases h
  simp

theorem vital_execReorderTimeout (link' : Nat) (s : State) {t : State} (h : execReorderTimeout link' s = .next t) : vital t = vital s := by
  cases h
  simp

theorem vital_execRenakTimeout (link' : Nat) (s : State) {t : State} (h : execRenakTimeout link' s = .next t) : vital t = vital s := by
  cases h
  simp

theorem vital_execAckTimeout (link' : Nat) (s : State) {t : State} (h : execAckTimeout link' s = .next t) : vital t = vital s := by
  cases h
  simp

theorem vital_execProtocolEnd (link' : Nat) (s : State) {t : State} (h : execProtocolEnd link' s = .next t) : vital t = vital s := by
  cases h
  simp

theorem vital_takeRecord {n : Nat} {p : List Byte → Bool} {s t : State} {r : List Byte} (h : takeRecord n p s = some (r, t)) :
    vital t = vital s := by
  unfold takeRecord at h
  dsimp only at h
  split at h
  · contradiction
  · cases h; simp

@[simp] theorem vital_withRecord {f : List Byte → State → State} (still : ∀ r s, vital (f r s) = vital s) (n : Nat) (p : List Byte → Bool) (s : State) :
    vital (withRecord n p s f) = vital s := by
  unfold withRecord
  split
  · rfl
  · next r t h => exact (still r t).trans (vital_takeRecord h)

@[simp] theorem vital_useCredits (n k : Nat) (s : State) : vital (useCredits n k s) = vital s := by
  simp [useCredits]

@[simp] theorem vital_creditViolation (n : Nat) (s : State) : vital (creditViolation n s) = vital s := by
  simp [creditViolation]

theorem vital_execLookupReqReceive (link' : Nat) (s : State) {t : State} (h : execLookupReqReceive link' s = .next t) : vital t = vital s := by
  cases h
  simp

theorem vital_execCreditReceive (link' : Nat) (s : State) {t : State} (h : execCreditReceive link' s = .next t) : vital t = vital s := by
  cases h
  simp

theorem vital_execCreditAdvertise (link' : Nat) (s : State) {t : State} (h : execCreditAdvertise link' s = .next t) : vital t = vital s := by
  cases h
  simp

@[simp] theorem vital_unpick (q : Nat) (s : State) : vital (unpick q s) = vital s := by
  simp [unpick]

@[simp] theorem vital_popWaiting (eg : Bool) (q : Nat) (s : State) : vital (popWaiting eg q s) = vital s := by
  simp [popWaiting]

@[simp] theorem vital_dropWaiters (n q k : Nat) (s : State) : vital (dropWaiters n q k s) = vital s := by
  induction k generalizing s with
  | zero => rfl
  | succ k ih =>
    unfold dropWaiters
    split
    · rfl
    · split
      · rfl
      · exact (ih _).trans (by simp)

theorem vital_execCreditWatchdog (link' pool : Nat) (s : State) {t : State} (h : execCreditWatchdog link' pool s = .next t) : vital t = vital s := by
  cases h
  simp

@[simp] theorem vital_agreeSleep (n i : Nat) (s : State) : vital (agreeSleep n i s) = vital s := by
  simp [agreeSleep]

theorem vital_execSleepProposeReceive (link' tx rx : Nat) (s : State) {t : State} (h : execSleepProposeReceive link' tx rx s = .next t) :
    vital t = vital s := by
  cases h
  simp

theorem vital_execSleepAcceptReceive (link' : Nat) (s : State) {t : State} (h : execSleepAcceptReceive link' s = .next t) : vital t = vital s := by
  cases h
  simp

theorem vital_execSleepRefuseReceive (link' : Nat) (s : State) {t : State} (h : execSleepRefuseReceive link' s = .next t) : vital t = vital s := by
  cases h
  simp

theorem vital_execSleepProposeTimeout (link' : Nat) (s : State) {t : State} (h : execSleepProposeTimeout link' s = .next t) : vital t = vital s := by
  cases h
  simp

theorem vital_execEchoReqReceive (link' : Nat) (s : State) {t : State} (h : execEchoReqReceive link' s = .next t) : vital t = vital s := by
  cases h
  simp

theorem vital_execEchoRespReceive (link' : Nat) (s : State) {t : State} (h : execEchoRespReceive link' s = .next t) : vital t = vital s := by
  cases h
  refine vital_withRecord (fun r x => ?_) _ _ s
  split <;> simp

@[simp] theorem vital_outerRecord (n : Nat) (b : List Byte) (s : State) : vital (outerRecord n b s) = vital s := by
  unfold outerRecord
  split <;> simp

theorem vital_execOuterFrameReceive (link' : Nat) (frame : List Byte) (s : State)
    {t : State} (h : execOuterFrameReceive link' frame s = .next t) : vital t = vital s := by
  cases h
  simp
  split <;> simp

@[simp] theorem vital_sendOuter (n : Nat) (recs : List Byte) (s : State) : vital (sendOuter n recs s) = vital s := by
  simp [sendOuter]

theorem vital_execOuterFrameClose (link' : Nat) (s : State) {t : State} (h : execOuterFrameClose link' s = .next t) : vital t = vital s := by
  cases h
  simp

@[simp] theorem vital_dropList (q : Nat) (s : State) : vital (dropList q s) = vital s := by
  simp [dropList]

@[simp] theorem vital_takeLookup (n tag : Nat) (a : Lookup) (s : State) : vital (takeLookup n tag a s) = vital s := by
  simp [takeLookup]

theorem vital_execLookupPipelineTake (s : State) {t : State} (h : execLookupPipelineTake s = .next t) : vital t = vital s := by
  cases h
  dsimp only
  (repeat' split) <;> simp

@[simp] theorem vital_modTable (n : Nat) (f : Table → Table) (s : State) : vital (modTable n f s) = vital s := by
  unfold modTable
  split <;> simp

@[simp] theorem vital_tablePoison (n : Nat) (g : Option Nat) (f : Found) (s : State) : vital (tablePoison n g f s) = vital s := by
  unfold tablePoison
  dsimp only
  cases g with
  | none => dsimp only; split <;> simp
  | some g => dsimp only; split <;> simp

@[simp] theorem vital_tableCount (n k a : Nat) (s : State) : vital (tableCount n k a s) = vital s := by
  simp [tableCount]

@[simp] theorem vital_countResp (n : Nat) (b : List Byte) (s : State) : vital (countResp n b s) = vital s := by
  simp [countResp]

@[simp] theorem vital_switchUpdates (l : List Update) (s : State) : vital (switchUpdates l s) = vital s := by
  simp [switchUpdates]

@[simp] theorem vital_switchMirrored (s : State) : vital (switchMirrored s) = vital s := by
  unfold switchMirrored
  split <;> simp

theorem vital_execStorageFree (s : State) {t : State} (h : execStorageFree s = .next t) : vital t = vital s := by
  cases h
  simp

@[simp] theorem vital_clearFar (s : State) : vital (clearFar s) = vital s := by
  simp [clearFar]

@[simp] theorem vital_setMute (n : Nat) (on : Bool) (s : State) : vital (setMute n on s) = vital s := by
  simp [setMute]

@[simp] theorem vital_muteAll (s : State) : vital (muteAll s) = vital s := by
  simp [muteAll]

@[simp] theorem vital_unpickAll (s : State) : vital (unpickAll s) = vital s := by
  simp [unpickAll]

@[simp] theorem vital_loseEpochs (s : State) : vital (loseEpochs s) = vital s := by
  simp [loseEpochs]

@[simp] theorem vital_takeSecondary (s : State) : vital (takeSecondary s) = vital s := by
  simp [takeSecondary]

@[simp] theorem vital_handOver (o : GeoOut) (s : State) : vital (handOver o s) = vital s := by
  simp [handOver]

@[simp] theorem vital_failedHandOver (s : State) : vital (failedHandOver s) = vital s := by
  simp [failedHandOver]

@[simp] theorem vital_forgetRow (m ch bank row : Nat) (s : State) : vital (forgetRow m ch bank row s) = vital s := by
  simp [forgetRow]

@[simp] theorem vital_repairExhausted (m ch bank row : Nat) (pages : List Nat) (s : State) :
    vital (repairExhausted m ch bank row pages s) = vital s := by
  simp [repairExhausted]

@[simp] theorem vital_modChannel (k : Nat) (f : Channel → Channel) (s : State) : vital (modChannel k f s) = vital s := by
  simp [modChannel]

@[simp] theorem vital_retrainCause (s : State) : vital (retrainCause s) = vital s := by
  simp [retrainCause]

theorem vital_execHbmChannelRetrain (stack' ch : Nat) (accepted : Bool) (s : State)
    {t : State} (h : execHbmChannelRetrain stack' ch accepted s = .next t) : vital t = vital s := by
  cases h
  simp

@[simp] theorem vital_markOverdue (k : Nat) (s : State) : vital (markOverdue k s) = vital s := by
  simp [markOverdue]

theorem vital_execHbmRequestEnter (stack' ch : Nat) (source : Requester) (bank key : Nat) (s : State)
    {t : State} (h : execHbmRequestEnter stack' ch source bank key s = .next t) : vital t = vital s := by
  cases h
  simp

@[simp] theorem vital_refill (k n : Nat) (s : State) : vital (refill k n s) = vital s := by
  induction n generalizing s with
  | zero => rfl
  | succ n ih =>
    unfold refill
    dsimp only
    split
    · rfl
    · split
      · rfl
      · exact (ih _).trans (by simp)

theorem vital_execHbmRequestWithdraw (stack' ch key : Nat) (s : State) {t : State} (h : execHbmRequestWithdraw stack' ch key s = .next t) :
    vital t = vital s := by
  cases h
  dsimp only
  (repeat' split) <;> simp

@[simp] theorem vital_doorbell {act : Ring → State → State} (still : ∀ g s, vital (act g s) = vital s) (r : Nat) (s : State) :
    vital (doorbell r act s) = vital s := by
  unfold doorbell
  split
  · rfl
  · split
    · simp
    · split
      · rfl
      · exact still _ _

@[simp] theorem vital_modRing (r : Nat) (f : Ring → Ring) (s : State) : vital (modRing r f s) = vital s := by
  unfold modRing
  split <;> simp

theorem vital_execSqTailWrite (ring : Nat) (value : BitVec 32) (s : State) {t : State} (h : execSqTailWrite ring value s = .next t) :
    vital t = vital s := by
  cases h
  simp

theorem vital_execCqHeadWrite (ring : Nat) (value : BitVec 32) (s : State) {t : State} (h : execCqHeadWrite ring value s = .next t) :
    vital t = vital s := by
  cases h
  simp

@[simp] theorem vital_finishFail (id : Nat) (st : Status) (s : State) : vital (finishFail id st s) = vital s := by
  simp [finishFail]

@[simp] theorem vital_takeEntry (r : Nat) (entry : List Byte) (s : State) : vital (takeEntry r entry s) = vital s := by
  simp [takeEntry]
  split <;> simp

theorem vital_execCommandFetch (got : HostRead) (s : State) {t : State} (h : execCommandFetch got s = .next t) : vital t = vital s := by
  cases h
  dsimp only
  (repeat' split) <;> simp

theorem vital_execEventDeliver (s : State) {t : State} (h : execEventDeliver s = .next t) : vital t = vital s := by
  cases h
  simp

theorem vital_execMsixTimer (vector : Nat) (s : State) {t : State} (h : execMsixTimer vector s = .next t) : vital t = vital s := by
  cases h
  simp

@[simp] theorem vital_setMask (v : Nat) (m : Bool) (s : State) : vital (setMask v m s) = vital s := by
  simp [setMask]

theorem vital_execMsixUnmask (vector : Nat) (s : State) {t : State} (h : execMsixUnmask vector s = .next t) : vital t = vital s := by
  cases h
  simp

theorem vital_execD3hotEnter (s : State) {t : State} (h : execD3hotEnter s = .next t) : vital t = vital s := by
  cases h
  simp

@[simp] theorem vital_writeHeld (s : State) : vital (writeHeld s) = vital s := by
  simp [writeHeld]

theorem vital_execD0Return (s : State) {t : State} (h : execD0Return s = .next t) : vital t = vital s := by
  cases h
  simp

theorem vital_execPcieLinkReset (s : State) {t : State} (h : execPcieLinkReset s = .next t) : vital t = vital s := by
  cases h
  simp

@[simp] theorem vital_writeHifEnable (on : Bool) (s : State) : vital (writeHifEnable on s) = vital s := by
  simp [writeHifEnable]

theorem vital_execHifEnableSet (s : State) {t : State} (h : execHifEnableSet s = .next t) : vital t = vital s := by
  cases h
  simp

theorem vital_execHifEnableClear (s : State) {t : State} (h : execHifEnableClear s = .next t) : vital t = vital s := by
  cases h
  simp

theorem vital_execHostReady (s : State) {t : State} (h : execHostReady s = .next t) : vital t = vital s := by
  cases h
  simp

theorem vital_execTimedCommandDue (s : State) {t : State} (h : execTimedCommandDue s = .next t) : vital t = vital s := by
  cases h
  simp
  split <;> simp

theorem vital_execEvqHeadWrite (value : BitVec 32) (s : State) {t : State} (h : execEvqHeadWrite value s = .next t) : vital t = vital s := by
  cases h
  simp

@[simp] theorem vital_writeTraceHead (value : BitVec 32) (s : State) : vital (writeTraceHead value s) = vital s := by
  unfold writeTraceHead
  split <;> simp

theorem vital_execTraceHeadWrite (value : BitVec 32) (s : State) {t : State} (h : execTraceHeadWrite value s = .next t) : vital t = vital s := by
  cases h
  simp

@[simp] theorem vital_writeBase (off v : Nat) (s : State) : vital (writeBase off v s) = vital s := by
  simp [writeBase]

@[simp] theorem vital_writeCfg (off v : Nat) (s : State) : vital (writeCfg off v s) = vital s := by
  simp [writeCfg]

@[simp] theorem vital_writeParam (off v : Nat) (s : State) : vital (writeParam off v s) = vital s := by
  simp [writeParam]

@[simp] theorem vital_writeBase64 (off v : Nat) (s : State) : vital (writeBase64 off v s) = vital s := by
  simp [writeBase64]

theorem vital_execRing0ParamWrite (offset len : Nat) (value : BitVec 64) (s : State)
    {t : State} (h : execRing0ParamWrite offset len value s = .next t) : vital t = vital s := by
  cases h
  simp

@[simp] theorem vital_readBack (v : Nat) (s : State) : vital (readBack v s) = vital s := by
  simp [readBack]

@[simp] theorem vital_readOff (s : State) : vital (readOff s) = vital s := by
  simp [readOff]

@[simp] theorem vital_captureTime (wide : Bool) (s : State) : vital (captureTime wide s) = vital s := by
  simp [captureTime]

@[simp] theorem vital_readSlot (i : Nat) (wide : Bool) (s : State) : vital (readSlot i wide s) = vital s := by
  simp [readSlot]

@[simp] theorem vital_readDword (off : Nat) (s : State) : vital (readDword off s) = vital s := by
  simp [readDword]
  (repeat' split) <;> simp

@[simp] theorem vital_readQword (off : Nat) (s : State) : vital (readQword off s) = vital s := by
  simp [readQword]
  (repeat' split) <;> simp

@[simp] theorem vital_readBad (s : State) : vital (readBad s) = vital s := by
  simp [readBad]

@[simp] theorem vital_readImage (off len : Nat) (s : State) : vital (readImage off len s) = vital s := by
  simp [readImage]

@[simp] theorem vital_readBar (bar off len : Nat) (s : State) : vital (readBar bar off len s) = vital s := by
  simp [readBar]

theorem vital_execLowHalfRead (bar offset len : Nat) (s : State) {t : State} (h : execLowHalfRead bar offset len s = .next t) :
    vital t = vital s := by
  cases h
  simp

theorem vital_execLowHalfWrite (offset : Nat) (value : BitVec 32) (s : State) {t : State} (h : execLowHalfWrite offset value s = .next t) :
    vital t = vital s := by
  cases h
  simp

theorem vital_execTimeCaptureRead (wide : Bool) (s : State) {t : State} (h : execTimeCaptureRead wide s = .next t) : vital t = vital s := by
  cases h
  simp

theorem vital_execErrorLogSlotRead (slot : Nat) (wide : Bool) (s : State) {t : State} (h : execErrorLogSlotRead slot wide s = .next t) :
    vital t = vital s := by
  cases h
  simp

theorem vital_execBar0OffBlockAccess (offset : Nat) (write : Bool) (s : State)
    {t : State} (h : execBar0OffBlockAccess offset write s = .next t) : vital t = vital s := by
  cases h
  simp

@[simp] theorem vital_writeMsix (v i n : Nat) (s : State) : vital (writeMsix v i n s) = vital s := by
  simp [writeMsix]

@[simp] theorem vital_writeDword (off n : Nat) (s : State) : vital (writeDword off n s) = vital s := by
  unfold writeDword
  repeat' split
  case h_1 row => exact vital_execEvqHeadWrite _ s row
  all_goals simp

@[simp] theorem vital_writeDoorbell (off : Nat) (value : BitVec 32) (s : State) : vital (writeDoorbell off value s) = vital s := by
  unfold writeDoorbell
  dsimp only
  split
  · rfl
  · split
    · split
      · next row => exact vital_execSqTailWrite _ _ s row
      · rfl
    · split
      · split
        · next row => exact vital_execCqHeadWrite _ _ s row
        · rfl
      · simp

theorem vital_execRegisterWrite (bar offset len : Nat) (value : BitVec 64) (s : State)
    {t : State} (h : execRegisterWrite bar offset len value s = .next t) : vital t = vital s := by
  cases h
  simp

@[simp] theorem vital_beginCmd (id : Nat) (c : Cmd) (s : State) : vital (beginCmd id c s) = vital s := by
  simp [beginCmd]

@[simp] theorem vital_runCmd {pre : Cmd → State → Option Status} {body : Cmd → State → Ran} (still : ∀ c s, vital (body c s).s = vital s)
    (id op : Nat) (s : State) : vital (runCmd id op pre body s) = vital s := by
  unfold runCmd
  split
  · rfl
  · dsimp only
    split
    · simp
    · split
      · simp
      · split <;> simp [still]

@[simp] theorem vital_Ran.ok (s : State) : vital (Ran.ok s).s = vital s := by
  simp [Ran.ok]

theorem vital_execNop (id : Nat) (s : State) {t : State} (h : execNop id s = .next t) : vital t = vital s := by
  cases h
  simp

theorem vital_execDeviceIdentify (id : Nat) (s : State) {t : State} (h : execDeviceIdentify id s = .next t) : vital t = vital s := by
  cases h
  simp

@[simp] theorem vital_takeTemps (temps : List (Nat × Option Int)) (s : State) : vital (takeTemps temps s) = vital s := by
  simp [takeTemps]

@[simp] theorem vital_Ran.fail (st : Status) (s : State) : vital (Ran.fail st s).s = vital s := by
  simp [Ran.fail]

@[simp] theorem vital_withBlock {k : State → State} (still : ∀ s, vital (k s) = vital s) (c : Cmd) (bytes : List Byte) (s : State) :
    vital (withBlock c bytes s k).s = vital s := by
  unfold withBlock
  split
  · rfl
  · exact still _

theorem vital_execDeviceStatus (id : Nat) (temps : List (Nat × Option Int)) (s : State)
    {t : State} (h : execDeviceStatus id temps s = .next t) : vital t = vital s := by
  cases h
  simp

theorem vital_execRingCreate (id : Nat) (s : State) {t : State} (h : execRingCreate id s = .next t) : vital t = vital s := by
  cases h
  simp

theorem vital_execRingDelete (id : Nat) (s : State) {t : State} (h : execRingDelete id s = .next t) : vital t = vital s := by
  cases h
  simp

theorem vital_execRingReset (id : Nat) (s : State) {t : State} (h : execRingReset id s = .next t) : vital t = vital s := by
  cases h
  simp

theorem vital_execRingStatus (id : Nat) (s : State) {t : State} (h : execRingStatus id s = .next t) : vital t = vital s := by
  cases h
  simp

@[simp] theorem vital_cagePortAdded (c p : Nat) (s : State) : vital (cagePortAdded c p s) = vital s := by
  unfold cagePortAdded
  split <;> simp

theorem vital_execPortCreate (id : Nat) (s : State) {t : State} (h : execPortCreate id s = .next t) : vital t = vital s := by
  cases h
  simp

@[simp] theorem vital_flushQueue (eg : Bool) (q : Nat) (s : State) : vital (flushQueue eg q s) = vital s := by
  unfold flushQueue
  split <;> simp

@[simp] theorem vital_portDeleteStart (p : Nat) (s : State) : vital (portDeleteStart p s) = vital s := by
  simp [portDeleteStart]

theorem vital_execPortDelete (id : Nat) (s : State) {t : State} (h : execPortDelete id s = .next t) : vital t = vital s := by
  cases h
  simp

@[simp] theorem vital_setLoopback (p new : Nat) (s : State) : vital (setLoopback p new s) = vital s := by
  unfold setLoopback
  dsimp only
  (repeat' split) <;> simp

@[simp] theorem vital_rearmX200 (p : Nat) (s : State) : vital (rearmX200 p s) = vital s := by
  simp [rearmX200]

theorem vital_execPortSet (id : Nat) (s : State) {t : State} (h : execPortSet id s = .next t) : vital t = vital s := by
  cases h
  simp

theorem vital_execPortStatus (id : Nat) (s : State) {t : State} (h : execPortStatus id s = .next t) : vital t = vital s := by
  cases h
  simp

theorem vital_execLaneSet (id : Nat) (m : LaneMeas) (s : State) {t : State} (h : execLaneSet id m s = .next t) : vital t = vital s := by
  cases h
  simp

theorem vital_execLaneStatus (id : Nat) (m : LaneMeas) (s : State) {t : State} (h : execLaneStatus id m s = .next t) : vital t = vital s := by
  cases h
  simp

@[simp] theorem vital_awaitEnd (id : Nat) (aux : List Nat) (s : State) : vital (awaitEnd id aux s) = vital s := by
  simp [awaitEnd]

theorem vital_execLaneCalibrate (id : Nat) (s : State) {t : State} (h : execLaneCalibrate id s = .next t) : vital t = vital s := by
  cases h
  simp

theorem vital_execLaneMute (id : Nat) (s : State) {t : State} (h : execLaneMute id s = .next t) : vital t = vital s := by
  cases h
  simp

theorem vital_execLaneDiag (id : Nat) (s : State) {t : State} (h : execLaneDiag id s = .next t) : vital t = vital s := by
  cases h
  simp

@[simp] theorem vital_setGarMode (m : Nat) (s : State) : vital (setGarMode m s) = vital s := by
  unfold setGarMode
  split
  · rfl
  · exact (vital_forEach vital_linkStart _ _).trans ((vital_mapGar _ _).trans (vital_forEach (fun n t => by simp) _ s))

@[simp] theorem vital_setLink (c : Cmd) (n : Nat) (s : State) : vital (setLink c n s) = vital s := by
  simp [setLink]

theorem vital_execGarnetSet (id : Nat) (s : State) {t : State} (h : execGarnetSet id s = .next t) : vital t = vital s := by
  cases h
  simp

theorem vital_execGarnetRestart (id : Nat) (s : State) {t : State} (h : execGarnetRestart id s = .next t) : vital t = vital s := by
  cases h
  simp

theorem vital_execGarnetRetrain (id : Nat) (s : State) {t : State} (h : execGarnetRetrain id s = .next t) : vital t = vital s := by
  cases h
  simp

@[simp] theorem vital_linkAdapt (n i : Nat) (l : List PairMeas) (s : State) : vital (linkAdapt n i l s) = vital s := by
  induction l generalizing i s with
  | nil => rfl
  | cons m r ih => exact (ih _ _).trans (by simp)

theorem vital_execGarnetStatus (id : Nat) (ms : List PairMeas) (s : State) {t : State} (h : execGarnetStatus id ms s = .next t) :
    vital t = vital s := by
  cases h
  simp

theorem vital_execGarnetTdr (id : Nat) (m : PairMeas) (s : State) {t : State} (h : execGarnetTdr id m s = .next t) : vital t = vital s := by
  cases h
  simp

@[simp] theorem vital_prbsAdd (n : Nat) (counts : List (Nat × Nat)) (i : Nat) (s : State) : vital (prbsAdd n counts i s) = vital s := by
  simp [prbsAdd]

@[simp] theorem vital_prbsStart (n test : Nat) (s : State) : vital (prbsStart n test s) = vital s := by
  simp [prbsStart]

theorem vital_execGarnetDiag (id : Nat) (counts : List (Nat × Nat)) (s : State) {t : State} (h : execGarnetDiag id counts s = .next t) :
    vital t = vital s := by
  cases h
  simp

@[simp] theorem vital_bufferSetBody (mir : Bool) (c : Cmd) (s : State) : vital (bufferSetBody mir c s).s = vital s := by
  simp [bufferSetBody]

theorem vital_execBufferSet (id : Nat) (s : State) {t : State} (h : execBufferSet id s = .next t) : vital t = vital s := by
  cases h
  simp

@[simp] theorem vital_profileSetBody (mir : Bool) (c : Cmd) (s : State) : vital (profileSetBody mir c s).s = vital s := by
  simp [profileSetBody]

theorem vital_execProfileSet (id : Nat) (s : State) {t : State} (h : execProfileSet id s = .next t) : vital t = vital s := by
  cases h
  simp

@[simp] theorem vital_wredSetBody (mir : Bool) (c : Cmd) (s : State) : vital (wredSetBody mir c s).s = vital s := by
  simp [wredSetBody]

theorem vital_execWredSet (id : Nat) (s : State) {t : State} (h : execWredSet id s = .next t) : vital t = vital s := by
  cases h
  simp

@[simp] theorem vital_withHost {k : List Byte → Ran} {s : State} (still : ∀ l, vital (k l).s = vital s) (c : Cmd) (len : Nat) (host : HostRead) :
    vital (withHost c len host s k).s = vital s := by
  unfold withHost
  split
  · rfl
  · cases host with
    | data l => exact still _
    | error | timeout => rfl

@[simp] theorem vital_withData {k : List Byte → Ran} {s : State} (still : ∀ l, vital (k l).s = vital s) (mir : Bool) (c : Cmd) (len : Nat)
    (host : HostRead) : vital (withData mir c len host s k).s = vital s := by
  unfold withData
  split
  · exact still _
  · exact vital_withHost still _ _ _

@[simp] theorem vital_classifySetBody (mir : Bool) (host : HostRead) (c : Cmd) (s : State) : vital (classifySetBody mir host c s).s = vital s := by
  simp [classifySetBody]

@[simp] theorem vital_keepData (id : Nat) (host : HostRead) (s : State) : vital (keepData id host s) = vital s := by
  unfold keepData
  split <;> simp

theorem vital_execClassifySet (id : Nat) (host : HostRead) (s : State) {t : State} (h : execClassifySet id host s = .next t) : vital t = vital s := by
  cases h
  simp

@[simp] theorem vital_iqSetBody (mir : Bool) (c : Cmd) (s : State) : vital (iqSetBody mir c s).s = vital s := by
  simp [iqSetBody]

theorem vital_execIqSet (id : Nat) (s : State) {t : State} (h : execIqSet id s = .next t) : vital t = vital s := by
  cases h
  simp

@[simp] theorem vital_memorySetBody (mir : Bool) (c : Cmd) (s : State) : vital (memorySetBody mir c s).s = vital s := by
  simp [memorySetBody]

theorem vital_execMemorySet (id : Nat) (s : State) {t : State} (h : execMemorySet id s = .next t) : vital t = vital s := by
  cases h
  simp

theorem vital_execBufferStatus (id : Nat) (s : State) {t : State} (h : execBufferStatus id s = .next t) : vital t = vital s := by
  cases h
  simp

theorem vital_execQueueStatus (id : Nat) (s : State) {t : State} (h : execQueueStatus id s = .next t) : vital t = vital s := by
  cases h
  simp

@[simp] theorem vital_nodeCreateBody (mir : Bool) (c : Cmd) (s : State) : vital (nodeCreateBody mir c s).s = vital s := by
  simp [nodeCreateBody]

theorem vital_execNodeCreate (id : Nat) (s : State) {t : State} (h : execNodeCreate id s = .next t) : vital t = vital s := by
  cases h
  simp

@[simp] theorem vital_unchoose (t : Nat) (s : State) : vital (unchoose t s) = vital s := by
  simp [unchoose]

@[simp] theorem vital_nodeDeleteBody (mir : Bool) (c : Cmd) (s : State) : vital (nodeDeleteBody mir c s).s = vital s := by
  simp [nodeDeleteBody]

theorem vital_execNodeDelete (id : Nat) (s : State) {t : State} (h : execNodeDelete id s = .next t) : vital t = vital s := by
  cases h
  simp

theorem vital_nodeSetApply {n : Nat} {f : NodeFields} {s t : State} (h : nodeSetApply n f s = some t) : vital t = vital s := by
  simp only [nodeSetApply, Option.ite_none_left_eq_some, Option.some.injEq] at h
  obtain ⟨_, rfl⟩ := h
  simp

@[simp] theorem vital_nodeSetBody (mir : Bool) (c : Cmd) (s : State) : vital (nodeSetBody mir c s).s = vital s := by
  unfold nodeSetBody
  split
  · rfl
  · split
    · rfl
    · next applied => exact vital_nodeSetApply applied

theorem vital_execNodeSet (id : Nat) (s : State) {t : State} (h : execNodeSet id s = .next t) : vital t = vital s := by
  cases h
  simp

theorem vital_batchRun {i : Nat} {seen : List Nat} {l : List (List Byte)} {s t : State} (h : batchRun i seen l s = .inl t) : vital t = vital s := by
  induction l generalizing i seen s with
  | nil => cases h; rfl
  | cons e r ih =>
    unfold batchRun at h
    dsimp only at h
    split at h
    · contradiction
    · split at h
      · contradiction
      · split at h
        · contradiction
        · next applied => exact (ih h).trans (vital_nodeSetApply applied)

@[simp] theorem vital_nodeBatchBody (mir : Bool) (host : HostRead) (c : Cmd) (s : State) : vital (nodeBatchBody mir host c s).s = vital s := by
  unfold nodeBatchBody
  dsimp only
  split
  · rfl
  · refine vital_withData (fun l => ?_) _ _ _ _
    split
    · next ran => exact vital_batchRun ran
    · rfl

theorem vital_execNodeBatch (id : Nat) (host : HostRead) (s : State) {t : State} (h : execNodeBatch id host s = .next t) : vital t = vital s := by
  cases h
  simp

theorem vital_execNodeStatus (id : Nat) (s : State) {t : State} (h : execNodeStatus id s = .next t) : vital t = vital s := by
  cases h
  simp

@[simp] theorem vital_removeTable (n : Nat) (t : Table) (s : State) : vital (removeTable n t s) = vital s := by
  simp [removeTable]

@[simp] theorem vital_tableDeleteBody (mir : Bool) (c : Cmd) (s : State) : vital (tableDeleteBody mir c s).s = vital s := by
  unfold tableDeleteBody
  split <;> simp

theorem vital_execTableDelete (id : Nat) (s : State) {t : State} (h : execTableDelete id s = .next t) : vital t = vital s := by
  cases h
  simp

@[simp] theorem vital_queueCommit (id h : Nat) (l : List Update) (st : Status) (staged : Nat) (s : State) :
    vital (queueCommit id h l st staged s) = vital s := by
  simp [queueCommit]

theorem vital_execEpochOpen (id : Nat) (s : State) {t : State} (h : execEpochOpen id s = .next t) : vital t = vital s := by
  cases h
  refine vital_runCmd (fun c x => ?_) _ _ s
  split
  · rfl
  · split <;> simp

theorem vital_execEpochCommit (id : Nat) (s : State) {t : State} (h : execEpochCommit id s = .next t) : vital t = vital s := by
  cases h
  simp

theorem vital_execEpochAbort (id : Nat) (s : State) {t : State} (h : execEpochAbort id s = .next t) : vital t = vital s := by
  cases h
  simp

theorem vital_execEpochStatus (id : Nat) (s : State) {t : State} (h : execEpochStatus id s = .next t) : vital t = vital s := by
  cases h
  simp

theorem vital_execTableStatus (id : Nat) (s : State) {t : State} (h : execTableStatus id s = .next t) : vital t = vital s := by
  cases h
  simp

theorem vital_execTableLookup (id : Nat) (host : HostRead) (s : State) {t : State} (h : execTableLookup id host s = .next t) : vital t = vital s := by
  cases h
  simp

@[simp] theorem vital_timeCmd {k : State → Ran} (still : ∀ s, vital (k s).s = vital s) (needs refused : Bool) (c : Cmd) (s : State) :
    vital (timeCmd needs refused c s k).s = vital s := by
  unfold timeCmd
  simp [still]

@[simp] theorem vital_rewait (s : State) : vital (rewait s) = vital s := by
  simp [rewait]

@[simp] theorem servoFeed_ns (x : Int) (t : Tim) : (servoFeed x t).ns = t.ns := by
  unfold servoFeed
  split
  · rfl
  · split <;> rfl
  · rfl

theorem vital_execServoFeed (id : Nat) (s : State) {t : State} (h : execServoFeed id s = .next t) : vital t = vital s := by
  cases h
  exact vital_runCmd (fun c x => vital_timeCmd (fun y => by simp) _ _ _ _) _ _ s

@[simp] theorem vital_servoFree (s : State) : vital (servoFree s) = vital s := by
  simp [servoFree]

theorem vital_execServoSet (id : Nat) (s : State) {t : State} (h : execServoSet id s = .next t) : vital t = vital s := by
  cases h
  refine vital_runCmd (fun c x => vital_timeCmd (fun y => ?_) _ _ _ _) _ _ s
  dsimp only [Ran.ok_s]
  split
  · split <;> rfl
  · split <;> rfl
  · split
    · rfl
    · exact vital_post _ _ _ _ _

theorem vital_execTimeGet (id : Nat) (s : State) {t : State} (h : execTimeGet id s = .next t) : vital t = vital s := by
  cases h
  simp

theorem vital_execTimePins (id : Nat) (s : State) {t : State} (h : execTimePins id s = .next t) : vital t = vital s := by
  cases h
  exact vital_runCmd (fun c x => vital_timeCmd (fun y => rfl) _ _ _ _) _ _ s

@[simp] theorem vital_portTsSetBody (mir : Bool) (c : Cmd) (s : State) : vital (portTsSetBody mir c s).s = vital s := by
  simp [portTsSetBody]

theorem vital_execPortTsSet (id : Nat) (s : State) {t : State} (h : execPortTsSet id s = .next t) : vital t = vital s := by
  cases h
  simp

theorem vital_execTsCaptureRead (id : Nat) (s : State) {t : State} (h : execTsCaptureRead id s = .next t) : vital t = vital s := by
  cases h
  refine vital_runCmd (fun c x => ?_) _ _ s
  split
  · rfl
  · refine vital_timeCmd (fun y => ?_) _ _ _ _
    dsimp only [Ran.ok_s]
    split <;> simp

theorem vital_execTimeStatus (id : Nat) (s : State) {t : State} (h : execTimeStatus id s = .next t) : vital t = vital s := by
  cases h
  simp

@[simp] theorem vital_quiesceDrainEnd (s : State) : vital (quiesceDrainEnd s) = vital s := by
  simp [quiesceDrainEnd]

@[simp] theorem vital_creditAll (s : State) : vital (creditAll s) = vital s := by
  simp [creditAll]

@[simp] theorem vital_quiesceLeave (s : State) : vital (quiesceLeave s) = vital s := by
  simp [quiesceLeave]

@[simp] theorem vital_retainAccept (c : Cmd) (s : State) : vital (retainAccept c s) = vital s := by
  simp [retainAccept]

theorem vital_execPowerState (id : Nat) (s : State) {t : State} (h : execPowerState id s = .next t) : vital t = vital s := by
  cases h
  simp

@[simp] theorem vital_cageResume (mods : List ModReport) (n : Nat) (s : State) : vital (cageResume mods n s) = vital s := by
  unfold cageResume
  dsimp only
  (repeat' split) <;> simp

theorem vital_execPadRelease (id : Nat) (mods : List ModReport) (s : State) {t : State} (h : execPadRelease id mods s = .next t) :
    vital t = vital s := by
  cases h
  simp

theorem vital_execHealthStatus (id : Nat) (s : State) {t : State} (h : execHealthStatus id s = .next t) : vital t = vital s := by
  cases h
  simp

@[simp] theorem vital_propose (id : Nat) (c : Cmd) (value : List Byte) (s : State) : vital (propose id c value s).s = vital s := by
  unfold propose
  split
  · rfl
  · exact (vital_awaitEnd _ _ _).trans rfl

theorem vital_execGuardPropose (id : Nat) (host : HostRead) (s : State) {t : State} (h : execGuardPropose id host s = .next t) :
    vital t = vital s := by
  cases h
  simp

theorem vital_execGuardAbort (id : Nat) (s : State) {t : State} (h : execGuardAbort id s = .next t) : vital t = vital s := by
  cases h
  simp

theorem vital_execGuardStatus (id : Nat) (s : State) {t : State} (h : execGuardStatus id s = .next t) : vital t = vital s := by
  cases h
  simp

theorem vital_execGeodeSet (id : Nat) (s : State) {t : State} (h : execGeodeSet id s = .next t) : vital t = vital s := by
  cases h
  simp

theorem vital_execGeodeSwitchover (id : Nat) (s : State) {t : State} (h : execGeodeSwitchover id s = .next t) : vital t = vital s := by
  cases h
  simp

theorem vital_execGeodeStatus (id : Nat) (s : State) {t : State} (h : execGeodeStatus id s = .next t) : vital t = vital s := by
  cases h
  simp

@[simp] theorem vital_snapBegin (cmd : Option Nat) (clear dma : Bool) (s : State) : vital (snapBegin cmd clear dma s) = vital s := by
  simp [snapBegin]

theorem vital_execSnapshot (id : Nat) (s : State) {t : State} (h : execSnapshot id s = .next t) : vital t = vital s := by
  cases h
  simp

theorem vital_execSnapshotSet (id : Nat) (s : State) {t : State} (h : execSnapshotSet id s = .next t) : vital t = vital s := by
  cases h
  simp

theorem vital_execProfileSetCtr (id : Nat) (s : State) {t : State} (h : execProfileSetCtr id s = .next t) : vital t = vital s := by
  cases h
  simp

theorem vital_execProfileRead (id : Nat) (s : State) {t : State} (h : execProfileRead id s = .next t) : vital t = vital s := by
  cases h
  simp

theorem vital_execBwSet (id : Nat) (s : State) {t : State} (h : execBwSet id s = .next t) : vital t = vital s := by
  cases h
  exact vital_runCmd (fun c x => by simp) _ _ s

theorem vital_execBwRead (id : Nat) (s : State) {t : State} (h : execBwRead id s = .next t) : vital t = vital s := by
  cases h
  simp

theorem vital_execTraceSet (id : Nat) (s : State) {t : State} (h : execTraceSet id s = .next t) : vital t = vital s := by
  cases h
  simp

theorem vital_execTraceStatus (id : Nat) (s : State) {t : State} (h : execTraceStatus id s = .next t) : vital t = vital s := by
  cases h
  simp

theorem vital_execCageSet (id : Nat) (s : State) {t : State} (h : execCageSet id s = .next t) : vital t = vital s := by
  cases h
  simp

theorem vital_execCageReset (id : Nat) (s : State) {t : State} (h : execCageReset id s = .next t) : vital t = vital s := by
  cases h
  simp

@[simp] theorem vital_queueTransfer (id : Nat) (c : Cmd) (data : List Byte) (s : State) : vital (queueTransfer id c data s).s = vital s := by
  simp [queueTransfer]

theorem vital_execCageRead (id : Nat) (s : State) {t : State} (h : execCageRead id s = .next t) : vital t = vital s := by
  cases h
  simp

theorem vital_execCageWrite (id : Nat) (host : HostRead) (s : State) {t : State} (h : execCageWrite id host s = .next t) : vital t = vital s := by
  cases h
  simp

theorem vital_execCageStatus (id : Nat) (s : State) {t : State} (h : execCageStatus id s = .next t) : vital t = vital s := by
  cases h
  simp

theorem vital_execCageFlagClear (id : Nat) (s : State) {t : State} (h : execCageFlagClear id s = .next t) : vital t = vital s := by
  cases h
  simp

theorem vital_execAuxdacSet (id : Nat) (s : State) {t : State} (h : execAuxdacSet id s = .next t) : vital t = vital s := by
  cases h
  simp

theorem vital_execAuxadcSeq (id : Nat) (s : State) {t : State} (h : execAuxadcSeq id s = .next t) : vital t = vital s := by
  cases h
  simp

@[simp] theorem vital_adcTrigger (s : State) : vital (adcTrigger s).2 = vital s := by
  simp [adcTrigger]
  (repeat' split) <;> simp

theorem vital_execAuxadcTrigger (id : Nat) (s : State) {t : State} (h : execAuxadcTrigger id s = .next t) : vital t = vital s := by
  cases h
  simp

@[simp] theorem vital_dacCool (cool : List Nat) (s : State) : vital (dacCool cool s) = vital s := by
  simp [dacCool]

theorem vital_execAuxStatus (id : Nat) (cool : List Nat) (s : State) {t : State} (h : execAuxStatus id cool s = .next t) : vital t = vital s := by
  cases h
  simp

@[simp] theorem vital_answer (sent : List Byte) (block : Bool) (bytes : List Byte) (s : State) : vital (answer sent block bytes s) = vital s := by
  simp [answer]

@[simp] theorem vital_nack (s : State) : vital (nack s) = vital s := by
  simp [nack]

theorem vital_execMgmtStatusRead (s : State) {t : State} (h : execMgmtStatusRead s = .next t) : vital t = vital s := by
  cases h
  simp

@[simp] theorem vital_mgmtRead (code : Byte) (f : State → List Byte) (s : State) : vital (mgmtRead code f s) = vital s := by
  simp [mgmtRead]

theorem vital_execMgmtIdentity (s : State) {t : State} (h : execMgmtIdentity s = .next t) : vital t = vital s := by
  cases h
  simp

theorem vital_execMgmtHealth (s : State) {t : State} (h : execMgmtHealth s = .next t) : vital t = vital s := by
  cases h
  simp

theorem vital_execMgmtTemp (temps : List (Nat × Option Int)) (s : State) {t : State} (h : execMgmtTemp temps s = .next t) : vital t = vital s := by
  cases h
  simp

theorem vital_execMgmtGuardPending (s : State) {t : State} (h : execMgmtGuardPending s = .next t) : vital t = vital s := by
  cases h
  simp

@[simp] theorem vital_rangeRead (sent l : List Byte) (off len : Nat) (s : State) : vital (rangeRead sent l off len s) = vital s := by
  simp [rangeRead]

theorem vital_execMgmtGuardValue (item offset len : Nat) (s : State) {t : State} (h : execMgmtGuardValue item offset len s = .next t) :
    vital t = vital s := by
  cases h
  simp

@[simp] theorem vital_mgmtWrite {f : State → State} {s : State} (still : vital (f s) = vital s) (sent : List Byte) (pec : Option Byte) (ok : Bool) :
    vital (mgmtWrite sent pec ok f s) = vital s := by
  simp [mgmtWrite, still]

@[simp] theorem vital_guardResult (v : Nat) (s : State) : vital (guardResult v s) = vital s := by
  simp [guardResult]

@[simp] theorem vital_rejectConfirm (item v : Nat) (p : Proposal) (s : State) : vital (rejectConfirm item v p s) = vital s := by
  simp [rejectConfirm]

@[simp] theorem vital_applyPermissions (v : List Byte) (s : State) : vital (applyPermissions v s) = vital s := by
  simp [applyPermissions]

@[simp] theorem vital_endAlternate (p : Nat) (s : State) : vital (endAlternate p s) = vital s := by
  simp [endAlternate]

@[simp] theorem vital_modReady (f : Cage → Cage) (s : State) : vital (modReady f s) = vital s := by
  simp [modReady]

@[simp] theorem vital_lightOn (s : State) : vital (lightOn s) = vital s := by
  simp [lightOn]

@[simp] theorem vital_takePrimary (inn : Option GeoIn) (s : State) : vital (takePrimary inn s) = vital s := by
  simp [takePrimary]

@[simp] theorem vital_dropRole (s : State) : vital (dropRole s) = vital s := by
  simp [dropRole]

@[simp] theorem vital_bmcAbort (item : Nat) (nonce : BitVec 32) (s : State) : vital (bmcAbort item nonce s) = vital s := by
  unfold bmcAbort
  split <;> simp

theorem vital_execMgmtGuardAbort (item : Nat) (nonce : BitVec 32) (pec : Option Byte) (s : State)
    {t : State} (h : execMgmtGuardAbort item nonce pec s = .next t) : vital t = vital s := by
  cases h
  simp

theorem vital_execMgmtGuardResult (s : State) {t : State} (h : execMgmtGuardResult s = .next t) : vital t = vital s := by
  cases h
  simp

theorem vital_execMgmtErrorLog (index : Nat) (s : State) {t : State} (h : execMgmtErrorLog index s = .next t) : vital t = vital s := by
  cases h
  simp

theorem vital_execMgmtOtpRead (offset len : Nat) (s : State) {t : State} (h : execMgmtOtpRead offset len s = .next t) : vital t = vital s := by
  cases h
  simp

theorem vital_execMgmtAux (cool : List Nat) (s : State) {t : State} (h : execMgmtAux cool s = .next t) : vital t = vital s := by
  cases h
  simp

theorem vital_execAlertResponse (s : State) {t : State} (h : execAlertResponse s = .next t) : vital t = vital s := by
  cases h
  simp

theorem vital_execSmbClockTimeout (s : State) {t : State} (h : execSmbClockTimeout s = .next t) : vital t = vital s := by
  cases h
  simp

theorem vital_execGuardWindowEnd (item : Nat) (s : State) {t : State} (h : execGuardWindowEnd item s = .next t) : vital t = vital s := by
  cases h
  simp

theorem vital_execPpsOutEdge (s : State) {t : State} (h : execPpsOutEdge s = .next t) : vital t = vital s := by
  cases h
  simp

theorem vital_execPpsOutPulseEnd (pin : Nat) (s : State) {t : State} (h : execPpsOutPulseEnd pin s = .next t) : vital t = vital s := by
  cases h
  simp

@[simp] theorem vital_adcSource (source : Nat) (s : State) : vital (adcSource source s) = vital s := by
  simp [adcSource]

theorem vital_execPpsInEdge (s : State) {t : State} (h : execPpsInEdge s = .next t) : vital t = vital s := by
  cases h
  simp

theorem vital_execPpsInLost (s : State) {t : State} (h : execPpsInLost s = .next t) : vital t = vital s := by
  cases h
  simp

theorem vital_execServoFeedTimeout (s : State) {t : State} (h : execServoFeedTimeout s = .next t) : vital t = vital s := by
  cases h
  simp

theorem vital_execSynceUnsquelch (output : Nat) (s : State) {t : State} (h : execSynceUnsquelch output s = .next t) : vital t = vital s := by
  cases h
  simp

theorem vital_execHelloSend (s : State) {t : State} (h : execHelloSend s = .next t) : vital t = vital s := by
  cases h
  simp

@[simp] theorem vital_takeHelloAck (h : Hello) (s : State) : vital (takeHelloAck h s) = vital s := by
  simp [takeHelloAck]

@[simp] theorem vital_endOut (st : Status) (s : State) : vital (endOut st s) = vital s := by
  unfold endOut
  dsimp only
  (repeat' split) <;> simp

@[simp] theorem vital_settleOut (h : Hello) (was : Option Hello) (s : State) : vital (settleOut h was s) = vital s := by
  simp [settleOut]

@[simp] theorem vital_resolveRoles (h : Hello) (s : State) : vital (resolveRoles h s) = vital s := by
  simp [resolveRoles]

@[simp] theorem vital_sendMap {α : Type} {f : Nat → α → State → State} (still : ∀ k v s, vital (f k v s) = vital s) (m : Map α) (s : State) :
    vital (sendMap m f s) = vital s := by
  unfold sendMap
  exact vital_foldl (fun s e => still e.1 e.2 s) m s

theorem vital_execTimeRecordSend (s : State) {t : State} (h : execTimeRecordSend s = .next t) : vital t = vital s := by
  cases h
  simp

theorem vital_execGeodeRoundTrip (s : State) {t : State} (h : execGeodeRoundTrip s = .next t) : vital t = vital s := by
  cases h
  simp

@[simp] theorem vital_withMirror {f : List Byte → State → State} (still : ∀ r s, vital (f r s) = vital s) (t : Nat) (s : State) :
    vital (withMirror t s f) = vital s := by
  unfold withMirror
  split
  · rfl
  · split
    · rfl
    · exact vital_withRecord still _ _ _

@[simp] theorem vital_discardConfig (s : State) : vital (discardConfig s) = vital s := by
  simp [discardConfig]

theorem vital_mirrorRun {pre : Cmd → State → Option Status} {body : Cmd → State → Ran} {c : Cmd} {s t : State}
    (still : vital (body c s).s = vital s) (h : mirrorRun pre body c s = some t) : vital t = vital s := by
  unfold mirrorRun at h
  dsimp only at h
  split at h
  · contradiction
  · split at h
    · cases h; exact still
    · contradiction

theorem vital_execEpochBeginReceive (s : State) {t : State} (h : execEpochBeginReceive s = .next t) : vital t = vital s := by
  cases h
  simp

theorem vital_execEpochEndReceive (s : State) {t : State} (h : execEpochEndReceive s = .next t) : vital t = vital s := by
  cases h
  split
  · rfl
  · refine vital_withMirror (fun r x => ?_) _ s
    split <;> simp

theorem vital_execHandoverReceive (s : State) {t : State} (h : execHandoverReceive s = .next t) : vital t = vital s := by
  cases h
  simp

theorem vital_execDarkReceive (s : State) {t : State} (h : execDarkReceive s = .next t) : vital t = vital s := by
  cases h
  exact vital_withRecord (fun r x => by simp) _ _ s

@[simp] theorem vital_geodeRampUp (s : State) : vital (geodeRampUp s) = vital s := by
  simp [geodeRampUp]

theorem vital_execGeodeRampUpStart (s : State) {t : State} (h : execGeodeRampUpStart s = .next t) : vital t = vital s := by
  cases h
  split <;> simp

theorem vital_execTakenReceive (s : State) {t : State} (h : execTakenReceive s = .next t) : vital t = vital s := by
  cases h
  simp

theorem vital_execGeodeLinkLoss (s : State) {t : State} (h : execGeodeLinkLoss s = .next t) : vital t = vital s := by
  cases h
  dsimp only
  (repeat' split) <;> simp

theorem vital_execLinkLossTakeover (s : State) {t : State} (h : execLinkLossTakeover s = .next t) : vital t = vital s := by
  cases h
  simp

theorem vital_execQuiesceDrainEnd (s : State) {t : State} (h : execQuiesceDrainEnd s = .next t) : vital t = vital s := by
  cases h
  simp

@[simp] theorem vital_bankSig (b : Nat) (found : List Found) (had : Option (BitVec 32)) (s : State) : vital (bankSig b found had s).2 = vital s := by
  unfold bankSig
  dsimp only
  split
  · rfl
  · split
    · split <;> simp
    · simp

@[simp] theorem vital_signBanks (found : List Found) (l : List Nat) (s : State) : vital (signBanks found l s) = vital s := by
  induction l generalizing s with
  | nil => rfl
  | cons b r ih => exact (ih _).trans (by simp)

@[simp] theorem vital_latchBus (s : State) : vital (latchBus s) = vital s := by
  simp [latchBus]

@[simp] theorem vital_banksSettle (s : State) : vital (banksSettle s) = vital s := by
  simp [banksSettle]

theorem vital_execAdcPeriodTimer (s : State) {t : State} (h : execAdcPeriodTimer s = .next t) : vital t = vital s := by
  cases h
  simp

theorem vital_execAdcSequenceEnd (codes : List Nat) (s : State) {t : State} (h : execAdcSequenceEnd codes s = .next t) : vital t = vital s := by
  cases h
  simp

theorem vital_execAuxdacModeChangeEnd (s : State) {t : State} (h : execAuxdacModeChangeEnd s = .next t) : vital t = vital s := by
  cases h
  simp

theorem vital_execAuxOverTemp (output : Nat) (s : State) {t : State} (h : execAuxOverTemp output s = .next t) : vital t = vital s := by
  cases h
  simp

theorem vital_execAuxdacFaultEnd (output : Nat) (s : State) {t : State} (h : execAuxdacFaultEnd output s = .next t) : vital t = vital s := by
  cases h
  simp

theorem vital_execSnapshotPeriod (s : State) {t : State} (h : execSnapshotPeriod s = .next t) : vital t = vital s := by
  cases h
  simp

@[simp] theorem vital_clearWraps (s : State) : vital (clearWraps s) = vital s := by
  unfold clearWraps
  dsimp only
  rw [vital_mapMem (by simp [mmap])]
  simp

@[simp] theorem vital_snapCopy (s : State) : vital (snapCopy s) = vital s := by
  unfold snapCopy
  split
  · rfl
  · dsimp only
    generalize List.range snapBlocks = blocks
    exact (vital_post _ _ _ _ _).trans ((vital_hostWrite _ _ _).trans (vital_foldl (fun x b => vital_hostWrite _ _ x) blocks s))

@[simp] theorem vital_snapNext (s : State) : vital (snapNext s) = vital s := by
  unfold snapNext
  split <;> simp

theorem vital_execSnapshotComplete (s : State) {t : State} (h : execSnapshotComplete s = .next t) : vital t = vital s := by
  cases h
  split
  · rfl
  · dsimp only
    split <;> simp

theorem vital_execBwWindowEnd (portNo : Nat) (s : State) {t : State} (h : execBwWindowEnd portNo s = .next t) : vital t = vital s := by
  cases h
  simp

theorem vital_execTraceOverflow (s : State) {t : State} (h : execTraceOverflow s = .next t) : vital t = vital s := by
  cases h
  simp

theorem vital_execGroupBRailReturn (rail : Nat) (s : State) {t : State} (h : execGroupBRailReturn rail s = .next t) : vital t = vital s := by
  cases h
  simp

theorem vital_execPcieLinkUp (s : State) {t : State} (h : execPcieLinkUp s = .next t) : vital t = vital s := by
  cases h
  simp

theorem vital_execPcieConfigRequest (offset : Nat) (s : State) {t : State} (h : execPcieConfigRequest offset s = .next t) : vital t = vital s := by
  cases h
  simp

theorem vital_execLocalFaultReceived (port columns : Nat) (s : State) {t : State} (h : execLocalFaultReceived port columns s = .next t) :
    vital t = vital s := by
  cases h
  simp

theorem vital_execStdLinkLocalFault (n : Nat) (present : Bool) (s : State) {t : State} (h : execStdLinkLocalFault n present s = .next t) :
    vital t = vital s := by
  cases h
  simp

theorem vital_execTrainingStep2aStart (n i : Nat) (s : State) {t : State} (h : execTrainingStep2aStart n i s = .next t) : vital t = vital s := by
  cases h
  simp

@[simp] theorem vital_flitOut (n i : Nat) (b : List Byte) (s : State) : vital (flitOut n i b s) = vital s := by
  simp [flitOut]

@[simp] theorem vital_packetOut (a : Option Nat) (s : State) : vital (packetOut a s) = vital s := by
  simp [packetOut]
  (repeat' split) <;> simp

@[simp] theorem vital_packetsOut (before after : Link) (s : State) : vital (packetsOut before after s) = vital s := by
  simp [packetsOut]

theorem vital_execFlitSend (n i : Nat) (s : State) {t : State} (h : execFlitSend n i s = .next t) : vital t = vital s := by
  cases h
  dsimp only
  (repeat' split) <;> simp

theorem vital_execChannelSlot (stack' ch : Nat) (busy : List Nat) (s : State) {t : State} (h : execChannelSlot stack' ch busy s = .next t) :
    vital t = vital s := by
  cases h
  simp
  split <;> simp

theorem vital_execVoltageFailWindowEnd (s : State) {t : State} (h : execVoltageFailWindowEnd s = .next t) : vital t = vital s := by
  cases h
  simp

end Sys2Proof.Machine
end

section
/-! PROOFS. What the other operations and commands do to the vital part: the log and board OTP grow, and the bounds stay. -/
namespace Sys2Proof.Machine

/-- The error log only grows: no count goes down, and a slot changes only when an entry is written to it. -/
structure LogGrows (a b : Elog) : Prop where
  /-- The count. -/
  count : a.total ≤ b.total
  /-- The slots under an unchanged count. -/
  still : b.total = a.total → ∀ i, mget b.slots i ErrEntry.init = mget a.slots i ErrEntry.init
  /-- The slots of the last 256 entries. -/
  recent : ∀ n, n < a.total → b.total ≤ n + 256 → mget b.slots (n % 256) ErrEntry.init = mget a.slots (n % 256) ErrEntry.init

theorem LogGrows.refl (a : Elog) : LogGrows a a := ⟨Nat.le_refl _, fun _ _ => rfl, fun _ _ _ => rfl⟩

theorem LogGrows.trans {a b c : Elog} (h : LogGrows a b) (k : LogGrows b c) : LogGrows a c where
  count := h.count.trans k.count
  still := fun e i => by
    have hb := h.count
    have hc := k.count
    exact (k.still (by omega) i).trans (h.still (by omega) i)
  recent := fun n ha hc => by
    have hb := h.count
    have hk := k.count
    exact (k.recent n (by omega) hc).trans (h.recent n ha (by omega))

theorem Memory.filter_wfFrom {m : Memory} {lo : Nat} (p : Nat × Byte → Bool) (h : m.wfFrom lo = true) : Memory.wfFrom lo (m.filter p) = true := by
  induction m generalizing lo with
  | nil => rfl
  | cons e r ih =>
    obtain ⟨a, b⟩ := e
    simp only [Memory.wfFrom, Bool.and_eq_true, decide_eq_true_eq] at h
    obtain ⟨⟨low, nonzero⟩, rest⟩ := h
    by_cases keep : p (a, b) = true
    · simp only [List.filter_cons, if_pos keep, Memory.wfFrom, Bool.and_eq_true, decide_eq_true_eq]
      exact ⟨⟨low, nonzero⟩, ih rest⟩
    · simp only [List.filter_cons, if_neg keep]
      exact Memory.wfFrom_mono (by omega) (ih rest)

/-- The bytes of a memory after a row of bytes was written to it. -/
theorem Memory.get_putBytes {m : Memory} (a : Nat) (l : List Byte) (x : Nat) (form : m.wf = true) :
    (m.putBytes a l).get x = if a ≤ x ∧ x < a + l.length then l.getD (x - a) 0 else m.get x := by
  induction l generalizing m a with
  | nil => simp [Memory.putBytes]
  | cons b l ih =>
    rw [Memory.putBytes, ih _ (Memory.put_wf a b form), Memory.get_put _ _ _ form]
    by_cases first : x = a
    · simp [first]
    · by_cases later : a ≤ x ∧ x < a + (b :: l).length
      · obtain ⟨k, rfl⟩ := Nat.exists_eq_add_of_lt (show a < x by omega)
        have inside : k < l.length := by simp at later; omega
        simp [inside, Nat.add_assoc, Nat.add_comm 1, show a + (k + 1) - (a + 1) = k by omega, show k + 1 < l.length + 1 by omega]
      · rw [if_neg later, if_neg (by simp at later ⊢; omega), if_neg first]

theorem Memory.length_getBytes (m : Memory) (a n : Nat) : (m.getBytes a n).length = n := by
  induction n generalizing a with
  | zero => rfl
  | succ n ih => simp [Memory.getBytes, ih]

theorem Memory.getElem_getBytes (m : Memory) (a n i : Nat) (h : i < (m.getBytes a n).length) : (m.getBytes a n)[i] = m.get (a + i) := by
  induction n generalizing a i with
  | zero => simp [Memory.getBytes] at h
  | succ n ih =>
    cases i with
    | zero => rfl
    | succ i => simp [Memory.getBytes, ih, Nat.add_assoc, Nat.add_comm 1]

/-- No bit of board OTP that is set is cleared, and the canonical form stays. -/
structure OtpGrows (a b : Memory) : Prop where
  /-- The canonical form. -/
  form : Memory.wf a = true → Memory.wf b = true
  /-- The bits. -/
  bits : Memory.wf a = true → ∀ x i, (Memory.get a x).getLsbD i = true → (Memory.get b x).getLsbD i = true

theorem OtpGrows.refl (a : Memory) : OtpGrows a a := ⟨id, fun _ _ _ => id⟩

theorem OtpGrows.trans {a b c : Memory} (h : OtpGrows a b) (k : OtpGrows b c) : OtpGrows a c where
  form := fun w => k.form (h.form w)
  bits := fun w x i set => k.bits (h.form w) x i (h.bits w x i set)

/-- Bytes written to board OTP that hold each bit of the ones before clear none. -/
theorem OtpGrows.putBytes {m : Memory} {off : Nat} {l : List Byte}
    (keep : ∀ i (h : i < l.length) j, (m.get (off + i)).getLsbD j = true → l[i].getLsbD j = true) : OtpGrows m (m.putBytes off l) where
  form := Memory.putBytes_wf off l
  bits := fun form x j set => by
    rw [Memory.get_putBytes off l x form]
    split
    · next inside =>
      have below : x - off < l.length := by omega
      rw [List.getD_eq_getElem _ _ below]
      exact keep _ below j (by rwa [show off + (x - off) = x by omega])
    · exact set

/-- A vital part within the bounds of the invariant. -/
structure Vital.Sound (v : Vital) : Prop where
  /-- Board OTP. -/
  otp : Memory.wf v.otp = true
  /-- The memories. -/
  cells : ∀ m ∈ v.cells, Memory.wf m = true
  /-- The clock. -/
  ns : v.ns < 1000000000
  /-- The set points. -/
  points : setPointOk v.points.1 ∧ setPointOk v.points.2.1 ∧ setPointOk v.points.2.2
  /-- The set point to be tried again. -/
  retry : ∀ mv, v.retry = some mv → setPointOk mv
  /-- The management address. -/
  addr : 0x64 ≤ v.addr ∧ v.addr ≤ 0x67

theorem inv_iff_sound (s : State) : Inv s ↔ (vital s).Sound := by
  constructor
  · rintro ⟨⟨otp, cells⟩, clock, point, requested, previous, retry, address⟩
    refine ⟨otp, fun m h => ?_, clock, ⟨point, requested, previous⟩, retry, address⟩
    obtain ⟨r, hr, rfl⟩ := List.mem_map.1 h
    exact cells r hr
  · rintro ⟨otp, cells, clock, ⟨point, requested, previous⟩, retry, address⟩
    exact ⟨⟨otp, fun r h => cells _ (List.mem_map.2 ⟨r, h, rfl⟩)⟩, clock, point, requested, previous, retry, address⟩

/-- What every command keeps: bits of board OTP and the bounds. -/
structure Keeps (v w : Vital) : Prop where
  /-- Board OTP. -/
  otp : OtpGrows v.otp w.otp
  /-- The bounds. -/
  sound : v.Sound → w.Sound

theorem Keeps.refl (v : Vital) : Keeps v v := ⟨OtpGrows.refl _, id⟩

theorem Keeps.trans {u v w : Vital} (h : Keeps u v) (k : Keeps v w) : Keeps u w := ⟨h.otp.trans k.otp, k.sound ∘ h.sound⟩

/-- What every command keeps but the two that clear the error log. -/
structure Leads (v w : Vital) : Prop where
  /-- The bits and the bounds. -/
  keeps : Keeps v w
  /-- The error log. -/
  log : LogGrows v.elog w.elog

@[simp] theorem Leads.refl (v : Vital) : Leads v v := ⟨Keeps.refl v, LogGrows.refl _⟩

theorem Leads.trans {u v w : Vital} (h : Leads u v) (k : Leads v w) : Leads u w := ⟨h.keeps.trans k.keeps, h.log.trans k.log⟩

/-- A step between vital parts with the same error log and board OTP. -/
theorem Leads.of_sound {v w : Vital} (log : w.elog = v.elog) (otp : w.otp = v.otp) (sound : v.Sound → w.Sound) : Leads v w :=
  ⟨⟨otp ▸ OtpGrows.refl _, sound⟩, log ▸ LogGrows.refl _⟩

@[simp] theorem leads_ite {c : Prop} [Decidable c] {v a b : Vital} (ha : Leads v a) (hb : Leads v b) : Leads v (if c then a else b) := by
  split
  · exact ha
  · exact hb

@[simp] theorem leads_foldl {α : Type} {v : Vital} {f : State → α → State} (step : ∀ s a, Leads v (vital s) → Leads v (vital (f s a))) (l : List α)
    {s : State} (h : Leads v (vital s)) : Leads v (vital (l.foldl f s)) := by
  induction l generalizing s with
  | nil => exact h
  | cons a l ih => exact ih (step s a h)

@[simp] theorem leads_logErr {v : Vital} (code subject detail : Nat) {s : State} (h : Leads v (vital s)) :
    Leads v (vital (logErr code subject detail s)) := by
  refine h.trans ⟨⟨OtpGrows.refl _, fun k => ⟨k.otp, k.cells, k.ns, k.points, k.retry, k.addr⟩⟩, ⟨?_, ?_, ?_⟩⟩
  · simp [logErr, vital]
  · simp [logErr, vital]
  · intro n below recent
    have other : n % 256 ≠ s.elog.total % 256 := by
      simp [logErr, vital] at below recent
      omega
    simp [logErr, vital, mget, mfind_mput, other]

@[simp] theorem leads_mapTim {v : Vital} {f : Tim → Tim} {s : State} (bound : s.tim.ns < 1000000000 → (f s.tim).ns < 1000000000)
    (h : Leads v (vital s)) : Leads v (vital (s.mapTim f)) :=
  h.trans (Leads.of_sound rfl rfl fun k => ⟨k.otp, k.cells, bound k.ns, k.points, k.retry, k.addr⟩)

theorem mem_of_mput {α : Type} {m : Map α} {k : Nat} {v : α} {p : Nat × α} (h : p ∈ mput m k v) : p ∈ m ∨ p = (k, v) := by
  induction m with
  | nil => simpa [mput] using h
  | cons q m ih =>
    simp only [mput] at h
    split at h
    · simpa [or_comm] using h
    · split at h
      · simp at h ⊢; tauto
      · simp at h ⊢; tauto

theorem mget_mem_or {α : Type} (m : Map α) (k : Nat) (d : α) : (k, mget m k d) ∈ m ∨ mget m k d = d := by
  induction m with
  | nil => exact .inr rfl
  | cons q m ih =>
    by_cases e : k = q.1
    · left
      simp [mget, mfind, e]
    · simpa [mget, mfind, e] using ih.imp .inr id

@[simp] theorem leads_modRegion {v : Vital} {r : Nat} {f : Region → Region} {s : State}
    (form : ∀ g : Region, Memory.wf g.cells = true → Memory.wf (f g).cells = true) (h : Leads v (vital s)) :
    Leads v (vital (modRegion r f s)) := by
  refine h.trans (Leads.of_sound rfl rfl fun k => ⟨k.otp, ?_, k.ns, k.points, k.retry, k.addr⟩)
  intro m hm
  obtain ⟨p, hp, rfl⟩ := List.mem_map.1 hm
  obtain old | rfl := mem_of_mput hp
  · exact k.cells _ (List.mem_map.2 ⟨p, old, rfl⟩)
  · refine form _ ?_
    obtain old | new := mget_mem_or s.mem.regions r Region.init
    · exact k.cells _ (List.mem_map.2 ⟨_, old, rfl⟩)
    · rw [new]
      rfl

@[simp] theorem leads_coreClear {v : Vital} {s : State} (h : Leads v (vital s)) : Leads v (vital (coreClear s)) :=
  h.trans (Leads.of_sound rfl rfl fun k => ⟨k.otp, fun _ hm => (List.not_mem_nil hm).elim, Nat.zero_lt_succ _, k.points, k.retry, k.addr⟩)

@[simp] theorem leads_forEach {v : Vital} {f : Nat → State → State} (step : ∀ n s, Leads v (vital s) → Leads v (vital (f n s))) (l : List Nat)
    {s : State} (h : Leads v (vital s)) : Leads v (vital (forEach l f s)) :=
  leads_foldl (fun s n => step n s) l h

@[simp] theorem leads_runCmd {v : Vital} {pre : Cmd → State → Option Status} {body : Cmd → State → Ran}
    (step : ∀ c s, Leads v (vital s) → Leads v (vital (body c s).s)) (id op : Nat) {s : State} (h : Leads v (vital s)) :
    Leads v (vital (runCmd id op pre body s)) := by
  unfold runCmd
  split
  · exact h
  · dsimp only
    split
    · simp [h]
    · split
      · simp [h]
      · split <;> simp [step, h]

@[simp] theorem leads_withHost {v : Vital} {k : List Byte → Ran} {s : State} (step : ∀ l, Leads v (vital (k l).s)) (c : Cmd) (len : Nat)
    (host : HostRead) (h : Leads v (vital s)) : Leads v (vital (withHost c len host s k).s) := by
  unfold withHost
  split
  · exact h
  · cases host with
    | data l => exact step _
    | error | timeout => exact h

@[simp] theorem leads_timeCmd {v : Vital} {k : State → Ran} (step : ∀ s, Leads v (vital s) → Leads v (vital (k s).s)) (needs refused : Bool)
    (c : Cmd) {s : State} (h : Leads v (vital s)) : Leads v (vital (timeCmd needs refused c s k).s) := by
  unfold timeCmd
  split
  · exact h
  · split
    · exact h
    · split
      · exact h
      · exact step _ h

@[simp] theorem leads_mgmtWrite {v : Vital} {f : State → State} {s : State} (step : Leads v (vital s) → Leads v (vital (f s))) (sent : List Byte)
    (pec : Option Byte) (ok : Bool) (h : Leads v (vital s)) : Leads v (vital (mgmtWrite sent pec ok f s)) := by
  unfold mgmtWrite
  split
  · simpa using step h
  · simpa using h

@[simp] theorem leads_withRecord {v : Vital} {f : List Byte → State → State} (step : ∀ r s, Leads v (vital s) → Leads v (vital (f r s))) (n : Nat)
    (p : List Byte → Bool) {s : State} (h : Leads v (vital s)) : Leads v (vital (withRecord n p s f)) := by
  unfold withRecord
  split
  · exact h
  · next r t took => exact step r t (by rwa [vital_takeRecord took])

@[simp] theorem leads_withMirror {v : Vital} {f : List Byte → State → State} (step : ∀ r s, Leads v (vital s) → Leads v (vital (f r s))) (t : Nat)
    {s : State} (h : Leads v (vital s)) : Leads v (vital (withMirror t s f)) := by
  unfold withMirror
  split
  · exact h
  · split
    · exact h
    · exact leads_withRecord step _ _ h

theorem leads_mirrorRun {v : Vital} {pre : Cmd → State → Option Status} {body : Cmd → State → Ran} {c : Cmd} {s t : State}
    (step : Leads v (vital s) → Leads v (vital (body c s).s)) (h : Leads v (vital s)) (ran : mirrorRun pre body c s = some t) :
    Leads v (vital t) := by
  unfold mirrorRun at ran
  dsimp only at ran
  split at ran
  · contradiction
  · split at ran
    · cases ran
      exact step h
    · contradiction

theorem clearedRegion_wf (s : State) (r : Nat) (g : Region) (form : Memory.wf g.cells = true) : Memory.wf (clearedRegion s r g).cells = true := by
  unfold clearedRegion
  dsimp only
  split
  · exact Memory.filter_wfFrom _ form
  · rfl

theorem setClock_ns (u : Int) (t : Tim) : (setClock u t).ns < 1000000000 := by
  simp only [setClock]
  omega

@[simp] theorem leads_otpInterrupt {v : Vital} {s : State} (h : Leads v (vital s)) : Leads v (vital (otpInterrupt s)) := by
  unfold otpInterrupt
  split
  · exact h
  · next off data _ _ _ =>
    refine h.trans ⟨⟨OtpGrows.putBytes ?_, fun k => ⟨Memory.putBytes_wf _ _ k.otp, k.cells, k.ns, k.points, k.retry, k.addr⟩⟩, LogGrows.refl _⟩
    intro i inside j set
    have old : (Memory.get s.otp.bytes (off + i)).getLsbD j = true := set
    simp [Memory.getElem_getBytes, old]

theorem keeps_porReset {v : Vital} {s : State} (h : Leads v (vital s)) : Keeps v (vital (porReset s)) := by
  refine (leads_otpInterrupt h).keeps.trans ⟨OtpGrows.refl _, fun k => ?_⟩
  have points : setPointOk Bed.init.avsSet ∧ setPointOk Bed.init.avsReq ∧ setPointOk Bed.init.avsPrev := by
    unfold setPointOk
    decide
  have addr : 0x64 ≤ Mgmt.init.addr ∧ Mgmt.init.addr ≤ 0x67 := by decide
  refine ⟨k.otp, fun _ hm => (List.not_mem_nil hm).elim, Nat.zero_lt_succ _, points, fun _ again => ?_, addr⟩
  cases again

theorem keeps_execPorNAssert (s : State) {t : State} (h : execPorNAssert s = .next t) : Keeps (vital s) (vital t) := by
  cases h
  exact keeps_porReset (Leads.refl _)

@[simp] theorem leads_bedrockStart {v : Vital} (strap : Nat) {s : State} (h : Leads v (vital s)) : Leads v (vital (bedrockStart strap s)) := by
  refine h.trans ⟨⟨OtpGrows.refl _, fun k => ⟨k.otp, k.cells, k.ns, k.points, k.retry, ?_⟩⟩, ⟨Nat.le_refl _, fun _ _ => rfl, fun _ _ _ => rfl⟩⟩
  simp only [bedrockStart, vital, State.mapBed_mgmt, State.mapMgmt_mgmt, State.mapElog_mgmt, State.mapOtp_mgmt]
  omega

theorem leads_execPorNDeassert (strap : Nat) (s : State) {t : State} (h : execPorNDeassert strap s = .next t) : Leads (vital s) (vital t) := by
  cases h
  split <;> simp

theorem leads_execBedrockClkLoss (s : State) {t : State} (h : execBedrockClkLoss s = .next t) : Leads (vital s) (vital t) := by
  cases h
  split <;> simp

theorem keeps_execVddBedrockLoss (s : State) {t : State} (h : execVddBedrockLoss s = .next t) : Keeps (vital s) (vital t) := by
  cases h
  exact keeps_porReset (Leads.refl _)

theorem leads_execVddBedrockReturn (strap : Nat) (s : State) {t : State} (h : execVddBedrockReturn strap s = .next t) :
    Leads (vital s) (vital t) := by
  cases h
  dsimp only
  split
  · simp
  · split
    · rw [vital_mapBed rfl rfl rfl rfl, vital_mapBed rfl rfl rfl rfl]
      exact Leads.refl _
    · refine leads_bedrockStart _ ?_
      rw [vital_mapBed rfl rfl rfl rfl, vital_mapBed rfl rfl rfl rfl]
      exact Leads.refl _

@[simp] theorem leads_outerReset {v : Vital} {s : State} (h : Leads v (vital s)) : Leads v (vital (outerReset s)) := by
  simp [outerReset, h]

@[simp] theorem leads_perstEffect {v : Vital} {s : State} (h : Leads v (vital s)) : Leads v (vital (perstEffect s)) := by
  simp [perstEffect, h]

theorem leads_execVddioMgmtLoss (s : State) {t : State} (h : execVddioMgmtLoss s = .next t) : Leads (vital s) (vital t) := by
  cases h
  simp

theorem leads_execPerstNAssert (s : State) {t : State} (h : execPerstNAssert s = .next t) : Leads (vital s) (vital t) := by
  cases h
  simp

@[simp] theorem leads_wake {v : Vital} (source : Nat) {s : State} (h : Leads v (vital s)) : Leads v (vital (wake source s)) := by
  unfold wake
  split
  · split
    · simpa using h
    · exact h
  · dsimp only
    rw [vital_tryStart]
    refine leads_logErr _ _ _ ?_
    rw [vital_mapBed rfl rfl rfl rfl, vital_mapRetn]
    exact h

@[simp] theorem leads_perstRelease {v : Vital} {s : State} (h : Leads v (vital s)) : Leads v (vital (perstRelease s)) := by
  simp [perstRelease, h]

theorem leads_execPerstNDeassert (s : State) {t : State} (h : execPerstNDeassert s = .next t) : Leads (vital s) (vital t) := by
  have pin : vital (s.mapBed fun b => { b with perstPin := false }) = vital s := vital_mapBed rfl rfl rfl rfl
  cases h
  dsimp only
  split
  · refine leads_perstRelease ?_
    rw [pin]
    exact Leads.refl _
  · rw [pin]
    exact Leads.refl _

@[simp] theorem leads_cleanse {v : Vital} (r : Nat) (lo : Nat) (hi : Nat) {s : State} (h : Leads v (vital s)) :
    Leads v (vital (cleanse r lo hi s)) := by
  simp [cleanse, h]

theorem leads_execMemoryInitDone (region' : Nat) (s : State) {t : State} (h : execMemoryInitDone region' s = .next t) :
    Leads (vital s) (vital t) := by
  cases h
  split
  · exact Leads.refl _
  · extract_lets s1 s2 s3
    have cleared : Leads (vital s) (vital s1) := leads_modRegion (clearedRegion_wf s region') (Leads.refl _)
    have cleansed : Leads (vital s) (vital s2) := by
      unfold s2
      split <;> simp [cleared]
    have done : Leads (vital s) (vital s3) := by simpa [s3] using cleansed
    split
    · rw [vital_clearCause, vital_mapMem rfl]
      exact done
    · exact done

@[simp] theorem vital_restoreTables (s : State) : vital (restoreTables s) = vital s := by
  unfold restoreTables
  dsimp only
  split <;> rfl

theorem leads_execFwReady (s : State) {t : State} (h : execFwReady s = .next t) : Leads (vital s) (vital t) := by
  cases h
  simp

@[simp] theorem leads_hardRepairs {v : Vital} (m : Nat) {s : State} (h : Leads v (vital s)) : Leads v (vital (hardRepairs m s)) := by
  unfold hardRepairs
  dsimp only
  rw [vital_mapRep]
  refine leads_foldl (fun s r k => ?_) _ h
  rw [vital_modStack, vital_mapOtp rfl, vital_mapRep]
  exact leads_logErr _ _ _ k

@[simp] theorem leads_trainFailed {v : Vital} (m : Nat) {s : State} (h : Leads v (vital s)) : Leads v (vital (trainFailed m s)) := by
  simp [trainFailed, h]

theorem leads_execHbmTrainAttemptEnd (stack' : Nat) (passed : Bool) (resources : Nat) (s : State)
    {t : State} (h : execHbmTrainAttemptEnd stack' passed resources s = .next t) : Leads (vital s) (vital t) := by
  cases h
  dsimp only
  (repeat' split) <;> simp

@[simp] theorem leads_coreReset {v : Vital} (code : Nat) (subject : Nat) (detail : Nat) {s : State} (h : Leads v (vital s)) :
    Leads v (vital (coreReset code subject detail s)) := by
  simp [coreReset, h]

theorem leads_execBrownoutReset (uv : Nat) (s : State) {t : State} (h : execBrownoutReset uv s = .next t) : Leads (vital s) (vital t) := by
  cases h
  simp

theorem leads_execGroupBRailLoss (rail : Nat) (s : State) {t : State} (h : execGroupBRailLoss rail s = .next t) : Leads (vital s) (vital t) := by
  cases h
  dsimp only
  (repeat' split) <;> simp

theorem leads_execGroupCRailLoss (rail : Nat) (s : State) {t : State} (h : execGroupCRailLoss rail s = .next t) : Leads (vital s) (vital t) := by
  cases h
  dsimp only
  (repeat' split) <;> simp

theorem leads_execRefclkLost (clk : Nat) (s : State) {t : State} (h : execRefclkLost clk s = .next t) : Leads (vital s) (vital t) := by
  cases h
  dsimp only
  (repeat' split) <;> simp

@[simp] theorem leads_pllRestart {v : Vital} (pll : Nat) {s : State} (h : Leads v (vital s)) : Leads v (vital (pllRestart pll s)) := by
  have stopped : Leads v (vital (s.mapTim fun _ => { Tim.init with blockOn := true })) := leads_mapTim (fun _ => Nat.zero_lt_succ _) h
  unfold pllRestart
  dsimp only
  (repeat' split) <;> simp [h, stopped]

theorem leads_execPllUnlock (pll : Nat) (s : State) {t : State} (h : execPllUnlock pll s = .next t) : Leads (vital s) (vital t) := by
  cases h
  split <;> simp

theorem leads_execThermtrip (sensor : Nat) (reading : Int) (s : State) {t : State} (h : execThermtrip sensor reading s = .next t) :
    Leads (vital s) (vital t) := by
  cases h
  split
  · exact Leads.refl _
  · dsimp only
    rw [vital_otpDetach, vital_mapRetn, vital_mapDac]
    refine leads_coreClear ?_
    rw [vital_mapBed rfl rfl rfl rfl]
    exact leads_logErr _ _ _ (Leads.refl _)

theorem leads_avsIssue {v : Vital} {mv : Nat} {s : State} (bound : (vital s).Sound → setPointOk mv) (h : Leads v (vital s)) :
    Leads v (vital (avsIssue mv s)) := by
  refine h.trans (Leads.of_sound rfl rfl fun k => ⟨k.otp, k.cells, k.ns, ⟨k.points.1, bound k, k.points.2.2⟩, ?_, k.addr⟩)
  intro _ again
  cases again

theorem avsWanted_bound (s : State) (h : setPointOk s.bed.avsSet) : 620 ≤ avsWanted s ∧ avsWanted s ≤ 800 := by
  obtain ⟨low, high, -⟩ := h
  unfold avsWanted
  split <;> omega

theorem leads_execAvsRequest (mv : Nat) (s : State) {t : State} (h : execAvsRequest mv s = .next t) : Leads (vital s) (vital t) := by
  cases h
  split
  · next asked =>
    obtain ⟨-, -, five, near⟩ := asked
    refine leads_avsIssue (fun k => ?_) (Leads.refl _)
    obtain ⟨low, high, -⟩ : setPointOk s.bed.avsSet := k.points.1
    have wanted := avsWanted_bound s k.points.1
    unfold setPointOk
    omega
  · exact Leads.refl _

theorem leads_execAvsAck (s : State) {t : State} (h : execAvsAck s = .next t) : Leads (vital s) (vital t) := by
  cases h
  split
  · exact Leads.refl _
  · exact Leads.of_sound rfl rfl fun k => ⟨k.otp, k.cells, k.ns, ⟨k.points.2.1, k.points.2.1, k.points.1⟩, k.retry, k.addr⟩

theorem leads_execAvsTimeout (s : State) {t : State} (h : execAvsTimeout s = .next t) : Leads (vital s) (vital t) := by
  cases h
  split
  · exact Leads.refl _
  · split
    · simp
    · simp only [vital_voltageFail, vital_post]
      refine leads_logErr _ _ _ (Leads.of_sound rfl rfl fun k => ⟨k.otp, k.cells, k.ns, ⟨k.points.1, k.points.1, k.points.2.2⟩, ?_, k.addr⟩)
      rintro _ ⟨⟩
      exact k.points.2.1

theorem leads_execAvsRetry (s : State) {t : State} (h : execAvsRetry s = .next t) : Leads (vital s) (vital t) := by
  cases h
  split
  · exact Leads.refl _
  · next mv again =>
    split
    · exact leads_avsIssue (fun k => k.retry mv again) (Leads.refl _)
    · exact Leads.refl _

@[simp] theorem leads_mixRegions {v : Vital} (l : List Nat) {s : State} (h : Leads v (vital s)) : Leads v (vital (mixRegions l s)) := by
  unfold mixRegions
  refine leads_foldl (fun s r k => leads_modRegion ?_ k) l h
  exact fun _ form => form

@[simp] theorem leads_writeCells {v : Vital} (c : List Nat) (l : List Byte) {s : State} (h : Leads v (vital s)) :
    Leads v (vital (writeCells c l s)) := by
  induction c generalizing l s with
  | nil => exact h
  | cons c r ih =>
    refine ih _ (leads_cleanse _ _ _ ?_)
    rw [vital_cellWritten]
    exact leads_modRegion (fun _ form => Memory.putBytes_wf _ _ form) h

@[simp] theorem leads_enqueue {v : Vital} (eg : Bool) (q : Nat) (spill : Bool) (res shr : Nat) (room : List Nat) (p : Pkt) {s : State}
    (h : Leads v (vital s)) : Leads v (vital (enqueue eg q spill res shr room p s)) := by
  unfold enqueue
  dsimp only
  split
  · split
    · rw [vital_markHead, vital_modQueue]
      refine leads_writeCells _ _ ?_
      split <;> simp [h]
    · rw [vital_modQueue]
      refine leads_writeCells _ _ ?_
      split <;> simp [h]
  · rw [vital_modQueue]
    refine leads_writeCells _ _ ?_
    split <;> simp [h]

@[simp] theorem leads_ingressAdmit {v : Vital} (q colour draw : Nat) (room : List Nat) (hdr l : List Byte) (bad : Bool) (t : Option Trace)
    {s : State} (h : Leads v (vital s)) : Leads v (vital (ingressAdmit q colour draw room hdr l bad t s)) := by
  unfold ingressAdmit
  split
  · exact h
  · dsimp only
    split
    · simp [h]
    · split <;> simp [h]

theorem leads_execFrameReceive (port : Nat) (bytes : List Byte) (forced : Bool) (deskew draw tagDraw : Nat) (room : List Nat) (s : State)
    {t : State} (h : execFrameReceive port bytes forced deskew draw tagDraw room s = .next t) : Leads (vital s) (vital t) := by
  cases h
  split
  · exact Leads.refl _
  · split
    · exact Leads.refl _
    · extract_lets s1 bad row cc iq hash t s2 s3 ts hdr
      have counted : vital s3 = vital s := by simp [s3, s2, s1]
      split
      · simp [counted]
      · exact leads_ingressAdmit _ _ _ _ _ _ _ _ (by simp [counted])

@[simp] theorem leads_memCe {v : Vital} (r : Nat) {s : State} (h : Leads v (vital s)) : Leads v (vital (memCe r s)) := by
  simp [memCe, h]

@[simp] theorem leads_regionCount {v : Vital} (r : Nat) (k : Nat) (n : Nat) {s : State} (h : Leads v (vital s)) :
    Leads v (vital (regionCount r k n s)) := by
  simp [regionCount, h]

@[simp] theorem leads_memUe {v : Vital} (w : Reader) (r : Nat) (unit : Nat) {s : State} (h : Leads v (vital s)) :
    Leads v (vital (memUe w r unit s)) := by
  simp [memUe, h]

@[simp] theorem leads_memRead {v : Vital} (w : Reader) (f : Found) {s : State} (h : Leads v (vital s)) : Leads v (vital (memRead w f s)) := by
  unfold memRead
  split <;> simp [h]

@[simp] theorem leads_packetReads {v : Vital} (w : Reader) (named : Bool) (l : List Found) {s : State} (h : Leads v (vital s)) :
    Leads v (vital (packetReads w named l s)) := by
  refine leads_foldl (fun s f k => leads_memRead _ _ k) _ ?_
  split
  · exact h
  · exact leads_foldl (fun s f k => by split <;> simp [k]) _ h

theorem leads_execQueueHeadDrop (queue : Nat) (found : List Found) (linkLost : Bool) (s : State)
    {t : State} (h : execQueueHeadDrop queue found linkLost s = .next t) : Leads (vital s) (vital t) := by
  cases h
  dsimp only
  (repeat' split) <;> simp

theorem leads_execMacFrameStart (port : Nat) (found : List Found) (linkLost : Bool) (lines : List (List Bool)) (s : State)
    {t : State} (h : execMacFrameStart port found linkLost lines s = .next t) : Leads (vital s) (vital t) := by
  cases h
  dsimp only
  (repeat' split) <;> simp

@[simp] theorem leads_egressAdmit {v : Vital} (q draw : Nat) (room : List Nat) (hdr l : List Byte) (t : Option Trace) {s : State}
    (h : Leads v (vital s)) : Leads v (vital (egressAdmit q draw room hdr l t s)) := by
  unfold egressAdmit
  split
  · exact h
  · dsimp only
    split
    · simp [h]
    · (repeat' split) <;> simp [h]

@[simp] theorem leads_packetArrives {v : Vital} (n draw tagDraw : Nat) (room : List Nat) (r : List Byte) {s : State} (h : Leads v (vital s)) :
    Leads v (vital (packetArrives n draw tagDraw room r s)) := by
  unfold packetArrives
  dsimp only
  split
  · simp [h]
  · split
    · simp [h]
    · split
      · simp [h]
      · split <;> simp [h]

theorem leads_execPacketRecordReceive (link' draw tagDraw : Nat) (room : List Nat) (s : State) {t : State}
    (h : execPacketRecordReceive link' draw tagDraw room s = .next t) : Leads (vital s) (vital t) := by
  cases h
  exact leads_withRecord (fun r s k => leads_packetArrives _ _ _ _ _ k) _ _ (Leads.refl _)

theorem leads_execIngressSchedule (link' : Nat) (found : List Found) (linkLost : Bool) (s : State)
    {t : State} (h : execIngressSchedule link' found linkLost s = .next t) : Leads (vital s) (vital t) := by
  cases h
  dsimp only
  (repeat' split) <;> simp

theorem leads_execSpillWrite (egress : Bool) (queue : Nat) (s : State) {t : State} (h : execSpillWrite egress queue s = .next t) :
    Leads (vital s) (vital t) := by
  cases h
  split
  · exact Leads.refl _
  · split
    · exact Leads.refl _
    · dsimp only
      rw [vital_requestAll, vital_profEvent, vital_modQueue]
      refine leads_foldl (fun s n k => ?_) _ (Leads.refl _)
      split <;> simp [k]

@[simp] theorem leads_memReads {v : Vital} (w : Reader) (l : List Found) {s : State} (h : Leads v (vital s)) : Leads v (vital (memReads w l s)) :=
  leads_foldl (fun _ _ k => leads_memRead _ _ k) l h

theorem leads_execPrefetchDone (egress : Bool) (queue : Nat) (cells : List (List Found)) (s : State)
    {t : State} (h : execPrefetchDone egress queue cells s = .next t) : Leads (vital s) (vital t) := by
  cases h
  split <;> simp

@[simp] theorem leads_tableReads {v : Vital} (n : Nat) (g : Option Nat) (l : List Found) {s : State} (h : Leads v (vital s)) :
    Leads v (vital (tableReads n g l s)) := by
  simp [tableReads, h]

@[simp] theorem leads_lookupEnd {v : Vital} (a : Lookup) (resp : List Byte) (found : List Found) (clean : Bool) {s : State} (h :
    Leads v (vital s)) : Leads v (vital (lookupEnd a resp found clean s).2) := by
  simp [lookupEnd, h]

theorem leads_execLookupComplete (link' tag : Nat) (found : List Found) (clean : Bool) (s : State)
    {t : State} (h : execLookupComplete link' tag found clean s = .next t) : Leads (vital s) (vital t) := by
  cases h
  dsimp only
  (repeat' split) <;> simp

@[simp] theorem leads_mirrorEpoch {v : Vital} (full : Bool) (num : Nat) (found : List (List Found)) (l : List Update) {s : State}
    (h : Leads v (vital s)) : Leads v (vital (mirrorEpoch full num found l s)) := by
  unfold mirrorEpoch
  split
  · exact h
  · simp only [vital_mapGeo, vital_mirrorPush]
    refine leads_foldl (fun s x k => ?_) _ (by simpa using h)
    split <;> simp [k]

@[simp] theorem leads_switchFront {v : Vital} (found : List (List Found)) {s : State} (h : Leads v (vital s)) :
    Leads v (vital (switchFront found s)) := by
  unfold switchFront
  split <;> simp [h]

theorem leads_execEpochSwitch (found : List (List Found)) (s : State) {t : State} (h : execEpochSwitch found s = .next t) :
    Leads (vital s) (vital t) := by
  cases h
  split <;> simp

@[simp] theorem leads_poison {v : Vital} (r : Nat) (u : Nat) {s : State} (h : Leads v (vital s)) : Leads v (vital (poison r u s)) := by
  simp [poison, h]

@[simp] theorem leads_writeWord {v : Vital} (r u : Nat) (bytes : List Byte) (bad : Bool) {s : State} (h : Leads v (vital s)) :
    Leads v (vital (writeWord r u bytes bad s)) := by
  have wrote : Leads v (vital (modRegion r (fun g => { g with cells := Memory.putBytes g.cells ((u - unitBase r) * wordBytes r) (bytes.take (wordBytes r)) }) s)) :=
    leads_modRegion (fun _ form => Memory.putBytes_wf _ _ form) h
  unfold writeWord
  split <;> simp [wrote]

@[simp] theorem leads_writeBack {v : Vital} (f : Found) {s : State} (h : Leads v (vital s)) : Leads v (vital (writeBack f s)) := by
  unfold writeBack
  dsimp only
  (repeat' split) <;> simp [h]

@[simp] theorem leads_cpFail {v : Vital} (word : Nat) {s : State} (h : Leads v (vital s)) : Leads v (vital (cpFail word s)) := by
  simp [cpFail, h]

theorem leads_execScrubStep (scrubber flips slip : Nat) (s : State) {t : State} (h : execScrubStep scrubber flips slip s = .next t) :
    Leads (vital s) (vital t) := by
  cases h
  extract_lets home p w
  split
  · exact Leads.refl _
  · next f bad s1 s2 late s3 _ =>
    have read : Leads (vital s) (vital s2) := by
      unfold s2
      split <;> simp [s1]
    have passed : Leads (vital s) (vital s3) := leads_modRegion (fun _ form => form) (leads_regionCount _ _ _ read)
    split
    · exact leads_modRegion (fun _ form => form) read
    · split
      · exact leads_regionCount _ _ _ passed
      · exact passed

@[simp] theorem leads_ceHour {v : Vital} (r : Nat) {s : State} (h : Leads v (vital s)) : Leads v (vital (ceHour r s)) := by
  unfold ceHour
  dsimp only
  (repeat' split) <;> simp [h]

theorem leads_execCeHourWindow (s : State) {t : State} (h : execCeHourWindow s = .next t) : Leads (vital s) (vital t) := by
  have counted : Leads (vital s) (vital (forEach (List.range 69) ceHour s)) :=
    leads_forEach (fun r s k => leads_ceHour r k) _ (Leads.refl _)
  unfold execCeHourWindow at h
  generalize forEach (List.range 69) ceHour s = u at h counted
  cases h
  simpa using counted

theorem leads_execSoftRepair (stack' ch bank row : Nat) (free : Bool) (found : List Found) (pages : List Nat) (s : State) {t : State}
    (h : execSoftRepair stack' ch bank row free found pages s = .next t) : Leads (vital s) (vital t) := by
  cases h
  extract_lets busy
  split
  · exact Leads.refl _
  · split
    · split
      · next s1 s2 _ _ _ _ _ =>
        extract_lets s3 s4 s5
        have read : Leads (vital s) (vital s1) := leads_foldl (fun s f k => leads_writeBack _ k) _ (Leads.refl _)
        have logged : Leads (vital s) (vital s5) := leads_logErr _ _ _ (by simpa [s4, s3, s2] using read)
        simpa using logged
      · simp
    · simp

@[simp] theorem leads_clearStorage {v : Vital} (banks blocks : List Nat) {s : State} (h : Leads v (vital s)) :
    Leads v (vital (clearStorage banks blocks s)) := by
  refine leads_forEach (fun k s h => leads_forEach (fun m s h => leads_cleanse _ _ _ h) _ h) _ ?_
  exact leads_forEach (fun b s h => leads_cleanse _ _ _ h) _ h

@[simp] theorem leads_tableCreateBody {v : Vital} (mir : Bool) (c : Cmd) {s : State} (h : Leads v (vital s)) :
    Leads v (vital (tableCreateBody mir c s).s) := by
  unfold tableCreateBody
  extract_lets kind hbm size nb nk banks blocks
  split
  · exact h
  · split
    · exact h
    · split
      · exact h
      · rename_i t s1 _ _ _ _
        have cleared : Leads v (vital s1) := leads_clearStorage _ _ (leads_mixRegions _ h)
        exact cleared

theorem leads_execTableCreate (id : Nat) (s : State) {t : State} (h : execTableCreate id s = .next t) : Leads (vital s) (vital t) := by
  cases h
  exact leads_runCmd (fun c s k => leads_tableCreateBody _ _ k) _ _ (Leads.refl _)

@[simp] theorem leads_mergeRead {v : Vital} (w : Reader) (f : Found) {s : State} (h : Leads v (vital s)) : Leads v (vital (mergeRead w f s)) := by
  unfold mergeRead
  split <;> simp [h]

@[simp] theorem leads_writePlaces {v : Vital} (w : Reader) (bad : Bool) (merged : List Found) (l : List Place) {s : State} (h : Leads v (vital s)) :
    Leads v (vital (writePlaces w bad merged l s).2) := by
  induction l generalizing s with
  | nil => exact h
  | cons p r ih =>
    refine ih ?_
    dsimp only
    split
    · split <;> simp [h]
    · dsimp only
      split <;> simp [h]

@[simp] theorem leads_writeEntry {v : Vital} (w : Reader) (bad : Bool) (t : Table) (u : Update) (places : List Place) (merged : List Found)
    {s : State} (h : Leads v (vital s)) : Leads v (vital (writeEntry w bad t u places merged s).2.2) :=
  leads_writePlaces w bad merged _ h

@[simp] theorem leads_stageAll {v : Vital} (h n : Nat) (t : Table) (places : List (List Place)) (merged : List Found) (l : List (List Byte))
    (k : Nat) (own : List Update) (dirty : Bool) {s : State} (hs : Leads v (vital s)) :
    Leads v (vital (stageAll h n t places merged l k own dirty s).2.2.2.2) := by
  induction l generalizing k own dirty s with
  | nil => exact hs
  | cons b r ih =>
    unfold stageAll
    dsimp only
    split
    · exact hs
    · refine ih _ _ _ ?_
      split <;> simp [hs]

theorem leads_execTableUpdate (id : Nat) (host : HostRead) (places : List (List Place)) (merged : List Found) (s : State) {t : State}
    (h : execTableUpdate id host places merged s = .next t) : Leads (vital s) (vital t) := by
  cases h
  refine leads_runCmd (fun c s k => ?_) _ _ (Leads.refl _)
  extract_lets h n
  split
  · exact k
  · split
    · exact k
    · split
      · exact k
      · next tbl _ _ _ =>
        refine leads_withHost (fun bytes => ?_) _ _ _ k
        have staged : ∀ own, Leads (vital _) (vital (stageAll h n tbl places merged (chunks tbl.entryLen (c.inl 36 4) bytes) 0 own
            false s).2.2.2.2) := fun own => leads_stageAll _ _ _ _ _ _ _ _ _ k
        dsimp only
        split
        · exact staged _
        · split
          · exact staged _
          · rw [Ran.ok_s, vital_queueCommit]
            exact staged _

theorem leads_execTimeSet (id : Nat) (s : State) {t : State} (h : execTimeSet id s = .next t) : Leads (vital s) (vital t) := by
  cases h
  refine leads_runCmd (fun c s k => leads_timeCmd (fun s k => ?_) _ _ _ k) _ _ (Leads.refl _)
  rw [Ran.ok_s, vital_rewait]
  refine leads_mapTim (fun _ => ?_) k
  split
  · exact setClock_ns (setUnits c) s.tim
  · split <;> exact setClock_ns _ s.tim

theorem leads_execMemRead (id : Nat) (found : List Found) (s : State) {t : State} (h : execMemRead id found s = .next t) :
    Leads (vital s) (vital t) := by
  cases h
  refine leads_runCmd (fun c s k => ?_) _ _ (Leads.refl _)
  dsimp only
  split
  · exact k
  · split
    · exact k
    · (repeat' split) <;> simp [k]

@[simp] theorem leads_switchAll {v : Vital} {s : State} (h : Leads v (vital s)) : Leads v (vital (switchAll s)) := by
  unfold switchAll
  split
  · exact h
  · exact leads_foldl (fun s _ k => leads_switchFront _ k) _ h

@[simp] theorem leads_applyRole {v : Vital} (id role : Nat) {s : State} (h : Leads v (vital s)) : Leads v (vital (applyRole id role s).2) := by
  unfold applyRole
  dsimp only
  (repeat' split) <;> simp [h]

@[simp] theorem leads_confirmRepair {v : Vital} (r : Nat × Nat × Nat × Nat) {s : State} (h : Leads v (vital s)) :
    Leads v (vital (confirmRepair r s).2) := by
  unfold confirmRepair
  split <;> simp [h]

@[simp] theorem leads_applyItem {v : Vital} (item : Nat) (p : Proposal) {s : State} (h : Leads v (vital s)) :
    Leads v (vital (applyItem item p s)) := by
  have role : Leads v (vital (applyRole p.cmd (byteAt p.value 0) s).2) := leads_applyRole _ _ h
  unfold applyItem
  dsimp only
  split
  · simp [h]
  · simp [h]
  · split
    · next applied => simpa [applied] using role
    · next applied => simpa [applied] using role
  · simp [h]
  · simp [h]
  · simp [h]

@[simp] theorem leads_confirm {v : Vital} (item : Nat) (nonce digest : BitVec 32) {s : State} (h : Leads v (vital s)) :
    Leads v (vital (confirm item nonce digest s)) := by
  unfold confirm
  split
  · simp [h]
  · split
    · simp [h]
    · split
      · simp [h]
      · split
        · simp [h]
        · refine leads_applyItem _ _ ?_
          rw [vital_mapMgmt rfl, vital_mapGuard]
          exact h

theorem leads_execGuardConfirm (item : Nat) (nonce digest : BitVec 32) (pec : Option Byte) (s : State) {t : State}
    (h : execGuardConfirm item nonce digest pec s = .next t) : Leads (vital s) (vital t) := by
  cases h
  exact leads_mgmtWrite (leads_confirm _ _ _) _ _ _ (Leads.refl _)

@[simp] theorem leads_wakeBy {v : Vital} (bit : Nat) {s : State} (h : Leads v (vital s)) : Leads v (vital (wakeBy bit s)) := by
  unfold wakeBy
  split
  · exact leads_wake _ h
  · exact h

theorem leads_execMgmtWake (value : Nat) (pec : Option Byte) (s : State) {t : State} (h : execMgmtWake value pec s = .next t) :
    Leads (vital s) (vital t) := by
  cases h
  exact leads_mgmtWrite (leads_wakeBy 0) _ _ _ (Leads.refl _)

theorem leads_execOtpProgramDone (s : State) {t : State} (h : execOtpProgramDone s = .next t) : Leads (vital s) (vital t) := by
  cases h
  split
  · exact Leads.refl _
  · next off data cmd r _ =>
    have burnt : Leads (vital s) (vital (s.mapOtp fun o =>
        { o with bytes := Memory.putBytes o.bytes off (((Memory.getBytes s.otp.bytes off data.length).zip data).map fun x => x.1 ||| x.2) })) := by
      refine ⟨⟨OtpGrows.putBytes ?_, fun k => ⟨Memory.putBytes_wf _ _ k.otp, k.cells, k.ns, k.points, k.retry, k.addr⟩⟩, LogGrows.refl _⟩
      intro i inside j set
      have old : (Memory.get s.otp.bytes (off + i)).getLsbD j = true := set
      simp [Memory.getElem_getBytes, old]
    dsimp only
    split <;> simpa using burnt

@[simp] theorem leads_sendResync {v : Vital} {s : State} (h : Leads v (vital s)) : Leads v (vital (sendResync s)) := by
  simp [sendResync, h]

theorem leads_execHelloReceive (s : State) {t : State} (h : execHelloReceive s = .next t) : Leads (vital s) (vital t) := by
  cases h
  split
  · exact Leads.refl _
  · refine leads_withRecord (fun r s k => ?_) _ _ (Leads.refl _)
    split
    · simp [k]
    · dsimp only
      split <;> simp [k]

@[simp] theorem leads_steer {v : Vital} {s : State} (h : Leads v (vital s)) : Leads v (vital (steer s)) := by
  simp [steer, h]

theorem leads_execTimeRecordReceive (s : State) {t : State} (h : execTimeRecordReceive s = .next t) : Leads (vital s) (vital t) := by
  cases h
  split
  · exact Leads.refl _
  · refine leads_withRecord (fun r s k => ?_) _ _ (Leads.refl _)
    split
    · exact k
    · dsimp only
      refine leads_steer ?_
      rw [vital_mapGeo]
      split
      · rw [vital_rewait]
        exact leads_mapTim (fun _ => setClock_ns ((wireAt r 8 8 * 1000000000 + wireAt r 16 4 + s.geo.oneWay) * 2 ^ 32 + wireAt r 20 4 : Nat) s.tim) k
      · exact k

theorem leads_applyMirrored {v : Vital} {c : Cmd} {s t : State} (h : Leads v (vital s)) (ran : applyMirrored c s = some t) : Leads v (vital t) := by
  unfold applyMirrored at ran
  split at ran
  case h_11 => exact leads_mirrorRun (leads_tableCreateBody true c) h ran
  case h_14 => contradiction
  all_goals exact leads_mirrorRun (fun k => by simpa using k) h ran

theorem leads_execConfigReceive (s : State) {t : State} (h : execConfigReceive s = .next t) : Leads (vital s) (vital t) := by
  cases h
  split
  · exact Leads.refl _
  · refine leads_withMirror (fun r s k => ?_) _ (Leads.refl _)
    dsimp only
    split
    · next applied =>
      refine leads_applyMirrored ?_ applied
      (repeat' split) <;> simp [k]
    · (repeat' split) <;> simp [k]

theorem leads_execEpochEntryReceive (places : List Place) (merged : List Found) (s : State)
    {t : State} (h : execEpochEntryReceive places merged s = .next t) :
    Leads (vital s) (vital t) := by
  cases h
  split
  · exact Leads.refl _
  · refine leads_withMirror (fun r s k => ?_) _ (Leads.refl _)
    dsimp only
    split
    · rw [vital_mapGeo]
      split <;> simp [k]
    · simp [k]

theorem leads_execWakeTimer (s : State) {t : State} (h : execWakeTimer s = .next t) : Leads (vital s) (vital t) := by
  cases h
  simp

theorem leads_execWakePresenceChange (cage' : Nat) (s : State) {t : State} (h : execWakePresenceChange cage' s = .next t) :
    Leads (vital s) (vital t) := by
  cases h
  simp

theorem leads_execWakePpsEdge (s : State) {t : State} (h : execWakePpsEdge s = .next t) : Leads (vital s) (vital t) := by
  cases h
  simp

theorem leads_execWakeGarnetActivity (link' : Nat) (s : State) {t : State} (h : execWakeGarnetActivity link' s = .next t) :
    Leads (vital s) (vital t) := by
  cases h
  simp

@[simp] theorem leads_checkWord {v : Vital} (f : Found) {s : State} (h : Leads v (vital s)) : Leads v (vital (checkWord f s)) := by
  simp [checkWord, h]

theorem leads_execRetainedBankCheck (bank : Nat) (found : List Found) (s : State) {t : State}
    (h : execRetainedBankCheck bank found s = .next t) : Leads (vital s) (vital t) := by
  cases h
  split
  · exact Leads.refl _
  · dsimp only
    rw [vital_banksSettle, vital_mapRetn]
    exact leads_foldl (fun s f k => leads_checkWord _ k) _ (by simp)

theorem leads_execHwError (word : BitVec 32) (s : State) {t : State} (h : execHwError word s = .next t) : Leads (vital s) (vital t) := by
  cases h
  split <;> simp

theorem leads_execVddioMgmtReturn (s : State) {t : State} (h : execVddioMgmtReturn s = .next t) : Leads (vital s) (vital t) := by
  have rail : vital (s.mapBed fun b => { b with railOk := b.railOk ||| 0x800 }) = vital s := vital_mapBed rfl rfl rfl rfl
  cases h
  dsimp only
  split
  · refine leads_perstRelease ?_
    rw [rail]
    exact Leads.refl _
  · rw [rail]
    exact Leads.refl _

@[simp] theorem leads_clockTick {v : Vital} {s : State} (h : Leads v (vital s)) : Leads v (vital (clockTick s)) := by
  unfold clockTick
  split
  · exact h
  · exact leads_mapTim (fun _ => setClock_ns _ s.tim) h

theorem putAll_wf (put : α → Nat × List Byte) (l : List α) {m : Memory} (form : Memory.wf m = true) :
    Memory.wf (l.foldl (fun m x => Memory.putBytes m (put x).1 (put x).2) m) = true := by
  induction l generalizing m with
  | nil => exact form
  | cons x l ih => exact ih (Memory.putBytes_wf _ _ form)

/-- A range stored over words written back beneath it. -/
theorem leads_storeRange {v : Vital} (r base w off : Nat) (l : List (Nat × List Byte)) (bytes : List Byte) (bad : Region → List Nat) {s : State}
    (h : Leads v (vital s)) :
    Leads v (vital (modRegion r (fun g =>
      { g with cells := Memory.putBytes (l.foldl (fun m x => Memory.putBytes m ((x.1 - base) * w) x.2) g.cells) off bytes, bad := bad g }) s)) :=
  leads_modRegion (fun _ form => Memory.putBytes_wf _ _ (putAll_wf (fun x => ((x.1 - base) * w, x.2)) l form)) h

theorem leads_execMemWrite (id : Nat) (host : HostRead) (found : List Found) (s : State) {t : State} (h : execMemWrite id host found s = .next t) :
    Leads (vital s) (vital t) := by
  cases h
  refine leads_runCmd (fun c s k => ?_) _ _ (Leads.refl _)
  dsimp only
  split
  · exact k
  · split
    · exact k
    · refine leads_withHost (fun bytes => ?_) _ _ _ k
      have merged := fun l : List Found => leads_foldl (f := fun s f => mergeRead .diagnostic f s) (fun _ _ k => leads_mergeRead _ _ k) l k
      split
      · rw [Ran.ok_s]
        split
        · rw [vital_forEach vital_cellWritten]
          exact leads_storeRange _ _ _ _ _ _ _ (merged _)
        · exact leads_storeRange _ _ _ _ _ _ _ (merged _)
      · dsimp only
        split
        · rw [vital_forEach vital_cellWritten]
          exact leads_storeRange _ _ _ _ _ _ _ (merged _)
        · exact leads_storeRange _ _ _ _ _ _ _ (merged _)

theorem leads_keepRegions {v : Vital} {s u : State} (p : Nat × Region → Bool) (h : Leads v (vital s)) (same : vital u = vital s) :
    Leads v (vital ((coreClear u).mapMem fun m => { m with regions := (s.mem.regions.filter p).map fun g =>
      (g.1, { Region.init with cells := g.2.cells, bad := g.2.bad, mixed := g.2.mixed }) })) := by
  refine (same ▸ h : Leads v (vital u)).trans (Leads.of_sound rfl rfl fun k => ?_)
  have cells := (same ▸ k).cells
  refine ⟨k.otp, fun m hm => ?_, Nat.zero_lt_succ _, k.points, k.retry, k.addr⟩
  simp only [vital, State.mapMem_mem, List.map_map] at hm
  obtain ⟨r, hr, rfl⟩ := List.mem_map.1 hm
  exact cells _ (List.mem_map.2 ⟨r, List.mem_of_mem_filter hr, rfl⟩)

theorem vital_hold (s : State) : vital (s.mapBed fun b => { b with cageHeld := true, clkreq := false }) = vital s := vital_mapBed rfl rfl rfl rfl

theorem leads_execRetainEntry (found : List Found) (s : State) {t : State} (h : execRetainEntry found s = .next t) : Leads (vital s) (vital t) := by
  cases h
  split
  · exact Leads.refl _
  · dsimp only
    split
    · rw [vital_mapRetn]
      refine leads_keepRegions _ ?_ ?_
      · rw [vital_signBanks, vital_mapRetn]
        exact Leads.refl _
      · exact (vital_hold _).trans (vital_latchBus _)
    · refine leads_wake _ ?_
      rw [vital_mapRetn]
      refine leads_keepRegions _ ?_ ?_
      · rw [vital_signBanks, vital_mapRetn]
        exact Leads.refl _
      · exact (vital_hold _).trans (vital_latchBus _)

end Sys2Proof.Machine
end

section
/-! PROOFS. Every step keeps the invariant, board OTP and the error log. -/
namespace Sys2Proof.Machine

/-- A step that leaves the vital part. -/
theorem Leads.of_vital {s t : State} (h : vital t = vital s) : Leads (vital s) (vital t) := h ▸ Leads.refl _

/-- What every command but the two that clear the error log does to the vital part. -/
theorem exec_leads {c : Instr} {s t : State} (por : c ≠ .porNAssert) (loss : c ≠ .vddBedrockLoss) (h : exec c s = .next t) :
    Leads (vital s) (vital t) := by
  cases c with
  | porNAssert => contradiction
  | porNDeassert strap => exact leads_execPorNDeassert strap _ h
  | bedrockClkCheck edges => exact .of_vital (vital_execBedrockClkCheck edges _ h)
  | bedrockClkLoss => exact leads_execBedrockClkLoss _ h
  | bedrockUp temps => exact .of_vital (vital_execBedrockUp temps _ h)
  | vddBedrockLoss => contradiction
  | vddBedrockReturn strap => exact leads_execVddBedrockReturn strap _ h
  | vddioMgmtLoss => exact leads_execVddioMgmtLoss _ h
  | perstNAssert => exact leads_execPerstNAssert _ h
  | perstNDeassert => exact leads_execPerstNDeassert _ h
  | memoryInitDone region => exact leads_execMemoryInitDone region _ h
  | fwReady => exact leads_execFwReady _ h
  | hbmTrainAttemptEnd stack passed resources => exact leads_execHbmTrainAttemptEnd stack passed resources _ h
  | brownoutWarning uv ms ps => exact .of_vital (vital_execBrownoutWarning uv ms ps _ h)
  | brownoutRecovery uv core => exact .of_vital (vital_execBrownoutRecovery uv core _ h)
  | brownoutReset uv => exact leads_execBrownoutReset uv _ h
  | groupBRailLoss rail => exact leads_execGroupBRailLoss rail _ h
  | coreResetRestart => exact .of_vital (vital_execCoreResetRestart _ h)
  | groupCRailLoss rail => exact leads_execGroupCRailLoss rail _ h
  | groupCRailReturn rail => exact .of_vital (vital_execGroupCRailReturn rail _ h)
  | vddioAuxValid => exact .of_vital (vital_execVddioAuxValid _ h)
  | refclkLost clk => exact leads_execRefclkLost clk _ h
  | refclkReturn clk => exact .of_vital (vital_execRefclkReturn clk _ h)
  | pllUnlock pll => exact leads_execPllUnlock pll _ h
  | thermtrip sensor reading => exact leads_execThermtrip sensor reading _ h
  | avsRequest mv => exact leads_execAvsRequest mv _ h
  | avsAck => exact leads_execAvsAck _ h
  | avsTimeout => exact leads_execAvsTimeout _ h
  | avsRetry => exact leads_execAvsRetry _ h
  | calibrationSlotStart m => exact .of_vital (vital_execCalibrationSlotStart m _ h)
  | foregroundRunEnd lane meas t0 t1 own => exact .of_vital (vital_execForegroundRunEnd lane meas t0 t1 own _ h)
  | calRetry lane => exact .of_vital (vital_execCalRetry lane _ h)
  | trimUpdate lane reading => exact .of_vital (vital_execTrimUpdate lane reading _ h)
  | rotationStepStart lane => exact .of_vital (vital_execRotationStepStart lane _ h)
  | rotationShadowEnd lane runs => exact .of_vital (vital_execRotationShadowEnd lane runs _ h)
  | standbyMeasurementEnd lane runs => exact .of_vital (vital_execStandbyMeasurementEnd lane runs _ h)
  | noiseMeasurement lane ptot => exact .of_vital (vital_execNoiseMeasurement lane ptot _ h)
  | signalPresent lane rms => exact .of_vital (vital_execSignalPresent lane rms _ h)
  | ctleSearchDone lane eyes => exact .of_vital (vital_execCtleSearchDone lane eyes _ h)
  | freqLock lane freq => exact .of_vital (vital_execFreqLock lane freq _ h)
  | convergeDone lane m mse => exact .of_vital (vital_execConvergeDone lane m mse _ h)
  | qualifyPass lane m q latency => exact .of_vital (vital_execQualifyPass lane m q latency _ h)
  | qualifyWindowEnd lane => exact .of_vital (vital_execQualifyWindowEnd lane _ h)
  | phaseBudgetExpiry lane rms => exact .of_vital (vital_execPhaseBudgetExpiry lane rms _ h)
  | acqGapEnd lane => exact .of_vital (vital_execAcqGapEnd lane _ h)
  | amplitudeLoss lane rms m => exact .of_vital (vital_execAmplitudeLoss lane rms m _ h)
  | amplitudeReturn lane rms bad => exact .of_vital (vital_execAmplitudeReturn lane rms bad _ h)
  | losPendingTimeout lane => exact .of_vital (vital_execLosPendingTimeout lane _ h)
  | alignmentLoss lane bad missing m => exact .of_vital (vital_execAlignmentLoss lane bad missing m _ h)
  | losHeldTimeout lane => exact .of_vital (vital_execLosHeldTimeout lane _ h)
  | warmFreqCheck lane freq => exact .of_vital (vital_execWarmFreqCheck lane freq _ h)
  | warmQualify lane m q latency => exact .of_vital (vital_execWarmQualify lane m q latency _ h)
  | warmFailed lane => exact .of_vital (vital_execWarmFailed lane _ h)
  | x200Fallback lane => exact .of_vital (vital_execX200Fallback lane _ h)
  | x200RxAlternate lane => exact .of_vital (vital_execX200RxAlternate lane _ h)
  | portAlignLock port => exact .of_vital (vital_execPortAlignLock port _ h)
  | portAlignTimeout port skew => exact .of_vital (vital_execPortAlignTimeout port skew _ h)
  | portAlignmentLoss port hiSer => exact .of_vital (vital_execPortAlignmentLoss port hiSer _ h)
  | remoteFaultReceived port columns => exact .of_vital (vital_execRemoteFaultReceived port columns _ h)
  | remoteFaultClear port => exact .of_vital (vital_execRemoteFaultClear port _ h)
  | fecDegradeWindow port total corrected uncorrectable symbols errored lanes => exact .of_vital (vital_execFecDegradeWindow port total corrected uncorrectable symbols errored lanes _ h)
  | frameReceive port bytes forced deskew draw tagDraw room => exact leads_execFrameReceive port bytes forced deskew draw tagDraw room _ h
  | schedulerChoose port => exact .of_vital (vital_execSchedulerChoose port _ h)
  | queueHeadDrop queue found linkLost => exact leads_execQueueHeadDrop queue found linkLost _ h
  | macFrameStart port found linkLost lines => exact leads_execMacFrameStart port found linkLost lines _ h
  | nodeReadyAgain node => exact .of_vital (vital_execNodeReadyAgain node _ h)
  | rampStep lane => exact .of_vital (vital_execRampStep lane _ h)
  | txOutputRelease lane => exact .of_vital (vital_execTxOutputRelease lane _ h)
  | modulePresent cage => exact .of_vital (vital_execModulePresent cage _ h)
  | moduleRemoval cage => exact .of_vital (vital_execModuleRemoval cage _ h)
  | prsGlitch cage => exact .of_vital (vital_execPrsGlitch cage _ h)
  | cagePowerOnDone cage => exact .of_vital (vital_execCagePowerOnDone cage _ h)
  | moduleLowPwrReport cage info => exact .of_vital (vital_execModuleLowPwrReport cage info _ h)
  | mgmtInitTimeout cage => exact .of_vital (vital_execMgmtInitTimeout cage _ h)
  | moduleReady cage => exact .of_vital (vital_execModuleReady cage _ h)
  | powerUpTimeout cage => exact .of_vital (vital_execPowerUpTimeout cage _ h)
  | dpActivated port => exact .of_vital (vital_execDpActivated port _ h)
  | dataPathTimeout port => exact .of_vital (vital_execDataPathTimeout port _ h)
  | cagePoll cage readings flags fault => exact .of_vital (vital_execCagePoll cage readings flags fault _ h)
  | moduleInterrupt cage flags fault => exact .of_vital (vital_execModuleInterrupt cage flags fault _ h)
  | i2cTransferComplete cage data => exact .of_vital (vital_execI2cTransferComplete cage data _ h)
  | i2cTransferFail cage => exact .of_vital (vital_execI2cTransferFail cage _ h)
  | pageBurstSend link pair => exact .of_vital (vital_execPageBurstSend link pair _ h)
  | pageFrameReceive link pair page => exact .of_vital (vital_execPageFrameReceive link pair page _ h)
  | followerStep2Timeout link pair => exact .of_vital (vital_execFollowerStep2Timeout link pair _ h)
  | trainingFrameReceive link pair word rx ec m => exact .of_vital (vital_execTrainingFrameReceive link pair word rx ec m _ h)
  | trainingPhaseEnd link pair rx ec m => exact .of_vital (vital_execTrainingPhaseEnd link pair rx ec m _ h)
  | trainingPhaseFail link pair => exact .of_vital (vital_execTrainingPhaseFail link pair _ h)
  | quietEnd link pair => exact .of_vital (vital_execQuietEnd link pair _ h)
  | lpiShrinkTest link tx rx => exact .of_vital (vital_execLpiShrinkTest link tx rx _ h)
  | lpiGrowTest link tx rx => exact .of_vital (vital_execLpiGrowTest link tx rx _ h)
  | sleepEntry link pair => exact .of_vital (vital_execSleepEntry link pair _ h)
  | refreshDue link pair => exact .of_vital (vital_execRefreshDue link pair _ h)
  | preambleDetect link pair confirmed refresh => exact .of_vital (vital_execPreambleDetect link pair confirmed refresh _ h)
  | falseWakeAbandon link pair => exact .of_vital (vital_execFalseWakeAbandon link pair _ h)
  | startMarkerReceive link pair own => exact .of_vital (vital_execStartMarkerReceive link pair own _ h)
  | wakeTimeout link pair => exact .of_vital (vital_execWakeTimeout link pair _ h)
  | pairLoss link pair alignment => exact .of_vital (vital_execPairLoss link pair alignment _ h)
  | snrRetrain link pair => exact .of_vital (vital_execSnrRetrain link pair _ h)
  | retrainQuietEnd link pair => exact .of_vital (vital_execRetrainQuietEnd link pair _ h)
  | stdPairAcquired link pair => exact .of_vital (vital_execStdPairAcquired link pair _ h)
  | stdPairLost link pair => exact .of_vital (vital_execStdPairLost link pair _ h)
  | flitReceive link pair flit total corrected uncorrectable hit => exact .of_vital (vital_execFlitReceive link pair flit total corrected uncorrectable hit _ h)
  | reorderTimeout link => exact .of_vital (vital_execReorderTimeout link _ h)
  | renakTimeout link => exact .of_vital (vital_execRenakTimeout link _ h)
  | ackTimeout link => exact .of_vital (vital_execAckTimeout link _ h)
  | protocolEnd link => exact .of_vital (vital_execProtocolEnd link _ h)
  | packetRecordReceive link draw tagDraw room => exact leads_execPacketRecordReceive link draw tagDraw room _ h
  | lookupReqReceive link => exact .of_vital (vital_execLookupReqReceive link _ h)
  | creditReceive link => exact .of_vital (vital_execCreditReceive link _ h)
  | creditAdvertise link => exact .of_vital (vital_execCreditAdvertise link _ h)
  | creditWatchdog link pool => exact .of_vital (vital_execCreditWatchdog link pool _ h)
  | sleepProposeReceive link tx rx => exact .of_vital (vital_execSleepProposeReceive link tx rx _ h)
  | sleepAcceptReceive link => exact .of_vital (vital_execSleepAcceptReceive link _ h)
  | sleepRefuseReceive link => exact .of_vital (vital_execSleepRefuseReceive link _ h)
  | sleepProposeTimeout link => exact .of_vital (vital_execSleepProposeTimeout link _ h)
  | echoReqReceive link => exact .of_vital (vital_execEchoReqReceive link _ h)
  | echoRespReceive link => exact .of_vital (vital_execEchoRespReceive link _ h)
  | outerFrameReceive link frame => exact .of_vital (vital_execOuterFrameReceive link frame _ h)
  | outerFrameClose link => exact .of_vital (vital_execOuterFrameClose link _ h)
  | ingressSchedule link found linkLost => exact leads_execIngressSchedule link found linkLost _ h
  | spillWrite egress queue => exact leads_execSpillWrite egress queue _ h
  | prefetchDone egress queue cells => exact leads_execPrefetchDone egress queue cells _ h
  | lookupPipelineTake => exact .of_vital (vital_execLookupPipelineTake _ h)
  | lookupComplete link tag found clean => exact leads_execLookupComplete link tag found clean _ h
  | epochSwitch found => exact leads_execEpochSwitch found _ h
  | storageFree => exact .of_vital (vital_execStorageFree _ h)
  | scrubStep scrubber flips slip => exact leads_execScrubStep scrubber flips slip _ h
  | ceHourWindow => exact leads_execCeHourWindow _ h
  | softRepair stack channel bank row free found pages => exact leads_execSoftRepair stack channel bank row free found pages _ h
  | hbmChannelRetrain stack channel accepted => exact .of_vital (vital_execHbmChannelRetrain stack channel accepted _ h)
  | hbmRequestEnter stack channel source bank key => exact .of_vital (vital_execHbmRequestEnter stack channel source bank key _ h)
  | hbmRequestWithdraw stack channel key => exact .of_vital (vital_execHbmRequestWithdraw stack channel key _ h)
  | sqTailWrite ring value => exact .of_vital (vital_execSqTailWrite ring value _ h)
  | cqHeadWrite ring value => exact .of_vital (vital_execCqHeadWrite ring value _ h)
  | commandFetch got => exact .of_vital (vital_execCommandFetch got _ h)
  | eventDeliver => exact .of_vital (vital_execEventDeliver _ h)
  | msixTimer vector => exact .of_vital (vital_execMsixTimer vector _ h)
  | msixUnmask vector => exact .of_vital (vital_execMsixUnmask vector _ h)
  | d3hotEnter => exact .of_vital (vital_execD3hotEnter _ h)
  | d0Return => exact .of_vital (vital_execD0Return _ h)
  | pcieLinkReset => exact .of_vital (vital_execPcieLinkReset _ h)
  | hifEnableSet => exact .of_vital (vital_execHifEnableSet _ h)
  | hifEnableClear => exact .of_vital (vital_execHifEnableClear _ h)
  | hostReady => exact .of_vital (vital_execHostReady _ h)
  | timedCommandDue => exact .of_vital (vital_execTimedCommandDue _ h)
  | evqHeadWrite value => exact .of_vital (vital_execEvqHeadWrite value _ h)
  | traceHeadWrite value => exact .of_vital (vital_execTraceHeadWrite value _ h)
  | ring0ParamWrite offset len value => exact .of_vital (vital_execRing0ParamWrite offset len value _ h)
  | lowHalfRead bar offset len => exact .of_vital (vital_execLowHalfRead bar offset len _ h)
  | lowHalfWrite offset value => exact .of_vital (vital_execLowHalfWrite offset value _ h)
  | timeCaptureRead wide => exact .of_vital (vital_execTimeCaptureRead wide _ h)
  | errorLogSlotRead slot wide => exact .of_vital (vital_execErrorLogSlotRead slot wide _ h)
  | bar0OffBlockAccess offset write => exact .of_vital (vital_execBar0OffBlockAccess offset write _ h)
  | registerWrite bar offset len value => exact .of_vital (vital_execRegisterWrite bar offset len value _ h)
  | nop id => exact .of_vital (vital_execNop id _ h)
  | deviceIdentify id => exact .of_vital (vital_execDeviceIdentify id _ h)
  | deviceStatus id temps => exact .of_vital (vital_execDeviceStatus id temps _ h)
  | ringCreate id => exact .of_vital (vital_execRingCreate id _ h)
  | ringDelete id => exact .of_vital (vital_execRingDelete id _ h)
  | ringReset id => exact .of_vital (vital_execRingReset id _ h)
  | ringStatus id => exact .of_vital (vital_execRingStatus id _ h)
  | portCreate id => exact .of_vital (vital_execPortCreate id _ h)
  | portDelete id => exact .of_vital (vital_execPortDelete id _ h)
  | portSet id => exact .of_vital (vital_execPortSet id _ h)
  | portStatus id => exact .of_vital (vital_execPortStatus id _ h)
  | laneSet id m => exact .of_vital (vital_execLaneSet id m _ h)
  | laneStatus id m => exact .of_vital (vital_execLaneStatus id m _ h)
  | laneCalibrate id => exact .of_vital (vital_execLaneCalibrate id _ h)
  | laneMute id => exact .of_vital (vital_execLaneMute id _ h)
  | laneDiag id => exact .of_vital (vital_execLaneDiag id _ h)
  | garnetSet id => exact .of_vital (vital_execGarnetSet id _ h)
  | garnetRestart id => exact .of_vital (vital_execGarnetRestart id _ h)
  | garnetRetrain id => exact .of_vital (vital_execGarnetRetrain id _ h)
  | garnetStatus id ms => exact .of_vital (vital_execGarnetStatus id ms _ h)
  | garnetTdr id m => exact .of_vital (vital_execGarnetTdr id m _ h)
  | garnetDiag id counts => exact .of_vital (vital_execGarnetDiag id counts _ h)
  | bufferSet id => exact .of_vital (vital_execBufferSet id _ h)
  | profileSet id => exact .of_vital (vital_execProfileSet id _ h)
  | wredSet id => exact .of_vital (vital_execWredSet id _ h)
  | classifySet id host => exact .of_vital (vital_execClassifySet id host _ h)
  | iqSet id => exact .of_vital (vital_execIqSet id _ h)
  | memorySet id => exact .of_vital (vital_execMemorySet id _ h)
  | bufferStatus id => exact .of_vital (vital_execBufferStatus id _ h)
  | queueStatus id => exact .of_vital (vital_execQueueStatus id _ h)
  | nodeCreate id => exact .of_vital (vital_execNodeCreate id _ h)
  | nodeDelete id => exact .of_vital (vital_execNodeDelete id _ h)
  | nodeSet id => exact .of_vital (vital_execNodeSet id _ h)
  | nodeBatch id host => exact .of_vital (vital_execNodeBatch id host _ h)
  | nodeStatus id => exact .of_vital (vital_execNodeStatus id _ h)
  | tableCreate id => exact leads_execTableCreate id _ h
  | tableDelete id => exact .of_vital (vital_execTableDelete id _ h)
  | tableUpdate id host places merged => exact leads_execTableUpdate id host places merged _ h
  | epochOpen id => exact .of_vital (vital_execEpochOpen id _ h)
  | epochCommit id => exact .of_vital (vital_execEpochCommit id _ h)
  | epochAbort id => exact .of_vital (vital_execEpochAbort id _ h)
  | epochStatus id => exact .of_vital (vital_execEpochStatus id _ h)
  | tableStatus id => exact .of_vital (vital_execTableStatus id _ h)
  | tableLookup id host => exact .of_vital (vital_execTableLookup id host _ h)
  | timeSet id => exact leads_execTimeSet id _ h
  | servoFeed id => exact .of_vital (vital_execServoFeed id _ h)
  | servoSet id => exact .of_vital (vital_execServoSet id _ h)
  | timeGet id => exact .of_vital (vital_execTimeGet id _ h)
  | timePins id => exact .of_vital (vital_execTimePins id _ h)
  | portTsSet id => exact .of_vital (vital_execPortTsSet id _ h)
  | tsCaptureRead id => exact .of_vital (vital_execTsCaptureRead id _ h)
  | timeStatus id => exact .of_vital (vital_execTimeStatus id _ h)
  | powerState id => exact .of_vital (vital_execPowerState id _ h)
  | padRelease id mods => exact .of_vital (vital_execPadRelease id mods _ h)
  | healthStatus id => exact .of_vital (vital_execHealthStatus id _ h)
  | memRead id found => exact leads_execMemRead id found _ h
  | memWrite id host found => exact leads_execMemWrite id host found _ h
  | guardPropose id host => exact .of_vital (vital_execGuardPropose id host _ h)
  | guardAbort id => exact .of_vital (vital_execGuardAbort id _ h)
  | guardStatus id => exact .of_vital (vital_execGuardStatus id _ h)
  | geodeSet id => exact .of_vital (vital_execGeodeSet id _ h)
  | geodeSwitchover id => exact .of_vital (vital_execGeodeSwitchover id _ h)
  | geodeStatus id => exact .of_vital (vital_execGeodeStatus id _ h)
  | snapshot id => exact .of_vital (vital_execSnapshot id _ h)
  | snapshotSet id => exact .of_vital (vital_execSnapshotSet id _ h)
  | profileSetCtr id => exact .of_vital (vital_execProfileSetCtr id _ h)
  | profileRead id => exact .of_vital (vital_execProfileRead id _ h)
  | bwSet id => exact .of_vital (vital_execBwSet id _ h)
  | bwRead id => exact .of_vital (vital_execBwRead id _ h)
  | traceSet id => exact .of_vital (vital_execTraceSet id _ h)
  | traceStatus id => exact .of_vital (vital_execTraceStatus id _ h)
  | cageSet id => exact .of_vital (vital_execCageSet id _ h)
  | cageReset id => exact .of_vital (vital_execCageReset id _ h)
  | cageRead id => exact .of_vital (vital_execCageRead id _ h)
  | cageWrite id host => exact .of_vital (vital_execCageWrite id host _ h)
  | cageStatus id => exact .of_vital (vital_execCageStatus id _ h)
  | cageFlagClear id => exact .of_vital (vital_execCageFlagClear id _ h)
  | auxdacSet id => exact .of_vital (vital_execAuxdacSet id _ h)
  | auxadcSeq id => exact .of_vital (vital_execAuxadcSeq id _ h)
  | auxadcTrigger id => exact .of_vital (vital_execAuxadcTrigger id _ h)
  | auxStatus id cool => exact .of_vital (vital_execAuxStatus id cool _ h)
  | mgmtStatusRead => exact .of_vital (vital_execMgmtStatusRead _ h)
  | mgmtIdentity => exact .of_vital (vital_execMgmtIdentity _ h)
  | mgmtHealth => exact .of_vital (vital_execMgmtHealth _ h)
  | mgmtTemp temps => exact .of_vital (vital_execMgmtTemp temps _ h)
  | mgmtGuardPending => exact .of_vital (vital_execMgmtGuardPending _ h)
  | mgmtGuardValue item offset len => exact .of_vital (vital_execMgmtGuardValue item offset len _ h)
  | guardConfirm item nonce digest pec => exact leads_execGuardConfirm item nonce digest pec _ h
  | mgmtGuardAbort item nonce pec => exact .of_vital (vital_execMgmtGuardAbort item nonce pec _ h)
  | mgmtGuardResult => exact .of_vital (vital_execMgmtGuardResult _ h)
  | mgmtErrorLog index => exact .of_vital (vital_execMgmtErrorLog index _ h)
  | mgmtOtpRead offset len => exact .of_vital (vital_execMgmtOtpRead offset len _ h)
  | mgmtWake value pec => exact leads_execMgmtWake value pec _ h
  | mgmtAux cool => exact .of_vital (vital_execMgmtAux cool _ h)
  | alertResponse => exact .of_vital (vital_execAlertResponse _ h)
  | smbClockTimeout => exact .of_vital (vital_execSmbClockTimeout _ h)
  | guardWindowEnd item => exact .of_vital (vital_execGuardWindowEnd item _ h)
  | otpProgramDone => exact leads_execOtpProgramDone _ h
  | ppsOutEdge => exact .of_vital (vital_execPpsOutEdge _ h)
  | ppsOutPulseEnd pin => exact .of_vital (vital_execPpsOutPulseEnd pin _ h)
  | ppsInEdge => exact .of_vital (vital_execPpsInEdge _ h)
  | ppsInLost => exact .of_vital (vital_execPpsInLost _ h)
  | servoFeedTimeout => exact .of_vital (vital_execServoFeedTimeout _ h)
  | synceUnsquelch output => exact .of_vital (vital_execSynceUnsquelch output _ h)
  | helloSend => exact .of_vital (vital_execHelloSend _ h)
  | helloReceive => exact leads_execHelloReceive _ h
  | timeRecordSend => exact .of_vital (vital_execTimeRecordSend _ h)
  | timeRecordReceive => exact leads_execTimeRecordReceive _ h
  | geodeRoundTrip => exact .of_vital (vital_execGeodeRoundTrip _ h)
  | configReceive => exact leads_execConfigReceive _ h
  | epochBeginReceive => exact .of_vital (vital_execEpochBeginReceive _ h)
  | epochEntryReceive places merged => exact leads_execEpochEntryReceive places merged _ h
  | epochEndReceive => exact .of_vital (vital_execEpochEndReceive _ h)
  | handoverReceive => exact .of_vital (vital_execHandoverReceive _ h)
  | darkReceive => exact .of_vital (vital_execDarkReceive _ h)
  | geodeRampUpStart => exact .of_vital (vital_execGeodeRampUpStart _ h)
  | takenReceive => exact .of_vital (vital_execTakenReceive _ h)
  | geodeLinkLoss => exact .of_vital (vital_execGeodeLinkLoss _ h)
  | linkLossTakeover => exact .of_vital (vital_execLinkLossTakeover _ h)
  | quiesceDrainEnd => exact .of_vital (vital_execQuiesceDrainEnd _ h)
  | retainEntry found => exact leads_execRetainEntry found _ h
  | wakeTimer => exact leads_execWakeTimer _ h
  | wakePresenceChange cage => exact leads_execWakePresenceChange cage _ h
  | wakePpsEdge => exact leads_execWakePpsEdge _ h
  | wakeGarnetActivity link => exact leads_execWakeGarnetActivity link _ h
  | retainedBankCheck bank found => exact leads_execRetainedBankCheck bank found _ h
  | hwError word => exact leads_execHwError word _ h
  | adcPeriodTimer => exact .of_vital (vital_execAdcPeriodTimer _ h)
  | adcSequenceEnd codes => exact .of_vital (vital_execAdcSequenceEnd codes _ h)
  | auxdacModeChangeEnd => exact .of_vital (vital_execAuxdacModeChangeEnd _ h)
  | auxOverTemp output => exact .of_vital (vital_execAuxOverTemp output _ h)
  | auxdacFaultEnd output => exact .of_vital (vital_execAuxdacFaultEnd output _ h)
  | snapshotPeriod => exact .of_vital (vital_execSnapshotPeriod _ h)
  | snapshotComplete => exact .of_vital (vital_execSnapshotComplete _ h)
  | bwWindowEnd portNo => exact .of_vital (vital_execBwWindowEnd portNo _ h)
  | traceOverflow => exact .of_vital (vital_execTraceOverflow _ h)
  | vddioMgmtReturn => exact leads_execVddioMgmtReturn _ h
  | groupBRailReturn rail => exact .of_vital (vital_execGroupBRailReturn rail _ h)
  | pcieLinkUp => exact .of_vital (vital_execPcieLinkUp _ h)
  | pcieConfigRequest offset => exact .of_vital (vital_execPcieConfigRequest offset _ h)
  | localFaultReceived port columns => exact .of_vital (vital_execLocalFaultReceived port columns _ h)
  | stdLinkLocalFault link present => exact .of_vital (vital_execStdLinkLocalFault link present _ h)
  | trainingStep2aStart link pair => exact .of_vital (vital_execTrainingStep2aStart link pair _ h)
  | flitSend link pair => exact .of_vital (vital_execFlitSend link pair _ h)
  | channelSlot stack channel busy => exact .of_vital (vital_execChannelSlot stack channel busy _ h)
  | voltageFailWindowEnd => exact .of_vital (vital_execVoltageFailWindowEnd _ h)

theorem exec_keeps {c : Instr} {s t : State} (h : exec c s = .next t) : Keeps (vital s) (vital t) := by
  by_cases por : c = .porNAssert
  · subst por
    exact keeps_execPorNAssert s h
  · by_cases loss : c = .vddBedrockLoss
    · subst loss
      exact keeps_execVddBedrockLoss s h
    · exact (exec_leads por loss h).keeps

theorem vital_with_now (s : State) (n : Nat) : vital { s with now := n } = vital s := rfl

theorem step_keeps {s t : State} (h : step s = .next t) : Keeps (vital s) (vital t) := by
  unfold step at h
  split at h
  · cases h
    exact (leads_clockTick (Leads.of_vital (vital_with_now s (s.now + 1)))).keeps
  · next c rest _ =>
    have kept := exec_keeps h
    rwa [vital_with_queue] at kept

/-- Settles O60: every command but those two only adds entries to the log. -/
theorem errorLogOnlyGrows : Obligations.ErrorLogOnlyGrows := by
  unfold Obligations.ErrorLogOnlyGrows
  intro c s t por loss h
  obtain ⟨count, still, recent⟩ := (exec_leads por loss h).log
  exact ⟨count, fun same i => congrArg ErrEntry.bytes (still same i), fun n old slots => congrArg ErrEntry.bytes (recent n old slots)⟩

/-- Settles O59: board OTP is written by the programming of its bits alone, done or interrupted, and both only set bits. -/
theorem otpBitsNeverReturnToZero : Obligations.OtpBitsNeverReturnToZero := by
  unfold Obligations.OtpBitsNeverReturnToZero
  intro s t a i form h set
  exact (step_keeps h).otp.bits form a i set

/-- Settles O58: the invariant is one of the vital part, which every command keeps within its bounds. -/
theorem everyStepKeepsTheInvariant : Obligations.EveryStepKeepsTheInvariant := by
  unfold Obligations.EveryStepKeepsTheInvariant
  intro s t inv h
  exact (inv_iff_sound t).2 ((step_keeps h).sound ((inv_iff_sound s).1 inv))

end Sys2Proof.Machine
end

section
/-! PROOFS. A step, an idle step, and the state after reset. -/
namespace Sys2Proof.Machine

/-- Settles O1: by the definitions of a step and of each command's answer. -/
theorem stepRunsTheFront : Obligations.StepRunsTheFront := by
  unfold Obligations.StepRunsTheFront
  refine ⟨fun c rest s => rfl, fun c s => ?_⟩
  cases c <;> exact ⟨_, rfl⟩

theorem clockTick_now (s : State) : (clockTick s).now = s.now := by
  unfold clockTick
  split <;> rfl

theorem clockTick_pending (s : State) : (clockTick s).pending = s.pending := by
  unfold clockTick
  split <;> rfl

theorem clockTick_of_stopped {s : State} (h : s.tim.running = false) : clockTick s = s := by
  simp [clockTick, h]

theorem step_of_idle {s : State} (h : s.pending = []) : step s = .next s.pass := by
  unfold step
  rw [h]

/-- Settles O2. -/
theorem idleStepLetsTimePass : Obligations.IdleStepLetsTimePass := by
  unfold Obligations.IdleStepLetsTimePass
  intro s idle
  refine ⟨⟨s.pass, step_of_idle idle, clockTick_now _, (clockTick_pending _).trans idle⟩, fun stopped => ?_⟩
  rw [step_of_idle idle]
  exact congrArg Host.Outcome.next (clockTick_of_stopped (s := { s with now := s.now + 1 }) stopped)

/-- Settles O57: the values of the state after reset. -/
theorem resetMeetsTheInvariant : Obligations.ResetMeetsTheInvariant := by
  unfold Obligations.ResetMeetsTheInvariant
  refine (inv_iff_sound _).2 ⟨rfl, fun _ h => (List.not_mem_nil h).elim, by decide, ?_, fun _ h => ?_, by decide⟩
  · unfold setPointOk
    decide
  · cases h

end Sys2Proof.Machine
end

section
/-! PROOFS. POR_N, VDD_BEDROCK and the Bedrock clock. -/
namespace Sys2Proof.Machine

theorem railUp_mapBed {f : Bed → Bed} (s : State) (k : Nat) : railUp (s.mapBed f) k = (f s.bed).railOk.getLsbD k := rfl

/-- The bits of a single bit. -/

theorem getLsbD_bit (w r k : Nat) : (1 <<< r : BitVec w).getLsbD k = (decide (k < w) && decide (k = r)) := by
  rw [BitVec.natCast_eq_ofNat, BitVec.getLsbD_ofNat, Nat.one_shiftLeft, Nat.testBit_two_pow]
  simp [eq_comm]

theorem railUp_railOn {r : Nat} (s : State) {k : Nat} (h : r < 12) : railUp (railOn r s) k = (railUp s k || decide (k = r)) := by
  simp only [railUp, railOn, State.mapBed_bed, BitVec.getLsbD_or, getLsbD_bit]
  by_cases e : k = r <;> simp [e, h]

theorem railUp_railOff {r : Nat} (s : State) (k : Nat) : railUp (railOff r s) k = (railUp s k && decide (k ≠ r)) := by
  simp only [railUp, railOff, State.mapBed_bed, BitVec.getLsbD_and, BitVec.getLsbD_not, getLsbD_bit]
  by_cases b : k < 12
  · simp [b]
  · simp [BitVec.getLsbD_of_ge _ _ (Nat.le_of_not_lt b)]

theorem otpInterrupt_hard (s : State) : (otpInterrupt s).otp.hard = s.otp.hard := by
  unfold otpInterrupt
  split <;> rfl

theorem otpInterrupt_idle {s : State} (h : s.guard.otpProg = []) : otpInterrupt s = s := by
  simp [otpInterrupt, h]
@[simp] theorem porReset_otp (s : State) : (porReset s).otp = (otpInterrupt s).otp := rfl

theorem porReset_otp_idle {s : State} (h : s.guard.otpProg = []) : (porReset s).otp = s.otp := by
  rw [porReset_otp, otpInterrupt_idle h]

/-- A start of the Bedrock domain: the straps, the error log and the device area. -/
theorem bedrockStart_starts (strap : Nat) (s : State) :
    (bedrockStart strap s).bed.running = true ∧ (bedrockStart strap s).bed.clkInUse = false ∧ (bedrockStart strap s).bed.waitGroupA = false ∧
      (bedrockStart strap s).mgmt.addr = 0x64 + strap % 4 ∧ (bedrockStart strap s).elog.epoch = s.now ∧
      (bedrockStart strap s).otp.area = Memory.getBytes s.otp.bytes 0 256 ∧ (bedrockStart strap s).otp.bytes = s.otp.bytes ∧
      (bedrockStart strap s).bed.porAsserted = s.bed.porAsserted ∧ (bedrockStart strap s).bed.railOk = s.bed.railOk :=
  ⟨rfl, rfl, rfl, rfl, rfl, rfl, rfl, rfl, rfl⟩

/-- Settles O3: both resets are `porReset` and both starts are `bedrockStart`. -/
theorem porAndBedrockSupplyRows : Obligations.PorAndBedrockSupplyRows := by
  unfold Obligations.PorAndBedrockSupplyRows
  refine ⟨fun s => ⟨_, rfl, ?_⟩, fun s => ⟨_, rfl, ?_⟩, fun strap s por up wait => ?_, fun strap s wait up por => ?_⟩
  · exact ⟨rfl, rfl, rfl, rfl, rfl, rfl, rfl, rfl, rfl, rfl, rfl, otpInterrupt_hard s, fun idle => porReset_otp_idle idle⟩
  · refine ⟨?_, rfl, rfl, rfl, rfl, rfl, rfl, rfl, rfl, rfl, fun idle => porReset_otp_idle idle⟩
    simp [railUp]
  · have runs : exec (.porNDeassert strap) s = .next (bedrockStart strap (s.mapBed fun b => { b with porAsserted := false })) := by
      simp only [railUp] at up
      simp [exec, execPorNDeassert, railUp, por, up, wait]
    obtain ⟨running, clock, -, addr, epoch, area, bytes, held, -⟩ := bedrockStart_starts strap (s.mapBed fun b => { b with porAsserted := false })
    exact ⟨_, runs, held, running, clock, addr, epoch, area, bytes⟩
  · have runs : exec (.vddBedrockReturn strap) s =
        .next (bedrockStart strap ((s.mapBed fun b => { b with railOk := b.railOk ||| 0x400 }).mapBed fun b => { b with waitGroupA := false })) := by
      simp only [railUp] at up
      simp [exec, execVddBedrockReturn, railUp, por, up, wait]
    obtain ⟨running, -, waits, addr, epoch, area, -, -, rails⟩ :=
      bedrockStart_starts strap ((s.mapBed fun b => { b with railOk := b.railOk ||| 0x400 }).mapBed fun b => { b with waitGroupA := false })
    refine ⟨_, runs, ?_, running, waits, addr, epoch, area⟩
    rw [railUp, rails]
    simp

theorem perstAsserted_of {s : State} (pin : s.bed.perstPin = false) (up : railUp s 11 = true) : perstAsserted s = false := by
  simp [perstAsserted, pin, up]

/-- The device is ready to start (R47, R53): the Bedrock domain is up, PERST_N is deasserted, and rails and clock are good. -/
structure CanStart (s : State) : Prop where
  /-- The Bedrock domain. -/
  up : s.bed.bedrockUp = true
  /-- PERST_N. -/
  perst : perstAsserted s = false
  /-- The rails. -/
  rails : groupBUp s = true
  /-- No thermal trip. -/
  cool : s.bed.tripped = false
  /-- No core reset. -/
  reset : s.bed.coreReset = false
  /-- REFCLK_OPT. -/
  clock : s.bed.refOk.getLsbD 0 = true
  /-- Outside RETAIN. -/
  awake : s.retn.inRetain = false
  /-- Not yet started. -/
  idle : s.boot.started = false

theorem groupBUp_of {s : State} (h : ∀ r, r < 5 → railUp s r = true) : groupBUp s = true := by
  simp [groupBUp, h]

theorem tryStart_of_canStart {s : State} (h : CanStart s) : tryStart s = startDevice (s.mapBed fun b => { b with clkreq := true }) := by
  obtain ⟨up, perst, rails, cool, reset, clock, awake, idle⟩ := h
  have on : clkreqOn s = s.mapBed fun b => { b with clkreq := true } := by simp [clkreqOn, up, perst, awake]
  have perst' : perstAsserted (s.mapBed fun b => { b with clkreq := true }) = false := perst
  have rails' : groupBUp (s.mapBed fun b => { b with clkreq := true }) = true := rails
  simp [tryStart, on, perst', rails', up, cool, reset, clock, awake, idle]

@[simp] theorem spareRowsIn_boot (s : State) : (spareRowsIn s).boot = s.boot := rfl
@[simp] theorem startDevice_started (s : State) : (startDevice s).boot.started = true := rfl
@[simp] theorem startDevice_pcieTrain (s : State) : (startDevice s).boot.pcieTrain = s.bed.refOk.getLsbD 2 := rfl
@[simp] theorem startDevice_bed (s : State) : (startDevice s).bed = s.bed := rfl

@[simp] theorem clkreqOn_bed_bedrockUp (s : State) : (clkreqOn s).bed.bedrockUp = s.bed.bedrockUp := by
  unfold clkreqOn
  split <;> rfl

@[simp] theorem clkreqOn_boot (s : State) : (clkreqOn s).boot = s.boot := by
  unfold clkreqOn
  split <;> rfl

theorem tryStart_of_started {s : State} (h : s.boot.started = true) : (tryStart s).boot = s.boot := by
  simp [tryStart, h]

@[simp] theorem tryStart_bed (s : State) : (tryStart s).bed = (clkreqOn s).bed := by
  unfold tryStart
  dsimp only
  split <;> simp

theorem tryStart_starts {s : State} (h : CanStart s) : (tryStart s).boot.started = true := by
  rw [tryStart_of_canStart h]
  rfl

/-- The last entry of the log after one is added. -/
theorem logErr_adds (code subject detail : Nat) (s : State) :
    (logErr code subject detail s).elog.total = s.elog.total + 1 ∧
      (mget (logErr code subject detail s).elog.slots (s.elog.total % 256) ErrEntry.init).code = BitVec.ofNat 16 code ∧
      (mget (logErr code subject detail s).elog.slots (s.elog.total % 256) ErrEntry.init).subject = BitVec.ofNat 16 subject ∧
      (mget (logErr code subject detail s).elog.slots (s.elog.total % 256) ErrEntry.init).detail = BitVec.ofNat 32 detail := by
  simp [logErr, mget, mfind_mput]

/-- Settles O4: each row under its condition. -/
theorem bedrockClockRows : Obligations.BedrockClockRows := by
  unfold Obligations.BedrockClockRows
  refine ⟨fun edges s running unchecked => ?_, fun s used => ?_, fun temps s running checked down => ?_⟩
  · simp [exec, execBedrockClkCheck, running, unchecked]
  · have runs : exec .bedrockClkLoss s = .next (logErr 0x0004 0 0 (s.mapBed fun b => { b with clkInUse := false, fallback := true })) := by
      simp [exec, execBedrockClkLoss, used]
    obtain ⟨total, code, -, -⟩ := logErr_adds 0x0004 0 0 (s.mapBed fun b => { b with clkInUse := false, fallback := true })
    exact ⟨_, runs, rfl, rfl, total, code⟩
  · have runs : exec (.bedrockUp temps) s = .next (tryStart (s.mapBed fun b =>
        { b with bedrockUp := true, temp := (temps.filter fun t => decide (t.1 < 40)).foldl (fun m t => mput m t.1 t.2) b.temp })) := by
      simp [exec, execBedrockUp, running, checked, down]
    refine ⟨_, runs, by simp, fun pin rails clocks cool reset awake => ?_⟩
    by_cases idle : s.boot.started = true
    · rw [tryStart_of_started (by simpa using idle)]
      simpa using idle
    · refine tryStart_starts ⟨rfl, perstAsserted_of pin (rails 11 (by omega)), groupBUp_of fun r h => rails r (by omega), cool, reset, ?_, awake, ?_⟩
      · simp [clocks]
      · simpa using idle

end Sys2Proof.Machine
end

section
/-! PROOFS. PERST_N and VDDIO_MGMT. -/
namespace Sys2Proof.Machine

/-- What PERST_N and core reset clear, and what they keep. -/
structure OuterCleared (s t : State) : Prop where
  /-- The control processors. -/
  boot : t.boot = Boot.init
  /-- The host interface. -/
  hif : t.hif = Hif.init
  /-- The commands in flight. -/
  fl : t.fl = Flight.init
  /-- The lanes. -/
  lanes : t.lanes = LaneBank.init
  /-- The ports. -/
  ports : t.ports = PortBank.init
  /-- The Garnet links. -/
  gar : t.gar = Garnet.init
  /-- The packet buffer. -/
  buf : t.buf = Buffer.init
  /-- The scheduler. -/
  sched : t.sched = Sched.init
  /-- The tables. -/
  tbl : t.tbl = Tables.init
  /-- The clock. -/
  tim : t.tim = Tim.init
  /-- The proposals. -/
  props : t.guard.props = []
  /-- The DMA restriction. -/
  dma : t.guard.dmaRestrict = false
  /-- The DMA windows. -/
  windows : t.guard.windows = []
  /-- The group masks. -/
  masks : t.guard.masks = []
  /-- BAR4 access. -/
  bar4 : t.guard.bar4 = false
  /-- Debug access. -/
  debug : t.guard.debug = false
  /-- The error log. -/
  elog : t.elog = s.elog
  /-- Board OTP. -/
  otp : t.otp = s.otp
  /-- The auxiliary DACs. -/
  dac : t.dac = s.dac
  /-- The repair lists. -/
  rep : t.rep = s.rep
  /-- The Bedrock state. -/
  bed : t.bed = s.bed

theorem outerReset_cleared (s : State) : OuterCleared s (outerReset s) := by
  obtain ⟨al, h⟩ := outerReset_eq s
  rw [h]
  constructor <;> rfl

theorem perstEffect_of_awake {s : State} (awake : s.retn.inRetain = false) (settled : s.retn.waking = false) : perstEffect s = outerReset s := by
  simp [perstEffect, awake, settled]

theorem wake_of_awake (source : Nat) {s : State} (awake : s.retn.inRetain = false) (active : s.boot.state ≠ .retain) : wake source s = s := by
  simp [wake, awake, active]

theorem retainedBanks_bed (s : State) (f : Bed → Bed) : retainedBanks (s.mapBed f) = retainedBanks s := rfl

theorem initAtStart_fold (banks l : List Nat) (r : BitVec 69) (h : r.getLsbD 0 = true) :
    (l.foldl (fun r b => if banks.contains b then r else r ||| ((1 : BitVec 69) <<< (1 + b))) r).getLsbD 0 = true := by
  induction l generalizing r with
  | nil => exact h
  | cons b l ih =>
    refine ih _ ?_
    dsimp only
    split
    · exact h
    · rw [BitVec.getLsbD_or, h, Bool.true_or]

theorem initAtStart_buffer (banks : List Nat) : (initAtStart banks).getLsbD 0 = true := initAtStart_fold _ _ _ rfl

/-- A device ready to start starts: CLKREQ_N, PCIe training, and the initialisation of the packet buffer. -/
theorem tryStart_does {s : State} (h : CanStart s) :
    (tryStart s).boot.started = true ∧ (tryStart s).boot.pcieTrain = s.bed.refOk.getLsbD 2 ∧ (tryStart s).bed.clkreq = true ∧
      (tryStart s).boot.initRun.getLsbD 0 = true ∧ (tryStart s).bed.railOk = s.bed.railOk ∧ (tryStart s).bed.perstPin = s.bed.perstPin ∧
      (tryStart s).bed.coreReset = s.bed.coreReset := by
  rw [tryStart_of_canStart h]
  exact ⟨rfl, rfl, rfl, initAtStart_buffer _, rfl, rfl, rfl⟩

theorem clkreqOn_rails (s : State) : (clkreqOn s).bed.railOk = s.bed.railOk ∧ (clkreqOn s).bed.perstPin = s.bed.perstPin := by
  unfold clkreqOn
  split <;> exact ⟨rfl, rfl⟩

theorem clkreqOn_clkreq {s : State} (h : s.bed.clkreq = true) : (clkreqOn s).bed.clkreq = true := by
  unfold clkreqOn
  split
  · rfl
  · exact h

/-- A release of PERST_N starts a device ready to start, in RETAIN too. -/
theorem perstRelease_does {s : State} (up : s.bed.bedrockUp = true) (perst : perstAsserted s = false) (rails : groupBUp s = true)
    (cool : s.bed.tripped = false) (reset : s.bed.coreReset = false) (clocks : s.bed.refOk = 7) (active : s.boot.state = .active)
    (idle : s.boot.started = false) :
    (perstRelease s).boot.started = true ∧ (perstRelease s).boot.pcieTrain = true ∧ (perstRelease s).bed.clkreq = true ∧
      (perstRelease s).boot.initRun.getLsbD 0 = true ∧ (perstRelease s).bed.railOk = s.bed.railOk ∧
      (perstRelease s).bed.perstPin = s.bed.perstPin := by
  unfold perstRelease
  by_cases retained : s.retn.inRetain = true
  · have woken : wake 6 s = tryStart (logErr 0x000C 6 0 ((s.mapRetn fun r => { r with inRetain := false, waking := true }).mapBed fun b =>
        { b with wakeN := true, wakeSource := 6 })) := by simp [wake, retained]
    obtain ⟨started, train, clkreq, init, rail, pin, -⟩ := tryStart_does (s := logErr 0x000C 6 0 ((s.mapRetn fun r =>
      { r with inRetain := false, waking := true }).mapBed fun b => { b with wakeN := true, wakeSource := 6 }))
      ⟨up, perst, rails, cool, reset, by simp [logErr, clocks], rfl, idle⟩
    rw [woken, tryStart_of_started started, tryStart_bed]
    have kept := clkreqOn_rails (tryStart (logErr 0x000C 6 0 ((s.mapRetn fun r => { r with inRetain := false, waking := true }).mapBed fun b =>
        { b with wakeN := true, wakeSource := 6 })))
    refine ⟨started, train.trans ?_, clkreqOn_clkreq clkreq, init, kept.1.trans rail, kept.2.trans pin⟩
    simp [logErr, clocks]
  · rw [wake_of_awake 6 (by simpa using retained) (by simp [active])]
    obtain ⟨started, train, clkreq, init, rail, pin, -⟩ := tryStart_does (s := s)
      ⟨up, perst, rails, cool, reset, by simp [clocks], by simpa using retained, idle⟩
    exact ⟨started, train.trans (by simp [clocks]), clkreq, init, rail, pin⟩

/-- Settles O5: the assertions are `outerReset`, the deassertions a start. -/
theorem perstAndMgmtSupplyRows : Obligations.PerstAndMgmtSupplyRows := by
  unfold Obligations.PerstAndMgmtSupplyRows
  refine ⟨fun s running pin up awake settled => ?_, fun s running pin up awake settled => ?_,
    fun s pin rails bedrock cool reset clocks idle active => ?_, fun s pin rails down bedrock cool reset clocks idle active => ?_, fun s train => ?_⟩
  · have runs : exec .perstNAssert s = .next (outerReset (s.mapBed fun b => { b with perstPin := true })) := by
      simp [exec, execPerstNAssert, perstAsserted, perstEffect, running, pin, up, awake, settled]
    have h := outerReset_cleared (s.mapBed fun b => { b with perstPin := true })
    refine ⟨_, runs, ?_, h.boot, h.lanes, h.ports, h.gar, h.buf, h.sched, h.tbl, h.tim, h.hif, h.fl, h.props, h.dma, h.windows, h.masks, h.bar4, h.debug,
      h.elog, h.otp, h.dac, h.rep, ?_, ?_⟩ <;> rw [h.bed] <;> rfl
  · have runs : exec .vddioMgmtLoss s = .next (outerReset (s.mapBed fun b => { b with railOk := b.railOk &&& ~~~ 0x800 })) := by
      simp [exec, execVddioMgmtLoss, perstAsserted, perstEffect, running, pin, up, awake, settled]
    have h := outerReset_cleared (s.mapBed fun b => { b with railOk := b.railOk &&& ~~~ 0x800 })
    refine ⟨_, runs, ?_, ?_, h.boot, h.lanes, h.tbl, h.props, h.elog, h.otp⟩
    · rw [railUp, h.bed]
      simp
    · rw [perstAsserted, railUp, h.bed]
      simp
  · have runs : exec .perstNDeassert s = .next (perstRelease (s.mapBed fun b => { b with perstPin := false })) := by
      have up := rails 11 (by omega)
      simp only [railUp] at up
      simp [exec, execPerstNDeassert, perstAsserted, railUp, pin, up]
    obtain ⟨started, train, clkreq, init, -, pin⟩ := perstRelease_does (s := s.mapBed fun b => { b with perstPin := false }) bedrock
      (perstAsserted_of rfl (rails 11 (by omega))) (groupBUp_of fun r h => rails r (by omega)) cool reset clocks active idle
    exact ⟨_, runs, pin, started, train, clkreq, init⟩
  · have runs : exec .vddioMgmtReturn s = .next (perstRelease (s.mapBed fun b => { b with railOk := b.railOk ||| 0x800 })) := by
      simp [railUp] at down
      simp [exec, execVddioMgmtReturn, perstAsserted, railUp, pin, down]
    have other : ∀ r, r < 5 → railUp (s.mapBed fun b => { b with railOk := b.railOk ||| 0x800 }) r = true := by
      intro r h
      have up := rails r (by omega)
      simp only [railUp] at up
      simp [railUp_mapBed, up]
    have here : railUp (s.mapBed fun b => { b with railOk := b.railOk ||| 0x800 }) 11 = true := by simp [railUp]
    obtain ⟨started, -, -, -, rail, -⟩ := perstRelease_does (s := s.mapBed fun b => { b with railOk := b.railOk ||| 0x800 }) bedrock
      (perstAsserted_of pin here) (groupBUp_of other) cool reset clocks active idle
    refine ⟨_, runs, ?_, started⟩
    rw [railUp, rail]
    exact here
  · simp [exec, execPcieLinkUp, train]

end Sys2Proof.Machine
end

section
/-! PROOFS. Memory initialisation, FW_READY and HBM training. -/
namespace Sys2Proof.Machine

@[simp] theorem ite_boot {c : Prop} [Decidable c] (a b : State) :
    (if c then a else b).boot = if c then a.boot else b.boot := apply_ite (fun s : State => s.boot) c a b

@[simp] theorem foldl_boot {α : Type} {f : State → α → State} (same : ∀ s a, (f s a).boot = s.boot) (l : List α) (s : State) :
    (l.foldl f s).boot = s.boot := by
  induction l generalizing s with
  | nil => rfl
  | cons a l ih => exact (ih (f s a)).trans (same s a)

@[simp] theorem forEach_boot {f : Nat → State → State} (same : ∀ n s, (f n s).boot = s.boot) (l : List Nat) (s : State) :
    (forEach l f s).boot = s.boot :=
  foldl_boot (fun s n => same n s) l s

@[simp] theorem modLink_boot (n : Nat) (f : Link → Link) (s : State) : (modLink n f s).boot = s.boot := (rfl)

@[simp] theorem modPair_boot (n i : Nat) (f : Pair → Pair) (s : State) : (modPair n i f s).boot = s.boot := (rfl)

@[simp] theorem drawNonce_boot (s : State) : (drawNonce s).2.boot = s.boot := (rfl)

@[simp] theorem pairCount_boot (n i k a : Nat) (s : State) : (pairCount n i k a s).boot = s.boot := (rfl)

@[simp] theorem sleepBank_boot (n i : Nat) (s : State) : (sleepBank n i s).boot = s.boot := by
  simp [sleepBank]

@[simp] theorem pairPage_boot (n i : Nat) (s : State) : (pairPage n i s).boot = s.boot := by
  simp [pairPage]

@[simp] theorem linkStart_boot (n : Nat) (s : State) : (linkStart n s).boot = s.boot := by
  simp [linkStart]

@[simp] theorem garnetCauses_boot (s : State) : (garnetCauses s).boot = s.boot := by
  simp [garnetCauses]

@[simp] theorem unfailPairs_boot (n : Nat) (s : State) : (unfailPairs n s).boot = s.boot := by
  simp [unfailPairs]

@[simp] theorem linksStart_boot (s : State) : (linksStart s).boot = s.boot := by
  simp [linksStart]

@[simp] theorem restoreTables_boot (s : State) : (restoreTables s).boot = s.boot := by
  simp [restoreTables]

@[simp] theorem modStack_boot (m : Nat) (f : Stack → Stack) (s : State) : (modStack m f s).boot = s.boot := (rfl)

@[simp] theorem softAgain_boot (m : Nat) (s : State) : (softAgain m s).boot = s.boot := (rfl)

@[simp] theorem repairCause_boot (s : State) : (repairCause s).boot = s.boot := by
  simp [repairCause]

@[simp] theorem hardRepairs_boot (m : Nat) (s : State) : (hardRepairs m s).boot = s.boot := by
  simp [hardRepairs]

@[simp] theorem ite_obs_cycles {c : Prop} [Decidable c] (a b : State) :
    (if c then a else b).obs.cycles = if c then a.obs.cycles else b.obs.cycles := apply_ite (fun s : State => s.obs.cycles) c a b

@[simp] theorem foldl_obs_cycles {α : Type} {f : State → α → State} (same : ∀ s a, (f s a).obs.cycles = s.obs.cycles) (l : List α) (s : State) :
    (l.foldl f s).obs.cycles = s.obs.cycles := by
  induction l generalizing s with
  | nil => rfl
  | cons a l ih => exact (ih (f s a)).trans (same s a)

@[simp] theorem forEach_obs_cycles {f : Nat → State → State} (same : ∀ n s, (f n s).obs.cycles = s.obs.cycles) (l : List Nat) (s : State) :
    (forEach l f s).obs.cycles = s.obs.cycles :=
  foldl_obs_cycles (fun s n => same n s) l s

@[simp] theorem modLink_obs_cycles (n : Nat) (f : Link → Link) (s : State) : (modLink n f s).obs.cycles = s.obs.cycles := (rfl)

@[simp] theorem modPair_obs_cycles (n i : Nat) (f : Pair → Pair) (s : State) : (modPair n i f s).obs.cycles = s.obs.cycles := (rfl)

@[simp] theorem drawNonce_obs_cycles (s : State) : (drawNonce s).2.obs.cycles = s.obs.cycles := (rfl)

@[simp] theorem pairCount_obs_cycles (n i k a : Nat) (s : State) : (pairCount n i k a s).obs.cycles = s.obs.cycles := (rfl)

@[simp] theorem sleepBank_obs_cycles (n i : Nat) (s : State) : (sleepBank n i s).obs.cycles = s.obs.cycles := by
  simp [sleepBank]

@[simp] theorem pairPage_obs_cycles (n i : Nat) (s : State) : (pairPage n i s).obs.cycles = s.obs.cycles := by
  simp [pairPage]

@[simp] theorem linkStart_obs_cycles (n : Nat) (s : State) : (linkStart n s).obs.cycles = s.obs.cycles := by
  simp [linkStart]

@[simp] theorem loseEvent_obs_cycles (s : State) : (loseEvent s).obs.cycles = s.obs.cycles := congrArg (·.cycles) (loseEvent_keeps s).obs

@[simp] theorem evqDrain_obs_cycles (a : List Event) (s : State) : (evqDrain a s).2.obs.cycles = s.obs.cycles := congrArg (·.cycles) (evqDrain_keeps a s).obs

@[simp] theorem setHifErr_obs_cycles (bits : BitVec 7) (s : State) : (setHifErr bits s).obs.cycles = s.obs.cycles := congrArg (·.cycles) (setHifErr_keeps bits s).obs

@[simp] theorem hostWrite_obs_cycles (addr : Nat) (bytes : List Byte) (s : State) : (hostWrite addr bytes s).obs.cycles = s.obs.cycles := congrArg (·.cycles) (hostWrite_keeps addr bytes s).obs

@[simp] theorem msixFire_obs_cycles (v : Nat) (s : State) : (msixFire v s).obs.cycles = s.obs.cycles := congrArg (·.cycles) (msixFire_keeps v s).obs

@[simp] theorem msixCount_obs_cycles (v count n : Nat) (s : State) : (msixCount v count n s).obs.cycles = s.obs.cycles := congrArg (·.cycles) (msixCount_keeps v count n s).obs

@[simp] theorem evqWrite_obs_cycles (e : Event) (s : State) : (evqWrite e s).obs.cycles = s.obs.cycles := congrArg (·.cycles) (evqWrite_keeps e s).obs

@[simp] theorem deliverEvents_obs_cycles (s : State) : (deliverEvents s).obs.cycles = s.obs.cycles := congrArg (·.cycles) (deliverEvents_keeps s).obs

@[simp] theorem postEvent_obs_cycles (e : Event) (s : State) : (postEvent e s).obs.cycles = s.obs.cycles := congrArg (·.cycles) (postEvent_keeps e s).obs

@[simp] theorem post_obs_cycles (code sev obj detail : Nat) (s : State) : (post code sev obj detail s).obs.cycles = s.obs.cycles := congrArg (·.cycles) (post_keeps code sev obj detail s).obs

@[simp] theorem mirrorDrain_obs_cycles (a : Nat) (s : State) : (mirrorDrain a s).obs.cycles = s.obs.cycles := congrArg (·.cycles) (mirrorDrain_done a s).obs

@[simp] theorem mirrorPush_obs_cycles (k num : Nat) (b : List Byte) (s : State) : (mirrorPush k num b s).obs.cycles = s.obs.cycles := congrArg (·.cycles) (mirrorPush_done k num b s).obs

@[simp] theorem mirrorConfig_obs_cycles (op target : Nat) (inl data : List Byte) (s : State) : (mirrorConfig op target inl data s).obs.cycles = s.obs.cycles := congrArg (·.cycles) (mirrorConfig_done op target inl data s).obs

@[simp] theorem mirrorCmd_obs_cycles (c : Cmd) (st : Status) (s : State) : (mirrorCmd c st s).obs.cycles = s.obs.cycles := congrArg (·.cycles) (mirrorCmd_done c st s).obs

@[simp] theorem profEvent_obs_cycles (ev inst n : Nat) (s : State) : (profEvent ev inst n s).obs.cycles = s.obs.cycles := congrArg (·.cycles) (profEvent_done ev inst n s).obs

@[simp] theorem ringError_obs_cycles (r cause : Nat) (s : State) : (ringError r cause s).obs.cycles = s.obs.cycles := congrArg (·.cycles) (ringError_keeps r cause s).obs

@[simp] theorem writeCompletion_obs_cycles (c : Completion) (s : State) : (writeCompletion c s).obs.cycles = s.obs.cycles := congrArg (·.cycles) (writeCompletion_keeps c s).obs

@[simp] theorem finishOne_obs_cycles (id : Nat) (st : Status) (r0 r1 : BitVec 64) (eff : Bool) (s : State) : (finishOne id st r0 r1 eff s).obs.cycles = s.obs.cycles := congrArg (·.cycles) (finishOne_done id st r0 r1 eff s).obs

@[simp] theorem settleDeletes_obs_cycles (a : Nat) (s : State) : (settleDeletes a s).obs.cycles = s.obs.cycles := congrArg (·.cycles) (settleDeletes_done a s).obs

@[simp] theorem finish_obs_cycles (id : Nat) (st : Status) (r0 r1 : BitVec 64) (eff : Bool) (s : State) : (finish id st r0 r1 eff s).obs.cycles = s.obs.cycles := congrArg (·.cycles) (finish_done id st r0 r1 eff s).obs

@[simp] theorem endProposal_obs_cycles (item : Nat) (st : Status) (s : State) : (endProposal item st s).obs.cycles = s.obs.cycles := congrArg (·.cycles) (endProposal_cause item st s).obs

@[simp] theorem abortProposals_obs_cycles (s : State) : (abortProposals s).obs.cycles = s.obs.cycles := congrArg (·.cycles) (abortProposals_cause s).obs

@[simp] theorem setCauses_obs_cycles (causes : BitVec 12) (s : State) : (setCauses causes s).obs.cycles = s.obs.cycles := congrArg (·.cycles) (setCauses_cause causes s).obs

@[simp] theorem garnetCauses_obs_cycles (s : State) : (garnetCauses s).obs.cycles = s.obs.cycles := by
  simp [garnetCauses]

@[simp] theorem unfailPairs_obs_cycles (n : Nat) (s : State) : (unfailPairs n s).obs.cycles = s.obs.cycles := by
  simp [unfailPairs]

@[simp] theorem linksStart_obs_cycles (s : State) : (linksStart s).obs.cycles = s.obs.cycles := by
  simp [linksStart]

@[simp] theorem ite_tbl {c : Prop} [Decidable c] (a b : State) :
    (if c then a else b).tbl = if c then a.tbl else b.tbl := apply_ite (fun s : State => s.tbl) c a b

@[simp] theorem foldl_tbl {α : Type} {f : State → α → State} (same : ∀ s a, (f s a).tbl = s.tbl) (l : List α) (s : State) :
    (l.foldl f s).tbl = s.tbl := by
  induction l generalizing s with
  | nil => rfl
  | cons a l ih => exact (ih (f s a)).trans (same s a)

@[simp] theorem forEach_tbl {f : Nat → State → State} (same : ∀ n s, (f n s).tbl = s.tbl) (l : List Nat) (s : State) :
    (forEach l f s).tbl = s.tbl :=
  foldl_tbl (fun s n => same n s) l s

@[simp] theorem modLink_tbl (n : Nat) (f : Link → Link) (s : State) : (modLink n f s).tbl = s.tbl := (rfl)

@[simp] theorem modPair_tbl (n i : Nat) (f : Pair → Pair) (s : State) : (modPair n i f s).tbl = s.tbl := (rfl)

@[simp] theorem drawNonce_tbl (s : State) : (drawNonce s).2.tbl = s.tbl := (rfl)

@[simp] theorem pairCount_tbl (n i k a : Nat) (s : State) : (pairCount n i k a s).tbl = s.tbl := (rfl)

@[simp] theorem sleepBank_tbl (n i : Nat) (s : State) : (sleepBank n i s).tbl = s.tbl := by
  simp [sleepBank]

@[simp] theorem pairPage_tbl (n i : Nat) (s : State) : (pairPage n i s).tbl = s.tbl := by
  simp [pairPage]

@[simp] theorem linkStart_tbl (n : Nat) (s : State) : (linkStart n s).tbl = s.tbl := by
  simp [linkStart]

@[simp] theorem garnetCauses_tbl (s : State) : (garnetCauses s).tbl = s.tbl := by
  simp [garnetCauses]

@[simp] theorem unfailPairs_tbl (n : Nat) (s : State) : (unfailPairs n s).tbl = s.tbl := by
  simp [unfailPairs]

@[simp] theorem linksStart_tbl (s : State) : (linksStart s).tbl = s.tbl := by
  simp [linksStart]

@[simp] theorem ite_gar_mode {c : Prop} [Decidable c] (a b : State) :
    (if c then a else b).gar.mode = if c then a.gar.mode else b.gar.mode := apply_ite (fun s : State => s.gar.mode) c a b

@[simp] theorem foldl_gar_mode {α : Type} {f : State → α → State} (same : ∀ s a, (f s a).gar.mode = s.gar.mode) (l : List α) (s : State) :
    (l.foldl f s).gar.mode = s.gar.mode := by
  induction l generalizing s with
  | nil => rfl
  | cons a l ih => exact (ih (f s a)).trans (same s a)

@[simp] theorem forEach_gar_mode {f : Nat → State → State} (same : ∀ n s, (f n s).gar.mode = s.gar.mode) (l : List Nat) (s : State) :
    (forEach l f s).gar.mode = s.gar.mode :=
  foldl_gar_mode (fun s n => same n s) l s

@[simp] theorem modLink_gar_mode (n : Nat) (f : Link → Link) (s : State) : (modLink n f s).gar.mode = s.gar.mode := (rfl)

@[simp] theorem modPair_gar_mode (n i : Nat) (f : Pair → Pair) (s : State) : (modPair n i f s).gar.mode = s.gar.mode := (rfl)

@[simp] theorem drawNonce_gar_mode (s : State) : (drawNonce s).2.gar.mode = s.gar.mode := (rfl)

@[simp] theorem pairCount_gar_mode (n i k a : Nat) (s : State) : (pairCount n i k a s).gar.mode = s.gar.mode := (rfl)

@[simp] theorem sleepBank_gar_mode (n i : Nat) (s : State) : (sleepBank n i s).gar.mode = s.gar.mode := by
  simp [sleepBank]

@[simp] theorem pairPage_gar_mode (n i : Nat) (s : State) : (pairPage n i s).gar.mode = s.gar.mode := by
  simp [pairPage]

@[simp] theorem linkStart_gar_mode (n : Nat) (s : State) : (linkStart n s).gar.mode = s.gar.mode := by
  simp [linkStart]

@[simp] theorem loseEvent_gar_mode (s : State) : (loseEvent s).gar.mode = s.gar.mode := congrArg (·.mode) (loseEvent_keeps s).gar

@[simp] theorem evqDrain_gar_mode (a : List Event) (s : State) : (evqDrain a s).2.gar.mode = s.gar.mode := congrArg (·.mode) (evqDrain_keeps a s).gar

@[simp] theorem setHifErr_gar_mode (bits : BitVec 7) (s : State) : (setHifErr bits s).gar.mode = s.gar.mode := congrArg (·.mode) (setHifErr_keeps bits s).gar

@[simp] theorem hostWrite_gar_mode (addr : Nat) (bytes : List Byte) (s : State) : (hostWrite addr bytes s).gar.mode = s.gar.mode := congrArg (·.mode) (hostWrite_keeps addr bytes s).gar

@[simp] theorem msixFire_gar_mode (v : Nat) (s : State) : (msixFire v s).gar.mode = s.gar.mode := congrArg (·.mode) (msixFire_keeps v s).gar

@[simp] theorem msixCount_gar_mode (v count n : Nat) (s : State) : (msixCount v count n s).gar.mode = s.gar.mode := congrArg (·.mode) (msixCount_keeps v count n s).gar

@[simp] theorem evqWrite_gar_mode (e : Event) (s : State) : (evqWrite e s).gar.mode = s.gar.mode := congrArg (·.mode) (evqWrite_keeps e s).gar

@[simp] theorem deliverEvents_gar_mode (s : State) : (deliverEvents s).gar.mode = s.gar.mode := congrArg (·.mode) (deliverEvents_keeps s).gar

@[simp] theorem postEvent_gar_mode (e : Event) (s : State) : (postEvent e s).gar.mode = s.gar.mode := congrArg (·.mode) (postEvent_keeps e s).gar

@[simp] theorem post_gar_mode (code sev obj detail : Nat) (s : State) : (post code sev obj detail s).gar.mode = s.gar.mode := congrArg (·.mode) (post_keeps code sev obj detail s).gar

@[simp] theorem mirrorDrain_gar_mode (a : Nat) (s : State) : (mirrorDrain a s).gar.mode = s.gar.mode := congrArg (·.mode) (mirrorDrain_done a s).gar

@[simp] theorem mirrorPush_gar_mode (k num : Nat) (b : List Byte) (s : State) : (mirrorPush k num b s).gar.mode = s.gar.mode := congrArg (·.mode) (mirrorPush_done k num b s).gar

@[simp] theorem mirrorConfig_gar_mode (op target : Nat) (inl data : List Byte) (s : State) : (mirrorConfig op target inl data s).gar.mode = s.gar.mode := congrArg (·.mode) (mirrorConfig_done op target inl data s).gar

@[simp] theorem mirrorCmd_gar_mode (c : Cmd) (st : Status) (s : State) : (mirrorCmd c st s).gar.mode = s.gar.mode := congrArg (·.mode) (mirrorCmd_done c st s).gar

@[simp] theorem profEvent_gar_mode (ev inst n : Nat) (s : State) : (profEvent ev inst n s).gar.mode = s.gar.mode := congrArg (·.mode) (profEvent_done ev inst n s).gar

@[simp] theorem ringError_gar_mode (r cause : Nat) (s : State) : (ringError r cause s).gar.mode = s.gar.mode := congrArg (·.mode) (ringError_keeps r cause s).gar

@[simp] theorem writeCompletion_gar_mode (c : Completion) (s : State) : (writeCompletion c s).gar.mode = s.gar.mode := congrArg (·.mode) (writeCompletion_keeps c s).gar

@[simp] theorem finishOne_gar_mode (id : Nat) (st : Status) (r0 r1 : BitVec 64) (eff : Bool) (s : State) : (finishOne id st r0 r1 eff s).gar.mode = s.gar.mode := congrArg (·.mode) (finishOne_done id st r0 r1 eff s).gar

@[simp] theorem settleDeletes_gar_mode (a : Nat) (s : State) : (settleDeletes a s).gar.mode = s.gar.mode := congrArg (·.mode) (settleDeletes_done a s).gar

@[simp] theorem finish_gar_mode (id : Nat) (st : Status) (r0 r1 : BitVec 64) (eff : Bool) (s : State) : (finish id st r0 r1 eff s).gar.mode = s.gar.mode := congrArg (·.mode) (finish_done id st r0 r1 eff s).gar

@[simp] theorem endProposal_gar_mode (item : Nat) (st : Status) (s : State) : (endProposal item st s).gar.mode = s.gar.mode := congrArg (·.mode) (endProposal_cause item st s).gar

@[simp] theorem abortProposals_gar_mode (s : State) : (abortProposals s).gar.mode = s.gar.mode := congrArg (·.mode) (abortProposals_cause s).gar

@[simp] theorem setCauses_gar_mode (causes : BitVec 12) (s : State) : (setCauses causes s).gar.mode = s.gar.mode := congrArg (·.mode) (setCauses_cause causes s).gar

@[simp] theorem garnetCauses_gar_mode (s : State) : (garnetCauses s).gar.mode = s.gar.mode := by
  simp [garnetCauses]

@[simp] theorem unfailPairs_gar_mode (n : Nat) (s : State) : (unfailPairs n s).gar.mode = s.gar.mode := by
  simp [unfailPairs]

@[simp] theorem linksStart_gar_mode (s : State) : (linksStart s).gar.mode = s.gar.mode := by
  simp [linksStart]

@[simp] theorem ite_health {c : Prop} [Decidable c] (a b : State) :
    (if c then a else b).health = if c then a.health else b.health := apply_ite (fun s : State => s.health) c a b

@[simp] theorem foldl_health {α : Type} {f : State → α → State} (same : ∀ s a, (f s a).health = s.health) (l : List α) (s : State) :
    (l.foldl f s).health = s.health := by
  induction l generalizing s with
  | nil => rfl
  | cons a l ih => exact (ih (f s a)).trans (same s a)

@[simp] theorem forEach_health {f : Nat → State → State} (same : ∀ n s, (f n s).health = s.health) (l : List Nat) (s : State) :
    (forEach l f s).health = s.health :=
  foldl_health (fun s n => same n s) l s

@[simp] theorem endProposal_health (item : Nat) (st : Status) (s : State) : (endProposal item st s).health = s.health := by
  unfold endProposal
  split <;> simp

@[simp] theorem abortProposals_health (s : State) : (abortProposals s).health = s.health := by
  simp [abortProposals]

@[simp] theorem modStack_health (m : Nat) (f : Stack → Stack) (s : State) : (modStack m f s).health = s.health := (rfl)

@[simp] theorem hardRepairs_health (m : Nat) (s : State) : (hardRepairs m s).health = s.health := by
  simp [hardRepairs]

@[simp] theorem softAgain_health (m : Nat) (s : State) : (softAgain m s).health = s.health := (rfl)

@[simp] theorem ite_otp {c : Prop} [Decidable c] (a b : State) :
    (if c then a else b).otp = if c then a.otp else b.otp := apply_ite (fun s : State => s.otp) c a b

@[simp] theorem foldl_otp {α : Type} {f : State → α → State} (same : ∀ s a, (f s a).otp = s.otp) (l : List α) (s : State) :
    (l.foldl f s).otp = s.otp := by
  induction l generalizing s with
  | nil => rfl
  | cons a l ih => exact (ih (f s a)).trans (same s a)

@[simp] theorem forEach_otp {f : Nat → State → State} (same : ∀ n s, (f n s).otp = s.otp) (l : List Nat) (s : State) :
    (forEach l f s).otp = s.otp :=
  foldl_otp (fun s n => same n s) l s

@[simp] theorem restoreTables_otp (s : State) : (restoreTables s).otp = s.otp := by
  simp [restoreTables]

@[simp] theorem ite_retn {c : Prop} [Decidable c] (a b : State) :
    (if c then a else b).retn = if c then a.retn else b.retn := apply_ite (fun s : State => s.retn) c a b

@[simp] theorem foldl_retn {α : Type} {f : State → α → State} (same : ∀ s a, (f s a).retn = s.retn) (l : List α) (s : State) :
    (l.foldl f s).retn = s.retn := by
  induction l generalizing s with
  | nil => rfl
  | cons a l ih => exact (ih (f s a)).trans (same s a)

@[simp] theorem forEach_retn {f : Nat → State → State} (same : ∀ n s, (f n s).retn = s.retn) (l : List Nat) (s : State) :
    (forEach l f s).retn = s.retn :=
  foldl_retn (fun s n => same n s) l s

@[simp] theorem restoreTables_retn (s : State) : (restoreTables s).retn = s.retn := by
  simp [restoreTables]

@[simp] theorem ite_mem {c : Prop} [Decidable c] (a b : State) :
    (if c then a else b).mem = if c then a.mem else b.mem := apply_ite (fun s : State => s.mem) c a b

@[simp] theorem foldl_mem {α : Type} {f : State → α → State} (same : ∀ s a, (f s a).mem = s.mem) (l : List α) (s : State) :
    (l.foldl f s).mem = s.mem := by
  induction l generalizing s with
  | nil => rfl
  | cons a l ih => exact (ih (f s a)).trans (same s a)

@[simp] theorem forEach_mem {f : Nat → State → State} (same : ∀ n s, (f n s).mem = s.mem) (l : List Nat) (s : State) :
    (forEach l f s).mem = s.mem :=
  foldl_mem (fun s n => same n s) l s

@[simp] theorem repairCause_mem (s : State) : (repairCause s).mem = s.mem := by
  simp [repairCause]

@[simp] theorem modRegion_boot (r : Nat) (f : Region → Region) (s : State) : (modRegion r f s).boot = s.boot := (rfl)

@[simp] theorem cleanse_boot (r lo hi : Nat) (s : State) : (cleanse r lo hi s).boot = s.boot := by
  simp [cleanse]

theorem mget_mmod_same {α : Type} (m : Map α) (k : Nat) (d : α) (f : α → α) : mget (mmod m k d f) k d = f (mget m k d) := by
  simp [mget, mmod, mfind_mput]

theorem mget_mput_same {α : Type} (m : Map α) (k : Nat) (v d : α) : mget (mput m k v) k d = v := by
  simp [mget, mfind_mput]

theorem mget_mput_other {α : Type} (m : Map α) {j k : Nat} (v d : α) (h : j ≠ k) : mget (mput m k v) j d = mget m j d := by
  simp [mget, mfind_mput, h]

@[simp] theorem region_modRegion_same (r : Nat) (f : Region → Region) (s : State) : region (modRegion r f s) r = f (region s r) :=
  mget_mmod_same _ _ _ _

theorem region_modRegion_other {r k : Nat} (f : Region → Region) (s : State) (h : k ≠ r) : region (modRegion r f s) k = region s k :=
  mget_mput_other _ _ _ h

@[simp] theorem stack_modStack_same (m : Nat) (f : Stack → Stack) (s : State) : stack (modStack m f s) m = f (stack s m) :=
  mget_mmod_same _ _ _ _

theorem setCauses_health (c : BitVec 12) (s : State) : (setCauses c s).health = { s.health with causes := c } := by
  unfold setCauses
  dsimp only
  split
  · rfl
  · split
    · rw [abortProposals_health, post_health]
      rfl
    · rw [post_health]
      rfl

theorem getLsbD_ofNat_bit (w r k : Nat) : (BitVec.ofNat w (1 <<< r)).getLsbD k = (decide (k < w) && decide (k = r)) := getLsbD_bit w r k

/-- The bits of a region's INIT_DONE or INIT_RUN. -/
theorem getLsbD_regionBit (r k : Nat) : (regionBit r).getLsbD k = (decide (k < 69) && decide (k = r)) := by
  unfold regionBit
  rw [BitVec.getLsbD_shiftLeft, show (1 : BitVec 69) = 1#69 from rfl, BitVec.getLsbD_one]
  by_cases e : k = r
  · simp [e]
  · simp [e]
    omega

theorem cleanse_region_other {r k : Nat} (lo hi : Nat) (s : State) (h : k ≠ r) : region (cleanse r lo hi s) k = region s k := by
  unfold cleanse
  split
  · exact region_modRegion_other _ _ h
  · rfl

theorem region_mapBoot (f : Boot → Boot) (s : State) (r : Nat) : region (s.mapBoot f) r = region s r := rfl

/-- A region's cells and marks after its initialisation. -/
theorem clearedRegion_of_none {s : State} (none : s.retn.hbmStacks = 0) (r : Nat) (g : Region) :
    (clearedRegion s r g).cells = [] ∧ (clearedRegion s r g).bad = [] := by
  simp [clearedRegion, none, bitOf]

theorem otpGarMode_congr {s t : State} (h : t.otp = s.otp) : otpGarMode t = otpGarMode s := by
  simp [otpGarMode, h]

theorem restoreTables_epoch (s : State) : (restoreTables s).tbl.epoch = s.retn.epoch := by
  unfold restoreTables
  dsimp only
  split <;> rfl

theorem stack_congr {s t : State} (m : Nat) (h : t.mem = s.mem) : stack t m = stack s m := by
  simp [stack, h]

@[simp] theorem softAgain_resources (m : Nat) (s : State) : (stack (softAgain m s) m).resources = (stack s m).resources := by
  simp [softAgain]

/-- Settles O6: a region is cleared before its INIT_DONE sets, and a training attempt passes or is counted. -/
theorem memoryStartRows : Obligations.MemoryStartRows := by
  unfold Obligations.MemoryStartRows
  refine ⟨fun r s runs none => ?_, fun s started notReady healthy checked => ?_, fun m n s small training => ?_, fun m n s small training few => ?_,
    fun m n s small training last => ?_⟩
  · have below : r < 69 := BitVec.lt_of_getLsbD runs
    have cleared : ∀ u : State, u.boot = s.boot → region u r = clearedRegion s r (region s r) →
        let v := u.mapBoot fun b => { b with initRun := b.initRun &&& ~~~ regionBit r, initDone := b.initDone ||| regionBit r }
        v.boot.initDone.getLsbD r = true ∧ v.boot.initRun.getLsbD r = false ∧ (region v r).cells = [] ∧ (region v r).bad = [] := by
      intro u boot reg
      simp [region_mapBoot, boot, reg, clearedRegion_of_none none, getLsbD_regionBit, below]
    refine ⟨_, rfl, ?_⟩
    simp only [runs, Bool.not_true, Bool.false_eq_true, if_false]
    by_cases zero : r = 0
    · subst zero
      exact cleared (cleanse 69 0 (2 ^ 32) (cleanse 70 0 (2 ^ 32) (modRegion 0 (clearedRegion s 0) s))) (by simp) (by simp [cleanse_region_other])
    · simp only [if_neg zero]
      split
      · simpa [region] using cleared (modRegion r (clearedRegion s r) s) rfl (region_modRegion_same _ _ _)
      · exact cleared (modRegion r (clearedRegion s r) s) rfl (region_modRegion_same _ _ _)
  · refine ⟨_, rfl, ?_⟩
    simp [started, notReady, healthy, checked, restoreTables_epoch]
    exact otpGarMode_congr (by simp)
  · refine ⟨_, rfl, ?_⟩
    simp [training, getLsbD_regionBit, getLsbD_ofNat_bit, stack_congr m (repairCause_mem _)]
    omega
  · refine ⟨_, rfl, ?_⟩
    have more : mget s.boot.hbmFails m 0 + 1 < 3 := by omega
    simp [training, trainFailed, more, mget_mput_same]
  · refine ⟨_, rfl, ?_⟩
    simp [training, trainFailed, last, setCause, setCauses_health, getLsbD_ofNat_bit]

end Sys2Proof.Machine
end

section
/-! PROOFS. Brownout, rails, reference clocks, the trip, and AVSBus requests. -/
namespace Sys2Proof.Machine

@[simp] theorem ite_lanes {c : Prop} [Decidable c] (a b : State) :
    (if c then a else b).lanes = if c then a.lanes else b.lanes := apply_ite (fun s : State => s.lanes) c a b

@[simp] theorem foldl_lanes {α : Type} {f : State → α → State} (same : ∀ s a, (f s a).lanes = s.lanes) (l : List α) (s : State) :
    (l.foldl f s).lanes = s.lanes := by
  induction l generalizing s with
  | nil => rfl
  | cons a l ih => exact (ih (f s a)).trans (same s a)

@[simp] theorem forEach_lanes {f : Nat → State → State} (same : ∀ n s, (f n s).lanes = s.lanes) (l : List Nat) (s : State) :
    (forEach l f s).lanes = s.lanes :=
  foldl_lanes (fun s n => same n s) l s

@[simp] theorem modLink_lanes (n : Nat) (f : Link → Link) (s : State) : (modLink n f s).lanes = s.lanes := (rfl)

@[simp] theorem modPair_lanes (n i : Nat) (f : Pair → Pair) (s : State) : (modPair n i f s).lanes = s.lanes := (rfl)

@[simp] theorem pairCount_lanes (n i k a : Nat) (s : State) : (pairCount n i k a s).lanes = s.lanes := (rfl)

@[simp] theorem refreshStart_lanes (n i : Nat) (s : State) : (refreshStart n i s).lanes = s.lanes := (rfl)

@[simp] theorem refreshDeferred_lanes (s : State) : (refreshDeferred s).lanes = s.lanes := by
  simp [refreshDeferred]

@[simp] theorem ite_buf {c : Prop} [Decidable c] (a b : State) :
    (if c then a else b).buf = if c then a.buf else b.buf := apply_ite (fun s : State => s.buf) c a b

@[simp] theorem foldl_buf {α : Type} {f : State → α → State} (same : ∀ s a, (f s a).buf = s.buf) (l : List α) (s : State) :
    (l.foldl f s).buf = s.buf := by
  induction l generalizing s with
  | nil => rfl
  | cons a l ih => exact (ih (f s a)).trans (same s a)

@[simp] theorem forEach_buf {f : Nat → State → State} (same : ∀ n s, (f n s).buf = s.buf) (l : List Nat) (s : State) :
    (forEach l f s).buf = s.buf :=
  foldl_buf (fun s n => same n s) l s

@[simp] theorem modLink_buf (n : Nat) (f : Link → Link) (s : State) : (modLink n f s).buf = s.buf := (rfl)

@[simp] theorem modPair_buf (n i : Nat) (f : Pair → Pair) (s : State) : (modPair n i f s).buf = s.buf := (rfl)

@[simp] theorem pairCount_buf (n i k a : Nat) (s : State) : (pairCount n i k a s).buf = s.buf := (rfl)

@[simp] theorem refreshStart_buf (n i : Nat) (s : State) : (refreshStart n i s).buf = s.buf := (rfl)

@[simp] theorem refreshDeferred_buf (s : State) : (refreshDeferred s).buf = s.buf := by
  simp [refreshDeferred]

@[simp] theorem modLane_buf (n : Nat) (f : Lane → Lane) (s : State) : (modLane n f s).buf = s.buf := (rfl)

@[simp] theorem laneUpdate_buf (n : Nat) (m : LaneMeas) (s : State) : (laneUpdate n m s).buf = s.buf := (rfl)

@[simp] theorem pairAdapt_buf (n i : Nat) (m : PairMeas) (s : State) : (pairAdapt n i m s).buf = s.buf := (rfl)

@[simp] theorem reachedNow_buf (ms : List (Nat × LaneMeas)) (ps : List (Nat × PairMeas)) (s : State) : (reachedNow ms ps s).buf = s.buf := by
  simp [reachedNow]

@[simp] theorem deferCommits_buf (s : State) : (deferCommits s).buf = s.buf := by
  simp [deferCommits]

@[simp] theorem refreshStart_tbl (n i : Nat) (s : State) : (refreshStart n i s).tbl = s.tbl := (rfl)

@[simp] theorem refreshDeferred_tbl (s : State) : (refreshDeferred s).tbl = s.tbl := by
  simp [refreshDeferred]

@[simp] theorem modLane_tbl (n : Nat) (f : Lane → Lane) (s : State) : (modLane n f s).tbl = s.tbl := (rfl)

@[simp] theorem laneUpdate_tbl (n : Nat) (m : LaneMeas) (s : State) : (laneUpdate n m s).tbl = s.tbl := (rfl)

@[simp] theorem pairAdapt_tbl (n i : Nat) (m : PairMeas) (s : State) : (pairAdapt n i m s).tbl = s.tbl := (rfl)

@[simp] theorem reachedNow_tbl (ms : List (Nat × LaneMeas)) (ps : List (Nat × PairMeas)) (s : State) : (reachedNow ms ps s).tbl = s.tbl := by
  simp [reachedNow]

@[simp] theorem deferCommits_tbl (s : State) : (deferCommits s).tbl = s.tbl := by
  simp [deferCommits]

@[simp] theorem hifReset_tbl (s : State) : (hifReset s).tbl = s.tbl := (rfl)

@[simp] theorem pcieDown_tbl (s : State) : (pcieDown s).tbl = s.tbl := by
  simp [pcieDown]

@[simp] theorem ite_bed {c : Prop} [Decidable c] (a b : State) :
    (if c then a else b).bed = if c then a.bed else b.bed := apply_ite (fun s : State => s.bed) c a b

@[simp] theorem foldl_bed {α : Type} {f : State → α → State} (same : ∀ s a, (f s a).bed = s.bed) (l : List α) (s : State) :
    (l.foldl f s).bed = s.bed := by
  induction l generalizing s with
  | nil => rfl
  | cons a l ih => exact (ih (f s a)).trans (same s a)

@[simp] theorem forEach_bed {f : Nat → State → State} (same : ∀ n s, (f n s).bed = s.bed) (l : List Nat) (s : State) :
    (forEach l f s).bed = s.bed :=
  foldl_bed (fun s n => same n s) l s

@[simp] theorem modLink_bed (n : Nat) (f : Link → Link) (s : State) : (modLink n f s).bed = s.bed := (rfl)

@[simp] theorem modPair_bed (n i : Nat) (f : Pair → Pair) (s : State) : (modPair n i f s).bed = s.bed := (rfl)

@[simp] theorem pairCount_bed (n i k a : Nat) (s : State) : (pairCount n i k a s).bed = s.bed := (rfl)

@[simp] theorem refreshStart_bed (n i : Nat) (s : State) : (refreshStart n i s).bed = s.bed := (rfl)

@[simp] theorem refreshDeferred_bed (s : State) : (refreshDeferred s).bed = s.bed := by
  simp [refreshDeferred]

@[simp] theorem modLane_bed (n : Nat) (f : Lane → Lane) (s : State) : (modLane n f s).bed = s.bed := (rfl)

@[simp] theorem laneUpdate_bed (n : Nat) (m : LaneMeas) (s : State) : (laneUpdate n m s).bed = s.bed := (rfl)

@[simp] theorem pairAdapt_bed (n i : Nat) (m : PairMeas) (s : State) : (pairAdapt n i m s).bed = s.bed := (rfl)

@[simp] theorem reachedNow_bed (ms : List (Nat × LaneMeas)) (ps : List (Nat × PairMeas)) (s : State) : (reachedNow ms ps s).bed = s.bed := by
  simp [reachedNow]

@[simp] theorem deferCommits_bed (s : State) : (deferCommits s).bed = s.bed := by
  simp [deferCommits]

@[simp] theorem voltageFail_bed (s : State) : (voltageFail s).bed = s.bed := by
  simp [voltageFail]

@[simp] theorem hifReset_bed (s : State) : (hifReset s).bed = s.bed := (rfl)

@[simp] theorem pcieDown_bed (s : State) : (pcieDown s).bed = s.bed := by
  simp [pcieDown]

@[simp] theorem laneCauses_bed (s : State) : (laneCauses s).bed = s.bed := by
  simp [laneCauses]

@[simp] theorem squelchSynce_bed (n : Nat) (s : State) : (squelchSynce n s).bed = s.bed := (rfl)

@[simp] theorem modPort_bed (p : Nat) (f : Port → Port) (s : State) : (modPort p f s).bed = s.bed := by
  unfold modPort
  split <;> simp

@[simp] theorem portCount_bed (p k n : Nat) (s : State) : (portCount p k n s).bed = s.bed := by
  simp [portCount]

@[simp] theorem portDown_bed (p detail : Nat) (s : State) : (portDown p detail s).bed = s.bed := by
  simp [portDown]

@[simp] theorem portLaneLost_bed (n : Nat) (s : State) : (portLaneLost n s).bed = s.bed := by
  unfold portLaneLost
  (repeat' split) <;> simp

@[simp] theorem laneCold_bed (n : Nat) (s : State) : (laneCold n s).bed = s.bed := by
  simp [laneCold]

@[simp] theorem stopCal_bed (n : Nat) (s : State) : (stopCal n s).bed = s.bed := by
  unfold stopCal
  (repeat' split) <;> simp

@[simp] theorem cmdLaneDone_bed (op n : Nat) (s : State) : (cmdLaneDone op n s).bed = s.bed := by
  unfold cmdLaneDone
  refine forEach_bed (fun a s => ?_) _ _
  dsimp only
  (repeat' split) <;> simp

@[simp] theorem modCage_bed (c : Nat) (f : Cage → Cage) (s : State) : (modCage c f s).bed = s.bed := (rfl)

@[simp] theorem laneRampDown_bed (n : Nat) (stop : Bool) (s : State) : (laneRampDown n stop s).bed = s.bed := by
  simp [laneRampDown]
  split <;> simp

@[simp] theorem cageFault_bed (c cause : Nat) (s : State) : (cageFault c cause s).bed = s.bed := by
  simp [cageFault]

@[simp] theorem cageWriteApps_bed (c : Nat) (ps : List Nat) (s : State) : (cageWriteApps c ps s).bed = s.bed := by
  simp [cageWriteApps]
  split <;> simp

@[simp] theorem cageLowPower_bed (c : Nat) (s : State) : (cageLowPower c s).bed = s.bed := by
  simp [cageLowPower]
  split <;> simp

@[simp] theorem mediaSettle_bed (c : Nat) (s : State) : (mediaSettle c s).bed = s.bed := by
  unfold mediaSettle
  split <;> simp

@[simp] theorem laneGate_bed (n : Nat) (s : State) : (laneGate n s).bed = s.bed := (rfl)

@[simp] theorem cageTryPowerUp_bed (c : Nat) (s : State) : (cageTryPowerUp c s).bed = s.bed := by
  simp [cageTryPowerUp]

@[simp] theorem cageIdle_bed (c : Nat) (s : State) : (cageIdle c s).bed = s.bed := by
  simp [cageIdle]

@[simp] theorem portDeleteSettle_bed (p : Nat) (s : State) : (portDeleteSettle p s).bed = s.bed := by
  unfold portDeleteSettle
  split <;> simp

@[simp] theorem laneStop_bed (n : Nat) (s : State) : (laneStop n s).bed = s.bed := by
  simp [laneStop]
  split <;> simp

@[simp] theorem lanesStop_bed (l : List Nat) (s : State) : (lanesStop l s).bed = s.bed := by
  simp [lanesStop]

@[simp] theorem sleepBank_bed (n i : Nat) (s : State) : (sleepBank n i s).bed = s.bed := by
  simp [sleepBank]

@[simp] theorem linkCount_bed (n k a : Nat) (s : State) : (linkCount n k a s).bed = s.bed := (rfl)

@[simp] theorem traceLose_bed (s : State) : (traceLose s).bed = s.bed := (rfl)

@[simp] theorem traceWrite_bed (t : Option Trace) (cause : Nat) (s : State) : (traceWrite t cause s).bed = s.bed := by
  unfold traceWrite
  dsimp only
  (repeat' split) <;> simp

@[simp] theorem modQueue_bed (eg : Bool) (q : Nat) (f : Queue → Queue) (s : State) : (modQueue eg q f s).bed = s.bed := by
  unfold modQueue
  split <;> simp

@[simp] theorem markHead_bed (eg : Bool) (q : Nat) (s : State) : (markHead eg q s).bed = s.bed := by
  simp [markHead]

@[simp] theorem requestQueue_bed (eg : Bool) (q : Nat) (s : State) : (requestQueue eg q s).bed = s.bed := by
  unfold requestQueue
  split <;> simp

@[simp] theorem requestAll_bed (s : State) : (requestAll s).bed = s.bed := by
  simp [requestAll]

@[simp] theorem popHead_bed (eg : Bool) (q : Nat) (s : State) : (popHead eg q s).bed = s.bed := by
  simp [popHead]

@[simp] theorem txDone_bed (n : Nat) (s : State) : (txDone n s).bed = s.bed := by
  unfold txDone
  split <;> simp

@[simp] theorem protoEnd_bed (n reason : Nat) (s : State) : (protoEnd n reason s).bed = s.bed := by
  simp [protoEnd]

@[simp] theorem garnetCauses_bed (s : State) : (garnetCauses s).bed = s.bed := by
  simp [garnetCauses]

@[simp] theorem linkClear_bed (lost : Bool) (n reason : Nat) (s : State) : (linkClear lost n reason s).bed = s.bed := by
  simp [linkClear]

@[simp] theorem abortPairCmds_bed (n : Nat) (s : State) : (abortPairCmds n s).bed = s.bed := by
  simp [abortPairCmds]

@[simp] theorem linksStop_bed (reason : Nat) (s : State) : (linksStop reason s).bed = s.bed := by
  simp [linksStop]

@[simp] theorem cagesStop_bed (s : State) : (cagesStop s).bed = s.bed := by
  simp [cagesStop]

@[simp] theorem ite_ports {c : Prop} [Decidable c] (a b : State) :
    (if c then a else b).ports = if c then a.ports else b.ports := apply_ite (fun s : State => s.ports) c a b

@[simp] theorem foldl_ports {α : Type} {f : State → α → State} (same : ∀ s a, (f s a).ports = s.ports) (l : List α) (s : State) :
    (l.foldl f s).ports = s.ports := by
  induction l generalizing s with
  | nil => rfl
  | cons a l ih => exact (ih (f s a)).trans (same s a)

@[simp] theorem forEach_ports {f : Nat → State → State} (same : ∀ n s, (f n s).ports = s.ports) (l : List Nat) (s : State) :
    (forEach l f s).ports = s.ports :=
  foldl_ports (fun s n => same n s) l s

@[simp] theorem modLane_ports (n : Nat) (f : Lane → Lane) (s : State) : (modLane n f s).ports = s.ports := (rfl)

@[simp] theorem laneUpdate_ports (n : Nat) (m : LaneMeas) (s : State) : (laneUpdate n m s).ports = s.ports := (rfl)

@[simp] theorem modLink_ports (n : Nat) (f : Link → Link) (s : State) : (modLink n f s).ports = s.ports := (rfl)

@[simp] theorem modPair_ports (n i : Nat) (f : Pair → Pair) (s : State) : (modPair n i f s).ports = s.ports := (rfl)

@[simp] theorem pairAdapt_ports (n i : Nat) (m : PairMeas) (s : State) : (pairAdapt n i m s).ports = s.ports := (rfl)

@[simp] theorem reachedNow_ports (ms : List (Nat × LaneMeas)) (ps : List (Nat × PairMeas)) (s : State) : (reachedNow ms ps s).ports = s.ports := by
  simp [reachedNow]

@[simp] theorem deferCommits_ports (s : State) : (deferCommits s).ports = s.ports := by
  simp [deferCommits]

@[simp] theorem hifReset_ports (s : State) : (hifReset s).ports = s.ports := (rfl)

@[simp] theorem pcieDown_ports (s : State) : (pcieDown s).ports = s.ports := by
  simp [pcieDown]

@[simp] theorem ite_sched {c : Prop} [Decidable c] (a b : State) :
    (if c then a else b).sched = if c then a.sched else b.sched := apply_ite (fun s : State => s.sched) c a b

@[simp] theorem foldl_sched {α : Type} {f : State → α → State} (same : ∀ s a, (f s a).sched = s.sched) (l : List α) (s : State) :
    (l.foldl f s).sched = s.sched := by
  induction l generalizing s with
  | nil => rfl
  | cons a l ih => exact (ih (f s a)).trans (same s a)

@[simp] theorem forEach_sched {f : Nat → State → State} (same : ∀ n s, (f n s).sched = s.sched) (l : List Nat) (s : State) :
    (forEach l f s).sched = s.sched :=
  foldl_sched (fun s n => same n s) l s

@[simp] theorem modLane_sched (n : Nat) (f : Lane → Lane) (s : State) : (modLane n f s).sched = s.sched := (rfl)

@[simp] theorem laneUpdate_sched (n : Nat) (m : LaneMeas) (s : State) : (laneUpdate n m s).sched = s.sched := (rfl)

@[simp] theorem modLink_sched (n : Nat) (f : Link → Link) (s : State) : (modLink n f s).sched = s.sched := (rfl)

@[simp] theorem modPair_sched (n i : Nat) (f : Pair → Pair) (s : State) : (modPair n i f s).sched = s.sched := (rfl)

@[simp] theorem pairAdapt_sched (n i : Nat) (m : PairMeas) (s : State) : (pairAdapt n i m s).sched = s.sched := (rfl)

@[simp] theorem reachedNow_sched (ms : List (Nat × LaneMeas)) (ps : List (Nat × PairMeas)) (s : State) : (reachedNow ms ps s).sched = s.sched := by
  simp [reachedNow]

@[simp] theorem deferCommits_sched (s : State) : (deferCommits s).sched = s.sched := by
  simp [deferCommits]

@[simp] theorem clkreqOn_lanes (s : State) : (clkreqOn s).lanes = s.lanes := by
  simp [clkreqOn]

@[simp] theorem spareRowsIn_lanes (s : State) : (spareRowsIn s).lanes = s.lanes := (rfl)

@[simp] theorem startDevice_lanes (s : State) : (startDevice s).lanes = s.lanes := (rfl)

@[simp] theorem tryStart_lanes (s : State) : (tryStart s).lanes = s.lanes := by
  simp [tryStart]

@[simp] theorem clkreqOn_tbl (s : State) : (clkreqOn s).tbl = s.tbl := by
  simp [clkreqOn]

@[simp] theorem spareRowsIn_tbl (s : State) : (spareRowsIn s).tbl = s.tbl := (rfl)

@[simp] theorem startDevice_tbl (s : State) : (startDevice s).tbl = s.tbl := (rfl)

@[simp] theorem tryStart_tbl (s : State) : (tryStart s).tbl = s.tbl := by
  simp [tryStart]

theorem elog_of_vital {s t : State} (h : vital t = vital s) : t.elog = s.elog := congrArg Vital.elog h

/-- What a core reset leaves: the cleared device, one entry, and the restart awaited. -/
theorem coreReset_does (code subject detail : Nat) (s : State) :
    OuterCleared (logErr code subject detail s) (outerReset (logErr code subject detail s)) ∧
      (coreReset code subject detail s).bed.coreReset = true ∧ (coreReset code subject detail s).bed.railOk = s.bed.railOk ∧
      (coreReset code subject detail s).bed.refOk = s.bed.refOk ∧ (coreReset code subject detail s).elog = (logErr code subject detail s).elog := by
  have h := outerReset_cleared (logErr code subject detail s)
  refine ⟨h, rfl, ?_, ?_, h.elog⟩
  · simp only [coreReset, State.mapBed_bed, h.bed]
    rfl
  · simp only [coreReset, State.mapBed_bed, h.bed]
    rfl

theorem boPoint_of_settled {s : State} (pending : s.bed.avsPending = false) (acked : s.bed.avsAckAt = none) : boPoint s = s.bed.avsSet := by
  simp [boPoint, pending, acked]

/-- Settles O7: the warning and the recovery touch lanes and links alone, and the reset is a core reset. -/
theorem brownoutRows : Obligations.BrownoutRows := by
  unfold Obligations.BrownoutRows
  refine ⟨fun uv s watched calm free acked low ms ps => ?_, fun uv core s active high => ?_, fun uv s watched up calm free acked low => ?_,
    fun s pending => ?_⟩
  · have above : ¬ 960 * s.bed.avsSet ≤ uv := by omega
    refine ⟨_, rfl, ?_⟩
    simp [watched, boPoint_of_settled free acked, above, calm]
  · have above : ¬ core ≤ 970 * boPoint s := by omega
    refine ⟨_, rfl, ?_⟩
    simp [active, above]
  · have above : ¬ 920 * s.bed.avsSet ≤ uv := by omega
    have runs : exec (.brownoutReset uv) s = .next (coreReset 0x0001 0 (mv5 uv) s) := by
      simp [exec, execBrownoutReset, watched, up, boPoint_of_settled free acked, above, calm]
    obtain ⟨cleared, reset, -, -, log⟩ := coreReset_does 0x0001 0 (mv5 uv) s
    obtain ⟨total, code, -, detail⟩ := logErr_adds 0x0001 0 (mv5 uv) s
    exact ⟨_, runs, reset, cleared.boot, cleared.lanes, cleared.tbl, cleared.fl, log ▸ total, log ▸ code, log ▸ detail⟩
  · simp [boPoint, pending]

theorem railUp_congr {s t : State} (h : t.bed.railOk = s.bed.railOk) (r : Nat) : railUp t r = railUp s r := by simp [railUp, h]

theorem groupBUp_railOn {r : Nat} {s : State} (small : r < 5) (h : ∀ q, q < 5 → q ≠ r → railUp s q = true) : groupBUp (railOn r s) = true := by
  refine groupBUp_of fun q below => ?_
  rw [railUp_railOn s (by omega)]
  by_cases e : q = r
  · simp [e]
  · simp [h q below e]

@[simp] theorem railStop_railOk {r : Nat} (s : State) : (railStop r s).bed.railOk = s.bed.railOk := by
  unfold railStop
  split <;> simp

/-- The power-up settings of every output, applied in turn. -/
theorem dacApply_fold (l : List Nat) (s : State) :
    let t := forEach l (fun m s => modDac m (fun _ => Dac.init.take (dacOtp s m).1 (dacOtp s m).2) s) s
    t.otp = s.otp ∧ t.bed = s.bed ∧ (∀ m, dacOut t m = if m ∈ l then Dac.init.take (dacOtp s m).1 (dacOtp s m).2 else dacOut s m) := by
  induction l generalizing s with
  | nil => exact ⟨rfl, rfl, fun m => by simp [forEach]⟩
  | cons a l ih =>
    obtain ⟨otp, bed, outs⟩ := ih (modDac a (fun _ => Dac.init.take (dacOtp s a).1 (dacOtp s a).2) s)
    refine ⟨otp, bed, fun m => (outs m).trans ?_⟩
    have same : dacOtp (modDac a (fun _ => Dac.init.take (dacOtp s a).1 (dacOtp s a).2) s) m = dacOtp s m := rfl
    rw [same]
    by_cases e : m = a
    · subst e
      simp [dacOut, modDac, mget_mmod_same]
    · by_cases i : m ∈ l <;> simp [i, e, dacOut, modDac, mmod, mget_mput_other]

/-- VDDIO_AUX valid applies the power-up settings. -/
theorem auxValidNow_does {s : State} (rail : railUp s 9 = true) (up : s.bed.bedrockUp = true) (unset : s.bed.auxValid = false)
    (cool : s.bed.tripped = false) :
    (auxValidNow s).bed = { s.bed with auxValid := true } ∧
      ∀ m, m < 16 → (dacOut (auxValidNow s) m).code = BitVec.ofNat 12 (dacOtp s m).1 ∧ (dacOut (auxValidNow s) m).mode = (dacOtp s m).2 := by
  have now : auxValidNow s = dacApplyOtp (s.mapBed fun b => { b with auxValid := true }) := by simp [auxValidNow, rail, up, unset, cool]
  obtain ⟨-, bed, outs⟩ := dacApply_fold (List.range 16) ((s.mapBed fun b => { b with auxValid := true }).mapDac fun _ => DacBank.init)
  rw [now]
  refine ⟨bed, fun m small => ?_⟩
  have out := outs m
  rw [if_pos (List.mem_range.2 small)] at out
  unfold dacApplyOtp
  rw [out]
  exact ⟨rfl, rfl⟩

/-- Settles O8: losses reset the core or stop what the rail feeds, and returns start it. -/
theorem railRows : Obligations.RailRows := by
  unfold Obligations.RailRows
  refine ⟨fun r s small up running cool reset awake settled => ?_, fun r s small up running cool reset retained => ?_,
    fun r s small others mgmt pin bedrock cool reset clocks awake idle => ?_, fun s reset rails clocks pin bedrock cool awake idle => ?_,
    fun s up running bedrock cool awake settled => ?_, fun r s low high up running => ?_, fun s down bedrock unset cool => ?_,
    fun s up bedrock unset cool => ?_⟩
  · have runs : exec (.groupBRailLoss r) s = .next (coreReset 0x0002 r 0 (railOff r s)) := by
      have notHigh : ¬ 4 < r := by omega
      simp [exec, execGroupBRailLoss, up, notHigh, railOff, running, cool, reset, awake, settled]
    obtain ⟨cleared, core, rails, -, log⟩ := coreReset_does 0x0002 r 0 (railOff r s)
    obtain ⟨total, code, subject, -⟩ := logErr_adds 0x0002 r 0 (railOff r s)
    refine ⟨_, runs, ?_, core, cleared.boot, cleared.lanes, cleared.tbl, cleared.fl, log ▸ total, log ▸ code, log ▸ subject⟩
    rw [railUp_congr rails, railUp_railOff]
    simp
  · have runs : exec (.groupBRailLoss r) s = .next (retainLoss r (railOff r s)) := by
      have notHigh : ¬ 4 < r := by omega
      simp [exec, execGroupBRailLoss, up, notHigh, railOff, running, cool, reset, retained]
    refine ⟨_, runs, ?_, retained, rfl, rfl, ?_⟩
    · show railUp (railOff r s) r = false
      rw [railUp_railOff]
      simp
    · simp [retainLoss, railOff, Bool.or_assoc, Bool.decide_or]
  · have runs : exec (.groupBRailReturn r) s = .next (tryStart (railOn r s)) := by
      have notHigh : ¬ 4 < r := by omega
      simp [exec, execGroupBRailReturn, notHigh]
    have mgmt' : railUp (railOn r s) 11 = true := by
      rw [railUp_railOn s (by omega), mgmt, Bool.true_or]
    obtain ⟨started, -, -, -, rails, -⟩ := tryStart_does (s := railOn r s)
      ⟨bedrock, perstAsserted_of pin mgmt', groupBUp_railOn small others, cool, reset, by simp [railOn, clocks], awake, idle⟩
    refine ⟨_, runs, ?_, started⟩
    rw [railUp_congr rails, railUp_railOn s (by omega)]
    simp
  · have up : groupBUp s = true := groupBUp_of fun r h => rails r (by omega)
    have runs : exec .coreResetRestart s = .next (tryStart (s.mapBed fun b => { b with coreReset := false })) := by
      simp [exec, execCoreResetRestart, coreRestart, reset, up, clocks]
    obtain ⟨started, -, -, -, -, -, core⟩ := tryStart_does (s := s.mapBed fun b => { b with coreReset := false })
      ⟨bedrock, perstAsserted_of pin (rails 11 (by omega)), up, cool, rfl, by simp [clocks], awake, idle⟩
    exact ⟨_, runs, core, started⟩
  · have runs : exec (.groupCRailLoss 9) s = .next (post 0x9003 2 4 0 (logErr 0x0002 9 0 (railStop 9 (railOff 9 s)))) := by
      simp [exec, execGroupCRailLoss, railStop, up, railOff, running, bedrock, cool, awake, settled]
    obtain ⟨total, code, subject, -⟩ := logErr_adds 0x0002 9 0 (railStop 9 (railOff 9 s))
    have log := (post_keeps 0x9003 2 4 0 (logErr 0x0002 9 0 (railStop 9 (railOff 9 s)))).elog
    refine ⟨_, runs, ?_, ?_, ?_, ?_, ?_, ?_, ?_⟩
    · rw [railUp_congr (by simp : _ = (railOff 9 s).bed.railOk), railUp_railOff]
      simp
    · simp [railStop, logErr]
    · simp [railStop]
    · simp [railStop, logErr]
    · rw [log]
      exact total
    · rw [log]
      exact code
    · rw [log]
      exact subject
  · have off : railUp (railOff r s) r = false := by
      rw [railUp_railOff]
      simp
    have inside : ¬ (r < 5 ∨ 9 < r) := by omega
    refine ⟨_, rfl, ?_⟩
    dsimp only
    rw [if_neg (by simp [up]; omega)]
    split
    · exact off
    · split
      · rw [railUp_congr (railStop_railOk _)]
        exact off
      · rw [railUp_congr (by simp : _ = (railOff r s).bed.railOk)]
        exact off
  · have runs : exec (.groupCRailReturn 9) s = .next (auxValidNow (railOn 9 s)) := by
      simp [exec, execGroupCRailReturn, railStart, down]
    obtain ⟨bed, outs⟩ := auxValidNow_does (s := railOn 9 s) (by rw [railUp_railOn s (by omega)]; simp) bedrock unset cool
    refine ⟨_, runs, ?_, by rw [bed], outs⟩
    rw [railUp, bed]
    exact (railUp_railOn s (by omega)).trans (by simp)
  · obtain ⟨bed, outs⟩ := auxValidNow_does up bedrock unset cool
    exact ⟨_, rfl, by rw [bed], outs⟩

/-- A PCIe link that goes down resets the host interface alone. -/
theorem pcieDown_does (s : State) :
    (pcieDown s).hif = Hif.init ∧ (pcieDown s).hreg.hifEnable = false ∧ (pcieDown s).boot.pcieTrain = s.boot.pcieTrain ∧ (pcieDown s).ports = s.ports ∧
      (pcieDown s).tbl = s.tbl ∧ (pcieDown s).bed = s.bed ∧ (pcieDown s).elog = s.elog := by
  simp [pcieDown, hifReset]

theorem hbmRestart_elog (m : Nat) (s : State) : (hbmRestart m s).elog = s.elog := elog_of_vital (vital_hbmRestart m s)

theorem getLsbD_and_not_refBit {x : BitVec 3} {k : Nat} (small : k < 3) : (x &&& ~~~ refBit k).getLsbD k = false := by
  simp [refBit, getLsbD_ofNat_bit, small]

/-- What the restart of a PLL's block clears: 37 to 44. -/
theorem pllRestart_does {p : Nat} (low : 37 ≤ p) (high : p ≤ 44) (s : State) :
    (p = 43 → (pllRestart p s).tim.running = false) ∧ (p = 44 → (pllRestart p s).hif = Hif.init ∧ (pllRestart p s).hreg.hifEnable = false) ∧
      (p < 39 → (pllRestart p s).lanes = LaneBank.init ∧ (pllRestart p s).tbl = Tables.init) ∧ (pllRestart p s).elog = s.elog := by
  have notLow : ¬ p < 32 ∧ ¬ p < 36 ∧ p ≠ 36 := by omega
  simp only [pllRestart, notLow, if_false]
  by_cases core : p < 39
  · have cleared := outerReset_cleared s
    simp only [if_pos core]
    exact ⟨by omega, by omega, fun _ => ⟨(tryStart_lanes _).trans cleared.lanes, (tryStart_tbl _).trans cleared.tbl⟩,
      (elog_of_vital (vital_tryStart _)).trans cleared.elog⟩
  · simp only [if_neg core]
    by_cases hbm : p < 43
    · simp only [if_pos hbm]
      exact ⟨by omega, by omega, fun h => absurd h core, hbmRestart_elog _ _⟩
    · simp only [if_neg hbm]
      by_cases time : p = 43
      · simp only [if_pos time]
        exact ⟨fun _ => rfl, by omega, fun h => absurd h core, rfl⟩
      · simp only [if_neg time]
        obtain ⟨hif, enable, -, -, -, -, log⟩ := pcieDown_does s
        exact ⟨fun h => absurd h time, fun _ => ⟨hif, enable⟩, fun h => absurd h core, log⟩

/-- Settles O9: a lost reference or PLL resets its block under one entry, and the trip clears the device. -/
theorem clockAndTripRows : Obligations.ClockAndTripRows := by
  unfold Obligations.ClockAndTripRows
  refine ⟨fun s ref running cool reset awake settled => ?_, fun s ref running cool awake settled => ?_, fun s lost started => ?_,
    fun p s low high locked => ?_, fun k x s small hot por up cool good => ?_⟩
  · have runs : exec (.refclkLost 0) s = .next (coreReset 0x0003 0 0 (s.mapBed fun b => { b with refOk := b.refOk &&& ~~~ refBit 0 })) := by
      simp [exec, execRefclkLost, ref, running, cool, reset, awake, settled]
    obtain ⟨cleared, core, -, refs, log⟩ := coreReset_does 0x0003 0 0 (s.mapBed fun b => { b with refOk := b.refOk &&& ~~~ refBit 0 })
    obtain ⟨total, code, -, -⟩ := logErr_adds 0x0003 0 0 (s.mapBed fun b => { b with refOk := b.refOk &&& ~~~ refBit 0 })
    refine ⟨_, runs, ?_, core, cleared.boot, cleared.lanes, cleared.tbl, log ▸ total, log ▸ code⟩
    rw [refs]
    exact getLsbD_and_not_refBit (by omega)
  · have runs : exec (.refclkLost 2) s = .next (pcieDown ((logErr 0x0003 2 0 (s.mapBed fun b =>
        { b with refOk := b.refOk &&& ~~~ refBit 2 })).mapBoot fun b => { b with pcieTrain := false })) := by
      simp [exec, execRefclkLost, ref, running, cool, awake, settled]
    obtain ⟨hif, enable, train, ports, tbl, bed, log⟩ := pcieDown_does ((logErr 0x0003 2 0 (s.mapBed fun b =>
        { b with refOk := b.refOk &&& ~~~ refBit 2 })).mapBoot fun b => { b with pcieTrain := false })
    refine ⟨_, runs, ?_, train, hif, enable, ports, tbl, by rw [log]; rfl⟩
    rw [bed]
    exact getLsbD_and_not_refBit (by omega)
  · have runs : exec (.refclkReturn 2) s = .next ((s.mapBed fun b => { b with refOk := b.refOk ||| refBit 2 }).mapBoot fun b =>
        { b with pcieTrain := b.started }) := by
      have lost' : s.bed.refOk[2] = false := lost
      simp [exec, execRefclkReturn, lost']
    exact ⟨_, runs, by simp [refBit], started⟩
  · have inside : ¬ 44 < p := by omega
    have runs : exec (.pllUnlock p) s = .next (pllRestart p (logErr 0x0005 p 0 s)) := by
      simp [exec, execPllUnlock, inside, locked]
    obtain ⟨time, pcie, core, log⟩ := pllRestart_does low high (logErr 0x0005 p 0 s)
    obtain ⟨total, code, subject, -⟩ := logErr_adds 0x0005 p 0 s
    exact ⟨_, runs, time, pcie, core, log ▸ total, log ▸ code, log ▸ subject⟩
  · have bounds : ¬ 39 < k ∧ ¬ x < 2000 := by omega
    obtain ⟨total, code, subject, -⟩ := logErr_adds 0x0006 k (unsigned 32 x) s
    have runs : exec (.thermtrip k x) s = .next (otpDetach (((coreClear ((logErr 0x0006 k (unsigned 32 x) s).mapBed fun b =>
        { b with tripped := true, cageHeld := false, boActive := false, auxValid := false })).mapDac fun _ => DacBank.init).mapRetn fun _ => Retain.init)) := by
      simp only [List.contains_eq_mem, decide_eq_false_iff_not] at good
      simp [exec, execThermtrip, por, up, cool, bounds, good]
    exact ⟨_, runs, rfl, rfl, rfl, rfl, rfl, rfl, rfl, rfl, total, code, subject⟩

theorem voltageFail_post_elog (code sev obj detail : Nat) (s : State) : (voltageFail (post code sev obj detail s)).elog = s.elog :=
  elog_of_vital ((vital_voltageFail _).trans (vital_post _ _ _ _ _))

/-- Settles O10: each row of a series under its condition. -/
theorem avsRequestSeries : Obligations.AvsRequestSeries := by
  unfold Obligations.AvsRequestSeries
  refine ⟨fun mv s free none five near => ?_, fun s pending up => ?_, fun s pending few => ?_, fun s pending last => ?_,
    fun mv s again ready free calm => ?_⟩
  · have runs : exec (.avsRequest mv) s = .next (avsIssue mv s) := congrArg Host.Outcome.next (if_pos ⟨free, none, five, near⟩)
    exact ⟨_, runs, rfl, rfl, rfl, rfl, rfl⟩
  · refine ⟨_, rfl, ?_⟩
    simp [pending, up]
  · simp [exec, execAvsTimeout, pending, few]
  · have runs : exec .avsTimeout s = .next (voltageFail (post 0x9001 1 s.bed.avsSet s.bed.avsReq (logErr 0x000D 0 (65536 * s.bed.avsReq + s.bed.avsSet)
        (s.mapBed fun b => { b with avsPending := false, avsFails := 0, avsReq := s.bed.avsSet, avsRetry := some s.bed.avsReq })))) := by
      simp [exec, execAvsTimeout, pending, last]
    obtain ⟨total, code, -, detail⟩ := logErr_adds 0x000D 0 (65536 * s.bed.avsReq + s.bed.avsSet)
      (s.mapBed fun b => { b with avsPending := false, avsFails := 0, avsReq := s.bed.avsSet, avsRetry := some s.bed.avsReq })
    refine ⟨_, runs, by simp, by simp, by simp, by simp, ?_, ?_, ?_⟩ <;> rw [voltageFail_post_elog]
    · exact total
    · exact code
    · exact detail
  · have runs : exec .avsRetry s = .next (avsIssue mv s) := by
      simp [exec, execAvsRetry, again, ready, free, calm]
    exact ⟨_, runs, rfl, rfl, rfl, rfl⟩

end Sys2Proof.Machine
end

section
/-! PROOFS. Reads, ranges and the wake command on the management port. -/
namespace Sys2Proof.Machine

@[simp] theorem ite_mgmt {c : Prop} [Decidable c] (a b : State) :
    (if c then a else b).mgmt = if c then a.mgmt else b.mgmt := apply_ite (fun s : State => s.mgmt) c a b

@[simp] theorem foldl_mgmt {α : Type} {f : State → α → State} (same : ∀ s a, (f s a).mgmt = s.mgmt) (l : List α) (s : State) :
    (l.foldl f s).mgmt = s.mgmt := by
  induction l generalizing s with
  | nil => rfl
  | cons a l ih => exact (ih (f s a)).trans (same s a)

@[simp] theorem forEach_mgmt {f : Nat → State → State} (same : ∀ n s, (f n s).mgmt = s.mgmt) (l : List Nat) (s : State) :
    (forEach l f s).mgmt = s.mgmt :=
  foldl_mgmt (fun s n => same n s) l s

@[simp] theorem readSensor_mgmt (k : Nat) (reading : Option Int) (s : State) : (readSensor k reading s).mgmt = s.mgmt := by
  unfold readSensor
  split <;> simp

@[simp] theorem takeTemps_mgmt (temps : List (Nat × Option Int)) (s : State) : (takeTemps temps s).mgmt = s.mgmt := by
  simp [takeTemps]

@[simp] theorem modDac_mgmt (m : Nat) (f : Dac → Dac) (s : State) : (modDac m f s).mgmt = s.mgmt := (rfl)

@[simp] theorem dacCool_mgmt (cool : List Nat) (s : State) : (dacCool cool s).mgmt = s.mgmt := by
  simp [dacCool]

@[simp] theorem clkreqOn_mgmt (s : State) : (clkreqOn s).mgmt = s.mgmt := by
  simp [clkreqOn]

@[simp] theorem spareRowsIn_mgmt (s : State) : (spareRowsIn s).mgmt = s.mgmt := (rfl)

@[simp] theorem startDevice_mgmt (s : State) : (startDevice s).mgmt = s.mgmt := (rfl)

@[simp] theorem tryStart_mgmt (s : State) : (tryStart s).mgmt = s.mgmt := by
  simp [tryStart]

@[simp] theorem ite_elog {c : Prop} [Decidable c] (a b : State) :
    (if c then a else b).elog = if c then a.elog else b.elog := apply_ite (fun s : State => s.elog) c a b

@[simp] theorem foldl_elog {α : Type} {f : State → α → State} (same : ∀ s a, (f s a).elog = s.elog) (l : List α) (s : State) :
    (l.foldl f s).elog = s.elog := by
  induction l generalizing s with
  | nil => rfl
  | cons a l ih => exact (ih (f s a)).trans (same s a)

@[simp] theorem forEach_elog {f : Nat → State → State} (same : ∀ n s, (f n s).elog = s.elog) (l : List Nat) (s : State) :
    (forEach l f s).elog = s.elog :=
  foldl_elog (fun s n => same n s) l s

@[simp] theorem readSensor_elog (k : Nat) (reading : Option Int) (s : State) : (readSensor k reading s).elog = s.elog := by
  unfold readSensor
  split <;> simp

@[simp] theorem takeTemps_elog (temps : List (Nat × Option Int)) (s : State) : (takeTemps temps s).elog = s.elog := by
  simp [takeTemps]

@[simp] theorem modDac_elog (m : Nat) (f : Dac → Dac) (s : State) : (modDac m f s).elog = s.elog := (rfl)

@[simp] theorem dacCool_elog (cool : List Nat) (s : State) : (dacCool cool s).elog = s.elog := by
  simp [dacCool]

@[simp] theorem readSensor_otp (k : Nat) (reading : Option Int) (s : State) : (readSensor k reading s).otp = s.otp := by
  unfold readSensor
  split <;> simp

@[simp] theorem takeTemps_otp (temps : List (Nat × Option Int)) (s : State) : (takeTemps temps s).otp = s.otp := by
  simp [takeTemps]

@[simp] theorem ite_guard {c : Prop} [Decidable c] (a b : State) :
    (if c then a else b).guard = if c then a.guard else b.guard := apply_ite (fun s : State => s.guard) c a b

@[simp] theorem foldl_guard {α : Type} {f : State → α → State} (same : ∀ s a, (f s a).guard = s.guard) (l : List α) (s : State) :
    (l.foldl f s).guard = s.guard := by
  induction l generalizing s with
  | nil => rfl
  | cons a l ih => exact (ih (f s a)).trans (same s a)

@[simp] theorem forEach_guard {f : Nat → State → State} (same : ∀ n s, (f n s).guard = s.guard) (l : List Nat) (s : State) :
    (forEach l f s).guard = s.guard :=
  foldl_guard (fun s n => same n s) l s

@[simp] theorem readSensor_guard (k : Nat) (reading : Option Int) (s : State) : (readSensor k reading s).guard = s.guard := by
  unfold readSensor
  split <;> simp

@[simp] theorem takeTemps_guard (temps : List (Nat × Option Int)) (s : State) : (takeTemps temps s).guard = s.guard := by
  simp [takeTemps]

@[simp] theorem modDac_guard (m : Nat) (f : Dac → Dac) (s : State) : (modDac m f s).guard = s.guard := (rfl)

@[simp] theorem dacCool_guard (cool : List Nat) (s : State) : (dacCool cool s).guard = s.guard := by
  simp [dacCool]

@[simp] theorem clkreqOn_guard (s : State) : (clkreqOn s).guard = s.guard := by
  simp [clkreqOn]

@[simp] theorem spareRowsIn_guard (s : State) : (spareRowsIn s).guard = s.guard := (rfl)

@[simp] theorem startDevice_guard (s : State) : (startDevice s).guard = s.guard := (rfl)

@[simp] theorem tryStart_guard (s : State) : (tryStart s).guard = s.guard := by
  simp [tryStart]

@[simp] theorem ite_obs {c : Prop} [Decidable c] (a b : State) :
    (if c then a else b).obs = if c then a.obs else b.obs := apply_ite (fun s : State => s.obs) c a b

@[simp] theorem foldl_obs {α : Type} {f : State → α → State} (same : ∀ s a, (f s a).obs = s.obs) (l : List α) (s : State) :
    (l.foldl f s).obs = s.obs := by
  induction l generalizing s with
  | nil => rfl
  | cons a l ih => exact (ih (f s a)).trans (same s a)

@[simp] theorem forEach_obs {f : Nat → State → State} (same : ∀ n s, (f n s).obs = s.obs) (l : List Nat) (s : State) :
    (forEach l f s).obs = s.obs :=
  foldl_obs (fun s n => same n s) l s

@[simp] theorem modDac_obs (m : Nat) (f : Dac → Dac) (s : State) : (modDac m f s).obs = s.obs := (rfl)

@[simp] theorem dacCool_obs (cool : List Nat) (s : State) : (dacCool cool s).obs = s.obs := by
  simp [dacCool]

@[simp] theorem ite_adc {c : Prop} [Decidable c] (a b : State) :
    (if c then a else b).adc = if c then a.adc else b.adc := apply_ite (fun s : State => s.adc) c a b

@[simp] theorem foldl_adc {α : Type} {f : State → α → State} (same : ∀ s a, (f s a).adc = s.adc) (l : List α) (s : State) :
    (l.foldl f s).adc = s.adc := by
  induction l generalizing s with
  | nil => rfl
  | cons a l ih => exact (ih (f s a)).trans (same s a)

@[simp] theorem forEach_adc {f : Nat → State → State} (same : ∀ n s, (f n s).adc = s.adc) (l : List Nat) (s : State) :
    (forEach l f s).adc = s.adc :=
  foldl_adc (fun s n => same n s) l s

@[simp] theorem modDac_adc (m : Nat) (f : Dac → Dac) (s : State) : (modDac m f s).adc = s.adc := (rfl)

@[simp] theorem dacCool_adc (cool : List Nat) (s : State) : (dacCool cool s).adc = s.adc := by
  simp [dacCool]

@[simp] theorem ite_retn_inRetain {c : Prop} [Decidable c] (a b : State) :
    (if c then a else b).retn.inRetain = if c then a.retn.inRetain else b.retn.inRetain := apply_ite (fun s : State => s.retn.inRetain) c a b

@[simp] theorem foldl_retn_inRetain {α : Type} {f : State → α → State} (same : ∀ s a, (f s a).retn.inRetain = s.retn.inRetain) (l : List α) (s : State) :
    (l.foldl f s).retn.inRetain = s.retn.inRetain := by
  induction l generalizing s with
  | nil => rfl
  | cons a l ih => exact (ih (f s a)).trans (same s a)

@[simp] theorem forEach_retn_inRetain {f : Nat → State → State} (same : ∀ n s, (f n s).retn.inRetain = s.retn.inRetain) (l : List Nat) (s : State) :
    (forEach l f s).retn.inRetain = s.retn.inRetain :=
  foldl_retn_inRetain (fun s n => same n s) l s

@[simp] theorem clkreqOn_retn_inRetain (s : State) : (clkreqOn s).retn.inRetain = s.retn.inRetain := by
  simp [clkreqOn]

@[simp] theorem spareRowsIn_retn_inRetain (s : State) : (spareRowsIn s).retn.inRetain = s.retn.inRetain := (rfl)

@[simp] theorem startDevice_retn_inRetain (s : State) : (startDevice s).retn.inRetain = s.retn.inRetain := (rfl)

@[simp] theorem tryStart_retn_inRetain (s : State) : (tryStart s).retn.inRetain = s.retn.inRetain := by
  simp [tryStart]
  split <;> simp

/-- What a port that does not answer leaves. -/
theorem portLive_false {s : State} (h : portLive s = false) : ¬ portLive s = true := by simp [h]

theorem length_zeros (n : Nat) : (zeros n).length = n := List.length_replicate

theorem length_leBytes (k n : Nat) : (leBytes k n).length = k := by
  induction k generalizing n with
  | zero => rfl
  | succ k ih => simp [leBytes, ih]

theorem length_pendingBytes (s : State) (item : Nat) : (pendingBytes s item).length = 12 := by
  unfold pendingBytes
  split <;> simp [length_zeros, length_leBytes]

/-- A slice of a row of chunks of one length is a chunk. -/
theorem slice_flatMap {α : Type} {f : α → List Byte} {n : Nat} (len : ∀ a, (f a).length = n) (l : List α) {i : Nat} (h : i < l.length) :
    slice (l.flatMap f) (n * i) n = f l[i] := by
  induction l generalizing i with
  | nil => simp at h
  | cons a l ih =>
    cases i with
    | zero => simp [slice, ← len a]
    | succ i =>
      have inside : i < l.length := by simpa using h
      have skip : slice ((a :: l).flatMap f) (n * (i + 1)) n = slice (l.flatMap f) (n * i) n := by
        simp only [slice, List.flatMap_cons]
        rw [List.drop_append, List.drop_of_length_le (by rw [len, Nat.mul_succ]; omega), List.nil_append, len, Nat.mul_succ, Nat.add_sub_cancel]
      rw [skip, ih inside]
      rfl

theorem pending_slice (s : State) {item : Nat} (low : 1 ≤ item) (high : item ≤ 6) :
    slice ((List.range' 1 6).flatMap (pendingBytes s)) (12 * (item - 1)) 12 = pendingBytes s item := by
  rw [slice_flatMap (length_pendingBytes s) _ (by simp; omega), List.getElem_range']
  congr 1
  omega

theorem slice_take (l : List Byte) (a : Nat) {m n : Nat} (h : m ≤ n) : slice l a m = (slice l a n).take m := by
  simp [slice, List.take_take, h]

@[simp] theorem answer_bed (sent : List Byte) (block : Bool) (l : List Byte) (s : State) : (answer sent block l s).bed = s.bed := rfl

theorem tempBlock_congr {s t : State} (h : t.bed = s.bed) : tempBlock t = tempBlock s := by simp [tempBlock, sensor, h]

theorem auxBlock_congr {s t : State} (dac : t.dac = s.dac) (adc : t.adc = s.adc) (obs : t.obs = s.obs) : auxBlock t = auxBlock s := by
  simp [auxBlock, dacOut, dac, adc, obs]

/-- Bit 0 of a byte is not in its upper seven. -/
theorem or_low_shift (x y : Byte) : (x ||| (y &&& 1)) >>> 1 = x >>> 1 := by
  ext i
  simp [BitVec.getLsbD_one]

/-- Settles O11: a port that answers answers, and one that does not is a NACK. -/
theorem mgmtReadTransactions : Obligations.MgmtReadTransactions := by
  unfold Obligations.MgmtReadTransactions
  refine ⟨fun s live => ?_, fun s live => ?_, fun s live => ?_, fun s live => ?_, fun s live => ?_, fun index s live small => ?_,
    fun temps s live => ?_, fun cool s live => ?_, fun s live asserted => ?_, fun s => rfl, fun i s dead read => ?_, fun index s large => ?_⟩
  · simp [exec, execMgmtStatusRead, live]
  · simp [exec, execMgmtIdentity, mgmtRead, live, identityBytes, leBytes]
  · simp [exec, execMgmtHealth, mgmtRead, live]
  · have runs : exec .mgmtGuardPending s = .next (answer [0x10] true ((List.range' 1 6).flatMap (pendingBytes s)) s) := by
      simp [exec, execMgmtGuardPending, mgmtRead, live]
    refine ⟨_, runs, rfl, ?_, rfl, rfl, fun item low high none => ?_, fun item p low high some => ?_⟩
    · simp [answer, length_pendingBytes]
    · exact (pending_slice s low high).trans (by simp [pendingBytes, none])
    · refine (slice_take _ _ (by omega : 8 ≤ 12)).trans ?_
      rw [show (answer [0x10] true ((List.range' 1 6).flatMap (pendingBytes s)) s).mgmt.reply = (List.range' 1 6).flatMap (pendingBytes s) from rfl,
        pending_slice s low high]
      simp [pendingBytes, some, List.take_append, length_leBytes]
  · simp [exec, execMgmtGuardResult, live]
  · have inside : ¬ 255 < index := by omega
    simp [exec, execMgmtErrorLog, live, inside, logSlot]
  · have runs : exec (.mgmtTemp temps) s = .next (answer [0x03] true (tempBlock (takeTemps temps s)) (takeTemps temps s)) := by
      simp [exec, execMgmtTemp, live]
    exact ⟨_, runs, rfl, tempBlock_congr rfl, (congrArg Mgmt.alert (takeTemps_mgmt temps s) :), takeTemps_elog temps s, takeTemps_otp temps s,
      takeTemps_guard temps s⟩
  · have runs : exec (.mgmtAux cool) s = .next (answer [0x50] true ((auxBlock (dacCool cool s)).take 64) (dacCool cool s)) := by
      simp [exec, execMgmtAux, live]
    exact ⟨_, runs, rfl, congrArg (List.take 64) (auxBlock_congr rfl rfl rfl), (congrArg Mgmt.alert (dacCool_mgmt cool s) :), dacCool_elog cool s,
      dacCool_guard cool s⟩
  · refine ⟨_, rfl, ?_⟩
    dsimp only
    rw [if_pos ⟨live, asserted⟩]
    exact ⟨rfl, rfl, _, rfl, or_low_shift _ _⟩
  · have dead := portLive_false dead
    simp only [List.mem_cons, List.not_mem_nil, or_false] at read
    obtain rfl | rfl | rfl | rfl | rfl | rfl := read <;>
      simp [exec, execMgmtStatusRead, execMgmtIdentity, execMgmtHealth, execMgmtGuardPending, execMgmtGuardResult, execAlertResponse, mgmtRead, dead, nack]
  · have outside : 255 < index := by omega
    simp [exec, execMgmtErrorLog, outside, nack]

theorem freeBytes_none (s : State) : freeBytes 0 s = ([], s) := rfl

/-- A write with a wrong PEC is NACKed. -/
theorem mgmtWrite_of_wrong_pec {sent : List Byte} {pec : Option Byte} {s : State} (ok : Bool) (f : State → State)
    (wrong : pec ≠ some (pecOf (addrByte s false :: sent))) : mgmtWrite sent pec ok f s = nack s := by
  simp [mgmtWrite, wrong]

/-- A write with its PEC to a port that answers is taken and acknowledged. -/
theorem mgmtWrite_of_pec {sent : List Byte} {s : State} {ok : Bool} (f : State → State) (live : portLive s = true) (defined : ok = true) :
    mgmtWrite sent (some (pecOf (addrByte s false :: sent))) ok f s = (f s).mapMgmt fun m => { m with ack := true, reply := [], pec := none } := by
  simp [mgmtWrite, live, defined]

theorem wake_of_retained {s : State} (source : Nat) (retained : s.retn.inRetain = true) :
    (wake source s).retn.inRetain = false ∧ (wake source s).bed.wakeN = true ∧ (wake source s).bed.wakeSource = source ∧
      (wake source s).elog.total = s.elog.total + 1 := by
  have woken : wake source s = tryStart (logErr 0x000C source 0 ((s.mapRetn fun r => { r with inRetain := false, waking := true }).mapBed fun b =>
      { b with wakeN := true, wakeSource := source })) := by simp [wake, retained]
  rw [woken]
  refine ⟨by simp, ?_, ?_, (congrArg Elog.total (elog_of_vital (vital_tryStart _)))⟩ <;> simp [clkreqOn] <;> split <;> rfl

/-- Settles O12: a range within its bounds is answered from the bytes kept, a wake from the sources. -/
theorem mgmtRangesAndWake : Obligations.MgmtRangesAndWake := by
  unfold Obligations.MgmtRangesAndWake
  refine ⟨fun item off len p s live low high pending some few inside small => ?_, fun off len s live some few inside => ?_, fun s live retained armed => ?_,
    fun s live unarmed => ?_, fun item nonce digest pec s wrong => ?_, fun item nonce pec s wrong => ?_, fun v pec s wrong => ?_,
    fun item off len s outside => ?_⟩
  · have bounds : item ≠ 0 ∧ ¬ 6 < item ∧ ¬ 65535 < off ∧ len ≠ 0 ∧ ¬ 240 < len := by omega
    have whole : min len (p.value.length - off) = len := by omega
    simp [exec, execMgmtGuardValue, live, bounds, mget, pending, rangeRead, whole, freeBytes_none, slice]
  · have bounds : ¬ 65535 < off ∧ len ≠ 0 ∧ ¬ 240 < len ∧ min len (65536 - off) = len := by omega
    simp [exec, execMgmtOtpRead, live, bounds, freeBytes_none]
  · have runs : exec (.mgmtWake 1 (some (pecOf [addrByte s false, 0x40, 1]))) s =
        .next ((wake 1 s).mapMgmt fun m => { m with ack := true, reply := [], pec := none }) := by
      refine congrArg Host.Outcome.next ((mgmtWrite_of_pec (wakeBy 0) live rfl).trans ?_)
      simp [wakeBy, armed]
    obtain ⟨out, wakeN, source, total⟩ := wake_of_retained 1 retained
    exact ⟨_, runs, rfl, out, wakeN, source, total⟩
  · refine congrArg Host.Outcome.next ((mgmtWrite_of_pec (wakeBy 0) live rfl).trans ?_)
    simp [wakeBy, unarmed]
  · exact congrArg Host.Outcome.next (mgmtWrite_of_wrong_pec _ _ wrong)
  · exact congrArg Host.Outcome.next (mgmtWrite_of_wrong_pec _ _ wrong)
  · exact congrArg Host.Outcome.next (mgmtWrite_of_wrong_pec _ _ wrong)
  · constructor
    · simp [exec, execMgmtGuardValue, outside, nack]
    · simp [exec, execMgmtOtpRead, outside, nack]

end Sys2Proof.Machine
end

section
/-! PROOFS. Commands that begin, and the guard's proposals and confirmations. -/
namespace Sys2Proof.Machine

@[simp] theorem Cmd.begun_entry (c : Cmd) (s : State) : (c.begun s).entry = c.entry := rfl
@[simp] theorem Cmd.begun_ring (c : Cmd) (s : State) : (c.begun s).ring = c.ring := rfl
@[simp] theorem Cmd.begun_data (c : Cmd) (s : State) : (c.begun s).data = c.data := rfl
@[simp] theorem Cmd.begun_aux (c : Cmd) (s : State) : (c.begun s).aux = c.aux := rfl
@[simp] theorem Cmd.begun_opcode (c : Cmd) (s : State) : (c.begun s).opcode = c.opcode := rfl
@[simp] theorem Cmd.begun_indLen (c : Cmd) (s : State) : (c.begun s).indLen = c.indLen := rfl
@[simp] theorem Cmd.begun_indAddr (c : Cmd) (s : State) : (c.begun s).indAddr = c.indAddr := rfl
@[simp] theorem Cmd.begun_inl (c : Cmd) (s : State) (off len : Nat) : (c.begun s).inl off len = c.inl off len := rfl
@[simp] theorem Cmd.begun_inlZero (c : Cmd) (s : State) (off len : Nat) : (c.begun s).inlZero off len = c.inlZero off len := rfl
@[simp] theorem Cmd.begun_opt (c : Cmd) (s : State) (v i off len old : Nat) : (c.begun s).opt v i off len old = c.opt v i off len old := rfl
@[simp] theorem Cmd.begun_optBad (c : Cmd) (s : State) (v i off len lo hi : Nat) :
    (c.begun s).optBad v i off len lo hi = c.optBad v i off len lo hi := rfl
@[simp] theorem clearWrapBad_begun (c : Cmd) (s : State) : clearWrapBad (c.begun s) = clearWrapBad c := rfl
@[simp] theorem clearWrapOn_begun (c : Cmd) (s : State) : clearWrapOn (c.begun s) = clearWrapOn c := rfl
@[simp] theorem shapeBad_begun (c : Cmd) (s : State) (last n : Nat) : shapeBad (c.begun s) last n = shapeBad c last n := rfl
@[simp] theorem plainBad_begun' (c : Cmd) (s : State) (last n : Nat) : plainBad (c.begun s) last n = plainBad c last n := rfl
@[simp] theorem blockBad_begun (c : Cmd) (s : State) (last len : Nat) : blockBad (c.begun s) last len = blockBad c last len := rfl
@[simp] theorem counterBlockBad_begun (c : Cmd) (s : State) (last len : Nat) : counterBlockBad (c.begun s) last len = counterBlockBad c last len := rfl
@[simp] theorem Cmd.begun_guardValue (c : Cmd) (s : State) : (c.begun s).guardValue = c.guardValue := rfl
@[simp] theorem proposeBad_begun (c : Cmd) (s : State) : proposeBad (c.begun s) = proposeBad c := rfl
@[simp] theorem writeBlock_begun (c : Cmd) (s : State) (l : List Byte) (u : State) : writeBlock (c.begun s) l u = writeBlock c l u := rfl

theorem mfind_mdel {α : Type} (m : Map α) (k j : Nat) : mfind (mdel m k) j = if j = k then none else mfind m j := by
  induction m with
  | nil => simp [mdel, mfind]
  | cons y r ih =>
    obtain ⟨z, v⟩ := y
    unfold mdel at ih ⊢
    by_cases gone : z = k
    · subst gone
      simp only [List.filter_cons, ne_eq, not_true_eq_false, decide_false, Bool.false_eq_true, if_false, ih, mfind]
      by_cases e : j = z <;> simp [e]
    · simp only [List.filter_cons, ne_eq, gone, not_false_eq_true, decide_true, if_true, mfind, ih]
      by_cases e : j = z
      · simp [e, gone]
      · simp [e]

/-- A command that begins and passes its checks, and whose body answers SUCCESS, completes with the body's results. -/
theorem runCmd_of_ok {id op : Nat} {pre : Cmd → State → Option Status} {body : Cmd → State → Ran} {c : Cmd} {s t : State} {r0 r1 : BitVec 64}
    (begins : Begins s id op c) (passed : pre (c.begun s) (beginCmd id c s) = none)
    (answer : body (c.begun s) (beginCmd id c s) = { Ran.ok t with r0 := r0, r1 := r1 }) :
    runCmd id op pre body s = finish id .success r0 r1 true t := runCmd_of_passed_checks begins passed answer rfl

/-- A command that begins and passes its checks, and whose body fails, completes with the body's status. -/
theorem runCmd_of_fail {id op : Nat} {pre : Cmd → State → Option Status} {body : Cmd → State → Ran} {c : Cmd} {s t : State} {st : Status}
    (begins : Begins s id op c) (passed : pre (c.begun s) (beginCmd id c s) = none) (answer : body (c.begun s) (beginCmd id c s) = .fail st t) :
    runCmd id op pre body s = finishFail id st t := runCmd_of_passed_checks begins passed answer rfl

/-- A command that begins and passes its checks stays in flight while its body does not end it. -/
theorem runCmd_of_waiting {id op : Nat} {pre : Cmd → State → Option Status} {body : Cmd → State → Ran} {c : Cmd} {s : State} {r : Ran}
    (begins : Begins s id op c) (passed : pre (c.begun s) (beginCmd id c s) = none) (answer : body (c.begun s) (beginCmd id c s) = r)
    (waits : r.done = false) : runCmd id op pre body s = r.s := by
  obtain ⟨may, clock⟩ := begins
  simp [runCmd, may, passed, clock, answer, waits]

@[simp] theorem beginCmd_cmd (id : Nat) (c : Cmd) (s : State) : mfind (beginCmd id c s).fl.cmds id = some (c.begun s) := by
  simp [beginCmd, mfind_mput]

theorem modCmd_of_some {id : Nat} {f : Cmd → Cmd} {s : State} {c : Cmd} (h : mfind s.fl.cmds id = some c) :
    modCmd id f s = s.mapFl fun fl => { fl with cmds := mput fl.cmds id (f c) } := by simp [modCmd, h]

theorem modCmd_cmd {id : Nat} {f : Cmd → Cmd} {s : State} {c : Cmd} (h : mfind s.fl.cmds id = some c) :
    mfind (modCmd id f s).fl.cmds id = some (f c) := by simp [modCmd_of_some h, mfind_mput]

/-- The end of a proposal removes it, leaves the rest of the guard, and sets alert cause [9]. -/
theorem endProposal_does {item : Nat} (st : Status) {s : State} {p : Proposal} (h : mfind s.guard.props item = some p) :
    (endProposal item st s).guard = { s.guard with props := mdel s.guard.props item } ∧
      (endProposal item st s).mgmt = { s.mgmt with alert := s.mgmt.alert ||| 2 } := by
  simp [endProposal, h]

theorem endProposal_gone {item : Nat} (st : Status) {s : State} {p : Proposal} (h : mfind s.guard.props item = some p) :
    mfind (endProposal item st s).guard.props item = none := by
  rw [(endProposal_does st h).1]
  simp [mfind_mdel]

/-- The proposal that a GUARD_PROPOSE carries. -/
def proposalOf (id : Nat) (c : Cmd) (value : List Byte) (s : State) : Proposal where
  nonce := BitVec.ofNat 32 (c.inl 36 4)
  value := value
  digest := crc32c value
  rejects := 0
  since := s.now
  cmd := id

/-- A taken proposal: the guard and the port see it, and its command stays in flight. -/
def proposed (id : Nat) (c : Cmd) (value : List Byte) (s : State) : State :=
  awaitEnd id [] ((s.mapGuard fun g => { g with props := mput g.props c.target (proposalOf id c value s) }).mapMgmt fun m =>
    { m with alert := m.alert ||| 1 })

theorem guardPropose_taken {id : Nat} (h : HostRead) {c : Cmd} {s : State} (begins : Begins s id 0xB0 c) (boolean : c.target = 2 ∨ c.target = 6)
    (good : proposeBad c = false) (free : mfind s.guard.props c.target = none) :
    exec (.guardPropose id h) s = .next (proposed id c c.guardValue (beginCmd id c s)) := by
  have items : c.target ≠ 1 ∧ c.target ≠ 5 ∧ c.target ≠ 4 := by omega
  refine congrArg Host.Outcome.next ((runCmd_of_waiting (r := { Ran.ok (proposed id c c.guardValue (beginCmd id c s)) with done := false })
    begins ?_ ?_ rfl))
  · simp [good, proposeMissing, items]
  · simp [items, propose, mhas, free, proposed, proposalOf]

theorem guardAbort_does {id : Nat} {c : Cmd} {p : Proposal} {s : State} (begins : Begins s id 0xB1 c) (item : c.target ≠ 0)
    (plain : plainBad c 6 8 = false) (zero : c.inlZero 32 4 = true) (nonzero : c.inl 36 4 ≠ 0) (pending : mfind s.guard.props c.target = some p)
    (nonce : p.nonce.toNat = c.inl 36 4) : Does (.guardAbort id) id c s 0 0 (endProposal c.target .aborted) := by
  refine congrArg Host.Outcome.next (runCmd_of_ok begins ?_ rfl)
  simp [item, plain, zero, nonzero, pending, nonce]

theorem guardStatus_does {id : Nat} {c : Cmd} {s : State} (begins : Begins s id 0xB2 c) (plain : plainBad c 0 0 = false) :
    Does (.guardStatus id) id c s (BitVec.ofNat 64 (guardWord s)) 0 (fun x => x) := by
  refine congrArg Host.Outcome.next (runCmd_of_ok begins ?_ rfl)
  simp [plain]

theorem mgmtGuardAbort_does {item : Nat} {nonce : BitVec 32} {p : Proposal} {s : State} (small : item < 256) (live : portLive s = true)
    (pending : mfind s.guard.props item = some p) (same : p.nonce = nonce) :
    exec (.mgmtGuardAbort item nonce (some (pecOf (addrByte s false :: abortSent item nonce)))) s =
      .next ((guardResult 0 (endProposal item .aborted s)).mapMgmt fun m => { m with ack := true, reply := [], pec := none }) := by
  refine congrArg Host.Outcome.next ((mgmtWrite_of_pec _ live (decide_eq_true small)).trans ?_)
  simp [bmcAbort, pending, same]

/-- Settles O13: a proposal is held until a row or a command removes it. -/
theorem guardProposals : Obligations.GuardProposals := by
  unfold Obligations.GuardProposals
  refine ⟨fun id h c s begins boolean good free => ?_, fun id h c s begins boolean good pending => ?_,
    fun id c p s begins item plain zero nonzero pending nonce => guardAbort_does begins item plain zero nonzero pending nonce,
    fun id c s begins plain => guardStatus_does begins plain, fun item nonce p s small live pending same => ?_, fun item p s pending => ?_⟩
  · refine ⟨_, guardPropose_taken h begins boolean good free, ⟨proposalOf id c c.guardValue s, ?_, rfl, rfl, rfl, rfl, rfl, rfl⟩, ?_, ?_, ?_, ?_⟩
    · simp [proposed, awaitEnd, mfind_mput, proposalOf]
    · simp [proposed, awaitEnd]
    · simp [proposed, awaitEnd]
    · exact congrArg Option.isSome (modCmd_cmd (s := ((beginCmd id c s).mapGuard _).mapMgmt _) (beginCmd_cmd id c s))
    · simp [proposed, awaitEnd]
  · have items : c.target ≠ 1 ∧ c.target ≠ 5 ∧ c.target ≠ 4 := by omega
    refine congrArg Host.Outcome.next (runCmd_of_fail begins ?_ ?_)
    · simp [good, proposeMissing, items]
    · simp [items, propose, mhas, pending]
  · obtain ⟨guard, mgmt⟩ := endProposal_does .aborted pending
    refine ⟨_, mgmtGuardAbort_does small live pending same, ?_, rfl, ?_, rfl, ?_⟩
    · exact endProposal_gone .aborted pending
    · simp [guardResult, mgmt]
    · simp [guardResult, guard]
  · obtain ⟨guard, mgmt⟩ := endProposal_does .timeout pending
    refine ⟨_, rfl, endProposal_gone .timeout pending, ?_, ?_⟩
    · simp [guard]
    · simp [mgmt]

/-- A confirmation with its PEC to a port that answers is acknowledged after its effect. -/
theorem guardConfirm_runs {item : Nat} (nonce digest : BitVec 32) {s : State} (small : item < 256) (live : portLive s = true) :
    exec (.guardConfirm item nonce digest (some (pecOf (addrByte s false :: confirmSent item nonce digest)))) s =
      .next ((confirm item nonce digest s).mapMgmt fun m => { m with ack := true, reply := [], pec := none }) :=
  congrArg Host.Outcome.next (mgmtWrite_of_pec _ live (decide_eq_true small))

/-- A confirmation that matches its proposal takes the proposal and applies its item. -/
theorem confirm_of_match {item : Nat} {s : State} {p : Proposal} (well : healthState s ≠ 3) (pending : mfind s.guard.props item = some p) :
    confirm item p.nonce p.digest s = applyItem item p ((s.mapGuard fun g => { g with props := mdel g.props item, result := 0 }).mapMgmt fun m =>
      { m with alert := m.alert ||| 2 }) := by
  simp [confirm, well, pending]

/-- A confirmation that does not match its proposal is rejected: 2 for another nonce, 3 for another digest. -/
theorem confirm_of_mismatch {item : Nat} {nonce digest : BitVec 32} {s : State} {p : Proposal} (well : healthState s ≠ 3)
    (pending : mfind s.guard.props item = some p) (differs : p.nonce ≠ nonce ∨ p.digest ≠ digest) :
    confirm item nonce digest s = rejectConfirm item (if p.nonce ≠ nonce then 2 else 3) p s := by
  by_cases same : p.nonce = nonce
  · have other : p.digest ≠ digest := by tauto
    simp [confirm, well, pending, same, other]
  · simp [confirm, well, pending, same]

/-- The programming sets in board OTP the bits of the confirmed data. -/
theorem otpProgramDone_does {off : Nat} {data : List Byte} {w : Option Nat} {r : List (Nat × List Byte × Option Nat)} {s : State}
    (waiting : s.guard.otpProg = (off, data, w) :: r) : ∃ t, exec .otpProgramDone s = .next t ∧ t.guard.otpProg = r ∧
      t.otp.bytes = Memory.putBytes s.otp.bytes off (((Memory.getBytes s.otp.bytes off data.length).zip data).map fun x => x.1 ||| x.2) := by
  refine ⟨_, rfl, ?_⟩
  simp only [waiting]
  cases w with
  | none => exact ⟨rfl, rfl⟩
  | some id => simp

/-- Settles O14: a confirmation matches or is rejected, and the programming sets bits alone. -/
theorem guardConfirmation : Obligations.GuardConfirmation := by
  unfold Obligations.GuardConfirmation
  refine ⟨fun item nonce digest p s small live well pending hn hd boolean => ?_, fun nonce digest p s live well pending hn hd => ?_,
    fun item nonce digest s small live failed => ?_, fun item nonce digest s small live well free => ?_,
    fun item nonce digest p s small live well pending few differs => ?_, fun item nonce digest p s small live well pending many differs => ?_,
    fun off data w r s waiting form => ?_, fun id h c s begins boolean good free => ?_,
    fun id c p s begins item plain zero nonzero pending nonce => ?_, fun id c s begins plain => ?_, fun item nonce p s small live pending same => ?_,
    fun item p s pending => ?_⟩
  · subst hn hd
    refine ⟨_, guardConfirm_runs _ _ small live, ?_⟩
    rw [confirm_of_match well pending]
    obtain rfl | rfl := boolean <;> simp [applyItem, mfind_mdel]
  · subst hn hd
    refine ⟨_, guardConfirm_runs _ _ (by omega) live, ?_⟩
    rw [confirm_of_match well pending]
    simp [applyItem, applyPermissions, mfind_mdel]
  · refine (guardConfirm_runs _ _ small live).trans ?_
    simp [confirm, failed, guardResult]
  · refine (guardConfirm_runs _ _ small live).trans ?_
    simp [confirm, well, free, guardResult]
  · refine ⟨_, guardConfirm_runs _ _ small live, ?_⟩
    have notMany : ¬ 2 ≤ p.rejects := by omega
    rw [confirm_of_mismatch well pending differs]
    by_cases same : p.nonce = nonce <;> simp [rejectConfirm, notMany, guardResult, mfind_mput, same]
  · obtain ⟨guard, -⟩ := endProposal_does .aborted pending
    refine ⟨_, guardConfirm_runs _ _ small live, ?_⟩
    rw [confirm_of_mismatch well pending differs]
    simp [rejectConfirm, many, guardResult, guard, mfind_mdel]
  · obtain ⟨t, runs, left, bytes⟩ := otpProgramDone_does waiting
    refine ⟨t, runs, left, fun a outside => ?_, fun i inside => ?_⟩
    · rw [bytes, Memory.get_putBytes _ _ _ form, if_neg]
      simp [Memory.length_getBytes]
      omega
    · rw [bytes, Memory.get_putBytes _ _ _ form, if_pos (by simp [Memory.length_getBytes, inside])]
      simp [Memory.getElem_getBytes, Memory.length_getBytes, inside]
  · refine ⟨_, guardPropose_taken h begins boolean good free, ?_⟩
    simp [proposed, awaitEnd, mfind_mput]
  · exact ⟨_, guardAbort_does begins item plain zero nonzero pending nonce, by
      rw [finish_guard]
      exact endProposal_gone .aborted pending⟩
  · exact ⟨_, guardStatus_does begins plain, by simp⟩
  · exact ⟨_, mgmtGuardAbort_does small live pending same, endProposal_gone .aborted pending⟩
  · exact ⟨_, rfl, endProposal_gone .timeout pending⟩

end Sys2Proof.Machine
end

section
/-! PROOFS. Ring pairs apart from their unsignalled completions. -/
namespace Sys2Proof.Machine

/-- A ring pair apart from its unsignalled completions, which messages alone change. -/
def State.ringCore (s : State) (r : Nat) : Option Ring := (mfind s.hif.rings r).map fun g => { g with unsig := [] }

@[simp] theorem State.mapFl_ringCore (s : State) (f : Flight → Flight) : (s.mapFl f).ringCore = s.ringCore := (rfl)
@[simp] theorem State.mapHreg_ringCore (s : State) (f : Hreg → Hreg) : (s.mapHreg f).ringCore = s.ringCore := (rfl)
@[simp] theorem State.mapObs_ringCore (s : State) (f : Obs → Obs) : (s.mapObs f).ringCore = s.ringCore := (rfl)
@[simp] theorem hostWrite_ringCore (a : Nat) (l : List Byte) (s : State) : (hostWrite a l s).ringCore = s.ringCore := (rfl)

@[simp] theorem State.mapHif_ringCore (s : State) {f : Hif → Hif} (h : (f s.hif).rings = s.hif.rings) : (s.mapHif f).ringCore = s.ringCore := by
  funext r
  simp [State.ringCore, h]

@[simp] theorem msixFire_ringCore (v : Nat) (s : State) : (msixFire v s).ringCore = s.ringCore := by
  unfold msixFire
  dsimp only
  split
  · rfl
  · split
    · exact State.mapHif_ringCore s rfl
    · funext r
      simp only [State.ringCore, State.mapHif_hif]
      split
      · simp only [mmod, mfind_mput]
        split
        · next there e =>
          subst e
          obtain ⟨g, found⟩ := Option.isSome_iff_exists.1 there
          have found' : mfind s.hif.rings r = some g := found
          simp [hostWrite, found', mget]
        · rfl
      · rfl

@[simp] theorem msixCount_ringCore (v count n : Nat) (s : State) : (msixCount v count n s).ringCore = s.ringCore := by
  unfold msixCount
  split
  · exact msixFire_ringCore v s
  · rfl

@[simp] theorem evqWrite_ringCore (e : Event) (s : State) : (evqWrite e s).ringCore = s.ringCore := by
  unfold evqWrite
  rw [msixCount_ringCore]
  exact State.mapHif_ringCore _ rfl

end Sys2Proof.Machine
end

section
/-! PROOFS. Completions, doorbells and the host-interface reset. -/
namespace Sys2Proof.Machine

@[simp] theorem ite_hif {c : Prop} [Decidable c] (a b : State) :
    (if c then a else b).hif = if c then a.hif else b.hif := apply_ite (fun s : State => s.hif) c a b

@[simp] theorem foldl_hif {α : Type} {f : State → α → State} (same : ∀ s a, (f s a).hif = s.hif) (l : List α) (s : State) :
    (l.foldl f s).hif = s.hif := by
  induction l generalizing s with
  | nil => rfl
  | cons a l ih => exact (ih (f s a)).trans (same s a)

@[simp] theorem forEach_hif {f : Nat → State → State} (same : ∀ n s, (f n s).hif = s.hif) (l : List Nat) (s : State) :
    (forEach l f s).hif = s.hif :=
  foldl_hif (fun s n => same n s) l s

@[simp] theorem profEvent_hif (ev inst n : Nat) (s : State) : (profEvent ev inst n s).hif = s.hif := (rfl)

@[simp] theorem ite_hostLog {c : Prop} [Decidable c] (a b : State) :
    (if c then a else b).hostLog = if c then a.hostLog else b.hostLog := apply_ite (fun s : State => s.hostLog) c a b

@[simp] theorem foldl_hostLog {α : Type} {f : State → α → State} (same : ∀ s a, (f s a).hostLog = s.hostLog) (l : List α) (s : State) :
    (l.foldl f s).hostLog = s.hostLog := by
  induction l generalizing s with
  | nil => rfl
  | cons a l ih => exact (ih (f s a)).trans (same s a)

@[simp] theorem forEach_hostLog {f : Nat → State → State} (same : ∀ n s, (f n s).hostLog = s.hostLog) (l : List Nat) (s : State) :
    (forEach l f s).hostLog = s.hostLog :=
  foldl_hostLog (fun s n => same n s) l s

@[simp] theorem profEvent_hostLog (ev inst n : Nat) (s : State) : (profEvent ev inst n s).hostLog = s.hostLog := (rfl)

@[simp] theorem ite_hif_evqHead {c : Prop} [Decidable c] (a b : State) :
    (if c then a else b).hif.evqHead = if c then a.hif.evqHead else b.hif.evqHead := apply_ite (fun s : State => s.hif.evqHead) c a b

@[simp] theorem foldl_hif_evqHead {α : Type} {f : State → α → State} (same : ∀ s a, (f s a).hif.evqHead = s.hif.evqHead) (l : List α) (s : State) :
    (l.foldl f s).hif.evqHead = s.hif.evqHead := by
  induction l generalizing s with
  | nil => rfl
  | cons a l ih => exact (ih (f s a)).trans (same s a)

@[simp] theorem forEach_hif_evqHead {f : Nat → State → State} (same : ∀ n s, (f n s).hif.evqHead = s.hif.evqHead) (l : List Nat) (s : State) :
    (forEach l f s).hif.evqHead = s.hif.evqHead :=
  foldl_hif_evqHead (fun s n => same n s) l s

@[simp] theorem hostWrite_hif_evqHead (addr : Nat) (bytes : List Byte) (s : State) : (hostWrite addr bytes s).hif.evqHead = s.hif.evqHead := (rfl)

@[simp] theorem msixFire_hif_evqHead (v : Nat) (s : State) : (msixFire v s).hif.evqHead = s.hif.evqHead := by
  unfold msixFire
  dsimp only
  (repeat' split) <;> simp

@[simp] theorem msixCount_hif_evqHead (v count n : Nat) (s : State) : (msixCount v count n s).hif.evqHead = s.hif.evqHead := by
  unfold msixCount
  split <;> simp

@[simp] theorem evqWrite_hif_evqHead (e : Event) (s : State) : (evqWrite e s).hif.evqHead = s.hif.evqHead := by
  simp [evqWrite]

@[simp] theorem evqDrain_hif_evqHead (l : List Event) (s : State) : (evqDrain l s).2.hif.evqHead = s.hif.evqHead := by
  induction l generalizing s with
  | nil => rfl
  | cons e r ih =>
    unfold evqDrain
    split
    · rw [ih, evqWrite_hif_evqHead]
    · rfl

@[simp] theorem setHifErr_hif_evqHead (bits : BitVec 7) (s : State) : (setHifErr bits s).hif.evqHead = s.hif.evqHead := (rfl)

@[simp] theorem deliverEvents_hif_evqHead (s : State) : (deliverEvents s).hif.evqHead = s.hif.evqHead := by
  unfold deliverEvents
  dsimp only
  (repeat' split) <;> simp

@[simp] theorem ite_hif_evqExists {c : Prop} [Decidable c] (a b : State) :
    (if c then a else b).hif.evqExists = if c then a.hif.evqExists else b.hif.evqExists := apply_ite (fun s : State => s.hif.evqExists) c a b

@[simp] theorem foldl_hif_evqExists {α : Type} {f : State → α → State} (same : ∀ s a, (f s a).hif.evqExists = s.hif.evqExists) (l : List α) (s : State) :
    (l.foldl f s).hif.evqExists = s.hif.evqExists := by
  induction l generalizing s with
  | nil => rfl
  | cons a l ih => exact (ih (f s a)).trans (same s a)

@[simp] theorem forEach_hif_evqExists {f : Nat → State → State} (same : ∀ n s, (f n s).hif.evqExists = s.hif.evqExists) (l : List Nat) (s : State) :
    (forEach l f s).hif.evqExists = s.hif.evqExists :=
  foldl_hif_evqExists (fun s n => same n s) l s

@[simp] theorem hostWrite_hif_evqExists (addr : Nat) (bytes : List Byte) (s : State) : (hostWrite addr bytes s).hif.evqExists = s.hif.evqExists := (rfl)

@[simp] theorem msixFire_hif_evqExists (v : Nat) (s : State) : (msixFire v s).hif.evqExists = s.hif.evqExists := by
  unfold msixFire
  dsimp only
  (repeat' split) <;> simp

@[simp] theorem msixCount_hif_evqExists (v count n : Nat) (s : State) : (msixCount v count n s).hif.evqExists = s.hif.evqExists := by
  unfold msixCount
  split <;> simp

@[simp] theorem evqWrite_hif_evqExists (e : Event) (s : State) : (evqWrite e s).hif.evqExists = s.hif.evqExists := by
  simp [evqWrite]

@[simp] theorem evqDrain_hif_evqExists (l : List Event) (s : State) : (evqDrain l s).2.hif.evqExists = s.hif.evqExists := by
  induction l generalizing s with
  | nil => rfl
  | cons e r ih =>
    unfold evqDrain
    split
    · rw [ih, evqWrite_hif_evqExists]
    · rfl

@[simp] theorem setHifErr_hif_evqExists (bits : BitVec 7) (s : State) : (setHifErr bits s).hif.evqExists = s.hif.evqExists := (rfl)

@[simp] theorem deliverEvents_hif_evqExists (s : State) : (deliverEvents s).hif.evqExists = s.hif.evqExists := by
  unfold deliverEvents
  dsimp only
  (repeat' split) <;> simp

@[simp] theorem ite_hif_hostReady {c : Prop} [Decidable c] (a b : State) :
    (if c then a else b).hif.hostReady = if c then a.hif.hostReady else b.hif.hostReady := apply_ite (fun s : State => s.hif.hostReady) c a b

@[simp] theorem foldl_hif_hostReady {α : Type} {f : State → α → State} (same : ∀ s a, (f s a).hif.hostReady = s.hif.hostReady) (l : List α) (s : State) :
    (l.foldl f s).hif.hostReady = s.hif.hostReady := by
  induction l generalizing s with
  | nil => rfl
  | cons a l ih => exact (ih (f s a)).trans (same s a)

@[simp] theorem forEach_hif_hostReady {f : Nat → State → State} (same : ∀ n s, (f n s).hif.hostReady = s.hif.hostReady) (l : List Nat) (s : State) :
    (forEach l f s).hif.hostReady = s.hif.hostReady :=
  foldl_hif_hostReady (fun s n => same n s) l s

@[simp] theorem hostWrite_hif_hostReady (addr : Nat) (bytes : List Byte) (s : State) : (hostWrite addr bytes s).hif.hostReady = s.hif.hostReady := (rfl)

@[simp] theorem msixFire_hif_hostReady (v : Nat) (s : State) : (msixFire v s).hif.hostReady = s.hif.hostReady := by
  unfold msixFire
  dsimp only
  (repeat' split) <;> simp

@[simp] theorem msixCount_hif_hostReady (v count n : Nat) (s : State) : (msixCount v count n s).hif.hostReady = s.hif.hostReady := by
  unfold msixCount
  split <;> simp

@[simp] theorem evqWrite_hif_hostReady (e : Event) (s : State) : (evqWrite e s).hif.hostReady = s.hif.hostReady := by
  simp [evqWrite]

@[simp] theorem evqDrain_hif_hostReady (l : List Event) (s : State) : (evqDrain l s).2.hif.hostReady = s.hif.hostReady := by
  induction l generalizing s with
  | nil => rfl
  | cons e r ih =>
    unfold evqDrain
    split
    · rw [ih, evqWrite_hif_hostReady]
    · rfl

@[simp] theorem setHifErr_hif_hostReady (bits : BitVec 7) (s : State) : (setHifErr bits s).hif.hostReady = s.hif.hostReady := (rfl)

@[simp] theorem deliverEvents_hif_hostReady (s : State) : (deliverEvents s).hif.hostReady = s.hif.hostReady := by
  unfold deliverEvents
  dsimp only
  (repeat' split) <;> simp

@[simp] theorem ite_ringCore {c : Prop} [Decidable c] (a b : State) :
    (if c then a else b).ringCore = if c then a.ringCore else b.ringCore := apply_ite (fun s : State => s.ringCore) c a b

@[simp] theorem foldl_ringCore {α : Type} {f : State → α → State} (same : ∀ s a, (f s a).ringCore = s.ringCore) (l : List α) (s : State) :
    (l.foldl f s).ringCore = s.ringCore := by
  induction l generalizing s with
  | nil => rfl
  | cons a l ih => exact (ih (f s a)).trans (same s a)

@[simp] theorem forEach_ringCore {f : Nat → State → State} (same : ∀ n s, (f n s).ringCore = s.ringCore) (l : List Nat) (s : State) :
    (forEach l f s).ringCore = s.ringCore :=
  foldl_ringCore (fun s n => same n s) l s

@[simp] theorem evqDrain_ringCore (l : List Event) (s : State) : (evqDrain l s).2.ringCore = s.ringCore := by
  induction l generalizing s with
  | nil => rfl
  | cons e r ih =>
    unfold evqDrain
    split
    · rw [ih, evqWrite_ringCore]
    · rfl

@[simp] theorem setHifErr_ringCore (bits : BitVec 7) (s : State) : (setHifErr bits s).ringCore = s.ringCore := (rfl)

@[simp] theorem deliverEvents_ringCore (s : State) : (deliverEvents s).ringCore = s.ringCore := by
  simp [deliverEvents]

@[simp] theorem loseEvent_ringCore (s : State) : (loseEvent s).ringCore = s.ringCore := (rfl)

@[simp] theorem postEvent_ringCore (e : Event) (s : State) : (postEvent e s).ringCore = s.ringCore := by
  simp [postEvent]

@[simp] theorem post_ringCore (code sev obj detail : Nat) (s : State) : (post code sev obj detail s).ringCore = s.ringCore := by
  simp [post]

theorem mirrorCmd_of_plain {c : Cmd} (st : Status) (s : State) (h : mirrored c.opcode = false) : mirrorCmd c st s = s := by
  simp [mirrorCmd, h]

/-- What the end of a command leaves before its completion is written. -/
def ended (id : Nat) (s : State) : State := profEvent 0x11 0 1 (s.mapFl fun f => { f with cmds := mdel f.cmds id })

/-- The completion of a command. -/
def completionOf (c : Cmd) (st : Status) (r0 r1 : BitVec 64) (eff : Bool) (s : State) : Completion where
  ring := c.ring
  tag := BitVec.ofNat 16 (fieldAt c.entry 2 2)
  status := (if st = .success ∧ c.late then Status.lateExecuted else st).code
  result0 := r0
  result1 := r1
  execNs := if eff then clockNs s else 0xFFFFFFFF
  withEvent := c.flag 4

theorem finishOne_of_plain {id : Nat} (st : Status) (r0 r1 : BitVec 64) (eff : Bool) {c : Cmd} {s : State} (flight : mfind s.fl.cmds id = some c)
    (plain : mirrored c.opcode = false) : finishOne id st r0 r1 eff s =
      if c.dead then ended id s else writeCompletion (completionOf c st r0 r1 eff (ended id s)) (ended id s) := by
  simp only [finishOne, flight, mirrorCmd_of_plain _ _ plain, completionOf, ended]

/-- A completion in D0 with its ring there, its entry within the DMA windows, and neither event nor message due. -/
theorem writeCompletion_does {x : Completion} {g : Ring} {s : State} (active : s.boot.d3hot = false) (ring : mfind s.hif.rings x.ring = some g)
    (quiet : g.cfg.intCount = 0) (plain : x.withEvent = false) (allowed : dmaAllowed s (g.cfg.cqBase.toNat + 32 * g.cqTail) 32 = true) :
    writeCompletion x s = (hostWrite (g.cfg.cqBase.toNat + 32 * g.cqTail) (x.bytes g.sqHead g.phase) s).mapHif fun h =>
      { h with rings := mput h.rings x.ring { g with
          cqTail := (g.cqTail + 1) % 2 ^ g.cfg.cqDepth
          phase := if g.cqTail + 1 = 2 ^ g.cfg.cqDepth then !g.phase else g.phase
          unsig := g.unsig ++ [s.now] } } := by
  simp [writeCompletion, active, ring, quiet, plain, allowed, msixCount]

theorem leBytes_bit (b : Bool) : leBytes 1 (b2n b) = [if b then 1 else 0] := by
  cases b <;> rfl

theorem leBytes_two_ofNat (n : Nat) : leBytes 2 (n % 65536) = leBytes 2 n := by
  have low : BitVec.ofNat 8 (n % 65536) = BitVec.ofNat 8 n := by
    apply BitVec.eq_of_toNat_eq
    simp only [BitVec.toNat_ofNat]
    omega
  have high : BitVec.ofNat 8 (n % 65536 / 256) = BitVec.ofNat 8 (n / 256) := by
    apply BitVec.eq_of_toNat_eq
    simp only [BitVec.toNat_ofNat]
    omega
  simp [leBytes, low, high]

theorem ended_clockNs (id : Nat) (s : State) : clockNs (ended id s) = clockNs s := rfl

/-- Settles O16: the end of a command writes one entry at its ring's tail, or none. -/
theorem completionEntry : Obligations.CompletionEntry := by
  unfold Obligations.CompletionEntry
  refine ⟨fun id st r0 r1 eff c g s flight alive ring active noEvent quiet plain allowed => ?_, fun id st r0 r1 eff c s flight dead plain => ?_,
    fun id st r0 r1 eff s => ?_, fun id op pre body c st s begins failed => runCmd_of_failed_check begins failed⟩
  · have wrote := writeCompletion_does (x := completionOf c st r0 r1 eff (ended id s)) (s := ended id s) active ring quiet noEvent allowed
    refine ⟨_, rfl, ?_⟩
    rw [finishOne_of_plain st r0 r1 eff flight plain, alive, if_neg Bool.false_ne_true, wrote]
    refine ⟨?_, ?_, ⟨{ g with
      cqTail := (g.cqTail + 1) % 2 ^ g.cfg.cqDepth
      phase := if g.cqTail + 1 = 2 ^ g.cfg.cqDepth then !g.phase else g.phase
      unsig := g.unsig ++ [(ended id s).now] }, ?_, rfl, rfl, rfl⟩⟩
    · simp [hostWrite, ended, profEvent, mfind_mdel]
    · simp only [hostWrite, Completion.bytes, completionOf, leBytes_bit, ended_clockNs, BitVec.toNat_ofNat]
      rw [show 2 ^ 16 = 65536 from rfl, leBytes_two_ofNat]
      simp [ended]
    · simp [completionOf, mfind_mput]
  · rw [finishOne_of_plain st r0 r1 eff flight plain, if_pos dead]
    exact ⟨rfl, by simp [ended, profEvent, mfind_mdel]⟩
  · have h := finish_done id st r0 r1 eff s
    exact ⟨_, rfl, h.bed, h.guard, h.elog, h.health, h.otp, h.mgmt, h.cages, h.lanes, h.ports, h.buf, h.sched, h.tbl, h.mem, h.tim, h.boot, h.retn, h.now,
      h.pending⟩

theorem modRing_of_some {r : Nat} {f : Ring → Ring} {g : Ring} {s : State} (h : mfind s.hif.rings r = some g) :
    modRing r f s = s.mapHif fun h => { h with rings := mput h.rings r (f g) } := by
  simp [modRing, h]

/-- A ring pair in which nothing but its unsignalled completions differs. -/
theorem ring_of_ringCore {s t : State} {r : Nat} {g : Ring} (h : t.ringCore = s.ringCore) (found : mfind s.hif.rings r = some g) :
    ∃ u, mfind t.hif.rings r = some { g with unsig := u } := by
  have same := congrFun h r
  simp only [State.ringCore, found, Option.map_some] at same
  obtain ⟨x, there, e⟩ := Option.map_eq_some_iff.1 same
  refine ⟨x.unsig, there.trans (congrArg some ?_)⟩
  cases x
  cases g
  simp only [Ring.mk.injEq] at e ⊢
  tauto

theorem ringError_does {r : Nat} (cause : Nat) {g : Ring} {s : State} (ring : mfind s.hif.rings r = some g) (good : g.error = none) :
    ∃ u, mfind (ringError r cause s).hif.rings r = some { g with error := some cause, unsig := u } := by
  have posted : ringError r cause s = post 0x0003 2 r cause (s.mapHif fun h => { h with rings := mput h.rings r { g with error := some cause } }) := by
    simp [ringError, ring, good]
  rw [posted]
  exact ring_of_ringCore (g := { g with error := some cause }) (post_ringCore _ _ _ _ _) (by simp [mfind_mput])

/-- Settles O17: a doorbell within range moves an index, and one out of range puts its ring in ERROR. -/
theorem doorbellRows : Obligations.DoorbellRows := by
  unfold Obligations.DoorbellRows
  refine ⟨fun r v g s ready ring good inside => ?_, fun r v g s ready ring good outside => ?_, fun r v g s ready ring good inside used => ?_,
    fun r v s ready absent low high => ?_, fun r v s early => ?_, fun v s ready inside used => ?_, fun v s ready outside => ?_,
    fun v rb d s live ring inside used => ?_⟩
  · have below : ¬ 2 ^ g.cfg.sqDepth ≤ v.toNat := by omega
    simp [exec, execSqTailWrite, doorbell, ready, ring, good, below, modRing_of_some ring]
  · have runs : exec (.sqTailWrite r v) s = .next (ringError r 0 s) := by
      simp [exec, execSqTailWrite, doorbell, ready, ring, good, outside]
    obtain ⟨u, found⟩ := ringError_does 0 ring good
    exact ⟨_, runs, _, found, rfl, rfl, rfl⟩
  · have bounds : ¬ (2 ^ g.cfg.cqDepth ≤ v.toNat ∨ g.used < (v.toNat + 2 ^ g.cfg.cqDepth - g.cqHead) % 2 ^ g.cfg.cqDepth) := by omega
    simp only [exec, execCqHeadWrite, doorbell, ready, ring, good, modRing_of_some ring]
    simp only [Bool.not_true, Bool.false_eq_true, if_false, Option.isSome_none, if_neg bounds]
  · constructor <;> simp [exec, execSqTailWrite, execCqHeadWrite, doorbell, ready, absent, low, high, setHifErr]
  · refine ⟨?_, ?_, ?_⟩ <;> simp [exec, execSqTailWrite, execCqHeadWrite, execEvqHeadWrite, doorbell, early]
  · have bounds : ¬ (evqDepth s ≤ v.toNat % 65536 ∨ (s.hif.evqTail + evqDepth s - s.hif.evqHead) % evqDepth s <
        (v.toNat % 65536 + evqDepth s - s.hif.evqHead) % evqDepth s) := by omega
    refine ⟨deliverEvents (s.mapHif fun h => { h with evqHead := v.toNat % 65536 }), ?_, ?_, ?_⟩
    · simp only [exec, execEvqHeadWrite, ready, if_neg bounds]
      rfl
    · simp
    · simp
  · simp [exec, execEvqHeadWrite, ready, outside, setHifErr]
  · have bounds : ¬ (2 ^ d ≤ v.toNat % 2 ^ 20 ∨ (s.obs.trIndex + 2 ^ d - s.obs.trHead) % 2 ^ d < (v.toNat % 2 ^ 20 + 2 ^ d - s.obs.trHead) % 2 ^ d) := by
      omega
    simp only [exec, execTraceHeadWrite, live, if_true, writeTraceHead, ring, if_neg bounds]

/-- What a host-interface reset leaves of the commands. -/
theorem hifReset_dead (s : State) (e : Nat × Cmd) (h : e ∈ (hifReset s).fl.cmds) : e.2.dead = true ∧ e.2.phase = .executing := by
  simp only [hifReset, State.mapFl_fl, mmap, List.mem_map, List.mem_filter, Bool.and_eq_true, decide_eq_true_eq] at h
  obtain ⟨p, ⟨_, executes, _⟩, rfl⟩ := h
  exact ⟨rfl, executes⟩

/-- Settles O19: both resets are `hifReset`, and HOST_READY makes ring pair 0 and EVQ. -/
theorem hostInterfaceResetRows : Obligations.HostInterfaceResetRows := by
  unfold Obligations.HostInterfaceResetRows
  refine ⟨fun s ready => ?_, fun s on => ?_, fun s off => ?_, fun s => ?_, fun s ready on early free => ?_⟩
  · simp [exec, execHifEnableSet, ready, writeHifEnable]
  · have runs : exec .hifEnableClear s = .next (hifReset (s.mapHreg fun h => { h with hifEnable := false })) := by
      simp [exec, execHifEnableClear, writeHifEnable, on]
    refine ⟨_, runs, ?_, ?_, ?_, ?_, ?_, hifReset_dead _, ?_, ?_, ?_, ?_, ?_, ?_⟩ <;> simp [hifReset]
  · simp [exec, execHifEnableClear, writeHifEnable, off]
  · refine ⟨_, rfl, ?_, ?_, ?_, ?_, ?_, hifReset_dead _, ?_, ?_, ?_, ?_, ?_⟩ <;> simp [hifReset]
  · refine ⟨_, rfl, ?_⟩
    rw [ready, on, early, free]
    obtain ⟨u, found⟩ := ring_of_ringCore (r := 0) (deliverEvents_ringCore (s.mapHif fun h =>
        { h with
          hostReady := true
          rings := mput h.rings 0 { Ring.init with cfg := s.hreg.ring0 }
          evqExists := true, evqTail := 0, evqHead := 0, evqPhase := true, evqUnsig := [] })) (g := { Ring.init with cfg := s.hreg.ring0 }) (by simp [mfind_mput])
    refine ⟨?_, ?_, ?_, _, found, rfl, rfl, rfl, rfl, rfl, rfl, rfl⟩ <;> simp

/-- A ring pair that RING_DELETE is removing: it has one completion without a message, and its vector is not masked. -/
def deletingPair : State :=
  State.reset.mapHif fun h =>
    { h with
      rings := [(5, { Ring.init with deleting := true, unsig := [0], cfg := { RingCfg.init with intTime := 1 } })]
      msix := [(5, { MsixEntry.init with mask := false })] }

theorem msixFire_of_deleting {v : Nat} {s : State} (h : (mget s.hif.rings v Ring.init).deleting = true) : msixFire v s = s := by
  simp [msixFire, h]

/-- Refutes O18: while RING_DELETE removes a ring pair, its timer sends no message, so that its completion stays unsignalled. -/
theorem not_fetchAndInterruptRows : ¬ Obligations.FetchAndInterruptRows := by
  unfold Obligations.FetchAndInterruptRows
  rintro ⟨-, -, -, -, -, timer, -⟩
  obtain ⟨t, runs, none, -⟩ := timer 5 deletingPair (by decide) (by decide) (by decide) (by decide)
  have same : exec (.msixTimer 5) deletingPair = .next deletingPair := by
    simp [exec, execMsixTimer, msixFire_of_deleting (v := 5) (s := deletingPair) (by decide)]
  cases same.symm.trans runs
  exact absurd none (by decide)

end Sys2Proof.Machine
end

section
/-! PROOFS. Ring commands and identity. -/
namespace Sys2Proof.Machine

@[simp] theorem dmaAllowed_beginCmd (id : Nat) (c : Cmd) (s : State) (a len : Nat) : dmaAllowed (beginCmd id c s) a len = dmaAllowed s a len := rfl
@[simp] theorem RingCfg.allowed_beginCmd (p : RingCfg) (id : Nat) (c : Cmd) (s : State) : p.allowed (beginCmd id c s) = p.allowed s := rfl
@[simp] theorem ringParams_begun (c : Cmd) (s : State) : ringParams (c.begun s) = ringParams c := rfl
@[simp] theorem groupMask_beginCmd (id : Nat) (c : Cmd) (s : State) (r : Nat) : groupMask (beginCmd id c s) r = groupMask s r := rfl
@[simp] theorem takeTemps_nil (s : State) : takeTemps [] s = s := rfl

/-- A block within the DMA windows is written. -/
theorem withBlock_of_allowed {c : Cmd} {bytes : List Byte} {s t : State} (k : State → State) (h : dmaAllowed t c.indAddr bytes.length = true) :
    withBlock (c.begun s) bytes t k = .ok (k (hostWrite c.indAddr bytes t)) := by
  simp [withBlock, h, writeBlock]

theorem modRing_beginCmd_of_some {id r : Nat} {c : Cmd} {f : Ring → Ring} {g : Ring} {s : State} (h : mfind s.hif.rings r = some g) :
    modRing r f (beginCmd id c s) = (beginCmd id c s).mapHif fun h => { h with rings := mput h.rings r (f g) } :=
  modRing_of_some (s := beginCmd id c s) h

theorem mem_mput_of_ne {α : Type} {m : Map α} {k : Nat} {v : α} {p : Nat × α} (h : p ∈ m) (other : p.1 ≠ k) : p ∈ mput m k v := by
  induction m with
  | nil => simp at h
  | cons q m ih =>
    simp only [mput]
    split
    · exact List.mem_cons_of_mem _ h
    · split
      · next same =>
        have : p ≠ q := fun e => other (by rw [e, same])
        exact List.mem_cons_of_mem _ ((List.mem_cons.1 h).resolve_left this)
      · rcases List.mem_cons.1 h with rfl | h
        · exact List.mem_cons_self
        · exact List.mem_cons_of_mem _ (ih h)

theorem length_mput_le {α : Type} (m : Map α) (k : Nat) (v : α) : (mput m k v).length ≤ m.length + 1 := by
  induction m with
  | nil => simp [mput]
  | cons q m ih =>
    simp only [mput]
    split
    · simp
    · split
      · simp
      · simpa using ih

theorem reserved_le (s : State) (r : Nat) : reserved s r ≤ s.fl.cmds.length + s.fl.heldCpl.length := by
  have h1 := List.length_filter_le (fun e : Nat × Cmd => decide (e.2.ring = r) && !e.2.dead) s.fl.cmds
  have h2 := List.length_filter_le (fun c : Completion => decide (c.ring = r)) s.fl.heldCpl
  simp only [reserved, cmdsWhere, List.length_map]
  omega

theorem reserved_beginCmd_le (id : Nat) (c : Cmd) (s : State) (r : Nat) :
    reserved (beginCmd id c s) r ≤ s.fl.cmds.length + s.fl.heldCpl.length + 1 := by
  have h1 := reserved_le (beginCmd id c s) r
  have h2 := length_mput_le s.fl.cmds id (c.begun s)
  have same : (beginCmd id c s).fl.cmds = mput s.fl.cmds id (c.begun s) ∧ (beginCmd id c s).fl.heldCpl = s.fl.heldCpl := ⟨rfl, rfl⟩
  rw [same.1, same.2] at h1
  omega

/-- While the only RING_DELETE waits for other commands, none is ready to complete. -/
theorem settleDeletes_of_none (n : Nat) {s : State} (h : readyDelete s = none) : settleDeletes n s = s := by
  cases n with
  | zero => rfl
  | succ n => simp [settleDeletes, h]

/-- A word of disjoint fields read back in part. -/
theorem statusWord_fields (e : Bool) {cause inFlight : Nat} (mask : BitVec 16) (w : BitVec 64)
    (h : w = BitVec.ofNat 64 (b2n e + cause * 2 + inFlight * 2 ^ 16 + mask.toNat * 2 ^ 32)) :
    w.getLsbD 0 = e ∧ (cause < 4 → inFlight < 2 ^ 16 → w.extractLsb' 32 16 = mask) := by
  subst h
  have bit : b2n e < 2 := by cases e <;> decide
  refine ⟨?_, fun hc hf => ?_⟩
  · have low : (b2n e + cause * 2 + inFlight * 2 ^ 16 + mask.toNat * 2 ^ 32) % 2 = b2n e := by omega
    rw [BitVec.getLsbD_ofNat, Nat.testBit_zero, low]
    cases e <;> rfl
  · have := mask.isLt
    apply BitVec.eq_of_toNat_eq
    rw [BitVec.extractLsb'_toNat, BitVec.toNat_ofNat, Nat.shiftRight_eq_div_pow]
    omega

/-- Settles O20: each ring command is its effect on one ring pair, and the two identity commands report. -/
theorem ringCommands : Obligations.RingCommands := by
  unfold Obligations.RingCommands
  refine ⟨fun id c s begins lo hi noInd valid z1 z2 free allowed => ?_, fun id c g s begins lo hi other plain ring live busy alive none => ?_,
    fun id c g s begins lo hi plain ring failed idle => ?_, fun id c g s begins hi plain ring few => ?_, fun id c s begins plain => ?_,
    fun id c s begins block allowed => ?_, fun s => ?_⟩
  · have bounds : c.target ≠ 0 ∧ ¬ 1023 < c.target := by omega
    refine congrArg Host.Outcome.next (runCmd_of_ok begins ?_ ?_)
    · simp [bounds, noInd, valid, z1, z2, free]
    · simp [allowed, Ran.ok]
  · have bounds : c.target ≠ 0 ∧ ¬ 1023 < c.target := by omega
    have waits : readyDelete ((beginCmd id c s).mapHif fun h => { h with rings := mput h.rings c.target { g with deleting := true } }) = .none := by
      simp only [readyDelete, Option.map_eq_none_iff, List.find?_eq_none]
      rintro ⟨k, d⟩ member
      rcases mem_of_mput member with old | new
      · have := List.any_eq_false.1 none _ old
        simp_all
      · obtain ⟨rfl, rfl⟩ := Prod.mk.inj new
        obtain ⟨⟨j, e⟩, here, cond⟩ := List.any_eq_true.1 busy
        simp only [Bool.and_eq_true, decide_eq_true_eq] at cond
        have there : many ((beginCmd k c s).mapHif fun h => { h with rings := mput h.rings c.target { g with deleting := true } }).fl.cmds
            (fun _ x => decide (x.ring = (c.begun s).target) && !x.dead) = true :=
          List.any_eq_true.2 ⟨(j, e), mem_mput_of_ne here cond.2, by simp [cond.1]⟩
        simp only [there, Bool.not_true, Bool.and_false, Bool.false_and, Bool.false_eq_true, not_false_eq_true]
    refine congrArg Host.Outcome.next ((runCmd_of_waiting begins ?_ rfl ?_).trans ?_)
    · simp [bounds, other, plain, mhas, ring]
    · simp [mget, ring, live]
    · simp only [Cmd.begun_target, mget, beginCmd_hif, ring, Option.getD_some, live, Bool.false_eq_true, if_false, modRing_beginCmd_of_some ring]
      exact settleDeletes_of_none _ waits
  · have bounds : c.target ≠ 0 ∧ ¬ 1023 < c.target := by omega
    have err : g.error.isNone = false := by cases h : g.error <;> simp_all
    refine congrArg Host.Outcome.next (runCmd_of_ok begins ?_ ?_)
    · simp [bounds, plain, mhas, ring]
    · simp [mget, ring, err, idle, Ran.ok, modRing_beginCmd_of_some ring]
  · have got : mget (beginCmd id c s).hif.rings c.target Ring.init = g := by simp [mget, ring]
    have bounds : ¬ 1023 < c.target := by omega
    refine ⟨BitVec.ofNat 64 (b2n g.error.isSome + (g.error.getD 0) * 2 + reserved (beginCmd id c s) c.target * 2 ^ 16 +
        (groupMask s c.target).toNat * 2 ^ 32), congrArg Host.Outcome.next (runCmd_of_ok begins ?_ ?_), ?_, fun small => ?_⟩
    · simp [bounds, plain, mhas, ring]
    · simp only [Cmd.begun_target, got, groupMask_beginCmd]
    · exact (statusWord_fields _ _ _ rfl).1
    · have := reserved_beginCmd_le id c s c.target
      exact (statusWord_fields _ _ _ rfl).2 small (by omega)
  · refine congrArg Host.Outcome.next (runCmd_of_ok (t := beginCmd id c s) begins ?_ rfl)
    simp [plain]
  · refine congrArg Host.Outcome.next (runCmd_of_ok begins ?_ ?_)
    · simp [block]
    · have size : (deviceBlock (beginCmd id c s)).length = 256 := by simp [deviceBlock, length_leBytes, length_zeros, tempBlock]
      simp only [takeTemps_nil]
      exact withBlock_of_allowed (fun s => s) (by rw [size]; exact allowed)
  · simp [deviceBlock, length_leBytes, length_zeros, tempBlock]

end Sys2Proof.Machine
end

section
/-! PROOFS. Register accesses. -/
namespace Sys2Proof.Machine

@[simp] theorem readBack_readData (v : Nat) (s : State) : (readBack v s).hreg.readData = BitVec.ofNat 512 v := (rfl)
@[simp] theorem readBack_hreg (v : Nat) (s : State) : (readBack v s).hreg = { s.hreg with readData := BitVec.ofNat 512 v, readCpl := 0 } := (rfl)
@[simp] theorem readBack_obs (v : Nat) (s : State) : (readBack v s).obs = s.obs := (rfl)
@[simp] theorem readBack_tim (v : Nat) (s : State) : (readBack v s).tim = s.tim := (rfl)

theorem ofNat_toNat_setWidth {n m : Nat} (w : BitVec n) : BitVec.ofNat m w.toNat = w.setWidth m := by
  apply BitVec.eq_of_toNat_eq
  rw [BitVec.toNat_ofNat, BitVec.toNat_setWidth]

theorem readBack_word {w : BitVec 32} (s : State) : readBack w.toNat s = s.mapHreg fun h => { h with readData := w.setWidth 512, readCpl := 0 } := by
  rw [readBack, ofNat_toNat_setWidth w]

theorem offBlock_of_off {off : Nat} {s : State} (off' : s.tim.blockOn = false) (lo : 0x30000 ≤ off) (hi : off < 0x3001C) : offBlock s off = true := by
  simp [offBlock, off', lo, hi]

theorem leNat_leBytes (k n : Nat) : leNat (leBytes k n) = n % 256 ^ k := by
  induction k generalizing n with
  | zero => simp [leBytes, leNat, Nat.mod_one]
  | succ k ih => simp [leBytes, leNat, ih, Nat.pow_succ', Nat.mod_mul]

theorem slice_append_right (h l : List Byte) (a n : Nat) : slice (h ++ l) (h.length + a) n = slice l a n := by
  simp [slice, List.drop_append, List.drop_of_length_le (Nat.le_add_right h.length a)]

theorem slice_append_of_length {h : List Byte} {m : Nat} (len : h.length = m) (l : List Byte) (a n : Nat) : slice (h ++ l) (m + a) n = slice l a n := by
  rw [← len, slice_append_right]

theorem map_getD_eq_slice {l : List Byte} {a n : Nat} (inside : a + n ≤ l.length) :
    ((List.range n).map fun i => (l[a + i]?).getD 0) = slice l a n := by
  apply List.ext_getElem
  · simp [slice]
    omega
  · intro i h1 h2
    have small : i < n := by simpa using h1
    have here : a + i < l.length := by omega
    simp [slice, here]

/-- The bytes before the counters of a block of the snapshot. -/
def blockHead (s : State) : List Byte :=
  leBytes 4 0 ++ zeros 4 ++ leBytes 8 s.obs.snapDone ++ leBytes 8 s.obs.snapHead.endSec.toNat ++ leBytes 4 s.obs.snapHead.endNs ++
    leBytes 4 s.obs.snapHead.capFrac ++ zeros 32

theorem length_blockHead (s : State) : (blockHead s).length = 64 := by simp [blockHead, length_leBytes, length_zeros]

theorem snapBlock_zero (s : State) :
    snapBlock s 0 = blockHead s ++ (List.range 64).flatMap fun k => leBytes 8 (mget (mget s.obs.snapImage 0 []) k 0).toNat := rfl

theorem length_snapBlock_zero (s : State) : (snapBlock s 0).length = 576 := by simp [snapBlock_zero, length_blockHead, length_leBytes]

/-- The eight bytes of a counter of block 0 of the last snapshot. -/
theorem snapBytes_counter {s : State} {k : Nat} (done : s.obs.snapDone ≠ 0) (small : k < 64) :
    ((List.range 8).map fun i => snapByte s (0x1000 + 64 + 8 * k + i)) = leBytes 8 (mget (mget s.obs.snapImage 0 []) k 0).toNat := by
  have bytes : ∀ i ∈ List.range 8, snapByte s (0x1000 + 64 + 8 * k + i) = ((snapBlock s 0)[64 + 8 * k + i]?).getD 0 := by
    intro i member
    have low : i < 8 := List.mem_range.1 member
    have off : 0x1000 + 64 + 8 * k + i - 4096 = 64 + 8 * k + i := by omega
    have block : (64 + 8 * k + i) / 576 = 0 := by omega
    have inside : (64 + 8 * k + i) % 576 = 64 + 8 * k + i := by omega
    have bounds : ¬ 0x1000 + 64 + 8 * k + i < 64 ∧ ¬ (0x1000 + 64 + 8 * k + i < 4096 ∨ snapSize ≤ 0x1000 + 64 + 8 * k + i ∨ s.obs.snapDone = 0) := by
      simp only [snapSize]
      omega
    rw [snapByte, if_neg bounds.1, if_neg bounds.2, off, block, inside]
  rw [List.map_congr_left bytes, map_getD_eq_slice (by rw [length_snapBlock_zero]; omega), snapBlock_zero]
  refine (slice_append_of_length (length_blockHead s) _ _ _).trans ?_
  rw [slice_flatMap (fun j => length_leBytes 8 _) _ (by simpa using small)]
  simp

/-- An access that a BAR does not list. -/
theorem readBar_of_bad {bar off len : Nat} {s : State}
    (bad : (bar = 0 ∧ ((len ≠ 4 ∧ len ≠ 8) ∨ off % len ≠ 0)) ∨ (bar = 2 ∧ (8 < len ∨ off % len ≠ 0)) ∨ (bar = 4 ∧ (64 < len ∨ len < 4 ∨ off % len ≠ 0))) :
    readBar bar off len s = readBad s := by
  rcases bad with ⟨rfl, h⟩ | ⟨rfl, h⟩ | ⟨rfl, h⟩
  · have small : ¬ (len = 4 ∧ off % 4 = 0) := by
      rintro ⟨rfl, e⟩
      simp [e] at h
    have large : ¬ (len = 8 ∧ off % 8 = 0) := by
      rintro ⟨rfl, e⟩
      simp [e] at h
    simp [readBar, small, large]
  · have listed : ([1, 2, 4, 8].contains len && decide (off % len = 0)) = false := by
      simp only [Bool.and_eq_false_iff, List.contains_eq_mem, decide_eq_false_iff_not, List.mem_cons, List.not_mem_nil, or_false]
      omega
    simp only [readBar, listed]
    rfl
  · have listed : ([4, 8, 16, 32, 64].contains len && decide (off % len = 0)) = false := by
      simp only [Bool.and_eq_false_iff, List.contains_eq_mem, decide_eq_false_iff_not, List.mem_cons, List.not_mem_nil, or_false]
      omega
    simp only [readBar, listed]
    rfl

/-- A read of the identity register, a time capture, and a read of an error-log slot. -/
theorem identityRead_does {s : State} (live : barLive s = true) :
    exec (.lowHalfRead 0 0 4) s = .next (s.mapHreg fun h => { h with readData := 0x51201FB7, readCpl := 0 }) := by
  simp [exec, execLowHalfRead, live, readBar, readDword, offBlock, slotOf, reg64, reg32, readBack]

theorem timeCapture_does {s : State} (live : barLive s = true) (on : s.tim.blockOn = true) (running : s.tim.running = true) :
    exec (.timeCaptureRead true) s = .next (readBack (s.tim.ns * 2 ^ 32 + s.tim.frac) (s.mapHreg fun h =>
      { h with timeSec := s.tim.sec, latch := mput h.latch 0x30000 (BitVec.ofNat 32 ((s.tim.ns * 2 ^ 32 + s.tim.frac) / 2 ^ 32)) })) := by
  simp [exec, execTimeCaptureRead, live, captureTime, on, running, reg64]

theorem slotRead_does {i : Nat} {s : State} (live : barLive s = true) (small : i < 256) :
    exec (.errorLogSlotRead i true) s = .next (s.mapHreg fun h =>
      { h with
        readData := BitVec.ofNat 512 (fieldAt (mget s.elog.slots i ErrEntry.init).bytes 0 8)
        readCpl := 0
        slotLatch := mput h.slotLatch i ((mget s.elog.slots i ErrEntry.init).bytes.drop 4) }) := by
  simp [exec, execErrorLogSlotRead, live, small, readSlot, logSlot, readBack]
  rfl

theorem readOff_eq (s : State) : readOff s = s.mapHreg fun h => { h with readData := 0x0FF00FF0, readCpl := 0, err := h.err ||| 2 } := by
  have lit : (0x0FF00FF0 : BitVec 512) = BitVec.ofNat 512 0x0FF00FF0 := (BitVec.ofNat_eq_ofNat ..).symm
  rw [lit, readOff, readBack]
  generalize BitVec.ofNat 512 0x0FF00FF0 = w
  rfl

theorem offRead_does {off : Nat} {s : State} (live : barLive s = true) (gone : s.tim.blockOn = false) (lo : 0x30000 ≤ off) (hi : off < 0x3001C) :
    exec (.bar0OffBlockAccess off false) s =
      .next (s.mapHreg fun h => { h with readData := 0x0FF00FF0, readCpl := 0, err := h.err ||| 2 }) := by
  simp [exec, execBar0OffBlockAccess, live, offBlock_of_off gone lo hi, readOff_eq]

theorem configRead_does {s : State} (train : s.boot.pcieTrain = true) (ready : s.boot.fwReady = true) :
    exec (.pcieConfigRequest 0) s = .next (readBack 0x51201FB7 s.tick) := by
  have fixed : (BitVec.ofNat 32 (Config.freeNat s.free) &&& ~~~ BitVec.ofNat 32 0xFFFFFFFF) ||| BitVec.ofNat 32 0x51201FB7 = BitVec.ofNat 32 0x51201FB7 := by
    have : ~~~ BitVec.ofNat 32 0xFFFFFFFF = 0 := by decide
    simp [this]
  have known : configDword s 0 = (0x51201FB7, 0xFFFFFFFF) := rfl
  have value : (BitVec.ofNat 32 0x51201FB7).toNat = 0x51201FB7 := by decide
  have runs : exec (.pcieConfigRequest 0) s = .next (readBack ((BitVec.ofNat 32 (Config.freeNat s.free) &&& ~~~ BitVec.ofNat 32 (configDword s 0).2) |||
      BitVec.ofNat 32 (configDword s 0).1).toNat s.tick) := by
    simp only [exec, execPcieConfigRequest, train, ready, Bool.not_true, Bool.false_eq_true, if_false]
  rw [runs, known, fixed, value]

/-- Settles O21: each register read is one of the model's read functions. -/
theorem registerReadRows : Obligations.RegisterReadRows := by
  unfold Obligations.RegisterReadRows
  refine ⟨fun off v s live al on other slot val => ?_, fun off v s live al on slot val => ?_, fun s live => ?_,
    fun off v s live al on other slot val => ?_, fun off len s live hidden size al => ?_, fun off k s live shown done small e => ?_,
    fun bar off len s live bad => ?_, fun s live on running => ?_, fun i s live small => ?_, fun off s live gone lo hi => ?_,
    fun off s train early => ?_, fun s train ready => ?_⟩
  · simp [exec, execLowHalfRead, live, readBar, al, readDword, on, other, slot, val, readBack]
    rfl
  · have notHalf : off ≠ 0x30000 := by omega
    have quarter : off % 4 = 0 := by omega
    have noReg : reg64 s off = none := by simp [reg64, al]
    simp [exec, execLowHalfRead, live, readBar, quarter, readDword, on, notHalf, slot, noReg, al, val, readBack_word]
    rfl
  · exact identityRead_does live
  · simp [exec, execLowHalfRead, live, readBar, al, readQword, on, other, slot, val, readBack]
    rfl
  · have listed : [4, 8, 16, 32, 64].contains len = true := by simpa using size
    simp only [exec, execLowHalfRead, live, readBar, al, listed, readImage, hidden, readBack]
    rfl
  · subst e
    have al : (0x1000 + 64 + 8 * k) % 8 = 0 := by omega
    have runs : exec (.lowHalfRead 4 (0x1000 + 64 + 8 * k) 8) s =
        .next (readBack (leNat (leBytes 8 (mget (mget s.obs.snapImage 0 []) k 0).toNat)) s) := by
      have value : fieldAt ((List.range 8).map fun i => snapByte s (0x1000 + 64 + 8 * k + i)) 0 8 =
          leNat (leBytes 8 (mget (mget s.obs.snapImage 0 []) k 0).toNat) := by
        rw [snapBytes_counter done small, fieldAt, slice, List.drop_zero, List.take_of_length_le (Nat.le_of_eq (length_leBytes 8 _))]
      have listed : ([4, 8, 16, 32, 64].contains 8 && decide ((0x1000 + 64 + 8 * k) % 8 = 0)) = true := by
        rw [al]
        decide
      simp only [exec, execLowHalfRead, live, if_true, readBar, listed, readImage, shown, value]
      rfl
    refine ⟨_, runs, ?_, readBack_obs _ _⟩
    rw [readBack_readData, leNat_leBytes, Nat.mod_eq_of_lt (show _ < 256 ^ 8 from BitVec.isLt _), ofNat_toNat_setWidth _]
  · simp only [exec, execLowHalfRead, live, if_true, readBar_of_bad bad, readBad, setHifErr]
    rfl
  · exact ⟨_, timeCapture_does live on running, readBack_readData _ _, rfl, rfl, rfl⟩
  · exact ⟨_, rfl, slotRead_does live small⟩
  · exact ⟨offRead_does live gone lo hi, by simp [exec, execBar0OffBlockAccess]⟩
  · simp [exec, execPcieConfigRequest, train, early]
  · exact ⟨_, configRead_does train ready, readBack_hreg _ _⟩

/-- Settles O22: each register write reaches one of the model's write functions. -/
theorem registerWriteRows : Obligations.RegisterWriteRows := by
  unfold Obligations.RegisterWriteRows
  refine ⟨fun off v s live locked param al => ?_, fun v s live free al => ?_, fun v s live free odd => ?_, fun v s live free => ?_,
    fun low v s live free staged al => ?_, fun v s live => ?_, fun r v s live small => ?_, fun bar off len v s live bad => ?_,
    fun s live => ⟨_, identityRead_does live, by simp, by simp⟩, fun s live on running => ⟨_, timeCapture_does live on running, rfl, rfl⟩,
    fun i s live small => ⟨_, slotRead_does live small, by simp, rfl⟩, fun off s live gone lo hi => ⟨_, offRead_does live gone lo hi, by simp, rfl⟩,
    fun s train ready => ⟨_, configRead_does train ready, by rw [readBack_readData]; exact BitVec.ofNat_eq_ofNat ..⟩⟩
  · simp [exec, execRing0ParamWrite, live, param, al, writeParam, locked, setHifErr]
  · have runs : exec (.ring0ParamWrite 0x10010 8 v) s = .next ((s.mapHreg fun h => { h with staged := mdel h.staged 0x10010 }).mapHreg fun h =>
        { h with ring0 := { h.ring0 with sqBase := v } }) := by
      simp [exec, execRing0ParamWrite, live, isParam, isBase, writeBase64, writeBase, free, al]
    exact ⟨_, runs, rfl, rfl, rfl⟩
  · have runs : exec (.ring0ParamWrite 0x10010 8 v) s = .next (s.mapHreg fun h => { h with staged := mdel h.staged 0x10010 }) := by
      simp [exec, execRing0ParamWrite, live, isParam, isBase, writeBase64, writeBase, free, odd]
    exact ⟨_, runs, rfl⟩
  · simp [exec, execLowHalfWrite, live, isBase, writeParam, free]
  · have runs : exec (.ring0ParamWrite 0x1001C 4 v) s = .next ((s.mapHreg fun h => { h with staged := mdel h.staged 0x10018 }).mapHreg fun h =>
        { h with ring0 := { h.ring0 with cqBase := BitVec.ofNat 64 (v.toNat % 2 ^ 32 * 2 ^ 32 + low.toNat) } }) := by
      have base : (v.toNat % 4294967296 * 4294967296 + low.toNat) % 4096 = 0 := by omega
      simp [exec, execRing0ParamWrite, live, isParam, isBase, writeParam, writeBase, free, staged, mget, base]
    exact ⟨_, runs, rfl⟩
  · have low : BitVec.ofNat 7 (v.toNat % 4294967296) = BitVec.ofNat 7 v.toNat := by
      apply BitVec.eq_of_toNat_eq
      simp only [BitVec.toNat_ofNat]
      omega
    refine ⟨s.mapHreg fun h => { h with err := h.err &&& ~~~ BitVec.ofNat 7 v.toNat }, ?_, rfl⟩
    simp [exec, execRegisterWrite, live, writeDword, low]
  · have page : 4096 * r / 4096 = r ∧ (4096 * r + 4) / 4096 = r ∧ 4096 * r % 4 = 0 ∧ (4096 * r + 4) % 4 = 0 ∧ 4096 * r % 4096 = 0 ∧
        (4096 * r + 4) % 4096 = 4 ∧ ¬ 1023 < r := by omega
    obtain ⟨p1, p2, a1, a2, o1, o2, low⟩ := page
    constructor
    · simp [exec, execRegisterWrite, live, writeDoorbell, execSqTailWrite, low, a1]
    · simp [exec, execRegisterWrite, live, writeDoorbell, execCqHeadWrite, p2, a2, o2, low]
  · simp only [exec, execRegisterWrite, live, Bool.not_true, Bool.false_eq_true, if_false]
    rcases bad with ⟨rfl, h4, h8⟩ | ⟨rfl, h⟩ | ⟨rfl, h⟩ | ⟨rfl, h⟩ | rfl
    · simp [h4, h8, setHifErr]
    · have : off % 8 ≠ 0 := by omega
      simp [h, this, setHifErr]
    · simp [h, setHifErr]
    · simp [h, setHifErr]
    · simp [setHifErr]

end Sys2Proof.Machine
end

section
/-! PROOFS. Snapshots, profiling and tracing. -/
namespace Sys2Proof.Machine

@[simp] theorem ite_obs_snapDone {c : Prop} [Decidable c] (a b : State) :
    (if c then a else b).obs.snapDone = if c then a.obs.snapDone else b.obs.snapDone := apply_ite (fun s : State => s.obs.snapDone) c a b

@[simp] theorem foldl_obs_snapDone {α : Type} {f : State → α → State} (same : ∀ s a, (f s a).obs.snapDone = s.obs.snapDone) (l : List α) (s : State) :
    (l.foldl f s).obs.snapDone = s.obs.snapDone := by
  induction l generalizing s with
  | nil => rfl
  | cons a l ih => exact (ih (f s a)).trans (same s a)

@[simp] theorem forEach_obs_snapDone {f : Nat → State → State} (same : ∀ n s, (f n s).obs.snapDone = s.obs.snapDone) (l : List Nat) (s : State) :
    (forEach l f s).obs.snapDone = s.obs.snapDone :=
  foldl_obs_snapDone (fun s n => same n s) l s

@[simp] theorem mirrorPush_obs_snapDone (k num : Nat) (b : List Byte) (s : State) : (mirrorPush k num b s).obs.snapDone = s.obs.snapDone := congrArg (·.snapDone) (mirrorPush_done k num b s).obs

@[simp] theorem mirrorConfig_obs_snapDone (op target : Nat) (inl data : List Byte) (s : State) : (mirrorConfig op target inl data s).obs.snapDone = s.obs.snapDone := congrArg (·.snapDone) (mirrorConfig_done op target inl data s).obs

@[simp] theorem mirrorCmd_obs_snapDone (c : Cmd) (st : Status) (s : State) : (mirrorCmd c st s).obs.snapDone = s.obs.snapDone := congrArg (·.snapDone) (mirrorCmd_done c st s).obs

@[simp] theorem profEvent_obs_snapDone (ev inst n : Nat) (s : State) : (profEvent ev inst n s).obs.snapDone = s.obs.snapDone := congrArg (·.snapDone) (profEvent_done ev inst n s).obs

@[simp] theorem loseEvent_obs_snapDone (s : State) : (loseEvent s).obs.snapDone = s.obs.snapDone := congrArg (·.snapDone) (loseEvent_keeps s).obs

@[simp] theorem hostWrite_obs_snapDone (addr : Nat) (bytes : List Byte) (s : State) : (hostWrite addr bytes s).obs.snapDone = s.obs.snapDone := congrArg (·.snapDone) (hostWrite_keeps addr bytes s).obs

@[simp] theorem msixFire_obs_snapDone (v : Nat) (s : State) : (msixFire v s).obs.snapDone = s.obs.snapDone := congrArg (·.snapDone) (msixFire_keeps v s).obs

@[simp] theorem msixCount_obs_snapDone (v count n : Nat) (s : State) : (msixCount v count n s).obs.snapDone = s.obs.snapDone := congrArg (·.snapDone) (msixCount_keeps v count n s).obs

@[simp] theorem evqWrite_obs_snapDone (e : Event) (s : State) : (evqWrite e s).obs.snapDone = s.obs.snapDone := congrArg (·.snapDone) (evqWrite_keeps e s).obs

@[simp] theorem evqDrain_obs_snapDone (l : List Event) (s : State) : (evqDrain l s).2.obs.snapDone = s.obs.snapDone := by
  induction l generalizing s with
  | nil => rfl
  | cons e r ih =>
    unfold evqDrain
    split
    · rw [ih, evqWrite_obs_snapDone]
    · rfl

@[simp] theorem setHifErr_obs_snapDone (bits : BitVec 7) (s : State) : (setHifErr bits s).obs.snapDone = s.obs.snapDone := congrArg (·.snapDone) (setHifErr_keeps bits s).obs

@[simp] theorem deliverEvents_obs_snapDone (s : State) : (deliverEvents s).obs.snapDone = s.obs.snapDone := congrArg (·.snapDone) (deliverEvents_keeps s).obs

@[simp] theorem postEvent_obs_snapDone (e : Event) (s : State) : (postEvent e s).obs.snapDone = s.obs.snapDone := congrArg (·.snapDone) (postEvent_keeps e s).obs

@[simp] theorem post_obs_snapDone (code sev obj detail : Nat) (s : State) : (post code sev obj detail s).obs.snapDone = s.obs.snapDone := congrArg (·.snapDone) (post_keeps code sev obj detail s).obs

@[simp] theorem ringError_obs_snapDone (r cause : Nat) (s : State) : (ringError r cause s).obs.snapDone = s.obs.snapDone := congrArg (·.snapDone) (ringError_keeps r cause s).obs

@[simp] theorem writeCompletion_obs_snapDone (c : Completion) (s : State) : (writeCompletion c s).obs.snapDone = s.obs.snapDone := congrArg (·.snapDone) (writeCompletion_keeps c s).obs

@[simp] theorem finishOne_obs_snapDone (id : Nat) (st : Status) (r0 r1 : BitVec 64) (eff : Bool) (s : State) : (finishOne id st r0 r1 eff s).obs.snapDone = s.obs.snapDone := congrArg (·.snapDone) (finishOne_done id st r0 r1 eff s).obs

@[simp] theorem settleDeletes_obs_snapDone (n : Nat) (s : State) : (settleDeletes n s).obs.snapDone = s.obs.snapDone := by
  induction n generalizing s with
  | zero => rfl
  | succ n ih =>
    unfold settleDeletes
    split
    · rfl
    · rw [ih, finishOne_obs_snapDone]
      rfl

@[simp] theorem finish_obs_snapDone (id : Nat) (st : Status) (r0 r1 : BitVec 64) (eff : Bool) (s : State) : (finish id st r0 r1 eff s).obs.snapDone = s.obs.snapDone := congrArg (·.snapDone) (finish_done id st r0 r1 eff s).obs

@[simp] theorem clearWraps_obs_snapDone (s : State) : (clearWraps s).obs.snapDone = s.obs.snapDone := (rfl)

@[simp] theorem ite_obs_snapSeq {c : Prop} [Decidable c] (a b : State) :
    (if c then a else b).obs.snapSeq = if c then a.obs.snapSeq else b.obs.snapSeq := apply_ite (fun s : State => s.obs.snapSeq) c a b

@[simp] theorem foldl_obs_snapSeq {α : Type} {f : State → α → State} (same : ∀ s a, (f s a).obs.snapSeq = s.obs.snapSeq) (l : List α) (s : State) :
    (l.foldl f s).obs.snapSeq = s.obs.snapSeq := by
  induction l generalizing s with
  | nil => rfl
  | cons a l ih => exact (ih (f s a)).trans (same s a)

@[simp] theorem forEach_obs_snapSeq {f : Nat → State → State} (same : ∀ n s, (f n s).obs.snapSeq = s.obs.snapSeq) (l : List Nat) (s : State) :
    (forEach l f s).obs.snapSeq = s.obs.snapSeq :=
  foldl_obs_snapSeq (fun s n => same n s) l s

@[simp] theorem mirrorPush_obs_snapSeq (k num : Nat) (b : List Byte) (s : State) : (mirrorPush k num b s).obs.snapSeq = s.obs.snapSeq := congrArg (·.snapSeq) (mirrorPush_done k num b s).obs

@[simp] theorem mirrorConfig_obs_snapSeq (op target : Nat) (inl data : List Byte) (s : State) : (mirrorConfig op target inl data s).obs.snapSeq = s.obs.snapSeq := congrArg (·.snapSeq) (mirrorConfig_done op target inl data s).obs

@[simp] theorem mirrorCmd_obs_snapSeq (c : Cmd) (st : Status) (s : State) : (mirrorCmd c st s).obs.snapSeq = s.obs.snapSeq := congrArg (·.snapSeq) (mirrorCmd_done c st s).obs

@[simp] theorem profEvent_obs_snapSeq (ev inst n : Nat) (s : State) : (profEvent ev inst n s).obs.snapSeq = s.obs.snapSeq := congrArg (·.snapSeq) (profEvent_done ev inst n s).obs

@[simp] theorem loseEvent_obs_snapSeq (s : State) : (loseEvent s).obs.snapSeq = s.obs.snapSeq := congrArg (·.snapSeq) (loseEvent_keeps s).obs

@[simp] theorem hostWrite_obs_snapSeq (addr : Nat) (bytes : List Byte) (s : State) : (hostWrite addr bytes s).obs.snapSeq = s.obs.snapSeq := congrArg (·.snapSeq) (hostWrite_keeps addr bytes s).obs

@[simp] theorem msixFire_obs_snapSeq (v : Nat) (s : State) : (msixFire v s).obs.snapSeq = s.obs.snapSeq := congrArg (·.snapSeq) (msixFire_keeps v s).obs

@[simp] theorem msixCount_obs_snapSeq (v count n : Nat) (s : State) : (msixCount v count n s).obs.snapSeq = s.obs.snapSeq := congrArg (·.snapSeq) (msixCount_keeps v count n s).obs

@[simp] theorem evqWrite_obs_snapSeq (e : Event) (s : State) : (evqWrite e s).obs.snapSeq = s.obs.snapSeq := congrArg (·.snapSeq) (evqWrite_keeps e s).obs

@[simp] theorem evqDrain_obs_snapSeq (l : List Event) (s : State) : (evqDrain l s).2.obs.snapSeq = s.obs.snapSeq := by
  induction l generalizing s with
  | nil => rfl
  | cons e r ih =>
    unfold evqDrain
    split
    · rw [ih, evqWrite_obs_snapSeq]
    · rfl

@[simp] theorem setHifErr_obs_snapSeq (bits : BitVec 7) (s : State) : (setHifErr bits s).obs.snapSeq = s.obs.snapSeq := congrArg (·.snapSeq) (setHifErr_keeps bits s).obs

@[simp] theorem deliverEvents_obs_snapSeq (s : State) : (deliverEvents s).obs.snapSeq = s.obs.snapSeq := congrArg (·.snapSeq) (deliverEvents_keeps s).obs

@[simp] theorem postEvent_obs_snapSeq (e : Event) (s : State) : (postEvent e s).obs.snapSeq = s.obs.snapSeq := congrArg (·.snapSeq) (postEvent_keeps e s).obs

@[simp] theorem post_obs_snapSeq (code sev obj detail : Nat) (s : State) : (post code sev obj detail s).obs.snapSeq = s.obs.snapSeq := congrArg (·.snapSeq) (post_keeps code sev obj detail s).obs

@[simp] theorem ringError_obs_snapSeq (r cause : Nat) (s : State) : (ringError r cause s).obs.snapSeq = s.obs.snapSeq := congrArg (·.snapSeq) (ringError_keeps r cause s).obs

@[simp] theorem writeCompletion_obs_snapSeq (c : Completion) (s : State) : (writeCompletion c s).obs.snapSeq = s.obs.snapSeq := congrArg (·.snapSeq) (writeCompletion_keeps c s).obs

@[simp] theorem finishOne_obs_snapSeq (id : Nat) (st : Status) (r0 r1 : BitVec 64) (eff : Bool) (s : State) : (finishOne id st r0 r1 eff s).obs.snapSeq = s.obs.snapSeq := congrArg (·.snapSeq) (finishOne_done id st r0 r1 eff s).obs

@[simp] theorem settleDeletes_obs_snapSeq (n : Nat) (s : State) : (settleDeletes n s).obs.snapSeq = s.obs.snapSeq := by
  induction n generalizing s with
  | zero => rfl
  | succ n ih =>
    unfold settleDeletes
    split
    · rfl
    · rw [ih, finishOne_obs_snapSeq]
      rfl

@[simp] theorem finish_obs_snapSeq (id : Nat) (st : Status) (r0 r1 : BitVec 64) (eff : Bool) (s : State) : (finish id st r0 r1 eff s).obs.snapSeq = s.obs.snapSeq := congrArg (·.snapSeq) (finish_done id st r0 r1 eff s).obs

@[simp] theorem clearWraps_obs_snapSeq (s : State) : (clearWraps s).obs.snapSeq = s.obs.snapSeq := (rfl)

@[simp] theorem ite_obs_snapRun {c : Prop} [Decidable c] (a b : State) :
    (if c then a else b).obs.snapRun = if c then a.obs.snapRun else b.obs.snapRun := apply_ite (fun s : State => s.obs.snapRun) c a b

@[simp] theorem foldl_obs_snapRun {α : Type} {f : State → α → State} (same : ∀ s a, (f s a).obs.snapRun = s.obs.snapRun) (l : List α) (s : State) :
    (l.foldl f s).obs.snapRun = s.obs.snapRun := by
  induction l generalizing s with
  | nil => rfl
  | cons a l ih => exact (ih (f s a)).trans (same s a)

@[simp] theorem forEach_obs_snapRun {f : Nat → State → State} (same : ∀ n s, (f n s).obs.snapRun = s.obs.snapRun) (l : List Nat) (s : State) :
    (forEach l f s).obs.snapRun = s.obs.snapRun :=
  foldl_obs_snapRun (fun s n => same n s) l s

@[simp] theorem mirrorPush_obs_snapRun (k num : Nat) (b : List Byte) (s : State) : (mirrorPush k num b s).obs.snapRun = s.obs.snapRun := congrArg (·.snapRun) (mirrorPush_done k num b s).obs

@[simp] theorem mirrorConfig_obs_snapRun (op target : Nat) (inl data : List Byte) (s : State) : (mirrorConfig op target inl data s).obs.snapRun = s.obs.snapRun := congrArg (·.snapRun) (mirrorConfig_done op target inl data s).obs

@[simp] theorem mirrorCmd_obs_snapRun (c : Cmd) (st : Status) (s : State) : (mirrorCmd c st s).obs.snapRun = s.obs.snapRun := congrArg (·.snapRun) (mirrorCmd_done c st s).obs

@[simp] theorem profEvent_obs_snapRun (ev inst n : Nat) (s : State) : (profEvent ev inst n s).obs.snapRun = s.obs.snapRun := congrArg (·.snapRun) (profEvent_done ev inst n s).obs

@[simp] theorem loseEvent_obs_snapRun (s : State) : (loseEvent s).obs.snapRun = s.obs.snapRun := congrArg (·.snapRun) (loseEvent_keeps s).obs

@[simp] theorem hostWrite_obs_snapRun (addr : Nat) (bytes : List Byte) (s : State) : (hostWrite addr bytes s).obs.snapRun = s.obs.snapRun := congrArg (·.snapRun) (hostWrite_keeps addr bytes s).obs

@[simp] theorem msixFire_obs_snapRun (v : Nat) (s : State) : (msixFire v s).obs.snapRun = s.obs.snapRun := congrArg (·.snapRun) (msixFire_keeps v s).obs

@[simp] theorem msixCount_obs_snapRun (v count n : Nat) (s : State) : (msixCount v count n s).obs.snapRun = s.obs.snapRun := congrArg (·.snapRun) (msixCount_keeps v count n s).obs

@[simp] theorem evqWrite_obs_snapRun (e : Event) (s : State) : (evqWrite e s).obs.snapRun = s.obs.snapRun := congrArg (·.snapRun) (evqWrite_keeps e s).obs

@[simp] theorem evqDrain_obs_snapRun (l : List Event) (s : State) : (evqDrain l s).2.obs.snapRun = s.obs.snapRun := by
  induction l generalizing s with
  | nil => rfl
  | cons e r ih =>
    unfold evqDrain
    split
    · rw [ih, evqWrite_obs_snapRun]
    · rfl

@[simp] theorem setHifErr_obs_snapRun (bits : BitVec 7) (s : State) : (setHifErr bits s).obs.snapRun = s.obs.snapRun := congrArg (·.snapRun) (setHifErr_keeps bits s).obs

@[simp] theorem deliverEvents_obs_snapRun (s : State) : (deliverEvents s).obs.snapRun = s.obs.snapRun := congrArg (·.snapRun) (deliverEvents_keeps s).obs

@[simp] theorem postEvent_obs_snapRun (e : Event) (s : State) : (postEvent e s).obs.snapRun = s.obs.snapRun := congrArg (·.snapRun) (postEvent_keeps e s).obs

@[simp] theorem post_obs_snapRun (code sev obj detail : Nat) (s : State) : (post code sev obj detail s).obs.snapRun = s.obs.snapRun := congrArg (·.snapRun) (post_keeps code sev obj detail s).obs

@[simp] theorem ringError_obs_snapRun (r cause : Nat) (s : State) : (ringError r cause s).obs.snapRun = s.obs.snapRun := congrArg (·.snapRun) (ringError_keeps r cause s).obs

@[simp] theorem writeCompletion_obs_snapRun (c : Completion) (s : State) : (writeCompletion c s).obs.snapRun = s.obs.snapRun := congrArg (·.snapRun) (writeCompletion_keeps c s).obs

@[simp] theorem finishOne_obs_snapRun (id : Nat) (st : Status) (r0 r1 : BitVec 64) (eff : Bool) (s : State) : (finishOne id st r0 r1 eff s).obs.snapRun = s.obs.snapRun := congrArg (·.snapRun) (finishOne_done id st r0 r1 eff s).obs

@[simp] theorem settleDeletes_obs_snapRun (n : Nat) (s : State) : (settleDeletes n s).obs.snapRun = s.obs.snapRun := by
  induction n generalizing s with
  | zero => rfl
  | succ n ih =>
    unfold settleDeletes
    split
    · rfl
    · rw [ih, finishOne_obs_snapRun]
      rfl

@[simp] theorem finish_obs_snapRun (id : Nat) (st : Status) (r0 r1 : BitVec 64) (eff : Bool) (s : State) : (finish id st r0 r1 eff s).obs.snapRun = s.obs.snapRun := congrArg (·.snapRun) (finish_done id st r0 r1 eff s).obs

@[simp] theorem clearWraps_obs_snapRun (s : State) : (clearWraps s).obs.snapRun = s.obs.snapRun := (rfl)

@[simp] theorem ite_obs_snapWait {c : Prop} [Decidable c] (a b : State) :
    (if c then a else b).obs.snapWait = if c then a.obs.snapWait else b.obs.snapWait := apply_ite (fun s : State => s.obs.snapWait) c a b

@[simp] theorem foldl_obs_snapWait {α : Type} {f : State → α → State} (same : ∀ s a, (f s a).obs.snapWait = s.obs.snapWait) (l : List α) (s : State) :
    (l.foldl f s).obs.snapWait = s.obs.snapWait := by
  induction l generalizing s with
  | nil => rfl
  | cons a l ih => exact (ih (f s a)).trans (same s a)

@[simp] theorem forEach_obs_snapWait {f : Nat → State → State} (same : ∀ n s, (f n s).obs.snapWait = s.obs.snapWait) (l : List Nat) (s : State) :
    (forEach l f s).obs.snapWait = s.obs.snapWait :=
  foldl_obs_snapWait (fun s n => same n s) l s

@[simp] theorem clearWraps_obs_snapWait (s : State) : (clearWraps s).obs.snapWait = s.obs.snapWait := (rfl)

@[simp] theorem clearWraps_hostLog (s : State) : (clearWraps s).hostLog = s.hostLog := by
  simp [clearWraps]

@[simp] theorem modChannel_hostLog (k : Nat) (f : Channel → Channel) (s : State) : (modChannel k f s).hostLog = s.hostLog := (rfl)

@[simp] theorem modStack_hostLog (m : Nat) (f : Stack → Stack) (s : State) : (modStack m f s).hostLog = s.hostLog := (rfl)

@[simp] theorem markOverdue_hostLog (k : Nat) (s : State) : (markOverdue k s).hostLog = s.hostLog := by
  simp [markOverdue]

@[simp] theorem ite_fl {c : Prop} [Decidable c] (a b : State) :
    (if c then a else b).fl = if c then a.fl else b.fl := apply_ite (fun s : State => s.fl) c a b

@[simp] theorem foldl_fl {α : Type} {f : State → α → State} (same : ∀ s a, (f s a).fl = s.fl) (l : List α) (s : State) :
    (l.foldl f s).fl = s.fl := by
  induction l generalizing s with
  | nil => rfl
  | cons a l ih => exact (ih (f s a)).trans (same s a)

@[simp] theorem forEach_fl {f : Nat → State → State} (same : ∀ n s, (f n s).fl = s.fl) (l : List Nat) (s : State) :
    (forEach l f s).fl = s.fl :=
  foldl_fl (fun s n => same n s) l s

@[simp] theorem clearWraps_fl (s : State) : (clearWraps s).fl = s.fl := by
  simp [clearWraps]

@[simp] theorem modChannel_fl (k : Nat) (f : Channel → Channel) (s : State) : (modChannel k f s).fl = s.fl := (rfl)

@[simp] theorem modStack_fl (m : Nat) (f : Stack → Stack) (s : State) : (modStack m f s).fl = s.fl := (rfl)

@[simp] theorem markOverdue_fl (k : Nat) (s : State) : (markOverdue k s).fl = s.fl := by
  simp [markOverdue]

@[simp] theorem modChannel_obs (k : Nat) (f : Channel → Channel) (s : State) : (modChannel k f s).obs = s.obs := (rfl)

@[simp] theorem modStack_obs (m : Nat) (f : Stack → Stack) (s : State) : (modStack m f s).obs = s.obs := (rfl)

@[simp] theorem markOverdue_obs (k : Nat) (s : State) : (markOverdue k s).obs = s.obs := by
  simp [markOverdue]

@[simp] theorem modChannel_ports (k : Nat) (f : Channel → Channel) (s : State) : (modChannel k f s).ports = s.ports := (rfl)

@[simp] theorem modStack_ports (m : Nat) (f : Stack → Stack) (s : State) : (modStack m f s).ports = s.ports := (rfl)

@[simp] theorem markOverdue_ports (k : Nat) (s : State) : (markOverdue k s).ports = s.ports := by
  simp [markOverdue]

@[simp] theorem modChannel_lanes (k : Nat) (f : Channel → Channel) (s : State) : (modChannel k f s).lanes = s.lanes := (rfl)

@[simp] theorem modStack_lanes (m : Nat) (f : Stack → Stack) (s : State) : (modStack m f s).lanes = s.lanes := (rfl)

@[simp] theorem markOverdue_lanes (k : Nat) (s : State) : (markOverdue k s).lanes = s.lanes := by
  simp [markOverdue]

@[simp] theorem modChannel_tbl (k : Nat) (f : Channel → Channel) (s : State) : (modChannel k f s).tbl = s.tbl := (rfl)

@[simp] theorem modStack_tbl (m : Nat) (f : Stack → Stack) (s : State) : (modStack m f s).tbl = s.tbl := (rfl)

@[simp] theorem markOverdue_tbl (k : Nat) (s : State) : (markOverdue k s).tbl = s.tbl := by
  simp [markOverdue]

@[simp] theorem ite_obs_trUnposted {c : Prop} [Decidable c] (a b : State) :
    (if c then a else b).obs.trUnposted = if c then a.obs.trUnposted else b.obs.trUnposted := apply_ite (fun s : State => s.obs.trUnposted) c a b

@[simp] theorem foldl_obs_trUnposted {α : Type} {f : State → α → State} (same : ∀ s a, (f s a).obs.trUnposted = s.obs.trUnposted) (l : List α) (s : State) :
    (l.foldl f s).obs.trUnposted = s.obs.trUnposted := by
  induction l generalizing s with
  | nil => rfl
  | cons a l ih => exact (ih (f s a)).trans (same s a)

@[simp] theorem forEach_obs_trUnposted {f : Nat → State → State} (same : ∀ n s, (f n s).obs.trUnposted = s.obs.trUnposted) (l : List Nat) (s : State) :
    (forEach l f s).obs.trUnposted = s.obs.trUnposted :=
  foldl_obs_trUnposted (fun s n => same n s) l s

@[simp] theorem loseEvent_obs_trUnposted (s : State) : (loseEvent s).obs.trUnposted = s.obs.trUnposted := congrArg (·.trUnposted) (loseEvent_keeps s).obs

@[simp] theorem hostWrite_obs_trUnposted (addr : Nat) (bytes : List Byte) (s : State) : (hostWrite addr bytes s).obs.trUnposted = s.obs.trUnposted := congrArg (·.trUnposted) (hostWrite_keeps addr bytes s).obs

@[simp] theorem msixFire_obs_trUnposted (v : Nat) (s : State) : (msixFire v s).obs.trUnposted = s.obs.trUnposted := congrArg (·.trUnposted) (msixFire_keeps v s).obs

@[simp] theorem msixCount_obs_trUnposted (v count n : Nat) (s : State) : (msixCount v count n s).obs.trUnposted = s.obs.trUnposted := congrArg (·.trUnposted) (msixCount_keeps v count n s).obs

@[simp] theorem evqWrite_obs_trUnposted (e : Event) (s : State) : (evqWrite e s).obs.trUnposted = s.obs.trUnposted := congrArg (·.trUnposted) (evqWrite_keeps e s).obs

@[simp] theorem evqDrain_obs_trUnposted (l : List Event) (s : State) : (evqDrain l s).2.obs.trUnposted = s.obs.trUnposted := by
  induction l generalizing s with
  | nil => rfl
  | cons e r ih =>
    unfold evqDrain
    split
    · rw [ih, evqWrite_obs_trUnposted]
    · rfl

@[simp] theorem setHifErr_obs_trUnposted (bits : BitVec 7) (s : State) : (setHifErr bits s).obs.trUnposted = s.obs.trUnposted := congrArg (·.trUnposted) (setHifErr_keeps bits s).obs

@[simp] theorem deliverEvents_obs_trUnposted (s : State) : (deliverEvents s).obs.trUnposted = s.obs.trUnposted := congrArg (·.trUnposted) (deliverEvents_keeps s).obs

@[simp] theorem postEvent_obs_trUnposted (e : Event) (s : State) : (postEvent e s).obs.trUnposted = s.obs.trUnposted := congrArg (·.trUnposted) (postEvent_keeps e s).obs

@[simp] theorem post_obs_trUnposted (code sev obj detail : Nat) (s : State) : (post code sev obj detail s).obs.trUnposted = s.obs.trUnposted := congrArg (·.trUnposted) (post_keeps code sev obj detail s).obs

@[simp] theorem ite_obs_trPostAt {c : Prop} [Decidable c] (a b : State) :
    (if c then a else b).obs.trPostAt = if c then a.obs.trPostAt else b.obs.trPostAt := apply_ite (fun s : State => s.obs.trPostAt) c a b

@[simp] theorem foldl_obs_trPostAt {α : Type} {f : State → α → State} (same : ∀ s a, (f s a).obs.trPostAt = s.obs.trPostAt) (l : List α) (s : State) :
    (l.foldl f s).obs.trPostAt = s.obs.trPostAt := by
  induction l generalizing s with
  | nil => rfl
  | cons a l ih => exact (ih (f s a)).trans (same s a)

@[simp] theorem forEach_obs_trPostAt {f : Nat → State → State} (same : ∀ n s, (f n s).obs.trPostAt = s.obs.trPostAt) (l : List Nat) (s : State) :
    (forEach l f s).obs.trPostAt = s.obs.trPostAt :=
  foldl_obs_trPostAt (fun s n => same n s) l s

@[simp] theorem loseEvent_obs_trPostAt (s : State) : (loseEvent s).obs.trPostAt = s.obs.trPostAt := congrArg (·.trPostAt) (loseEvent_keeps s).obs

@[simp] theorem hostWrite_obs_trPostAt (addr : Nat) (bytes : List Byte) (s : State) : (hostWrite addr bytes s).obs.trPostAt = s.obs.trPostAt := congrArg (·.trPostAt) (hostWrite_keeps addr bytes s).obs

@[simp] theorem msixFire_obs_trPostAt (v : Nat) (s : State) : (msixFire v s).obs.trPostAt = s.obs.trPostAt := congrArg (·.trPostAt) (msixFire_keeps v s).obs

@[simp] theorem msixCount_obs_trPostAt (v count n : Nat) (s : State) : (msixCount v count n s).obs.trPostAt = s.obs.trPostAt := congrArg (·.trPostAt) (msixCount_keeps v count n s).obs

@[simp] theorem evqWrite_obs_trPostAt (e : Event) (s : State) : (evqWrite e s).obs.trPostAt = s.obs.trPostAt := congrArg (·.trPostAt) (evqWrite_keeps e s).obs

@[simp] theorem evqDrain_obs_trPostAt (l : List Event) (s : State) : (evqDrain l s).2.obs.trPostAt = s.obs.trPostAt := by
  induction l generalizing s with
  | nil => rfl
  | cons e r ih =>
    unfold evqDrain
    split
    · rw [ih, evqWrite_obs_trPostAt]
    · rfl

@[simp] theorem setHifErr_obs_trPostAt (bits : BitVec 7) (s : State) : (setHifErr bits s).obs.trPostAt = s.obs.trPostAt := congrArg (·.trPostAt) (setHifErr_keeps bits s).obs

@[simp] theorem deliverEvents_obs_trPostAt (s : State) : (deliverEvents s).obs.trPostAt = s.obs.trPostAt := congrArg (·.trPostAt) (deliverEvents_keeps s).obs

@[simp] theorem postEvent_obs_trPostAt (e : Event) (s : State) : (postEvent e s).obs.trPostAt = s.obs.trPostAt := congrArg (·.trPostAt) (postEvent_keeps e s).obs

@[simp] theorem post_obs_trPostAt (code sev obj detail : Nat) (s : State) : (post code sev obj detail s).obs.trPostAt = s.obs.trPostAt := congrArg (·.trPostAt) (post_keeps code sev obj detail s).obs

@[simp] theorem ite_obs_trLost {c : Prop} [Decidable c] (a b : State) :
    (if c then a else b).obs.trLost = if c then a.obs.trLost else b.obs.trLost := apply_ite (fun s : State => s.obs.trLost) c a b

@[simp] theorem foldl_obs_trLost {α : Type} {f : State → α → State} (same : ∀ s a, (f s a).obs.trLost = s.obs.trLost) (l : List α) (s : State) :
    (l.foldl f s).obs.trLost = s.obs.trLost := by
  induction l generalizing s with
  | nil => rfl
  | cons a l ih => exact (ih (f s a)).trans (same s a)

@[simp] theorem forEach_obs_trLost {f : Nat → State → State} (same : ∀ n s, (f n s).obs.trLost = s.obs.trLost) (l : List Nat) (s : State) :
    (forEach l f s).obs.trLost = s.obs.trLost :=
  foldl_obs_trLost (fun s n => same n s) l s

@[simp] theorem loseEvent_obs_trLost (s : State) : (loseEvent s).obs.trLost = s.obs.trLost := congrArg (·.trLost) (loseEvent_keeps s).obs

@[simp] theorem hostWrite_obs_trLost (addr : Nat) (bytes : List Byte) (s : State) : (hostWrite addr bytes s).obs.trLost = s.obs.trLost := congrArg (·.trLost) (hostWrite_keeps addr bytes s).obs

@[simp] theorem msixFire_obs_trLost (v : Nat) (s : State) : (msixFire v s).obs.trLost = s.obs.trLost := congrArg (·.trLost) (msixFire_keeps v s).obs

@[simp] theorem msixCount_obs_trLost (v count n : Nat) (s : State) : (msixCount v count n s).obs.trLost = s.obs.trLost := congrArg (·.trLost) (msixCount_keeps v count n s).obs

@[simp] theorem evqWrite_obs_trLost (e : Event) (s : State) : (evqWrite e s).obs.trLost = s.obs.trLost := congrArg (·.trLost) (evqWrite_keeps e s).obs

@[simp] theorem evqDrain_obs_trLost (l : List Event) (s : State) : (evqDrain l s).2.obs.trLost = s.obs.trLost := by
  induction l generalizing s with
  | nil => rfl
  | cons e r ih =>
    unfold evqDrain
    split
    · rw [ih, evqWrite_obs_trLost]
    · rfl

@[simp] theorem setHifErr_obs_trLost (bits : BitVec 7) (s : State) : (setHifErr bits s).obs.trLost = s.obs.trLost := congrArg (·.trLost) (setHifErr_keeps bits s).obs

@[simp] theorem deliverEvents_obs_trLost (s : State) : (deliverEvents s).obs.trLost = s.obs.trLost := congrArg (·.trLost) (deliverEvents_keeps s).obs

@[simp] theorem postEvent_obs_trLost (e : Event) (s : State) : (postEvent e s).obs.trLost = s.obs.trLost := congrArg (·.trLost) (postEvent_keeps e s).obs

@[simp] theorem post_obs_trLost (code sev obj detail : Nat) (s : State) : (post code sev obj detail s).obs.trLost = s.obs.trLost := congrArg (·.trLost) (post_keeps code sev obj detail s).obs

@[simp] theorem traceBad_begun (c : Cmd) (s : State) : traceBad (c.begun s) = traceBad c := rfl

/-- What the completion of a snapshot without a copy leaves before it completes its command. -/
def snapEnded (r : SnapRun) (h : SnapHead) (s : State) : State :=
  let s := forEach (s.mem.channels.map (·.1)) markOverdue s
  let s := s.mapObs fun o => { o with snapRun := none, snapDone := o.snapSeq, snapImage := snapImageOf s, snapHead := h }
  if r.clear then clearWraps s else s

theorem snapEnded_sequence (r : SnapRun) (h : SnapHead) (s : State) :
    (snapEnded r h s).obs.snapDone = s.obs.snapSeq ∧ (snapEnded r h s).obs.snapSeq = s.obs.snapSeq ∧ (snapEnded r h s).obs.snapRun = none ∧
      (snapEnded r h s).obs.snapWait = s.obs.snapWait ∧ (snapEnded r h s).hostLog = s.hostLog ∧ (snapEnded r h s).fl = s.fl := by
  unfold snapEnded
  dsimp only
  split <;> simp

theorem snapEnded_unclear {r : SnapRun} (h : SnapHead) (s : State) (keep : r.clear = false) :
    (snapEnded r h s).ports = s.ports ∧ (snapEnded r h s).lanes = s.lanes ∧ (snapEnded r h s).tbl = s.tbl := by
  simp [snapEnded, keep]

theorem snapNext_of_none {s : State} (h : s.obs.snapWait = []) : snapNext s = s := by simp [snapNext, h]

/-- The times that a completed snapshot carries. -/
def snapHeadOf (r : SnapRun) (s : State) : SnapHead where
  startSec := r.sec
  startNs := r.ns
  endSec := if s.tim.running then s.tim.sec else 0
  endNs := if s.tim.running then s.tim.ns else 0
  capFrac := if s.tim.running then s.tim.frac else 0
  clock := r.clock && s.tim.running

theorem snapshotComplete_runs {r : SnapRun} {s : State} (busy : s.obs.snapRun = some r) (noCopy : r.dma = false) (idle : s.obs.snapWait = []) :
    ∃ h, exec .snapshotComplete s = .next (match r.cmd with
      | none => snapEnded r h s
      | some id => finish id .success (BitVec.ofNat 64 (snapEnded r h s).obs.snapDone) 0 true (snapEnded r h s)) := by
  refine ⟨snapHeadOf r (forEach (s.mem.channels.map (·.1)) markOverdue s), ?_⟩
  simp only [exec, execSnapshotComplete, busy, noCopy, Bool.false_eq_true, if_false]
  rw [snapNext_of_none]
  · rfl
  · exact (snapEnded_sequence r _ s).2.2.2.1.trans idle

/-- Settles O23: the sequence numbers of a snapshot, from its beginning to its completion. -/
theorem snapshotRows : Obligations.SnapshotRows := by
  unfold Obligations.SnapshotRows
  refine ⟨fun id c s begins plain small idle => ?_, fun id c r s begins plain small busy => ?_, fun id c s begins plain al period allowed => ?_,
    fun s on idle => ?_, fun r s on busy => ?_, fun r s busy noCopy none => ?_⟩
  · have body : ¬ 3 < c.byte 32 := by omega
    refine ⟨_, congrArg Host.Outcome.next (runCmd_of_waiting (r := { Ran.ok (snapBegin (some id) (bitOf (c.byte 32) 0) (bitOf (c.byte 32) 1)
      (awaitEnd id [] (beginCmd id c s))) with done := false }) begins ?_ ?_ rfl), ?_, ⟨_, rfl, rfl, rfl⟩, ?_, ?_, ?_⟩
    · simp [plain, body]
    · simp [idle]
    · simp [snapBegin]
    · simp [snapBegin]
    · simp [snapBegin, awaitEnd, modCmd_cmd (beginCmd_cmd id c s)]
    · simp [snapBegin]
  · have body : ¬ 3 < c.byte 32 := by omega
    refine ⟨_, congrArg Host.Outcome.next (runCmd_of_waiting (r := { Ran.ok ((awaitEnd id [] (beginCmd id c s)).mapObs fun o =>
      { o with snapWait := o.snapWait ++ [(id, bitOf (c.byte 32) 0, bitOf (c.byte 32) 1)] }) with done := false }) begins ?_ ?_ rfl), ?_, ?_⟩
    · simp [plain, body]
    · simp [busy]
    · simp
    · simp [awaitEnd, modCmd_cmd (beginCmd_cmd id c s)]
  · have body : ¬ 10000 < c.inl 40 4 := by omega
    refine congrArg Host.Outcome.next (runCmd_of_ok begins ?_ ?_)
    · simp [plain, al, body]
    · simp [allowed, Ran.ok]
  · refine ⟨snapBegin none false true s, ?_, rfl, ⟨_, rfl, rfl, rfl⟩, rfl⟩
    simp [exec, execSnapshotPeriod, on, idle]
  · simp [exec, execSnapshotPeriod, on, busy]
  · obtain ⟨h, runs⟩ := snapshotComplete_runs busy noCopy none
    obtain ⟨done, seq, ended, -, log, flight⟩ := snapEnded_sequence r h s
    have kept := snapEnded_unclear (r := r) h s
    refine ⟨_, runs, ?_⟩
    cases cmd : r.cmd with
    | none => exact ⟨done, seq, ended, fun _ => ⟨log, flight⟩, kept⟩
    | some id =>
      have f := finish_done id .success (BitVec.ofNat 64 (snapEnded r h s).obs.snapDone) 0 true (snapEnded r h s)
      refine ⟨by simp [done], by simp [seq], by simp [ended], by simp, fun keep => ?_⟩
      obtain ⟨ports, lanes, tbl⟩ := kept keep
      exact ⟨f.ports.trans ports, f.lanes.trans lanes, f.tbl.trans tbl⟩

/-- Settles O24: each command and row is one change of the observability state. -/
theorem profilingAndTraceRows : Obligations.ProfilingAndTraceRows := by
  unfold Obligations.ProfilingAndTraceRows
  refine ⟨fun id c s begins plain small zero code always => ?_, fun id c s begins plain => ?_, fun id c s begins plain lo hi => ?_,
    fun id c b s begins plain e r1 r2 p1 p2 => ?_, fun p s ready small absent => ?_, fun id c s begins good ring always => ?_,
    fun id c s begins good port always nonzero => ?_, fun id c s begins plain => ?_, fun s some none => ?_⟩
  · have body : ¬ 3 < c.byte 32 := by omega
    refine congrArg Host.Outcome.next (runCmd_of_ok begins ?_ ?_)
    · simp [plain, body, zero, code]
    · simp [always, Ran.ok, mmod]
      rfl
  · refine congrArg Host.Outcome.next (runCmd_of_ok (t := beginCmd id c s) begins ?_ ?_)
    · simp [plain]
    · simp only [cycleCount, Cmd.begun_target, beginCmd_now, beginCmd_obs]
      rfl
  · have body : ¬ c.inl 32 4 < 100 ∧ ¬ 10000000 < c.inl 32 4 := by omega
    refine congrArg Host.Outcome.next (runCmd_of_ok begins ?_ rfl)
    simp [plain, body]
  · have whole : sat 32 b.rates.1 = b.rates.1 ∧ sat 32 b.rates.2 = b.rates.2 ∧ sat 32 b.peaks.1 = b.peaks.1 ∧ sat 32 b.peaks.2 = b.peaks.2 := by
      simp only [sat]
      omega
    refine congrArg Host.Outcome.next (runCmd_of_ok (t := beginCmd id c s) begins ?_ ?_)
    · simp [plain]
    · simp only [Cmd.begun_target, beginCmd_obs, e, whole]
  · have runs : exec (.bwWindowEnd p) s = .next (s.mapObs fun o =>
        { o with bw := mput o.bw p (bwBegin s p { mget o.bw p Bw.init with rates := (0, 0), peaks := (0, 0) }) }) := by
      have body : ¬ 255 < p := by omega
      simp [exec, execBwWindowEnd, ready, body, absent]
      rfl
    refine ⟨_, runs, ?_, ?_, ?_, ?_, rfl, rfl⟩ <;> simp [mget_mput_same, bwBegin]
  · refine congrArg Host.Outcome.next (runCmd_of_ok begins ?_ ?_)
    · simp [good]
    · simp [always, ring, Ran.ok]
  · refine congrArg Host.Outcome.next (runCmd_of_ok begins ?_ ?_)
    · simp [good]
    · simp [always, port, nonzero, Ran.ok]
  · refine congrArg Host.Outcome.next (runCmd_of_ok (t := beginCmd id c s) begins ?_ rfl)
    simp [plain]
  · have runs : exec .traceOverflow s =
        .next (post 0xC001 1 0 (sat 32 s.obs.trUnposted) (s.mapObs fun o => { o with trUnposted := 0, trPostAt := .some s.now })) := by
      simp [exec, execTraceOverflow, some, none]
    refine ⟨_, runs, ?_, ?_, ?_, ?_⟩ <;> simp

end Sys2Proof.Machine
end

section
/-! PROOFS. Power states, wakes and health. -/
namespace Sys2Proof.Machine

@[simp] theorem State_tick_boot_state (s : State) : s.tick.boot.state = s.boot.state := (rfl)

@[simp] theorem ite_boot_state {c : Prop} [Decidable c] (a b : State) :
    (if c then a else b).boot.state = if c then a.boot.state else b.boot.state := apply_ite (fun s : State => s.boot.state) c a b

@[simp] theorem foldl_boot_state {α : Type} {f : State → α → State} (same : ∀ s a, (f s a).boot.state = s.boot.state) (l : List α) (s : State) :
    (l.foldl f s).boot.state = s.boot.state := by
  induction l generalizing s with
  | nil => rfl
  | cons a l ih => exact (ih (f s a)).trans (same s a)

@[simp] theorem forEach_boot_state {f : Nat → State → State} (same : ∀ n s, (f n s).boot.state = s.boot.state) (l : List Nat) (s : State) :
    (forEach l f s).boot.state = s.boot.state :=
  foldl_boot_state (fun s n => same n s) l s

@[simp] theorem modCage_boot_state (c : Nat) (f : Cage → Cage) (s : State) : (modCage c f s).boot.state = s.boot.state := (rfl)

@[simp] theorem modPort_boot_state (p : Nat) (f : Port → Port) (s : State) : (modPort p f s).boot.state = s.boot.state := by
  unfold modPort
  split <;> simp

@[simp] theorem mirrorPush_boot_state (k num : Nat) (b : List Byte) (s : State) : (mirrorPush k num b s).boot.state = s.boot.state := congrArg (·.state) (mirrorPush_done k num b s).boot

@[simp] theorem mirrorConfig_boot_state (op target : Nat) (inl data : List Byte) (s : State) : (mirrorConfig op target inl data s).boot.state = s.boot.state := congrArg (·.state) (mirrorConfig_done op target inl data s).boot

@[simp] theorem mirrorCmd_boot_state (c : Cmd) (st : Status) (s : State) : (mirrorCmd c st s).boot.state = s.boot.state := congrArg (·.state) (mirrorCmd_done c st s).boot

@[simp] theorem profEvent_boot_state (ev inst n : Nat) (s : State) : (profEvent ev inst n s).boot.state = s.boot.state := congrArg (·.state) (profEvent_done ev inst n s).boot

@[simp] theorem loseEvent_boot_state (s : State) : (loseEvent s).boot.state = s.boot.state := congrArg (·.state) (loseEvent_keeps s).boot

@[simp] theorem hostWrite_boot_state (addr : Nat) (bytes : List Byte) (s : State) : (hostWrite addr bytes s).boot.state = s.boot.state := congrArg (·.state) (hostWrite_keeps addr bytes s).boot

@[simp] theorem msixFire_boot_state (v : Nat) (s : State) : (msixFire v s).boot.state = s.boot.state := congrArg (·.state) (msixFire_keeps v s).boot

@[simp] theorem msixCount_boot_state (v count n : Nat) (s : State) : (msixCount v count n s).boot.state = s.boot.state := congrArg (·.state) (msixCount_keeps v count n s).boot

@[simp] theorem evqWrite_boot_state (e : Event) (s : State) : (evqWrite e s).boot.state = s.boot.state := congrArg (·.state) (evqWrite_keeps e s).boot

@[simp] theorem evqDrain_boot_state (l : List Event) (s : State) : (evqDrain l s).2.boot.state = s.boot.state := by
  induction l generalizing s with
  | nil => rfl
  | cons e r ih =>
    unfold evqDrain
    split
    · rw [ih, evqWrite_boot_state]
    · rfl

@[simp] theorem setHifErr_boot_state (bits : BitVec 7) (s : State) : (setHifErr bits s).boot.state = s.boot.state := congrArg (·.state) (setHifErr_keeps bits s).boot

@[simp] theorem deliverEvents_boot_state (s : State) : (deliverEvents s).boot.state = s.boot.state := congrArg (·.state) (deliverEvents_keeps s).boot

@[simp] theorem postEvent_boot_state (e : Event) (s : State) : (postEvent e s).boot.state = s.boot.state := congrArg (·.state) (postEvent_keeps e s).boot

@[simp] theorem post_boot_state (code sev obj detail : Nat) (s : State) : (post code sev obj detail s).boot.state = s.boot.state := congrArg (·.state) (post_keeps code sev obj detail s).boot

@[simp] theorem ringError_boot_state (r cause : Nat) (s : State) : (ringError r cause s).boot.state = s.boot.state := congrArg (·.state) (ringError_keeps r cause s).boot

@[simp] theorem writeCompletion_boot_state (c : Completion) (s : State) : (writeCompletion c s).boot.state = s.boot.state := congrArg (·.state) (writeCompletion_keeps c s).boot

@[simp] theorem finishOne_boot_state (id : Nat) (st : Status) (r0 r1 : BitVec 64) (eff : Bool) (s : State) : (finishOne id st r0 r1 eff s).boot.state = s.boot.state := congrArg (·.state) (finishOne_done id st r0 r1 eff s).boot

@[simp] theorem settleDeletes_boot_state (n : Nat) (s : State) : (settleDeletes n s).boot.state = s.boot.state := by
  induction n generalizing s with
  | zero => rfl
  | succ n ih =>
    unfold settleDeletes
    split
    · rfl
    · rw [ih, finishOne_boot_state]
      rfl

@[simp] theorem finish_boot_state (id : Nat) (st : Status) (r0 r1 : BitVec 64) (eff : Bool) (s : State) : (finish id st r0 r1 eff s).boot.state = s.boot.state := congrArg (·.state) (finish_done id st r0 r1 eff s).boot

@[simp] theorem finishAll_boot_state (ids : List Nat) (st : Status) (eff : Bool) (s : State) : (finishAll ids st eff s).boot.state = s.boot.state := congrArg (·.state) (finishAll_done ids st eff s).boot

@[simp] theorem quiesceSettle_boot_state (s : State) : (quiesceSettle s).boot.state = s.boot.state := by
  unfold quiesceSettle
  split <;> simp

@[simp] theorem modLane_boot_state (n : Nat) (f : Lane → Lane) (s : State) : (modLane n f s).boot.state = s.boot.state := (rfl)

@[simp] theorem laneRampDown_boot_state (n : Nat) (stop : Bool) (s : State) : (laneRampDown n stop s).boot.state = s.boot.state := by
  unfold laneRampDown
  dsimp only
  (repeat' split) <;> simp

@[simp] theorem traceLose_boot_state (s : State) : (traceLose s).boot.state = s.boot.state := (rfl)

@[simp] theorem traceWrite_boot_state (t : Option Trace) (cause : Nat) (s : State) : (traceWrite t cause s).boot.state = s.boot.state := by
  unfold traceWrite
  dsimp only
  (repeat' split) <;> simp

@[simp] theorem causeCount_boot_state (port : Nat) (eg : Bool) (k n : Nat) (s : State) : (causeCount port eg k n s).boot.state = s.boot.state := (rfl)

@[simp] theorem modQueue_boot_state (eg : Bool) (q : Nat) (f : Queue → Queue) (s : State) : (modQueue eg q f s).boot.state = s.boot.state := by
  unfold modQueue
  split <;> simp

@[simp] theorem queueDrop_boot_state (eg : Bool) (q len : Nat) (s : State) : (queueDrop eg q len s).boot.state = s.boot.state := by
  simp [queueDrop]

@[simp] theorem dropCause_boot_state (eg : Bool) (q len k tc : Nat) (t : Option Trace) (s : State) : (dropCause eg q len k tc t s).boot.state = s.boot.state := by
  simp [dropCause]

@[simp] theorem unpick_boot_state (q : Nat) (s : State) : (unpick q s).boot.state = s.boot.state := (rfl)

@[simp] theorem requestQueue_boot_state (eg : Bool) (q : Nat) (s : State) : (requestQueue eg q s).boot.state = s.boot.state := by
  unfold requestQueue
  dsimp only
  (repeat' split) <;> simp

@[simp] theorem requestAll_boot_state (s : State) : (requestAll s).boot.state = s.boot.state := by
  simp [requestAll]

@[simp] theorem flushQueue_boot_state (eg : Bool) (q : Nat) (s : State) : (flushQueue eg q s).boot.state = s.boot.state := by
  unfold flushQueue
  (repeat' split) <;> simp

@[simp] theorem State_tick_lanes (s : State) : s.tick.lanes = s.lanes := (rfl)

@[simp] theorem State_tick_elog (s : State) : s.tick.elog = s.elog := (rfl)

@[simp] theorem postUe_elog (w : Reader) (r unit : Nat) (s : State) : (postUe w r unit s).elog = s.elog := by
  simp [postUe]

@[simp] theorem modRegion_elog (r : Nat) (f : Region → Region) (s : State) : (modRegion r f s).elog = s.elog := (rfl)

@[simp] theorem regionCount_elog (r k n : Nat) (s : State) : (regionCount r k n s).elog = s.elog := (rfl)

@[simp] theorem memUe_elog (w : Reader) (r unit : Nat) (s : State) : (memUe w r unit s).elog = s.elog := by
  simp [memUe]

@[simp] theorem geodePush_elog (rec' : List Byte) (s : State) : (geodePush rec' s).elog = s.elog := (geodePush_done rec' s).elog

@[simp] theorem geodeSend_elog (b : List Byte) (s : State) : (geodeSend b s).elog = s.elog := by
  simp [geodeSend]

@[simp] theorem modPort_elog (p : Nat) (f : Port → Port) (s : State) : (modPort p f s).elog = s.elog := by
  unfold modPort
  split <;> simp

@[simp] theorem clearFar_elog (s : State) : (clearFar s).elog = s.elog := by
  simp [clearFar]

@[simp] theorem modLane_elog (n : Nat) (f : Lane → Lane) (s : State) : (modLane n f s).elog = s.elog := (rfl)

@[simp] theorem laneRampDown_elog (n : Nat) (stop : Bool) (s : State) : (laneRampDown n stop s).elog = s.elog := by
  simp [laneRampDown]
  split <;> simp

@[simp] theorem laneRampUp_elog (n : Nat) (s : State) : (laneRampUp n s).elog = s.elog := by
  simp [laneRampUp]
  split <;> simp

@[simp] theorem setMute_elog (n : Nat) (on : Bool) (s : State) : (setMute n on s).elog = s.elog := by
  simp [setMute]

@[simp] theorem muteAll_elog (s : State) : (muteAll s).elog = s.elog := by
  simp [muteAll]

@[simp] theorem unpickAll_elog (s : State) : (unpickAll s).elog = s.elog := (rfl)

@[simp] theorem loseEpochs_elog (s : State) : (loseEpochs s).elog = s.elog := by
  simp [loseEpochs]

@[simp] theorem darkCheck_elog (s : State) : (darkCheck s).elog = s.elog := by
  unfold darkCheck
  split <;> simp

@[simp] theorem modCage_elog (c : Nat) (f : Cage → Cage) (s : State) : (modCage c f s).elog = s.elog := (rfl)

@[simp] theorem secondaryDark_elog (c : Nat) (s : State) : (secondaryDark c s).elog = s.elog := by
  simp [secondaryDark]

@[simp] theorem takeSecondary_elog (s : State) : (takeSecondary s).elog = s.elog := by
  simp [takeSecondary]

@[simp] theorem handOver_elog (o : GeoOut) (s : State) : (handOver o s).elog = s.elog := by
  simp [handOver]

@[simp] theorem failedHandOver_elog (s : State) : (failedHandOver s).elog = s.elog := by
  simp [failedHandOver]

@[simp] theorem State_tick_health (s : State) : s.tick.health = s.health := (rfl)

@[simp] theorem geodePush_health (rec' : List Byte) (s : State) : (geodePush rec' s).health = s.health := (geodePush_done rec' s).health

@[simp] theorem geodeSend_health (b : List Byte) (s : State) : (geodeSend b s).health = s.health := by
  simp [geodeSend]

@[simp] theorem modPort_health (p : Nat) (f : Port → Port) (s : State) : (modPort p f s).health = s.health := by
  unfold modPort
  split <;> simp

@[simp] theorem clearFar_health (s : State) : (clearFar s).health = s.health := by
  simp [clearFar]

@[simp] theorem modLane_health (n : Nat) (f : Lane → Lane) (s : State) : (modLane n f s).health = s.health := (rfl)

@[simp] theorem laneRampDown_health (n : Nat) (stop : Bool) (s : State) : (laneRampDown n stop s).health = s.health := by
  simp [laneRampDown]
  split <;> simp

@[simp] theorem laneRampUp_health (n : Nat) (s : State) : (laneRampUp n s).health = s.health := by
  simp [laneRampUp]
  split <;> simp

@[simp] theorem setMute_health (n : Nat) (on : Bool) (s : State) : (setMute n on s).health = s.health := by
  simp [setMute]

@[simp] theorem muteAll_health (s : State) : (muteAll s).health = s.health := by
  simp [muteAll]

@[simp] theorem unpickAll_health (s : State) : (unpickAll s).health = s.health := (rfl)

@[simp] theorem loseEpochs_health (s : State) : (loseEpochs s).health = s.health := by
  simp [loseEpochs]

@[simp] theorem darkCheck_health (s : State) : (darkCheck s).health = s.health := by
  unfold darkCheck
  split <;> simp

@[simp] theorem modCage_health (c : Nat) (f : Cage → Cage) (s : State) : (modCage c f s).health = s.health := (rfl)

@[simp] theorem secondaryDark_health (c : Nat) (s : State) : (secondaryDark c s).health = s.health := by
  simp [secondaryDark]

@[simp] theorem takeSecondary_health (s : State) : (takeSecondary s).health = s.health := by
  simp [takeSecondary]

@[simp] theorem handOver_health (o : GeoOut) (s : State) : (handOver o s).health = s.health := by
  simp [handOver]

@[simp] theorem failedHandOver_health (s : State) : (failedHandOver s).health = s.health := by
  simp [failedHandOver]

@[simp] theorem postUe_health (w : Reader) (r unit : Nat) (s : State) : (postUe w r unit s).health = s.health := by
  simp [postUe]

@[simp] theorem modRegion_health (r : Nat) (f : Region → Region) (s : State) : (modRegion r f s).health = s.health := (rfl)

@[simp] theorem regionCount_health (r k n : Nat) (s : State) : (regionCount r k n s).health = s.health := (rfl)

@[simp] theorem memUe_health (w : Reader) (r unit : Nat) (s : State) : (memUe w r unit s).health = s.health := by
  simp [memUe]

@[simp] theorem State_tick_health_causes (s : State) : s.tick.health.causes = s.health.causes := (rfl)

@[simp] theorem ite_health_causes {c : Prop} [Decidable c] (a b : State) :
    (if c then a else b).health.causes = if c then a.health.causes else b.health.causes := apply_ite (fun s : State => s.health.causes) c a b

@[simp] theorem foldl_health_causes {α : Type} {f : State → α → State} (same : ∀ s a, (f s a).health.causes = s.health.causes) (l : List α) (s : State) :
    (l.foldl f s).health.causes = s.health.causes := by
  induction l generalizing s with
  | nil => rfl
  | cons a l ih => exact (ih (f s a)).trans (same s a)

@[simp] theorem forEach_health_causes {f : Nat → State → State} (same : ∀ n s, (f n s).health.causes = s.health.causes) (l : List Nat) (s : State) :
    (forEach l f s).health.causes = s.health.causes :=
  foldl_health_causes (fun s n => same n s) l s

@[simp] theorem mirrorPush_health_causes (k num : Nat) (b : List Byte) (s : State) : (mirrorPush k num b s).health.causes = s.health.causes := congrArg (·.causes) (mirrorPush_done k num b s).health

@[simp] theorem geodePush_health_causes (rec' : List Byte) (s : State) : (geodePush rec' s).health.causes = s.health.causes := congrArg (·.causes) (geodePush_done rec' s).health

@[simp] theorem geodeSend_health_causes (b : List Byte) (s : State) : (geodeSend b s).health.causes = s.health.causes := by
  simp [geodeSend]

@[simp] theorem loseEvent_health_causes (s : State) : (loseEvent s).health.causes = s.health.causes := congrArg (·.causes) (loseEvent_keeps s).health

@[simp] theorem hostWrite_health_causes (addr : Nat) (bytes : List Byte) (s : State) : (hostWrite addr bytes s).health.causes = s.health.causes := congrArg (·.causes) (hostWrite_keeps addr bytes s).health

@[simp] theorem msixFire_health_causes (v : Nat) (s : State) : (msixFire v s).health.causes = s.health.causes := congrArg (·.causes) (msixFire_keeps v s).health

@[simp] theorem msixCount_health_causes (v count n : Nat) (s : State) : (msixCount v count n s).health.causes = s.health.causes := congrArg (·.causes) (msixCount_keeps v count n s).health

@[simp] theorem evqWrite_health_causes (e : Event) (s : State) : (evqWrite e s).health.causes = s.health.causes := congrArg (·.causes) (evqWrite_keeps e s).health

@[simp] theorem evqDrain_health_causes (l : List Event) (s : State) : (evqDrain l s).2.health.causes = s.health.causes := by
  induction l generalizing s with
  | nil => rfl
  | cons e r ih =>
    unfold evqDrain
    split
    · rw [ih, evqWrite_health_causes]
    · rfl

@[simp] theorem setHifErr_health_causes (bits : BitVec 7) (s : State) : (setHifErr bits s).health.causes = s.health.causes := congrArg (·.causes) (setHifErr_keeps bits s).health

@[simp] theorem deliverEvents_health_causes (s : State) : (deliverEvents s).health.causes = s.health.causes := congrArg (·.causes) (deliverEvents_keeps s).health

@[simp] theorem postEvent_health_causes (e : Event) (s : State) : (postEvent e s).health.causes = s.health.causes := congrArg (·.causes) (postEvent_keeps e s).health

@[simp] theorem post_health_causes (code sev obj detail : Nat) (s : State) : (post code sev obj detail s).health.causes = s.health.causes := congrArg (·.causes) (post_keeps code sev obj detail s).health

@[simp] theorem modPort_health_causes (p : Nat) (f : Port → Port) (s : State) : (modPort p f s).health.causes = s.health.causes := by
  unfold modPort
  split <;> simp

@[simp] theorem clearFar_health_causes (s : State) : (clearFar s).health.causes = s.health.causes := by
  simp [clearFar]

@[simp] theorem modLane_health_causes (n : Nat) (f : Lane → Lane) (s : State) : (modLane n f s).health.causes = s.health.causes := (rfl)

@[simp] theorem laneRampDown_health_causes (n : Nat) (stop : Bool) (s : State) : (laneRampDown n stop s).health.causes = s.health.causes := by
  simp [laneRampDown]
  split <;> simp

@[simp] theorem laneRampUp_health_causes (n : Nat) (s : State) : (laneRampUp n s).health.causes = s.health.causes := by
  unfold laneRampUp
  dsimp only
  (repeat' split) <;> simp

@[simp] theorem setMute_health_causes (n : Nat) (on : Bool) (s : State) : (setMute n on s).health.causes = s.health.causes := by
  simp [setMute]

@[simp] theorem muteAll_health_causes (s : State) : (muteAll s).health.causes = s.health.causes := by
  simp [muteAll]

@[simp] theorem unpickAll_health_causes (s : State) : (unpickAll s).health.causes = s.health.causes := (rfl)

@[simp] theorem mirrorConfig_health_causes (op target : Nat) (inl data : List Byte) (s : State) : (mirrorConfig op target inl data s).health.causes = s.health.causes := congrArg (·.causes) (mirrorConfig_done op target inl data s).health

@[simp] theorem mirrorCmd_health_causes (c : Cmd) (st : Status) (s : State) : (mirrorCmd c st s).health.causes = s.health.causes := congrArg (·.causes) (mirrorCmd_done c st s).health

@[simp] theorem profEvent_health_causes (ev inst n : Nat) (s : State) : (profEvent ev inst n s).health.causes = s.health.causes := congrArg (·.causes) (profEvent_done ev inst n s).health

@[simp] theorem ringError_health_causes (r cause : Nat) (s : State) : (ringError r cause s).health.causes = s.health.causes := congrArg (·.causes) (ringError_keeps r cause s).health

@[simp] theorem writeCompletion_health_causes (c : Completion) (s : State) : (writeCompletion c s).health.causes = s.health.causes := congrArg (·.causes) (writeCompletion_keeps c s).health

@[simp] theorem finishOne_health_causes (id : Nat) (st : Status) (r0 r1 : BitVec 64) (eff : Bool) (s : State) : (finishOne id st r0 r1 eff s).health.causes = s.health.causes := congrArg (·.causes) (finishOne_done id st r0 r1 eff s).health

@[simp] theorem settleDeletes_health_causes (n : Nat) (s : State) : (settleDeletes n s).health.causes = s.health.causes := by
  induction n generalizing s with
  | zero => rfl
  | succ n ih =>
    unfold settleDeletes
    split
    · rfl
    · rw [ih, finishOne_health_causes]
      rfl

@[simp] theorem finish_health_causes (id : Nat) (st : Status) (r0 r1 : BitVec 64) (eff : Bool) (s : State) : (finish id st r0 r1 eff s).health.causes = s.health.causes := congrArg (·.causes) (finish_done id st r0 r1 eff s).health

@[simp] theorem finishAll_health_causes (ids : List Nat) (st : Status) (eff : Bool) (s : State) : (finishAll ids st eff s).health.causes = s.health.causes := congrArg (·.causes) (finishAll_done ids st eff s).health

@[simp] theorem loseEpochs_health_causes (s : State) : (loseEpochs s).health.causes = s.health.causes := by
  simp [loseEpochs]

@[simp] theorem darkCheck_health_causes (s : State) : (darkCheck s).health.causes = s.health.causes := by
  unfold darkCheck
  split <;> simp

@[simp] theorem modCage_health_causes (c : Nat) (f : Cage → Cage) (s : State) : (modCage c f s).health.causes = s.health.causes := (rfl)

@[simp] theorem secondaryDark_health_causes (c : Nat) (s : State) : (secondaryDark c s).health.causes = s.health.causes := by
  simp [secondaryDark]

@[simp] theorem takeSecondary_health_causes (s : State) : (takeSecondary s).health.causes = s.health.causes := by
  simp [takeSecondary]

@[simp] theorem handOver_health_causes (o : GeoOut) (s : State) : (handOver o s).health.causes = s.health.causes := by
  simp [handOver]

@[simp] theorem failedHandOver_health_causes (s : State) : (failedHandOver s).health.causes = s.health.causes := by
  simp [failedHandOver]

@[simp] theorem State_tick_retn (s : State) : s.tick.retn = s.retn := (rfl)

@[simp] theorem modStack_retn (m : Nat) (f : Stack → Stack) (s : State) : (modStack m f s).retn = s.retn := (rfl)

@[simp] theorem rowError_retn (f : Found) (bad : Bool) (s : State) : (rowError f bad s).retn = s.retn := by
  simp [rowError]

@[simp] theorem modRegion_retn (r : Nat) (f : Region → Region) (s : State) : (modRegion r f s).retn = s.retn := (rfl)

@[simp] theorem memCe_retn (r : Nat) (s : State) : (memCe r s).retn = s.retn := (rfl)

@[simp] theorem postUe_retn (w : Reader) (r unit : Nat) (s : State) : (postUe w r unit s).retn = s.retn := by
  simp [postUe]

@[simp] theorem regionCount_retn (r k n : Nat) (s : State) : (regionCount r k n s).retn = s.retn := (rfl)

@[simp] theorem memUe_retn (w : Reader) (r unit : Nat) (s : State) : (memUe w r unit s).retn = s.retn := by
  simp [memUe]

@[simp] theorem cellUe_retn (cell : Nat) (s : State) : (cellUe cell s).retn = s.retn := by
  simp [cellUe]

@[simp] theorem memRead_retn (w : Reader) (f : Found) (s : State) : (memRead w f s).retn = s.retn := by
  unfold memRead
  split <;> simp

@[simp] theorem poison_retn (r u : Nat) (s : State) : (poison r u s).retn = s.retn := (rfl)

@[simp] theorem cleanse_retn (r lo hi : Nat) (s : State) : (cleanse r lo hi s).retn = s.retn := by
  simp [cleanse]

@[simp] theorem writeWord_retn (r u : Nat) (bytes : List Byte) (bad : Bool) (s : State) : (writeWord r u bytes bad s).retn = s.retn := by
  simp [writeWord]

@[simp] theorem writeBack_retn (f : Found) (s : State) : (writeBack f s).retn = s.retn := by
  unfold writeBack
  split <;> simp

@[simp] theorem checkWord_retn (f : Found) (s : State) : (checkWord f s).retn = s.retn := by
  simp [checkWord]

@[simp] theorem banksSettle_retn (s : State) : (banksSettle s).retn = s.retn := by
  simp [banksSettle]

@[simp] theorem State_tick_tbl (s : State) : s.tick.tbl = s.tbl := (rfl)

@[simp] theorem bankSig_tbl (b : Nat) (found : List Found) (had : Option (BitVec 32)) (s : State) : (bankSig b found had s).2.tbl = s.tbl := by
  unfold bankSig
  dsimp only
  (repeat' split) <;> simp

@[simp] theorem signBanks_tbl (found : List Found) (l : List Nat) (s : State) : (signBanks found l s).tbl = s.tbl := by
  induction l generalizing s with
  | nil => rfl
  | cons b r ih =>
    rw [signBanks, ih]
    exact bankSig_tbl b found none s

@[simp] theorem modCage_tbl (c : Nat) (f : Cage → Cage) (s : State) : (modCage c f s).tbl = s.tbl := (rfl)

@[simp] theorem latchBus_tbl (s : State) : (latchBus s).tbl = s.tbl := by
  simp [latchBus]

@[simp] theorem State_tick_mem (s : State) : s.tick.mem = s.mem := (rfl)

@[simp] theorem State_tick_boot (s : State) : s.tick.boot = s.boot := (rfl)

@[simp] theorem State_tick_retn_epoch (s : State) : s.tick.retn.epoch = s.retn.epoch := (rfl)

@[simp] theorem ite_retn_epoch {c : Prop} [Decidable c] (a b : State) :
    (if c then a else b).retn.epoch = if c then a.retn.epoch else b.retn.epoch := apply_ite (fun s : State => s.retn.epoch) c a b

@[simp] theorem foldl_retn_epoch {α : Type} {f : State → α → State} (same : ∀ s a, (f s a).retn.epoch = s.retn.epoch) (l : List α) (s : State) :
    (l.foldl f s).retn.epoch = s.retn.epoch := by
  induction l generalizing s with
  | nil => rfl
  | cons a l ih => exact (ih (f s a)).trans (same s a)

@[simp] theorem forEach_retn_epoch {f : Nat → State → State} (same : ∀ n s, (f n s).retn.epoch = s.retn.epoch) (l : List Nat) (s : State) :
    (forEach l f s).retn.epoch = s.retn.epoch :=
  foldl_retn_epoch (fun s n => same n s) l s

@[simp] theorem bankSig_retn_epoch (b : Nat) (found : List Found) (had : Option (BitVec 32)) (s : State) : (bankSig b found had s).2.retn.epoch = s.retn.epoch := by
  unfold bankSig
  dsimp only
  (repeat' split) <;> simp

@[simp] theorem signBanks_retn_epoch (found : List Found) (l : List Nat) (s : State) : (signBanks found l s).retn.epoch = s.retn.epoch := by
  induction l generalizing s with
  | nil => rfl
  | cons b r ih =>
    rw [signBanks, ih]
    exact bankSig_retn_epoch b found none s

@[simp] theorem State_tick_retn_early (s : State) : s.tick.retn.early = s.retn.early := (rfl)

@[simp] theorem ite_retn_early {c : Prop} [Decidable c] (a b : State) :
    (if c then a else b).retn.early = if c then a.retn.early else b.retn.early := apply_ite (fun s : State => s.retn.early) c a b

@[simp] theorem foldl_retn_early {α : Type} {f : State → α → State} (same : ∀ s a, (f s a).retn.early = s.retn.early) (l : List α) (s : State) :
    (l.foldl f s).retn.early = s.retn.early := by
  induction l generalizing s with
  | nil => rfl
  | cons a l ih => exact (ih (f s a)).trans (same s a)

@[simp] theorem forEach_retn_early {f : Nat → State → State} (same : ∀ n s, (f n s).retn.early = s.retn.early) (l : List Nat) (s : State) :
    (forEach l f s).retn.early = s.retn.early :=
  foldl_retn_early (fun s n => same n s) l s

@[simp] theorem bankSig_retn_early (b : Nat) (found : List Found) (had : Option (BitVec 32)) (s : State) : (bankSig b found had s).2.retn.early = s.retn.early := by
  unfold bankSig
  dsimp only
  (repeat' split) <;> simp

@[simp] theorem signBanks_retn_early (found : List Found) (l : List Nat) (s : State) : (signBanks found l s).retn.early = s.retn.early := by
  induction l generalizing s with
  | nil => rfl
  | cons b r ih =>
    rw [signBanks, ih]
    exact bankSig_retn_early b found none s

@[simp] theorem modCage_retn (c : Nat) (f : Cage → Cage) (s : State) : (modCage c f s).retn = s.retn := (rfl)

@[simp] theorem latchBus_retn (s : State) : (latchBus s).retn = s.retn := by
  simp [latchBus]

@[simp] theorem bankSig_elog (b : Nat) (found : List Found) (had : Option (BitVec 32)) (s : State) : (bankSig b found had s).2.elog = s.elog := by
  unfold bankSig
  dsimp only
  (repeat' split) <;> simp

@[simp] theorem signBanks_elog (found : List Found) (l : List Nat) (s : State) : (signBanks found l s).elog = s.elog := by
  induction l generalizing s with
  | nil => rfl
  | cons b r ih =>
    rw [signBanks, ih]
    exact bankSig_elog b found none s

@[simp] theorem latchBus_elog (s : State) : (latchBus s).elog = s.elog := by
  simp [latchBus]

@[simp] theorem State_tick_otp (s : State) : s.tick.otp = s.otp := (rfl)

@[simp] theorem bankSig_otp (b : Nat) (found : List Found) (had : Option (BitVec 32)) (s : State) : (bankSig b found had s).2.otp = s.otp := by
  unfold bankSig
  dsimp only
  (repeat' split) <;> simp

@[simp] theorem signBanks_otp (found : List Found) (l : List Nat) (s : State) : (signBanks found l s).otp = s.otp := by
  induction l generalizing s with
  | nil => rfl
  | cons b r ih =>
    rw [signBanks, ih]
    exact bankSig_otp b found none s

@[simp] theorem modCage_otp (c : Nat) (f : Cage → Cage) (s : State) : (modCage c f s).otp = s.otp := (rfl)

@[simp] theorem latchBus_otp (s : State) : (latchBus s).otp = s.otp := by
  simp [latchBus]

@[simp] theorem State_tick_rep (s : State) : s.tick.rep = s.rep := (rfl)

@[simp] theorem ite_rep {c : Prop} [Decidable c] (a b : State) :
    (if c then a else b).rep = if c then a.rep else b.rep := apply_ite (fun s : State => s.rep) c a b

@[simp] theorem foldl_rep {α : Type} {f : State → α → State} (same : ∀ s a, (f s a).rep = s.rep) (l : List α) (s : State) :
    (l.foldl f s).rep = s.rep := by
  induction l generalizing s with
  | nil => rfl
  | cons a l ih => exact (ih (f s a)).trans (same s a)

@[simp] theorem forEach_rep {f : Nat → State → State} (same : ∀ n s, (f n s).rep = s.rep) (l : List Nat) (s : State) :
    (forEach l f s).rep = s.rep :=
  foldl_rep (fun s n => same n s) l s

@[simp] theorem bankSig_rep (b : Nat) (found : List Found) (had : Option (BitVec 32)) (s : State) : (bankSig b found had s).2.rep = s.rep := by
  unfold bankSig
  dsimp only
  (repeat' split) <;> simp

@[simp] theorem signBanks_rep (found : List Found) (l : List Nat) (s : State) : (signBanks found l s).rep = s.rep := by
  induction l generalizing s with
  | nil => rfl
  | cons b r ih =>
    rw [signBanks, ih]
    exact bankSig_rep b found none s

@[simp] theorem modCage_rep (c : Nat) (f : Cage → Cage) (s : State) : (modCage c f s).rep = s.rep := (rfl)

@[simp] theorem latchBus_rep (s : State) : (latchBus s).rep = s.rep := by
  simp [latchBus]

@[simp] theorem State_tick_guard (s : State) : s.tick.guard = s.guard := (rfl)

@[simp] theorem bankSig_guard (b : Nat) (found : List Found) (had : Option (BitVec 32)) (s : State) : (bankSig b found had s).2.guard = s.guard := by
  unfold bankSig
  dsimp only
  (repeat' split) <;> simp

@[simp] theorem signBanks_guard (found : List Found) (l : List Nat) (s : State) : (signBanks found l s).guard = s.guard := by
  induction l generalizing s with
  | nil => rfl
  | cons b r ih =>
    rw [signBanks, ih]
    exact bankSig_guard b found none s

@[simp] theorem modCage_guard (c : Nat) (f : Cage → Cage) (s : State) : (modCage c f s).guard = s.guard := (rfl)

@[simp] theorem latchBus_guard (s : State) : (latchBus s).guard = s.guard := by
  simp [latchBus]

@[simp] theorem State_tick_bed (s : State) : s.tick.bed = s.bed := (rfl)

@[simp] theorem bankSig_bed (b : Nat) (found : List Found) (had : Option (BitVec 32)) (s : State) : (bankSig b found had s).2.bed = s.bed := by
  unfold bankSig
  dsimp only
  (repeat' split) <;> simp

@[simp] theorem signBanks_bed (found : List Found) (l : List Nat) (s : State) : (signBanks found l s).bed = s.bed := by
  induction l generalizing s with
  | nil => rfl
  | cons b r ih =>
    rw [signBanks, ih]
    exact bankSig_bed b found none s

@[simp] theorem latchBus_bed (s : State) : (latchBus s).bed = s.bed := by
  simp [latchBus]

@[simp] theorem State_tick_now (s : State) : s.tick.now = s.now := (rfl)

@[simp] theorem ite_now {c : Prop} [Decidable c] (a b : State) :
    (if c then a else b).now = if c then a.now else b.now := apply_ite (fun s : State => s.now) c a b

@[simp] theorem foldl_now {α : Type} {f : State → α → State} (same : ∀ s a, (f s a).now = s.now) (l : List α) (s : State) :
    (l.foldl f s).now = s.now := by
  induction l generalizing s with
  | nil => rfl
  | cons a l ih => exact (ih (f s a)).trans (same s a)

@[simp] theorem forEach_now {f : Nat → State → State} (same : ∀ n s, (f n s).now = s.now) (l : List Nat) (s : State) :
    (forEach l f s).now = s.now :=
  foldl_now (fun s n => same n s) l s

@[simp] theorem bankSig_now (b : Nat) (found : List Found) (had : Option (BitVec 32)) (s : State) : (bankSig b found had s).2.now = s.now := by
  unfold bankSig
  dsimp only
  (repeat' split) <;> simp

@[simp] theorem signBanks_now (found : List Found) (l : List Nat) (s : State) : (signBanks found l s).now = s.now := by
  induction l generalizing s with
  | nil => rfl
  | cons b r ih =>
    rw [signBanks, ih]
    exact bankSig_now b found none s

@[simp] theorem modCage_now (c : Nat) (f : Cage → Cage) (s : State) : (modCage c f s).now = s.now := (rfl)

@[simp] theorem latchBus_now (s : State) : (latchBus s).now = s.now := by
  simp [latchBus]

@[simp] theorem bankSig_retn (b : Nat) (found : List Found) (had : Option (BitVec 32)) (s : State) : (bankSig b found had s).2.retn = s.retn := by
  unfold bankSig
  dsimp only
  (repeat' split) <;> simp

@[simp] theorem powerBad_begun (c : Cmd) (s : State) : powerBad (c.begun s) = powerBad c := rfl
@[simp] theorem holdsRole_beginCmd (id : Nat) (c : Cmd) (s : State) : holdsRole (beginCmd id c s) = holdsRole s := rfl
@[simp] theorem queuesEmpty_beginCmd (id : Nat) (c : Cmd) (s : State) : queuesEmpty (beginCmd id c s) = queuesEmpty s := rfl

theorem cage_modCage_same (n : Nat) (f : Cage → Cage) (s : State) : cage (modCage n f s) n = f (cage s n) := by
  simp [cage, modCage, mget, mmod, mfind_mput]

theorem cage_modCage_other {n k : Nat} (f : Cage → Cage) (s : State) (other : k ≠ n) : cage (modCage n f s) k = cage s k := by
  simp [cage, modCage, mget, mmod, mfind_mput, other]

theorem cageResume_nil (n : Nat) (s : State) :
    cageResume [] n s = modCage n (fun g => { g with state := .absent, present := false, pwren := false, rstAsserted := false, lpmLow := false }) s := rfl

/-- Without reports every cage that resumes is ABSENT with its power off. -/
theorem cagesResume_absent {l : List Nat} {n : Nat} (s : State) (member : n ∈ l) :
    (cage (forEach l (cageResume []) s) n).state = .absent ∧ (cage (forEach l (cageResume []) s) n).pwren = false := by
  simp only [forEach, cageResume_nil]
  induction l using List.reverseRecOn with
  | nil => simp at member
  | append_singleton l k ih =>
    rw [List.foldl_append]
    simp only [List.foldl_cons, List.foldl_nil]
    by_cases same : n = k
    · subst same
      rw [cage_modCage_same]
      exact ⟨rfl, rfl⟩
    · rw [cage_modCage_other _ _ same]
      exact ih (by simpa [same] using member)

/-- A wake of a device in RETAIN, with the log entry that it adds. -/
theorem wake_logs {s : State} (source : Nat) (retained : s.retn.inRetain = true) :
    (mget (wake source s).elog.slots (s.elog.total % 256) ErrEntry.init).code = 0x000C := by
  have woken : wake source s = tryStart (logErr 0x000C source 0 ((s.mapRetn fun r => { r with inRetain := false, waking := true }).mapBed fun b =>
      { b with wakeN := true, wakeSource := source })) := by simp [wake, retained]
  rw [woken, elog_of_vital (vital_tryStart _)]
  exact (logErr_adds _ _ _ _).2.1

theorem wakeTimer_runs {s : State} (retained : s.retn.inRetain = true) (on : s.retn.timer ≠ 0) (armed : bitOf s.retn.sources 1 = true) :
    exec .wakeTimer s = .next (wake 2 s) := by
  simp [exec, execWakeTimer, retained, on, wakeBy, armed]

theorem wakePresence_runs {n : Nat} {s : State} (small : n < 32) (powered : railUp s 8 = true) (armed : bitOf s.retn.sources 2 = true) :
    exec (.wakePresenceChange n) s = .next (wake 3 s) := by
  simp [exec, execWakePresenceChange, small, powered, wakeBy, armed]

theorem wakePps_runs {s : State} (powered : railUp s 11 = true) (armed : bitOf s.retn.sources 3 = true) :
    exec .wakePpsEdge s = .next (wake 4 s) := by
  simp [exec, execWakePpsEdge, powered, wakeBy, armed]

theorem wakeGarnet_runs {n : Nat} {s : State} (small : n < 64) (powered : railUp s 7 = true) (armed : bitOf s.retn.sources 4 = true) :
    exec (.wakeGarnetActivity n) s = .next (wake 5 s) := by
  simp [exec, execWakeGarnetActivity, small, powered, wakeBy, armed]

/-- The four rows that wake do nothing where the sources give no wake. -/
theorem wakes_same {i : Instr} {n : Nat} {s : State} (still : ∀ b, wakeBy b s = s)
    (member : i ∈ [Instr.wakeTimer, .wakePresenceChange n, .wakePpsEdge, .wakeGarnetActivity n]) : exec i s = .next s := by
  simp only [List.mem_cons, List.not_mem_nil, or_false] at member
  rcases member with rfl | rfl | rfl | rfl
  · simp [exec, execWakeTimer, still]
  · simp [exec, execWakePresenceChange, still]
  · simp [exec, execWakePpsEdge, still]
  · simp [exec, execWakeGarnetActivity, still]

/-- The check of a retained bank compares its signature once. -/
theorem retainedBankCheck_runs {b : Nat} (found : List Found) {had : BitVec 32 × Nat} {s : State} (started : s.boot.started = true)
    (waits : s.retn.check.contains b = true) (signed : mfind s.retn.sigs b = some had) :
    ∃ t, exec (.retainedBankCheck b found) s = .next t ∧ t.retn = { s.retn with
      check := s.retn.check.filter (· ≠ b)
      kept := if had = (bankSig b found (some had.1) s).1 then s.retn.kept ++ [b] else s.retn.kept
      lost := if had = (bankSig b found (some had.1) s).1 then s.retn.lost else s.retn.lost ++ [b] } := by
  have here : b ∈ s.retn.check := by simpa using waits
  refine ⟨_, rfl, ?_⟩
  simp [started, here, signed, foldl_retn]

/-- RETAIN is entered: what was recorded, then what the clear leaves. -/
def retainEntered (found : List Found) (s : State) : State :=
  let r := s.retn
  let s := s.mapRetn fun x => { x with epoch := s.tbl.epoch, part := s.mem.part, tables := s.tbl.tables.filter fun t => recorded r t.2 }
  let s := signBanks found (maskBits 64 r.banks) s
  let keep := fun (n : Nat) => (decide (1 ≤ n) && decide (n ≤ 64) && bitOf r.banks (n - 1)) || (decide (65 ≤ n) && bitOf r.hbmStacks (n - 65))
  let regions := s.mem.regions.filter fun g => keep g.1
  let s := coreClear ((latchBus s).mapBed fun b => { b with cageHeld := true, clkreq := false })
  let s := s.mapMem fun m => { m with regions := regions.map fun g => (g.1, { Region.init with cells := g.2.cells, bad := g.2.bad, mixed := g.2.mixed }) }
  s.mapRetn fun x => { x with inRetain := true, since := s.now }

theorem retainEntered_early (found : List Found) (s : State) : (retainEntered found s).retn.early = s.retn.early := by
  simp [retainEntered, coreClear]

theorem retainEntry_runs {s : State} (found : List Found) (retain : s.boot.state = .retain) (early : s.retn.early = none) :
    exec (.retainEntry found) s = .next (retainEntered found s) := by
  have none : (retainEntered found s).retn.early = .none := (retainEntered_early found s).trans early
  simp only [exec, execRetainEntry, retain, ne_eq, not_true_eq_false, if_false]
  refine congrArg Host.Outcome.next ?_
  split
  · rfl
  · next source asked => exact absurd (asked.symm.trans none) (Option.some_ne_none source)

/-- A failure of the control processors logs one entry and fails the device. -/
theorem cpFail_does (word : Nat) {s u : State} (same : u.elog = s.elog) :
    (cpFail word u).health.causes.getLsbD 11 = true ∧ healthState (cpFail word u) = 3 ∧ (cpFail word u).elog.total = s.elog.total + 1 ∧
      (mget (cpFail word u).elog.slots (s.elog.total % 256) ErrEntry.init).code = 0x000B := by
  have bit : (cpFail word u).health.causes.getLsbD 11 = true := by
    simp [cpFail, setCause, setCauses_health]
  have log : (cpFail word u).elog = (logErr 0x000B 0 word (u.mapBoot fun b => { b with cpFailed := true })).elog := by
    simp [cpFail, setCause]
  obtain ⟨count, code, -, -⟩ := logErr_adds 0x000B 0 word (u.mapBoot fun b => { b with cpFailed := true })
  have before : (u.mapBoot fun b => { b with cpFailed := true }).elog = s.elog := same
  refine ⟨bit, by simp only [healthState, healthOf, bit, if_true], ?_, ?_⟩
  · rw [log, count, before]
  · rw [log, ← before, code]
    rfl

/-- Settles O25: the states of the device, the rows that enter and leave RETAIN, and health. -/
theorem powerStateRows : Obligations.PowerStateRows := by
  unfold Obligations.PowerStateRows
  refine ⟨fun id c s begins good dest active full => ?_, fun id c s begins good dest active => ?_, fun id c s begins good dest quiet noRole alone => ?_,
    fun s other => ?_, fun s drain active => ?_, fun found s retain early => ?_, fun id mods c s begins plain small free => ?_,
    fun id c s begins plain one held => ?_, fun id c s begins plain => ?_, fun w s started => ?_, fun s since => ?_,
    fun s retained on armed => ?_, fun n s small powered retained armed => ?_, fun s powered retained armed => ?_,
    fun n s small powered retained armed => ?_, fun b found had s started waits signed => ?_⟩
  · refine ⟨_, congrArg Host.Outcome.next (runCmd_of_waiting (r := { Ran.ok (((beginCmd id c s).mapBoot fun b =>
      { b with transition := true, quiesceSince := s.now }).mapBuf fun b => { b with drain := true }) with done := false }) begins ?_ ?_ rfl),
      rfl, rfl, active, ?_, rfl, rfl, rfl⟩
    · simp [good]
    · have full' : queuesEmpty (((beginCmd id c s).mapBoot fun b => { b with transition := true, quiesceSince := s.now }).mapBuf fun b =>
          { b with drain := true }) = false := full
      simp [dest, active, full']
    · exact congrArg Option.isSome (beginCmd_cmd id c s)
  · refine congrArg Host.Outcome.next (runCmd_of_fail begins ?_ ?_)
    · simp [good]
    · simp [dest, active]
  · refine ⟨finish id .success 0 0 true (retainAccept (c.begun s) (beginCmd id c s)), congrArg Host.Outcome.next (runCmd_of_ok (t := retainAccept (c.begun s) (beginCmd id c s)) begins ?_ ?_), ?_⟩
    · simp [good]
    · simp [dest, quiet, noRole, alone, Ran.ok]
    · have f := finish_done id .success 0 0 true (retainAccept (c.begun s) (beginCmd id c s))
      dsimp only
      rw [f.boot, f.retn, f.tbl, f.mem]
      simp [retainAccept, Retain.init]
  · simp [exec, execQuiesceDrainEnd, other]
  · refine ⟨quiesceDrainEnd s, by simp [exec, execQuiesceDrainEnd, drain, active], ?_⟩
    simp [quiesceDrainEnd]
  · refine ⟨_, retainEntry_runs found retain early, ?_⟩
    simp [retainEntered, coreClear]
  · refine congrArg Host.Outcome.next (runCmd_of_ok (t := beginCmd id c s) begins ?_ ?_)
    · have : ¬ 1 < c.byte 32 := by omega
      simp [plain, this]
    · simp [free, Ran.ok]
  · refine ⟨finish id .success 0 0 true (forEach (List.range 32) (cageResume []) ((beginCmd id c s).mapBed fun b => { b with cageHeld := false })),
      congrArg Host.Outcome.next (runCmd_of_ok begins ?_ ?_), ?_, fun n small => ?_⟩
    · simp [plain, one]
    · simp [one, held, Ran.ok, bitOf]
    · rw [(finish_done _ _ _ _ _ _).bed, forEach_bed fun n s => by rw [cageResume_nil]; rfl]
      rfl
    · rw [cage, (finish_done _ _ _ _ _ _).cages]
      exact cagesResume_absent _ (List.mem_range.2 small)
  · refine congrArg Host.Outcome.next (runCmd_of_ok (t := beginCmd id c s) begins ?_ rfl)
    simp [plain]
  · refine ⟨cpFail w.toNat (memUe .processor 70 w.toNat s), by simp [exec, execHwError, started], ?_⟩
    exact cpFail_does _ (memUe_elog _ _ _ _)
  · refine ⟨clearCause 7 (s.mapHealth fun h => { h with vfails := [] }), by simp [exec, execVoltageFailWindowEnd, since], ?_⟩
    dsimp only
    rw [clearCause, setCauses_health]
    exact ⟨rfl, rfl⟩
  · obtain ⟨ended, -, source, -⟩ := wake_of_retained 2 retained
    exact ⟨_, wakeTimer_runs retained on armed, ended, source⟩
  · obtain ⟨ended, -, source, -⟩ := wake_of_retained 3 retained
    exact ⟨_, wakePresence_runs small powered armed, ended, source⟩
  · obtain ⟨ended, -, source, -⟩ := wake_of_retained 4 retained
    exact ⟨_, wakePps_runs powered armed, ended, source⟩
  · obtain ⟨ended, -, source, -⟩ := wake_of_retained 5 retained
    exact ⟨_, wakeGarnet_runs small powered armed, ended, source⟩
  · obtain ⟨t, runs, kept⟩ := retainedBankCheck_runs found started waits signed
    exact ⟨t, runs, by rw [kept]⟩

/-- Settles O26: an armed source wakes, and a bank's signature decides whether it is kept. -/
theorem wakeRows : Obligations.WakeRows := by
  unfold Obligations.WakeRows
  refine ⟨fun s retained on armed => ?_, fun n s small powered retained armed => ⟨_, wakePresence_runs small powered armed, wake_of_retained 3 retained⟩,
    fun s powered retained armed => ⟨_, wakePps_runs powered armed, wake_of_retained 4 retained⟩,
    fun n s small powered retained armed => ⟨_, wakeGarnet_runs small powered armed, wake_of_retained 5 retained⟩,
    fun i n s none => wakes_same fun b => ?_, fun i n s outside leaving => wakes_same fun b => ?_,
    fun b found had s started waits signed => ?_, fun b found had s whole => ?_⟩
  · obtain ⟨ended, pin, source, count⟩ := wake_of_retained 2 retained
    exact ⟨_, wakeTimer_runs retained on armed, ended, pin, source, count, wake_logs 2 retained⟩
  · simp [wakeBy, none, bitOf]
  · simp [wakeBy, wake, outside, leaving]
  · obtain ⟨t, runs, kept⟩ := retainedBankCheck_runs found started waits signed
    refine ⟨t, runs, by rw [kept], fun equal => ?_, fun differs => ?_⟩
    · rw [kept, if_pos equal.symm, if_pos equal.symm]
      exact ⟨rfl, rfl⟩
    · rw [kept, if_neg differs.symm, if_neg differs.symm]
      exact ⟨rfl, rfl⟩
  · simp [bankSig, whole]

end Sys2Proof.Machine
end

section
/-! PROOFS. Lanes. -/
namespace Sys2Proof.Machine

/-! A lane after a change to it, and the other lanes. -/

theorem lane_congr {s t : State} (h : t.lanes = s.lanes) (n : Nat) : lane t n = lane s n := by simp [lane, h]

@[simp] theorem lane_modLane_same (n : Nat) (f : Lane → Lane) (s : State) : lane (modLane n f s) n = f (lane s n) := by
  simp [lane, modLane, mget, mmod, mfind_mput]

theorem lane_modLane_other {n k : Nat} (f : Lane → Lane) (s : State) (other : k ≠ n) : lane (modLane n f s) k = lane s k := by
  simp [lane, modLane, mget, mmod, mfind_mput, other]

theorem LanesBut.rfl {n : Nat} {s : State} : LanesBut n s s := fun _ _ => Eq.refl _

theorem LanesBut.trans {n : Nat} {s t u : State} (h : LanesBut n s t) (g : LanesBut n t u) : LanesBut n s u := fun k other =>
  (g k other).trans (h k other)

theorem LanesBut.of_lanes {n : Nat} {s t : State} (h : t.lanes = s.lanes) : LanesBut n s t := fun k _ => by rw [h]

theorem lanesBut_modLane (n : Nat) (f : Lane → Lane) (s : State) : LanesBut n s (modLane n f s) := fun k other => by
  simp [modLane, mmod, mfind_mput, other]

/-- A state whose lanes are those after one change of a lane. -/
theorem LanesBut.of_modLane {n : Nat} {f : Lane → Lane} {s t : State} (h : t.lanes = (modLane n f s).lanes) : LanesBut n s t :=
  (lanesBut_modLane n f s).trans (.of_lanes h)

theorem lane_of_modLane {n : Nat} {f : Lane → Lane} {s t : State} (h : t.lanes = (modLane n f s).lanes) : lane t n = f (lane s n) :=
  (lane_congr h n).trans (lane_modLane_same n f s)

/-- A lane apart from its transmitter's ramp. -/
def Lane.unsent (l : Lane) : Lane := { l with tx := .hiZ, step := 0, rampUs := 0, rampStop := false, convMem := 0, txPre := 0 }

def State.laneUnsent (s : State) (n : Nat) : Lane := (lane s n).unsent

theorem State.laneUnsent_congr {s t : State} (h : t.lanes = s.lanes) : t.laneUnsent = s.laneUnsent := by
  funext n
  rw [State.laneUnsent, lane_congr h]
  rfl

@[simp] theorem State.mapPorts_laneUnsent (s : State) (f : PortBank → PortBank) : (s.mapPorts f).laneUnsent = s.laneUnsent := (rfl)
@[simp] theorem State.mapCages_laneUnsent (s : State) (f : CageBank → CageBank) : (s.mapCages f).laneUnsent = s.laneUnsent := (rfl)

theorem modLane_laneUnsent {n : Nat} {f : Lane → Lane} (h : ∀ l, (f l).unsent = l.unsent) (s : State) :
    (modLane n f s).laneUnsent = s.laneUnsent := by
  funext k
  by_cases e : k = n
  · subst e
    rw [State.laneUnsent, lane_modLane_same]
    exact h _
  · rw [State.laneUnsent, lane_modLane_other f s e]
    rfl

@[simp] theorem laneRampUp_laneUnsent (n : Nat) (s : State) : (laneRampUp n s).laneUnsent = s.laneUnsent := by
  unfold laneRampUp
  dsimp only
  split
  · rfl
  · split
    · rfl
    · rfl
    all_goals exact modLane_laneUnsent (by intro l; rfl) s

@[simp] theorem laneRampDown_laneUnsent (n : Nat) (stop : Bool) (s : State) : (laneRampDown n stop s).laneUnsent = s.laneUnsent := by
  unfold laneRampDown
  dsimp only
  split
  · rfl
  · rfl
  · split
    · exact modLane_laneUnsent (by intro l; rfl) s
    · rfl
  all_goals exact modLane_laneUnsent (by intro l; rfl) s

end Sys2Proof.Machine
end

section
/-! PROOFS. Calibration, trims and rotation. -/
namespace Sys2Proof.Machine

@[simp] theorem modPort_lanes (p : Nat) (f : Port → Port) (s : State) : (modPort p f s).lanes = s.lanes := by
  unfold modPort
  split <;> simp

@[simp] theorem portCount_lanes (p k n : Nat) (s : State) : (portCount p k n s).lanes = s.lanes := by
  simp [portCount]

@[simp] theorem portDown_lanes (p detail : Nat) (s : State) : (portDown p detail s).lanes = s.lanes := by
  simp [portDown]

@[simp] theorem portLaneLost_lanes (n : Nat) (s : State) : (portLaneLost n s).lanes = s.lanes := by
  unfold portLaneLost
  (repeat' split) <;> simp

@[simp] theorem squelchSynce_lanes (n : Nat) (s : State) : (squelchSynce n s).lanes = s.lanes := (rfl)

@[simp] theorem laneCauses_lanes (s : State) : (laneCauses s).lanes = s.lanes := by
  simp [laneCauses]

@[simp] theorem State_tick_laneUnsent (s : State) : s.tick.laneUnsent = s.laneUnsent := (rfl)

@[simp] theorem ite_laneUnsent {c : Prop} [Decidable c] (a b : State) :
    (if c then a else b).laneUnsent = if c then a.laneUnsent else b.laneUnsent := apply_ite (fun s : State => s.laneUnsent) c a b

@[simp] theorem foldl_laneUnsent {α : Type} {f : State → α → State} (same : ∀ s a, (f s a).laneUnsent = s.laneUnsent) (l : List α) (s : State) :
    (l.foldl f s).laneUnsent = s.laneUnsent := by
  induction l generalizing s with
  | nil => rfl
  | cons a l ih => exact (ih (f s a)).trans (same s a)

@[simp] theorem forEach_laneUnsent {f : Nat → State → State} (same : ∀ n s, (f n s).laneUnsent = s.laneUnsent) (l : List Nat) (s : State) :
    (forEach l f s).laneUnsent = s.laneUnsent :=
  foldl_laneUnsent (fun s n => same n s) l s

@[simp] theorem modPort_laneUnsent (p : Nat) (f : Port → Port) (s : State) : (modPort p f s).laneUnsent = s.laneUnsent := by
  unfold modPort
  split <;> simp

@[simp] theorem modCage_laneUnsent (c : Nat) (f : Cage → Cage) (s : State) : (modCage c f s).laneUnsent = s.laneUnsent := (rfl)

@[simp] theorem dpRamped_laneUnsent (p : Nat) (s : State) : (dpRamped p s).laneUnsent = s.laneUnsent := by
  simp [dpRamped]

@[simp] theorem dpStart_laneUnsent (p : Nat) (s : State) : (dpStart p s).laneUnsent = s.laneUnsent := by
  unfold dpStart
  split <;> simp

@[simp] theorem cageTryPowerUp_laneUnsent (c : Nat) (s : State) : (cageTryPowerUp c s).laneUnsent = s.laneUnsent := by
  simp [cageTryPowerUp]

@[simp] theorem laneReadyHook_laneUnsent (n : Nat) (s : State) : (laneReadyHook n s).laneUnsent = s.laneUnsent := by
  simp [laneReadyHook]
  split <;> simp

@[simp] theorem State_tick_ports (s : State) : s.tick.ports = s.ports := (rfl)

@[simp] theorem laneCount_ports (n k a : Nat) (s : State) : (laneCount n k a s).ports = s.ports := (rfl)

theorem mfind_mmap {α : Type} (m : Map α) (f : Nat → α → α) (k : Nat) : mfind (mmap m f) k = (mfind m k).map (f k) := by
  induction m with
  | nil => rfl
  | cons p m ih =>
    obtain ⟨j, v⟩ := p
    simp only [mmap, List.map_cons, mfind] at ih ⊢
    by_cases e : k = j
    · subst e
      simp
    · simp [e, ih]

theorem ctrOf_ctrAdd (m : Map Ctr) (k a : Nat) : ctrOf (ctrAdd m k a) k = (ctrOf m k).add a := by
  simp [ctrOf, ctrAdd, mget, mmod, mfind_mput]

@[simp] theorem lane_laneCount (n k a : Nat) (s : State) : lane (laneCount n k a s) n = { lane s n with ctr := ctrAdd (lane s n).ctr k a } :=
  lane_modLane_same _ _ _

theorem laneCount_but (n k a : Nat) (s : State) : LanesBut n s (laneCount n k a s) := lanesBut_modLane _ _ _

@[simp] theorem recomputeTrims_lane (n : Nat) (x : Int) (s : State) :
    lane (recomputeTrims n x s) n = { lane s n with trimT := x, trims := (List.range 68).map fun i => (i, trimOf s n i x) } := lane_modLane_same _ _ _

theorem recomputeTrims_but (n : Nat) (x : Int) (s : State) : LanesBut n s (recomputeTrims n x s) := lanesBut_modLane _ _ _

theorem laneUpdate_but (n : Nat) (m : LaneMeas) (s : State) : LanesBut n s (laneUpdate n m s) := lanesBut_modLane _ _ _

/-- Loss of signal changes the one lane, then its port. -/
theorem losDeclare_lanes (n cause : Nat) (s : State) : (losDeclare n cause s).lanes = (laneCount n 24 1 (modLane n (fun l =>
    { l with state := .losHeld, losCause := cause, held := some (heldSet s n), rot := keptStep l, noisePosted := false, noiseHigh := 0 }) s)).lanes := by
  simp [losDeclare]

theorem losDeclare_but (n cause : Nat) (s : State) : LanesBut n s (losDeclare n cause s) :=
  ((lanesBut_modLane n _ s).trans (laneCount_but n 24 1 _)).trans (.of_lanes (losDeclare_lanes n cause s))

theorem calStart_does (n : Nat) (m : LaneMeas) (s : State) :
    (lane (calStart n m s) n).state = .calibrating ∧ (lane (calStart n m s) n).swOpen = true ∧ (lane (calStart n m s) n).waitSlot = false ∧
      (lane (calStart n m s) n).rot = none ∧ LanesBut n s (calStart n m s) := by
  unfold calStart
  dsimp only
  have update : LanesBut n s (if (lane s n).state = .acquired then laneUpdate n m s else s) := by
    split
    · exact laneUpdate_but n m s
    · exact .rfl
  refine ⟨by simp, by simp, by simp, by simp, LanesBut.trans ?_ (lanesBut_modLane _ _ _)⟩
  split
  · exact update.trans (losDeclare_but _ _ _)
  · exact update

/-- What every pass of a loop keeps, the loop keeps. -/
theorem forEach_induct {P : State → Prop} {f : Nat → State → State} (keeps : ∀ n t, P t → P (f n t)) (l : List Nat) {s : State} (h : P s) :
    P (forEach l f s) := by
  unfold forEach
  induction l generalizing s with
  | nil => exact h
  | cons n l ih => exact ih (keeps n s h)

/-- The slices that are accepted change the lane's offsets to the factory values alone. -/
theorem acceptSlices_lane (n : Nat) (l : List Nat) (v : Nat → Verdict) (s : State) :
    ∃ d, lane (acceptSlices n l v s) n = { lane s n with delta := d } := by
  unfold acceptSlices
  refine forEach_induct (P := fun t => ∃ d, lane t n = { lane s n with delta := d }) (fun i t h => ?_) l ⟨_, rfl⟩
  dsimp only
  split
  · split
    · obtain ⟨d, e⟩ := h
      rw [lane_modLane_same, e]
      exact ⟨_, rfl⟩
    · exact h
  · exact h

/-- A lane whose calibration has ended with a result. -/
def Lane.calibrated (c : Cal) (result : Nat) (l : Lane) : Lane :=
  { l with
    cal := none, swOpen := l.loop, fgResult := result, ready := !l.withdrawn, state := c.back
    rejFlag := decide (result = 2) }

theorem calFinish_runs {n result : Nat} {c : Cal} {s : State} (runs : (lane s n).cal = some c) :
    ∃ x u, u.lanes = (recomputeTrims n x (modLane n (Lane.calibrated c result) s)).lanes ∧ calFinish n result s = laneReadyHook n u := by
  unfold calFinish
  dsimp only
  rw [runs, Option.getD_some]
  refine ⟨laneTemp (modLane n (Lane.calibrated c result) s) n, _, ?_, rfl⟩
  split <;> split <;> simp <;> rfl

/-- The end of a calibration: what the lane keeps of it, its transmitter's ramp aside. -/
theorem calFinish_lane {n result : Nat} {c : Cal} {s : State} (runs : (lane s n).cal = some c) :
    ∃ x y, (lane (calFinish n result s) n).unsent = { (lane s n).calibrated c result with trimT := x, trims := y }.unsent := by
  obtain ⟨x, u, lanes, e⟩ := calFinish_runs (result := result) runs
  refine ⟨x, (List.range 68).map fun i => (i, trimOf (modLane n (Lane.calibrated c result) s) n i x), ?_⟩
  rw [e]
  refine (congrFun (laneReadyHook_laneUnsent n u) n).trans (congrArg Lane.unsent ?_)
  rw [lane_congr lanes, recomputeTrims_lane, lane_modLane_same]

theorem calFinish_fields {n result : Nat} {c : Cal} {s : State} (runs : (lane s n).cal = some c) :
    (lane (calFinish n result s) n).cal = none ∧ (lane (calFinish n result s) n).fgResult = result ∧
      (lane (calFinish n result s) n).swOpen = (lane s n).loop ∧ (lane (calFinish n result s) n).ready = !(lane s n).withdrawn ∧
      (lane (calFinish n result s) n).state = c.back ∧ (lane (calFinish n result s) n).ownNoise = (lane s n).ownNoise ∧
      (lane (calFinish n result s) n).rejFlag = decide (result = 2) ∧ (lane (calFinish n result s) n).ctr = (lane s n).ctr := by
  obtain ⟨x, y, ended⟩ := calFinish_lane (result := result) runs
  generalize lane (calFinish n result s) n = l at ended ⊢
  simp only [Lane.unsent, Lane.calibrated, Lane.mk.injEq] at ended
  tauto

/-- A run that was implausible is counted. -/
def runRejected (n own : Nat) (s : State) : State := laneCount n 0 1 (modLane n (fun l => { l with ownNoise := own }) s)

theorem runRejected_lane (n own : Nat) (s : State) :
    lane (runRejected n own s) n = { lane s n with ownNoise := own, ctr := ctrAdd (lane s n).ctr 0 1 } := by simp [runRejected]

theorem runRejected_but (n own : Nat) (s : State) : LanesBut n s (runRejected n own s) := (lanesBut_modLane _ _ _).trans (laneCount_but _ _ _ _)

theorem fgRunOk_modLane (n k : Nat) (f : Lane → Lane) (r : FgRun) (s : State) : fgRunOk (modLane k f s) n r = fgRunOk s n r := rfl

/-- Settles O27: a run either ends its calibration through `calFinish` or is counted as rejected. -/
theorem calibrationRows : Obligations.CalibrationRows := by
  unfold Obligations.CalibrationRows
  refine ⟨fun n l m s first free thawed r5 r6 => ?_, fun n meas t0 t1 own c s cal slot runs alone fresh thawed good => ?_,
    fun n meas t0 t1 own c s cal slot runs alone fresh one thawed bad => ?_, fun n meas t0 t1 own c s cal slot runs alone fresh two first thawed bad => ?_,
    fun n meas t0 t1 own s frozen => ?_, fun n c s cal two waits thawed => ?_⟩
  · refine ⟨calStart n m s, ?_, calStart_does n m s⟩
    simp [exec, execCalibrationSlotStart, first, free, thawed, r5, r6]
  · obtain ⟨d, accepted⟩ := acceptSlices_lane n (List.range 68) (fun _ => .take { meas := meas, t0 := t0, t1 := t1 } none)
      (modLane n (fun l => { l with ownNoise := own }) s)
    rw [lane_modLane_same] at accepted
    have ended := calFinish_fields (result := 1) (c := c) ((congrArg Lane.cal accepted).trans cal)
    refine ⟨calFinish n 1 (acceptSlices n (List.range 68) (fun _ => .take { meas := meas, t0 := t0, t1 := t1 } none)
      (modLane n (fun l => { l with ownNoise := own }) s)), ?_, ?_⟩
    · simp [exec, execForegroundRunEnd, cal, slot, runs, alone, fresh, thawed, decideRuns, fgRunOk_modLane, good]
    · rw [accepted] at ended
      obtain ⟨none, result, switch, ready, state, noise, -, -⟩ := ended
      exact ⟨none, result, switch, ready, state, noise⟩
  · have runs' : exec (.foregroundRunEnd n meas t0 t1 own) s = .next (modLane n (fun l =>
        { l with
          cal := some { c with
            attempt := 2, running := false, runs := []
            failed1 := failedSlices (runRejected n own s) n c.geode [{ meas := meas, t0 := t0, t1 := t1 }] }
          swOpen := l.loop }) (runRejected n own s)) := by
      simp [exec, execForegroundRunEnd, cal, slot, runs, alone, fresh, one, thawed, decideRuns, fgRunOk_modLane, bad, runRejected]
    refine ⟨_, runs', ⟨_, congrArg Lane.cal (lane_modLane_same _ _ _), rfl, rfl, rfl⟩, ?_, ?_, (runRejected_but n own s).trans (lanesBut_modLane _ _ _), rfl⟩
    · simp [runRejected_lane]
    · simp [runRejected_lane, ctrOf_ctrAdd]
  · have ended := calFinish_fields (result := 2) (c := c) ((congrArg Lane.cal (runRejected_lane n own s)).trans cal)
    refine ⟨calFinish n 2 (runRejected n own s), ?_, ?_⟩
    · have none : ∀ f, retireAllowed c f = false := by
        intro f
        cases f <;> simp [retireAllowed, first]
      simp [exec, execForegroundRunEnd, cal, slot, runs, alone, fresh, two, thawed, decideRuns, fgRunOk_modLane, bad, none, runRejected]
    · rw [runRejected_lane] at ended
      obtain ⟨none, result, -, -, -, -, flag, count⟩ := ended
      exact ⟨none, result, flag, count ▸ ctrOf_ctrAdd _ _ _⟩
  · simp only [exec, execForegroundRunEnd, frozen, Bool.or_true, if_true]
    split <;> rfl
  · simp [exec, execCalRetry, cal, two, waits, thawed]

@[simp] theorem sensor_readSensor (k : Nat) (x : Int) (s : State) : sensor (readSensor k (some x) s) k = some x := by
  have kept : (readSensor k (some x) s).bed =
      { s.bed with temp := mput s.bed.temp k x, tempFault := s.bed.tempFault.filter (· ≠ k) } := by
    unfold readSensor
    dsimp only
    split <;> rfl
  simp [sensor, kept, mfind_mput]

/-- A valid reading goes to every powered lane of its cage. -/
theorem lane_readSensor (k : Nat) (x : Int) (s : State) (n : Nat) : lane (readSensor k (some x) s) n =
    if n / 8 = k ∧ (lane s n).state ≠ .off then { lane s n with validT := some x } else lane s n := by
  have kept : (readSensor k (some x) s).lanes.tab =
      mmap s.lanes.tab fun n l => if n / 8 = k ∧ l.state ≠ .off then { l with validT := some x } else l := by
    unfold readSensor
    dsimp only
    split <;> rfl
  rw [lane, kept, mget, mfind_mmap, lane, mget]
  cases mfind s.lanes.tab n with
  | some l => rfl
  | none =>
    have off : Lane.init.state = .off := rfl
    simp [off]

/-- An accepted background measurement changes the lane's offset of the slice, and recomputes the trims. -/
theorem bgMeasured_of_ok {n i : Nat} {skewOnly : Bool} {a : BgRun} {s : State} (noRole : holdsRole s = false) (good : bgOk s n i skewOnly a = true) :
    ∃ d, bgMeasured n i skewOnly [a] s = bgAccept n i d s := by
  refine ⟨bgDelta s n i skewOnly a none, ?_⟩
  simp only [bgMeasured, bgDecide, noRole, good, Bool.not_false, Bool.and_self, if_true]

theorem bgAccept_lane (n i : Nat) (d : Trim) (s : State) : ∃ x y z, lane (bgAccept n i d s) n =
    { lane s n with delta := x, bgRej := mdel (lane s n).bgRej i, trimT := y, trims := z } := by
  rw [bgAccept, recomputeTrims_lane, lane_modLane_same]
  exact ⟨_, _, _, rfl⟩

theorem bgAccept_but (n i : Nat) (d : Trim) (s : State) : LanesBut n s (bgAccept n i d s) := (lanesBut_modLane _ _ _).trans (recomputeTrims_but _ _ _)

theorem bgOk_modLane {n : Nat} {f : Lane → Lane} {s : State} (same : (f (lane s n)).delta = (lane s n).delta) (i : Nat) (skewOnly : Bool) (a : BgRun) :
    bgOk (modLane n f s) n i skewOnly a = bgOk s n i skewOnly a := by
  have fused : ∀ x, factory (modLane n f s) n i x = factory s n i x := fun _ => rfl
  simp only [bgOk, fused, lane_modLane_same, same]

/-- The shadow measurement of a step is accepted, so that the map switches. -/
theorem rotationShadowEnd_runs {n : Nat} {a : BgRun} {r : Rot} {s : State} (rot : (lane s n).rot = some r) (shadow : r.phase = .shadow)
    (thawed : laneFrozen s (lane s n) = false) (noRole : holdsRole s = false) (good : bgOk s n r.inc true a = true)
    (kept : (lane s n).withdrawn = false) (fault : (lane s n).sliceFault.getLsbD r.inc = false) (map : (lane s n).sliceMap.getLsbD r.out = true) :
    ∃ d, exec (.rotationShadowEnd n [a]) s = .next (modLane n (fun l => { switchMap r.out r.inc l with rot := some { r with phase := .standby } })
      (bgAccept n r.inc d (modLane n (fun l => { l with lastBank := sliceBank r.inc }) s))) := by
  have good' : bgOk (modLane n (fun l => { l with lastBank := sliceBank r.inc }) s) n r.inc true a = true :=
    (bgOk_modLane (by rfl) _ _ _).trans good
  obtain ⟨d, accepted⟩ := bgMeasured_of_ok (s := modLane n (fun l => { l with lastBank := sliceBank r.inc }) s) noRole good'
  obtain ⟨x, y, z, e⟩ := bgAccept_lane n r.inc d (modLane n (fun l => { l with lastBank := sliceBank r.inc }) s)
  refine ⟨d, ?_⟩
  simp only [exec, execRotationShadowEnd, rot, shadow, thawed, accepted, e, lane_modLane_same, kept, fault, map]
  rfl

theorem standbyMeasurementEnd_runs {n : Nat} {a : BgRun} {r : Rot} {s : State} (rot : (lane s n).rot = some r) (standby : r.phase = .standby)
    (acquired : (lane s n).state = .acquired) (thawed : laneFrozen s (lane s n) = false) (noRole : holdsRole s = false)
    (good : bgOk s n r.out false a = true) : ∃ d, exec (.standbyMeasurementEnd n [a]) s =
      .next (bgAccept n r.out d (modLane n (fun l => { l with rot := none }) s)) := by
  have good' : bgOk (modLane n (fun l => { l with rot := none }) s) n r.out false a = true :=
    (bgOk_modLane (by rfl) _ _ _).trans good
  obtain ⟨d, accepted⟩ := bgMeasured_of_ok (s := modLane n (fun l => { l with rot := none }) s) noRole good'
  exact ⟨d, by simp [exec, execStandbyMeasurementEnd, rot, standby, acquired, thawed, accepted]⟩

/-- The count of measurements above the threshold after one. -/
def noiseHighAfter (l : Lane) (p : Nat) : Nat :=
  if l.set.noiseThresh ≠ 0 ∧ l.set.noiseThresh < noiseRms p l.ownNoise then l.noiseHigh + 1 else 0

theorem noiseMeasurement_runs {n : Nat} (p : Nat) {s : State} (dark : noiseRuns (lane s n) = true) :
    ∃ fire t, exec (.noiseMeasurement n p) s = .next t ∧ t.lanes = (modLane n (fun l =>
      { l with
        noise := noiseRms p (lane s n).ownNoise, noiseAt := s.now, belowOwn := decide (p < l.ownNoise), noiseHigh := noiseHighAfter (lane s n) p
        noisePosted := l.noisePosted || fire }) s).lanes := by
  refine ⟨decide (3 ≤ noiseHighAfter (lane s n) p) && !(lane s n).noisePosted, _, rfl, ?_⟩
  have fires : ∀ (b : Bool) (u : State), (if b = true then post 0x1007 1 n (noiseRms p (lane s n).ownNoise) u else u).lanes = u.lanes := by
    intro b u
    cases b <;> simp
  simp only [dark, Bool.true_eq_false, if_false]
  exact fires _ _

/-- Settles O28: trims, the two measurements of a rotation step, and the noise floor. -/
theorem trimAndRotationRows : Obligations.TrimAndRotationRows := by
  unfold Obligations.TrimAndRotationRows
  refine ⟨fun n x s on => ?_, fun n b o i s acquired thawed free idle bank out inc => ?_, fun n s frozen => ?_,
    fun n a r s rot shadow thawed noRole good kept fault map => ?_, fun n a r s rot standby acquired thawed noRole good => ?_,
    fun n p s dark closed loop => ?_⟩
  · have reads : laneTemp (readSensor (n / 8) (some x) s) n = x := by simp [laneTemp]
    refine ⟨recomputeTrims n x (readSensor (n / 8) (some x) s), ?_, ?_⟩
    · simp [exec, execTrimUpdate, on, reads]
    · have here : lane (readSensor (n / 8) (some x) s) n = { lane s n with validT := some x } := by simp [lane_readSensor, on]
      have bed : sensor (recomputeTrims n x (readSensor (n / 8) (some x) s)) (n / 8) = some x := sensor_readSensor (n / 8) x s
      refine ⟨?_, ?_, ?_, bed, fun k other => ?_, ?_, ?_⟩
      · simp [here]
      · simp
      · simp
      · rw [recomputeTrims, lane_modLane_other _ _ other, lane_readSensor]
      · simp [here]
      · simp [here]
  · refine ⟨modLane n (fun l => { l with rot := some { Rot.init with out := o, inc := i } }) s, ?_,
      ⟨_, congrArg Lane.rot (lane_modLane_same _ _ _), rfl, rfl, rfl⟩, ?_, ?_, lanesBut_modLane _ _ _⟩
    · simp [exec, execRotationStepStart, acquired, thawed, free, idle, bank, out, inc]
    all_goals rw [lane_modLane_same]
  · simp [exec, execRotationStepStart, frozen]
  · obtain ⟨d, runs⟩ := rotationShadowEnd_runs rot shadow thawed noRole good kept fault map
    obtain ⟨x, y, z, e⟩ := bgAccept_lane n r.inc d (modLane n (fun l => { l with lastBank := sliceBank r.inc }) s)
    refine ⟨_, runs, ?_, ?_, ?_, ?_, ((lanesBut_modLane _ _ _).trans (bgAccept_but _ _ _ _)).trans (lanesBut_modLane _ _ _)⟩ <;>
      simp [e, switchMap]
  · obtain ⟨d, runs⟩ := standbyMeasurementEnd_runs rot standby acquired thawed noRole good
    obtain ⟨x, y, z, e⟩ := bgAccept_lane n r.out d (modLane n (fun l => { l with rot := none }) s)
    refine ⟨_, runs, ?_, ?_, ?_, (lanesBut_modLane _ _ _).trans (bgAccept_but _ _ _ _)⟩ <;> simp [e]
  · have runs : noiseRuns (lane s n) = true := by simp [noiseRuns, dark, closed, loop]
    obtain ⟨fire, t, measured, lanes⟩ := noiseMeasurement_runs p runs
    refine ⟨t, measured, ?_⟩
    dsimp only
    rw [lane_of_modLane lanes]
    exact ⟨rfl, rfl, rfl, dark, .of_modLane lanes⟩

end Sys2Proof.Machine
end

section
/-! PROOFS. Acquisition. -/
namespace Sys2Proof.Machine

@[simp] theorem portTryAlign_lanes (p : Nat) (s : State) : (portTryAlign p s).lanes = s.lanes := by
  unfold portTryAlign
  split <;> simp

@[simp] theorem squelchSynce_ports (n : Nat) (s : State) : (squelchSynce n s).ports = s.ports := (rfl)

/-! The phases of acquisition, each a change of the one lane. -/

theorem expire_lane (n : Nat) (s : State) :
    lane (expire n s) n = { lane s n with state := .expired, coef := Coef.init, ctr := ctrAdd (lane s n).ctr 21 1 } := lane_modLane_same _ _ _

theorem expire_but (n : Nat) (s : State) : LanesBut n s (expire n s) := lanesBut_modLane _ _ _

/-- A lane that expires is EXPIRED, forgets its coefficients and counts it. -/
theorem expire_does (n : Nat) (s : State) : (lane (expire n s) n).state = .expired ∧ (lane (expire n s) n).coef = Coef.init ∧
    ctrOf (lane (expire n s) n).ctr 21 = (ctrOf (lane s n).ctr 21).add 1 ∧ LanesBut n s (expire n s) := by
  rw [expire_lane]
  exact ⟨rfl, rfl, ctrOf_ctrAdd _ _ _, expire_but n s⟩

@[simp] theorem laneUpdate_snr (n : Nat) (m : LaneMeas) (s : State) : (lane (laneUpdate n m s) n).snr = m.snr := by simp [laneUpdate]
@[simp] theorem laneUpdate_rot (n : Nat) (m : LaneMeas) (s : State) : (lane (laneUpdate n m s) n).rot = (lane s n).rot := by simp [laneUpdate]
@[simp] theorem laneUpdate_ctr (n : Nat) (m : LaneMeas) (s : State) : (lane (laneUpdate n m s) n).ctr = (lane s n).ctr := by simp [laneUpdate]
@[simp] theorem laneUpdate_presentAt (n : Nat) (m : LaneMeas) (s : State) : (lane (laneUpdate n m s) n).presentAt = (lane s n).presentAt := by
  simp [laneUpdate]

theorem laneUpdate_coef {n : Nat} (m : LaneMeas) {s : State} (thawed : laneFrozen s (lane s n) = false) : (lane (laneUpdate n m s) n).coef =
    adapt (lane s n).cursorOn (decide ((lane s n).eqOn = 1)) (stepSize (lane s n)) (rxSamples (lane s n) m.blocks) (lane s n).coef := by
  simp [laneUpdate, thawed]

/-- A lane that becomes ACQUIRED. -/
theorem laneAcquired_lanes (n : Nat) (warm : Bool) (m : LaneMeas) (latency : Nat) (s : State) : (laneAcquired n warm m latency s).lanes = (modLane n
    (fun l => { l with
      state := .acquired, warmLast := warm, acqUs := (s.now - (lane s n).presentAt) / 1000, latency := latency, xwin := none, held := none
      noisePosted := false, noiseHigh := 0 }) (laneUpdate n m s)).lanes := by
  unfold laneAcquired
  dsimp only
  split <;> simp

theorem laneAcquired_but (n : Nat) (warm : Bool) (m : LaneMeas) (latency : Nat) (s : State) : LanesBut n s (laneAcquired n warm m latency s) :=
  ((laneUpdate_but n m s).trans (lanesBut_modLane _ _ _)).trans (.of_lanes (laneAcquired_lanes n warm m latency s))

theorem argMax_spec (l : List Nat) (k : Nat) (h : k < l.length) :
    l.getD k 0 ≤ l.getD (argMax l) 0 ∧ (l.getD k 0 = l.getD (argMax l) 0 → argMax l ≤ k) := by
  induction l generalizing k with
  | nil => simp at h
  | cons x r ih =>
    unfold argMax
    split
    · next top =>
      have largest : ∀ y ∈ r, y ≤ x := by simpa using top
      refine ⟨?_, fun _ => Nat.zero_le k⟩
      cases k with
      | zero => exact Nat.le_refl _
      | succ k =>
        have inside : k < r.length := by simpa using h
        simpa [inside] using largest _ (List.getElem_mem inside)
    · next greater =>
      obtain ⟨y, member, above⟩ : ∃ y ∈ r, x < y := by simpa using greater
      obtain ⟨j, small, rfl⟩ := List.getElem_of_mem member
      have best := (ih j small).1
      have above' : x < r.getD (argMax r) 0 := by
        refine Nat.lt_of_lt_of_le above (Nat.le_trans ?_ best)
        simp [small]
      cases k with
      | zero => exact ⟨Nat.le_of_lt above', fun e => absurd e (Nat.ne_of_lt above')⟩
      | succ k =>
        have inside : k < r.length := by simpa using h
        exact ⟨(ih k inside).1, fun e => Nat.succ_le_succ ((ih k inside).2 e)⟩

/-- Settles O29: each phase of Table 5.4 is one change of its lane. -/
theorem acquisitionRows : Obligations.AcquisitionRows := by
  unfold Obligations.AcquisitionRows
  refine ⟨fun n rms s may dark loud => ?_, fun n rms h s may dark loud held warm => ?_, fun n rms s stays => ?_, fun n eyes s search thawed len => ?_,
    argMax_spec, fun n f s freq lo hi => ?_, fun n m mse s converge thawed stable => ?_, fun n latency m q s qualify thawed good => ?_,
    fun n latency m q s bad => ?_, fun n s qualify thawed => ?_, fun n rms s phase => ?_, fun n rms s expired quiet => ?_, fun n s expired => ?_,
    fun n latency eyes mse m q i s frozen member => ?_⟩
  · have loud' : amplitudePresent (lane s n) rms = true := decide_eq_true loud
    have runs : exec (.signalPresent n rms) s = .next (modLane n (fun l =>
        { searchFrom l with
          presentAt := s.now, eqOn := nextEq l (cage s (n / 8)).c2m, cursorOn := l.set.ffeCursor
          xwin := if l.opMode = 2 then some (l.xwin.getD s.now) else none }) s) := by
      simp only [exec, execSignalPresent, may, dark, loud']
      cases (lane s n).held <;> rfl
    refine ⟨_, runs, ?_, ?_, ?_, ?_, lanesBut_modLane _ _ _, rfl⟩ <;> simp [searchFrom]
  · have loud' : amplitudePresent (lane s n) rms = true := decide_eq_true loud
    have runs : exec (.signalPresent n rms) s = .next (modLane n (fun l =>
        { warmFrom h l with
          presentAt := s.now, eqOn := nextEq l (cage s (n / 8)).c2m, cursorOn := l.set.ffeCursor
          xwin := if l.opMode = 2 then some (l.xwin.getD s.now) else none }) s) := by
      simp [exec, execSignalPresent, may, dark, loud', held, warm]
    refine ⟨_, runs, ?_, ?_, ?_, ?_, ?_, lanesBut_modLane _ _ _⟩ <;> simp [warmFrom]
  · have stays' : mayAttempt s (lane s n) = false ∨ amplitudePresent (lane s n) rms = false :=
      stays.imp_right fun quiet => decide_eq_false (Nat.not_lt.2 quiet)
    rcases stays' with may | quiet
    · simp [exec, execSignalPresent, may]
    · simp [exec, execSignalPresent, quiet]
  · have runs : exec (.ctleSearchDone n eyes) s = .next (modLane n (fun l =>
        { l with state := .freq, ctle := if l.set.ctleMode = 0 then argMax eyes else l.set.ctleCode }) s) := by
      simp [exec, execCtleSearchDone, search, thawed, len]
    refine ⟨_, runs, ?_, ?_, lanesBut_modLane _ _ _⟩ <;> simp
  · have inside : cdrInRange f = true := decide_eq_true (by omega)
    simp [exec, execFreqLock, freq, inside]
  · have runs : exec (.convergeDone n m mse) s = .next (modLane n (fun l => { l with state := .qualify }) (laneUpdate n m s)) := by
      simp [exec, execConvergeDone, converge, thawed, stable]
    have free : laneFrozen s (lane s n) = false := by simp [laneFrozen, thawed, converge]
    have step : stepSize (lane s n) = (lane s n).set.muAcq := by simp [stepSize, laneUp, converge]
    refine ⟨_, runs, ?_, ?_, (laneUpdate_but n m s).trans (lanesBut_modLane _ _ _), ?_⟩
    · simp
    · simp
    · rw [lane_modLane_same, ← step]
      exact laneUpdate_coef m free
  · have runs : exec (.qualifyPass n m q latency) s = .next (laneAcquired n false m latency s) := by
      simp [exec, execQualifyPass, qualify, thawed, good]
    refine ⟨_, runs, ?_, ?_, ?_, ?_, ?_, laneAcquired_but n false m latency s⟩ <;> simp [lane_of_modLane (laneAcquired_lanes n false m latency s)]
  · have bad' : qualified s n m q = false := by
      rcases bad with snr | few | many | ⟨inner, code⟩
      · simp [qualified, snrOk, snr]
      · simp [qualified, few]
      · simp [qualified, many]
      · simp [qualified, inner, code]
    simp [exec, execQualifyPass, bad']
  · exact ⟨expire n s, by simp [exec, execQualifyWindowEnd, qualify, thawed], expire_does n s⟩
  · have runs : ∃ u, exec (.phaseBudgetExpiry n rms) s = .next (expire n u) ∧ LanesBut n s u ∧ (lane u n).ctr = (lane s n).ctr := by
      have go : (lane s n).state = .freq ∨ (((lane s n).state = .ctleSearch ∨ (lane s n).state = .converge) ∧ s.bed.boActive = false) :=
        phase.imp_right fun h => ⟨.inr h.1, h.2⟩
      by_cases lost : amplitudeLost (lane s n) rms = true ∧ (lane s n).state ≠ .acquired
      · refine ⟨modLane n (fun l => { l with xwin := none }) s, ?_, lanesBut_modLane _ _ _, by simp⟩
        simp only [exec, execPhaseBudgetExpiry, if_pos lost]
        exact congrArg Host.Outcome.next (if_pos go)
      · refine ⟨s, ?_, .rfl, rfl⟩
        simp only [exec, execPhaseBudgetExpiry, if_neg lost]
        exact congrArg Host.Outcome.next (if_pos go)
    obtain ⟨u, runs, others, count⟩ := runs
    obtain ⟨state, coef, ctr, but⟩ := expire_does n u
    exact ⟨_, runs, state, coef, by rw [ctr, count], others.trans but⟩
  · have lost : amplitudeLost (lane s n) rms = true := decide_eq_true quiet
    simp [exec, execPhaseBudgetExpiry, expired, lost]
  · simp [exec, execAcqGapEnd, expired]
  · simp only [List.mem_cons, List.not_mem_nil, or_false] at member
    rcases member with rfl | rfl | rfl | rfl
    · simp [exec, execCtleSearchDone, frozen]
    · simp [exec, execConvergeDone, frozen]
    · simp [exec, execQualifyPass, frozen]
    · simp [exec, execQualifyWindowEnd, frozen]

end Sys2Proof.Machine
end

section
/-! PROOFS. Loss of signal and the warm start. -/
namespace Sys2Proof.Machine

theorem losDeclare_lane (n cause : Nat) (s : State) : lane (losDeclare n cause s) n = { lane s n with
    state := .losHeld, losCause := cause, held := some (heldSet s n), rot := keptStep (lane s n), noisePosted := false, noiseHigh := 0
    ctr := ctrAdd (lane s n).ctr 24 1 } := by
  rw [lane_congr (losDeclare_lanes n cause s), lane_laneCount, lane_modLane_same]

theorem laneCold_lanes (n : Nat) (s : State) : (laneCold n s).lanes = (modLane n coldLane s).lanes := by
  unfold laneCold
  dsimp only
  split <;> simp

theorem laneCold_but (n : Nat) (s : State) : LanesBut n s (laneCold n s) := .of_modLane (laneCold_lanes n s)

/-! A port after a change to it, and the other ports. -/

theorem port?_congr {s t : State} (h : t.ports = s.ports) (p : Nat) : port? t p = port? s p := by rw [port?, h, port?]

@[simp] theorem port?_modPort_same (p : Nat) (f : Port → Port) (s : State) : port? (modPort p f s) p = (port? s p).map f := by
  unfold modPort
  split
  · next none => simp [none]
  · next q found => simp [port?, mfind_mput, show mfind s.ports.tab p = some q from found]

theorem port?_modPort_other {p k : Nat} (f : Port → Port) (s : State) (other : k ≠ p) : port? (modPort p f s) k = port? s k := by
  unfold modPort
  split
  · rfl
  · simp [port?, mfind_mput, other]

theorem modPort_of_some {p : Nat} {f : Port → Port} {q : Port} {s : State} (h : port? s p = some q) :
    modPort p f s = s.mapPorts fun b => { b with tab := mput b.tab p (f q) } := by simp [modPort, h]

theorem modPort_isSome (p k : Nat) (f : Port → Port) (s : State) : (port? (modPort p f s) k).isSome = (port? s k).isSome := by
  by_cases same : k = p
  · subst same
    rw [port?_modPort_same, Option.isSome_map]
  · rw [port?_modPort_other f s same]

theorem portDown_isSome (p k detail : Nat) (s : State) : (port? (portDown p detail s) k).isSome = (port? s k).isSome := by
  unfold portDown
  dsimp only
  rw [port?_congr (post_ports _ _ _ _ _), portCount, modPort_isSome, modPort_isSome]

theorem portLaneLost_isSome (n k : Nat) (s : State) : (port? (portLaneLost n s) k).isSome = (port? s k).isSome := by
  unfold portLaneLost
  split
  · rfl
  · split
    · rfl
    · split
      · exact portDown_isSome _ _ _ _
      · rfl

theorem laneCold_port_isSome (n k : Nat) (s : State) : (port? (laneCold n s) k).isSome = (port? s k).isSome := by
  unfold laneCold
  dsimp only
  split
  · exact portLaneLost_isSome _ _ _
  · rfl

/-- A pass that makes a fact that every pass keeps. -/
theorem forEach_makes {P : State → Prop} {f : Nat → State → State} {k : Nat} (keeps : ∀ n t, P t → P (f n t)) (makes : ∀ t, P (f k t)) {l : List Nat}
    {s : State} (member : k ∈ l) : P (forEach l f s) := by
  unfold forEach
  induction l generalizing s with
  | nil => simp at member
  | cons n l ih =>
    rcases List.mem_cons.1 member with rfl | later
    · exact forEach_induct keeps l (makes s)
    · exact ih later

theorem forEach_keeps_of_mem {P : State → Prop} {f : Nat → State → State} {l : List Nat} (keeps : ∀ n t, n ∈ l → P t → P (f n t))
    {s : State} (h : P s) : P (forEach l f s) := by
  unfold forEach
  induction l generalizing s with
  | nil => exact h
  | cons n l ih => exact ih (fun i t later => keeps i t (List.mem_cons_of_mem n later)) (keeps n s List.mem_cons_self h)

theorem fallBack_opMode_makes (k : Nat) (s : State) : (lane (laneCold k (modLane k (laneMode 1) s)) k).opMode = 1 := by
  rw [lane_of_modLane (laneCold_lanes k _), lane_modLane_same]
  simp only [coldLane, laneMode]
  split
  · next same => exact same
  · rfl

theorem fallBack_opMode_keeps (i k : Nat) (s : State) (h : (lane s k).opMode = 1) : (lane (laneCold i (modLane i (laneMode 1) s)) k).opMode = 1 := by
  by_cases same : k = i
  · subst same
    exact fallBack_opMode_makes k s
  · have but := ((lanesBut_modLane i (laneMode 1) s).trans (laneCold_but i _)) k same
    rw [lane, mget, but]
    exact h

/-- Settles O30: loss, its declaration and the warm start each change the one lane. -/
theorem lossAndWarmRows : Obligations.LossAndWarmRows := by
  unfold Obligations.LossAndWarmRows
  refine ⟨fun n rms m s acquired quiet => ?_, fun n rms s pending loud => ?_, fun n s pending => ?_, fun n bad missing m s acquired lost => ?_,
    fun n s held => ?_, fun n f s warm thawed lo hi => ?_, fun n latency m q s warm freq thawed good => ?_, fun n s warm thawed => ?_,
    fun n p q s port there mode window state primary thawed => ?_, fun n p s port mode window state secondary thawed => ?_⟩
  · have lost : amplitudeLost (lane s n) rms = true := decide_eq_true quiet
    have runs : exec (.amplitudeLoss n rms m) s =
        .next (squelchSynce n (modLane n (fun l => { l with state := .losPending, rot := keptStep l }) (laneUpdate n m s))) := by
      simp [exec, execAmplitudeLoss, acquired, lost]
    have lanes := squelchSynce_lanes n (modLane n (fun l => { l with state := .losPending, rot := keptStep l }) (laneUpdate n m s))
    refine ⟨_, runs, ?_, ?_, ?_, ((laneUpdate_but n m s).trans (.of_modLane lanes)), rfl⟩
    · rw [lane_of_modLane lanes]
    · rw [lane_of_modLane lanes]
      simp [keptStep]
    · rw [lane_of_modLane lanes]
      simp
  · have loud' : amplitudePresent (lane s n) rms = true := decide_eq_true loud
    obtain ⟨t, runs, lanes⟩ : ∃ t, exec (.amplitudeReturn n rms 0) s = .next t ∧
        t.lanes = (laneCount n 23 1 (modLane n (fun l => { l with state := .acquired }) s)).lanes := by
      refine ⟨_, rfl, ?_⟩
      simp only [pending, loud', ne_eq, not_true_eq_false, Bool.true_eq_false, or_false, if_false]
      split
      · rfl
      · exact portTryAlign_lanes _ _
    refine ⟨t, runs, ?_, ?_, ((lanesBut_modLane _ _ _).trans (laneCount_but _ _ _ _)).trans (.of_lanes lanes)⟩ <;>
      simp [lane_congr lanes, ctrOf_ctrAdd]
  · refine ⟨losDeclare n 1 s, by simp [exec, execLosPendingTimeout, pending], ?_, ?_, ?_, losDeclare_but n 1 s, heldSet s n, ?_, rfl, rfl, rfl, rfl, rfl, rfl⟩ <;>
      simp [losDeclare_lane, ctrOf_ctrAdd]
  · refine ⟨losDeclare n 2 (laneUpdate n m s), ?_, ?_, ?_, ?_, (laneUpdate_but n m s).trans (losDeclare_but n 2 _), ?_⟩
    · simp [exec, execAlignmentLoss, acquired, lost]
    all_goals simp [losDeclare_lane, ctrOf_ctrAdd, keptStep]
  · simp [exec, execLosHeldTimeout, held]
  · have inside : cdrInRange f = true := decide_eq_true (by omega)
    simp [exec, execWarmFreqCheck, warm, thawed, inside]
  · have runs : exec (.warmQualify n m q latency) s = .next (laneAcquired n true m latency s) := by
      simp [exec, execWarmQualify, warm, freq, thawed, good]
    refine ⟨_, runs, ?_, ?_, ?_, laneAcquired_but n true m latency s⟩ <;> simp [lane_of_modLane (laneAcquired_lanes n true m latency s)]
  · have runs : exec (.warmFailed n) s = .next (laneCount n 22 1 (modLane n (fun l => { searchFrom l with presentAt := s.now }) s)) := by
      simp [exec, execWarmFailed, warm, thawed]
    refine ⟨_, runs, ?_, ?_, ?_, (lanesBut_modLane _ _ _).trans (laneCount_but _ _ _ _)⟩ <;> simp [searchFrom, ctrOf_ctrAdd]
  · have runs : exec (.x200Fallback n) s = .next (post 0x1008 1 p n (modPort p (fun q => { q with fallback := true })
        (forEach (portLanes s p) (fun n s => laneCold n (modLane n (laneMode 1) s)) s))) := by
      have window' : (lane s n).xwin ≠ none := Option.isSome_iff_ne_none.1 window
      simp [exec, execX200Fallback, port, mode, window', state, primary, thawed]
    have span : portLanes s p = List.range' p q.lanes := by
      have found : mfind s.ports.tab p = some q := there
      simp [portLanes, portD, mget, found]
    have lanes : ∀ u : State, (post 0x1008 1 p n (modPort p (fun q => { q with fallback := true }) u)).lanes = u.lanes := by simp
    refine ⟨_, runs, fun k lo hi => ?_, ?_, fun k outside => ?_⟩
    · rw [lane_congr (lanes _), span]
      exact forEach_makes (P := fun t => (lane t k).opMode = 1) (fun i t h => fallBack_opMode_keeps i k t h) (fun t => fallBack_opMode_makes k t)
        (List.mem_range'_1.2 ⟨lo, hi⟩)
    · have there' : (port? (forEach (portLanes s p) (fun n s => laneCold n (modLane n (laneMode 1) s)) s) p).isSome = true :=
        forEach_induct (P := fun t => (port? t p).isSome = true) (fun i t h => (laneCold_port_isSome i p (modLane i (laneMode 1) t)).trans h) _
          (by rw [there]; rfl)
      obtain ⟨q', found⟩ := Option.isSome_iff_exists.1 there'
      refine ⟨{ q' with fallback := true }, ?_, rfl⟩
      rw [port?_congr (post_ports _ _ _ _ _), port?_modPort_same, found]
      rfl
    · rw [lanes, span]
      refine forEach_keeps_of_mem (P := fun t => mfind t.lanes.tab k = mfind s.lanes.tab k) (fun i t member h => ?_) rfl
      have other : k ≠ i := by
        have := List.mem_range'_1.1 member
        omega
      exact (((lanesBut_modLane i (laneMode 1) t).trans (laneCold_but i _)) k other).trans h
  · obtain ⟨t, runs, lanes⟩ : ∃ t, exec (.x200RxAlternate n) s = .next t ∧
        t.lanes = (laneCold n (modLane n (fun l => { l with rxAlt := !l.rxAlt, altPosted := true }) s)).lanes := by
      have window' : (lane s n).xwin ≠ none := Option.isSome_iff_ne_none.1 window
      refine ⟨_, rfl, ?_⟩
      simp only [port, mode, window', state, secondary, thawed]
      cases (lane s n).altPosted
      · exact post_lanes _ _ _ _ _
      · rfl
    have now : lane t n = coldLane { lane s n with rxAlt := !(lane s n).rxAlt, altPosted := true } := by
      rw [lane_congr lanes, lane_of_modLane (laneCold_lanes n _), lane_modLane_same]
    refine ⟨t, runs, ?_, ?_, ?_, ((lanesBut_modLane _ _ _).trans (laneCold_but n _)).trans (.of_lanes lanes)⟩
    · rw [now]
      rfl
    · rw [now]
      rfl
    · rw [now]
      exact mode

end Sys2Proof.Machine
end

section
/-! PROOFS. A forced map during a standby measurement. -/
namespace Sys2Proof.Machine

/-- A LANE_DIAG FORCE of the lane's own map. -/
def forceEntry : List Byte := [0x1C] ++ zeros 31 ++ [1] ++ leBytes 9 Lane.init.sliceMap.toNat ++ zeros 22

/-- Lane 0 has a port and, as that command comes, a rotation step that measures slice 32 in standby. -/
def forcedInStandby : State :=
  modLane 0 (fun l => { l with port := some 0, rot := some { Rot.init with phase := .standby, out := 32 } })
    (State.reset.mapFl fun f => { f with cmds := [(7, { Cmd.init with entry := forceEntry })] })

/-- Refutes O31: LANE_DIAG FORCE keeps a rotation step in its standby measurement of a slice outside the map. -/
theorem not_rampAndLaneCommands : ¬ Obligations.RampAndLaneCommands := by
  unfold Obligations.RampAndLaneCommands
  rintro ⟨-, -, -, -, -, -, -, -, -, -, -, -, -, -, force, -⟩
  obtain ⟨t, runs, -, -, none, -⟩ := force 7 { Cmd.init with entry := forceEntry } forcedInStandby (by unfold Begins; decide +kernel) (by decide +kernel)
    (by decide +kernel) (by decide +kernel) (by decide +kernel) (by decide +kernel) (by decide +kernel) (by decide +kernel)
  have kept : (match exec (.laneDiag 7) forcedInStandby with
    | .next u => (lane u 0).rot.isSome
    | _ => false) = true := by decide +kernel
  rw [runs] at kept
  have target : Cmd.target { Cmd.init with entry := forceEntry } = 0 := by decide +kernel
  rw [target] at none
  simp [none] at kept

end Sys2Proof.Machine
end

section
/-! PROOFS. Alignment lock after a cut frame. -/
namespace Sys2Proof.Machine

/-- Port 0 aligns again after a loss that cut a frame short. -/
def cutAligning : State := State.reset.mapPorts fun b => { b with tab := [(0, { Port.init with state := .aligning, cut := true })] }

/-- Refutes O33: alignment lock also forgets that a frame was cut, so that the port is not the old one with its state and skew changed. -/
theorem not_portRows : ¬ Obligations.PortRows := by
  unfold Obligations.PortRows
  rintro ⟨lock, -⟩
  obtain ⟨t, runs, up, -, -⟩ := lock 0 { Port.init with state := .aligning, cut := true } cutAligning (by decide +kernel) (by decide +kernel) (by decide +kernel)
  have forgets : (match exec (.portAlignLock 0) cutAligning with
    | .next u => (port? u 0).map Port.cut
    | _ => none) = some false := by decide +kernel
  rw [runs] at forgets
  simp [up] at forgets

end Sys2Proof.Machine
end

section
/-! PROOFS. Cages and their bring-up. -/
namespace Sys2Proof.Machine

@[simp] theorem State_tick_cages (s : State) : s.tick.cages = s.cages := (rfl)

@[simp] theorem ite_cages {c : Prop} [Decidable c] (a b : State) :
    (if c then a else b).cages = if c then a.cages else b.cages := apply_ite (fun s : State => s.cages) c a b

@[simp] theorem foldl_cages {α : Type} {f : State → α → State} (same : ∀ s a, (f s a).cages = s.cages) (l : List α) (s : State) :
    (l.foldl f s).cages = s.cages := by
  induction l generalizing s with
  | nil => rfl
  | cons a l ih => exact (ih (f s a)).trans (same s a)

@[simp] theorem forEach_cages {f : Nat → State → State} (same : ∀ n s, (f n s).cages = s.cages) (l : List Nat) (s : State) :
    (forEach l f s).cages = s.cages :=
  foldl_cages (fun s n => same n s) l s

@[simp] theorem modLane_cages (n : Nat) (f : Lane → Lane) (s : State) : (modLane n f s).cages = s.cages := (rfl)

@[simp] theorem laneRampDown_cages (n : Nat) (stop : Bool) (s : State) : (laneRampDown n stop s).cages = s.cages := by
  simp [laneRampDown]
  split <;> simp

@[simp] theorem modPort_cages (p : Nat) (f : Port → Port) (s : State) : (modPort p f s).cages = s.cages := by
  unfold modPort
  split <;> simp

@[simp] theorem State_tick_boot_started (s : State) : s.tick.boot.started = s.boot.started := (rfl)

@[simp] theorem ite_boot_started {c : Prop} [Decidable c] (a b : State) :
    (if c then a else b).boot.started = if c then a.boot.started else b.boot.started := apply_ite (fun s : State => s.boot.started) c a b

@[simp] theorem foldl_boot_started {α : Type} {f : State → α → State} (same : ∀ s a, (f s a).boot.started = s.boot.started) (l : List α) (s : State) :
    (l.foldl f s).boot.started = s.boot.started := by
  induction l generalizing s with
  | nil => rfl
  | cons a l ih => exact (ih (f s a)).trans (same s a)

@[simp] theorem forEach_boot_started {f : Nat → State → State} (same : ∀ n s, (f n s).boot.started = s.boot.started) (l : List Nat) (s : State) :
    (forEach l f s).boot.started = s.boot.started :=
  foldl_boot_started (fun s n => same n s) l s

@[simp] theorem modCage_boot_started (c : Nat) (f : Cage → Cage) (s : State) : (modCage c f s).boot.started = s.boot.started := (rfl)

@[simp] theorem modCage_lanes (c : Nat) (f : Cage → Cage) (s : State) : (modCage c f s).lanes = s.lanes := (rfl)

@[simp] theorem cagePowerOn_lanes (c : Nat) (s : State) : (cagePowerOn c s).lanes = s.lanes := (rfl)

theorem portsBut_modPort (p : Nat) (f : Port → Port) (s : State) : PortsBut p s (modPort p f s) := fun _ other => port?_modPort_other f s other

/-! A cage after a change to it, and the other cages. -/

theorem cage_congr {s t : State} (h : t.cages = s.cages) (n : Nat) : cage t n = cage s n := by simp [cage, h]

theorem CagesBut.rfl {n : Nat} {s : State} : CagesBut n s s := fun _ _ => Eq.refl _

theorem CagesBut.trans {n : Nat} {s t u : State} (h : CagesBut n s t) (g : CagesBut n t u) : CagesBut n s u := fun k other =>
  (g k other).trans (h k other)

theorem CagesBut.of_cages {n : Nat} {s t : State} (h : t.cages = s.cages) : CagesBut n s t := fun k _ => by rw [h]

theorem cagesBut_modCage (n : Nat) (f : Cage → Cage) (s : State) : CagesBut n s (modCage n f s) := fun k other => by
  simp [modCage, mmod, mfind_mput, other]

/-- A state whose cages are those after one change of a cage. -/
theorem CagesBut.of_modCage {n : Nat} {f : Cage → Cage} {s t : State} (h : t.cages = (modCage n f s).cages) : CagesBut n s t :=
  (cagesBut_modCage n f s).trans (.of_cages h)

theorem cage_of_modCage {n : Nat} {f : Cage → Cage} {s t : State} (h : t.cages = (modCage n f s).cages) : cage t n = f (cage s n) :=
  (cage_congr h n).trans (cage_modCage_same n f s)

theorem modCage_congr {n : Nat} {f : Cage → Cage} {s t : State} (h : t.cages = s.cages) : (modCage n f t).cages = (modCage n f s).cages := by
  simp [modCage, h]

theorem started_of_cageLive {s : State} (live : cageLive s = true) : s.boot.started = true ∧ railUp s 8 = true ∧ s.bed.cageHeld = false := by
  simpa [cageLive, and_assoc] using live

theorem cageLive_modCage (n : Nat) (f : Cage → Cage) (s : State) : cageLive (modCage n f s) = cageLive s := rfl

/-- A fault of a cage that has none changes the pins and state of the one cage. -/
theorem cageFault_cages {n : Nat} (cause : Nat) {s : State} (well : (cage s n).state ≠ .fault) :
    (cageFault n cause s).cages = (modCage n (faultPins cause) s).cages := by
  unfold cageFault
  dsimp only
  rw [if_neg well, finishAll_cages, post_cages]
  refine modCage_congr ?_
  rw [forEach_cages fun p t => modPort_cages p _ t, forEach_cages fun p t => laneRampDown_cages p true t]

theorem cageFault_does {n : Nat} (cause : Nat) {s : State} (well : (cage s n).state ≠ .fault) :
    cage (cageFault n cause s) n = faultPins cause (cage s n) ∧ CagesBut n s (cageFault n cause s) :=
  ⟨cage_of_modCage (cageFault_cages cause well), .of_modCage (cageFault_cages cause well)⟩

/-- What the removal of a module leaves of its cage. -/
def Cage.removed (g : Cage) : Cage :=
  { g with
    state := .absent, cause := 0, pwren := false, rstAsserted := true, lpmLow := false, info := none, i2c := [], apps := []
    outDis := 0, dpDeact := 0, fastUsed := false, ownFails := 0, lpmDefer := false, hostTxPre := 0, hostRxPre := 0, mediaCmd := none }

theorem cageRemove_cages (n : Nat) (s : State) : (cageRemove n s).cages = (modCage n Cage.removed s).cages := by
  unfold cageRemove
  dsimp only
  rw [post_cages, finishAll_cages]
  refine modCage_congr ?_
  rw [forEach_cages fun p t => modPort_cages p _ t, forEach_cages fun p t => laneRampDown_cages p true t]

theorem cagePorts_congr {s t : State} (h : t.ports = s.ports) (n : Nat) : cagePorts t n = cagePorts s n := by simp [cagePorts, h]

theorem cageLive_congr {s t : State} (boot : t.boot = s.boot) (bed : t.bed = s.bed) : cageLive t = cageLive s := by
  simp [cageLive, railUp, boot, bed]

/-- A module that reports low power: what is read of it, before the cage goes on. -/
def lowPowerRead (n : Nat) (i : ModuleInfo) (s : State) : State :=
  post 0xD001 0 n 0 (modCage n (fun g => { g with state := .lowPower, info := some i, fastUsed := g.fast && i.fast, ownFails := 0 }) s)

theorem lowPowerRead_cages (n : Nat) (i : ModuleInfo) (s : State) : (lowPowerRead n i s).cages =
    (modCage n (fun g => { g with state := .lowPower, info := some i, fastUsed := g.fast && i.fast, ownFails := 0 }) s).cages := post_cages _ _ _ _ _

theorem moduleLowPwrReport_runs {n : Nat} (i : ModuleInfo) {s : State} (live : cageLive s = true) (init : (cage s n).state = .mgmtInit) :
    exec (.moduleLowPwrReport n i) s = .next (cageLowPower n (lowPowerRead n i s)) := by
  simp [exec, execModuleLowPwrReport, live, init, lowPowerRead]

theorem lowPowerRead_cage (n : Nat) (i : ModuleInfo) (s : State) : cage (lowPowerRead n i s) n =
    { cage s n with state := .lowPower, info := some i, fastUsed := (cage s n).fast && i.fast, ownFails := 0 } := cage_of_modCage (lowPowerRead_cages n i s)

theorem lowPowerRead_live (n : Nat) (i : ModuleInfo) (s : State) : cageLive (lowPowerRead n i s) = cageLive s :=
  cageLive_congr (post_boot _ _ _ _ _) (post_bed _ _ _ _ _)

theorem secondaryDark_does (n : Nat) (s : State) :
    (cage (secondaryDark n s) n).state = (cage s n).state ∧ CagesBut n s (secondaryDark n s) := by
  unfold secondaryDark
  dsimp only
  split
  · rw [cage_modCage_same]
    exact ⟨rfl, cagesBut_modCage _ _ _⟩
  · exact ⟨rfl, .rfl⟩

/-- Settles O34: each row of the bring-up is one change of its cage. -/
theorem cageBringUpRows : Obligations.CageBringUpRows := by
  unfold Obligations.CageBringUpRows
  refine ⟨fun n s live small gone absent => ?_, fun n s live there => ?_, fun n s live there => ?_, fun n s live on => ?_,
    fun n i s live init rev free => ?_, fun n i s live init rev => ?_, fun n s live init => ?_, fun n s live up free => ?_, fun n s live up => ?_,
    fun p q s live port waits => ?_, fun p q s live port waits ready => ?_, fun i n s dead member => ?_⟩
  · obtain ⟨started, rail, -⟩ := started_of_cageLive live
    have runs : exec (.modulePresent n) s = .next (cagePowerOn n (modCage n (fun g => { g with present := true }) s)) := by
      have inside : ¬ 32 ≤ n := by omega
      simp [exec, execModulePresent, started, rail, gone, inside, cageLive_modCage, live, cage_modCage_same, absent]
    refine ⟨_, runs, ?_, ?_, ?_, ?_, (cagesBut_modCage _ _ _).trans (cagesBut_modCage _ _ _), rfl⟩ <;> simp [cagePowerOn, cage_modCage_same]
  · obtain ⟨started, rail, -⟩ := started_of_cageLive live
    have runs : exec (.moduleRemoval n) s = .next (cageRemove n (modCage n (fun g => { g with present := false }) s)) := by
      simp [exec, execModuleRemoval, started, rail, there, cageLive_modCage, live]
    refine ⟨_, runs, ?_⟩
    dsimp only
    rw [cage_of_modCage (cageRemove_cages n _), cage_modCage_same]
    exact ⟨rfl, rfl, rfl, rfl, rfl, rfl, rfl, rfl, (cagesBut_modCage _ _ _).trans (.of_modCage (cageRemove_cages n _))⟩
  · simp [exec, execPrsGlitch, live, there]
  · simp [exec, execCagePowerOnDone, live, on]
  · have ports : cagePorts (lowPowerRead n i s) n = [] := (cagePorts_congr (post_ports _ _ _ _ _) n).trans free
    have stays : cageLowPower n (lowPowerRead n i s) = lowPowerRead n i s := by
      simp [cageLowPower, lowPowerRead_cage, lowPowerRead_live, live, rev, ports]
    refine ⟨_, moduleLowPwrReport_runs i live init, ?_⟩
    dsimp only
    rw [stays, lowPowerRead_cage]
    exact ⟨rfl, rfl, rfl, .of_modCage (lowPowerRead_cages n i s)⟩
  · have faults : cageLowPower n (lowPowerRead n i s) = cageFault n 2 (lowPowerRead n i s) := by
      simp [cageLowPower, lowPowerRead_cage, lowPowerRead_live, live, rev]
    obtain ⟨e, but⟩ := cageFault_does (n := n) 2 (s := lowPowerRead n i s) (by simp [lowPowerRead_cage])
    refine ⟨_, moduleLowPwrReport_runs i live init, ?_⟩
    dsimp only
    rw [faults, e]
    exact ⟨rfl, rfl, rfl, (CagesBut.of_modCage (lowPowerRead_cages n i s)).trans but⟩
  · obtain ⟨e, but⟩ := cageFault_does (n := n) 1 (s := s) (by simp [init])
    refine ⟨cageFault n 1 s, by simp [exec, execMgmtInitTimeout, init, live], ?_⟩
    dsimp only
    rw [e]
    exact ⟨rfl, rfl, rfl, rfl, rfl, but⟩
  · have runs : exec (.moduleReady n) s = .next (secondaryDark n (modCage n (fun g => { g with state := .ready }) s)) := by
      have none : cagePorts (modCage n (fun g => { g with state := .ready }) s) n = [] := free
      simp [exec, execModuleReady, up, live, cageEnterReady, none, forEach]
    obtain ⟨state, but⟩ := secondaryDark_does n (modCage n (fun g => { g with state := .ready }) s)
    exact ⟨_, runs, by rw [state, cage_modCage_same], (cagesBut_modCage _ _ _).trans but⟩
  · obtain ⟨e, but⟩ := cageFault_does (n := n) 4 (s := s) (by simp [up])
    refine ⟨cageFault n 4 s, by simp [exec, execPowerUpTimeout, up, live], ?_⟩
    dsimp only
    rw [e]
    exact ⟨rfl, rfl, but⟩
  · have dp : (portD s p).dp = .waiting := by simp [portD, mget, show mfind s.ports.tab p = some q from port, waits]
    refine ⟨modPort p (fun q => { q with dp := .done }) s, by simp [exec, execDpActivated, dp, live], ?_, portsBut_modPort _ _ _, modPort_cages _ _ _⟩
    rw [port?_modPort_same, port]
    rfl
  · obtain ⟨e, but⟩ := cageFault_does (n := p / 8) 5 (s := s) (by simp [ready])
    have dp : (portD s p).dp = .waiting := by simp [portD, mget, show mfind s.ports.tab p = some q from port, waits]
    refine ⟨cageFault (p / 8) 5 s, by simp [exec, execDataPathTimeout, dp, live], ?_⟩
    dsimp only
    rw [e]
    exact ⟨rfl, rfl, but⟩
  · simp only [List.mem_cons, List.not_mem_nil, or_false] at member
    rcases member with rfl | rfl | rfl | rfl | rfl
    · simp [exec, execCagePowerOnDone, dead]
    · simp [exec, execMgmtInitTimeout, dead]
    · simp [exec, execModuleReady, dead]
    · simp [exec, execPowerUpTimeout, dead]
    · simp [exec, execPrsGlitch, dead]

end Sys2Proof.Machine
end

section
/-! PROOFS. Running modules and the cage commands. -/
namespace Sys2Proof.Machine

@[simp] theorem cageLive_beginCmd (id : Nat) (c : Cmd) (s : State) : cageLive (beginCmd id c s) = cageLive s := rfl
@[simp] theorem cage_beginCmd (id : Nat) (c : Cmd) (s : State) (n : Nat) : cage (beginCmd id c s) n = cage s n := rfl
@[simp] theorem cagePorts_beginCmd (id : Nat) (c : Cmd) (s : State) (n : Nat) : cagePorts (beginCmd id c s) n = cagePorts s n := rfl
@[simp] theorem cageSetCheck_begun (id : Nat) (c : Cmd) (s : State) : cageSetCheck (c.begun s) (beginCmd id c s) = cageSetCheck c s := rfl
@[simp] theorem transferBad_begun (c : Cmd) (s : State) : transferBad (c.begun s) = transferBad c := rfl
@[simp] theorem writesManaged_begun (c : Cmd) (s : State) : writesManaged (c.begun s) = writesManaged c := rfl
@[simp] theorem xferOf_begun (id : Nat) (c : Cmd) (s : State) (l : List Byte) : xferOf id (c.begun s) l = xferOf id c l := rfl
@[simp] theorem transferReady_beginCmd (id : Nat) (c : Cmd) (s : State) (n : Nat) : transferReady (beginCmd id c s) n = transferReady s n := rfl
@[simp] theorem cageBlock_beginCmd (id : Nat) (c : Cmd) (s : State) (n : Nat) : cageBlock (beginCmd id c s) n = cageBlock s n := rfl

theorem mediaSettle_of_none {n : Nat} {s : State} (h : (cage s n).mediaCmd = none) : mediaSettle n s = s := by simp [mediaSettle, h]

theorem ready_of_managed {g : Cage} (h : cageManaged g = true) : g.state ≠ .fault := by
  intro fault
  simp [cageManaged, fault] at h

/-- A transfer of a command that ends, before its command completes. -/
theorem transferComplete_runs {n id : Nat} {data : List Byte} {x : CageXfer} {r : List CageXfer} {s : State} (live : cageLive s = true)
    (queue : (cage s n).i2c = x :: r) (owner : x.cmd = some id) : exec (.i2cTransferComplete n data) s =
      .next (mediaSettle n (transferDone id data (modCage n (wroteBy x) (modCage n (fun g => { g with i2c := r }) s)))) := by
  simp [exec, execI2cTransferComplete, queue, live, owner]

theorem transferFail_faults {n : Nat} {s : State} (well : (cage s n).state ≠ .fault) (none : (cage s n).mediaCmd = none) :
    mediaSettle n (cageFault n 6 s) = cageFault n 6 s := by
  refine mediaSettle_of_none ?_
  rw [(cageFault_does 6 well).1]
  exact none

theorem wroteBy_mediaCmd (x : CageXfer) (g : Cage) : (wroteBy x g).mediaCmd = g.mediaCmd := by
  unfold wroteBy
  split <;> rfl

theorem transferred_cage (n : Nat) (x : CageXfer) (r : List CageXfer) (s : State) :
    cage (modCage n (wroteBy x) (modCage n (fun g => { g with i2c := r }) s)) n = wroteBy x { cage s n with i2c := r } := by
  rw [cage_modCage_same, cage_modCage_same]

theorem transferDone_of_write {id : Nat} (data : List Byte) {c : Cmd} {t : State} (flight : mfind t.fl.cmds id = some c) (write : c.opcode ≠ 0xD2) :
    transferDone id data t = finish id .success 0 0 true t := by
  simp [transferDone, flight, write]

theorem transferDone_of_read {id : Nat} (data : List Byte) {c : Cmd} {t : State} (flight : mfind t.fl.cmds id = some c) (read : c.opcode = 0xD2) :
    transferDone id data t = finish id .success 0 0 true (hostWrite c.indAddr ((data ++ zeros (c.byte 35)).take (c.byte 35)) t) := by
  simp [transferDone, flight, read, writeBlock]

theorem finish_transfer_free {n id : Nat} {t : State} (free : (cage t n).mediaCmd = none) : (cage (finish id .success 0 0 true t) n).mediaCmd = none := by
  rw [cage_congr (finish_done id .success 0 0 true t).cages]
  exact free

/-- A command whose effect on the cages is one change of a cage. -/
theorem finish_cage {n : Nat} {f : Cage → Cage} {id : Nat} {st : Status} {r0 r1 : BitVec 64} {eff : Bool} {s t : State}
    (h : t.cages = (modCage n f s).cages) : cage (finish id st r0 r1 eff t) n = f (cage s n) ∧ CagesBut n s (finish id st r0 r1 eff t) :=
  ⟨cage_of_modCage ((finish_done id st r0 r1 eff t).cages.trans h), .of_modCage ((finish_done id st r0 r1 eff t).cages.trans h)⟩

/-- What CAGE_SET changes of a cage at once. -/
def cageSpeed (c : Cmd) (g : Cage) : Cage :=
  let fast := if sel (c.byte 32) 1 then decide (c.byte 34 = 1) else g.fast
  { g with
    fast := fast
    fastUsed := match g.info with
      | none => false
      | some i => fast && i.fast
    poll := if sel (c.byte 32) 2 then c.byte 36 else g.poll }

/-- Settles O35: the rows of a running module and the cage commands, each a change of its cage and the end of a command. -/
theorem cageServiceRows : Obligations.CageServiceRows := by
  unfold Obligations.CageServiceRows
  refine ⟨fun n b s live managed => ?_, fun n s live managed => ?_, fun n id data x r c s live queue owner flight write free => ?_,
    fun n id data x r c s live queue owner flight read free => ?_, fun n x r s live queue few => ?_, fun n x r s live queue many ready free => ?_,
    fun n s live queue own free => ?_, fun id c s begins plain poll zero lo hi live => ?_, fun id c s begins good media one cable live none => ?_,
    fun id c s begins plain live fault => ?_, fun id c s begins plain live well => ?_, fun id c s begins good ready allowed => ?_,
    fun id b c i s begins good info small ready plain len allowed => ?_, fun id h c s begins good info ready managed => ?_,
    fun id c s begins block free keep allowed => ?_, fun id c s begins plain free => ?_⟩
  · have runs : exec (.cagePoll n b [] false) s = .next (modCage n (fun g => { g with readings := (b ++ zeros 52).take 52, ownFails := 0 }) s) := by
      simp [exec, execCagePoll, managed, live, takeFlags]
    exact ⟨_, runs, by rw [cage_modCage_same], by rw [cage_modCage_same], cagesBut_modCage _ _ _, rfl, rfl⟩
  · obtain ⟨e, but⟩ := cageFault_does 7 (ready_of_managed managed)
    refine ⟨by simp [exec, execModuleInterrupt, managed, live, takeFlags], cageFault n 7 s,
      by simp [exec, execModuleInterrupt, managed, live, takeFlags], ?_⟩
    dsimp only
    rw [e]
    exact ⟨rfl, rfl, but⟩
  · rw [transferComplete_runs live queue owner, transferDone_of_write (t := modCage n (wroteBy x) (modCage n (fun g => { g with i2c := r }) s)) data (c := c) flight write]
    exact congrArg Host.Outcome.next (mediaSettle_of_none (finish_transfer_free (congrArg Cage.mediaCmd (transferred_cage n x r s) |>.trans
      ((wroteBy_mediaCmd _ _).trans free))))
  · rw [transferComplete_runs live queue owner, transferDone_of_read (t := modCage n (wroteBy x) (modCage n (fun g => { g with i2c := r }) s)) data (c := c) flight read]
    exact congrArg Host.Outcome.next (mediaSettle_of_none (finish_transfer_free (congrArg Cage.mediaCmd (transferred_cage n x r s) |>.trans
      ((wroteBy_mediaCmd _ _).trans free))))
  · simp [exec, execI2cTransferFail, queue, live, few]
  · have many' : ¬ x.fails < 2 := by omega
    have well : (cage s n).state ≠ .fault := by simp [ready]
    obtain ⟨e, but⟩ := cageFault_does 6 well
    refine ⟨cageFault n 6 s, by simp [exec, execI2cTransferFail, queue, live, many', transferFail_faults well free], ?_⟩
    dsimp only
    rw [e]
    exact ⟨rfl, rfl, rfl, but⟩
  · have well : (cage s n).state ≠ .fault := by
      rcases own with init | managed
      · simp [init]
      · exact ready_of_managed managed
    have owns : ownTransfers (cage s n) = true := by
      rcases own with init | managed
      · simp [ownTransfers, init]
      · simp [ownTransfers, managed]
    by_cases few : (cage s n).ownFails < 2
    · refine ⟨modCage n (fun g => { g with ownFails := g.ownFails + 1 }) s, by simp [exec, execI2cTransferFail, queue, live, owns, few], ?_⟩
      dsimp only
      rw [if_pos few, cage_modCage_same]
      exact ⟨rfl, rfl⟩
    · refine ⟨cageFault n 6 s, by simp [exec, execI2cTransferFail, queue, live, owns, few, transferFail_faults well free], ?_⟩
      dsimp only
      rw [if_neg few, (cageFault_does 6 well).1]
      exact ⟨rfl, rfl⟩
  · have s0 : sel (c.byte 32) 0 = false := by rw [poll]; decide
    have s1 : sel (c.byte 32) 1 = false := by rw [poll]; decide
    have s2 : sel (c.byte 32) 2 = true := by rw [poll]; decide
    have runs : exec (.cageSet id) s = .next (finish id .success 0 0 true (modCage c.target (cageSpeed c) (beginCmd id c s))) := by
      have bound : ¬ 0x64 < c.byte 36 ∧ c.byte 36 ≠ 0 ∧ ¬ 8 ≤ c.byte 32 := by omega
      refine congrArg Host.Outcome.next (runCmd_of_ok begins ?_ ?_)
      · simp [cageSetCheck, plain, s0, s1, zero, bound]
      · simp only [Cmd.begun_byte, Cmd.begun_target, cageLive_beginCmd, live, s0, Bool.not_true, Bool.false_eq_true, if_false, Bool.false_and,
          Bool.not_false, if_true]
        rfl
    obtain ⟨e, but⟩ := finish_cage (id := id) (st := .success) (r0 := 0) (r1 := 0) (eff := true) (n := c.target) (f := cageSpeed c)
      (s := s) (t := modCage c.target (cageSpeed c) (beginCmd id c s)) rfl
    refine ⟨_, runs, ?_⟩
    dsimp only
    rw [e, (finish_done _ _ _ _ _ _).lanes]
    refine ⟨?_, ?_, rfl, but, rfl⟩
    · simp [cageSpeed, s2]
    · simp [cageSpeed, s1]
  · have s0 : sel (c.byte 32) 0 = true := by rw [media]; decide
    have changes : (cage (modCage c.target (cageSpeed c) (beginCmd id c s)) c.target).c2m = false := by
      rw [cage_modCage_same]
      exact cable
    have runs : exec (.cageSet id) s = .next (finish id .success 0 0 true (modCage c.target (fun g => { g with c2m := !g.c2m })
        (modCage c.target (cageSpeed c) (beginCmd id c s)))) := by
      refine congrArg Host.Outcome.next (runCmd_of_ok begins good ?_)
      have change : (!(sel (c.byte 32) 0 && (decide (c.byte 33 = 1) != (cage (modCage c.target (cageSpeed c) (beginCmd id c s)) c.target).c2m))) = false := by
        simp [s0, one, changes]
      simp only [Cmd.begun_target, cageLive_beginCmd, live, Bool.not_true, Bool.false_eq_true, if_false]
      refine (if_neg (by rw [Bool.not_eq_true]; exact change)).trans (if_pos none)
    refine ⟨_, runs, ?_, ?_, (finish_done _ _ _ _ _ _).lanes⟩
    · rw [cage_congr (finish_done _ _ _ _ _ _).cages, cage_modCage_same, changes]
      rfl
    · exact ((CagesBut.of_modCage (f := cageSpeed c) (s := s) rfl).trans (cagesBut_modCage _ _ _)).trans (.of_cages (finish_done _ _ _ _ _ _).cages)
  · obtain ⟨e, but⟩ := finish_cage (id := id) (st := .success) (r0 := 0) (r1 := 0) (eff := true) (n := c.target) (f := fun g =>
      { g with state := .powerOn, cause := 0, pwren := true, rstAsserted := true, lpmLow := false, lpmDefer := false, info := none, fastUsed := false, ownFails := 0 })
      (s := s) (t := cagePowerOn c.target (beginCmd id c s)) rfl
    refine ⟨finish id .success 0 0 true (cagePowerOn c.target (beginCmd id c s)), congrArg Host.Outcome.next (runCmd_of_ok begins ?_ ?_), ?_⟩
    · simp [plain]
    · simp [live, fault, Ran.ok]
    · dsimp only
      rw [e]
      exact ⟨rfl, rfl, rfl, rfl, but⟩
  · refine congrArg Host.Outcome.next (runCmd_of_fail begins ?_ ?_)
    · simp [plain]
    · simp [live, well]
  · refine congrArg Host.Outcome.next ((runCmd_of_waiting begins ?_ rfl ?_).trans ?_)
    · simp [good]
    · simp [ready, allowed, queueTransfer]
    · simp [ready, allowed, queueTransfer, Ran.ok]
  · have exact' : (b ++ zeros c.indLen).take c.indLen = b := by
      have size : c.indLen = b.length := by
        have : ¬ c.indLen ≠ c.byte 35 := by
          intro differs
          simp [transferBad, differs] at good
        omega
      rw [size, List.take_left]
    have fits : ¬ i.maxWrite < c.byte 35 := by omega
    refine congrArg Host.Outcome.next ((runCmd_of_waiting begins ?_ rfl ?_).trans ?_)
    · simp [good, info, fits]
    · simp [ready, plain, withHost, allowed, queueTransfer]
    · simp [ready, plain, withHost, allowed, queueTransfer, Ran.ok, exact']
  · refine congrArg Host.Outcome.next (runCmd_of_fail begins ?_ ?_)
    · simp [good, info]
    · simp [ready, managed]
  · refine congrArg Host.Outcome.next (runCmd_of_ok begins ?_ ?_)
    · simp [block]
    · simp only [beginCmd_bed, free, keep, clearWrapOn_begun, Cmd.begun_target, cageBlock_beginCmd, Bool.false_eq_true, if_false]
      exact withBlock_of_allowed (fun s => s) (by simpa using allowed)
  · refine congrArg Host.Outcome.next (runCmd_of_ok begins ?_ ?_)
    · simp [plain]
    · simp [free, Ran.ok]

end Sys2Proof.Machine
end

section
/-! PROOFS. The links of Garnet and their pairs. -/
namespace Sys2Proof.Machine

/-! The links of Garnet and their pairs after a change. -/

/-- The pairs of every link. -/
def State.pairMaps (s : State) (n : Nat) : Map Pair := (link s n).pairs

/-- The links but the Geode link, which carries the records of the mirror. -/
def State.outerLinks (s : State) (n : Nat) : Option Link := if n = geodeLink then none else mfind s.gar.links n

@[simp] theorem State.mapElog_pairMaps (s : State) (f : Elog → Elog) : (s.mapElog f).pairMaps = s.pairMaps := (rfl)
@[simp] theorem State.mapElog_outerLinks (s : State) (f : Elog → Elog) : (s.mapElog f).outerLinks = s.outerLinks := (rfl)
@[simp] theorem State.mapBed_pairMaps (s : State) (f : Bed → Bed) : (s.mapBed f).pairMaps = s.pairMaps := (rfl)
@[simp] theorem State.mapBed_outerLinks (s : State) (f : Bed → Bed) : (s.mapBed f).outerLinks = s.outerLinks := (rfl)
@[simp] theorem State.mapHealth_pairMaps (s : State) (f : Health → Health) : (s.mapHealth f).pairMaps = s.pairMaps := (rfl)
@[simp] theorem State.mapHealth_outerLinks (s : State) (f : Health → Health) : (s.mapHealth f).outerLinks = s.outerLinks := (rfl)
@[simp] theorem State.mapOtp_pairMaps (s : State) (f : Otp → Otp) : (s.mapOtp f).pairMaps = s.pairMaps := (rfl)
@[simp] theorem State.mapOtp_outerLinks (s : State) (f : Otp → Otp) : (s.mapOtp f).outerLinks = s.outerLinks := (rfl)
@[simp] theorem State.mapGuard_pairMaps (s : State) (f : Guard → Guard) : (s.mapGuard f).pairMaps = s.pairMaps := (rfl)
@[simp] theorem State.mapGuard_outerLinks (s : State) (f : Guard → Guard) : (s.mapGuard f).outerLinks = s.outerLinks := (rfl)
@[simp] theorem State.mapMgmt_pairMaps (s : State) (f : Mgmt → Mgmt) : (s.mapMgmt f).pairMaps = s.pairMaps := (rfl)
@[simp] theorem State.mapMgmt_outerLinks (s : State) (f : Mgmt → Mgmt) : (s.mapMgmt f).outerLinks = s.outerLinks := (rfl)
@[simp] theorem State.mapDac_pairMaps (s : State) (f : DacBank → DacBank) : (s.mapDac f).pairMaps = s.pairMaps := (rfl)
@[simp] theorem State.mapDac_outerLinks (s : State) (f : DacBank → DacBank) : (s.mapDac f).outerLinks = s.outerLinks := (rfl)
@[simp] theorem State.mapFuse_pairMaps (s : State) (f : Fuse → Fuse) : (s.mapFuse f).pairMaps = s.pairMaps := (rfl)
@[simp] theorem State.mapFuse_outerLinks (s : State) (f : Fuse → Fuse) : (s.mapFuse f).outerLinks = s.outerLinks := (rfl)
@[simp] theorem State.mapRep_pairMaps (s : State) (f : Repair → Repair) : (s.mapRep f).pairMaps = s.pairMaps := (rfl)
@[simp] theorem State.mapRep_outerLinks (s : State) (f : Repair → Repair) : (s.mapRep f).outerLinks = s.outerLinks := (rfl)
@[simp] theorem State.mapBoot_pairMaps (s : State) (f : Boot → Boot) : (s.mapBoot f).pairMaps = s.pairMaps := (rfl)
@[simp] theorem State.mapBoot_outerLinks (s : State) (f : Boot → Boot) : (s.mapBoot f).outerLinks = s.outerLinks := (rfl)
@[simp] theorem State.mapHreg_pairMaps (s : State) (f : Hreg → Hreg) : (s.mapHreg f).pairMaps = s.pairMaps := (rfl)
@[simp] theorem State.mapHreg_outerLinks (s : State) (f : Hreg → Hreg) : (s.mapHreg f).outerLinks = s.outerLinks := (rfl)
@[simp] theorem State.mapHif_pairMaps (s : State) (f : Hif → Hif) : (s.mapHif f).pairMaps = s.pairMaps := (rfl)
@[simp] theorem State.mapHif_outerLinks (s : State) (f : Hif → Hif) : (s.mapHif f).outerLinks = s.outerLinks := (rfl)
@[simp] theorem State.mapFl_pairMaps (s : State) (f : Flight → Flight) : (s.mapFl f).pairMaps = s.pairMaps := (rfl)
@[simp] theorem State.mapFl_outerLinks (s : State) (f : Flight → Flight) : (s.mapFl f).outerLinks = s.outerLinks := (rfl)
@[simp] theorem State.mapLanes_pairMaps (s : State) (f : LaneBank → LaneBank) : (s.mapLanes f).pairMaps = s.pairMaps := (rfl)
@[simp] theorem State.mapLanes_outerLinks (s : State) (f : LaneBank → LaneBank) : (s.mapLanes f).outerLinks = s.outerLinks := (rfl)
@[simp] theorem State.mapCages_pairMaps (s : State) (f : CageBank → CageBank) : (s.mapCages f).pairMaps = s.pairMaps := (rfl)
@[simp] theorem State.mapCages_outerLinks (s : State) (f : CageBank → CageBank) : (s.mapCages f).outerLinks = s.outerLinks := (rfl)
@[simp] theorem State.mapPorts_pairMaps (s : State) (f : PortBank → PortBank) : (s.mapPorts f).pairMaps = s.pairMaps := (rfl)
@[simp] theorem State.mapPorts_outerLinks (s : State) (f : PortBank → PortBank) : (s.mapPorts f).outerLinks = s.outerLinks := (rfl)
@[simp] theorem State.mapRetn_pairMaps (s : State) (f : Retain → Retain) : (s.mapRetn f).pairMaps = s.pairMaps := (rfl)
@[simp] theorem State.mapRetn_outerLinks (s : State) (f : Retain → Retain) : (s.mapRetn f).outerLinks = s.outerLinks := (rfl)
@[simp] theorem State.mapBuf_pairMaps (s : State) (f : Buffer → Buffer) : (s.mapBuf f).pairMaps = s.pairMaps := (rfl)
@[simp] theorem State.mapBuf_outerLinks (s : State) (f : Buffer → Buffer) : (s.mapBuf f).outerLinks = s.outerLinks := (rfl)
@[simp] theorem State.mapSched_pairMaps (s : State) (f : Sched → Sched) : (s.mapSched f).pairMaps = s.pairMaps := (rfl)
@[simp] theorem State.mapSched_outerLinks (s : State) (f : Sched → Sched) : (s.mapSched f).outerLinks = s.outerLinks := (rfl)
@[simp] theorem State.mapTbl_pairMaps (s : State) (f : Tables → Tables) : (s.mapTbl f).pairMaps = s.pairMaps := (rfl)
@[simp] theorem State.mapTbl_outerLinks (s : State) (f : Tables → Tables) : (s.mapTbl f).outerLinks = s.outerLinks := (rfl)
@[simp] theorem State.mapMem_pairMaps (s : State) (f : Mem → Mem) : (s.mapMem f).pairMaps = s.pairMaps := (rfl)
@[simp] theorem State.mapMem_outerLinks (s : State) (f : Mem → Mem) : (s.mapMem f).outerLinks = s.outerLinks := (rfl)
@[simp] theorem State.mapObs_pairMaps (s : State) (f : Obs → Obs) : (s.mapObs f).pairMaps = s.pairMaps := (rfl)
@[simp] theorem State.mapObs_outerLinks (s : State) (f : Obs → Obs) : (s.mapObs f).outerLinks = s.outerLinks := (rfl)
@[simp] theorem State.mapTim_pairMaps (s : State) (f : Tim → Tim) : (s.mapTim f).pairMaps = s.pairMaps := (rfl)
@[simp] theorem State.mapTim_outerLinks (s : State) (f : Tim → Tim) : (s.mapTim f).outerLinks = s.outerLinks := (rfl)
@[simp] theorem State.mapGeo_pairMaps (s : State) (f : Geode → Geode) : (s.mapGeo f).pairMaps = s.pairMaps := (rfl)
@[simp] theorem State.mapGeo_outerLinks (s : State) (f : Geode → Geode) : (s.mapGeo f).outerLinks = s.outerLinks := (rfl)
@[simp] theorem State.mapAdc_pairMaps (s : State) (f : Adc → Adc) : (s.mapAdc f).pairMaps = s.pairMaps := (rfl)
@[simp] theorem State.mapAdc_outerLinks (s : State) (f : Adc → Adc) : (s.mapAdc f).outerLinks = s.outerLinks := (rfl)

@[simp] theorem link_modLink_same (n : Nat) (f : Link → Link) (s : State) : link (modLink n f s) n = f (link s n) := by
  simp [link, modLink, mget, mmod, mfind_mput]

theorem link_modLink_other {n k : Nat} (f : Link → Link) (s : State) (other : k ≠ n) : link (modLink n f s) k = link s k := by
  simp [link, modLink, mget, mmod, mfind_mput, other]

theorem mfind_modLink_other {n k : Nat} (f : Link → Link) (s : State) (other : k ≠ n) :
    mfind (modLink n f s).gar.links k = mfind s.gar.links k := by
  simp [modLink, mmod, mfind_mput, other]

@[simp] theorem modLink_pairMaps {n : Nat} {f : Link → Link} (h : ∀ l, (f l).pairs = l.pairs) (s : State) : (modLink n f s).pairMaps = s.pairMaps := by
  funext k
  by_cases e : k = n
  · subst e
    rw [State.pairMaps, link_modLink_same, h, State.pairMaps]
  · rw [State.pairMaps, link_modLink_other f s e, State.pairMaps]

@[simp] theorem geodePush_pairMaps (l : List Byte) (s : State) : (geodePush l s).pairMaps = s.pairMaps :=
  modLink_pairMaps (n := 128) (f := fun x => { x with resp := x.resp ++ [l] }) (by intro x; rfl) s

@[simp] theorem geodePush_outerLinks (l : List Byte) (s : State) : (geodePush l s).outerLinks = s.outerLinks := by
  funext k
  simp only [State.outerLinks, geodePush, State.mapGar_gar, mmod, mfind_mput]
  split
  · rfl
  · next other => exact if_neg other

theorem pair_congr {s t : State} (h : t.pairMaps = s.pairMaps) (n i : Nat) : pair t n i = pair s n i := by
  rw [pair, show (link t n).pairs = (link s n).pairs from congrFun h n, pair]

@[simp] theorem pair_modPair_same (n i : Nat) (f : Pair → Pair) (s : State) : pair (modPair n i f s) n i = f (pair s n i) := by
  simp [pair, modPair, mget, mmod, mfind_mput]

theorem pair_modPair_other {n i j : Nat} (f : Pair → Pair) (s : State) (other : j ≠ i) : pair (modPair n i f s) n j = pair s n j := by
  simp [pair, modPair, mget, mmod, mfind_mput, other]

@[simp] theorem link_modPair (n i : Nat) (f : Pair → Pair) (s : State) :
    link (modPair n i f s) n = { link s n with pairs := mmod (link s n).pairs i Pair.init f } := link_modLink_same _ _ _

theorem pair_modLink {n : Nat} {f : Link → Link} (h : ∀ l, (f l).pairs = l.pairs) (s : State) (k i : Nat) : pair (modLink n f s) k i = pair s k i :=
  pair_congr (modLink_pairMaps h s) k i

theorem LinksBut.rfl {n : Nat} {s : State} : LinksBut n s s := fun _ _ _ => Eq.refl _

theorem LinksBut.trans {n : Nat} {s t u : State} (h : LinksBut n s t) (g : LinksBut n t u) : LinksBut n s u := fun k other outer =>
  (g k other outer).trans (h k other outer)

theorem LinksBut.of_outer {n : Nat} {s t : State} (h : t.outerLinks = s.outerLinks) : LinksBut n s t := fun k _ outer => by
  have same := congrFun h k
  simpa only [State.outerLinks, if_neg outer] using same

theorem linksBut_modLink (n : Nat) (f : Link → Link) (s : State) : LinksBut n s (modLink n f s) := fun _ other _ => mfind_modLink_other f s other

theorem linksBut_modPair (n i : Nat) (f : Pair → Pair) (s : State) : LinksBut n s (modPair n i f s) := linksBut_modLink n _ s

theorem PairsBut.rfl {n i : Nat} {s : State} : PairsBut n i s s := ⟨.rfl, fun _ _ => Eq.refl _⟩

theorem PairsBut.trans {n i : Nat} {s t u : State} (h : PairsBut n i s t) (g : PairsBut n i t u) : PairsBut n i s u :=
  ⟨h.1.trans g.1, fun j other => (g.2 j other).trans (h.2 j other)⟩

theorem PairsBut.of_same {n i : Nat} {s t : State} (links : t.outerLinks = s.outerLinks) (pairs : t.pairMaps = s.pairMaps) : PairsBut n i s t :=
  ⟨.of_outer links, fun j _ => by rw [show (link t n).pairs = (link s n).pairs from congrFun pairs n]⟩

theorem pairsBut_modPair (n i : Nat) (f : Pair → Pair) (s : State) : PairsBut n i s (modPair n i f s) :=
  ⟨linksBut_modPair n i f s, fun j other => by rw [link_modPair]; simp [mmod, mfind_mput, other]⟩

theorem pairsBut_modLink (n i : Nat) {f : Link → Link} (h : ∀ l, (f l).pairs = l.pairs) (s : State) : PairsBut n i s (modLink n f s) :=
  ⟨linksBut_modLink n f s, fun j _ => by rw [link_modLink_same, h]⟩

theorem pair_of_modPair {n i : Nat} {f : Pair → Pair} {s t : State} (h : t.pairMaps = (modPair n i f s).pairMaps) : pair t n i = f (pair s n i) :=
  (pair_congr h n i).trans (pair_modPair_same n i f s)

end Sys2Proof.Machine
end

section
/-! PROOFS. O36: the pages and the training of Garnet. -/
namespace Sys2Proof.Machine

@[simp] theorem State_tick_pairMaps (s : State) : s.tick.pairMaps = s.pairMaps := (rfl)

@[simp] theorem ite_pairMaps {c : Prop} [Decidable c] (a b : State) :
    (if c then a else b).pairMaps = if c then a.pairMaps else b.pairMaps := apply_ite (fun s : State => s.pairMaps) c a b

@[simp] theorem foldl_pairMaps {α : Type} {f : State → α → State} (same : ∀ s a, (f s a).pairMaps = s.pairMaps) (l : List α) (s : State) :
    (l.foldl f s).pairMaps = s.pairMaps := by
  induction l generalizing s with
  | nil => rfl
  | cons a l ih => exact (ih (f s a)).trans (same s a)

@[simp] theorem forEach_pairMaps {f : Nat → State → State} (same : ∀ n s, (f n s).pairMaps = s.pairMaps) (l : List Nat) (s : State) :
    (forEach l f s).pairMaps = s.pairMaps :=
  foldl_pairMaps (fun s n => same n s) l s

@[simp] theorem mirrorDrain_pairMaps (n : Nat) (s : State) : (mirrorDrain n s).pairMaps = s.pairMaps := by
  induction n generalizing s with
  | zero => rfl
  | succ n ih =>
    unfold mirrorDrain
    split
    · rfl
    · split
      · rfl
      · simp [ih]

@[simp] theorem mirrorPush_pairMaps (k num : Nat) (b : List Byte) (s : State) : (mirrorPush k num b s).pairMaps = s.pairMaps := by
  simp [mirrorPush]

@[simp] theorem mirrorConfig_pairMaps (op target : Nat) (inl data : List Byte) (s : State) : (mirrorConfig op target inl data s).pairMaps = s.pairMaps := by
  simp [mirrorConfig]

@[simp] theorem mirrorCmd_pairMaps (c : Cmd) (st : Status) (s : State) : (mirrorCmd c st s).pairMaps = s.pairMaps := by
  simp [mirrorCmd]

@[simp] theorem profEvent_pairMaps (ev inst n : Nat) (s : State) : (profEvent ev inst n s).pairMaps = s.pairMaps := (rfl)

@[simp] theorem loseEvent_pairMaps (s : State) : (loseEvent s).pairMaps = s.pairMaps := (rfl)

@[simp] theorem hostWrite_pairMaps (addr : Nat) (bytes : List Byte) (s : State) : (hostWrite addr bytes s).pairMaps = s.pairMaps := (rfl)

@[simp] theorem msixFire_pairMaps (v : Nat) (s : State) : (msixFire v s).pairMaps = s.pairMaps := by
  simp [msixFire]

@[simp] theorem msixCount_pairMaps (v count n : Nat) (s : State) : (msixCount v count n s).pairMaps = s.pairMaps := by
  simp [msixCount]

@[simp] theorem evqWrite_pairMaps (e : Event) (s : State) : (evqWrite e s).pairMaps = s.pairMaps := by
  simp [evqWrite]

@[simp] theorem evqDrain_pairMaps (l : List Event) (s : State) : (evqDrain l s).2.pairMaps = s.pairMaps := by
  induction l generalizing s with
  | nil => rfl
  | cons e r ih =>
    unfold evqDrain
    split
    · rw [ih, evqWrite_pairMaps]
    · rfl

@[simp] theorem setHifErr_pairMaps (bits : BitVec 7) (s : State) : (setHifErr bits s).pairMaps = s.pairMaps := (rfl)

@[simp] theorem deliverEvents_pairMaps (s : State) : (deliverEvents s).pairMaps = s.pairMaps := by
  simp [deliverEvents]

@[simp] theorem postEvent_pairMaps (e : Event) (s : State) : (postEvent e s).pairMaps = s.pairMaps := by
  simp [postEvent]

@[simp] theorem post_pairMaps (code sev obj detail : Nat) (s : State) : (post code sev obj detail s).pairMaps = s.pairMaps := by
  simp [post]

@[simp] theorem ringError_pairMaps (r cause : Nat) (s : State) : (ringError r cause s).pairMaps = s.pairMaps := by
  unfold ringError
  split <;> simp

@[simp] theorem writeCompletion_pairMaps (c : Completion) (s : State) : (writeCompletion c s).pairMaps = s.pairMaps := by
  simp [writeCompletion]
  split <;> simp

@[simp] theorem finishOne_pairMaps (id : Nat) (st : Status) (r0 r1 : BitVec 64) (eff : Bool) (s : State) : (finishOne id st r0 r1 eff s).pairMaps = s.pairMaps := by
  unfold finishOne
  split <;> simp

@[simp] theorem settleDeletes_pairMaps (n : Nat) (s : State) : (settleDeletes n s).pairMaps = s.pairMaps := by
  induction n generalizing s with
  | zero => rfl
  | succ n ih =>
    unfold settleDeletes
    split
    · rfl
    · rw [ih, finishOne_pairMaps]
      rfl

@[simp] theorem finish_pairMaps (id : Nat) (st : Status) (r0 r1 : BitVec 64) (eff : Bool) (s : State) : (finish id st r0 r1 eff s).pairMaps = s.pairMaps := by
  simp [finish]

@[simp] theorem endProposal_pairMaps (item : Nat) (st : Status) (s : State) : (endProposal item st s).pairMaps = s.pairMaps := by
  unfold endProposal
  split <;> simp

@[simp] theorem abortProposals_pairMaps (s : State) : (abortProposals s).pairMaps = s.pairMaps := by
  simp [abortProposals]

@[simp] theorem setCauses_pairMaps (causes : BitVec 12) (s : State) : (setCauses causes s).pairMaps = s.pairMaps := by
  simp [setCauses]

@[simp] theorem garnetCauses_pairMaps (s : State) : (garnetCauses s).pairMaps = s.pairMaps := by
  simp [garnetCauses]

@[simp] theorem linkCheck_pairMaps (n : Nat) (s : State) : (linkCheck n s).pairMaps = s.pairMaps := by
  simp [linkCheck]

@[simp] theorem modCmd_pairMaps (id : Nat) (f : Cmd → Cmd) (s : State) : (modCmd id f s).pairMaps = s.pairMaps := by
  unfold modCmd
  split <;> simp

@[simp] theorem wokenFor_pairMaps (id : Nat) (s : State) : (wokenFor id s).pairMaps = s.pairMaps := by
  simp [wokenFor]

@[simp] theorem writeBlock_pairMaps (c : Cmd) (bytes : List Byte) (s : State) : (writeBlock c bytes s).pairMaps = s.pairMaps := (rfl)

@[simp] theorem tdrSettle_pairMaps (n i : Nat) (s : State) : (tdrSettle n i s).pairMaps = s.pairMaps := by
  unfold tdrSettle
  refine forEach_pairMaps (fun a s => ?_) _ _
  dsimp only
  (repeat' split) <;> simp

@[simp] theorem finishAll_pairMaps (ids : List Nat) (st : Status) (eff : Bool) (s : State) : (finishAll ids st eff s).pairMaps = s.pairMaps := by
  simp [finishAll]

@[simp] theorem awaitEnd_pairMaps (id : Nat) (aux : List Nat) (s : State) : (awaitEnd id aux s).pairMaps = s.pairMaps := by
  simp [awaitEnd]

@[simp] theorem logErr_pairMaps (code subject detail : Nat) (s : State) : (logErr code subject detail s).pairMaps = s.pairMaps := (rfl)

@[simp] theorem State_tick_outerLinks (s : State) : s.tick.outerLinks = s.outerLinks := (rfl)

@[simp] theorem ite_outerLinks {c : Prop} [Decidable c] (a b : State) :
    (if c then a else b).outerLinks = if c then a.outerLinks else b.outerLinks := apply_ite (fun s : State => s.outerLinks) c a b

@[simp] theorem foldl_outerLinks {α : Type} {f : State → α → State} (same : ∀ s a, (f s a).outerLinks = s.outerLinks) (l : List α) (s : State) :
    (l.foldl f s).outerLinks = s.outerLinks := by
  induction l generalizing s with
  | nil => rfl
  | cons a l ih => exact (ih (f s a)).trans (same s a)

@[simp] theorem forEach_outerLinks {f : Nat → State → State} (same : ∀ n s, (f n s).outerLinks = s.outerLinks) (l : List Nat) (s : State) :
    (forEach l f s).outerLinks = s.outerLinks :=
  foldl_outerLinks (fun s n => same n s) l s

@[simp] theorem mirrorDrain_outerLinks (n : Nat) (s : State) : (mirrorDrain n s).outerLinks = s.outerLinks := by
  induction n generalizing s with
  | zero => rfl
  | succ n ih =>
    unfold mirrorDrain
    split
    · rfl
    · split
      · rfl
      · simp [ih]

@[simp] theorem mirrorPush_outerLinks (k num : Nat) (b : List Byte) (s : State) : (mirrorPush k num b s).outerLinks = s.outerLinks := by
  simp [mirrorPush]

@[simp] theorem mirrorConfig_outerLinks (op target : Nat) (inl data : List Byte) (s : State) : (mirrorConfig op target inl data s).outerLinks = s.outerLinks := by
  simp [mirrorConfig]

@[simp] theorem mirrorCmd_outerLinks (c : Cmd) (st : Status) (s : State) : (mirrorCmd c st s).outerLinks = s.outerLinks := by
  simp [mirrorCmd]

@[simp] theorem profEvent_outerLinks (ev inst n : Nat) (s : State) : (profEvent ev inst n s).outerLinks = s.outerLinks := (rfl)

@[simp] theorem loseEvent_outerLinks (s : State) : (loseEvent s).outerLinks = s.outerLinks := (rfl)

@[simp] theorem hostWrite_outerLinks (addr : Nat) (bytes : List Byte) (s : State) : (hostWrite addr bytes s).outerLinks = s.outerLinks := (rfl)

@[simp] theorem msixFire_outerLinks (v : Nat) (s : State) : (msixFire v s).outerLinks = s.outerLinks := by
  simp [msixFire]

@[simp] theorem msixCount_outerLinks (v count n : Nat) (s : State) : (msixCount v count n s).outerLinks = s.outerLinks := by
  simp [msixCount]

@[simp] theorem evqWrite_outerLinks (e : Event) (s : State) : (evqWrite e s).outerLinks = s.outerLinks := by
  simp [evqWrite]

@[simp] theorem evqDrain_outerLinks (l : List Event) (s : State) : (evqDrain l s).2.outerLinks = s.outerLinks := by
  induction l generalizing s with
  | nil => rfl
  | cons e r ih =>
    unfold evqDrain
    split
    · rw [ih, evqWrite_outerLinks]
    · rfl

@[simp] theorem setHifErr_outerLinks (bits : BitVec 7) (s : State) : (setHifErr bits s).outerLinks = s.outerLinks := (rfl)

@[simp] theorem deliverEvents_outerLinks (s : State) : (deliverEvents s).outerLinks = s.outerLinks := by
  simp [deliverEvents]

@[simp] theorem postEvent_outerLinks (e : Event) (s : State) : (postEvent e s).outerLinks = s.outerLinks := by
  simp [postEvent]

@[simp] theorem post_outerLinks (code sev obj detail : Nat) (s : State) : (post code sev obj detail s).outerLinks = s.outerLinks := by
  simp [post]

@[simp] theorem ringError_outerLinks (r cause : Nat) (s : State) : (ringError r cause s).outerLinks = s.outerLinks := by
  unfold ringError
  split <;> simp

@[simp] theorem writeCompletion_outerLinks (c : Completion) (s : State) : (writeCompletion c s).outerLinks = s.outerLinks := by
  simp [writeCompletion]
  split <;> simp

@[simp] theorem finishOne_outerLinks (id : Nat) (st : Status) (r0 r1 : BitVec 64) (eff : Bool) (s : State) : (finishOne id st r0 r1 eff s).outerLinks = s.outerLinks := by
  unfold finishOne
  split <;> simp

@[simp] theorem settleDeletes_outerLinks (n : Nat) (s : State) : (settleDeletes n s).outerLinks = s.outerLinks := by
  induction n generalizing s with
  | zero => rfl
  | succ n ih =>
    unfold settleDeletes
    split
    · rfl
    · rw [ih, finishOne_outerLinks]
      rfl

@[simp] theorem finish_outerLinks (id : Nat) (st : Status) (r0 r1 : BitVec 64) (eff : Bool) (s : State) : (finish id st r0 r1 eff s).outerLinks = s.outerLinks := by
  simp [finish]

@[simp] theorem endProposal_outerLinks (item : Nat) (st : Status) (s : State) : (endProposal item st s).outerLinks = s.outerLinks := by
  unfold endProposal
  split <;> simp

@[simp] theorem abortProposals_outerLinks (s : State) : (abortProposals s).outerLinks = s.outerLinks := by
  simp [abortProposals]

@[simp] theorem setCauses_outerLinks (causes : BitVec 12) (s : State) : (setCauses causes s).outerLinks = s.outerLinks := by
  simp [setCauses]

@[simp] theorem garnetCauses_outerLinks (s : State) : (garnetCauses s).outerLinks = s.outerLinks := by
  simp [garnetCauses]

@[simp] theorem modCmd_outerLinks (id : Nat) (f : Cmd → Cmd) (s : State) : (modCmd id f s).outerLinks = s.outerLinks := by
  unfold modCmd
  split <;> simp

@[simp] theorem wokenFor_outerLinks (id : Nat) (s : State) : (wokenFor id s).outerLinks = s.outerLinks := by
  simp [wokenFor]

@[simp] theorem writeBlock_outerLinks (c : Cmd) (bytes : List Byte) (s : State) : (writeBlock c bytes s).outerLinks = s.outerLinks := (rfl)

@[simp] theorem tdrSettle_outerLinks (n i : Nat) (s : State) : (tdrSettle n i s).outerLinks = s.outerLinks := by
  unfold tdrSettle
  refine forEach_outerLinks (fun a s => ?_) _ _
  dsimp only
  (repeat' split) <;> simp

@[simp] theorem finishAll_outerLinks (ids : List Nat) (st : Status) (eff : Bool) (s : State) : (finishAll ids st eff s).outerLinks = s.outerLinks := by
  simp [finishAll]

@[simp] theorem awaitEnd_outerLinks (id : Nat) (aux : List Nat) (s : State) : (awaitEnd id aux s).outerLinks = s.outerLinks := by
  simp [awaitEnd]

@[simp] theorem logErr_outerLinks (code subject detail : Nat) (s : State) : (logErr code subject detail s).outerLinks = s.outerLinks := (rfl)

/-! O36: the pages and the training of Garnet. -/

theorem length_beBytes (k n : Nat) : (beBytes k n).length = k := by
  rw [beBytes, List.length_reverse, length_leBytes]

theorem ownPage_length {n i : Nat} {s : State} (first : (pair s n i).page = []) : (ownPage s n i).length = 32 := by
  simp [ownPage, first, ownProto, length_beBytes, zeros]

/-- A pair that has entered phase `ph`. -/
def Pair.entered (s : State) (ph : TrainPhase) (rx ec : Bool) (p : Pair) : Pair :=
  let p :=
    { p with
      phase := ph, phaseAt := s.now, froze := s.bed.boActive, allReady := true, both := 0, count := none, rxReady := rx, ecReady := ec
      heardLow := false, heardHigh := false }
  if sendsIn p.leader ph then { p with line := trainingFrame (ownStatus s p) 0 } else p

section Entered
variable (s : State) (ph : TrainPhase) (rx ec : Bool) (p : Pair)

@[simp] theorem Pair.entered_state : (p.entered s ph rx ec).state = p.state := by unfold Pair.entered; dsimp only; split <;> rfl
@[simp] theorem Pair.entered_phase : (p.entered s ph rx ec).phase = ph := by unfold Pair.entered; dsimp only; split <;> rfl
@[simp] theorem Pair.entered_leader : (p.entered s ph rx ec).leader = p.leader := by unfold Pair.entered; dsimp only; split <;> rfl
@[simp] theorem Pair.entered_depth : (p.entered s ph rx ec).depth = p.depth := by unfold Pair.entered; dsimp only; split <;> rfl
@[simp] theorem Pair.entered_eq : (p.entered s ph rx ec).eq = p.eq := by unfold Pair.entered; dsimp only; split <;> rfl
@[simp] theorem Pair.entered_echo : (p.entered s ph rx ec).echo = p.echo := by unfold Pair.entered; dsimp only; split <;> rfl
@[simp] theorem Pair.entered_block1 : (p.entered s ph rx ec).block1 = p.block1 := by unfold Pair.entered; dsimp only; split <;> rfl
@[simp] theorem Pair.entered_block2 : (p.entered s ph rx ec).block2 = p.block2 := by unfold Pair.entered; dsimp only; split <;> rfl

end Entered

theorem enterPhase_eq (n i : Nat) (ph : TrainPhase) (rx ec : Bool) (s : State) : enterPhase n i ph rx ec s = modPair n i (Pair.entered s ph rx ec) s := rfl

@[simp] theorem pair_enterPhase (n i : Nat) (ph : TrainPhase) (rx ec : Bool) (s : State) :
    pair (enterPhase n i ph rx ec s) n i = (pair s n i).entered s ph rx ec := pair_modPair_same n i _ s

theorem pairsBut_enterPhase (n i : Nat) (ph : TrainPhase) (rx ec : Bool) (s : State) : PairsBut n i s (enterPhase n i ph rx ec s) :=
  pairsBut_modPair n i _ s

theorem pairsBut_trainStart (n i : Nat) (s : State) : PairsBut n i s (trainStart n i s) :=
  (pairsBut_modPair n i _ s).trans (pairsBut_enterPhase n i _ _ _ _)

theorem pair_trainStart (n i : Nat) (s : State) : (pair (trainStart n i s) n i).state = .train ∧ (pair (trainStart n i s) n i).phase = .p2a := by
  simp [trainStart]

theorem pageBurstSend_runs {n i : Nat} {s : State} (inPage : (pair s n i).state = .page) (free : (pair s n i).wait2a = false)
    (more : (pair s n i).lastBurst = false) : Runs (.pageBurstSend n i) s fun t =>
    (pair t n i).sentPage = ownPage s n i ∧ (pair t n i).line = pageBurst (ownPage s n i) ∧ (pair t n i).state = .page ∧
      (pair t n i).nonce = (pair s n i).nonce ∧ PairsBut n i s t := by
  refine ⟨followerWait n i (modPair n i (fun p => { p with
    sentPage := ownPage s n i, line := pageBurst (ownPage s n i), ackSent := p.ackSent || !p.page.isEmpty, lastBurst := p.leader && p.echoed }) s),
    by simp [exec, execPageBurstSend, inPage, free, more], ?_⟩
  simp only [followerWait]
  refine ⟨by simp, by simp, by simp [inPage], by simp, ?_⟩
  exact (pairsBut_modPair n i _ s).trans (pairsBut_modPair n i _ _)

theorem pageHold_runs {n i : Nat} {b : List Byte} {s : State} (inPage : (pair s n i).state = .page) (valid : pageValid b = true)
    (mine : byteAt b 3 = kindIndex n i) (any : (link s n).accepted = []) (full : byteAt b 1 = 2) (other : wireAt b 4 4 ≠ (pair s n i).nonce.toNat) :
    Runs (.pageFrameReceive n i b) s fun t =>
      (pair t n i).page = b ∧ (pair t n i).leader = decide (wireAt b 4 4 < (pair s n i).nonce.toNat) ∧ (link t n).proto = slice b 16 8 ∧
        (link t n).peerMin = byteAt b 13 ∧ (link t n).lpi = (bitOf (byteAt b 12) 6 && (link s n).set.lpiEn) ∧ PairsBut n i s t := by
  refine ⟨pageHold n i b s, by simp [exec, execPageFrameReceive, inPage, valid, mine, any], ?_⟩
  have named : PairsBut n i s (modLink n (fun l =>
      { l with proto := slice b 16 8, lpi := bitOf (byteAt b 12) 6 && l.set.lpiEn, peerMin := byteAt b 13 }) s) :=
    pairsBut_modLink n i (by intro l; rfl) s
  simp only [pageHold, full, other, and_false, if_false, followerWait]
  refine ⟨by simp, by simp, by simp, by simp, by simp, (named.trans (pairsBut_modPair n i _ _)).trans (pairsBut_modPair n i _ _)⟩

theorem readyCleared_runs {n i w : Nat} {ec : Bool} {m : PairMeas} {s : State} (good : statusOk w = true) (four : stepOf w = 4)
    (first : w.testBit 25 = false) (training : (pair s n i).state = .train) (at4 : (pair s n i).phase = .p4) :
    Runs (.trainingFrameReceive n i w false ec m) s fun t =>
      (pair t n i).count = none ∧ (pair t n i).both = 0 ∧ (pair t n i).state = .train ∧ PairsBut n i s t := by
  have runs : exec (.trainingFrameReceive n i w false ec m) s = .next (duplexFrame n i w false ec m s) := by
    simp [exec, execTrainingFrameReceive, good, training, trainFrame, four, at4, phaseStep, first]
  refine ⟨_, runs, ?_⟩
  simp only [duplexFrame, hearNeighbours, Bool.and_false, Bool.false_and, Bool.not_false, if_true]
  refine ⟨by simp, by simp, by simp [training], ?_⟩
  exact ((pairsBut_modPair n i _ s).trans (pairsBut_modPair n i _ _)).trans (pairsBut_modPair n i _ _)

/-! A failed phase. -/

theorem linkCheck_pair (n i : Nat) (s : State) (k : Nat) : pair (linkCheck k s) n i = pair s n i := pair_congr (linkCheck_pairMaps k s) n i

theorem pair_sleepBank_other {n i j : Nat} (other : i ≠ j) (s : State) : pair (sleepBank n j s) n i = pair s n i := by
  unfold sleepBank pairCount
  dsimp only
  split
  · exact pair_modPair_other _ s other
  · rfl

theorem pair_pairWake_other {n i j : Nat} (other : i ≠ j) (s : State) : pair (pairWake n j s) n i = pair s n i := by
  unfold pairWake pairCount
  dsimp only
  split
  · exact pair_modPair_other _ s other
  · split
    · rw [pair_modPair_other _ _ other, pair_modPair_other _ _ other, pair_sleepBank_other other]
    · rfl

theorem asleep_of_lowestAsleep {n i : Nat} {s : State} (low : lowestAsleep s n = some i) : (pair s n i).state.asleep = true := by
  simpa using List.find?_some low

theorem pair_wakeLowest_awake {n i : Nat} {s : State} (awake : (pair s n i).state.asleep = false) : pair (wakeLowest n s) n i = pair s n i := by
  unfold wakeLowest
  split
  · rfl
  · next j low =>
    refine pair_pairWake_other (fun e => ?_) s
    have asleep := asleep_of_lowestAsleep low
    rw [← e, awake] at asleep
    cases asleep

theorem pair_pairRetrain_other {n i j : Nat} (other : i ≠ j) (cause : Nat) (s : State) : pair (pairRetrain n j cause s) n i = pair s n i := by
  unfold pairRetrain
  dsimp only
  rw [linkCheck_pair, pair_congr (garnetCauses_pairMaps _), pair_congr (post_pairMaps _ _ _ _ _)]
  split
  · rw [pair_modPair_other _ _ other, pair_congr (State.mapHealth_pairMaps _ _)]
    exact pair_modPair_other _ s other
  · rw [pair_congr (State.mapHealth_pairMaps _ _)]
    exact pair_modPair_other _ s other

theorem pair_retrainGo_other {n i j : Nat} (other : i ≠ j) (id : Nat) {s : State} (awake : (pair s n i).state.asleep = false) :
    pair (retrainGo id n j s) n i = pair s n i := by
  unfold retrainGo
  dsimp only
  split
  · split
    · rw [pair_congr (modCmd_pairMaps _ _ _), pair_pairRetrain_other other]
    · split
      · rw [pair_congr (modCmd_pairMaps _ _ _), pair_wakeLowest_awake awake]
      · exact pair_congr (finish_pairMaps _ _ _ _ _ _) n i
  · split
    · exact pair_congr (modCmd_pairMaps _ _ _) n i
    · rw [pair_congr (modCmd_pairMaps _ _ _), pair_pairWake_other other]

theorem ne_of_mem_retrainQueue {n i : Nat} {s : State} {x : Nat × Nat} (listed : x ∈ retrainQueue false n i s) : i ≠ x.2 := by
  simp only [retrainQueue, List.mem_filterMap] at listed
  obtain ⟨e, _, made⟩ := listed
  split at made
  · split at made
    · simp at made
    · split at made
      · next _ other => cases made; exact fun e => other e.symm
      · cases made
    · cases made
  · cases made

theorem pair_foldl_retrainGo {n i : Nat} (l : List (Nat × Nat)) (others : ∀ x ∈ l, i ≠ x.2) {s : State} (awake : (pair s n i).state.asleep = false) :
    pair (l.foldl (fun s x => retrainGo x.1 n x.2 s) s) n i = pair s n i := by
  induction l generalizing s with
  | nil => rfl
  | cons x r ih =>
    have kept := pair_retrainGo_other (others x (by simp)) x.1 awake
    rw [List.foldl_cons, ih (fun y h => others y (by simp [h])) (by rw [kept]; exact awake), kept]

theorem pair_retrainAgain {n i : Nat} {s : State} (awake : (pair s n i).state.asleep = false) : pair (retrainAgain n i s) n i = pair s n i :=
  pair_foldl_retrainGo _ (fun _ => ne_of_mem_retrainQueue) awake

theorem pair_pairFail (n i : Nat) (s : State) : pair (pairFail n i s) n i =
    { pair s n i with
      ctr := ctrAdd (pair s n i).ctr 4 1, state := .quiet, fails := if (pair s n i).froze then (pair s n i).fails else (pair s n i).fails + 1 } := by
  have base : pair (modPair n i (fun q => { q with state := .quiet, fails := if (pair s n i).froze then q.fails else q.fails + 1 })
      (pairCount n i 4 1 s)) n i = { pair s n i with
        ctr := ctrAdd (pair s n i).ctr 4 1, state := .quiet, fails := if (pair s n i).froze then (pair s n i).fails else (pair s n i).fails + 1 } := by
    rw [pair_modPair_same, pairCount, pair_modPair_same]
  rw [← base, pairFail]
  generalize hu : modPair n i (fun q => { q with state := .quiet, fails := if (pair s n i).froze then q.fails else q.fails + 1 })
    (pairCount n i 4 1 s) = u
  rw [hu] at base
  have woken : ∀ l : List Nat, pair (tdrSettle n i (l.foldl (fun s id => finish id .hwError 3 0 true s) u)) n i = pair u n i := fun l => by
    rw [pair_congr (tdrSettle_pairMaps _ _ _), pair_congr (foldl_pairMaps (fun _ _ => finish_pairMaps _ _ _ _ _ _) l u)]
  rw [linkCheck_pair, pair_retrainAgain (by rw [woken, base]; rfl), woken]

theorem pairFail_quiets (n i : Nat) (s : State) : (pair (pairFail n i s) n i).state = .quiet ∧
    ctrOf (pair (pairFail n i s) n i).ctr 4 = (ctrOf (pair s n i).ctr 4).add 1 ∧
    (pair (pairFail n i s) n i).fails = (if (pair s n i).froze then (pair s n i).fails else (pair s n i).fails + 1) := by
  rw [pair_pairFail]
  exact ⟨rfl, by simp [ctrOf_ctrAdd], rfl⟩

theorem follower2bFails_runs {n i : Nat} {ec : Bool} {m : PairMeas} {s : State} (training : (pair s n i).state = .train)
    (follower : (pair s n i).leader = false) (at2b : (pair s n i).phase = .p2b) : Runs (.trainingPhaseEnd n i false ec m) s fun t =>
    (pair t n i).state = .quiet ∧ ctrOf (pair t n i).ctr 4 = (ctrOf (pair s n i).ctr 4).add 1 := by
  refine ⟨pairFail n i (hybridTake n i m s), by simp [exec, execTrainingPhaseEnd, training, follower, at2b], ?_⟩
  obtain ⟨quiet, counted, _⟩ := pairFail_quiets n i (hybridTake n i m s)
  exact ⟨quiet, by rw [counted, hybridTake, pair_modPair_same]⟩

/-! QUIET. -/

theorem mem_mput_self {α : Type} (m : Map α) (k : Nat) (v : α) : (k, v) ∈ mput m k v := by
  induction m with
  | nil => simp [mput]
  | cons e r ih =>
    unfold mput
    split
    · simp
    · split
      · simp
      · simp [ih]

theorem any_pair_modPair {n i : Nat} {f : Pair → Pair} {s : State} {q : Pair → Bool} (met : q (f (pair s n i)) = true) :
    ((modPair n i f s).gar.links.any fun l => l.2.pairs.any fun x => q x.2) = true := by
  simp only [List.any_eq_true]
  refine ⟨(n, link (modPair n i f s) n), ?_, ⟨(i, f (pair s n i)), ?_, met⟩⟩
  · rw [link_modPair]
    exact mem_mput_self _ _ _
  · rw [link_modPair]
    exact mem_mput_self _ _ _

theorem bit10 (x : BitVec 12) (b : Bool) : ((x &&& ~~~ 0x440) ||| BitVec.ofNat 12 (64 * b2n b + 1024 * b2n true)).getLsbD 10 = true := by
  cases b <;> simp [b2n]

theorem quietFailed_runs {n i : Nat} {s : State} (quiet : (pair s n i).state = .quiet) (third : 3 ≤ (pair s n i).fails) :
    Runs (.quietEnd n i) s fun t => (pair t n i).state = .failed ∧ t.health.causes.getLsbD 10 = true ∧ PairsBut n i s t := by
  refine ⟨garnetCauses (post 0x3002 2 (linkObj n i) 0 (modPair n i (fun p => { p with state := .failed }) s)),
    by simp [exec, execQuietEnd, quiet, third], ?_, ?_, ?_⟩
  · rw [pair_congr (garnetCauses_pairMaps _), pair_congr (post_pairMaps _ _ _ _ _), pair_modPair_same]
  · have failed : ((post 0x3002 2 (linkObj n i) 0 (modPair n i (fun p => { p with state := .failed }) s)).gar.links.any fun l =>
        l.2.pairs.any fun x => decide (x.2.state = .failed)) = true := by
      rw [show (post 0x3002 2 (linkObj n i) 0 (modPair n i (fun p => { p with state := .failed }) s)).gar =
        (modPair n i (fun p => { p with state := .failed }) s).gar from post_gar _ _ _ _ _]
      exact any_pair_modPair (q := fun p => decide (p.state = .failed)) rfl
    rw [garnetCauses, setCauses_health]
    dsimp only
    rw [failed]
    exact bit10 _ _
  · exact (pairsBut_modPair n i _ s).trans (.of_same (by rw [garnetCauses_outerLinks, post_outerLinks]) (by rw [garnetCauses_pairMaps, post_pairMaps]))

theorem sleepBank_pair (n i : Nat) (s : State) : ∃ l, pair (sleepBank n i s) n i = { pair s n i with ctr := l } := by
  unfold sleepBank pairCount
  dsimp only
  split
  · exact ⟨_, pair_modPair_same n i _ s⟩
  · exact ⟨(pair s n i).ctr, rfl⟩

theorem pairsBut_sleepBank (n i : Nat) (s : State) : PairsBut n i s (sleepBank n i s) := by
  unfold sleepBank
  dsimp only
  split
  · exact pairsBut_modPair n i _ s
  · exact .rfl

theorem pairsBut_pairPage (n i : Nat) (s : State) : PairsBut n i s (pairPage n i s) :=
  (pairsBut_sleepBank n i s).trans ((PairsBut.of_same (State_tick_outerLinks _) (State_tick_pairMaps _)).trans (pairsBut_modPair n i _ _))

theorem pair_pairPage (n i : Nat) (s : State) : (pair (pairPage n i s) n i).state = .page ∧ (pair (pairPage n i s) n i).page = [] ∧
    (pair (pairPage n i s) n i).fails = (pair s n i).fails := by
  obtain ⟨l, kept⟩ := sleepBank_pair n i s
  have ticked : pair (sleepBank n i s).tick n i = { pair s n i with ctr := l } := (pair_congr (State_tick_pairMaps _) n i).trans kept
  simp only [pair] at ticked
  simp [pairPage, drawNonce, pair, mget, mmod, mfind_mput] at ticked ⊢
  simp [ticked]

/-- Settles O36, from what each row does to its pair; a failed phase reaches other pairs only by the retrains that wait for it. -/
theorem pageAndTrainingRows : Obligations.PageAndTrainingRows := by
  unfold Obligations.PageAndTrainingRows
  refine ⟨fun _ _ _ => pageBurstSend_runs, fun _ _ _ => ownPage_length, fun _ _ _ _ => pageHold_runs, ?_, ?_, ?_, ?_, ?_,
    fun _ _ _ _ _ _ => readyCleared_runs, ?_, ?_, fun _ _ _ _ _ => follower2bFails_runs, ?_, fun _ _ _ => quietFailed_runs, ?_, ?_⟩
  · intro n i b s inPage bad
    simp [exec, execPageFrameReceive, inPage, bad]
  · intro n i s inPage waits
    simp [exec, execFollowerStep2Timeout, inPage, waits]
  · intro n i s inPage leads last
    obtain ⟨state, phase⟩ := pair_trainStart n i s
    exact ⟨trainStart n i s, by simp [exec, execTrainingStep2aStart, inPage, leads, last], state, phase, pairsBut_trainStart n i s⟩
  · intro n i w rx ec m s bad
    simp [exec, execTrainingFrameReceive, bad]
  · intro n i w rx ec m s good two first inPage follower held acked
    obtain ⟨state, phase⟩ := pair_trainStart n i s
    have known : (pair s n i).page.isEmpty = false := by simpa using held
    exact ⟨trainStart n i s, by simp [exec, execTrainingFrameReceive, good, inPage, two, first, follower, known, acked], state, phase,
      pairsBut_trainStart n i s⟩
  · intro n i rx ec m s training leads at2a
    refine ⟨enterPhase n i .p2b rx ec (hybridTake n i m s), by simp [exec, execTrainingPhaseEnd, training, leads, at2a], ?_, ?_, ?_, ?_, ?_⟩
    · simp [hybridTake, training]
    · simp
    · simp [hybridTake]
    · simp [hybridTake]
    · exact (pairsBut_modPair n i _ s).trans (pairsBut_enterPhase n i _ _ _ _)
  · intro n i m s training follows at3b
    refine ⟨enterPhase n i .p4 true true (echoTake n i m s), by simp [exec, execTrainingPhaseEnd, training, follows, at3b], ?_, ?_, ?_, ?_⟩
    · simp
    · rw [pair_enterPhase, Pair.entered_echo, echoTake, pair_modPair_same]
    · rw [pair_enterPhase, Pair.entered_block1, Pair.entered_block2, echoTake, pair_modPair_same]
    · exact (pairsBut_modPair n i _ s).trans (pairsBut_enterPhase n i _ _ _ _)
  · intro n i s training
    exact ⟨pairFail n i s, by simp [exec, execTrainingPhaseFail, training], pairFail_quiets n i s⟩
  · intro n i s quiet again
    obtain ⟨state, page, fails⟩ := pair_pairPage n i s
    exact ⟨pairPage n i s, by simp [exec, execQuietEnd, quiet, again], state, page, fails, pairsBut_pairPage n i s⟩
  · intro n i s retrains rests
    refine ⟨enterPhase n i (if (pair s n i).leader then .p3a else .await) false false s, by simp [exec, execRetrainQuietEnd, retrains, rests], ?_, ?_,
      pairsBut_enterPhase n i _ _ _ s⟩
    · simp [retrains]
    · simp

end Sys2Proof.Machine
end

section
/-! PROOFS. O37: low-power idle and losses of pairs. -/
namespace Sys2Proof.Machine

/-- Outside standard-engine mode, pair 2 of link 0 is still lost as a standard-engine pair while pair 0 holds a page of another PROTO. -/
def stdPairBesidePage : State :=
  State.reset.mapGar fun g =>
    { g with
      links := [(0, { Link.init with
        pairs := [(0, { Pair.init with state := .page, page := List.replicate 32 1 }), (2, { Pair.init with state := .stdLost }),
          (3, { Pair.init with state := .stdAcquired })] })] }

/-- Refutes O37: a standard-engine pair that is acquired starts the link's protocol, and outside standard-engine mode the start takes the page of
another pair whose PROTO differs. -/
theorem not_pairSleepAndLossRows : ¬ Obligations.PairSleepAndLossRows := by
  unfold Obligations.PairSleepAndLossRows
  rintro ⟨-, -, -, -, -, -, -, -, -, -, -, -, -, -, -, acquired, -⟩
  obtain ⟨t, runs, -, -, others⟩ := acquired 0 2 stdPairBesidePage (by decide +kernel)
  have taken : (match exec (.stdPairAcquired 0 2) stdPairBesidePage with
    | .next u => (mfind (link u 0).pairs 0).map Pair.page
    | _ => none) = some [] := by decide +kernel
  have held : (mfind (link stdPairBesidePage 0).pairs 0).map Pair.page = some (List.replicate 32 1) := by decide +kernel
  rw [runs] at taken
  dsimp only at taken
  rw [others 0 (by decide), held] at taken
  cases taken

end Sys2Proof.Machine
end

section
/-! PROOFS. What a link holds but the records it owes. -/
namespace Sys2Proof.Machine

/-- What a link holds but the records it owes the peer, to which the mirror adds. -/
def State.linkCores (s : State) (n : Nat) : Link := { link s n with resp := [] }

@[simp] theorem State.mapElog_linkCores (s : State) (f : Elog → Elog) : (s.mapElog f).linkCores = s.linkCores := (rfl)
@[simp] theorem State.mapBed_linkCores (s : State) (f : Bed → Bed) : (s.mapBed f).linkCores = s.linkCores := (rfl)
@[simp] theorem State.mapHealth_linkCores (s : State) (f : Health → Health) : (s.mapHealth f).linkCores = s.linkCores := (rfl)
@[simp] theorem State.mapOtp_linkCores (s : State) (f : Otp → Otp) : (s.mapOtp f).linkCores = s.linkCores := (rfl)
@[simp] theorem State.mapGuard_linkCores (s : State) (f : Guard → Guard) : (s.mapGuard f).linkCores = s.linkCores := (rfl)
@[simp] theorem State.mapMgmt_linkCores (s : State) (f : Mgmt → Mgmt) : (s.mapMgmt f).linkCores = s.linkCores := (rfl)
@[simp] theorem State.mapDac_linkCores (s : State) (f : DacBank → DacBank) : (s.mapDac f).linkCores = s.linkCores := (rfl)
@[simp] theorem State.mapFuse_linkCores (s : State) (f : Fuse → Fuse) : (s.mapFuse f).linkCores = s.linkCores := (rfl)
@[simp] theorem State.mapRep_linkCores (s : State) (f : Repair → Repair) : (s.mapRep f).linkCores = s.linkCores := (rfl)
@[simp] theorem State.mapBoot_linkCores (s : State) (f : Boot → Boot) : (s.mapBoot f).linkCores = s.linkCores := (rfl)
@[simp] theorem State.mapHreg_linkCores (s : State) (f : Hreg → Hreg) : (s.mapHreg f).linkCores = s.linkCores := (rfl)
@[simp] theorem State.mapHif_linkCores (s : State) (f : Hif → Hif) : (s.mapHif f).linkCores = s.linkCores := (rfl)
@[simp] theorem State.mapFl_linkCores (s : State) (f : Flight → Flight) : (s.mapFl f).linkCores = s.linkCores := (rfl)
@[simp] theorem State.mapLanes_linkCores (s : State) (f : LaneBank → LaneBank) : (s.mapLanes f).linkCores = s.linkCores := (rfl)
@[simp] theorem State.mapCages_linkCores (s : State) (f : CageBank → CageBank) : (s.mapCages f).linkCores = s.linkCores := (rfl)
@[simp] theorem State.mapPorts_linkCores (s : State) (f : PortBank → PortBank) : (s.mapPorts f).linkCores = s.linkCores := (rfl)
@[simp] theorem State.mapRetn_linkCores (s : State) (f : Retain → Retain) : (s.mapRetn f).linkCores = s.linkCores := (rfl)
@[simp] theorem State.mapBuf_linkCores (s : State) (f : Buffer → Buffer) : (s.mapBuf f).linkCores = s.linkCores := (rfl)
@[simp] theorem State.mapSched_linkCores (s : State) (f : Sched → Sched) : (s.mapSched f).linkCores = s.linkCores := (rfl)
@[simp] theorem State.mapTbl_linkCores (s : State) (f : Tables → Tables) : (s.mapTbl f).linkCores = s.linkCores := (rfl)
@[simp] theorem State.mapMem_linkCores (s : State) (f : Mem → Mem) : (s.mapMem f).linkCores = s.linkCores := (rfl)
@[simp] theorem State.mapObs_linkCores (s : State) (f : Obs → Obs) : (s.mapObs f).linkCores = s.linkCores := (rfl)
@[simp] theorem State.mapTim_linkCores (s : State) (f : Tim → Tim) : (s.mapTim f).linkCores = s.linkCores := (rfl)
@[simp] theorem State.mapGeo_linkCores (s : State) (f : Geode → Geode) : (s.mapGeo f).linkCores = s.linkCores := (rfl)
@[simp] theorem State.mapAdc_linkCores (s : State) (f : Adc → Adc) : (s.mapAdc f).linkCores = s.linkCores := (rfl)

@[simp] theorem geodePush_linkCores (l : List Byte) (s : State) : (geodePush l s).linkCores = s.linkCores := by
  funext k
  by_cases e : k = 128
  · subst e
    simp [State.linkCores, geodePush, link, mget, mmod, mfind_mput]
  · simp [State.linkCores, geodePush, link, mget, mmod, mfind_mput, e]

/-- What a part of a link that is not the records owed keeps through a change that keeps `linkCores`. -/
theorem link_congr {α : Type} {s t : State} (h : t.linkCores = s.linkCores) (n : Nat) (part : Link → α)
    (apart : ∀ l : Link, part { l with resp := [] } = part l) : part (link t n) = part (link s n) := by
  rw [← apart (link t n), ← apart (link s n)]
  exact congrArg part (congrFun h n)

theorem pairMaps_of_linkCores {s t : State} (h : t.linkCores = s.linkCores) : t.pairMaps = s.pairMaps :=
  funext fun n => link_congr h n Link.pairs (by intro l; rfl)

end Sys2Proof.Machine
end

section
/-! PROOFS. O38: the commands of Garnet. -/
namespace Sys2Proof.Machine

@[simp] theorem State_tick_linkCores (s : State) : s.tick.linkCores = s.linkCores := (rfl)

@[simp] theorem ite_linkCores {c : Prop} [Decidable c] (a b : State) :
    (if c then a else b).linkCores = if c then a.linkCores else b.linkCores := apply_ite (fun s : State => s.linkCores) c a b

@[simp] theorem foldl_linkCores {α : Type} {f : State → α → State} (same : ∀ s a, (f s a).linkCores = s.linkCores) (l : List α) (s : State) :
    (l.foldl f s).linkCores = s.linkCores := by
  induction l generalizing s with
  | nil => rfl
  | cons a l ih => exact (ih (f s a)).trans (same s a)

@[simp] theorem forEach_linkCores {f : Nat → State → State} (same : ∀ n s, (f n s).linkCores = s.linkCores) (l : List Nat) (s : State) :
    (forEach l f s).linkCores = s.linkCores :=
  foldl_linkCores (fun s n => same n s) l s

@[simp] theorem mirrorDrain_linkCores (n : Nat) (s : State) : (mirrorDrain n s).linkCores = s.linkCores := by
  induction n generalizing s with
  | zero => rfl
  | succ n ih =>
    unfold mirrorDrain
    split
    · rfl
    · split
      · rfl
      · simp [ih]

@[simp] theorem mirrorPush_linkCores (k num : Nat) (b : List Byte) (s : State) : (mirrorPush k num b s).linkCores = s.linkCores := by
  simp [mirrorPush]

@[simp] theorem mirrorConfig_linkCores (op target : Nat) (inl data : List Byte) (s : State) : (mirrorConfig op target inl data s).linkCores = s.linkCores := by
  simp [mirrorConfig]

@[simp] theorem mirrorCmd_linkCores (c : Cmd) (st : Status) (s : State) : (mirrorCmd c st s).linkCores = s.linkCores := by
  simp [mirrorCmd]

@[simp] theorem profEvent_linkCores (ev inst n : Nat) (s : State) : (profEvent ev inst n s).linkCores = s.linkCores := (rfl)

@[simp] theorem loseEvent_linkCores (s : State) : (loseEvent s).linkCores = s.linkCores := (rfl)

@[simp] theorem hostWrite_linkCores (addr : Nat) (bytes : List Byte) (s : State) : (hostWrite addr bytes s).linkCores = s.linkCores := (rfl)

@[simp] theorem msixFire_linkCores (v : Nat) (s : State) : (msixFire v s).linkCores = s.linkCores := by
  simp [msixFire]

@[simp] theorem msixCount_linkCores (v count n : Nat) (s : State) : (msixCount v count n s).linkCores = s.linkCores := by
  simp [msixCount]

@[simp] theorem evqWrite_linkCores (e : Event) (s : State) : (evqWrite e s).linkCores = s.linkCores := by
  simp [evqWrite]

@[simp] theorem evqDrain_linkCores (l : List Event) (s : State) : (evqDrain l s).2.linkCores = s.linkCores := by
  induction l generalizing s with
  | nil => rfl
  | cons e r ih =>
    unfold evqDrain
    split
    · rw [ih, evqWrite_linkCores]
    · rfl

@[simp] theorem setHifErr_linkCores (bits : BitVec 7) (s : State) : (setHifErr bits s).linkCores = s.linkCores := (rfl)

@[simp] theorem deliverEvents_linkCores (s : State) : (deliverEvents s).linkCores = s.linkCores := by
  simp [deliverEvents]

@[simp] theorem postEvent_linkCores (e : Event) (s : State) : (postEvent e s).linkCores = s.linkCores := by
  simp [postEvent]

@[simp] theorem post_linkCores (code sev obj detail : Nat) (s : State) : (post code sev obj detail s).linkCores = s.linkCores := by
  simp [post]

@[simp] theorem ringError_linkCores (r cause : Nat) (s : State) : (ringError r cause s).linkCores = s.linkCores := by
  unfold ringError
  split <;> simp

@[simp] theorem writeCompletion_linkCores (c : Completion) (s : State) : (writeCompletion c s).linkCores = s.linkCores := by
  simp [writeCompletion]
  split <;> simp

@[simp] theorem finishOne_linkCores (id : Nat) (st : Status) (r0 r1 : BitVec 64) (eff : Bool) (s : State) : (finishOne id st r0 r1 eff s).linkCores = s.linkCores := by
  unfold finishOne
  split <;> simp

@[simp] theorem settleDeletes_linkCores (n : Nat) (s : State) : (settleDeletes n s).linkCores = s.linkCores := by
  induction n generalizing s with
  | zero => rfl
  | succ n ih =>
    unfold settleDeletes
    split
    · rfl
    · rw [ih, finishOne_linkCores]
      rfl

@[simp] theorem finish_linkCores (id : Nat) (st : Status) (r0 r1 : BitVec 64) (eff : Bool) (s : State) : (finish id st r0 r1 eff s).linkCores = s.linkCores := by
  simp [finish]

@[simp] theorem endProposal_linkCores (item : Nat) (st : Status) (s : State) : (endProposal item st s).linkCores = s.linkCores := by
  unfold endProposal
  split <;> simp

@[simp] theorem abortProposals_linkCores (s : State) : (abortProposals s).linkCores = s.linkCores := by
  simp [abortProposals]

@[simp] theorem setCauses_linkCores (causes : BitVec 12) (s : State) : (setCauses causes s).linkCores = s.linkCores := by
  simp [setCauses]

@[simp] theorem garnetCauses_linkCores (s : State) : (garnetCauses s).linkCores = s.linkCores := by
  simp [garnetCauses]

@[simp] theorem finishAll_linkCores (ids : List Nat) (st : Status) (eff : Bool) (s : State) : (finishAll ids st eff s).linkCores = s.linkCores := by
  simp [finishAll]

@[simp] theorem modCmd_linkCores (id : Nat) (f : Cmd → Cmd) (s : State) : (modCmd id f s).linkCores = s.linkCores := by
  unfold modCmd
  split <;> simp

@[simp] theorem awaitEnd_linkCores (id : Nat) (aux : List Nat) (s : State) : (awaitEnd id aux s).linkCores = s.linkCores := by
  simp [awaitEnd]

@[simp] theorem logErr_linkCores (code subject detail : Nat) (s : State) : (logErr code subject detail s).linkCores = s.linkCores := (rfl)

@[simp] theorem traceLose_linkCores (s : State) : (traceLose s).linkCores = s.linkCores := (rfl)

@[simp] theorem traceWrite_linkCores (t : Option Trace) (cause : Nat) (s : State) : (traceWrite t cause s).linkCores = s.linkCores := by
  unfold traceWrite
  dsimp only
  (repeat' split) <;> simp

@[simp] theorem abortPairCmds_linkCores (n : Nat) (s : State) : (abortPairCmds n s).linkCores = s.linkCores := by
  simp [abortPairCmds]

@[simp] theorem writeBlock_linkCores (c : Cmd) (bytes : List Byte) (s : State) : (writeBlock c bytes s).linkCores = s.linkCores := (rfl)

@[simp] theorem modQueue_linkCores (eg : Bool) (q : Nat) (f : Queue → Queue) (s : State) : (modQueue eg q f s).linkCores = s.linkCores := by
  unfold modQueue
  split <;> simp

@[simp] theorem markHead_linkCores (eg : Bool) (q : Nat) (s : State) : (markHead eg q s).linkCores = s.linkCores := by
  simp [markHead]

@[simp] theorem requestQueue_linkCores (eg : Bool) (q : Nat) (s : State) : (requestQueue eg q s).linkCores = s.linkCores := by
  unfold requestQueue
  split <;> simp

@[simp] theorem requestAll_linkCores (s : State) : (requestAll s).linkCores = s.linkCores := by
  simp [requestAll]

@[simp] theorem popHead_linkCores (eg : Bool) (q : Nat) (s : State) : (popHead eg q s).linkCores = s.linkCores := by
  simp [popHead]

@[simp] theorem linkCount_pairMaps (n k a : Nat) (s : State) : (linkCount n k a s).pairMaps = s.pairMaps := by
  simp [linkCount]

@[simp] theorem traceLose_pairMaps (s : State) : (traceLose s).pairMaps = s.pairMaps := (rfl)

@[simp] theorem traceWrite_pairMaps (t : Option Trace) (cause : Nat) (s : State) : (traceWrite t cause s).pairMaps = s.pairMaps := by
  unfold traceWrite
  dsimp only
  (repeat' split) <;> simp

@[simp] theorem modQueue_pairMaps (eg : Bool) (q : Nat) (f : Queue → Queue) (s : State) : (modQueue eg q f s).pairMaps = s.pairMaps := by
  unfold modQueue
  split <;> simp

@[simp] theorem markHead_pairMaps (eg : Bool) (q : Nat) (s : State) : (markHead eg q s).pairMaps = s.pairMaps := by
  simp [markHead]

@[simp] theorem requestQueue_pairMaps (eg : Bool) (q : Nat) (s : State) : (requestQueue eg q s).pairMaps = s.pairMaps := by
  unfold requestQueue
  split <;> simp

@[simp] theorem requestAll_pairMaps (s : State) : (requestAll s).pairMaps = s.pairMaps := by
  simp [requestAll]

@[simp] theorem popHead_pairMaps (eg : Bool) (q : Nat) (s : State) : (popHead eg q s).pairMaps = s.pairMaps := by
  simp [popHead]

@[simp] theorem txDone_pairMaps (n : Nat) (s : State) : (txDone n s).pairMaps = s.pairMaps := by
  unfold txDone
  split <;> simp

@[simp] theorem protoEnd_pairMaps (n reason : Nat) (s : State) : (protoEnd n reason s).pairMaps = s.pairMaps := by
  simp [protoEnd]

@[simp] theorem traceLose_outerLinks (s : State) : (traceLose s).outerLinks = s.outerLinks := (rfl)

@[simp] theorem traceWrite_outerLinks (t : Option Trace) (cause : Nat) (s : State) : (traceWrite t cause s).outerLinks = s.outerLinks := by
  unfold traceWrite
  dsimp only
  (repeat' split) <;> simp

@[simp] theorem modQueue_outerLinks (eg : Bool) (q : Nat) (f : Queue → Queue) (s : State) : (modQueue eg q f s).outerLinks = s.outerLinks := by
  unfold modQueue
  split <;> simp

@[simp] theorem markHead_outerLinks (eg : Bool) (q : Nat) (s : State) : (markHead eg q s).outerLinks = s.outerLinks := by
  simp [markHead]

@[simp] theorem requestQueue_outerLinks (eg : Bool) (q : Nat) (s : State) : (requestQueue eg q s).outerLinks = s.outerLinks := by
  unfold requestQueue
  split <;> simp

@[simp] theorem requestAll_outerLinks (s : State) : (requestAll s).outerLinks = s.outerLinks := by
  simp [requestAll]

@[simp] theorem popHead_outerLinks (eg : Bool) (q : Nat) (s : State) : (popHead eg q s).outerLinks = s.outerLinks := by
  simp [popHead]

@[simp] theorem abortPairCmds_outerLinks (n : Nat) (s : State) : (abortPairCmds n s).outerLinks = s.outerLinks := by
  simp [abortPairCmds]

/-! O38: the commands of Garnet. -/

@[simp] theorem garnetSetBad_begun (c : Cmd) (s : State) : garnetSetBad (c.begun s) = garnetSetBad c := rfl
@[simp] theorem pairBad_begun (c : Cmd) (s : State) : pairBad (c.begun s) = pairBad c := rfl
@[simp] theorem geodeOff_begun (c : Cmd) (s t : State) : geodeOff (c.begun s) t = geodeOff c t := rfl
@[simp] theorem geodeOff_beginCmd (c d : Cmd) (id : Nat) (s : State) : geodeOff d (beginCmd id c s) = geodeOff d s := rfl
@[simp] theorem linkSettings_begun (c : Cmd) (s : State) : linkSettings (c.begun s) = linkSettings c := rfl
@[simp] theorem setLink_begun (c : Cmd) (s : State) (n : Nat) : setLink (c.begun s) n = setLink c n := rfl

/-- Link `n` is as before but for its pairs and the records it owes, and so is every other link. -/
def SameButPairs (n : Nat) (s t : State) : Prop :=
  LinksBut n s t ∧ { t.linkCores n with pairs := [] } = { s.linkCores n with pairs := [] }

namespace SameButPairs
variable {n : Nat} {s t u : State}

theorem rfl : SameButPairs n s s := ⟨.rfl, Eq.refl _⟩

theorem trans (h : SameButPairs n s t) (g : SameButPairs n t u) : SameButPairs n s u := ⟨h.1.trans g.1, g.2.trans h.2⟩

theorem of_same (outer : t.outerLinks = s.outerLinks) (cores : t.linkCores = s.linkCores) : SameButPairs n s t :=
  ⟨.of_outer outer, by rw [cores]⟩

/-- Every part of the link but its pairs and the records it owes is as before. -/
theorem part {α : Type} (h : SameButPairs n s t) (part : Link → α) (apart : ∀ l : Link, part { l with resp := [], pairs := [] } = part l) :
    part (link t n) = part (link s n) := by
  rw [← apart (link t n), ← apart (link s n)]
  exact congrArg part h.2

end SameButPairs

theorem core_modLink (n : Nat) (f : Link → Link) (s : State) : (modLink n f s).linkCores n = { f (link s n) with resp := [] } := by
  simp [State.linkCores]

theorem sameButPairs_modLink {n : Nat} {f : Link → Link} (h : ∀ l, { f l with pairs := [] } = { l with pairs := [] }) (s : State) :
    SameButPairs n s (modLink n f s) := by
  refine ⟨linksBut_modLink n f s, ?_⟩
  rw [core_modLink]
  exact congrArg (fun l : Link => { l with resp := [] }) (h (link s n))

theorem sameButPairs_modPair (n i : Nat) (f : Pair → Pair) (s : State) : SameButPairs n s (modPair n i f s) :=
  sameButPairs_modLink (by intro l; rfl) s

theorem sameButPairs_sleepBank (n i : Nat) (s : State) : SameButPairs n s (sleepBank n i s) := by
  unfold sleepBank
  dsimp only
  split
  · exact sameButPairs_modPair n i _ s
  · exact .rfl

theorem sameButPairs_pairPage (n i : Nat) (s : State) : SameButPairs n s (pairPage n i s) :=
  (sameButPairs_sleepBank n i s).trans
    ((SameButPairs.of_same (State_tick_outerLinks _) (State_tick_linkCores _)).trans (sameButPairs_modPair n i _ _))

theorem sameButPairs_forEach {n : Nat} {f : Nat → State → State} (h : ∀ i s, SameButPairs n s (f i s)) (l : List Nat) (s : State) :
    SameButPairs n s (forEach l f s) := by
  induction l generalizing s with
  | nil => exact .rfl
  | cons i r ih => exact (h i s).trans (ih (f i s))

theorem sameButPairs_linkStart (n : Nat) (s : State) : SameButPairs n s (linkStart n s) := by
  unfold linkStart
  split
  · exact .rfl
  · refine sameButPairs_forEach (fun i s => ?_) _ s
    split
    · exact .rfl
    · split
      · exact sameButPairs_modPair n i _ s
      · exact sameButPairs_pairPage n i s

/-! The end of the protocol. -/

/-- A link whose protocol has ended. -/
def Link.ended (l : Link) : Link :=
  { l with
    running := false, up := false, ending := none, heard := false, nakWait := false, ahead := [], part := [], skip := false, recs := []
    replay := [], resend := [], replays := 0, replayAt := none, txPart := [], txPkt := false, txTrace := none, txAccept := none, ctl := [], resp := []
    pkt := none, sent := [], propose := none, accepted := [], idleSeq := none
    lookups := l.lookups.map (fun p => (p.1 + 1024, p.2)), inq := l.inq.map (· + 1024) }

theorem txDone_core (n : Nat) (s : State) : (txDone n s).linkCores n = { link s n with txQueue := none, resp := [] } := by
  unfold txDone
  split
  · next empty =>
    rw [State.linkCores]
    generalize link s n = l at empty ⊢
    cases l
    cases empty
    rfl
  · rw [popHead_linkCores, core_modLink]

theorem protoEnd_core {n : Nat} {s : State} (reason : Nat) (live : ((link s n).running || (link s n).up) = true) :
    (protoEnd n reason s).linkCores n =
      Link.ended { link s n with ctr := ctrAdd (link s n).ctr 14 (lostPackets (link s n)).length, txQueue := none } := by
  have stops : (!(link s n).running && !(link s n).up) = false := by rw [← Bool.not_or, live]; rfl
  unfold protoEnd
  simp only [stops, Bool.false_eq_true, if_false]
  generalize hu : List.foldl (fun s t => traceWrite t 14 s) (linkCount n 14 (lostPackets (link s n)).length s) (lostPackets (link s n)) = u
  have traced : u.linkCores = (linkCount n 14 (lostPackets (link s n)).length s).linkCores := by
    rw [← hu]
    exact foldl_linkCores (fun _ _ => traceWrite_linkCores _ _ _) _ _
  have counted : u.linkCores n = { link s n with ctr := ctrAdd (link s n).ctr 14 (lostPackets (link s n)).length, resp := [] } := by
    rw [traced, linkCount, core_modLink]
  have queue : { link u n with txQueue := none, resp := [] } =
      { link s n with ctr := ctrAdd (link s n).ctr 14 (lostPackets (link s n)).length, txQueue := none, resp := [] } :=
    congrArg (fun l : Link => { l with txQueue := none }) counted
  have ended : (modLink n Link.ended (txDone n u)).linkCores n =
      Link.ended { link s n with ctr := ctrAdd (link s n).ctr 14 (lostPackets (link s n)).length, txQueue := none } := by
    rw [core_modLink]
    exact congrArg Link.ended ((txDone_core n u).trans queue)
  split
  · exact ended
  · split <;> (rw [post_linkCores]; exact ended)

theorem linksBut_txDone (n : Nat) (s : State) : LinksBut n s (txDone n s) := by
  unfold txDone
  split
  · exact .rfl
  · exact (linksBut_modLink n _ s).trans (.of_outer (popHead_outerLinks _ _ _))

theorem linksBut_protoEnd (n reason : Nat) (s : State) : LinksBut n s (protoEnd n reason s) := by
  unfold protoEnd
  dsimp only
  split
  · exact .rfl
  · have traced := foldl_outerLinks (f := fun s t => traceWrite t 14 s) (fun _ _ => traceWrite_outerLinks _ _ _) (lostPackets (link s n))
      (linkCount n 14 (lostPackets (link s n)).length s)
    have all := (((linksBut_modLink n _ s).trans (LinksBut.of_outer traced)).trans (linksBut_txDone n _)).trans (linksBut_modLink n Link.ended _)
    split
    · exact all
    · split <;> exact all.trans (.of_outer (post_outerLinks _ _ _ _ _))

/-- The end of the protocol leaves it stopped, and of a link's settings and test nothing changed. -/
theorem protoEnd_stops (n reason : Nat) (s : State) : (link (protoEnd n reason s) n).running = false ∧ (link (protoEnd n reason s) n).up = false ∧
    (link (protoEnd n reason s) n).set = (link s n).set ∧ (link (protoEnd n reason s) n).test = (link s n).test := by
  by_cases live : ((link s n).running || (link s n).up) = true
  · have core := protoEnd_core reason live
    have part : ∀ {α : Type} (part : Link → α), part ((protoEnd n reason s).linkCores n) = part (Link.ended _) := fun part => congrArg part core
    exact ⟨part Link.running, part Link.up, part Link.set, part Link.test⟩
  · have quiet : (link s n).running = false ∧ (link s n).up = false := by simpa using live
    rw [show protoEnd n reason s = s by simp [protoEnd, quiet]]
    exact ⟨quiet.1, quiet.2, rfl, rfl⟩

/-! The commands. -/

theorem setLink_swing {c : Cmd} {s : State} (one : c.inl 32 4 = 1) (n : Nat) :
    setLink c n s = modLink n (fun l => { l with set := { l.set with swing := c.inl 36 1 } }) s := by
  have s0 : sel 1 0 = true := by decide
  have s1 : sel 1 1 = false := by decide
  have s2 : sel 1 2 = false := by decide
  have s3 : sel 1 3 = false := by decide
  have s4 : sel 1 4 = false := by decide
  have s5 : sel 1 5 = false := by decide
  have s6 : sel 1 6 = false := by decide
  have settings : linkSettings c = fun x => { x with swing := c.inl 36 1 } := by
    funext x
    simp [linkSettings, Cmd.opt, one, s0, s1, s2, s3, s4, s5, s6]
  simp [setLink, settings]

theorem garnetSetSwing_does {id : Nat} {c : Cmd} {s : State} (begins : Begins s id 0x30 c) (legal : garnetSetBad c = false) (target : c.target < 64)
    (one : c.inl 32 4 = 1) :
    Does (.garnetSet id) id c s 0 0 (modLink c.target fun l => { l with set := { l.set with swing := c.inl 36 1 } }) := by
  refine congrArg Host.Outcome.next (runCmd_of_ok begins ?_ ?_)
  · simp [firstFail, legal]
  · have s6 : sel (c.inl 32 4) 6 = false := by rw [one]; decide
    simp [s6, show c.target ≠ 0x100 by omega, show c.target ≠ 64 by omega, setLink_swing one, Ran.ok]

theorem garnetSetSeed_does {id : Nat} {c : Cmd} {s : State} (begins : Begins s id 0x30 c) (legal : garnetSetBad c = false) (target : c.target = 0x100)
    (two : c.inl 32 4 = 2) :
    Does (.garnetSet id) id c s 0 0 fun x => x.mapGar fun g => { g with hashSeed := BitVec.ofNat 32 (c.inl 40 4) } := by
  refine congrArg Host.Outcome.next (runCmd_of_ok begins ?_ ?_)
  · simp [firstFail, legal]
  · have s0 : sel 2 0 = false := by decide
    have s1 : sel 2 1 = true := by decide
    have s2 : sel 2 2 = false := by decide
    have s3 : sel 2 3 = false := by decide
    have s4 : sel 2 4 = false := by decide
    simp [target, two, s0, s1, s2, s3, s4, Ran.ok]

/-- GARNET_RESTART's clearing: the link stops and every pair is off. -/
theorem linkOff_stops (n reason : Nat) (s : State) : LinksBut n s (linkOff n reason s) ∧ (link (linkOff n reason s) n).running = false ∧
    (link (linkOff n reason s) n).up = false ∧ (link (linkOff n reason s) n).set = (link s n).set := by
  obtain ⟨stopped, down, set, -⟩ := protoEnd_stops n reason s
  have banked := sameButPairs_forEach (sameButPairs_sleepBank n) (pairIdx n) (protoEnd n reason s)
  unfold linkOff linkClear
  dsimp only
  refine ⟨(((linksBut_protoEnd n reason s).trans banked.1).trans (linksBut_modLink n _ _)).trans (.of_outer (garnetCauses_outerLinks _)), ?_, ?_, ?_⟩
  · rw [link_congr (garnetCauses_linkCores _) n Link.running (by intro l; rfl), link_modLink_same]
    exact (banked.part Link.running (by intro l; rfl)).trans stopped
  · rw [link_congr (garnetCauses_linkCores _) n Link.up (by intro l; rfl), link_modLink_same]
    exact (banked.part Link.up (by intro l; rfl)).trans down
  · rw [link_congr (garnetCauses_linkCores _) n Link.set (by intro l; rfl), link_modLink_same]
    exact (banked.part Link.set (by intro l; rfl)).trans set

theorem garnetRestart_runs {id : Nat} {c : Cmd} {s : State} (begins : Begins s id 0x31 c) (target : linkTarget c.target = true) (none : noFields c = true)
    (role : geodeOff c s = false) : Runs (.garnetRestart id) s fun t =>
      (link t c.target).ctr = [] ∧ (link t c.target).violations = Ctr.init ∧ (link t c.target).running = false ∧ (link t c.target).up = false ∧
        (link t c.target).set = (link s c.target).set ∧ LinksBut c.target s t := by
  generalize hu : abortPairCmds c.target (beginCmd id c s) = u
  obtain ⟨off, stopped, down, set⟩ := linkOff_stops c.target 2 u
  generalize hv : modLink c.target (fun l => { l with ctr := [], violations := Ctr.init, pairs := mmap l.pairs fun _ p => { p with ctr := [] } })
    (linkOff c.target 2 u) = v
  have cleared : link v c.target = { link (linkOff c.target 2 u) c.target with
      ctr := [], violations := Ctr.init, pairs := mmap (link (linkOff c.target 2 u) c.target).pairs fun _ p => { p with ctr := [] } } := by
    rw [← hv, link_modLink_same]
  have started := (sameButPairs_linkStart c.target v).trans
    (.of_same (finish_outerLinks id .success 0 0 true _) (finish_linkCores id .success 0 0 true _))
  have aborted : LinksBut c.target s u := by
    rw [← hu]
    exact .of_outer (abortPairCmds_outerLinks _ _)
  refine ⟨finish id .success 0 0 true (linkStart c.target v), congrArg Host.Outcome.next (runCmd_of_ok begins ?_ ?_), ?_, ?_, ?_, ?_, ?_, ?_⟩
  · simp [firstFail, target, none, role]
  · simp only [Cmd.begun_target]
    rw [hu, hv]
    rfl
  · rw [started.part Link.ctr (by intro l; rfl), cleared]
  · rw [started.part Link.violations (by intro l; rfl), cleared]
  · rw [started.part Link.running (by intro l; rfl), cleared]
    exact stopped
  · rw [started.part Link.up (by intro l; rfl), cleared]
    exact down
  · rw [started.part Link.set (by intro l; rfl), cleared]
    refine set.trans ?_
    rw [← hu]
    exact link_congr (abortPairCmds_linkCores _ _) _ Link.set (by intro l; rfl)
  · rw [← hv] at started ⊢
    exact ((aborted.trans off).trans (linksBut_modLink _ _ _)).trans started.1

theorem pairRetrain_pair (n i cause : Nat) (s : State) : ∃ b, pair (pairRetrain n i cause s) n i =
    { pair s n i with
      state := .retrain, phase := .rest, loss := cause, agreed := false, marker := false, wakeDue := false, detecting := false, both := 0
      count := none, swingOn := (link s n).set.swing, message := [], retrained := b } := by
  unfold pairRetrain
  dsimp only
  split
  · refine ⟨true, ?_⟩
    rw [linkCheck_pair, pair_congr (garnetCauses_pairMaps _), pair_congr (post_pairMaps _ _ _ _ _), pair_modPair_same,
      pair_congr (State.mapHealth_pairMaps _ _)]
    simp [pair, mget, mmod, mfind_mput]
  · refine ⟨(pair s n i).retrained, ?_⟩
    rw [linkCheck_pair, pair_congr (garnetCauses_pairMaps _), pair_congr (post_pairMaps _ _ _ _ _), pair_congr (State.mapHealth_pairMaps _ _)]
    simp [pair, mget, mmod, mfind_mput]

theorem pairsBut_linkCheck (n i : Nat) (s : State) : PairsBut n i s (linkCheck n s) := by
  unfold linkCheck
  dsimp only
  split
  · exact pairsBut_modLink n i (f := fun l => { l with ending := some l.up, up := false }) (by intro l; rfl) s
  · exact .rfl

theorem pairsBut_modLink_pairs {n i : Nat} {f : Link → Link} (h : ∀ l j, j ≠ i → mfind (f l).pairs j = mfind l.pairs j) (s : State) :
    PairsBut n i s (modLink n f s) :=
  ⟨linksBut_modLink n f s, fun j other => by rw [link_modLink_same, h _ j other]⟩

theorem pairsBut_pairRetrain (n i cause : Nat) (s : State) : PairsBut n i s (pairRetrain n i cause s) := by
  unfold pairRetrain
  extract_lets u k ts v w
  have moved : PairsBut n i s u := pairsBut_modLink_pairs (by intro l j other; simp [mmod, mfind_mput, other]) s
  have noted : PairsBut n i u v := .of_same (State.mapHealth_outerLinks _ _) (State.mapHealth_pairMaps _ _)
  have marked : PairsBut n i v w := by
    simp only [w]
    split
    · exact pairsBut_modPair n i _ v
    · exact .rfl
  have posted : PairsBut n i w (garnetCauses (post 0x3003 1 (linkObj n i) cause w)) :=
    .of_same (by rw [garnetCauses_outerLinks, post_outerLinks]) (by rw [garnetCauses_pairMaps, post_pairMaps])
  exact (((moved.trans noted).trans marked).trans posted).trans (pairsBut_linkCheck n i _)

theorem garnetRetrain_runs {id : Nat} {c : Cmd} {s : State} (begins : Begins s id 0x32 c) (legal : pairBad c = false) (short : c.indLen = 0)
    (pam : stdMode s c.target = false) (role : geodeOff c s = false) (active : (pair s c.target (c.byte 32)).state = .active)
    (beside : activePairs s c.target ≠ [c.byte 32]) : Runs (.garnetRetrain id) s fun t =>
      (pair t c.target (c.byte 32)).state = .retrain ∧ (pair t c.target (c.byte 32)).loss = 4 ∧ PairsBut c.target (c.byte 32) s t := by
  generalize hi : c.byte 32 = i at active beside ⊢
  generalize hn : c.target = n at active beside pam ⊢
  generalize hu : awaitEnd id [i, 0] (beginCmd id c s) = u
  have same : u.pairMaps = s.pairMaps := by rw [← hu, awaitEnd_pairMaps]; rfl
  have outer : u.outerLinks = s.outerLinks := by rw [← hu, awaitEnd_outerLinks]; rfl
  have kept : ∀ j, pair u n j = pair s n j := pair_congr same n
  have list : activePairs u n = activePairs s n := by simp only [activePairs, kept]
  obtain ⟨b, retrained⟩ := pairRetrain_pair n i 4 u
  have last : ∀ d : Cmd → Cmd, pair (modCmd id d (pairRetrain n i 4 u)) n i = _ := fun d => (pair_congr (modCmd_pairMaps id d _) n i).trans retrained
  refine ⟨modCmd id (fun c => { c with aux := [i, 0] }) (pairRetrain n i 4 u), congrArg Host.Outcome.next ((runCmd_of_waiting begins ?_ rfl ?_).trans ?_),
    ?_, ?_, ?_⟩
  · have unready : (pair s n i).state.unready = false := by rw [active]; rfl
    have asleep : (pair s n i).state.asleep = false := by rw [active]; rfl
    have begun : ∀ j, pair (beginCmd id c s) n j = pair s n j := fun _ => rfl
    have mode : stdMode (beginCmd id c s) n = stdMode s n := rfl
    simp [firstFail, legal, short, hn, hi, mode, pam, role, begun, unready, asleep]
  · rfl
  · simp only [Cmd.begun_byte, Cmd.begun_target, hi, hn]
    rw [hu]
    simp [retrainGo, kept, active, list, beside, Ran.ok]
  · rw [last]
  · rw [last]
  · exact ((PairsBut.of_same outer same).trans (pairsBut_pairRetrain n i 4 u)).trans
      (.of_same (modCmd_outerLinks _ _ _) (modCmd_pairMaps _ _ _))

theorem garnetRetrainUnready {id : Nat} {c : Cmd} {s : State} (begins : Begins s id 0x32 c) (legal : pairBad c = false) (short : c.indLen = 0)
    (pam : stdMode s c.target = false) (unready : (pair s c.target (c.byte 32)).state.unready = true) :
    exec (.garnetRetrain id) s = .next (finishFail id .notReady (beginCmd id c s)) := by
  refine congrArg Host.Outcome.next (runCmd_of_failed_check begins.1 ?_)
  have begun : ∀ n j, pair (beginCmd id c s) n j = pair s n j := fun _ _ => rfl
  have mode : ∀ n, stdMode (beginCmd id c s) n = stdMode s n := fun _ => rfl
  simp [firstFail, legal, short, mode, pam, begun, unready]

/-! GARNET_STATUS. -/

theorem linkAdapt_induct {P : State → Prop} {n : Nat} (keeps : ∀ i f t, P t → P (modPair n i f t)) (ms : List PairMeas) (i : Nat) {s : State} (h : P s) :
    P (linkAdapt n i ms s) := by
  induction ms generalizing i s with
  | nil => exact h
  | cons m r ih =>
    unfold linkAdapt
    split
    · exact ih (i + 1) (keeps i _ s h)
    · exact ih (i + 1) h

theorem length_ctrBlock (m : Map Ctr) (n : Nat) : (ctrBlock m n).length = 8 * n := by
  induction n with
  | zero => rfl
  | succ n ih =>
    rw [ctrBlock, List.range_succ, List.flatMap_append, List.length_append, ← ctrBlock, ih]
    simp [Ctr.bytes, length_leBytes]
    omega

theorem length_pairBlock (s : State) (n i : Nat) : (pairBlock s n i).length = 128 := by
  simp only [pairBlock, List.length_append, length_leBytes, length_zeros, length_ctrBlock]
  split <;> split <;> simp [length_leBytes]

theorem length_garnetBlock_congr {s t : State} {n : Nat} (proto : (link t n).proto = (link s n).proto) :
    (garnetBlock t n).length = (garnetBlock s n).length := by
  simp only [garnetBlock, List.length_append, length_leBytes, length_zeros, length_ctrBlock, List.length_flatMap, length_pairBlock, proto]

theorem garnetStatus_does {id : Nat} {ms : List PairMeas} {c : Cmd} {s : State} (begins : Begins s id 0x33 c) (target : linkTarget c.target = true)
    (legal : counterBlockBad c geodeLink (176 + 128 * pairsOf c.target) = false) (keep : clearWrapOn c = false)
    (allowed : dmaAllowed s c.indAddr (garnetBlock s c.target).length = true) : Does (.garnetStatus id ms) id c s 0 0 fun x =>
      hostWrite c.indAddr (garnetBlock (linkAdapt c.target 0 ms x) c.target) (linkAdapt c.target 0 ms x) := by
  refine congrArg Host.Outcome.next (runCmd_of_ok begins ?_ ?_)
  · simp [firstFail, target, legal]
  · generalize hu : linkAdapt c.target 0 ms (beginCmd id c s) = u
    have kept : (link u c.target).proto = (link s c.target).proto ∧ u.guard = s.guard := by
      rw [← hu]
      refine linkAdapt_induct (P := fun t => (link t c.target).proto = (link s c.target).proto ∧ t.guard = s.guard) (fun i f t h => ?_) ms 0 ⟨rfl, rfl⟩
      exact ⟨by rw [link_modPair]; exact h.1, h.2⟩
    obtain ⟨proto, guard⟩ := kept
    have fits : dmaAllowed u c.indAddr (garnetBlock u c.target).length = true := by
      rw [length_garnetBlock_congr proto]
      unfold dmaAllowed at allowed ⊢
      rw [guard]
      exact allowed
    simp only [Cmd.begun_target, clearWrapOn_begun, keep, Bool.false_eq_true, if_false]
    rw [hu, withBlock_of_allowed _ fits]
    rfl

theorem garnetTdr_does {id : Nat} {m : PairMeas} {c : Cmd} {s : State} (begins : Begins s id 0x34 c) (legal : pairBad c = false) (long : 4168 ≤ c.indLen)
    (pam : stdMode s c.target = false) (role : geodeOff c s = false) (allowed : dmaAllowed s c.indAddr 4168 = true)
    (active : (pair s c.target (c.byte 32)).state = .active)
    (alone : (many (beginCmd id c s).fl.cmds fun j d => decide (j ≠ id) && decide (d.opcode = 0x34) && decide (d.target = c.target) &&
      decide (d.phase = .executing)) = false) :
    Does (.garnetTdr id m) id c s 0 0 fun x => hostWrite c.indAddr (tdrBlock (c.byte 32) false (pairT0 x c.target (c.byte 32))
      (link x c.target).set.velocity m.features m.echo) x := by
  have begun : ∀ n j, pair (beginCmd id c s) n j = pair s n j := fun _ _ => rfl
  have mode : ∀ n, stdMode (beginCmd id c s) n = stdMode s n := fun _ => rfl
  refine congrArg Host.Outcome.next (runCmd_of_ok begins ?_ ?_)
  · have asleep : (pair s c.target (c.byte 32)).state.asleep = false := by rw [active]; rfl
    have short : ¬ c.indLen < 4168 := Nat.not_lt.2 long
    generalize hb : (many (beginCmd id c s).fl.cmds fun j d => decide (j ≠ id) && decide (d.opcode = 0x34) && decide (d.target = (c.begun s).target) &&
      decide (d.phase = .executing)) = other
    have noOther : other = false := by rw [← hb]; exact alone
    simp [firstFail, legal, pam, role, allowed, asleep, short, begun, mode, noOther]
  · simp only [Cmd.begun_target, Cmd.begun_byte, begun, active, if_true]
    rfl

/-! GARNET_DIAG. -/

theorem byteAt_of_inlZero {c : Cmd} {off len k : Nat} (zero : c.inlZero off len = true) (after : off ≤ k) (before : k < off + len) : byteAt c.entry k = 0 := by
  unfold byteAt
  cases h : c.entry[k]? with
  | none => rfl
  | some b =>
    have listed : b ∈ slice c.entry off len := by
      refine List.mem_of_getElem? (i := k - off) ?_
      rw [slice, List.getElem?_take, List.getElem?_drop, if_pos (by omega), Nat.add_sub_cancel' after, h]
    have none := List.all_eq_true.1 zero b listed
    rw [beq_iff_eq.1 none]
    rfl

theorem inlZero_shorter {c : Cmd} {off len k : Nat} (zero : c.inlZero off len = true) (shorter : k ≤ len) : c.inlZero off k = true := by
  refine List.all_eq_true.2 fun b listed => List.all_eq_true.1 zero b ?_
  rw [slice] at listed ⊢
  rw [← Nat.min_eq_left shorter, ← List.take_take] at listed
  exact List.mem_of_mem_take listed

section Diag
variable {id : Nat} {k : List (Nat × Nat)} {c : Cmd} {s : State} (begins : Begins s id 0x35 c) (target : linkTarget c.target = true)
  (zero : c.inlZero 33 31 = true)
include begins target zero

theorem garnetDiagStart_runs (start : c.byte 32 = 1) (short : c.indLen = 0) (role : geodeOff c s = false)
    (plain : (link s c.target).set.loopback = 0) : Runs (.garnetDiag id k) s fun t =>
      (link t c.target).test = 1 ∧ (link t c.target).running = false ∧ (link t c.target).up = false ∧ LinksBut c.target s t := by
  have last : c.byte 63 = 0 := byteAt_of_inlZero zero (by omega) (by omega)
  generalize hu : prbsStart c.target 1 (modLink c.target (fun l => { l with test := 1 }) (beginCmd id c s)) = u
  have test : (link u c.target).test = 1 := by
    rw [← hu]
    simp [prbsStart]
  have others : LinksBut c.target s u := by
    rw [← hu]
    exact LinksBut.trans (linksBut_modLink _ _ (beginCmd id c s)) (linksBut_modLink _ _ _)
  obtain ⟨stopped, down, -, tested⟩ := protoEnd_stops c.target 2 u
  have done := finish_linkCores id .success 0 0 true (protoEnd c.target 2 u)
  refine ⟨finish id .success 0 0 true (protoEnd c.target 2 u), congrArg Host.Outcome.next (runCmd_of_ok begins ?_ ?_), ?_, ?_, ?_, ?_⟩
  · simp [firstFail, target, start, short, role, last, inlZero_shorter zero (show 30 ≤ 31 by omega)]
  · have far : (link (beginCmd id c s) c.target).set.loopback = 0 := plain
    simp only [Cmd.begun_byte, Cmd.begun_target, start, far]
    rw [hu]
    rfl
  · exact (link_congr done c.target Link.test (by intro l; rfl)).trans (tested.trans test)
  · exact (link_congr done c.target Link.running (by intro l; rfl)).trans stopped
  · exact (link_congr done c.target Link.up (by intro l; rfl)).trans down
  · exact (others.trans (linksBut_protoEnd c.target 2 u)).trans (.of_outer (finish_outerLinks _ _ _ _ _ _))

theorem garnetDiagStop_does (stop : c.byte 32 = 0) (short : c.indLen = 0) (role : geodeOff c s = false) (idle : (link s c.target).test = 0) :
    Does (.garnetDiag id k) id c s 0 0 fun x => x := by
  have last : c.byte 63 = 0 := byteAt_of_inlZero zero (by omega) (by omega)
  have quiet : (link (beginCmd id c s) c.target).test = 0 := idle
  refine congrArg Host.Outcome.next (runCmd_of_ok begins ?_ ?_)
  · simp [firstFail, target, stop, short, role, last, inlZero_shorter zero (show 30 ≤ 31 by omega)]
  · simp [stop, quiet, Ran.ok]

theorem garnetDiagRead_refused (read : c.byte 32 = 3) (long : 128 ≤ c.indLen) (idle : (link s c.target).test = 0) :
    exec (.garnetDiag id k) s = .next (finishFail id .notReady (beginCmd id c s)) := by
  have last : byteAt c.entry 63 = 0 := byteAt_of_inlZero zero (by omega) (by omega)
  have quiet : (link (beginCmd id c s) c.target).test = 0 := idle
  have fits : ¬ c.indLen < 128 := Nat.not_lt.2 long
  refine congrArg Host.Outcome.next (runCmd_of_failed_check begins.1 ?_)
  simp [firstFail, target, read, fits, clearWrapBad, last, quiet, inlZero_shorter zero (show 30 ≤ 31 by omega)]

end Diag

/-- Settles O38, from what the end of the protocol, the start of a link and the retrain of a pair do to their link. -/
theorem garnetCommands : Obligations.GarnetCommands := by
  unfold Obligations.GarnetCommands
  exact ⟨fun _ _ _ => garnetSetSwing_does, fun _ _ _ => garnetSetSeed_does, fun _ _ _ => garnetRestart_runs, fun _ _ _ => garnetRetrain_runs,
    fun _ _ _ => garnetRetrainUnready, fun _ _ _ _ => garnetStatus_does, fun _ _ _ _ => garnetTdr_does,
    fun _ _ _ _ begins target start zero => garnetDiagStart_runs begins target zero start,
    fun _ _ _ _ begins target stop zero => garnetDiagStop_does begins target zero stop,
    fun _ _ _ _ begins target read zero => garnetDiagRead_refused begins target zero read⟩

end Sys2Proof.Machine
end

section
/-! PROOFS. O39: the flits. -/
namespace Sys2Proof.Machine

@[simp] theorem passCount_linkCores (eg : Bool) (q len : Nat) (s : State) : (passCount eg q len s).linkCores = s.linkCores := by
  simp [passCount]

@[simp] theorem packetOut_linkCores (a : Option Nat) (s : State) : (packetOut a s).linkCores = s.linkCores := by
  unfold packetOut
  (repeat' split) <;> simp

@[simp] theorem packetsOut_linkCores (before after : Link) (s : State) : (packetsOut before after s).linkCores = s.linkCores := by
  simp [packetsOut]

@[simp] theorem passCount_outerLinks (eg : Bool) (q len : Nat) (s : State) : (passCount eg q len s).outerLinks = s.outerLinks := by
  simp [passCount]

@[simp] theorem packetOut_outerLinks (a : Option Nat) (s : State) : (packetOut a s).outerLinks = s.outerLinks := by
  unfold packetOut
  (repeat' split) <;> simp

@[simp] theorem packetsOut_outerLinks (before after : Link) (s : State) : (packetsOut before after s).outerLinks = s.outerLinks := by
  simp [packetsOut]

@[simp] theorem State_tick_gar (s : State) : s.tick.gar = s.gar := (rfl)

@[simp] theorem ite_gar {c : Prop} [Decidable c] (a b : State) :
    (if c then a else b).gar = if c then a.gar else b.gar := apply_ite (fun s : State => s.gar) c a b

@[simp] theorem foldl_gar {α : Type} {f : State → α → State} (same : ∀ s a, (f s a).gar = s.gar) (l : List α) (s : State) :
    (l.foldl f s).gar = s.gar := by
  induction l generalizing s with
  | nil => rfl
  | cons a l ih => exact (ih (f s a)).trans (same s a)

@[simp] theorem forEach_gar {f : Nat → State → State} (same : ∀ n s, (f n s).gar = s.gar) (l : List Nat) (s : State) :
    (forEach l f s).gar = s.gar :=
  foldl_gar (fun s n => same n s) l s

@[simp] theorem profEvent_gar (ev inst n : Nat) (s : State) : (profEvent ev inst n s).gar = s.gar := (profEvent_done ev inst n s).gar

/-! O39: the flits. -/

/-- The state in which the flit's codewords are counted and, in FAR, sent back. -/
def flitCounted (n i a b c : Nat) (f : List Byte) (s : State) : State :=
  let s := pairCount n i 0 a (pairCount n i 1 b (pairCount n i 2 c s))
  if (link s n).set.loopback = 2 then pairSend n i (bitsOf f) s else s

theorem sameButPairs_pairCount (n i k a : Nat) (s : State) : SameButPairs n s (pairCount n i k a s) := sameButPairs_modPair n i _ s

theorem sameButPairs_pairSend (n i : Nat) (bits : List Bool) (s : State) : SameButPairs n s (pairSend n i bits s) := sameButPairs_modPair n i _ s

theorem pairsBut_pairSend (n i : Nat) (bits : List Bool) (s : State) : PairsBut n i s (pairSend n i bits s) := pairsBut_modPair n i _ s

theorem pairSend_ctr (n i : Nat) (bits : List Bool) (s : State) : (pair (pairSend n i bits s) n i).ctr = (pair s n i).ctr := by
  rw [pairSend, pair_modPair_same]
  dsimp only
  split <;> rfl

section Counted
variable (n i a b c : Nat) (f : List Byte) (s : State)

theorem sameButPairs_flitCounted : SameButPairs n s (flitCounted n i a b c f s) := by
  have counted := ((sameButPairs_pairCount n i 2 c s).trans (sameButPairs_pairCount n i 1 b _)).trans (sameButPairs_pairCount n i 0 a _)
  unfold flitCounted
  dsimp only
  split
  · exact counted.trans (sameButPairs_pairSend n i _ _)
  · exact counted

theorem pairsBut_flitCounted : PairsBut n i s (flitCounted n i a b c f s) := by
  have counted : PairsBut n i s (pairCount n i 0 a (pairCount n i 1 b (pairCount n i 2 c s))) :=
    ((pairsBut_modPair n i _ s).trans (pairsBut_modPair n i _ _)).trans (pairsBut_modPair n i _ _)
  unfold flitCounted
  dsimp only
  split
  · exact counted.trans (pairsBut_pairSend n i _ _)
  · exact counted

theorem flitCounted_ctr : (pair (flitCounted n i a b c f s) n i).ctr = ctrAdd (ctrAdd (ctrAdd (pair s n i).ctr 2 c) 1 b) 0 a := by
  have counted : (pair (pairCount n i 0 a (pairCount n i 1 b (pairCount n i 2 c s))) n i).ctr =
      ctrAdd (ctrAdd (ctrAdd (pair s n i).ctr 2 c) 1 b) 0 a := by
    rw [pairCount, pair_modPair_same, pairCount, pair_modPair_same, pairCount, pair_modPair_same]
  unfold flitCounted
  dsimp only
  split
  · rw [pairSend_ctr, counted]
  · exact counted

end Counted

section Receive
variable {n i a b c : Nat} {f : List Byte} {s : State} (active : (pair s n i).state = .active) (near : (link s n).set.loopback ≠ 1)
include active near

theorem flitReceive_hit : exec (.flitReceive n i f a b c true) s = .next (flitCounted n i a b c f s) := by
  simp only [exec, execFlitReceive, active, near, ne_eq, not_true, or_self, if_false, Bool.or_true, if_true]
  rfl

theorem flitReceive_bad (running : (link s n).running = true) (bad : f.length ≠ 256 ∨ wireAt f 252 4 ≠ (crc32c (f.take 252)).toNat) :
    exec (.flitReceive n i f a b c false) s = .next (linkCount n 2 1 (flitCounted n i a b c f s)) := by
  have runs : (link (flitCounted n i a b c f s) n).running = true :=
    ((sameButPairs_flitCounted n i a b c f s).part Link.running (by intro l; rfl)).trans running
  have stops : f.length ≠ 256 ∨ wireAt f 252 4 ≠ (crc32c (f.take 252)).toNat ∨
      (decide (wireAt f 0 4 / 2 ^ 19 % 4 = 3) || (decide (0xF8 ≤ wireAt f 0 4 % 256) && decide (wireAt f 0 4 % 256 ≤ 0xFC)) ||
        decide (wireAt f 0 4 % 256 = 0xFE)) = true := by
    rcases bad with short | crc
    · exact Or.inl short
    · exact Or.inr (Or.inl crc)
  rw [exec, execFlitReceive, if_neg (by simp [active, near])]
  exact congrArg Host.Outcome.next ((if_neg (by simpa [flitCounted] using runs)).trans (if_pos stops))

theorem flitReceive_data (running : (link s n).running = true) (whole : f.length = 256) (crc : wireAt f 252 4 = (crc32c (f.take 252)).toNat)
    (noAck : wireAt f 0 4 / 2 ^ 19 % 4 = 0) (first : wireAt f 0 4 % 256 = 0xFF) :
    exec (.flitReceive n i f a b c false) s =
      .next (takeData n { seq := wireAt f 0 4 / 2 ^ 21, first := 0xFF, payload := slice f 4 248 }
        (modLink n (fun l => { l with heard := true }) (flitCounted n i a b c f s))) := by
  have runs : (link (flitCounted n i a b c f s) n).running = true :=
    ((sameButPairs_flitCounted n i a b c f s).part Link.running (by intro l; rfl)).trans running
  rw [exec, execFlitReceive, if_neg (by simp [active, near])]
  refine congrArg Host.Outcome.next ((if_neg (by simpa [flitCounted] using runs)).trans ?_)
  generalize hu : flitCounted n i a b c f s = u at runs ⊢
  unfold flitCounted at hu
  dsimp only at hu ⊢
  rw [hu, whole, crc, noAck, first]
  simp [takeAck, runs]

end Receive

/-- Without records in the flit or held behind it, the next expected flit only advances E. -/
theorem takeData_next {n q : Nat} {payload : List Byte} {s : State} (expected : q = (link s n).e) (none : (link s n).ahead = [])
    (whole : (link s n).part = []) : takeData n { seq := q, first := 0xFF, payload := payload } s =
      idleKeep n (profEvent 0x08 (linkInst n) 1 (linkCount n 1 1 (modLink n (fun l => { l with e := (l.e + 1) % 2048 })
        (modLink n (fun l => { l with nakWait := false }) s)))) := by
  generalize hu : linkCount n 1 1 (modLink n (fun l => { l with e := (l.e + 1) % 2048 }) (modLink n (fun l => { l with nakWait := false }) s)) = u
  have there : link (profEvent 0x08 (linkInst n) 1 u) n = link u n := by rw [link, profEvent_gar, link]
  have whole' : (link u n).part = [] := by
    rw [← hu]
    simpa [linkCount] using whole
  have none' : (link u n).ahead = [] := by
    rw [← hu]
    simpa [linkCount] using none
  have delivered : deliverFlit n { seq := q, first := 0xFF, payload := payload } (modLink n (fun l => { l with nakWait := false }) s) =
      profEvent 0x08 (linkInst n) 1 u := by
    unfold deliverFlit
    dsimp only
    rw [hu, there, whole']
    simp
  have held : deliverHeld n 1024 (profEvent 0x08 (linkInst n) 1 u) = profEvent 0x08 (linkInst n) 1 u := by
    rw [show (1024 : Nat) = 1023 + 1 from rfl, deliverHeld, there, none']
    rfl
  unfold takeData
  dsimp only
  rw [if_pos (by omega), delivered, held]

theorem flitExpected_runs {n i a b c : Nat} {f : List Byte} {s : State} (active : (pair s n i).state = .active) (running : (link s n).running = true)
    (near : (link s n).set.loopback ≠ 1) (whole : f.length = 256) (crc : wireAt f 252 4 = (crc32c (f.take 252)).toNat)
    (noAck : wireAt f 0 4 / 2 ^ 19 % 4 = 0) (first : wireAt f 0 4 % 256 = 0xFF) (expected : wireAt f 0 4 / 2 ^ 21 = (link s n).e)
    (none : (link s n).ahead = []) (part : (link s n).part = []) : Runs (.flitReceive n i f a b c false) s fun t =>
      (link t n).e = ((link s n).e + 1) % 2048 ∧ (link t n).nakWait = false ∧ (link t n).recs = (link s n).recs ∧
        ctrOf (link t n).ctr 1 = (ctrOf (link s n).ctr 1).add 1 ∧ LinksBut n s t := by
  have counted := sameButPairs_flitCounted n i a b c f s
  generalize hu : flitCounted n i a b c f s = u at counted
  refine ⟨_, by rw [flitReceive_data active near running whole crc noAck first, hu, takeData_next (by
    rw [link_modLink_same]
    exact expected.trans (counted.part Link.e (by intro l; rfl)).symm) (by
    rw [link_modLink_same]
    exact (counted.part Link.ahead (by intro l; rfl)).trans none) (by
    rw [link_modLink_same]
    exact (counted.part Link.part (by intro l; rfl)).trans part)], ?_⟩
  dsimp only
  generalize hv : linkCount n 1 1 (modLink n (fun l => { l with e := (l.e + 1) % 2048 }) (modLink n (fun l => { l with nakWait := false })
    (modLink n (fun l => { l with heard := true }) u))) = v
  have there : link (profEvent 0x08 (linkInst n) 1 v) n = link v n := by rw [link, profEvent_gar, link]
  have made : link v n = { link u n with
      heard := true, nakWait := false, e := ((link u n).e + 1) % 2048, ctr := ctrAdd (link u n).ctr 1 1 } := by
    rw [← hv]
    simp [linkCount]
  rw [idleKeep, link_modLink_same, there, made]
  refine ⟨?_, rfl, counted.part Link.recs (by intro l; rfl), ?_, ?_⟩
  · rw [counted.part Link.e (by intro l; rfl)]
  · rw [ctrOf_ctrAdd, counted.part Link.ctr (by intro l; rfl)]
  · rw [← hv]
    exact ((((counted.1.trans (linksBut_modLink n _ u)).trans (linksBut_modLink n _ _)).trans (linksBut_modLink n _ _)).trans
      (linksBut_modLink n _ _)).trans ((LinksBut.of_outer (profEvent_outerLinks _ _ _ _)).trans (linksBut_modLink n _ _))

theorem flitElsewhere_runs {n i a b c d : Nat} {f : List Byte} {s : State} (active : (pair s n i).state = .active) (running : (link s n).running = true)
    (near : (link s n).set.loopback ≠ 1) (whole : f.length = 256) (crc : wireAt f 252 4 = (crc32c (f.take 252)).toNat)
    (noAck : wireAt f 0 4 / 2 ^ 19 % 4 = 0) (first : wireAt f 0 4 % 256 = 0xFF) (apart : (wireAt f 0 4 / 2 ^ 21 + 2048 - (link s n).e) % 2048 = d)
    (other : d ≠ 0) : Runs (.flitReceive n i f a b c false) s fun t =>
      (link t n).e = (link s n).e ∧ (link t n).recs = (link s n).recs ∧ (link t n).nakWait = (link s n).nakWait ∧
        ((link s n).nakWait = true → ctrOf (link t n).ctr 4 = (ctrOf (link s n).ctr 4).add 1 ∧ (link t n).ahead = (link s n).ahead) ∧
        ((link s n).nakWait = false → 1024 ≤ d → ctrOf (link t n).ctr 3 = (ctrOf (link s n).ctr 3).add 1 ∧ (link t n).ahead = (link s n).ahead) ∧
        ((link s n).nakWait = false → d < 1024 → mhas (link t n).ahead (wireAt f 0 4 / 2 ^ 21) = true) ∧ LinksBut n s t := by
  have counted := sameButPairs_flitCounted n i a b c f s
  have runs := flitReceive_data (a := a) (b := b) (c := c) active near running whole crc noAck first
  generalize hu : flitCounted n i a b c f s = u at counted runs
  have e := counted.part Link.e (by intro l; rfl)
  have recs := counted.part Link.recs (by intro l; rfl)
  have nak := counted.part Link.nakWait (by intro l; rfl)
  have ctr := counted.part Link.ctr (by intro l; rfl)
  have ahead := counted.part Link.ahead (by intro l; rfl)
  have others : ∀ g, LinksBut n s (modLink n g (modLink n (fun l => { l with heard := true }) u)) := fun g =>
    (counted.1.trans (linksBut_modLink n _ u)).trans (linksBut_modLink n g _)
  have away : (wireAt f 0 4 / 2 ^ 21 + 2048 - (link (modLink n (fun l => { l with heard := true }) u) n).e) % 2048 = d := by
    rw [link_modLink_same]
    dsimp only
    rw [e, apart]
  refine ⟨_, runs, ?_⟩
  dsimp only
  unfold takeData
  dsimp only
  rw [away, if_neg other]
  cases waits : (link s n).nakWait with
  | true =>
    rw [if_pos (by rw [link_modLink_same]; exact nak.trans waits)]
    refine ⟨?_, ?_, ?_, fun _ => ⟨?_, ?_⟩, by simp, by simp, others _⟩ <;> simp [linkCount, e, recs, nak, waits, ctr, ahead, ctrOf_ctrAdd]
  | false =>
    rw [if_neg (by rw [link_modLink_same, nak, waits]; simp)]
    by_cases near : d < 1024
    · rw [if_pos near]
      refine ⟨?_, ?_, ?_, by simp, fun _ far => absurd near (by omega), fun _ _ => ?_, others _⟩
      · simp [e]
      · simp [recs]
      · simp [nak, waits]
      · simp [mhas, mfind_mput]
    · rw [if_neg near]
      refine ⟨?_, ?_, ?_, by simp, fun _ _ => ⟨?_, ?_⟩, fun _ close => absurd close near, others _⟩ <;>
        simp [linkCount, e, recs, nak, waits, ctr, ahead, ctrOf_ctrAdd]

/-! The timers and the end of the protocol. -/

theorem reorderTimeout_runs {n : Nat} {s : State} (running : (link s n).running = true) (calm : (link s n).nakWait = false)
    (held : (link s n).ahead ≠ []) : Runs (.reorderTimeout n) s fun t =>
    (link t n).nakWait = true ∧ (link t n).ahead = [] ∧ (link t n).e = (link s n).e ∧
      ctrOf (link t n).ctr 5 = (ctrOf (link s n).ctr 5).add 1 ∧ LinksBut n s t := by
  refine ⟨linkCount n 5 1 (modLink n (fun l => { l with nakWait := true, ahead := [], idleSeq := none }) s),
    by simp [exec, execReorderTimeout, running, calm, held], ?_⟩
  simp only [linkCount, link_modLink_same, true_and]
  exact ⟨ctrOf_ctrAdd _ _ _, (linksBut_modLink n _ s).trans (linksBut_modLink n _ _)⟩

theorem ackTimeout_runs {n : Nat} {s : State} (running : (link s n).running = true) (unacked : (link s n).replay ≠ [])
    (idle : (link s n).resend = []) (able : activePairs s n ≠ []) (tries : (link s n).replays < 8) : Runs (.ackTimeout n) s fun t =>
      (link t n).resend = (link s n).replay ∧ (link t n).replays = (link s n).replays + 1 ∧ (link t n).a = (link s n).a ∧
        ctrOf (link t n).ctr 7 = (ctrOf (link s n).ctr 7).add 1 ∧ LinksBut n s t := by
  refine ⟨modLink n (fun l => { l with resend := l.replay, replays := l.replays + 1, replayAt := some (linkCount n 7 1 s).now }) (linkCount n 7 1 s),
    ?_, ?_⟩
  · simp [exec, execAckTimeout, running, unacked, idle, able, startReplay, linkCount, tries]
  · simp only [linkCount, link_modLink_same, true_and]
    exact ⟨ctrOf_ctrAdd _ _ _, (linksBut_modLink n _ s).trans (linksBut_modLink n _ _)⟩

theorem protocolEnd_runs {n : Nat} {s : State} (ends : (link s n).ending ≠ none) (running : (link s n).running = true) :
    Runs (.protocolEnd n) s fun t =>
      (link t n).running = false ∧ (link t n).up = false ∧ (link t n).ending = none ∧ (link t n).replay = [] ∧ (link t n).ahead = [] ∧
        (link t n).part = [] ∧ (link t n).inq = (link s n).inq.map (· + 1024) ∧ LinksBut n s t := by
  have core := protoEnd_core (n := n) (s := s) 0 (by rw [running]; rfl)
  have part : ∀ {α : Type} (part : Link → α), part ((protoEnd n 0 s).linkCores n) = part (Link.ended _) := fun part => congrArg part core
  exact ⟨protoEnd n 0 s, by simp [exec, execProtocolEnd, Option.isSome_iff_ne_none.2 ends], part Link.running, part Link.up, part Link.ending,
    part Link.replay, part Link.ahead, part Link.part, part Link.inq, linksBut_protoEnd n 0 s⟩

/-! FLIT_SEND. -/

theorem sameButPairs_flitOut (n i : Nat) (b : List Byte) (s : State) :
    SameButPairs n (modLink n (fun l => { l with lastFlit := b }) s) (flitOut n i b s) := sameButPairs_pairSend n i _ _

theorem linksBut_flitOut (n i : Nat) (b : List Byte) (s : State) : LinksBut n s (flitOut n i b s) :=
  (linksBut_modLink n _ s).trans (sameButPairs_flitOut n i b s).1

section Send
variable {n i : Nat} {s : State} (active : (pair s n i).state = .active) (running : (link s n).running = true) (garnet : stdMode s n = false)
include active running garnet

theorem flitResend_runs {f : Flit} {r : List Flit} (resend : (link s n).resend = f :: r) : Runs (.flitSend n i) s fun t =>
      (link t n).resend = r ∧ (link t n).lastFlit = flitBytes (link s n) f.seq f.first f.payload ∧ (link t n).next = (link s n).next ∧
        ctrOf (link t n).ctr 8 = (ctrOf (link s n).ctr 8).add 1 ∧ LinksBut n s t := by
  generalize hb : flitBytes (link s n) f.seq f.first f.payload = b
  have out := sameButPairs_flitOut n i b (modLink n (fun l => { l with resend := r }) s)
  have there : ∀ u, link (profEvent 0x09 (linkInst n) 1 u) n = link u n := fun u => by rw [link, profEvent_gar, link]
  refine ⟨profEvent 0x09 (linkInst n) 1 (linkCount n 8 1 (flitOut n i b (modLink n (fun l => { l with resend := r }) s))),
    by simp [exec, execFlitSend, active, running, garnet, resend, hb], ?_⟩
  dsimp only
  rw [there, linkCount, link_modLink_same]
  refine ⟨?_, ?_, ?_, ?_, ?_⟩
  · exact (out.part Link.resend (by intro l; rfl)).trans (by simp)
  · exact (out.part Link.lastFlit (by intro l; rfl)).trans (by simp)
  · exact (out.part Link.next (by intro l; rfl)).trans (by simp)
  · rw [ctrOf_ctrAdd, out.part Link.ctr (by intro l; rfl)]
    simp
  · exact (((linksBut_modLink n _ s).trans (linksBut_flitOut n i b _)).trans (linksBut_modLink n _ _)).trans (.of_outer (profEvent_outerLinks _ _ _ _))

theorem flitIdle (fresh : (link s n).resend = []) (down : (link s n).up = false) :
    exec (.flitSend n i) s = .next (flitOut n i (flitBytes (link s n) (link s n).next 0xFD (zeros 248)) s) := by
  simp [exec, execFlitSend, active, running, garnet, fresh, down]

end Send

/-- A link whose one ready control record begins. -/
def Link.begun (r : List Byte) (l : Link) : Link := { l with ctl := [], txPart := r, txPkt := false, txTrace := none, txAccept := none }

theorem fillPayload_record {s : State} {q : Nat} {r : List Byte} {l : Link} (free : l.txPart = []) (one : l.ctl = [r]) (none' : l.resp = [])
    (noPacket : l.pkt = none) (some' : r ≠ []) (short : r.length < 248) (plain : byteAt r 0 ≠ 0x51) :
    fillPayload s q 256 [] none l = some (r ++ zeros (248 - r.length), 0, { l.begun r with txPart := [] }) := by
  have begins : beginRecord s l = some (l.begun r) := by simp [beginRecord, one, plain, Link.begun]
  obtain ⟨x, xs, rfl⟩ := List.exists_cons_of_ne_nil some'
  have ended : ∀ y : Link, (if ([] : List Byte).isEmpty = true then endRecord s q { l.begun (x :: xs) with txPart := [] } else y) =
      { l.begun (x :: xs) with txPart := [] } := fun _ => rfl
  have over' : beginRecord s { l.begun (x :: xs) with txPart := [] } = none := by
    simp [beginRecord, Link.begun, none', noPacket]
  have room : min 248 (x :: xs).length = (x :: xs).length := Nat.min_eq_right short.le
  have left : ¬ 248 - (x :: xs).length = 0 := by omega
  rw [show (256 : Nat) = 255 + 1 from rfl, fillPayload, if_neg (by simp), free]
  dsimp only
  rw [begins]
  dsimp only
  rw [show (255 : Nat) = 254 + 1 from rfl, fillPayload, if_neg (by simp), show (l.begun (x :: xs)).txPart = x :: xs from rfl]
  dsimp only
  rw [List.length_nil, Nat.sub_zero, room, List.drop_length, List.take_length]
  rw [ended, List.nil_append, show (254 : Nat) = 253 + 1 from rfl, fillPayload, if_neg left]
  dsimp only
  rw [over']
  rfl

theorem flitNew_runs {n i : Nat} {r : List Byte} {s : State} (active : (pair s n i).state = .active) (running : (link s n).running = true)
    (garnet : stdMode s n = false) (fresh : (link s n).resend = []) (up : (link s n).up = true) (roomy : (link s n).replay.length < 1024)
    (free : (link s n).txPart = []) (one : (link s n).ctl = [r]) (none' : (link s n).resp = []) (noPacket : (link s n).pkt = none) (some' : r ≠ [])
    (short : r.length < 248) (plain : byteAt r 0 ≠ 0x51) : Runs (.flitSend n i) s fun t =>
      (link t n).ctl = [] ∧ (link t n).next = ((link s n).next + 1) % 2048 ∧
        (link t n).replay = (link s n).replay ++ [{ seq := (link s n).next, first := 0, payload := r ++ zeros (248 - r.length) }] ∧
        ctrOf (link t n).ctr 0 = (ctrOf (link s n).ctr 0).add 1 ∧ LinksBut n s t := by
  have filled := fillPayload_record (s := s) (q := (link s n).next) free one none' noPacket some' short plain
  generalize hf : ({ seq := (link s n).next, first := 0, payload := r ++ zeros (248 - r.length) } : Flit) = f
  generalize hl : ({ (link s n).begun r with txPart := [] } : Link) = l at filled
  generalize hu : packetsOut (link s n) l (modLink n (fun _ => { l with next := ((link s n).next + 1) % 2048, replay := l.replay ++ [f] }) s) = u
  have cores : u.linkCores n = { l with next := ((link s n).next + 1) % 2048, replay := l.replay ++ [f], resp := [] } := by
    rw [← hu, packetsOut_linkCores, core_modLink]
  have others : LinksBut n s u := by
    rw [← hu]
    exact (linksBut_modLink n _ s).trans (.of_outer (packetsOut_outerLinks _ _ _))
  generalize hb : flitBytes l f.seq f.first f.payload = b
  have out := sameButPairs_flitOut n i b u
  have there : ∀ u, link (profEvent 0x07 (linkInst n) 1 u) n = link u n := fun u => by rw [link, profEvent_gar, link]
  have part : ∀ {α : Type} (part : Link → α), part (u.linkCores n) = part { l with next := _, replay := _, resp := [] } := fun part => congrArg part cores
  refine ⟨profEvent 0x07 (linkInst n) 1 (linkCount n 0 1 (flitOut n i b u)), ?_, ?_⟩
  · rw [exec, execFlitSend, if_neg (by simp [active, running, garnet])]
    simp only [fresh, up, roomy, decide_true, Bool.and_true, if_true]
    rw [filled]
    dsimp only
    rw [hf, hu, ← hb, ← hf]
  · dsimp only
    rw [there, linkCount, link_modLink_same]
    refine ⟨?_, ?_, ?_, ?_, ?_⟩
    · refine (out.part Link.ctl (by intro l; rfl)).trans ?_
      rw [link_modLink_same]
      exact (part Link.ctl).trans (by rw [← hl]; rfl)
    · refine (out.part Link.next (by intro l; rfl)).trans ?_
      rw [link_modLink_same]
      exact part Link.next
    · refine (out.part Link.replay (by intro l; rfl)).trans ?_
      rw [link_modLink_same]
      exact (part Link.replay).trans (by rw [← hl]; rfl)
    · rw [ctrOf_ctrAdd, out.part Link.ctr (by intro l; rfl), link_modLink_same]
      exact congrArg (fun m => (ctrOf m 0).add 1) ((part Link.ctr).trans (by rw [← hl]; rfl))
    · exact ((others.trans (linksBut_flitOut n i b u)).trans (linksBut_modLink n _ _)).trans (.of_outer (profEvent_outerLinks _ _ _ _))

/-- Settles O39: each flit and each timer through the lemma about what it leaves of its link. -/
theorem flitRows : Obligations.FlitRows := by
  unfold Obligations.FlitRows
  refine ⟨?_, ?_, ?_, ?_, ?_, fun _ _ => reorderTimeout_runs, ?_, fun _ _ => ackTimeout_runs, ?_, fun _ _ => protocolEnd_runs,
    fun _ _ _ _ _ active running garnet => flitResend_runs active running garnet, fun _ _ _ active running garnet => flitIdle active running garnet,
    fun _ _ _ _ => flitNew_runs⟩
  · intro n i a b c f hit s off
    simp [exec, execFlitReceive, off]
  · intro n i a b c f s active near
    have counted := sameButPairs_flitCounted n i a b c f s
    refine ⟨_, flitReceive_hit active near, counted.part Link.e (by intro l; rfl), counted.part Link.recs (by intro l; rfl),
      counted.part Link.a (by intro l; rfl), counted.part Link.ctr (by intro l; rfl), ?_, pairsBut_flitCounted n i a b c f s⟩
    rw [flitCounted_ctr]
    simp [ctrOf, ctrAdd, mget, mmod, mfind_mput]
  · intro n i a b c f s active running near bad
    have counted := sameButPairs_flitCounted n i a b c f s
    have pairCtr : (pair (linkCount n 2 1 (flitCounted n i a b c f s)) n i).ctr = ctrAdd (ctrAdd (ctrAdd (pair s n i).ctr 2 c) 1 b) 0 a := by
      rw [linkCount, pair_modLink (by intro l; rfl), flitCounted_ctr]
    refine ⟨_, flitReceive_bad active near running bad, ?_⟩
    dsimp only
    rw [pairCtr, linkCount, link_modLink_same]
    refine ⟨counted.part Link.e (by intro l; rfl), counted.part Link.recs (by intro l; rfl), counted.part Link.a (by intro l; rfl), ?_, ?_, ?_, ?_,
      (pairsBut_flitCounted n i a b c f s).trans (pairsBut_modLink n i (by intro l; rfl) _)⟩
    · rw [ctrOf_ctrAdd, counted.part Link.ctr (by intro l; rfl)]
    · simp [ctrOf, ctrAdd, mget, mmod, mfind_mput]
    · simp [ctrOf, ctrAdd, mget, mmod, mfind_mput]
    · simp [ctrOf, ctrAdd, mget, mmod, mfind_mput]
  · intro n i a b c f s active running near whole crc noAck first expected none part
    exact flitExpected_runs active running near whole crc noAck first expected none part
  · intro n i a b c d f s active running near whole crc noAck first apart other
    exact flitElsewhere_runs active running near whole crc noAck first apart other
  · intro n s waits
    simp [exec, execRenakTimeout, waits]
  · intro n s none
    simp [exec, execAckTimeout, none]

end Sys2Proof.Machine
end

section
/-! PROOFS. O40: the records of a link. -/
namespace Sys2Proof.Machine

/-- The head of ingress queue 0 has waited its whole credit timeout without credits, and egress queue 0 has a cell in HBM that no prefetch has
asked for. -/
def stalledBesideSpill : State :=
  { State.reset with
    now := 1000000
    ports := { State.reset.ports with tab := [(0, Port.init)] }
    buf := { State.reset.buf with
      iq := [(0, { Queue.init with pkts := [{ Pkt.init with bytes := zeros 64 }] })]
      eq := [(0, { Queue.init with pkts := [{ Pkt.init with cells := [.hbm] }] })] } }

/-- Refutes O40: the packet that the credit watchdog drops frees prefetch room, and the egress queues ask for their cells in HBM. -/
theorem not_linkRecords : ¬ Obligations.LinkRecords := by
  unfold Obligations.LinkRecords
  rintro ⟨-, -, -, -, -, -, -, -, -, -, -, stall, -⟩
  obtain ⟨t, runs, -, -, kept⟩ := stall 0 0 stalledBesideSpill (by decide) (by decide) (by decide +kernel) (by decide +kernel)
  have asked : (match exec (.creditWatchdog 0 0) stalledBesideSpill with
    | .next u => decide (u.buf.eq = stalledBesideSpill.buf.eq)
    | _ => true) = false := by decide +kernel
  rw [runs] at asked
  simp [kept] at asked

end Sys2Proof.Machine
end

section
/-! PROOFS. O41: link control and outer frames. -/
namespace Sys2Proof.Machine

/-- Link 0 runs as a standard-engine link in loopback FAR. -/
def outerFar : State :=
  State.reset.mapGar fun g =>
    { g with mode := 2, links := [(0, { Link.init with running := true, set := { LinkSet.init with loopback := 2 } })] }

/-- Refutes O41: in loopback FAR an outer frame is only sent back, whatever its FCS, so that a bad one is not counted. -/
theorem not_linkControlAndOuterFrames : ¬ Obligations.LinkControlAndOuterFrames := by
  unfold Obligations.LinkControlAndOuterFrames
  rintro ⟨-, -, -, -, -, -, -, -, -, -, bad, -⟩
  have counts := bad 0 [] outerFar (by decide +kernel) (by decide +kernel) (by decide +kernel)
  have unseen : (match exec (.outerFrameReceive 0 []) outerFar with
    | .next u => decide ((link u 0).ctr = [])
    | _ => false) = true := by decide +kernel
  have counted : (link (linkCount 0 17 1 outerFar) 0).ctr ≠ [] := by decide +kernel
  rw [counts] at unseen
  exact counted (of_decide_eq_true unseen)

end Sys2Proof.Machine
end

section
/-! PROOFS. O43: the egress rows. -/
namespace Sys2Proof.Machine

/-- Port 2^28, whose number is also that of a node, has chosen the one frame of queue 0, a moment after that node was last brought up to date. -/
def chosenAtNode : State :=
  { State.reset with
    now := 1
    boot := { State.reset.boot with state := .active }
    ports := { State.reset.ports with tab := [(2 ^ 28, { Port.init with state := .up })] }
    buf := { State.reset.buf with eq := [(0, { Queue.init with pkts := [{ Pkt.init with bytes := zeros 64 }] })] }
    sched := { State.reset.sched with
      nodes := [(2 ^ 28, Node.init)]
      chosen := [(2 ^ 28, { Chosen.init with path := [(0, false)] })] } }

/-- Refutes O43: the start of a frame sets the virtual time of the node above its path, which at the number of a port is that node. -/
theorem not_egressRows : ¬ Obligations.EgressRows := by
  unfold Obligations.EgressRows
  rintro ⟨-, -, -, -, -, -, -, -, -, start, -⟩
  obtain ⟨t, runs, -, -, -, -, -, apart, -⟩ := start (2 ^ 28) [] false [] { Chosen.init with path := [(0, false)] }
    { Queue.init with pkts := [{ Pkt.init with bytes := zeros 64 }] } { Pkt.init with bytes := zeros 64 } chosenAtNode (by decide +kernel) (by decide +kernel)
    (by decide +kernel) (by decide +kernel) (by decide +kernel) (by decide +kernel) (by decide +kernel)
  have kept := apart (2 ^ 28) (by decide) (by simp)
  have filled : (match exec (.macFrameStart (2 ^ 28) [] false []) chosenAtNode with
    | .next u => (node? u (2 ^ 28)).map Node.filledAt
    | _ => none) = some 1 := by decide +kernel
  have old : (node? chosenAtNode (2 ^ 28)).map Node.filledAt = some 0 := by decide +kernel
  rw [runs] at filled
  dsimp only at filled
  rw [kept, old] at filled
  cases filled

end Sys2Proof.Machine
end

section
/-! PROOFS. O45: the nodes of the scheduler. -/
namespace Sys2Proof.Machine

@[simp] theorem State_tick_sched (s : State) : s.tick.sched = s.sched := (rfl)

@[simp] theorem traceLose_sched (s : State) : (traceLose s).sched = s.sched := (rfl)

@[simp] theorem traceWrite_sched (t : Option Trace) (cause : Nat) (s : State) : (traceWrite t cause s).sched = s.sched := by
  unfold traceWrite
  dsimp only
  (repeat' split) <;> simp

@[simp] theorem causeCount_sched (port : Nat) (eg : Bool) (k n : Nat) (s : State) : (causeCount port eg k n s).sched = s.sched := (rfl)

@[simp] theorem modQueue_sched (eg : Bool) (q : Nat) (f : Queue → Queue) (s : State) : (modQueue eg q f s).sched = s.sched := by
  unfold modQueue
  split <;> simp

@[simp] theorem queueDrop_sched (eg : Bool) (q len : Nat) (s : State) : (queueDrop eg q len s).sched = s.sched := by
  simp [queueDrop]

@[simp] theorem dropCause_sched (eg : Bool) (q len k tc : Nat) (t : Option Trace) (s : State) : (dropCause eg q len k tc t s).sched = s.sched := by
  simp [dropCause]

@[simp] theorem unpick_sched (q : Nat) (s : State) : (unpick q s).sched = s.sched := (rfl)

@[simp] theorem requestQueue_sched (eg : Bool) (q : Nat) (s : State) : (requestQueue eg q s).sched = s.sched := by
  unfold requestQueue
  split <;> simp

@[simp] theorem requestAll_sched (s : State) : (requestAll s).sched = s.sched := by
  simp [requestAll]

@[simp] theorem flushQueue_sched (eg : Bool) (q : Nat) (s : State) : (flushQueue eg q s).sched = s.sched := by
  unfold flushQueue
  split <;> simp

/-! O45: the nodes of the scheduler. -/

@[simp] theorem inlBytes_begun (c : Cmd) (s : State) : inlBytes (c.begun s) = inlBytes c := rfl
@[simp] theorem isSecondary_beginCmd (id : Nat) (c : Cmd) (s : State) : isSecondary (beginCmd id c s) = isSecondary s := rfl
@[simp] theorem node?_beginCmd (id : Nat) (c : Cmd) (s : State) (t : Nat) : node? (beginCmd id c s) t = node? s t := rfl
@[simp] theorem queue?_beginCmd (id : Nat) (c : Cmd) (s : State) (eg : Bool) (q : Nat) : queue? (beginCmd id c s) eg q = queue? s eg q := rfl
@[simp] theorem profile_beginCmd (id : Nat) (c : Cmd) (s : State) : profile (beginCmd id c s) = profile s := rfl
@[simp] theorem childrenOf_beginCmd (id : Nat) (c : Cmd) (s : State) (t : Nat) : childrenOf (beginCmd id c s) t = childrenOf s t := rfl

theorem node?_congr {s t : State} (h : t.sched = s.sched) (n : Nat) : node? t n = node? s n := by rw [node?, h, node?]

theorem queue?_congr {s t : State} (h : t.buf = s.buf) (eg : Bool) (q : Nat) : queue? t eg q = queue? s eg q := by rw [queue?, h, queue?]

section KeepData
variable (id : Nat) (h : HostRead) (s : State)

@[simp] theorem keepData_buf : (keepData id h s).buf = s.buf := by cases h <;> simp [keepData]
@[simp] theorem keepData_sched : (keepData id h s).sched = s.sched := by cases h <;> simp [keepData]
@[simp] theorem keepData_bed : (keepData id h s).bed = s.bed := by cases h <;> simp [keepData]
@[simp] theorem keepData_guard : (keepData id h s).guard = s.guard := by cases h <;> simp [keepData]
@[simp] theorem keepData_geo : (keepData id h s).geo = s.geo := by cases h <;> simp [keepData]

@[simp] theorem isSecondary_keepData : isSecondary (keepData id h s) = isSecondary s := by simp [isSecondary]

@[simp] theorem dmaAllowed_keepData (a len : Nat) : dmaAllowed (keepData id h s) a len = dmaAllowed s a len := by simp [dmaAllowed]

end KeepData

/-! NODE_CREATE. -/

/-- The node that NODE_CREATE makes of its fields at the moment `now`. -/
def NodeFields.node (f : NodeFields) (now : Nat) : Node :=
  { Node.init with
    parent := f.parent, prio := f.prio, weight := f.weight, cir := f.cir, pir := f.pir, cbs := f.cbs, pbs := f.pbs
    overhead := signed 7 f.overhead, cTok := bucketSize f.cbs, pTok := bucketSize f.pbs, filledAt := now }

theorem nodeCreateBody_node {c : Cmd} {s : State} (primary : isSecondary s = false) (tier : tierOf c.target ≠ 4)
    (fits : qminFits (profile s) s.buf.iq s.buf.eq s.buf.ingReserve s.buf.egrMinPool = true) :
    nodeCreateBody false c s = .ok (s.mapSched fun y => { y with nodes := mput y.nodes c.target ((nodeFields (inlBytes c)).node s.now) }) := by
  simp [nodeCreateBody, roleBad, primary, tier, fits, NodeFields.node]
  rfl

theorem nodeCreateBody_queue {c : Cmd} {s : State} (primary : isSecondary s = false) (tier : tierOf c.target = 4)
    (fits : qminFits (profile s) s.buf.iq
      (mput s.buf.eq (numberOf c.target) { Queue.init with prof := (nodeFields (inlBytes c)).prof, emptyAt := s.now }) s.buf.ingReserve
      s.buf.egrMinPool = true) :
    nodeCreateBody false c s = .ok ((s.mapSched fun y => { y with nodes := mput y.nodes c.target ((nodeFields (inlBytes c)).node s.now) }).mapBuf fun b =>
      { b with eq := mput s.buf.eq (numberOf c.target) { Queue.init with prof := (nodeFields (inlBytes c)).prof, emptyAt := s.now } }) := by
  simp [nodeCreateBody, roleBad, primary, tier, fits, NodeFields.node]

theorem nodeCreate_does {id : Nat} {c : Cmd} {f : NodeFields} {s : State} (begins : Begins s id 0x50 c) (fields : f = nodeFields (inlBytes c))
    (passed : nodeCreatePre c s = none) (primary : isSecondary s = false) (tier : tierOf c.target ≠ 4)
    (fits : qminFits (profile s) s.buf.iq s.buf.eq s.buf.ingReserve s.buf.egrMinPool = true) :
    Does (.nodeCreate id) id c s 0 0 fun x => x.mapSched fun y => { y with nodes := mput y.nodes c.target (f.node s.now) } := by
  subst fields
  refine congrArg Host.Outcome.next (runCmd_of_ok begins passed ?_)
  exact (nodeCreateBody_node (c := c.begun s) (s := beginCmd id c s) primary tier fits).trans rfl

theorem nodeCreateQueue_runs {id : Nat} {c : Cmd} {f : NodeFields} {s : State} (begins : Begins s id 0x50 c) (fields : f = nodeFields (inlBytes c))
    (passed : nodeCreatePre c s = none) (primary : isSecondary s = false) (tier : tierOf c.target = 4)
    (fits : qminFits (profile s) s.buf.iq (mput s.buf.eq (numberOf c.target) { Queue.init with prof := f.prof, emptyAt := s.now })
      s.buf.ingReserve s.buf.egrMinPool = true) : Runs (.nodeCreate id) s fun t =>
      queue? t true (numberOf c.target) = some { Queue.init with prof := f.prof, emptyAt := s.now } ∧
      (∃ n, node? t c.target = some n ∧ n.parent = f.parent ∧ n.weight = f.weight) ∧ (∀ k, k ≠ c.target → node? t k = node? s k) ∧
      (∀ k, k ≠ numberOf c.target → queue? t true k = queue? s true k) ∧ t.buf.iq = s.buf.iq := by
  subst fields
  refine ⟨_, congrArg Host.Outcome.next (runCmd_of_ok (r0 := 0) (r1 := 0) begins passed
    (nodeCreateBody_queue (c := c.begun s) (s := beginCmd id c s) primary tier fits)), ?_, ⟨(nodeFields (inlBytes c)).node s.now, ?_, rfl, rfl⟩, ?_, ?_, ?_⟩
  · simp [queue?, mfind_mput]
  · simp [node?, mfind_mput]
  · intro k other
    simp [node?, mfind_mput, other]
  · intro k other
    simp [queue?, mfind_mput, other]
  · simp

/-! NODE_DELETE. -/

@[simp] theorem unchoose_buf (t : Nat) (s : State) : (unchoose t s).buf = s.buf := rfl

theorem unchoose_of_none {s : State} (t : Nat) (none : s.sched.chosen = []) : unchoose t s = s := by
  rw [unchoose, State.mapSched, none]
  exact congrArg (fun l => { s with sched := { s.sched with chosen := l } }) (none.symm.trans rfl) |>.trans rfl

theorem nodeDelete_does {id : Nat} {c : Cmd} {s : State} (begins : Begins s id 0x51 c) (passed : nodeDeletePre c s = none)
    (primary : isSecondary s = false) (childless : childrenOf s c.target = []) (unchosen : s.sched.chosen = []) (tier : tierOf c.target ≠ 4) :
    Does (.nodeDelete id) id c s 0 0 fun x => x.mapSched fun y => { y with nodes := mdel y.nodes c.target } := by
  refine congrArg Host.Outcome.next (runCmd_of_ok begins passed ?_)
  have same : unchoose c.target (beginCmd id c s) = beginCmd id c s := unchoose_of_none c.target unchosen
  simp [nodeDeleteBody, roleBad, primary, childless, tier, same, Ran.ok]

theorem nodeDeleteQueue_runs {id : Nat} {c : Cmd} {s : State} (begins : Begins s id 0x51 c) (passed : nodeDeletePre c s = none)
    (primary : isSecondary s = false) (childless : childrenOf s c.target = []) (tier : tierOf c.target = 4) : Runs (.nodeDelete id) s fun t =>
    node? t c.target = none ∧ queue? t true (numberOf c.target) = none ∧ (∀ k, k ≠ c.target → (node? t k).isSome = (node? s k).isSome) := by
  generalize hu : flushQueue true (numberOf c.target) (unchoose c.target (beginCmd id c s)) = u
  have nodes : u.sched.nodes = s.sched.nodes := by rw [← hu, flushQueue_sched]; rfl
  refine ⟨finish id .success 0 0 true ((u.mapBuf fun b => { b with eq := mdel b.eq (numberOf c.target) }).mapSched fun x =>
    { x with nodes := mdel x.nodes c.target }), congrArg Host.Outcome.next (runCmd_of_ok begins passed ?_), ?_, ?_, ?_⟩
  · simp [nodeDeleteBody, roleBad, primary, childless, tier, hu, Ran.ok]
  · simp [node?, mfind_mdel]
  · simp [queue?, mfind_mdel]
  · intro k other
    simp [node?, mfind_mdel, other, nodes]

theorem nodeDelete_busy {id : Nat} {c : Cmd} {s : State} (begins : Begins s id 0x51 c) (passed : nodeDeletePre c s = none)
    (primary : isSecondary s = false) (children : childrenOf s c.target ≠ []) :
    exec (.nodeDelete id) s = .next (finishFail id .busy (beginCmd id c s)) := by
  refine congrArg Host.Outcome.next (runCmd_of_fail begins passed ?_)
  simp [nodeDeleteBody, roleBad, primary, children]

/-! NODE_SET. -/

theorem nodeSetApply_plain {t : Nat} {f : NodeFields} {s : State} (stays : sel f.valid 0 = false) (keeps : sel f.valid 8 = false)
    (fits : qminFits (profile s) s.buf.iq s.buf.eq s.buf.ingReserve s.buf.egrMinPool = true) :
    nodeSetApply t f s = some (modNode t (fun n => n.change f f.valid) s) := by
  simp only [nodeSetApply, stays, keeps, fits, Bool.not_true, Bool.false_eq_true, if_false]
  rfl

theorem nodeSet_does {id : Nat} {c : Cmd} {f : NodeFields} {s : State} (begins : Begins s id 0x52 c) (fields : f = nodeFields (inlBytes c))
    (passed : nodeSetPre c s = none) (primary : isSecondary s = false) (stays : sel f.valid 0 = false) (keeps : sel f.valid 8 = false)
    (fits : qminFits (profile s) s.buf.iq s.buf.eq s.buf.ingReserve s.buf.egrMinPool = true) :
    Does (.nodeSet id) id c s 0 0 (modNode c.target fun n => n.change f f.valid) := by
  subst fields
  have apply := nodeSetApply_plain (t := c.target) (s := beginCmd id c s) stays keeps fits
  refine congrArg Host.Outcome.next (runCmd_of_ok begins passed ?_)
  simp [nodeSetBody, roleBad, primary, apply, Ran.ok]

theorem bucketSet_le (tok : Int) (r r' size : Nat) : bucketSet tok r r' size ≤ bucketSize size := by
  unfold bucketSet
  split
  · exact le_rfl
  · exact min_le_left _ _

/-! NODE_BATCH and NODE_STATUS. -/

theorem nodeBatchBody_eq {c : Cmd} {l : List Byte} {s : State} (primary : isSecondary s = false)
    (allowed : dmaAllowed s c.indAddr (40 * c.inl 32 2) = true) (whole : l.length = 40 * c.inl 32 2) :
    nodeBatchBody false (.data l) c s =
      match batchRun 0 [] ((List.range (c.inl 32 2)).map fun i => slice l (40 * i) 40) s with
      | .inl t => .ok t
      | .inr (i, st) => { Ran.fail st s with r0 := BitVec.ofNat 64 i } := by
  have all : (l ++ zeros (40 * c.inl 32 2)).take (40 * c.inl 32 2) = l := by rw [← whole, List.take_left]
  simp only [nodeBatchBody, roleBad, primary, withData, withHost, allowed, all, Bool.not_false, Bool.and_false, Bool.false_eq_true, if_false, Bool.not_true,
    Bool.true_and] <;> rfl

theorem nodeBatchApplied {id : Nat} {l : List Byte} {c : Cmd} {s u : State} (begins : Begins s id 0x53 c) (passed : nodeBatchPre c s = none)
    (primary : isSecondary s = false) (allowed : dmaAllowed s c.indAddr (40 * c.inl 32 2) = true) (whole : l.length = 40 * c.inl 32 2)
    (runs : batchRun 0 [] ((List.range (c.inl 32 2)).map fun i => slice l (40 * i) 40) (keepData id (.data l) (beginCmd id c s)) = .inl u) :
    exec (.nodeBatch id (.data l)) s = .next (finish id .success 0 0 true u) := by
  refine congrArg Host.Outcome.next (runCmd_of_ok begins passed ?_)
  dsimp only
  rw [nodeBatchBody_eq (c := c.begun s) (by simpa using primary) (by simpa using allowed) whole]
  simp only [Cmd.begun_inl, runs]
  rfl

theorem nodeBatchRefused {id i : Nat} {st : Status} {l : List Byte} {c : Cmd} {s : State} (begins : Begins s id 0x53 c)
    (passed : nodeBatchPre c s = none) (primary : isSecondary s = false) (allowed : dmaAllowed s c.indAddr (40 * c.inl 32 2) = true)
    (whole : l.length = 40 * c.inl 32 2)
    (fails : batchRun 0 [] ((List.range (c.inl 32 2)).map fun i => slice l (40 * i) 40) (keepData id (.data l) (beginCmd id c s)) = .inr (i, st)) :
    exec (.nodeBatch id (.data l)) s = .next (finish id st (BitVec.ofNat 64 i) 0 false (keepData id (.data l) (beginCmd id c s))) := by
  refine congrArg Host.Outcome.next (runCmd_of_passed_checks begins passed (r := { Ran.fail st (keepData id (.data l) (beginCmd id c s)) with
    r0 := BitVec.ofNat 64 i }) ?_ rfl)
  dsimp only
  rw [nodeBatchBody_eq (c := c.begun s) (by simpa using primary) (by simpa using allowed) whole]
  simp only [Cmd.begun_inl, fails]

theorem not_nodeTargetBad {t : Nat} (target : nodeTargetBad t = false) : ¬ 4 < tierOf t ∧ ¬ tierSize (tierOf t) ≤ numberOf t := by
  simp only [nodeTargetBad, Bool.or_eq_false_iff, decide_eq_false_iff_not] at target
  obtain ⟨⟨_, top⟩, size⟩ := target
  exact ⟨top, size⟩

theorem nodeReady_congr {s t : State} (buf : t.buf = s.buf) (sched : t.sched = s.sched) (now : t.now = s.now) (k n : Nat) :
    nodeReady t k n = nodeReady s k n := by
  induction k generalizing n with
  | zero => rfl
  | succ k ih =>
    have same : nodeReady t k = nodeReady s k := funext ih
    have here : nodeNow t n = nodeNow s n := by rw [nodeNow, node?_congr sched, now, nodeNow]
    have below : childrenOf t n = childrenOf s n := by rw [childrenOf, sched, childrenOf]
    rw [nodeReady, nodeReady, here, below, same, queue?_congr buf]

theorem above_congr {s t : State} (sched : t.sched = s.sched) (k n : Nat) : above t k n = above s k n := by
  induction k generalizing n with
  | zero => rfl
  | succ k ih =>
    rw [above, above, node?_congr sched]
    split
    · rfl
    · exact ih _

theorem nodeStatus_does {id : Nat} {c : Cmd} {s : State} (begins : Begins s id 0x54 c) (node : tierOf c.target ≠ 0)
    (target : nodeTargetBad c.target = false) (plain : noFields c = true) (found : (node? s c.target).isSome = true) :
    Does (.nodeStatus id) id c s
      (BitVec.ofNat 64 (bucketBytes (nodeNow s c.target).cir (nodeNow s c.target).cTok + bucketBytes (nodeNow s c.target).pir (nodeNow s c.target).pTok * 2 ^ 32))
      (BitVec.ofNat 64 ((nodeNow s c.target).shape + b2n (nodeReady s 5 c.target) * 4 +
        b2n ((port? s (above s (tierOf c.target) c.target)).isNone) * 8 + (childrenOf s c.target).length * 2 ^ 20)) fun x => x := by
  have now : nodeNow (beginCmd id c s) c.target = nodeNow s c.target := rfl
  have ready : nodeReady (beginCmd id c s) 5 c.target = nodeReady s 5 c.target :=
    nodeReady_congr (t := beginCmd id c s) (s := s) (beginCmd_buf id c s) (beginCmd_sched id c s) (beginCmd_now id c s) 5 _
  have port : port? (beginCmd id c s) (above (beginCmd id c s) (tierOf c.target) c.target) = port? s (above s (tierOf c.target) c.target) := by
    rw [above_congr (t := beginCmd id c s) (beginCmd_sched id c s)]
    rfl
  have some' : (node? s c.target).isNone = false := by
    cases h : node? s c.target with
    | none => simp [h] at found
    | some n => rfl
  refine congrArg Host.Outcome.next (runCmd_of_ok begins ?_ ?_)
  · obtain ⟨top, size⟩ := not_nodeTargetBad target
    simp [firstFail, top, size, plain, some']
  · simp only [Cmd.begun_target, node, if_false]
    rw [now, ready, port, childrenOf_beginCmd]

theorem nodeStatus_missing {id : Nat} {c : Cmd} {s : State} (begins : Begins s id 0x54 c) (node : tierOf c.target ≠ 0)
    (target : nodeTargetBad c.target = false) (plain : noFields c = true) (missing : node? s c.target = none) :
    exec (.nodeStatus id) s = .next (finishFail id .objectNotFound (beginCmd id c s)) := by
  refine congrArg Host.Outcome.next (runCmd_of_failed_check begins.1 ?_)
  obtain ⟨top, size⟩ := not_nodeTargetBad target
  simp [firstFail, top, size, plain, missing, node]

/-- Settles O45, from what the body of each node command answers. -/
theorem schedulerNodeCommands : Obligations.SchedulerNodeCommands := by
  unfold Obligations.SchedulerNodeCommands
  refine ⟨fun _ _ _ _ => nodeCreate_does, fun _ _ _ _ => nodeCreateQueue_runs, ?_, fun _ _ _ => nodeDelete_does, fun _ _ _ => nodeDeleteQueue_runs,
    fun _ _ _ => nodeDelete_busy, fun _ _ _ _ => nodeSet_does, ?_, fun _ _ _ _ _ => nodeBatchApplied, ?_, ?_, fun _ _ _ => nodeStatus_missing⟩
  · intro id c f s begins fields target short fieldsOk ratesOk plain found
    refine congrArg Host.Outcome.next (runCmd_of_failed_check begins.1 ?_)
    subst fields
    simp [nodeCreatePre, firstFail, target, short, fieldsOk, ratesOk, plain, found]
  · intro n f v
    refine ⟨rfl, rfl, rfl, rfl, rfl, ?_, bucketSet_le _ _ _ _, bucketSet_le _ _ _ _, ?_, rfl⟩
    · intro chosen zero used
      simp [Node.change, bucketSet, chosen, zero, used]
    · intro chosen moved
      simp [Node.change, chosen, moved]
  · intro id i st l c s begins passed primary allowed whole fails
    exact ⟨_, nodeBatchRefused begins passed primary allowed whole fails, rfl, by simp, by simp⟩
  · intro id c n s begins node target plain found now
    subst now
    exact nodeStatus_does begins node target plain found

end Sys2Proof.Machine
end

section
/-! PROOFS. O44: the settings of the traffic manager. -/
namespace Sys2Proof.Machine

@[simp] theorem State_tick_buf (s : State) : s.tick.buf = s.buf := (rfl)

@[simp] theorem modNode_buf (t : Nat) (f : Node → Node) (s : State) : (modNode t f s).buf = s.buf := by
  unfold modNode
  split <;> simp

/-! O44: the settings of the traffic manager. -/

@[simp] theorem shareSum_beginCmd (id : Nat) (c : Cmd) (s : State) : shareSum (beginCmd id c s) = shareSum s := rfl
@[simp] theorem wredCurve_begun (c : Cmd) (s : State) (k : Nat) (old : Nat × Nat × Nat) : wredCurve (c.begun s) k old = wredCurve c k old := rfl
@[simp] theorem budgetField_begun (c : Cmd) (s : State) (k : Nat) : budgetField (c.begun s) k = budgetField c k := rfl
@[simp] theorem hbmReady_beginCmd (id : Nat) (c : Cmd) (s : State) : hbmReady (beginCmd id c s) = hbmReady s := rfl

/-- A mask of one bit selects that field. -/
theorem sel_two_pow (i k : Nat) : sel (2 ^ i) k = decide (k = i) := by
  rw [sel, Nat.testBit_two_pow]
  exact decide_eq_decide.2 eq_comm

theorem sel_one (k : Nat) : sel 1 k = decide (k = 0) := sel_two_pow 0 k
theorem sel_two (k : Nat) : sel 2 k = decide (k = 1) := sel_two_pow 1 k
theorem sel_four (k : Nat) : sel 4 k = decide (k = 2) := sel_two_pow 2 k
theorem sel_eight (k : Nat) : sel 8 k = decide (k = 3) := sel_two_pow 3 k

/-! BUFFER_SET. -/

section BufferSet
variable {id : Nat} {c : Cmd} {s : State} (begins : Begins s id 0x40 c) (passed : bufferSetPre c s = none)
include begins passed

theorem bufferSetReserve_does (primary : isSecondary s = false) (one : c.byte 32 = 1) (ports : s.ports.tab = [])
    (shares : shareSum s ≤ s.buf.egrLanding * 1024) (fits : qminFits (profile s) s.buf.iq s.buf.eq (c.inl 33 1) s.buf.egrMinPool = true) :
    Does (.bufferSet id) id c s 0 0 fun x => x.mapBuf fun b => { b with ingReserve := c.inl 33 1 } := by
  refine congrArg Host.Outcome.next (runCmd_of_ok begins passed ?_)
  simp [bufferSetBody, Cmd.opt, roleBad, primary, one, sel_one, ports, Nat.not_lt.2 shares, fits, Ran.ok]
  rfl

theorem bufferSetHwm_does (primary : isSecondary s = false) (eight : c.byte 32 = 8) (shares : shareSum s ≤ s.buf.egrLanding * 1024)
    (fits : qminFits (profile s) s.buf.iq s.buf.eq s.buf.ingReserve s.buf.egrMinPool = true) :
    Does (.bufferSet id) id c s 0 0 fun x => x.mapBuf fun b => { b with hwm := c.inl 36 2 } := by
  refine congrArg Host.Outcome.next (runCmd_of_ok begins passed ?_)
  simp [bufferSetBody, Cmd.opt, roleBad, primary, eight, sel_eight, Nat.not_lt.2 shares, fits, Ran.ok]
  rfl

theorem bufferSet_secondary (secondary : isSecondary s = true) :
    exec (.bufferSet id) s = .next (finishFail id .permission (beginCmd id c s)) := by
  refine congrArg Host.Outcome.next (runCmd_of_fail begins passed ?_)
  simp [bufferSetBody, roleBad, secondary]

theorem bufferSet_busy (primary : isSecondary s = false) (two : c.byte 32 = 2) (ports : s.ports.tab ≠ []) :
    exec (.bufferSet id) s = .next (finishFail id .busy (beginCmd id c s)) := by
  refine congrArg Host.Outcome.next (runCmd_of_fail begins passed ?_)
  simp [bufferSetBody, roleBad, primary, two, sel_two, ports]

end BufferSet

/-! PROFILE_SET, WRED_SET, CLASSIFY_SET and IQ_SET. -/

theorem qminFits_congr {p q : Nat → Profile} (same : ∀ n, (p n).qmin = (q n).qmin) (iq eq : Map Queue) (ing egr : Nat) :
    qminFits p iq eq ing egr = qminFits q iq eq ing egr := by
  have sums : qminSum p = qminSum q := by
    funext m
    simp only [qminSum, same]
  simp only [qminFits, sums]

theorem profileSetQmax_does {id : Nat} {c : Cmd} {s : State} (begins : Begins s id 0x41 c) (passed : profileSetPre c s = none)
    (primary : isSecondary s = false) (two : c.byte 32 = 2)
    (fits : qminFits (profile s) s.buf.iq s.buf.eq s.buf.ingReserve s.buf.egrMinPool = true) : Does (.profileSet id) id c s 0 0 fun x =>
      x.mapBuf fun b => { b with profiles := mput b.profiles c.target { profile s c.target with qmax := c.inl 36 4 } } := by
  have same : ∀ n, (if n = c.target then { profile s c.target with qmax := c.inl 36 4 } else profile s n).qmin = (profile s n).qmin := by
    intro n
    split
    · next here => rw [here]
    · rfl
  have fits' : qminFits (fun n => if n = c.target then { profile s c.target with qmax := c.inl 36 4 } else profile s n) s.buf.iq s.buf.eq
      s.buf.ingReserve s.buf.egrMinPool = true := (qminFits_congr same _ _ _ _).trans fits
  refine congrArg Host.Outcome.next (runCmd_of_ok begins passed ?_)
  simp [profileSetBody, Cmd.opt, roleBad, primary, two, sel_two, fits', Ran.ok]

theorem profileSetQmin_refused {id : Nat} {c : Cmd} {s : State} (begins : Begins s id 0x41 c) (passed : profileSetPre c s = none)
    (primary : isSecondary s = false) (one : c.byte 32 = 1)
    (full : qminFits (fun n => if n = c.target then { profile s c.target with qmin := c.inl 34 2 } else profile s n) s.buf.iq s.buf.eq
      s.buf.ingReserve s.buf.egrMinPool = false) : exec (.profileSet id) s = .next (finishFail id .noResource (beginCmd id c s)) := by
  refine congrArg Host.Outcome.next (runCmd_of_fail begins passed ?_)
  simp [profileSetBody, Cmd.opt, roleBad, primary, one, sel_one, full]

theorem wredSet_does {id : Nat} {c : Cmd} {s : State} (begins : Begins s id 0x42 c) (passed : wredSetPre c s = none) (primary : isSecondary s = false)
    (three : c.byte 32 = 3) : Does (.wredSet id) id c s 0 0 fun x => x.mapBuf fun b => { b with
      wred := mput b.wred c.target { w := c.inl 33 1, curves :=
        [(c.byte 34, c.byte 35, c.byte 36), ((mget s.buf.wred c.target Wred.init).curves[1]?).getD (0, 0, 0),
          ((mget s.buf.wred c.target Wred.init).curves[2]?).getD (0, 0, 0)] } } := by
  have s0 : sel 3 0 = true := by decide
  have s1 : sel 3 1 = true := by decide
  have s2 : sel 3 2 = false := by decide
  have s3 : sel 3 3 = false := by decide
  refine congrArg Host.Outcome.next (runCmd_of_ok begins passed ?_)
  simp [wredSetBody, wredCurve, Cmd.opt, roleBad, primary, three, s0, s1, s2, s3, Ran.ok]

theorem classifySetTrust_does {id : Nat} {c : Cmd} {s : State} (begins : Begins s id 0x43 c) (passed : classifySetPre c s = none)
    (primary : isSecondary s = false) (one : c.byte 32 = 1) : Does (.classifySet id .error) id c s 0 0 fun x => x.mapBuf fun b => { b with
      classify := mput b.classify c.target { mget b.classify c.target Classify.init with trust := c.inl 33 1 } } := by
  refine congrArg Host.Outcome.next (runCmd_of_ok begins passed ?_)
  simp [classifySetBody, keepData, Cmd.opt, roleBad, primary, one, sel_one, Ran.ok]
  rfl

theorem withData_of_allowed {c : Cmd} {l : List Byte} {n : Nat} {s : State} {k : List Byte → Ran} (allowed : dmaAllowed s c.indAddr n = true)
    (whole : l.length = n) : withData false c n (.data l) s k = k l := by
  have all : (l ++ zeros n).take n = l := by rw [← whole, List.take_left]
  simp [withData, withHost, allowed, all]

theorem classifySetMap_does {id : Nat} {l : List Byte} {c : Cmd} {s : State} (begins : Begins s id 0x43 c) (passed : classifySetPre c s = none)
    (primary : isSecondary s = false) (four : c.byte 32 = 4) (allowed : dmaAllowed s c.indAddr 64 = true) (whole : l.length = 64)
    (legal : ∀ b, b ∈ l → b.toNat ≤ 31 ∧ b.toNat % 4 ≠ 3) :
    Does (.classifySet id (.data l)) id c s 0 0 fun x => (keepData id (.data l) x).mapBuf fun b => { b with
      classify := mput b.classify c.target { mget b.classify c.target Classify.init with map := l.map (·.toNat) } } := by
  have none : ((l.map (·.toNat)).any fun e => decide (31 < e) || decide (e % 4 = 3)) = false := by
    rw [List.any_eq_false]
    intro e listed
    obtain ⟨b, here, rfl⟩ := List.mem_map.1 listed
    obtain ⟨small, colour⟩ := legal b here
    simp [Nat.not_lt.2 small, colour]
  generalize hu : keepData id (.data l) (beginCmd id c s) = u
  have role : isSecondary u = false := by rw [← hu]; simpa using primary
  have fits : dmaAllowed u (c.begun s).indAddr 64 = true := by rw [← hu]; simpa using allowed
  refine congrArg Host.Outcome.next (runCmd_of_ok begins passed ?_)
  dsimp only
  rw [hu, classifySetBody, withData_of_allowed fits whole]
  dsimp only
  rw [none]
  simp only [Cmd.begun_byte, Cmd.begun_target, Cmd.opt, roleBad, role, four, sel_four]
  rfl

theorem classifySetMap_reserved {id : Nat} {l : List Byte} {c : Cmd} {s : State} (begins : Begins s id 0x43 c) (passed : classifySetPre c s = none)
    (primary : isSecondary s = false) (four : c.byte 32 = 4) (allowed : dmaAllowed s c.indAddr 64 = true) (whole : l.length = 64)
    (reserved : ∃ b, b ∈ l ∧ b.toNat % 4 = 3) :
    exec (.classifySet id (.data l)) s = .next (finishFail id .invalidField (keepData id (.data l) (beginCmd id c s))) := by
  obtain ⟨b, here, colour⟩ := reserved
  have some' : ((l.map (·.toNat)).any fun e => decide (31 < e) || decide (e % 4 = 3)) = true :=
    List.any_eq_true.2 ⟨b.toNat, List.mem_map.2 ⟨b, here, rfl⟩, by simp [colour]⟩
  generalize hu : keepData id (.data l) (beginCmd id c s) = u
  have role : isSecondary u = false := by rw [← hu]; simpa using primary
  have fits : dmaAllowed u (c.begun s).indAddr 64 = true := by rw [← hu]; simpa using allowed
  refine congrArg Host.Outcome.next (runCmd_of_fail begins passed ?_)
  rw [hu, classifySetBody, withData_of_allowed fits whole]
  dsimp only
  rw [some']
  simp only [Cmd.begun_byte, roleBad, role, four, sel_four]
  rfl

theorem iqSet_does {id : Nat} {c : Cmd} {q : Queue} {s : State} (begins : Begins s id 0x44 c) (passed : iqSetPre c s = none)
    (primary : isSecondary s = false) (found : queue? s false c.target = some q)
    (fits : qminFits (profile s) (mput s.buf.iq c.target { q with prof := c.inl 32 2 }) s.buf.eq s.buf.ingReserve s.buf.egrMinPool = true) :
    Does (.iqSet id) id c s 0 0 fun x => x.mapBuf fun b => { b with iq := mput b.iq c.target { q with prof := c.inl 32 2 } } := by
  refine congrArg Host.Outcome.next (runCmd_of_ok begins passed ?_)
  simp [iqSetBody, roleBad, primary, found, fits, Ran.ok]
  rfl

/-! MEMORY_SET. -/

theorem mapIdx_same {α : Type} {f : Nat → α → α} (same : ∀ k a, f k a = a) (l : List α) : l.mapIdx f = l := by
  refine List.ext_getElem? fun i => ?_
  rw [List.getElem?_mapIdx]
  cases l[i]? with
  | none => rfl
  | some a => rw [Option.map_some, same]

section MemorySet
variable {id : Nat} {c : Cmd} {s : State} (begins : Begins s id 0x45 c) (passed : memorySetPre c s = none) (primary : isSecondary s = false)
include begins passed primary

theorem memorySetScrub_does (two : c.inl 32 4 = 2) (settled : s.mem.part = s.mem.partNext) :
    Does (.memorySet id) id c s 0 0 fun x => x.mapMem fun m => { m with scrubOd := c.inl 37 1 } := by
  have budgets : (s.mem.budget.mapIdx fun k b => if 5 + k = 1 then budgetField c k else b) = s.mem.budget :=
    mapIdx_same (fun k b => if_neg (by omega)) _
  refine congrArg Host.Outcome.next (runCmd_of_ok begins passed ?_)
  simp [memorySetBody, Cmd.opt, roleBad, primary, two, sel_two, State.mapMem, budgets, settled, Ran.ok]

theorem memorySetPart_does (one : c.inl 32 4 = 1) (ports : s.ports.tab = []) (tables : (many s.tbl.tables fun _ t => t.hbm) = false)
    (ready : hbmReady s = true) :
    Does (.memorySet id) id c s 0 0 fun x => x.mapMem fun m => { m with partNext := c.inl 36 1, part := c.inl 36 1 } := by
  have budgets : (s.mem.budget.mapIdx fun _ b => b) = s.mem.budget := mapIdx_same (fun _ _ => rfl) _
  refine congrArg Host.Outcome.next (runCmd_of_ok begins passed ?_)
  simp [memorySetBody, Cmd.opt, roleBad, primary, one, Ran.ok, sel_one, ports, tables, ready, State.mapMem, budgets]

theorem memorySet_busy (one : c.inl 32 4 = 1) (ports : s.ports.tab ≠ []) :
    exec (.memorySet id) s = .next (finishFail id .busy (beginCmd id c s)) := by
  refine congrArg Host.Outcome.next (runCmd_of_fail begins passed ?_)
  simp [memorySetBody, roleBad, primary, one, sel_one, ports]

end MemorySet

/-! The status commands. -/

theorem length_bufferLevels (s : State) : (bufferLevels s).length = 64 := by
  simp [bufferLevels, length_leBytes, length_zeros]

theorem bufferStatusLevels_does {id : Nat} {c : Cmd} {s : State} (begins : Begins s id 0x46 c) (target : c.target = 0x100)
    (legal : blockBad c 0x100 64 = false) (allowed : dmaAllowed s c.indAddr 64 = true) :
    Does (.bufferStatus id) id c s 0 0 fun x => hostWrite c.indAddr (bufferLevels s) x := by
  refine congrArg Host.Outcome.next (runCmd_of_ok begins ?_ ?_)
  · simp [firstFail, target, legal]
  · have fits : dmaAllowed (beginCmd id c s) c.indAddr (bufferLevels (beginCmd id c s)).length = true := by
      rw [length_bufferLevels]
      exact allowed
    simp only [Cmd.begun_target, target, if_true]
    rw [withBlock_of_allowed _ fits]
    rfl

theorem bufferStatusCauses_does {id : Nat} {c : Cmd} {s : State} (begins : Begins s id 0x46 c) (target : c.target < 256) (long : 72 ≤ c.indLen)
    (side : c.byte 32 ≤ 1) (zero : c.inlZero 33 30 = true) (keep : c.byte 63 = 0) (allowed : dmaAllowed s c.indAddr 72 = true) :
    Does (.bufferStatus id) id c s 0 0 fun x => hostWrite c.indAddr (ctrBlock (mget s.buf.causes (c.target * 2 + c.byte 32) []) 9) x := by
  have last : byteAt c.entry 63 = 0 := keep
  have off : clearWrapOn c = false := by rw [clearWrapOn, last]; rfl
  refine congrArg Host.Outcome.next (runCmd_of_ok begins ?_ ?_)
  · simp [firstFail, show ¬ c.target = 256 by omega, show ¬ 255 < c.target by omega, Nat.not_lt.2 long, Nat.not_lt.2 side, zero, clearWrapBad, last]
  · have fits : dmaAllowed (beginCmd id c s) c.indAddr (ctrBlock (mget (beginCmd id c s).buf.causes (c.target * 2 + c.byte 32) []) 9).length = true := by
      rw [length_ctrBlock]
      exact allowed
    simp only [Cmd.begun_target, Cmd.begun_byte, clearWrapOn_begun, off, show ¬ c.target = 256 by omega, if_false, Bool.false_eq_true]
    rw [withBlock_of_allowed _ fits]
    rfl

section QueueStatus
variable {id : Nat} {c : Cmd} {s : State} (begins : Begins s id 0x47 c) (target : c.target < 131072) (long : 64 ≤ c.indLen) (zero : c.inlZero 32 32 = true)
include begins target long zero

theorem queueStatus_does {q : Queue} (found : queue? s true c.target = some q) (allowed : dmaAllowed s c.indAddr 64 = true) :
    Does (.queueStatus id) id c s 0 0 fun x =>
      hostWrite c.indAddr (leBytes 4 q.depth ++ leBytes 4 q.hbm ++ leBytes 4 (q.avg.1 / 2 ^ q.avg.2) ++ leBytes 2 q.prof ++ zeros 2 ++
        ctrBlock q.ctr 4 ++ zeros 16) x := by
  have last : byteAt c.entry 63 = 0 := byteAt_of_inlZero zero (by omega) (by omega)
  have off : clearWrapOn c = false := by rw [clearWrapOn, last]; rfl
  have inRange : c.target % 2147483648 = c.target := Nat.mod_eq_of_lt (by omega)
  have egress : c.target < 2147483648 := by omega
  refine congrArg Host.Outcome.next (runCmd_of_ok begins ?_ ?_)
  · simp [firstFail, egress, inRange, show ¬ 131071 < c.target by omega, Nat.not_lt.2 long, inlZero_shorter zero (show 31 ≤ 32 by omega), clearWrapBad, last,
      found]
  · have len : (leBytes 4 q.depth ++ leBytes 4 q.hbm ++ leBytes 4 (q.avg.1 / 2 ^ q.avg.2) ++ leBytes 2 q.prof ++ zeros 2 ++
        ctrBlock q.ctr 4 ++ zeros 16).length = 64 := by simp [length_leBytes, length_zeros, length_ctrBlock]
    have fits : dmaAllowed (beginCmd id c s) c.indAddr (leBytes 4 q.depth ++ leBytes 4 q.hbm ++ leBytes 4 (q.avg.1 / 2 ^ q.avg.2) ++ leBytes 2 q.prof ++
        zeros 2 ++ ctrBlock q.ctr 4 ++ zeros 16).length = true := by
      rw [len]
      exact allowed
    simp only [Cmd.begun_target, clearWrapOn_begun, off, show c.target % 2 ^ 31 = c.target from inRange, show c.target < 2 ^ 31 from egress, decide_true,
      queue?_beginCmd, found, Option.getD_some, Bool.false_eq_true, if_false]
    rw [withBlock_of_allowed _ fits]
    rfl

theorem queueStatus_missing (missing : queue? s true c.target = none) :
    exec (.queueStatus id) s = .next (finishFail id .objectNotFound (beginCmd id c s)) := by
  have last : byteAt c.entry 63 = 0 := byteAt_of_inlZero zero (by omega) (by omega)
  have inRange : c.target % 2147483648 = c.target := Nat.mod_eq_of_lt (by omega)
  have egress : c.target < 2147483648 := by omega
  refine congrArg Host.Outcome.next (runCmd_of_failed_check begins.1 ?_)
  simp [firstFail, egress, inRange, show ¬ 131071 < c.target by omega, Nat.not_lt.2 long, inlZero_shorter zero (show 31 ≤ 32 by omega), clearWrapBad, last,
    missing]

end QueueStatus

/-- Settles O44: each settings command by the answer of its body, the node commands by O45's lemmas. -/
theorem trafficManagerSettings : Obligations.TrafficManagerSettings := by
  unfold Obligations.TrafficManagerSettings
  refine ⟨fun _ _ _ begins passed => bufferSetReserve_does begins passed, fun _ _ _ begins passed => bufferSetHwm_does begins passed,
    fun _ _ _ begins passed => bufferSet_secondary begins passed, fun _ _ _ begins passed => bufferSet_busy begins passed,
    fun _ _ _ => profileSetQmax_does, fun _ _ _ => profileSetQmin_refused, ?_, fun _ _ _ => classifySetTrust_does, fun _ _ _ _ => classifySetMap_does,
    fun _ _ _ _ => classifySetMap_reserved, fun _ _ _ _ => iqSet_does, fun _ _ _ begins passed primary => memorySetScrub_does begins passed primary,
    fun _ _ _ begins passed primary => memorySetPart_does begins passed primary, fun _ _ _ begins passed primary => memorySet_busy begins passed primary,
    fun _ _ _ => bufferStatusLevels_does, fun _ _ _ => bufferStatusCauses_does,
    fun _ _ _ _ begins target long zero => queueStatus_does begins target long zero,
    fun _ _ _ begins target long zero => queueStatus_missing begins target long zero, ?_, ?_, ?_, ?_, ?_⟩
  · intro id c o s begins passed primary three old
    subst old
    exact wredSet_does begins passed primary three
  · intro id c f s begins fields passed primary tier fits
    exact ⟨_, nodeCreate_does begins fields passed primary tier fits, by simp [node?, mfind_mput]⟩
  · intro id c s begins passed primary childless unchosen tier
    exact ⟨_, nodeDelete_does begins passed primary childless unchosen tier, by simp [node?, mfind_mdel]⟩
  · intro id c f s begins fields passed primary stays keeps fits
    exact ⟨_, nodeSet_does begins fields passed primary stays keeps fits, by simp⟩
  · intro id l c s u begins passed primary allowed whole runs
    exact ⟨_, nodeBatchApplied begins passed primary allowed whole runs, by simp⟩
  · intro id c s begins node target plain found
    exact ⟨_, nodeStatus_does begins node target plain found, by simp⟩

end Sys2Proof.Machine
end

section
/-! PROOFS. The clock's commands and the servo. -/
namespace Sys2Proof.Machine

/-! ## The clock's commands and the servo (chapter 17) -/

@[simp] theorem beginCmd_isSecondary (id : Nat) (c : Cmd) (s : State) : isSecondary (beginCmd id c s) = isSecondary s := rfl
@[simp] theorem clockUnits_beginCmd (id : Nat) (c : Cmd) (s : State) : clockUnits (beginCmd id c s) = clockUnits s := rfl
@[simp] theorem setUnits_begun (c : Cmd) (s : State) : setUnits (c.begun s) = setUnits c := rfl
@[simp] theorem synceMissing_begun (id : Nat) (c : Cmd) (s : State) : synceMissing (c.begun s) (beginCmd id c s) = synceMissing c s := rfl
@[simp] theorem rewait_tim (s : State) : (rewait s).tim = s.tim := rfl

/-- The time block switched on, as a time command that is granted leaves it before its effect. -/
def State.timed (s : State) : State := s.mapTim fun t => { t with blockOn := true }

section TimeCmd
variable {clock refused : Bool} {id : Nat} {c : Cmd} {s : State} {k : State → Ran}

theorem timeCmd_granted (runs : clock = true → s.tim.running = true) (primary : refused = true → isSecondary s = false) (wake : c.flag 2 = false) :
    timeCmd clock refused (c.begun s) (beginCmd id c s) k = k (beginCmd id c s).timed := by
  cases clock <;> cases refused <;> simp_all [timeCmd, State.timed]

theorem timeCmd_stopped (stopped : s.tim.running = false) : timeCmd true refused (c.begun s) (beginCmd id c s) k = .fail .notReady (beginCmd id c s) := by
  simp [timeCmd, stopped]

theorem timeCmd_secondary (secondary : isSecondary s = true) :
    timeCmd false true (c.begun s) (beginCmd id c s) k = .fail .permission (beginCmd id c s) := by
  simp [timeCmd, secondary]

theorem timeCmd_blockOff (noWake : c.flag 2 = true) (off : s.tim.blockOn = false) :
    timeCmd false false (c.begun s) (beginCmd id c s) k = .fail .blockOff (beginCmd id c s) := by
  simp [timeCmd, noWake, off]

end TimeCmd

/-! ### TIME_SET -/

/-- A set time whose nanoseconds and fraction are in range comes back in the three fields. -/
theorem setClock_fields (t : Tim) {sec ns frac : Nat} (n : ns ≤ 999999999) (f : frac < 2 ^ 32) :
    setClock (((sec : Int) * 1000000000 + ns) * 2 ^ 32 + frac) t = { t with sec := BitVec.ofNat 64 sec, ns := ns, frac := frac } := by
  have high : (((sec : Int) * 1000000000 + ns) * 2 ^ 32 + frac) / (1000000000 * 2 ^ 32) = sec := by omega
  have middle : (((sec : Int) * 1000000000 + ns) * 2 ^ 32 + frac) / 2 ^ 32 % 1000000000 = ns := by omega
  have low : (((sec : Int) * 1000000000 + ns) * 2 ^ 32 + frac) % 2 ^ 32 = frac := by omega
  simp only [setClock, high, middle, low, Int.toNat_natCast, BitVec.ofInt_natCast]

/-- A little-endian number of `n` bytes is below 256 to the `n`. -/
theorem leNat_lt : ∀ l : List Byte, leNat l < 256 ^ l.length
  | [] => by simp [leNat]
  | b :: r => by
    have rest := leNat_lt r
    have byte := b.isLt
    simp only [leNat, List.length_cons, pow_succ]
    omega

theorem Cmd.inl_lt (c : Cmd) (off len : Nat) : c.inl off len < 256 ^ len := by
  have short : (slice c.entry off len).length ≤ len := by simp [slice]
  exact Nat.lt_of_lt_of_le (leNat_lt _) (Nat.pow_le_pow_right (by decide) short)

theorem timeSet_past {id : Nat} {c : Cmd} {s : State} (begins : Begins s id 0x80 c) (back : c.byte 32 = 2)
    (running : s.tim.running = true) (past : clockUnits s < setUnits c) :
    exec (.timeSet id) s = .next (finishFail id .invalidField (beginCmd id c s)) := by
  refine congrArg Host.Outcome.next (runCmd_of_failed_check begins.1 ?_)
  simp [back, running, past]

section TimeSet
variable {id : Nat} {c : Cmd} {s : State} (begins : Begins s id 0x80 c) (plain : plainBad c 0 16 = false) (zero : c.byte 33 = 0)
include begins plain zero

theorem timeSet_sets (set : c.byte 32 = 0) (ns : c.inl 40 4 ≤ 999999999) (primary : isSecondary s = false) (wake : c.flag 2 = false) :
    Runs (.timeSet id) s fun t => t.tim.sec = BitVec.ofNat 64 (c.inl 34 6) ∧ t.tim.ns = c.inl 40 4 ∧ t.tim.frac = c.inl 44 4 ∧ t.tim.running = true ∧
      t.tim.f = s.tim.f ∧ t.tim.servo = s.tim.servo := by
  have clock := setClock_fields { s.tim with blockOn := true } (sec := c.inl 34 6) ns (c.inl_lt 44 4)
  refine ⟨finish id .success 0 0 true (rewait ((beginCmd id c s).timed.mapTim fun t => { setClock (setUnits c) t with running := true, rem := ⟨0, 0⟩ })),
    congrArg Host.Outcome.next (runCmd_of_ok begins ?_ ?_), ?_⟩
  · simp [firstFail, plain, set, zero, Nat.not_lt.2 ns]
  · rw [timeCmd_granted (by simp [set]) (fun _ => primary) wake]
    simp [set, Ran.ok]
  · simp only [finish_tim, rewait_tim, State.mapTim, State.timed, beginCmd_tim, setUnits, clock, and_self]

theorem timeSet_stopped (step : c.byte 32 = 1) (ns : c.inl 40 4 ≤ 999999999) (stopped : s.tim.running = false) :
    exec (.timeSet id) s = .next (finishFail id .notReady (beginCmd id c s)) := by
  refine congrArg Host.Outcome.next (runCmd_of_fail begins ?_ ?_)
  · simp [firstFail, plain, step, zero, Nat.not_lt.2 ns]
  · have needs : decide ((c.begun s).byte 32 ≠ 0) = true := by simp [step]
    rw [needs]
    exact timeCmd_stopped stopped

theorem timeSet_secondary (set : c.byte 32 = 0) (ns : c.inl 40 4 ≤ 999999999) (secondary : isSecondary s = true) :
    exec (.timeSet id) s = .next (finishFail id .permission (beginCmd id c s)) := by
  refine congrArg Host.Outcome.next (runCmd_of_fail begins ?_ ?_)
  · simp [firstFail, plain, set, zero, Nat.not_lt.2 ns]
  · have needs : decide ((c.begun s).byte 32 ≠ 0) = false := by simp [set]
    rw [needs]
    exact timeCmd_secondary secondary

end TimeSet

/-! ### The servo -/

/-- A clamped number lies in its range. -/
theorem Dyad.clamp_range (a : Dyad) (n : Nat) : (a.clamp n).num ≤ n * 2 ^ (a.clamp n).exp ∧ -(n * 2 ^ (a.clamp n).exp : Int) ≤ (a.clamp n).num := by
  unfold Dyad.clamp
  have positive : (0 : Int) ≤ n * 2 ^ a.exp := by positivity
  split
  · simp only [Dyad.ofInt, pow_zero]
    omega
  · split
    · simp only [Dyad.ofInt, pow_zero]
      omega
    · omega

theorem servoFeed_by_state (o : Int) (t : Tim) : (t.servo = .off → servoFeed o t = t) ∧
    (t.servo = .tracking → (servoFeed o t).servo = .tracking ∧ (servoFeed o t).f.num ≤ 500000 * 2 ^ (servoFeed o t).f.exp ∧
      -(500000 * 2 ^ (servoFeed o t).f.exp) ≤ (servoFeed o t).f.num) ∧
    (t.servo = .freeRun → t.enable = true → (servoFeed o t).servo = .tracking) ∧ (t.servo = .freeRun → t.enable = false → servoFeed o t = t) := by
  refine ⟨fun off => by simp [servoFeed, off], fun tracking => ?_, fun free on => by simp [servoFeed, free, on], fun free off => by simp [servoFeed, free, off]⟩
  have feed : servoFeed o t = servoStep o t := by simp [servoFeed, tracking]
  rw [feed]
  exact ⟨tracking, Dyad.clamp_range _ 500000⟩

theorem servoFeed_does {id : Nat} {c : Cmd} {s : State} (begins : Begins s id 0x81 c) (plain : plainBad c 0 8 = false)
    (offset : (signed 64 (c.inl 32 8)).natAbs < 1000000000 * 2 ^ 16) (running : s.tim.running = true) (primary : isSecondary s = false)
    (wake : c.flag 2 = false) : Does (.servoFeed id) id c s 0 0 fun x =>
      x.mapTim fun t => Sys2Proof.Machine.servoFeed (signed 64 (c.inl 32 8)) { t with blockOn := true } := by
  refine congrArg Host.Outcome.next (runCmd_of_ok begins ?_ ?_)
  · have small : ¬ 1000000000 * 2 ^ 16 ≤ (signed 64 (c.inl 32 8)).natAbs := Nat.not_le.2 offset
    simp only [Cmd.begun_inl, plainBad_begun', plain, small, decide_false, Bool.or_self, firstFail]
  · exact timeCmd_granted (fun _ => running) (fun _ => primary) wake

section ServoSet
variable {id : Nat} {c : Cmd} {s : State} (begins : Begins s id 0x82 c) (plain : plainBad c 0 12 = false) (zero : c.inlZero 33 3 = true)
  (primary : isSecondary s = false) (wake : c.flag 2 = false)
include begins plain zero primary wake

/-- SERVO_SET by the state that the servo has: it completes with the gains, and the state that ENABLE gives it. -/
theorem servoSet_runs {on : Bool} (enable : c.byte 32 = b2n on) : Runs (.servoSet id) s fun t =>
    t.tim.kp = c.inl 36 4 ∧ t.tim.ki = c.inl 40 4 ∧ t.tim.enable = on ∧ t.tim.sec = s.tim.sec ∧
      t.tim.servo = (match s.tim.servo, on with
        | .tracking, true => .tracking
        | .off, false => .off
        | .freeRun, false => .off
        | _, _ => .freeRun) ∧
      (s.tim.servo = .off ∧ on = true ∨ s.tim.servo = .tracking ∧ on = false → t.tim.f = s.tim.favg) := by
  have bit : bitOf (c.byte 32) 0 = on := by rw [enable]; cases on <;> rfl
  have least : ¬ 1 < c.byte 32 := by rw [enable]; cases on <;> simp [b2n]
  refine ⟨_, congrArg Host.Outcome.next (runCmd_of_passed_checks begins ?_ (timeCmd_granted (by simp) (fun _ => primary) wake) rfl), ?_⟩
  · simp [firstFail, plain, least, zero]
  · simp only [Cmd.begun_byte, bit]
    cases old : s.tim.servo <;> cases on <;> simp [old, State.timed, Ran.ok, servoFree]

theorem servoSet_enables (enable : c.byte 32 = 1) : Runs (.servoSet id) s fun t =>
    t.tim.kp = c.inl 36 4 ∧ t.tim.ki = c.inl 40 4 ∧ t.tim.enable = true ∧
      t.tim.servo = (if s.tim.servo = .tracking then .tracking else .freeRun) ∧ (s.tim.servo = .off → t.tim.f = s.tim.favg) ∧
        t.tim.sec = s.tim.sec := by
  obtain ⟨t, runs, kp, ki, on, sec, servo, f⟩ := servoSet_runs begins plain zero primary wake (on := true) enable
  refine ⟨t, runs, kp, ki, on, ?_, fun off => f (.inl ⟨off, rfl⟩), sec⟩
  rw [servo]
  cases s.tim.servo <;> rfl

theorem servoSet_disables (enable : c.byte 32 = 0) : Runs (.servoSet id) s fun t =>
    t.tim.enable = false ∧ t.tim.servo = (if s.tim.servo = .tracking then .freeRun else .off) ∧ (s.tim.servo = .tracking → t.tim.f = s.tim.favg) := by
  obtain ⟨t, runs, _, _, off, _, servo, f⟩ := servoSet_runs begins plain zero primary wake (on := false) enable
  refine ⟨t, runs, off, ?_, fun tracking => f (.inr ⟨tracking, rfl⟩)⟩
  rw [servo]
  cases s.tim.servo <;> rfl

end ServoSet

/-! ### The gets, the pins, the corrections and the captures -/

theorem timeGet_does {id : Nat} {c : Cmd} {s : State} (begins : Begins s id 0x83 c) (plain : plainBad c 0 0 = false) (wake : c.flag 2 = false) :
    Does (.timeGet id) id c s (BitVec.ofNat 64 (s.tim.sec.toNat % 2 ^ 48)) (BitVec.ofNat 64 (s.tim.ns * 2 ^ 32 + s.tim.frac)) State.timed := by
  refine congrArg Host.Outcome.next (runCmd_of_ok begins ?_ ?_)
  · simp [firstFail, plain]
  · exact timeCmd_granted (by simp) (by simp) wake

theorem timeGet_blockOff {id : Nat} {c : Cmd} {s : State} (begins : Begins s id 0x83 c) (plain : plainBad c 0 0 = false) (noWake : c.flag 2 = true)
    (off : s.tim.blockOn = false) : exec (.timeGet id) s = .next (finishFail id .blockOff (beginCmd id c s)) := by
  refine congrArg Host.Outcome.next (runCmd_of_fail begins ?_ (timeCmd_blockOff noWake off))
  simp [firstFail, plain]

theorem timeStatus_does {id : Nat} {c : Cmd} {s : State} (begins : Begins s id 0x87 c) (plain : plainBad c 0 0 = false) (wake : c.flag 2 = false) :
    Does (.timeStatus id) id c s (BitVec.ofNat 64 (s.tim.servo.code + 4 * b2n s.tim.ppsHere + 8 * b2n s.tim.running)) (freqWord s.tim)
      State.timed := by
  refine congrArg Host.Outcome.next (runCmd_of_ok begins ?_ ?_)
  · simp [firstFail, plain]
  · exact timeCmd_granted (by simp) (by simp) wake

/-- The squelch mask of TIME_PINS lets an output stay on only where its keep bit is set. -/
theorem keepMask_bit (keep0 keep1 : Bool) : (BitVec.ofNat 2 (b2n keep0 + 2 * b2n keep1)).getLsbD 0 = keep0 ∧
    (BitVec.ofNat 2 (b2n keep0 + 2 * b2n keep1)).getLsbD 1 = keep1 := by
  cases keep0 <;> cases keep1 <;> decide

theorem timePins_runs {id : Nat} {c : Cmd} {s : State} (begins : Begins s id 0x84 c) (plain : plainBad c 0 8 = false) (mask : c.byte 32 ≤ 31)
    (zero : c.byte 35 = 0) (low : 1 ≤ c.inl 36 4) (high : c.inl 36 4 ≤ 500000) (sources : synceMissing c s = false) (wake : c.flag 2 = false) :
    Runs (.timePins id) s fun t =>
      t.tim.pins = BitVec.ofNat 5 (c.byte 32) ∧ t.tim.src0 = c.byte 33 ∧ t.tim.src1 = c.byte 34 ∧ t.tim.width = c.inl 36 4 ∧
      (s.tim.src0 ≠ c.byte 33 → t.tim.synceOn.getLsbD 0 = false) ∧ (s.tim.src1 ≠ c.byte 34 → t.tim.synceOn.getLsbD 1 = false) ∧
        t.tim.sec = s.tim.sec := by
  refine ⟨_, congrArg Host.Outcome.next (runCmd_of_passed_checks begins ?_ (timeCmd_granted (by simp) (by simp) wake) rfl), ?_⟩
  · simp [firstFail, plain, Nat.not_lt.2 mask, zero, show c.inl 36 4 ≠ 0 by omega, Nat.not_lt.2 high, sources]
  · simp only [finish_tim, Ran.ok, State.mapTim, Cmd.begun_byte, Cmd.begun_inl, BitVec.getLsbD_and, keepMask_bit, State.timed, beginCmd_tim, true_and, and_true]
    refine ⟨fun moved => ?_, fun moved => ?_⟩ <;> simp [moved]

theorem portTsSet_runs {id : Nat} {c : Cmd} {q : Port} {s : State} (begins : Begins s id 0x85 c) (passed : portTsSetPre c s = none)
    (found : port? s c.target = some q) (running : s.tim.running = true) (primary : isSecondary s = false) (wake : c.flag 2 = false) :
    Runs (.portTsSet id) s fun t =>
      port? t c.target = some { q with rxAsym := signed 32 (c.inl 32 4), txAsym := signed 32 (c.inl 36 4) } ∧ PortsBut c.target s t := by
  refine ⟨finish id .success 0 0 true (modPort c.target (fun q => { q with rxAsym := signed 32 (c.inl 32 4), txAsym := signed 32 (c.inl 36 4) })
    (beginCmd id c s).timed), congrArg Host.Outcome.next (runCmd_of_ok begins passed ?_), ?_⟩
  · exact timeCmd_granted (fun _ => running) (fun _ => primary) wake
  · exact ⟨by
      rw [port?_congr (finish_ports ..), port?_modPort_same, show port? (beginCmd id c s).timed c.target = some q from found, Option.map_some], fun k other => by
      rw [finish_ports]
      exact portsBut_modPort c.target _ (beginCmd id c s).timed k other⟩

theorem tsCaptureRead_does {id : Nat} {c : Cmd} {s : State} (begins : Begins s id 0x86 c) (shape : shapeBad c 0 4 = false) (low : 1 ≤ c.inl 32 4)
    (high : c.inl 32 4 ≤ 4096) (long : 32 * c.inl 32 4 ≤ c.indLen) (allowed : dmaAllowed s c.indAddr (32 * c.inl 32 4) = true)
    (wake : c.flag 2 = false) (some : s.tim.caps ≠ []) :
    Does (.tsCaptureRead id) id c s (BitVec.ofNat 64 (min (c.inl 32 4) s.tim.caps.length)) (BitVec.ofNat 64 (sat 64 s.tim.capsLost)) fun x =>
      hostWrite c.indAddr (s.tim.caps.take (c.inl 32 4)).flatten
        (x.mapTim fun t => { t with blockOn := true, caps := s.tim.caps.drop (c.inl 32 4), capsLost := 0 }) := by
  have reads : (s.tim.caps.take (c.inl 32 4)).isEmpty = false := by
    simp only [List.isEmpty_eq_false_iff, ne_eq, List.take_eq_nil_iff, not_or]
    exact ⟨by omega, some⟩
  refine congrArg Host.Outcome.next (runCmd_of_ok begins ?_ ?_)
  · simp [firstFail, shape, Nat.not_lt.2 high, Nat.not_lt.2 long, show c.inl 32 4 ≠ 0 by omega]
  · simp only [Cmd.begun_inl, Cmd.begun_indAddr, dmaAllowed_beginCmd, allowed, Bool.not_true, Bool.false_eq_true, if_false]
    rw [timeCmd_granted (by simp) (by simp) wake]
    simp [State.timed, reads, Ran.ok, writeBlock]
    rfl

/-- Settles O50: each command's checks, its grant, and its effect on the clock. -/
theorem timeCommands : Obligations.TimeCommands := by
  unfold Obligations.TimeCommands
  exact ⟨fun _ _ _ begins plain set zero ns => timeSet_sets begins plain zero set ns, fun _ _ _ begins _ back _ => timeSet_past begins back,
    fun _ _ _ begins plain step zero => timeSet_stopped begins plain zero step, fun _ _ _ begins plain set zero => timeSet_secondary begins plain zero set,
    fun _ _ _ => servoFeed_does, servoFeed_by_state,
    fun _ _ _ begins plain on zero primary wake => servoSet_enables begins plain zero primary wake on,
    fun _ _ _ begins plain off zero primary wake => servoSet_disables begins plain zero primary wake off,
    fun _ _ _ => timeGet_does, fun _ _ _ => timeGet_blockOff, fun _ _ _ => timeStatus_does, fun _ _ _ => timePins_runs, fun _ _ _ _ => portTsSet_runs,
    fun _ _ _ => tsCaptureRead_does⟩

end Sys2Proof.Machine
end

section
/-! PROOFS. PPS, the auxiliary DACs and the auxiliary ADC. -/
namespace Sys2Proof.Machine

/-! ## PPS, the servo's timeout and synchronous Ethernet (R448, R456 to R458) -/

theorem adcSource_tim (source : Nat) (s : State) : (adcSource source s).tim = s.tim := by
  unfold adcSource adcTrigger
  split
  · split
    · rfl
    · split <;> rfl
  · rfl

/-- Raising one of two outputs raises it and leaves the other. -/
theorem raise_bit (x : BitVec 2) : (x ||| (1 : BitVec 2) <<< 0).getLsbD 0 = true ∧ (x ||| (1 : BitVec 2) <<< 0).getLsbD 1 = x.getLsbD 1 := by
  decide +revert

/-- Lowering one of two outputs lowers it and leaves the other. -/
theorem lower_bit (x : BitVec 2) (p : Nat) (two : p < 2) : (x &&& ~~~ ((1 : BitVec 2) <<< p)).getLsbD p = false ∧
    ∀ q, q < 2 → q ≠ p → (x &&& ~~~ ((1 : BitVec 2) <<< p)).getLsbD q = x.getLsbD q := by
  decide +revert

theorem ppsOutPulseEnd_lowers (p : Nat) (s : State) (two : p < 2) : Runs (.ppsOutPulseEnd p) s fun t =>
    t.tim.ppsOut.getLsbD p = false ∧ (∀ q, q < 2 → q ≠ p → t.tim.ppsOut.getLsbD q = s.tim.ppsOut.getLsbD q) ∧ t.tim.sec = s.tim.sec ∧
      t.tim.pins = s.tim.pins := by
  obtain ⟨lowered, kept⟩ := lower_bit s.tim.ppsOut p two
  exact ⟨_, rfl, lowered, kept, rfl, rfl⟩

/-- An edge that is not accepted is nothing. -/
theorem ppsInEdge_ignored {s : State}
    (deaf : s.tim.pins.getLsbD 0 = false ∨ railUp s 11 = false ∨ (s.tim.ppsAt.any fun a => decide (s.now < a + 100000000)) = true) :
    exec .ppsInEdge s = .next s := by
  have ignored : (!s.tim.pins.getLsbD 0) = true ∨ (!railUp s 11) = true ∨ (s.tim.ppsAt.any fun a => decide (s.now < a + 100000000)) = true := by
    simpa using deaf
  simp only [exec, execPpsInEdge, ignored, if_true]

/-- What `capture` adds while there is room. -/
theorem capture_of_room {s : State} (room : s.tim.caps.length < 4096) (port : Nat) (info : List Byte) (at' : Stamp) :
    capture port info at' s = s.mapTim fun x => { x with caps := x.caps ++ [leBytes 2 port ++ zeros 2 ++ info ++ leBytes 6 at'.sec ++ zeros 2 ++
      leBytes 4 at'.ns ++ leBytes 4 at'.frac ++ zeros 8] } := by
  simp [capture, room]

theorem capture_now (port : Nat) (info : List Byte) (at' : Stamp) (s : State) : (capture port info at' s).now = s.now := by
  unfold capture
  split <;> rfl

/-- What an accepted edge leaves, over the state whose capture record is stored. -/
theorem ppsInEdge_accepted {s : State} (enabled : s.tim.pins.getLsbD 0 = true) (powered : railUp s 11 = true)
    (apart : (s.tim.ppsAt.any fun a => decide (s.now < a + 100000000)) = false) : Runs .ppsInEdge s fun t =>
      ∃ u : State, u = (if s.tim.running then
          capture 0x0100 (zeros 4) { sec := s.tim.sec.toNat % 2 ^ 48, ns := s.tim.ns, frac := s.tim.frac } s else s) ∧
        t.tim = { u.tim with ppsAt := some s.now, ppsClock := if u.tim.running then some (clockTotal u) else none,
                             ppsHere := u.tim.ppsHere || (ppsApart s).any fun d => decide (900000000 ≤ d) && decide (d ≤ 1100000000) } := by
  refine ⟨_, rfl, _, rfl, ?_⟩
  simp only [enabled, powered, apart, Bool.not_true, Bool.false_eq_true, or_self, if_false, adcSource_tim]
  split <;> simp [capture_now]

theorem ppsInEdge_captures {s : State} (enabled : s.tim.pins.getLsbD 0 = true) (powered : railUp s 11 = true) (first : s.tim.ppsAt = none)
    (running : s.tim.running = true) (room : s.tim.caps.length < 4096) : Runs .ppsInEdge s fun t =>
      t.tim.caps.length = s.tim.caps.length + 1 ∧ (t.tim.caps.getLast?).map (fun r => r.take 2) = some [0, 1] ∧ t.tim.ppsAt = some s.now ∧
        t.tim.ppsHere = s.tim.ppsHere ∧ t.tim.sec = s.tim.sec ∧ t.tim.ns = s.tim.ns := by
  obtain ⟨t, runs, u, stored, tim⟩ := ppsInEdge_accepted enabled powered (by simp [first])
  refine ⟨t, runs, ?_⟩
  subst stored
  rw [tim, if_pos running, capture_of_room room]
  have header : leBytes 2 0x0100 = [0, 1] := by decide
  simp [State.mapTim, ppsApart, first, header]

theorem ppsInEdge_present {d : Nat} {s : State} (enabled : s.tim.pins.getLsbD 0 = true) (powered : railUp s 11 = true)
    (second : ppsApart s = some d) (low : 900000000 ≤ d) (high : d ≤ 1100000000)
    (apart : (s.tim.ppsAt.any fun a => decide (s.now < a + 100000000)) = false) :
    Runs .ppsInEdge s fun t => t.tim.ppsHere = true ∧ t.tim.ppsAt = some s.now := by
  obtain ⟨t, runs, u, _, tim⟩ := ppsInEdge_accepted enabled powered apart
  refine ⟨t, runs, ?_⟩
  dsimp only
  rw [tim]
  simp [second, low, high]

theorem synceUnsquelch_runs {s : State} (enabled : s.tim.pins.getLsbD 3 = true) (acquired : (lane s s.tim.src0).state = .acquired)
    (owned : (lane s s.tim.src0).port.isSome = true) : Runs (.synceUnsquelch 0) s fun t =>
      t.tim.synceOn.getLsbD 0 = true ∧ t.tim.synceOn.getLsbD 1 = s.tim.synceOn.getLsbD 1 ∧ t.lanes = s.lanes := by
  obtain ⟨raised, other⟩ := raise_bit s.tim.synceOn
  have runs : exec (.synceUnsquelch 0) s = .next (s.mapTim fun t => { t with synceOn := t.synceOn ||| ((1 : BitVec 2) <<< 0) }) := by
    simp only [exec, execSynceUnsquelch, if_true, Nat.add_zero, enabled, acquired, owned, and_self, show (0 : Nat) < 2 by decide]
  exact ⟨_, runs, raised, other, rfl⟩

theorem ppsInLost_runs {s : State} (here : s.tim.ppsHere = true) : Runs .ppsInLost s fun t => t.tim = { s.tim with ppsHere := false } := by
  have runs : exec .ppsInLost s = .next (post 0x8002 1 0 0 (s.mapTim fun t => { t with ppsHere := false })) := by
    simp only [exec, execPpsInLost, here, if_true]
  exact ⟨_, runs, post_tim ..⟩

theorem servoFeedTimeout_runs {s : State} (tracking : s.tim.servo = .tracking) :
    Runs .servoFeedTimeout s fun t => t.tim = { s.tim with servo := .freeRun, f := s.tim.favg } := by
  have runs : exec .servoFeedTimeout s = .next (servoFree s) := by simp only [exec, execServoFeedTimeout, tracking, if_true]
  exact ⟨_, runs, post_tim ..⟩

theorem synceUnsquelch_disabled (o : Nat) (s : State) (disabled : s.tim.pins.getLsbD (3 + o) = false) : exec (.synceUnsquelch o) s = .next s := by
  simp only [exec, execSynceUnsquelch, disabled, Bool.false_eq_true, false_and, and_false, if_false]

/-- Settles O51: each row over the state that it leaves. -/
theorem timeRows : Obligations.TimeRows := by
  unfold Obligations.TimeRows
  refine ⟨?_, ?_, ppsOutPulseEnd_lowers, fun s deaf => ppsInEdge_ignored (deaf.imp_right .inl), ?_, fun s => ppsInEdge_captures,
    fun d s => ppsInEdge_present, fun s => ppsInLost_runs, ?_, fun s => servoFeedTimeout_runs, ?_, fun s => synceUnsquelch_runs,
    fun o s _ => synceUnsquelch_disabled o s⟩
  · intro s running
    simp only [exec, execPpsOutEdge, running, if_true]
  · intro s stopped
    simp only [exec, execPpsOutEdge, stopped, Bool.false_eq_true, if_false]
  · intro a s last near
    refine ppsInEdge_ignored (.inr (.inr ?_))
    rw [last, Option.any_some]
    exact decide_eq_true near
  · intro s gone
    simp only [exec, execPpsInLost, gone, Bool.false_eq_true, if_false]
  · intro s other
    simp only [exec, execServoFeedTimeout, other, if_false]

/-! ## The auxiliary DACs (R442, R505 to R507) -/

theorem dacOut_congr {s t : State} (same : t.dac = s.dac) (m : Nat) : dacOut t m = dacOut s m := by rw [dacOut, same, dacOut]
@[simp] theorem dacOut_finish (id : Nat) (st : Status) (a b : BitVec 64) (e : Bool) (s : State) (m : Nat) :
    dacOut (finish id st a b e s) m = dacOut s m := dacOut_congr (finish_dac ..) m
@[simp] theorem dacOut_beginCmd (id : Nat) (c : Cmd) (s : State) (m : Nat) : dacOut (beginCmd id c s) m = dacOut s m := rfl
@[simp] theorem auxUp_beginCmd (id : Nat) (c : Cmd) (s : State) : auxUp (beginCmd id c s) = auxUp s := rfl

@[simp] theorem dacOut_modDac_same (m : Nat) (f : Dac → Dac) (s : State) : dacOut (modDac m f s) m = f (dacOut s m) := by
  simp [dacOut, modDac, State.mapDac, mmod, mget, mfind_mput]

theorem dacOut_modDac_other {m k : Nat} (f : Dac → Dac) (s : State) (other : k ≠ m) : dacOut (modDac m f s) k = dacOut s k := by
  simp [dacOut, modDac, State.mapDac, mmod, mget, mfind_mput, other]

/-- A change of every output of a list, each once. -/
theorem dacOut_forEach_modDac (f : Dac → Dac) : ∀ (l : List Nat) (s : State), l.Nodup →
    ∀ m, dacOut (forEach l (fun m => modDac m f) s) m = if m ∈ l then f (dacOut s m) else dacOut s m
  | [], _, _, m => by simp [forEach]
  | k :: l, s, once, m => by
    obtain ⟨fresh, rest⟩ := List.nodup_cons.1 once
    have tail := dacOut_forEach_modDac f l (modDac k f s) rest m
    have head : forEach (k :: l) (fun m => modDac m f) s = forEach l (fun m => modDac m f) (modDac k f s) := rfl
    rw [head, tail]
    by_cases same : m = k
    · subst same
      simp [fresh]
    · simp [same, dacOut_modDac_other f s same]

theorem mem_maskBits {n mask m : Nat} : m ∈ maskBits n mask ↔ m < n ∧ bitOf mask m = true := by simp [maskBits]

theorem nodup_maskBits (n mask : Nat) : (maskBits n mask).Nodup := List.Nodup.filter _ List.nodup_range

section AuxdacSet
variable {id : Nat} {c : Cmd} {s : State} (begins : Begins s id 0xD8 c) (idle : dacChanging s = false) (plain : plainBad c 0 5 = false)
  (code : c.inl 34 2 ≤ 4095) (mode : c.byte 36 ≤ 2) (powered : auxUp s = true)
include begins idle plain code mode powered

theorem auxdacSet_takes (sound : ((maskBits 16 (c.inl 32 2)).any fun m => (dacOut s m).fault) = false) : Runs (.auxdacSet id) s fun t =>
    ∀ m, dacOut t m = (if m < 16 ∧ bitOf (c.inl 32 2) m = true then (dacOut s m).take (c.inl 34 2) (c.byte 36) else dacOut s m) := by
  refine ⟨finish id .success 0 0 true (forEach (maskBits 16 (c.inl 32 2)) (fun m => modDac m (·.take (c.inl 34 2) (c.byte 36))) (beginCmd id c s)),
    congrArg Host.Outcome.next ((if_neg (by simp [idle])).trans (runCmd_of_ok begins ?_ ?_)), ?_⟩
  · simp [firstFail, plain, Nat.not_lt.2 code, Nat.not_lt.2 mode]
  · simp only [Cmd.begun_inl, Cmd.begun_byte, dacOut_beginCmd, auxUp_beginCmd, powered, sound, Bool.not_true, Bool.false_eq_true, if_false]
    rfl
  · intro m
    rw [dacOut_finish, dacOut_forEach_modDac _ _ _ (nodup_maskBits ..), dacOut_beginCmd]
    simp only [mem_maskBits]

theorem auxdacSet_faulted (faulted : ((maskBits 16 (c.inl 32 2)).any fun m => (dacOut s m).fault) = true) :
    exec (.auxdacSet id) s = .next (finishFail id .hwError (beginCmd id c s)) := by
  refine congrArg Host.Outcome.next ((if_neg (by simp [idle])).trans (runCmd_of_fail begins ?_ ?_))
  · simp [firstFail, plain, Nat.not_lt.2 code, Nat.not_lt.2 mode]
  · simp only [Cmd.begun_inl, dacOut_beginCmd, auxUp_beginCmd, powered, faulted, Bool.not_true, Bool.false_eq_true, if_false, if_true]

end AuxdacSet

theorem auxdacModeChangeEnd_ends (s : State) : Runs .auxdacModeChangeEnd s fun t => dacChanging t = false ∧
    ∀ m, (dacOut t m).code = (dacOut s m).code ∧ (dacOut t m).mode = (dacOut s m).mode := by
  refine ⟨_, rfl, ?_, fun m => ?_⟩
  · simp [dacChanging, many, mmap, State.mapDac]
  · simp only [dacOut, State.mapDac, mget, mfind_mmap]
    cases mfind s.dac.outs m <;> exact ⟨rfl, rfl⟩

section AuxOverTemp
variable {m : Nat} {s : State} (output : m < 16) (powered : auxUp s = true) (valid : s.bed.auxValid = true)
include output powered valid

theorem auxOverTemp_faults (sound : (dacOut s m).fault = false) : Runs (.auxOverTemp m) s fun t =>
    (dacOut t m).code = BitVec.ofNat 12 (dacOtp s m).1 ∧ (dacOut t m).mode = (dacOtp s m).2 ∧ (dacOut t m).overTemp = true ∧
      (dacOut t m).fault = true ∧ t.mgmt.alert = s.mgmt.alert ||| 8 ∧ (∀ k, k ≠ m → dacOut t k = dacOut s k) := by
  have runs : exec (.auxOverTemp m) s = .next ((post 0xD005 1 m 0
      (modDac m (fun d => { d.take (dacOtp s m).1 (dacOtp s m).2 with overTemp := true, fault := true }) s)).mapMgmt
        fun g => { g with alert := g.alert ||| 8 }) := by
    simp [exec, execAuxOverTemp, Nat.not_le.2 output, powered, valid, sound]
  have out : ∀ k, dacOut ((post 0xD005 1 m 0
      (modDac m (fun d => { d.take (dacOtp s m).1 (dacOtp s m).2 with overTemp := true, fault := true }) s)).mapMgmt
        fun g => { g with alert := g.alert ||| 8 }) k =
      dacOut (modDac m (fun d => { d.take (dacOtp s m).1 (dacOtp s m).2 with overTemp := true, fault := true }) s) k := fun k =>
    dacOut_congr (post_dac ..) k
  refine ⟨_, runs, ?_⟩
  dsimp only
  simp only [out, dacOut_modDac_same]
  exact ⟨rfl, rfl, trivial, trivial, by simp [State.mapMgmt], fun k other => dacOut_modDac_other _ s other⟩

theorem auxOverTemp_again (faulted : (dacOut s m).fault = true) :
    exec (.auxOverTemp m) s = .next (modDac m (fun d => { d with overTemp := true }) s) := by
  simp [exec, execAuxOverTemp, Nat.not_le.2 output, powered, valid, faulted]

end AuxOverTemp

theorem auxdacFaultEnd_ends (m : Nat) (s : State) : Runs (.auxdacFaultEnd m) s fun t =>
    (dacOut t m).fault = false ∧ (dacOut t m).code = (dacOut s m).code ∧ (∀ k, k ≠ m → dacOut t k = dacOut s k) := by
  refine ⟨_, rfl, ?_⟩
  dsimp only
  by_cases faulted : (dacOut s m).fault = true
  · rw [if_pos faulted, dacOut_modDac_same]
    exact ⟨rfl, rfl, fun k other => dacOut_modDac_other _ s other⟩
  · rw [if_neg faulted]
    exact ⟨by simpa using faulted, rfl, fun _ _ => rfl⟩

/-! ## The auxiliary ADC (R442, R509, R510) -/

theorem auxadcSeq_does {id : Nat} {c : Cmd} {s : State} (begins : Begins s id 0xD9 c) (plain : plainBad c 0 8 = false) (some : c.inl 32 2 ≠ 0)
    (timer : c.byte 34 = 1) (zero : c.byte 35 = 0) (low : 10 ≤ c.inl 36 4) (high : c.inl 36 4 ≤ 1000000) (powered : auxUp s = true)
    (wake : c.flag 2 = false) : Does (.auxadcSeq id) id c s 0 0 fun x =>
      x.mapAdc fun a => { a with mask := c.inl 32 2, source := 1, period := c.inl 36 4, periodFrom := s.now } := by
  refine congrArg Host.Outcome.next (runCmd_of_ok begins ?_ ?_)
  · simp [firstFail, plain, some, timer, zero, Nat.not_lt.2 low, Nat.not_lt.2 high]
  · simp [powered, wake, timer, Ran.ok]

section AuxadcTrigger
variable {id : Nat} {c : Cmd} {s : State} (begins : Begins s id 0xDA c) (plain : plainBad c 0 0 = false)
include begins plain

/-- A trigger that the rail and NO_WAKE let through answers what the trigger does. -/
theorem auxadcTrigger_does (powered : auxUp s = true) (wake : c.flag 2 = false ∨ s.adc.run ≠ 0) {n : Nat} {f : State → State}
    (trigger : adcTrigger (beginCmd id c s) = (n, f (beginCmd id c s))) : Does (.auxadcTrigger id) id c s (BitVec.ofNat 64 n) 0 f := by
  have granted : (c.flag 2 && adcOff s) = false := by
    rcases wake with wake | busy
    · simp [wake]
    · simp [adcOff, busy]
  refine congrArg Host.Outcome.next (runCmd_of_ok begins ?_ ?_)
  · simp [firstFail, plain]
  · simp only [auxUp_beginCmd, powered, Cmd.begun_flag, show adcOff (beginCmd id c s) = adcOff s from rfl, granted, trigger, Bool.not_true,
      Bool.false_eq_true, if_false]
    rfl

theorem auxadcTrigger_unpowered (unpowered : auxUp s = false) : exec (.auxadcTrigger id) s = .next (finishFail id .notReady (beginCmd id c s)) := by
  refine congrArg Host.Outcome.next (runCmd_of_fail begins ?_ ?_)
  · simp [firstFail, plain]
  · simp [unpowered]

end AuxadcTrigger

theorem adcPeriodTimer_starts {s : State} (timer : s.adc.source = 1) (some : s.adc.mask ≠ 0) (powered : auxUp s = true) (idle : s.adc.run = 0) :
    Runs .adcPeriodTimer s fun t => t.adc = { s.adc with periodFrom := s.now, run := s.adc.mask } ∧ t.obs = s.obs := by
  refine ⟨_, rfl, ?_⟩
  have up : auxUp (s.mapAdc fun a => { a with periodFrom := s.now }) = true := powered
  simp [timer, adcSource, State.mapAdc, some, adcTrigger, idle] at up ⊢
  simp [up]

/-- Only the channels of a sequence get a new code. -/
theorem storeCodes_other {k : Nat} : ∀ (chs vs : List Nat) (m : Map Nat), k ∉ chs → mget (storeCodes chs vs m) k 0 = mget m k 0
  | [], _, _, _ => rfl
  | _ :: _, [], _, _ => rfl
  | ch :: chs, v :: vs, m, out => by
    obtain ⟨other, rest⟩ := not_or.1 (List.mem_cons.not.1 out)
    have tail := storeCodes_other chs vs (mput m ch (min v 4095)) rest
    rw [storeCodes, tail]
    simp [mget, mfind_mput, other]

theorem adcSequenceEnd_ends {l : List Nat} {s : State} (busy : s.adc.run ≠ 0) : Runs (.adcSequenceEnd l) s fun t =>
    t.adc.run = (if s.adc.latched then s.adc.mask else 0) ∧ t.adc.latched = false ∧ t.obs.adcDone = s.obs.adcDone.add 1 ∧
      (∀ k, bitOf s.adc.run k = false → mget t.adc.codes k 0 = mget s.adc.codes k 0) := by
  refine ⟨_, rfl, ?_⟩
  simp only [busy, if_false]
  refine ⟨rfl, rfl, rfl, fun k idle => storeCodes_other _ _ _ fun mem => ?_⟩
  exact absurd (mem_maskBits.1 mem).2 (by simp [State.mapObs, idle])

theorem adcSequenceEnd_channel0 (v : Nat) (s : State) (first : s.adc.run = 1) :
    Runs (.adcSequenceEnd [v]) s fun t => mget t.adc.codes 0 0 = min v 4095 := by
  have channel : maskBits 16 1 = [0] := by decide
  refine ⟨_, rfl, ?_⟩
  simp [first, State.mapObs, State.mapAdc, channel, storeCodes, mget, mfind_mput]

theorem auxStatus_does {id : Nat} {c : Cmd} {s : State} (begins : Begins s id 0xDB c) (shape : counterBlockBad c 0 80 = false) (keep : c.byte 63 = 0)
    (powered : auxUp s = true) (allowed : dmaAllowed s c.indAddr (auxBlock s).length = true) :
    Does (.auxStatus id []) id c s 0 0 fun x => hostWrite c.indAddr (auxBlock s) x := by
  have off : clearWrapOn c = false := by rw [clearWrapOn, show byteAt c.entry 63 = 0 from keep]; rfl
  refine congrArg Host.Outcome.next (runCmd_of_ok begins ?_ ?_)
  · simp [firstFail, shape]
  · have fits : dmaAllowed (beginCmd id c s) c.indAddr (auxBlock (beginCmd id c s)).length = true := allowed
    have cool : dacCool [] (beginCmd id c s) = beginCmd id c s := rfl
    simp only [auxUp_beginCmd, powered, clearWrapOn_begun, off, cool, Bool.not_true, Bool.false_eq_true, if_false]
    rw [withBlock_of_allowed _ fits]
    rfl

/-- Settles O52: the outputs by the rules of `modDac`, the ADC by its trigger. -/
theorem auxiliaryRowsAndCommands : Obligations.AuxiliaryRowsAndCommands := by
  unfold Obligations.AuxiliaryRowsAndCommands
  refine ⟨fun _ _ _ => auxdacSet_takes, fun _ _ _ => auxdacSet_faulted, fun id s busy => by simp [exec, execAuxdacSet, busy], auxdacModeChangeEnd_ends,
    fun _ _ => auxOverTemp_faults, fun _ _ => auxOverTemp_again, auxdacFaultEnd_ends, fun _ _ _ => auxadcSeq_does, ?_, ?_, ?_,
    fun _ _ _ => auxadcTrigger_unpowered, fun s other => by simp [exec, execAdcPeriodTimer, other], fun _ => adcPeriodTimer_starts,
    fun l s idle => by simp [exec, execAdcSequenceEnd, idle], fun _ _ => adcSequenceEnd_ends, adcSequenceEnd_channel0, fun _ _ _ => auxStatus_does⟩
  · intro id c s begins plain powered wake idle
    exact auxadcTrigger_does begins plain powered (.inl wake) (n := 0) (by simp [adcTrigger, idle]; rfl)
  · intro id c s begins plain powered busy free
    exact auxadcTrigger_does begins plain powered (.inr busy) (n := 1) (by simp [adcTrigger, busy, free])
  · intro id c s begins plain powered busy latched
    exact auxadcTrigger_does begins plain powered (.inr busy) (n := 2) (by simp [adcTrigger, busy, latched])

end Sys2Proof.Machine
end

section
/-! PROOFS. A mirrored entry that fails is not written. -/
namespace Sys2Proof.Machine

/-- The entry record of an UPDATE, carrying POISON, of a key that table 0 does not hold. -/
def strayEntry : List Byte := [0x66, 0, 1, 0, 0, 0, 0, 0, 1] ++ zeros 39

/-- A secondary that receives an epoch for the empty table 0, the entry record being the next mirror record. -/
def strayEpoch : State :=
  let s := State.reset.mapBed fun b => { b with geoRole := 2 }
  let s := s.mapGar fun g => { g with links := [(geodeLink, { Link.init with recs := [strayEntry] })] }
  let s := s.mapTbl fun t => { t with tables := [(0, Table.init)] }
  s.mapGeo fun g => { g with epochIn := some EpochIn.init }

/-- Unit 0 of region 1, where the record's word would be written. -/
def strayPlace : Place := { region := 1, unit := 0, whole := true }

/-- Refutes O53: an UPDATE of a key that its table does not hold meets the form of an entry, and fails: it is written nowhere, poisoned or not. -/
theorem not_geodeRecordRows : ¬ Obligations.GeodeRecordRows := by
  unfold Obligations.GeodeRecordRows
  rintro ⟨-, -, -, -, -, -, -, -, -, -, -, -, -, -, -, -, -, entryRow, -⟩
  obtain ⟨t, runs, ⟨u, epoch, -, -, poison⟩, -⟩ := entryRow [strayPlace] [] strayEntry EpochIn.init Table.init strayEpoch (by decide +kernel) (by decide +kernel)
    (by decide +kernel) (by decide +kernel) (by decide +kernel) (by decide +kernel)
  have unwritten : (match exec (.epochEntryReceive [strayPlace] []) strayEpoch with
      | .next t => !poisoned t 1 0 && decide (t.geo.epochIn.map (·.updates) = some [parseUpdate 0 Table.init (strayEntry.drop 8)])
      | _ => false) = true := by decide +kernel
  rw [runs] at unwritten
  simp only [Bool.and_eq_true, Bool.not_eq_true', decide_eq_true_eq, epoch, Option.map_some, Option.some.injEq] at unwritten
  obtain ⟨clean, update⟩ := unwritten
  obtain rfl : u = parseUpdate 0 Table.init (strayEntry.drop 8) := by simpa [EpochIn.init] using update
  have written := poison (by decide +kernel) (by decide +kernel) strayPlace (List.mem_singleton.2 rfl)
  exact Bool.false_ne_true (clean.symm.trans written)

end Sys2Proof.Machine
end

section
/-! PROOFS. A partial write of a word poisoned twice over. -/
namespace Sys2Proof.Machine

/-- MEM_WRITE of the first byte of region 1: one byte of its first word. -/
def byteWriteEntry : List Byte := [0xA1, 0, 5, 0, 1, 0, 0, 0] ++ zeros 12 ++ [1, 0, 0, 0] ++ zeros 16 ++ [1, 0, 0, 0] ++ zeros 20

/-- The MEM_WRITE of `byteWriteEntry`. -/
def byteWrite : Cmd := { Cmd.init with entry := byteWriteEntry }

/-- Region 1 is initialised and debug is on; the list of its poisoned words names word 0 twice. -/
def twicePoisoned : State :=
  let s := State.reset.mapFl fun f => { f with cmds := [(7, byteWrite)] }
  let s := s.mapBoot fun b => { b with initDone := 2 }
  let s := s.mapGuard fun g => { g with debug := true }
  s.mapMem fun m => { m with regions := [(1, { Region.init with bad := [0, 0] })] }

/-- Refutes O49: a partial write reads a word once for each time that the list of poisoned words names it, and counts each of these reads. -/
theorem not_memoryReadsAfterWrites : ¬ Obligations.MemoryReadsAfterWrites := by
  unfold Obligations.MemoryReadsAfterWrites
  rintro ⟨-, -, -, -, partialWrite, -⟩
  obtain ⟨t, runs, -, -, once⟩ := partialWrite 7 0 [0] byteWrite twicePoisoned (by unfold Begins; decide +kernel) (by decide +kernel) (by decide +kernel)
    (by decide +kernel) (by decide +kernel) (by decide +kernel) (by decide +kernel) (by decide +kernel) (by decide +kernel)
  have twice : (match exec (.memWrite 7 (.data [0]) []) twicePoisoned with
      | .next t => decide (ctrOf (region t 1).ctr 3 = ((ctrOf (region twicePoisoned 1).ctr 3).add 1).add 1)
      | _ => false) = true := by decide +kernel
  have target : byteWrite.target = 1 := by decide +kernel
  rw [runs] at twice
  rw [target] at once
  have same := (of_decide_eq_true twice).symm.trans once
  exact absurd same (by decide +kernel)

end Sys2Proof.Machine
end

section
/-! PROOFS. The Geode pairing beside its mirror records. -/
namespace Sys2Proof.Machine

/-- What is known of the Geode pairing beside the mirror records that are numbered, held, sent or acknowledged. -/
def State.geoCore (s : State) : Geode := { s.geo with seq := 0, hold := [], unacked := [], mirrored := 0 }

@[simp] theorem State.mapElog_geoCore (s : State) (f : Elog → Elog) : (s.mapElog f).geoCore = s.geoCore := (rfl)
@[simp] theorem State.mapBed_geoCore (s : State) (f : Bed → Bed) : (s.mapBed f).geoCore = s.geoCore := (rfl)
@[simp] theorem State.mapHealth_geoCore (s : State) (f : Health → Health) : (s.mapHealth f).geoCore = s.geoCore := (rfl)
@[simp] theorem State.mapOtp_geoCore (s : State) (f : Otp → Otp) : (s.mapOtp f).geoCore = s.geoCore := (rfl)
@[simp] theorem State.mapGuard_geoCore (s : State) (f : Guard → Guard) : (s.mapGuard f).geoCore = s.geoCore := (rfl)
@[simp] theorem State.mapMgmt_geoCore (s : State) (f : Mgmt → Mgmt) : (s.mapMgmt f).geoCore = s.geoCore := (rfl)
@[simp] theorem State.mapDac_geoCore (s : State) (f : DacBank → DacBank) : (s.mapDac f).geoCore = s.geoCore := (rfl)
@[simp] theorem State.mapFuse_geoCore (s : State) (f : Fuse → Fuse) : (s.mapFuse f).geoCore = s.geoCore := (rfl)
@[simp] theorem State.mapRep_geoCore (s : State) (f : Repair → Repair) : (s.mapRep f).geoCore = s.geoCore := (rfl)
@[simp] theorem State.mapBoot_geoCore (s : State) (f : Boot → Boot) : (s.mapBoot f).geoCore = s.geoCore := (rfl)
@[simp] theorem State.mapHreg_geoCore (s : State) (f : Hreg → Hreg) : (s.mapHreg f).geoCore = s.geoCore := (rfl)
@[simp] theorem State.mapHif_geoCore (s : State) (f : Hif → Hif) : (s.mapHif f).geoCore = s.geoCore := (rfl)
@[simp] theorem State.mapFl_geoCore (s : State) (f : Flight → Flight) : (s.mapFl f).geoCore = s.geoCore := (rfl)
@[simp] theorem State.mapLanes_geoCore (s : State) (f : LaneBank → LaneBank) : (s.mapLanes f).geoCore = s.geoCore := (rfl)
@[simp] theorem State.mapCages_geoCore (s : State) (f : CageBank → CageBank) : (s.mapCages f).geoCore = s.geoCore := (rfl)
@[simp] theorem State.mapPorts_geoCore (s : State) (f : PortBank → PortBank) : (s.mapPorts f).geoCore = s.geoCore := (rfl)
@[simp] theorem State.mapRetn_geoCore (s : State) (f : Retain → Retain) : (s.mapRetn f).geoCore = s.geoCore := (rfl)
@[simp] theorem State.mapBuf_geoCore (s : State) (f : Buffer → Buffer) : (s.mapBuf f).geoCore = s.geoCore := (rfl)
@[simp] theorem State.mapSched_geoCore (s : State) (f : Sched → Sched) : (s.mapSched f).geoCore = s.geoCore := (rfl)
@[simp] theorem State.mapTbl_geoCore (s : State) (f : Tables → Tables) : (s.mapTbl f).geoCore = s.geoCore := (rfl)
@[simp] theorem State.mapMem_geoCore (s : State) (f : Mem → Mem) : (s.mapMem f).geoCore = s.geoCore := (rfl)
@[simp] theorem State.mapObs_geoCore (s : State) (f : Obs → Obs) : (s.mapObs f).geoCore = s.geoCore := (rfl)
@[simp] theorem State.mapTim_geoCore (s : State) (f : Tim → Tim) : (s.mapTim f).geoCore = s.geoCore := (rfl)
@[simp] theorem State.mapAdc_geoCore (s : State) (f : Adc → Adc) : (s.mapAdc f).geoCore = s.geoCore := (rfl)
@[simp] theorem State.mapGar_geoCore (s : State) (f : Garnet → Garnet) : (s.mapGar f).geoCore = s.geoCore := (rfl)

end Sys2Proof.Machine
end

section
/-! PROOFS. The Geode roles, the switchover and the Geode commands. -/
namespace Sys2Proof.Machine

@[simp] theorem State_tick_geoCore (s : State) : s.tick.geoCore = s.geoCore := (rfl)

@[simp] theorem ite_geoCore {c : Prop} [Decidable c] (a b : State) :
    (if c then a else b).geoCore = if c then a.geoCore else b.geoCore := apply_ite (fun s : State => s.geoCore) c a b

@[simp] theorem foldl_geoCore {α : Type} {f : State → α → State} (same : ∀ s a, (f s a).geoCore = s.geoCore) (l : List α) (s : State) :
    (l.foldl f s).geoCore = s.geoCore := by
  induction l generalizing s with
  | nil => rfl
  | cons a l ih => exact (ih (f s a)).trans (same s a)

@[simp] theorem forEach_geoCore {f : Nat → State → State} (same : ∀ n s, (f n s).geoCore = s.geoCore) (l : List Nat) (s : State) :
    (forEach l f s).geoCore = s.geoCore :=
  foldl_geoCore (fun s n => same n s) l s

@[simp] theorem modLane_geoCore (n : Nat) (f : Lane → Lane) (s : State) : (modLane n f s).geoCore = s.geoCore := (rfl)

@[simp] theorem squelchSynce_geoCore (n : Nat) (s : State) : (squelchSynce n s).geoCore = s.geoCore := (rfl)

@[simp] theorem modPort_geoCore (p : Nat) (f : Port → Port) (s : State) : (modPort p f s).geoCore = s.geoCore := by
  unfold modPort
  split <;> simp

@[simp] theorem loseEvent_geoCore (s : State) : (loseEvent s).geoCore = s.geoCore := (rfl)

@[simp] theorem hostWrite_geoCore (addr : Nat) (bytes : List Byte) (s : State) : (hostWrite addr bytes s).geoCore = s.geoCore := (rfl)

@[simp] theorem msixFire_geoCore (v : Nat) (s : State) : (msixFire v s).geoCore = s.geoCore := by
  simp [msixFire]

@[simp] theorem msixCount_geoCore (v count n : Nat) (s : State) : (msixCount v count n s).geoCore = s.geoCore := by
  simp [msixCount]

@[simp] theorem evqWrite_geoCore (e : Event) (s : State) : (evqWrite e s).geoCore = s.geoCore := by
  simp [evqWrite]

@[simp] theorem evqDrain_geoCore (l : List Event) (s : State) : (evqDrain l s).2.geoCore = s.geoCore := by
  induction l generalizing s with
  | nil => rfl
  | cons e r ih =>
    unfold evqDrain
    split
    · rw [ih, evqWrite_geoCore]
    · rfl

@[simp] theorem setHifErr_geoCore (bits : BitVec 7) (s : State) : (setHifErr bits s).geoCore = s.geoCore := (rfl)

@[simp] theorem deliverEvents_geoCore (s : State) : (deliverEvents s).geoCore = s.geoCore := by
  simp [deliverEvents]

@[simp] theorem postEvent_geoCore (e : Event) (s : State) : (postEvent e s).geoCore = s.geoCore := by
  simp [postEvent]

@[simp] theorem post_geoCore (code sev obj detail : Nat) (s : State) : (post code sev obj detail s).geoCore = s.geoCore := by
  simp [post]

@[simp] theorem portCount_geoCore (p k n : Nat) (s : State) : (portCount p k n s).geoCore = s.geoCore := by
  simp [portCount]

@[simp] theorem portDown_geoCore (p detail : Nat) (s : State) : (portDown p detail s).geoCore = s.geoCore := by
  simp [portDown]

@[simp] theorem portLaneLost_geoCore (n : Nat) (s : State) : (portLaneLost n s).geoCore = s.geoCore := by
  unfold portLaneLost
  (repeat' split) <;> simp

@[simp] theorem laneCold_geoCore (n : Nat) (s : State) : (laneCold n s).geoCore = s.geoCore := by
  simp [laneCold]

@[simp] theorem endAlternate_geoCore (p : Nat) (s : State) : (endAlternate p s).geoCore = s.geoCore := by
  simp [endAlternate]

@[simp] theorem modReady_geoCore (f : Cage → Cage) (s : State) : (modReady f s).geoCore = s.geoCore := (rfl)

@[simp] theorem lightOn_geoCore (s : State) : (lightOn s).geoCore = s.geoCore := (rfl)

@[simp] theorem laneRampDown_geoCore (n : Nat) (stop : Bool) (s : State) : (laneRampDown n stop s).geoCore = s.geoCore := by
  simp [laneRampDown]
  split <;> simp

@[simp] theorem laneRampUp_geoCore (n : Nat) (s : State) : (laneRampUp n s).geoCore = s.geoCore := by
  simp [laneRampUp]
  split <;> simp

@[simp] theorem setMute_geoCore (n : Nat) (on : Bool) (s : State) : (setMute n on s).geoCore = s.geoCore := by
  simp [setMute]

@[simp] theorem clearFar_geoCore (s : State) : (clearFar s).geoCore = s.geoCore := by
  simp [clearFar]

@[simp] theorem muteAll_geoCore (s : State) : (muteAll s).geoCore = s.geoCore := by
  simp [muteAll]

@[simp] theorem unpickAll_geoCore (s : State) : (unpickAll s).geoCore = s.geoCore := (rfl)

@[simp] theorem mirrorDrain_geoCore (n : Nat) (s : State) : (mirrorDrain n s).geoCore = s.geoCore := by
  induction n generalizing s with
  | zero => rfl
  | succ n ih =>
    unfold mirrorDrain
    split
    · rfl
    · split
      · rfl
      · rw [ih]
        rfl

@[simp] theorem mirrorPush_geoCore (k num : Nat) (b : List Byte) (s : State) : (mirrorPush k num b s).geoCore = s.geoCore := by
  unfold mirrorPush
  rw [mirrorDrain_geoCore]
  rfl

@[simp] theorem mirrorConfig_geoCore (op target : Nat) (inl data : List Byte) (s : State) : (mirrorConfig op target inl data s).geoCore = s.geoCore := by
  unfold mirrorConfig
  rw [mirrorPush_geoCore]
  rfl

@[simp] theorem mirrorCmd_geoCore (c : Cmd) (st : Status) (s : State) : (mirrorCmd c st s).geoCore = s.geoCore := by
  simp [mirrorCmd]

@[simp] theorem profEvent_geoCore (ev inst n : Nat) (s : State) : (profEvent ev inst n s).geoCore = s.geoCore := (rfl)

@[simp] theorem ringError_geoCore (r cause : Nat) (s : State) : (ringError r cause s).geoCore = s.geoCore := by
  unfold ringError
  split <;> simp

@[simp] theorem writeCompletion_geoCore (c : Completion) (s : State) : (writeCompletion c s).geoCore = s.geoCore := by
  simp [writeCompletion]
  split <;> simp

@[simp] theorem finishOne_geoCore (id : Nat) (st : Status) (r0 r1 : BitVec 64) (eff : Bool) (s : State) : (finishOne id st r0 r1 eff s).geoCore = s.geoCore := by
  unfold finishOne
  split <;> simp

@[simp] theorem settleDeletes_geoCore (n : Nat) (s : State) : (settleDeletes n s).geoCore = s.geoCore := by
  induction n generalizing s with
  | zero => rfl
  | succ n ih =>
    unfold settleDeletes
    split
    · rfl
    · rw [ih, finishOne_geoCore]
      rfl

@[simp] theorem finish_geoCore (id : Nat) (st : Status) (r0 r1 : BitVec 64) (eff : Bool) (s : State) : (finish id st r0 r1 eff s).geoCore = s.geoCore := by
  simp [finish]

@[simp] theorem finishAll_geoCore (ids : List Nat) (st : Status) (eff : Bool) (s : State) : (finishAll ids st eff s).geoCore = s.geoCore := by
  simp [finishAll]

@[simp] theorem loseEpochs_geoCore (s : State) : (loseEpochs s).geoCore = s.geoCore := by
  simp [loseEpochs]

@[simp] theorem modCage_geoCore (c : Nat) (f : Cage → Cage) (s : State) : (modCage c f s).geoCore = s.geoCore := (rfl)

@[simp] theorem secondaryDark_geoCore (c : Nat) (s : State) : (secondaryDark c s).geoCore = s.geoCore := by
  simp [secondaryDark]

@[simp] theorem modLink_geoCore (n : Nat) (f : Link → Link) (s : State) : (modLink n f s).geoCore = s.geoCore := (rfl)

@[simp] theorem linkCount_geoCore (n k a : Nat) (s : State) : (linkCount n k a s).geoCore = s.geoCore := (rfl)

@[simp] theorem geodePush_geoCore (rec' : List Byte) (s : State) : (geodePush rec' s).geoCore = s.geoCore := (rfl)

@[simp] theorem geodeSend_geoCore (b : List Byte) (s : State) : (geodeSend b s).geoCore = s.geoCore := by
  simp [geodeSend]

@[simp] theorem modCmd_geoCore (id : Nat) (f : Cmd → Cmd) (s : State) : (modCmd id f s).geoCore = s.geoCore := by
  unfold modCmd
  split <;> simp

@[simp] theorem awaitEnd_geoCore (id : Nat) (aux : List Nat) (s : State) : (awaitEnd id aux s).geoCore = s.geoCore := by
  simp [awaitEnd]

@[simp] theorem geodePush_lanes (rec' : List Byte) (s : State) : (geodePush rec' s).lanes = s.lanes := (geodePush_done rec' s).lanes

@[simp] theorem geodeSend_lanes (b : List Byte) (s : State) : (geodeSend b s).lanes = s.lanes := by
  simp [geodeSend]

@[simp] theorem takenCheck_lanes (s : State) : (takenCheck s).lanes = s.lanes := by
  unfold takenCheck
  split <;> simp

@[simp] theorem endAlternate_bed (p : Nat) (s : State) : (endAlternate p s).bed = s.bed := by
  simp [endAlternate]

@[simp] theorem modReady_bed (f : Cage → Cage) (s : State) : (modReady f s).bed = s.bed := (rfl)

@[simp] theorem lightOn_bed (s : State) : (lightOn s).bed = s.bed := (rfl)

@[simp] theorem laneRampUp_bed (n : Nat) (s : State) : (laneRampUp n s).bed = s.bed := by
  simp [laneRampUp]
  split <;> simp

@[simp] theorem setMute_bed (n : Nat) (on : Bool) (s : State) : (setMute n on s).bed = s.bed := by
  simp [setMute]

@[simp] theorem clearFar_bed (s : State) : (clearFar s).bed = s.bed := by
  simp [clearFar]

@[simp] theorem muteAll_bed (s : State) : (muteAll s).bed = s.bed := by
  simp [muteAll]

@[simp] theorem unpickAll_bed (s : State) : (unpickAll s).bed = s.bed := (rfl)

@[simp] theorem loseEpochs_bed (s : State) : (loseEpochs s).bed = s.bed := by
  simp [loseEpochs]

@[simp] theorem geodePush_bed (rec' : List Byte) (s : State) : (geodePush rec' s).bed = s.bed := (geodePush_done rec' s).bed

@[simp] theorem geodeSend_bed (b : List Byte) (s : State) : (geodeSend b s).bed = s.bed := by
  simp [geodeSend]

@[simp] theorem darkCheck_bed (s : State) : (darkCheck s).bed = s.bed := by
  unfold darkCheck
  split <;> simp

@[simp] theorem secondaryDark_bed (c : Nat) (s : State) : (secondaryDark c s).bed = s.bed := by
  simp [secondaryDark]

@[simp] theorem takenCheck_bed (s : State) : (takenCheck s).bed = s.bed := by
  unfold takenCheck
  split <;> simp

@[simp] theorem State_tick_tim (s : State) : s.tick.tim = s.tim := (rfl)

@[simp] theorem ite_tim {c : Prop} [Decidable c] (a b : State) :
    (if c then a else b).tim = if c then a.tim else b.tim := apply_ite (fun s : State => s.tim) c a b

@[simp] theorem foldl_tim {α : Type} {f : State → α → State} (same : ∀ s a, (f s a).tim = s.tim) (l : List α) (s : State) :
    (l.foldl f s).tim = s.tim := by
  induction l generalizing s with
  | nil => rfl
  | cons a l ih => exact (ih (f s a)).trans (same s a)

@[simp] theorem forEach_tim {f : Nat → State → State} (same : ∀ n s, (f n s).tim = s.tim) (l : List Nat) (s : State) :
    (forEach l f s).tim = s.tim :=
  foldl_tim (fun s n => same n s) l s

@[simp] theorem modLane_tim (n : Nat) (f : Lane → Lane) (s : State) : (modLane n f s).tim = s.tim := (rfl)

@[simp] theorem laneRampDown_tim (n : Nat) (stop : Bool) (s : State) : (laneRampDown n stop s).tim = s.tim := by
  simp [laneRampDown]
  split <;> simp

@[simp] theorem laneRampUp_tim (n : Nat) (s : State) : (laneRampUp n s).tim = s.tim := by
  simp [laneRampUp]
  split <;> simp

@[simp] theorem setMute_tim (n : Nat) (on : Bool) (s : State) : (setMute n on s).tim = s.tim := by
  simp [setMute]

@[simp] theorem geodePush_tim (rec' : List Byte) (s : State) : (geodePush rec' s).tim = s.tim := (geodePush_done rec' s).tim

@[simp] theorem geodeSend_tim (b : List Byte) (s : State) : (geodeSend b s).tim = s.tim := by
  simp [geodeSend]

@[simp] theorem takenCheck_tim (s : State) : (takenCheck s).tim = s.tim := by
  unfold takenCheck
  split <;> simp

@[simp] theorem squelchSynce_tbl (n : Nat) (s : State) : (squelchSynce n s).tbl = s.tbl := (rfl)

@[simp] theorem modPort_tbl (p : Nat) (f : Port → Port) (s : State) : (modPort p f s).tbl = s.tbl := by
  unfold modPort
  split <;> simp

@[simp] theorem portCount_tbl (p k n : Nat) (s : State) : (portCount p k n s).tbl = s.tbl := by
  simp [portCount]

@[simp] theorem portDown_tbl (p detail : Nat) (s : State) : (portDown p detail s).tbl = s.tbl := by
  simp [portDown]

@[simp] theorem portLaneLost_tbl (n : Nat) (s : State) : (portLaneLost n s).tbl = s.tbl := by
  unfold portLaneLost
  (repeat' split) <;> simp

@[simp] theorem laneCold_tbl (n : Nat) (s : State) : (laneCold n s).tbl = s.tbl := by
  simp [laneCold]

@[simp] theorem endAlternate_tbl (p : Nat) (s : State) : (endAlternate p s).tbl = s.tbl := by
  simp [endAlternate]

@[simp] theorem modReady_tbl (f : Cage → Cage) (s : State) : (modReady f s).tbl = s.tbl := (rfl)

@[simp] theorem lightOn_tbl (s : State) : (lightOn s).tbl = s.tbl := (rfl)

@[simp] theorem squelchSynce_buf (n : Nat) (s : State) : (squelchSynce n s).buf = s.buf := (rfl)

@[simp] theorem modPort_buf (p : Nat) (f : Port → Port) (s : State) : (modPort p f s).buf = s.buf := by
  unfold modPort
  split <;> simp

@[simp] theorem portCount_buf (p k n : Nat) (s : State) : (portCount p k n s).buf = s.buf := by
  simp [portCount]

@[simp] theorem portDown_buf (p detail : Nat) (s : State) : (portDown p detail s).buf = s.buf := by
  simp [portDown]

@[simp] theorem portLaneLost_buf (n : Nat) (s : State) : (portLaneLost n s).buf = s.buf := by
  unfold portLaneLost
  (repeat' split) <;> simp

@[simp] theorem laneCold_buf (n : Nat) (s : State) : (laneCold n s).buf = s.buf := by
  simp [laneCold]

@[simp] theorem endAlternate_buf (p : Nat) (s : State) : (endAlternate p s).buf = s.buf := by
  simp [endAlternate]

@[simp] theorem modReady_buf (f : Cage → Cage) (s : State) : (modReady f s).buf = s.buf := (rfl)

@[simp] theorem lightOn_buf (s : State) : (lightOn s).buf = s.buf := (rfl)

@[simp] theorem State_tick_geo (s : State) : s.tick.geo = s.geo := (rfl)

@[simp] theorem ite_geo {c : Prop} [Decidable c] (a b : State) :
    (if c then a else b).geo = if c then a.geo else b.geo := apply_ite (fun s : State => s.geo) c a b

@[simp] theorem foldl_geo {α : Type} {f : State → α → State} (same : ∀ s a, (f s a).geo = s.geo) (l : List α) (s : State) :
    (l.foldl f s).geo = s.geo := by
  induction l generalizing s with
  | nil => rfl
  | cons a l ih => exact (ih (f s a)).trans (same s a)

@[simp] theorem forEach_geo {f : Nat → State → State} (same : ∀ n s, (f n s).geo = s.geo) (l : List Nat) (s : State) :
    (forEach l f s).geo = s.geo :=
  foldl_geo (fun s n => same n s) l s

@[simp] theorem modLane_geo (n : Nat) (f : Lane → Lane) (s : State) : (modLane n f s).geo = s.geo := (rfl)

@[simp] theorem squelchSynce_geo (n : Nat) (s : State) : (squelchSynce n s).geo = s.geo := (rfl)

@[simp] theorem modPort_geo (p : Nat) (f : Port → Port) (s : State) : (modPort p f s).geo = s.geo := by
  unfold modPort
  split <;> simp

@[simp] theorem portCount_geo (p k n : Nat) (s : State) : (portCount p k n s).geo = s.geo := by
  simp [portCount]

@[simp] theorem portDown_geo (p detail : Nat) (s : State) : (portDown p detail s).geo = s.geo := by
  simp [portDown]

@[simp] theorem portLaneLost_geo (n : Nat) (s : State) : (portLaneLost n s).geo = s.geo := by
  unfold portLaneLost
  (repeat' split) <;> simp

@[simp] theorem laneCold_geo (n : Nat) (s : State) : (laneCold n s).geo = s.geo := by
  simp [laneCold]

@[simp] theorem endAlternate_geo (p : Nat) (s : State) : (endAlternate p s).geo = s.geo := by
  simp [endAlternate]

@[simp] theorem modReady_geo (f : Cage → Cage) (s : State) : (modReady f s).geo = s.geo := (rfl)

@[simp] theorem lightOn_geo (s : State) : (lightOn s).geo = s.geo := (rfl)

@[simp] theorem laneRampDown_geo (n : Nat) (stop : Bool) (s : State) : (laneRampDown n stop s).geo = s.geo := by
  simp [laneRampDown]
  split <;> simp

@[simp] theorem laneRampUp_geo (n : Nat) (s : State) : (laneRampUp n s).geo = s.geo := by
  simp [laneRampUp]
  split <;> simp

@[simp] theorem setMute_geo (n : Nat) (on : Bool) (s : State) : (setMute n on s).geo = s.geo := by
  simp [setMute]

@[simp] theorem modCage_geo (c : Nat) (f : Cage → Cage) (s : State) : (modCage c f s).geo = s.geo := (rfl)

@[simp] theorem secondaryDark_geo (c : Nat) (s : State) : (secondaryDark c s).geo = s.geo := by
  simp [secondaryDark]

@[simp] theorem modLink_geo (n : Nat) (f : Link → Link) (s : State) : (modLink n f s).geo = s.geo := (rfl)

@[simp] theorem linkCount_geo (n k a : Nat) (s : State) : (linkCount n k a s).geo = s.geo := (rfl)

@[simp] theorem geodePush_geo (rec' : List Byte) (s : State) : (geodePush rec' s).geo = s.geo := (geodePush_done rec' s).geo

@[simp] theorem geodeSend_geo (b : List Byte) (s : State) : (geodeSend b s).geo = s.geo := by
  simp [geodeSend]

@[simp] theorem State_tick_fl_cmds (s : State) : s.tick.fl.cmds = s.fl.cmds := (rfl)

@[simp] theorem ite_fl_cmds {c : Prop} [Decidable c] (a b : State) :
    (if c then a else b).fl.cmds = if c then a.fl.cmds else b.fl.cmds := apply_ite (fun s : State => s.fl.cmds) c a b

@[simp] theorem foldl_fl_cmds {α : Type} {f : State → α → State} (same : ∀ s a, (f s a).fl.cmds = s.fl.cmds) (l : List α) (s : State) :
    (l.foldl f s).fl.cmds = s.fl.cmds := by
  induction l generalizing s with
  | nil => rfl
  | cons a l ih => exact (ih (f s a)).trans (same s a)

@[simp] theorem forEach_fl_cmds {f : Nat → State → State} (same : ∀ n s, (f n s).fl.cmds = s.fl.cmds) (l : List Nat) (s : State) :
    (forEach l f s).fl.cmds = s.fl.cmds :=
  foldl_fl_cmds (fun s n => same n s) l s

@[simp] theorem mirrorDrain_fl_cmds (n : Nat) (s : State) : (mirrorDrain n s).fl.cmds = s.fl.cmds := by
  induction n generalizing s with
  | zero => rfl
  | succ n ih =>
    unfold mirrorDrain
    split
    · rfl
    · split
      · rfl
      · rw [ih]
        rfl

@[simp] theorem mirrorPush_fl_cmds (k num : Nat) (b : List Byte) (s : State) : (mirrorPush k num b s).fl.cmds = s.fl.cmds := by
  unfold mirrorPush
  rw [mirrorDrain_fl_cmds]
  rfl

@[simp] theorem mirrorConfig_fl_cmds (op target : Nat) (inl data : List Byte) (s : State) : (mirrorConfig op target inl data s).fl.cmds = s.fl.cmds := by
  unfold mirrorConfig
  rw [mirrorPush_fl_cmds]
  rfl

@[simp] theorem mirrorCmd_fl_cmds (c : Cmd) (st : Status) (s : State) : (mirrorCmd c st s).fl.cmds = s.fl.cmds := by
  unfold mirrorCmd
  split <;> simp

@[simp] theorem profEvent_fl_cmds (ev inst n : Nat) (s : State) : (profEvent ev inst n s).fl.cmds = s.fl.cmds := (rfl)

/-! ## Records of the Geode link, and the roles (chapter 18) -/

/-- The state with the record taken from its link. -/
def State.without (n : Nat) (r : List Byte) (s : State) : State := modLink n (fun l => { l with recs := l.recs.erase r }) s

theorem withRecord_of_found {n : Nat} {p : List Byte → Bool} {r : List Byte} {s : State} (f : List Byte → State → State)
    (found : (link s n).recs.find? p = some r) : withRecord n p s f = f r (s.without n r) := by
  simp only [withRecord, takeRecord, found, State.without]

theorem withMirror_of_found {t : Nat} {r : List Byte} {s : State} (f : List Byte → State → State)
    (found : (link s geodeLink).recs.find? mirrorKind = some r) (kind : byteAt r 0 = t) (whole : s.geo.epochIn.any (·.ended) = false) :
    withMirror t s f = f r (s.without geodeLink r) := by
  simp only [withMirror, found, kind, whole, ne_eq, not_true_eq_false, Bool.false_eq_true, or_self, if_false]
  exact withRecord_of_found f found

@[simp] theorem without_geo (n : Nat) (r : List Byte) (s : State) : (s.without n r).geo = s.geo := rfl
@[simp] theorem without_bed (n : Nat) (r : List Byte) (s : State) : (s.without n r).bed = s.bed := rfl
@[simp] theorem without_tbl (n : Nat) (r : List Byte) (s : State) : (s.without n r).tbl = s.tbl := rfl
@[simp] theorem without_buf (n : Nat) (r : List Byte) (s : State) : (s.without n r).buf = s.buf := rfl
@[simp] theorem without_fl (n : Nat) (r : List Byte) (s : State) : (s.without n r).fl = s.fl := rfl
@[simp] theorem isSecondary_without (n : Nat) (r : List Byte) (s : State) : isSecondary (s.without n r) = isSecondary s := rfl

theorem isSecondary_of_role {s : State} (role : roleNow s = 2) : isSecondary s = true := by
  by_contra primary
  have stored : s.bed.geoRole = 2 := by simpa [roleNow, Bool.not_eq_true _ ▸ primary] using role
  exact primary (by simp [isSecondary, stored])

theorem roleNow_of_secondary {s : State} (stored : s.bed.geoRole = 2) : roleNow s = 2 := by simp [roleNow, isSecondary, stored]

theorem roleNow_of_primary {s : State} (stored : s.bed.geoRole = 1) (sees : s.geo.blind = false) : roleNow s = 1 := by
  simp [roleNow, isSecondary, stored, sees]

/-! ### What taking a role does -/

section TakePrimary
variable (inn : Option GeoIn) (s : State)

theorem takePrimary_bed : (takePrimary inn s).bed = { s.bed with geoRole := 1 } := by
  unfold takePrimary servoFree
  dsimp only
  split <;> simp [State.mapBed]

theorem takePrimary_geo : (takePrimary inn s).geo =
    { s.geo with blind := false, inn := inn, epochIn := none, resynced := false, lossSince := none } := by
  unfold takePrimary servoFree
  dsimp only
  split <;> simp [State.mapGeo]

theorem takePrimary_tbl : (takePrimary inn s).tbl = s.tbl := by
  unfold takePrimary servoFree
  dsimp only
  split <;> simp

theorem takePrimary_buf : (takePrimary inn s).buf = s.buf := by
  unfold takePrimary servoFree
  dsimp only
  split <;> simp

variable {s} in
theorem takePrimary_servo (secondary : isSecondary s = true) : (takePrimary inn s).tim.servo = .freeRun := by
  unfold takePrimary servoFree
  simp only [secondary, if_true, post_tim]
  rfl

end TakePrimary

theorem darkCheck_geo (s : State) : ∃ dark, (darkCheck s).geo = { s.geo with out := s.geo.out.map fun o => { o with dark := dark } } := by
  unfold darkCheck
  cases old : s.geo.out with
  | none =>
    refine ⟨false, ?_⟩
    simp only [Option.map_none]
    rw [← old]
  | some o =>
    dsimp only
    split
    · refine ⟨o.dark, ?_⟩
      rw [Option.map_some, ← old]
    · refine ⟨true, ?_⟩
      split <;> simp [State.mapGeo]

/-- The parts of the pairing that the end of a switchover speaks of. -/
theorem geo_parts {s t : State} (same : t.geoCore = s.geoCore) : t.geo.inSync = s.geo.inSync ∧ t.geo.cause = s.geo.cause ∧
    t.geo.wasUp = s.geo.wasUp ∧ t.geo.out = s.geo.out := by
  have inSync := congrArg Geode.inSync same
  have cause := congrArg Geode.cause same
  have wasUp := congrArg Geode.wasUp same
  have out := congrArg Geode.out same
  exact ⟨inSync, cause, wasUp, out⟩

/-- The device as it has stored the secondary role and lost sync. -/
def State.demoted (s : State) : State :=
  (s.mapBed fun b => { b with geoRole := 2 }).mapGeo fun g =>
    { g with blind := false, inn := none, inSync := false, seqKnown := false, resync := false, timeSet := false, echoAt := none }

/-- A device that takes secondary, as it looks whether its panel is dark. -/
def State.dimmed (s : State) : State := forEach (List.range 32) secondaryDark (clearFar (muteAll (unpickAll (loseEpochs s.demoted))))

theorem takeSecondary_eq (s : State) : takeSecondary s = darkCheck s.dimmed := rfl

theorem dimmed_geoCore (s : State) : s.dimmed.geoCore = s.demoted.geoCore := by simp [State.dimmed]

theorem takeSecondary_bed (s : State) : (takeSecondary s).bed = { s.bed with geoRole := 2 } := by
  rw [takeSecondary_eq, darkCheck_bed]
  simp [State.dimmed, State.demoted, State.mapBed]

/-- A device that takes secondary is out of sync; a switchover of its own goes on. -/
theorem takeSecondary_geo (s : State) : (takeSecondary s).geo.inSync = false ∧ (takeSecondary s).geo.cause = s.geo.cause ∧
    (takeSecondary s).geo.wasUp = s.geo.wasUp ∧ ∃ dark, (takeSecondary s).geo.out = s.geo.out.map fun o => { o with dark := dark } := by
  obtain ⟨dark, checked⟩ := darkCheck_geo s.dimmed
  obtain ⟨inSync, cause, wasUp, out⟩ := geo_parts (dimmed_geoCore s)
  rw [takeSecondary_eq, checked]
  dsimp only
  rw [inSync, cause, wasUp, out]
  exact ⟨rfl, rfl, rfl, dark, rfl⟩

/-! ### HANDOVER, DARK and TAKEN -/

theorem handoverReceive_takes {r : List Byte} {s : State} (role : roleNow s = 2) (found : (link s geodeLink).recs.find? mirrorKind = some r)
    (kind : byteAt r 0 = 0x61) (whole : s.geo.epochIn.any (·.ended) = false) (low : 1 ≤ byteAt r 1) (high : byteAt r 1 ≤ 2) :
    Runs .handoverReceive s fun t =>
      t.bed.geoRole = 1 ∧ t.geo.inn = some { cause := byteAt r 1, dark := false, lost := false, ramping := false } ∧ t.geo.cause = byteAt r 1 ∧
        t.geo.blind = false ∧ t.tim.servo = .freeRun ∧ t.tbl = s.tbl ∧ t.buf = s.buf := by
  have legal : ¬ (byteAt r 1 = 0 ∨ 2 < byteAt r 1) := by omega
  have runs : exec .handoverReceive s = .next (post 0xB001 1 1 (byteAt r 1)
      ((takePrimary (some { GeoIn.init with cause := byteAt r 1 }) (s.without geodeLink r)).mapGeo fun g => { g with cause := byteAt r 1 })) := by
    simp only [exec, execHandoverReceive, role, ne_eq, not_true_eq_false, if_false, withMirror_of_found _ found kind whole, legal]
  have servo := takePrimary_servo (some { GeoIn.init with cause := byteAt r 1 }) (s := s.without geodeLink r)
    ((isSecondary_without ..).trans (isSecondary_of_role role))
  refine ⟨_, runs, ?_⟩
  simp only [post_bed, post_geo, post_tim, post_tbl, post_buf, State.mapGeo, takePrimary_bed, takePrimary_geo, takePrimary_tbl, takePrimary_buf, servo,
    without_tbl, without_buf]
  exact ⟨trivial, rfl, trivial, trivial, trivial, trivial, trivial⟩

theorem handoverReceive_reserved {r : List Byte} {s : State} (role : roleNow s = 2) (found : (link s geodeLink).recs.find? mirrorKind = some r)
    (kind : byteAt r 0 = 0x61) (whole : s.geo.epochIn.any (·.ended) = false) (reserved : byteAt r 1 = 0 ∨ 2 < byteAt r 1) :
    Runs .handoverReceive s fun t => t.bed = s.bed ∧ t.geo = s.geo ∧
      ctrOf (link t geodeLink).ctr 9 = (ctrOf (link s geodeLink).ctr 9).add 1 := by
  have runs : exec .handoverReceive s = .next (linkCount geodeLink 9 1 (s.without geodeLink r)) := by
    simp only [exec, execHandoverReceive, role, ne_eq, not_true_eq_false, if_false, withMirror_of_found _ found kind whole, reserved, if_true]
  refine ⟨_, runs, rfl, rfl, ?_⟩
  simp only [linkCount, State.without, link_modLink_same, ctrOf_ctrAdd]

theorem darkReceive_notes {r : List Byte} {s : State} (found : (link s geodeLink).recs.find? (isType 0x62) = some r) : Runs .darkReceive s fun t =>
    t.geo = { s.geo with inn := s.geo.inn.map fun i => { i with dark := true } } ∧ t.bed = s.bed ∧ t.lanes = s.lanes :=
  ⟨_, congrArg Host.Outcome.next (withRecord_of_found _ found), rfl, rfl, rfl⟩

/-- What a ramp up leaves of a switchover: it ramps, or has ended. -/
theorem takenCheck_geo (s : State) : (takenCheck s).geo = s.geo ∨ (takenCheck s).geo = { s.geo with inn := none } := by
  unfold takenCheck
  split
  · exact .inl rfl
  · dsimp only
    split
    · refine .inr ?_
      split <;> simp [State.mapGeo]
    · exact .inl rfl

/-- The switchover of a ramp up, if it goes on, ramps; nothing else of the pairing changes. -/
theorem geodeRampUp_geo (s : State) : ∃ inn, (geodeRampUp s).geo = { s.geo with inn := inn } ∧ ∀ i, inn = some i → i.ramping = true := by
  have unmuted := forEach_geo (fun n t => setMute_geo n false t) (portedLanes (s.mapGeo fun g => { g with inn := g.inn.map fun i => { i with ramping := true } }))
    (s.mapGeo fun g => { g with inn := g.inn.map fun i => { i with ramping := true } })
  unfold geodeRampUp
  rcases takenCheck_geo (forEach (portedLanes (s.mapGeo fun g => { g with inn := g.inn.map fun i => { i with ramping := true } }))
    (fun n s => setMute n false s) (s.mapGeo fun g => { g with inn := g.inn.map fun i => { i with ramping := true } })) with kept | ended
  · refine ⟨s.geo.inn.map fun i => { i with ramping := true }, by rw [kept, unmuted]; rfl, fun i found => ?_⟩
    obtain ⟨k, _, rfl⟩ := Option.map_eq_some_iff.1 found
    rfl
  · exact ⟨none, by rw [ended, unmuted]; rfl, fun i found => absurd found (by simp)⟩

theorem geodeRampUp_bed (s : State) : (geodeRampUp s).bed = s.bed := by simp [geodeRampUp, State.mapGeo]

theorem geodeRampUp_tim (s : State) : (geodeRampUp s).tim = s.tim := by simp [geodeRampUp, State.mapGeo]

theorem laneRampUp_mute (n k : Nat) (s : State) : (lane (laneRampUp n s) k).mute = (lane s k).mute := by
  have changed : ∀ f : Lane → Lane, (∀ l, (f l).mute = l.mute) → (lane (modLane n f s) k).mute = (lane s k).mute := by
    intro f same
    by_cases own : k = n
    · rw [own, lane_modLane_same, same]
    · rw [lane_modLane_other f s own]
  unfold laneRampUp
  dsimp only
  split
  · rfl
  · split
    case _ => rfl
    case _ => rfl
    all_goals exact changed _ fun _ => rfl

theorem setMute_mute (n k : Nat) (s : State) : (lane (setMute n false s) k).mute = (if k = n then false else (lane s k).mute) := by
  have unmuted : (lane (modLane n (fun l => { l with mute := false }) s) k).mute = (if k = n then false else (lane s k).mute) := by
    by_cases own : k = n
    · rw [own, lane_modLane_same, if_pos rfl]
    · rw [lane_modLane_other _ s own, if_neg own]
  unfold setMute
  simp only [Bool.false_eq_true, if_false]
  split
  · rw [laneRampUp_mute, unmuted]
  · exact unmuted

theorem mem_of_mfind {α : Type} {m : Map α} {k : Nat} {v : α} (found : mfind m k = some v) : (k, v) ∈ m := by
  induction m with
  | nil => simp [mfind] at found
  | cons e m ih =>
    obtain ⟨j, w⟩ := e
    rw [mfind] at found
    split at found
    · next same =>
      obtain rfl := Option.some.inj found
      rw [same]
      exact List.mem_cons_self
    · exact List.mem_cons_of_mem _ (ih found)

/-- The ramp up of the panel unmutes every lane of a port. -/
theorem geodeRampUp_unmutes {n : Nat} {l : Lane} {s : State} (entry : mfind s.lanes.tab n = some l) (owned : l.port.isSome = true) :
    (lane (geodeRampUp s) n).mute = false := by
  have ported : n ∈ portedLanes s := List.mem_map.2 ⟨(n, l), List.mem_filter.2 ⟨mem_of_mfind entry, owned⟩, rfl⟩
  unfold geodeRampUp
  rw [lane_congr (takenCheck_lanes _)]
  refine forEach_makes (P := fun t => (lane t n).mute = false) (fun k t unmuted => ?_) (fun t => ?_) ported
  · rw [setMute_mute]
    split
    · rfl
    · exact unmuted
  · rw [setMute_mute, if_pos rfl]

theorem takenReceive_ends {r : List Byte} {o : GeoOut} {s : State} (found : (link s geodeLink).recs.find? (isType 0x63) = some r)
    (out : s.geo.out = some o) (plain : o.item = false) (lone : o.cmd = none) :
    Runs .takenReceive s fun t => t.geo = { s.geo with out := none } ∧ t.bed = s.bed ∧ t.fl = s.fl := by
  have runs : exec .takenReceive s = .next ((s.without geodeLink r).mapGeo fun g => { g with out := none }) := by
    refine congrArg Host.Outcome.next ((withRecord_of_found _ found).trans ?_)
    simp [endOut, out, plain, lone]
  exact ⟨_, runs, rfl, rfl, rfl⟩

/-- A command that ends has left the list. -/
theorem finishOne_leaves (id : Nat) (st : Status) (a b : BitVec 64) (e : Bool) (s : State) :
    (finishOne id st a b e s).fl.cmds = mdel s.fl.cmds id ∨ mfind s.fl.cmds id = none ∧ finishOne id st a b e s = s := by
  unfold finishOne
  cases flight : mfind s.fl.cmds id with
  | none => exact .inr ⟨rfl, rfl⟩
  | some c =>
    refine .inl ?_
    dsimp only
    split <;> simp [State.mapFl]

theorem settleDeletes_keeps_gone (id n : Nat) (s : State) (gone : mfind s.fl.cmds id = none) : mfind (settleDeletes n s).fl.cmds id = none := by
  induction n generalizing s with
  | zero => exact gone
  | succ n ih =>
    unfold settleDeletes
    split
    · exact gone
    · next k ring _ =>
      refine ih _ ?_
      rcases finishOne_leaves k .success 0 0 true (s.mapHif fun h => { h with rings := mdel h.rings ring, pba := h.pba.filter (· ≠ ring) }) with left | ⟨_, same⟩
      · rw [left, mfind_mdel]
        split
        · rfl
        · exact gone
      · rw [same]
        exact gone

theorem finish_leaves (id : Nat) (st : Status) (a b : BitVec 64) (e : Bool) (s : State) : mfind (finish id st a b e s).fl.cmds id = none := by
  refine settleDeletes_keeps_gone id _ _ ?_
  rcases finishOne_leaves id st a b e s with left | ⟨gone, same⟩
  · rw [left, mfind_mdel, if_pos rfl]
  · rw [same]
    exact gone

theorem takenReceive_completes {r : List Byte} {o : GeoOut} {id : Nat} {s : State} (found : (link s geodeLink).recs.find? (isType 0x63) = some r)
    (out : s.geo.out = some o) (plain : o.item = false) (waits : o.cmd = some id) :
    Runs .takenReceive s fun t => t.geo.out = none ∧ t.bed = s.bed ∧ mfind t.fl.cmds id = none := by
  have runs : exec .takenReceive s = .next (finish id .success 0 0 true ((s.without geodeLink r).mapGeo fun g => { g with out := none })) := by
    refine congrArg Host.Outcome.next ((withRecord_of_found _ found).trans ?_)
    simp [endOut, out, plain, waits]
  refine ⟨_, runs, ?_, finish_bed .., finish_leaves ..⟩
  exact congrArg Geode.out (finish_geoCore id .success 0 0 true ((s.without geodeLink r).mapGeo fun g => { g with out := none }))

theorem geodeRampUpStart_ramps {i : GeoIn} {s : State} (inn : s.geo.inn = some i) (ready : i.dark = true ∨ i.lost = true) (waits : i.ramping = false) :
    Runs .geodeRampUpStart s fun t =>
      (∀ n l, mfind s.lanes.tab n = some l → l.port.isSome = true → (lane t n).mute = false) ∧ (∀ j, t.geo.inn = some j → j.ramping = true) ∧
        t.bed = s.bed := by
  have starts : ((i.dark || i.lost) && !i.ramping) = true := by simpa [waits] using ready
  have runs : exec .geodeRampUpStart s = .next (geodeRampUp s) := by
    simp only [exec, execGeodeRampUpStart, inn, starts, if_true]
  obtain ⟨inn', geo, ramps⟩ := geodeRampUp_geo s
  refine ⟨_, runs, fun n l => geodeRampUp_unmutes, fun j found => ?_, geodeRampUp_bed s⟩
  rw [geo] at found
  exact ramps j found

/-! ### Link loss -/

/-- What is left of the pairing as the link is seen to be down. -/
def State.linkGone (s : State) : State :=
  s.mapGeo fun g =>
    { g with wasUp := false, peer := none, hold := [], unacked := [], epochIn := none, echoAt := none, inn := g.inn.map fun i => { i with lost := true } }

section LinkLoss
variable {s : State} (down : geoUp s = false) (was : s.geo.wasUp = true)
include down was

theorem geodeLinkLoss_keeps (role : s.bed.geoRole ≠ 0) (stays : s.bed.geoSll = false) : Runs .geodeLinkLoss s fun t =>
    t.geo.peer = none ∧ t.geo.wasUp = false ∧ t.geo.hold = [] ∧ t.geo.unacked = [] ∧ t.bed = s.bed ∧ t.lanes = s.lanes := by
  have runs : exec .geodeLinkLoss s = .next s.linkGone := by
    have stays' : s.linkGone.bed.geoSll = false := stays
    simp only [exec, execGeodeLinkLoss, holdsRole, role, down, was, ← State.linkGone.eq_1, stays', ne_eq, not_false_eq_true, decide_true, Bool.not_true,
      Bool.false_eq_true, Bool.true_eq_false, or_self, true_or, or_true, if_false, if_true]
  exact ⟨_, runs, rfl, rfl, rfl, rfl, rfl, rfl⟩

theorem geodeLinkLoss_primary (role : s.bed.geoRole = 1) (sees : s.geo.blind = false) (free : s.geo.inn = none) (switch : s.bed.geoSll = true)
    (works : healthState s ≠ 3) : Runs .geodeLinkLoss s fun t => t.bed.geoRole = 2 ∧ t.geo.cause = 3 ∧ t.geo.wasUp = false ∧ t.geo.inSync = false := by
  have role' : roleNow s.linkGone = 1 := roleNow_of_primary role sees
  have free' : s.linkGone.geo.inn.isSome = false := by simp [State.linkGone, State.mapGeo, free]
  have switch' : s.linkGone.bed.geoSll = true := switch
  have runs : exec .geodeLinkLoss s = .next (post 0xB001 1 2 3 ((takeSecondary s.linkGone).mapGeo fun g => { g with cause := 3 })) := by
    simp [exec, execGeodeLinkLoss, holdsRole, role, down, was, ← State.linkGone.eq_1, role', free', switch', works]
  obtain ⟨inSync, -, wasUp, -⟩ := takeSecondary_geo s.linkGone
  refine ⟨_, runs, ?_⟩
  simp only [post_bed, post_geo, State.mapGeo, takeSecondary_bed, inSync, wasUp]
  exact ⟨trivial, trivial, rfl, trivial⟩

theorem geodeLinkLoss_secondary (role : s.bed.geoRole = 2) (free : s.geo.inn = none) (settled : s.geo.out = none) (switch : s.bed.geoSll = true)
    (works : healthState s ≠ 3) :
    Runs .geodeLinkLoss s fun t => t.bed.geoRole = 2 ∧ t.geo.lossSince = some s.now ∧ t.geo.peer = none := by
  have role' : roleNow s.linkGone = 2 := roleNow_of_secondary role
  have free' : s.linkGone.geo.inn.isSome = false := by simp [State.linkGone, State.mapGeo, free]
  have settled' : s.linkGone.geo.out.isSome = false := by simp [State.linkGone, State.mapGeo, settled]
  have switch' : s.linkGone.bed.geoSll = true := switch
  have works' : healthState s.linkGone ≠ 3 := works
  have runs : exec .geodeLinkLoss s = .next ((lightOn s.linkGone).mapGeo fun g => { g with lossSince := some s.now }) := by
    simp [exec, execGeodeLinkLoss, holdsRole, role, down, was, ← State.linkGone.eq_1, role', free', switch', settled', works']
    rfl
  exact ⟨_, runs, role, rfl, rfl⟩

end LinkLoss

theorem linkLossTakeover_takes {a : Nat} {s : State} (lost : s.geo.lossSince = some a) (down : geoUp s = false) (role : roleNow s = 2)
    (works : healthState s ≠ 3) (switch : s.bed.geoSll = true) :
    Runs .linkLossTakeover s fun t => t.bed.geoRole = 1 ∧ t.geo.cause = 3 ∧ t.geo.lossSince = none ∧ t.tim.servo = .freeRun := by
  have runs : exec .linkLossTakeover s = .next (geodeRampUp (post 0xB001 1 1 3
      ((takePrimary (some { GeoIn.init with cause := 3, lost := true }) s).mapGeo fun g => { g with cause := 3 }))) := by
    simp [exec, execLinkLossTakeover, lost, down, role, works, switch]
  have servo := takePrimary_servo (some { GeoIn.init with cause := 3, lost := true }) (isSecondary_of_role role)
  obtain ⟨inn, geo, -⟩ := geodeRampUp_geo (post 0xB001 1 1 3
      ((takePrimary (some { GeoIn.init with cause := 3, lost := true }) s).mapGeo fun g => { g with cause := 3 }))
  refine ⟨_, runs, ?_⟩
  dsimp only at geo ⊢
  rw [geodeRampUp_bed, geodeRampUp_tim, geo, post_bed, post_tim, post_geo]
  simp only [State.mapGeo, takePrimary_bed, takePrimary_geo, servo]
  exact ⟨trivial, trivial, trivial, trivial⟩

/-! ### The Geode commands (R437, R472) -/

@[simp] theorem roleNow_beginCmd (id : Nat) (c : Cmd) (s : State) : roleNow (beginCmd id c s) = roleNow s := rfl
@[simp] theorem peerCanTake_beginCmd (id : Nat) (c : Cmd) (s : State) : peerCanTake (beginCmd id c s) = peerCanTake s := rfl

theorem geodeSet_does {id : Nat} {c : Cmd} {s : State} (begins : Begins s id 0xB3 c) (plain : plainBad c 0 1 = false) (legal : c.byte 32 ≤ 1) :
    Does (.geodeSet id) id c s 0 0 fun x => x.mapBed fun b => { b with geoSll := decide (c.byte 32 = 1) } := by
  have bit : bitOf (c.byte 32) 0 = decide (c.byte 32 = 1) := by
    generalize c.byte 32 = b at legal
    interval_cases b <;> decide
  refine congrArg Host.Outcome.next (runCmd_of_ok begins ?_ ?_)
  · simp [firstFail, plain, Nat.not_lt.2 legal]
  · simp [bit, Ran.ok]

/-- A commanded handover makes the device secondary, and its command waits for TAKEN. -/
theorem handOver_commanded {o : GeoOut} (commanded : o.cause = 1) (s : State) : (handOver o s).bed.geoRole = 2 ∧
    (∃ x, (handOver o s).geo.out = some x ∧ x.cause = 1 ∧ x.cmd = o.cmd) ∧ (handOver o s).geo.cause = 1 ∧ (handOver o s).geo.inSync = false := by
  have hands : handOver o s = post 0xB001 1 2 o.cause (takeSecondary
      ((mirrorPush 2 0 ([0x61, BitVec.ofNat 8 o.cause] ++ zeros 6) s).mapGeo fun g => { g with out := some o, cause := o.cause })) := by
    unfold handOver
    dsimp only
    rw [if_pos commanded]
  obtain ⟨inSync, cause, -, dark, out⟩ := takeSecondary_geo ((mirrorPush 2 0 ([0x61, BitVec.ofNat 8 o.cause] ++ zeros 6) s).mapGeo fun g =>
    { g with out := some o, cause := o.cause })
  rw [hands, post_bed, post_geo, takeSecondary_bed, inSync, cause, out]
  exact ⟨rfl, ⟨_, rfl, commanded, rfl⟩, commanded, rfl⟩

section GeodeSwitchover
variable {id : Nat} {c : Cmd} {s : State} (begins : Begins s id 0xB4 c) (settled : s.tbl.commits = []) (plain : plainBad c 0 0 = false)
include begins settled plain

theorem geodeSwitchover_permission (role : roleNow s ≠ 1) : exec (.geodeSwitchover id) s = .next (finishFail id .permission (beginCmd id c s)) := by
  refine congrArg Host.Outcome.next ((if_neg (by simp [settled])).trans (runCmd_of_fail begins ?_ ?_))
  · simp [firstFail, plain]
  · simp [role]

theorem geodeSwitchover_unavailable (role : roleNow s = 1) (alone : peerCanTake s = false) :
    exec (.geodeSwitchover id) s = .next (finishFail id .peerUnavailable (beginCmd id c s)) := by
  refine congrArg Host.Outcome.next ((if_neg (by simp [settled])).trans (runCmd_of_fail begins ?_ ?_))
  · simp [firstFail, plain]
  · simp [role, alone]

theorem geodeSwitchover_hands {h : Hello} (role : roleNow s = 1) (ready : peerCanTake s = true) (peer : s.geo.peer = some h) (sync : h.inSync = true) :
    Runs (.geodeSwitchover id) s fun t =>
      t.bed.geoRole = 2 ∧ (∃ o, t.geo.out = some o ∧ o.cause = 1 ∧ o.cmd = some id) ∧ t.geo.cause = 1 ∧ t.geo.inSync = false := by
  refine ⟨handOver { GeoOut.init with cause := 1, cmd := some id } (awaitEnd id [] (beginCmd id c s)),
    congrArg Host.Outcome.next ((if_neg (by simp [settled])).trans ((runCmd_of_waiting begins ?_ rfl ?_).trans ?_)), ?_⟩
  · simp [firstFail, plain]
  · simp [role, ready, peer, sync]
  · simp [role, ready, peer, sync]
  · generalize awaitEnd id [] (beginCmd id c s) = u
    have handed := handOver_commanded (o := { GeoOut.init with cause := 1, cmd := some id }) rfl u
    exact handed

end GeodeSwitchover

theorem geodeStatus_does {id : Nat} {c : Cmd} {s : State} (begins : Begins s id 0xB5 c) (plain : plainBad c 0 0 = false) (alone : peerNow s = none) :
    Does (.geodeStatus id) id c s (BitVec.ofNat 64 (roleNow s + 16 * b2n (geoUp s) + 32 * 7 + 256 * s.geo.cause)) s.geo.mirrored fun x => x := by
  have unknown : peerNow (beginCmd id c s) = none := alone
  refine congrArg Host.Outcome.next (runCmd_of_ok begins ?_ ?_)
  · simp [firstFail, plain]
  · simp only [unknown, roleNow_beginCmd, Nat.mul_zero, Nat.add_zero]
    rfl

/-- Settles O54: the switchover by what taking a role does, the commands by their checks. -/
theorem geodeRolesAndCommands : Obligations.GeodeRolesAndCommands := by
  unfold Obligations.GeodeRolesAndCommands
  refine ⟨fun _ _ => handoverReceive_takes, fun _ _ => handoverReceive_reserved, fun _ _ => darkReceive_notes, ?_, ?_,
    fun _ _ => geodeRampUpStart_ramps, fun _ _ _ => takenReceive_ends, fun _ _ _ _ => takenReceive_completes, ?_,
    fun _ role down was => geodeLinkLoss_keeps down was role, fun _ role sees down was => geodeLinkLoss_primary down was role sees,
    fun _ role down was => geodeLinkLoss_secondary down was role, ?_, fun _ _ => linkLossTakeover_takes, fun _ _ _ => geodeSet_does,
    fun _ _ _ => geodeSwitchover_permission, fun _ _ _ => geodeSwitchover_unavailable, fun _ _ h _ begins settled plain => geodeSwitchover_hands begins settled plain (h := h), ?_,
    fun _ _ _ => geodeStatus_does⟩
  · intro s none
    simp only [exec, execGeodeRampUpStart, none]
  · intro i s inn notDark notLost
    simp only [exec, execGeodeRampUpStart, inn, notDark, notLost, Bool.or_self, Bool.false_and, Bool.false_eq_true, if_false]
  · intro s nothing
    have still : (!holdsRole s) = true ∨ geoUp s = true ∨ s.geo.wasUp = false := by simpa [holdsRole] using nothing
    simp only [exec, execGeodeLinkLoss, still, if_true]
  · intro s nothing
    have still : s.geo.lossSince.isNone = true ∨ geoUp s = true ∨ roleNow s ≠ 2 ∨ healthState s = 3 ∨ s.bed.geoSll = false := by
      rcases nothing with none | up | stays
      · exact .inl (by simp [none])
      · exact .inr (.inl up)
      · exact .inr (.inr (.inr (.inr stays)))
    simp only [exec, execLinkLossTakeover, still, if_true]
  · intro id s busy
    exact congrArg Host.Outcome.next (if_pos (by simpa using busy))

end Sys2Proof.Machine
end

section
/-! PROOFS. Scrubbing, repair, channel retrains and the arbiter. -/
namespace Sys2Proof.Machine

@[simp] theorem State_tick_mem_regions (s : State) : s.tick.mem.regions = s.mem.regions := (rfl)

@[simp] theorem ite_mem_regions {c : Prop} [Decidable c] (a b : State) :
    (if c then a else b).mem.regions = if c then a.mem.regions else b.mem.regions := apply_ite (fun s : State => s.mem.regions) c a b

@[simp] theorem foldl_mem_regions {α : Type} {f : State → α → State} (same : ∀ s a, (f s a).mem.regions = s.mem.regions) (l : List α) (s : State) :
    (l.foldl f s).mem.regions = s.mem.regions := by
  induction l generalizing s with
  | nil => rfl
  | cons a l ih => exact (ih (f s a)).trans (same s a)

@[simp] theorem forEach_mem_regions {f : Nat → State → State} (same : ∀ n s, (f n s).mem.regions = s.mem.regions) (l : List Nat) (s : State) :
    (forEach l f s).mem.regions = s.mem.regions :=
  foldl_mem_regions (fun s n => same n s) l s

@[simp] theorem modStack_mem_regions (m : Nat) (f : Stack → Stack) (s : State) : (modStack m f s).mem.regions = s.mem.regions := (rfl)

@[simp] theorem rowError_mem_regions (f : Found) (bad : Bool) (s : State) : (rowError f bad s).mem.regions = s.mem.regions := by
  unfold rowError
  split <;> simp

@[simp] theorem loseEvent_mem_regions (s : State) : (loseEvent s).mem.regions = s.mem.regions := congrArg (·.regions) (loseEvent_keeps s).mem

@[simp] theorem hostWrite_mem_regions (addr : Nat) (bytes : List Byte) (s : State) : (hostWrite addr bytes s).mem.regions = s.mem.regions := congrArg (·.regions) (hostWrite_keeps addr bytes s).mem

@[simp] theorem msixFire_mem_regions (v : Nat) (s : State) : (msixFire v s).mem.regions = s.mem.regions := congrArg (·.regions) (msixFire_keeps v s).mem

@[simp] theorem msixCount_mem_regions (v count n : Nat) (s : State) : (msixCount v count n s).mem.regions = s.mem.regions := congrArg (·.regions) (msixCount_keeps v count n s).mem

@[simp] theorem evqWrite_mem_regions (e : Event) (s : State) : (evqWrite e s).mem.regions = s.mem.regions := congrArg (·.regions) (evqWrite_keeps e s).mem

@[simp] theorem evqDrain_mem_regions (l : List Event) (s : State) : (evqDrain l s).2.mem.regions = s.mem.regions := by
  induction l generalizing s with
  | nil => rfl
  | cons e r ih =>
    unfold evqDrain
    split
    · rw [ih, evqWrite_mem_regions]
    · rfl

@[simp] theorem setHifErr_mem_regions (bits : BitVec 7) (s : State) : (setHifErr bits s).mem.regions = s.mem.regions := congrArg (·.regions) (setHifErr_keeps bits s).mem

@[simp] theorem deliverEvents_mem_regions (s : State) : (deliverEvents s).mem.regions = s.mem.regions := congrArg (·.regions) (deliverEvents_keeps s).mem

@[simp] theorem postEvent_mem_regions (e : Event) (s : State) : (postEvent e s).mem.regions = s.mem.regions := congrArg (·.regions) (postEvent_keeps e s).mem

@[simp] theorem post_mem_regions (code sev obj detail : Nat) (s : State) : (post code sev obj detail s).mem.regions = s.mem.regions := congrArg (·.regions) (post_keeps code sev obj detail s).mem

@[simp] theorem postUe_mem_regions (w : Reader) (r unit : Nat) (s : State) : (postUe w r unit s).mem.regions = s.mem.regions := by
  simp [postUe]

@[simp] theorem mirrorDrain_mem_regions (n : Nat) (s : State) : (mirrorDrain n s).mem.regions = s.mem.regions := by
  induction n generalizing s with
  | zero => rfl
  | succ n ih =>
    unfold mirrorDrain
    split
    · rfl
    · split
      · rfl
      · rw [ih]
        rfl

@[simp] theorem mirrorPush_mem_regions (k num : Nat) (b : List Byte) (s : State) : (mirrorPush k num b s).mem.regions = s.mem.regions := by
  unfold mirrorPush
  rw [mirrorDrain_mem_regions]
  rfl

@[simp] theorem mirrorConfig_mem_regions (op target : Nat) (inl data : List Byte) (s : State) : (mirrorConfig op target inl data s).mem.regions = s.mem.regions := by
  unfold mirrorConfig
  rw [mirrorPush_mem_regions]
  rfl

@[simp] theorem mirrorCmd_mem_regions (c : Cmd) (st : Status) (s : State) : (mirrorCmd c st s).mem.regions = s.mem.regions := congrArg (·.regions) (mirrorCmd_done c st s).mem

@[simp] theorem profEvent_mem_regions (ev inst n : Nat) (s : State) : (profEvent ev inst n s).mem.regions = s.mem.regions := congrArg (·.regions) (profEvent_done ev inst n s).mem

@[simp] theorem ringError_mem_regions (r cause : Nat) (s : State) : (ringError r cause s).mem.regions = s.mem.regions := congrArg (·.regions) (ringError_keeps r cause s).mem

@[simp] theorem writeCompletion_mem_regions (c : Completion) (s : State) : (writeCompletion c s).mem.regions = s.mem.regions := congrArg (·.regions) (writeCompletion_keeps c s).mem

@[simp] theorem finishOne_mem_regions (id : Nat) (st : Status) (r0 r1 : BitVec 64) (eff : Bool) (s : State) : (finishOne id st r0 r1 eff s).mem.regions = s.mem.regions := congrArg (·.regions) (finishOne_done id st r0 r1 eff s).mem

@[simp] theorem settleDeletes_mem_regions (n : Nat) (s : State) : (settleDeletes n s).mem.regions = s.mem.regions := by
  induction n generalizing s with
  | zero => rfl
  | succ n ih =>
    unfold settleDeletes
    split
    · rfl
    · rw [ih, finishOne_mem_regions]
      rfl

@[simp] theorem finish_mem_regions (id : Nat) (st : Status) (r0 r1 : BitVec 64) (eff : Bool) (s : State) : (finish id st r0 r1 eff s).mem.regions = s.mem.regions := congrArg (·.regions) (finish_done id st r0 r1 eff s).mem

@[simp] theorem endProposal_mem_regions (item : Nat) (st : Status) (s : State) : (endProposal item st s).mem.regions = s.mem.regions := congrArg (·.regions) (endProposal_cause item st s).mem

@[simp] theorem abortProposals_mem_regions (s : State) : (abortProposals s).mem.regions = s.mem.regions := congrArg (·.regions) (abortProposals_cause s).mem

@[simp] theorem setCauses_mem_regions (causes : BitVec 12) (s : State) : (setCauses causes s).mem.regions = s.mem.regions := congrArg (·.regions) (setCauses_cause causes s).mem

@[simp] theorem setCause_mem_regions (i : Nat) (s : State) : (setCause i s).mem.regions = s.mem.regions := by
  simp [setCause]

@[simp] theorem cellUe_mem_regions (cell : Nat) (s : State) : (cellUe cell s).mem.regions = s.mem.regions := by
  unfold cellUe
  split <;> simp

@[simp] theorem retrainCause_mem (s : State) : (retrainCause s).mem = s.mem := by
  simp [retrainCause]

@[simp] theorem repairCause_rep (s : State) : (repairCause s).rep = s.rep := by
  simp [repairCause]

@[simp] theorem repairCause_buf (s : State) : (repairCause s).buf = s.buf := by
  simp [repairCause]

@[simp] theorem repairCause_elog (s : State) : (repairCause s).elog = s.elog := by
  simp [repairCause]

@[simp] theorem poison_boot (r u : Nat) (s : State) : (poison r u s).boot = s.boot := (rfl)

@[simp] theorem writeWord_boot (r u : Nat) (bytes : List Byte) (bad : Bool) (s : State) : (writeWord r u bytes bad s).boot = s.boot := by
  simp [writeWord]

@[simp] theorem rowError_boot (f : Found) (bad : Bool) (s : State) : (rowError f bad s).boot = s.boot := by
  simp [rowError]

@[simp] theorem memCe_boot (r : Nat) (s : State) : (memCe r s).boot = s.boot := (rfl)

@[simp] theorem postUe_boot (w : Reader) (r unit : Nat) (s : State) : (postUe w r unit s).boot = s.boot := by
  simp [postUe]

@[simp] theorem regionCount_boot (r k n : Nat) (s : State) : (regionCount r k n s).boot = s.boot := (rfl)

@[simp] theorem memUe_boot (w : Reader) (r unit : Nat) (s : State) : (memUe w r unit s).boot = s.boot := by
  simp [memUe]

@[simp] theorem cellUe_boot (cell : Nat) (s : State) : (cellUe cell s).boot = s.boot := by
  simp [cellUe]

@[simp] theorem memRead_boot (w : Reader) (f : Found) (s : State) : (memRead w f s).boot = s.boot := by
  unfold memRead
  split <;> simp

@[simp] theorem writeBack_boot (f : Found) (s : State) : (writeBack f s).boot = s.boot := by
  unfold writeBack
  split <;> simp

/-! ## Regions, stacks and channels -/

theorem region_congr {s t : State} (same : t.mem.regions = s.mem.regions) (r : Nat) : region t r = region s r := by rw [region, same, region]

/-- What a change of a region leaves of it, it leaves of every region. -/
theorem region_modRegion_part {α : Type} (part : Region → α) {f : Region → Region} (same : ∀ g, part (f g) = part g) (r k : Nat) (s : State) :
    part (region (modRegion r f s) k) = part (region s k) := by
  by_cases own : k = r
  · rw [own, region_modRegion_same, same]
  · rw [region_modRegion_other f s own]

theorem stack_modStack_other {m k : Nat} (f : Stack → Stack) (s : State) (other : k ≠ m) : stack (modStack m f s) k = stack s k := by
  simp [stack, modStack, State.mapMem, mmod, mget, mfind_mput, other]

@[simp] theorem channel_modChannel_same (k : Nat) (f : Channel → Channel) (s : State) : channel (modChannel k f s) k = f (channel s k) := by
  simp [channel, modChannel, State.mapMem, mmod, mget, mfind_mput]

theorem channel_modChannel_other {k j : Nat} (f : Channel → Channel) (s : State) (other : j ≠ k) : channel (modChannel k f s) j = channel s j := by
  simp [channel, modChannel, State.mapMem, mmod, mget, mfind_mput, other]

theorem channel_congr {s t : State} (same : t.mem = s.mem) (k : Nat) : channel t k = channel s k := by rw [channel, same, channel]

@[simp] theorem channel_modStack (m k : Nat) (f : Stack → Stack) (s : State) : channel (modStack m f s) k = channel s k := rfl
@[simp] theorem stack_modChannel (m k : Nat) (f : Channel → Channel) (s : State) : stack (modChannel k f s) m = stack s m := rfl

theorem ctrOf_ctrAdd_other (m : Map Ctr) {k j : Nat} (a : Nat) (other : j ≠ k) : ctrOf (ctrAdd m k a) j = ctrOf m j := by
  simp [ctrOf, ctrAdd, mmod, mget_mput_other _ _ _ other]

/-- A cause of health is what was put there. -/
theorem putCause_bit {i : Nat} (twelve : i < 12) (on : Bool) (s : State) : (putCause i on s).health.causes.getLsbD i = on := by
  have one : (1 : BitVec 12).getLsbD (i - i) = true := by simp
  cases on
  · simp only [putCause, Bool.false_eq_true, if_false, clearCause, setCauses_health, BitVec.getLsbD_and, BitVec.getLsbD_not, BitVec.getLsbD_shiftLeft,
      Nat.lt_irrefl, decide_false, Bool.not_false, one, Bool.and_true, twelve, decide_true, Bool.not_true, Bool.and_false]
  · simp only [putCause, if_true, setCause, setCauses_health, BitVec.getLsbD_or, BitVec.getLsbD_shiftLeft, Nat.lt_irrefl, decide_false, Bool.not_false,
      one, Bool.and_true, twelve, decide_true, Bool.or_true]

theorem contains_linsert (l : List Nat) (k : Nat) : (linsert l k).contains k = true := by
  induction l with
  | nil => simp [linsert]
  | cons j r ih =>
    rw [linsert]
    split
    · simp
    · split
      · next same => simp [same]
      · simp only [List.contains_cons, ih, Bool.or_true]

/-! ## Scrubbing (R339) -/

section MemRead
variable (w : Reader) (f : Found) (s : State)

variable {f s} in
theorem memRead_regions_uncorrectable (bad : readOutcome s f = .uncorrectable) :
    (memRead w f s).mem.regions = (regionCount (homeRegion f.region) 1 1 s).mem.regions := by
  simp only [memRead, bad]
  split <;> simp [memUe]

variable {f s} in
theorem memRead_regions_corrected {x : Nat} (fixed : readOutcome s f = .corrected x) :
    (memRead w f s).mem.regions = (memCe (homeRegion f.region) s).mem.regions := by
  simp [memRead, fixed]

end MemRead

section ScrubStep
variable {k fl sl : Nat} {s : State} (scrubber : k ≤ 4)

/-- The word that scrubber `k` reads at its position, as it finds it. -/
def scrubFound (k p fl sl : Nat) : Found := { region := (scrubAt k p).1, unit := (scrubAt k p).2, flips := fl, slip := sl }

/-- The next position of a scrubber that has not reached the end. -/
def State.scrubNext (k p : Nat) (s : State) : State := modRegion (scrubHome k).1 (fun g => { g with scrub := p + 1 }) s

theorem poisoned_scrubNext (p r u : Nat) (s : State) : poisoned (s.scrubNext k p) r u = poisoned s r u :=
  congrArg (·.contains u) (region_modRegion_part Region.bad (by intro g; rfl) ..)

theorem ctr_scrubNext (p r : Nat) (s : State) : (region (s.scrubNext k p) r).ctr = (region s r).ctr :=
  region_modRegion_part Region.ctr (by intro g; rfl) ..

include scrubber

theorem scrubStep_goesOn (ready : initDone s (homeRegion (scrubAt k (region s (scrubHome k).1).scrub).1) = true)
    (on : scrubGoesOn k (region s (scrubHome k).1).scrub = true)
    (memory : (scrubAt k (region s (scrubHome k).1).scrub).1 < 69 ∨
      readOutcome s (scrubFound k (region s (scrubHome k).1).scrub fl sl) = .clean) :
    exec (.scrubStep k fl sl) s = .next ((writeBack (scrubFound k (region s (scrubHome k).1).scrub fl sl) s).scrubNext k
      (region s (scrubHome k).1).scrub) := by
  have harmless : (unitBad s (scrubFound k (region s (scrubHome k).1).scrub fl sl) &&
      decide ((scrubAt k (region s (scrubHome k).1).scrub).1 = 70)) = false := by
    rcases memory with on_die | clean
    · simp only [show (scrubAt k (region s (scrubHome k).1).scrub).1 ≠ 70 by omega, decide_false, Bool.and_false]
    · simp [unitBad, clean]
  simp only [scrubFound] at harmless
  simp only [exec, execScrubStep, Nat.not_lt.2 scrubber, ready, Bool.true_eq_false, or_self, if_false, harmless, Bool.false_eq_true, on, if_true,
    State.scrubNext, scrubFound]

theorem scrubStep_passEnd (ready : initDone s (homeRegion (scrubAt k (region s (scrubHome k).1).scrub).1) = true)
    (last : scrubGoesOn k (region s (scrubHome k).1).scrub = false)
    (clean : readOutcome s (scrubFound k (region s (scrubHome k).1).scrub fl sl) = .clean) : Runs (.scrubStep k fl sl) s fun t =>
      (region t (scrubHome k).1).scrub = 0 ∧ (region t (scrubHome k).1).passAt = s.now ∧
      ctrOf (region t (scrubHome k).1).ctr 4 = (ctrOf (region s (scrubHome k).1).ctr 4).add 1 ∧
      (∀ r, r ≠ (scrubHome k).1 → region t r = region s r) := by
  have same : writeBack (scrubFound k (region s (scrubHome k).1).scrub fl sl) s = s := by simp only [writeBack, clean]
  have harmless : unitBad s (scrubFound k (region s (scrubHome k).1).scrub fl sl) = false := by simp [unitBad, clean]
  simp only [scrubFound] at harmless same
  have runs : exec (.scrubStep k fl sl) s = .next
      (if decide (scrubPeriod s k * 110 < (s.now - (region s (scrubHome k).1).passAt) * 100) = true then
        regionCount (scrubHome k).1 5 1 (modRegion (scrubHome k).1 (fun g => { g with scrub := 0, passAt := s.now }) (regionCount (scrubHome k).1 4 1 s))
      else modRegion (scrubHome k).1 (fun g => { g with scrub := 0, passAt := s.now }) (regionCount (scrubHome k).1 4 1 s)) := by
    simp only [exec, execScrubStep, Nat.not_lt.2 scrubber, ready, Bool.true_eq_false, or_self, if_false, harmless, Bool.false_and, Bool.false_eq_true,
      last, same]
  refine ⟨_, runs, ?_⟩
  dsimp only
  split
  · simp only [regionCount, region_modRegion_same]
    exact ⟨trivial, trivial, (ctrOf_ctrAdd_other _ _ (by decide)).trans (ctrOf_ctrAdd ..), fun r other => by
      rw [region_modRegion_other _ _ other, region_modRegion_other _ _ other, region_modRegion_other _ _ other]⟩
  · simp only [regionCount, region_modRegion_same]
    exact ⟨trivial, trivial, ctrOf_ctrAdd .., fun r other => by rw [region_modRegion_other _ _ other, region_modRegion_other _ _ other]⟩

end ScrubStep

/-- A region that keeps counters of its own. -/
theorem homeRegion_of_lt {r : Nat} (own : r < 69) : homeRegion r = r := by
  simp only [homeRegion, show ¬ 68 < r by omega, if_false]

/-- An uncorrectable word that was not poisoned is counted and written back poisoned. -/
theorem writeBack_uncorrectable {f : Found} {s : State} (own : f.region < 69) (fresh : poisoned s f.region f.unit = false)
    (bad : readOutcome s f = .uncorrectable) : poisoned (writeBack f s) f.region f.unit = true ∧
      ctrOf (region (writeBack f s) f.region).ctr 1 = (ctrOf (region s f.region).ctr 1).add 1 := by
  have counted := region_congr (memRead_regions_uncorrectable .scrubber bad) f.region
  have back : writeBack f s = writeWord f.region f.unit (readData s f) true (memRead .scrubber f s) := by
    simp only [writeBack, bad, fresh, Bool.false_eq_true, if_false]
  rw [back]
  simp only [writeWord, if_true, poison, poisoned, region_modRegion_same, counted, regionCount, homeRegion_of_lt own]
  exact ⟨contains_linsert .., ctrOf_ctrAdd ..⟩

/-- What is cleansed is no longer poisoned, and nothing else of a region changes. -/
theorem cleanse_region (r lo hi k : Nat) (s : State) : region (cleanse r lo hi s) k = region s k ∨
    k = r ∧ region (cleanse r lo hi s) k = { region s r with bad := (region s r).bad.filter fun u => decide (u < lo) || decide (hi < u) } := by
  unfold cleanse
  split
  · by_cases own : k = r
    · exact .inr ⟨own, by rw [own, region_modRegion_same]⟩
    · exact .inl (region_modRegion_other _ _ own)
  · exact .inl rfl

theorem cleanse_clean (r u : Nat) (s : State) : poisoned (cleanse r u u s) r u = false := by
  unfold cleanse poisoned
  split
  · rw [region_modRegion_same]
    simp
  · next none =>
    simp only [List.any_eq_true, not_exists, not_and, Bool.and_eq_true, decide_eq_true_eq] at none
    simp only [List.contains_eq_mem, decide_eq_false_iff_not]
    intro mem
    exact none u mem le_rfl le_rfl

/-- A corrected word is counted and written back clean. -/
theorem writeBack_corrected {f : Found} {x : Nat} {s : State} (own : f.region < 69) (fixed : readOutcome s f = .corrected x) :
    poisoned (writeBack f s) f.region f.unit = false ∧
      ctrOf (region (writeBack f s) f.region).ctr 0 = (ctrOf (region s f.region).ctr 0).add 1 := by
  have counted := region_congr (memRead_regions_corrected .scrubber fixed) f.region
  simp only [writeBack, fixed, writeWord, Bool.false_eq_true, if_false]
  refine ⟨cleanse_clean .., ?_⟩
  have kept : ∀ t : State, (region (cleanse f.region f.unit f.unit t) f.region).ctr = (region t f.region).ctr := by
    intro t
    rcases cleanse_region f.region f.unit f.unit f.region t with same | ⟨_, same⟩ <;> rw [same]
  rw [kept, region_modRegion_same, counted, memCe, homeRegion_of_lt own, region_modRegion_same]
  exact ctrOf_ctrAdd ..

section ScrubWrites
variable {k p fl sl : Nat} {s : State} (scrubber : k ≤ 4) (position : (region s (scrubHome k).1).scrub = p)
  (ready : initDone s (homeRegion (scrubAt k p).1) = true) (on : scrubGoesOn k p = true)
include scrubber position ready on

theorem scrubStep_clean (clean : readOutcome s { region := (scrubAt k p).1, unit := (scrubAt k p).2, flips := fl, slip := sl } = .clean) :
    exec (.scrubStep k fl sl) s = .next (modRegion (scrubHome k).1 (fun g => { g with scrub := p + 1 }) s) := by
  subst position
  rw [scrubStep_goesOn scrubber ready on (.inr clean)]
  have same : writeBack (scrubFound k (region s (scrubHome k).1).scrub fl sl) s = s := by
    simp only [writeBack, scrubFound, clean]
  rw [same]
  rfl

theorem scrubStep_uncorrectable (own : (scrubAt k p).1 < 69) (fresh : poisoned s (scrubAt k p).1 (scrubAt k p).2 = false)
    (bad : readOutcome s { region := (scrubAt k p).1, unit := (scrubAt k p).2, flips := fl, slip := sl } = .uncorrectable) :
    Runs (.scrubStep k fl sl) s fun t => poisoned t (scrubAt k p).1 (scrubAt k p).2 = true ∧
      ctrOf (region t (scrubAt k p).1).ctr 1 = (ctrOf (region s (scrubAt k p).1).ctr 1).add 1 ∧ (region t (scrubHome k).1).scrub = p + 1 := by
  subst position
  obtain ⟨written, counted⟩ := writeBack_uncorrectable (f := scrubFound k (region s (scrubHome k).1).scrub fl sl) own fresh bad
  refine ⟨_, scrubStep_goesOn scrubber ready on (.inl own), ?_, ?_, by simp only [State.scrubNext, region_modRegion_same]⟩
  · rw [poisoned_scrubNext]
    exact written
  · rw [ctr_scrubNext]
    exact counted

theorem scrubStep_corrected {x : Nat} (own : (scrubAt k p).1 < 69)
    (fixed : readOutcome s { region := (scrubAt k p).1, unit := (scrubAt k p).2, flips := fl, slip := sl } = .corrected x) :
    Runs (.scrubStep k fl sl) s fun t => poisoned t (scrubAt k p).1 (scrubAt k p).2 = false ∧
      ctrOf (region t (scrubAt k p).1).ctr 0 = (ctrOf (region s (scrubAt k p).1).ctr 0).add 1 ∧ (region t (scrubHome k).1).scrub = p + 1 := by
  subst position
  obtain ⟨written, counted⟩ := writeBack_corrected (f := scrubFound k (region s (scrubHome k).1).scrub fl sl) own fixed
  refine ⟨_, scrubStep_goesOn scrubber ready on (.inl own), ?_, ?_, by simp only [State.scrubNext, region_modRegion_same]⟩
  · rw [poisoned_scrubNext]
    exact written
  · rw [ctr_scrubNext]
    exact counted

end ScrubWrites

/-! ## The corrected-error window (R340) -/

/-- The limit of a region's corrected errors an hour. -/
def Mem.ceLimit (m : Mem) (r : Nat) : Nat := if r ≤ 64 then m.ceOd else m.ceHbm

/-- A region after its hour. -/
def Region.hourPassed (limit : Nat) (g : Region) : Region :=
  if limit ≠ 0 ∧ limit < g.ceHour then { g with ceHour := 0, overAt := some 0 }
  else { g with ceHour := 0, overAt := g.overAt.bind fun k => if 24 ≤ k + 1 then none else some (k + 1) }

theorem hourPassed_ceHour (limit : Nat) (g : Region) : (g.hourPassed limit).ceHour = 0 ∧ (g.hourPassed limit).cells = g.cells := by
  unfold Region.hourPassed
  split <;> exact ⟨rfl, rfl⟩

theorem modRegion_congr {r : Nat} {f g : Region → Region} {s : State} (same : f (region s r) = g (region s r)) : modRegion r f s = modRegion r g s := by
  have parts : f (mget s.mem.regions r Region.init) = g (mget s.mem.regions r Region.init) := same
  simp only [modRegion, State.mapMem, mmod, parts]

/-- The hour passes for region `r`, unless that would change nothing. -/
theorem ceHour_mem (r : Nat) (s : State) : (ceHour r s).mem = (modRegion r (Region.hourPassed (s.mem.ceLimit r)) s).mem ∨
    (ceHour r s).mem = s.mem ∧ (region s r).hourPassed (s.mem.ceLimit r) = region s r := by
  have limit : (if r ≤ 64 then s.mem.ceOd else s.mem.ceHbm) = s.mem.ceLimit r := rfl
  unfold ceHour
  simp only [limit]
  by_cases above : s.mem.ceLimit r ≠ 0 ∧ s.mem.ceLimit r < (region s r).ceHour
  · refine .inl ?_
    rw [if_pos above, post_mem]
    exact congrArg State.mem (modRegion_congr (by rw [Region.hourPassed, if_pos above]))
  · rw [if_neg above]
    by_cases idle : (region s r).ceHour = 0 ∧ (region s r).overAt = none
    · rw [if_pos idle]
      refine .inr ⟨rfl, ?_⟩
      obtain ⟨none, noTime⟩ := idle
      rw [Region.hourPassed, if_neg above, noTime, Option.bind_none, ← none, ← noTime]
    · rw [if_neg idle]
      refine .inl (congrArg State.mem (modRegion_congr ?_))
      rw [Region.hourPassed, if_neg above]
      cases (region s r).overAt <;> rfl

theorem ceHour_limits (r k : Nat) (s : State) : (ceHour r s).mem.ceLimit k = s.mem.ceLimit k := by
  rcases ceHour_mem r s with changed | ⟨same, _⟩
  · rw [changed]
    rfl
  · rw [same]

theorem region_ceHour (r k : Nat) (s : State) : region (ceHour r s) k = if k = r then (region s r).hourPassed (s.mem.ceLimit r) else region s k := by
  rcases ceHour_mem r s with changed | ⟨same, idle⟩
  · rw [region_congr (congrArg Mem.regions changed)]
    split
    · next own => rw [own, region_modRegion_same]
    · next other => rw [region_modRegion_other _ _ other]
  · rw [region_congr (congrArg Mem.regions same)]
    split
    · next own => rw [own, idle]
    · rfl

/-- The hour passes once for each region of a list. -/
theorem region_forEach_ceHour : ∀ (l : List Nat) (s : State), l.Nodup →
    ∀ r, region (forEach l ceHour s) r = if r ∈ l then (region s r).hourPassed (s.mem.ceLimit r) else region s r
  | [], _, _, r => by simp [forEach]
  | k :: l, s, once, r => by
    obtain ⟨fresh, rest⟩ := List.nodup_cons.1 once
    have head : forEach (k :: l) ceHour s = forEach l ceHour (ceHour k s) := rfl
    rw [head, region_forEach_ceHour l (ceHour k s) rest r, ceHour_limits, region_ceHour]
    by_cases own : r = k
    · subst own
      simp [fresh]
    · simp [own]

theorem ceHourWindow_runs (s : State) : Runs .ceHourWindow s fun t =>
    (∀ r, r < 69 → (region t r).ceHour = 0 ∧ (region t r).cells = (region s r).cells ∧
      ((if r ≤ 64 then s.mem.ceOd else s.mem.ceHbm) ≠ 0 → (if r ≤ 64 then s.mem.ceOd else s.mem.ceHbm) < (region s r).ceHour →
        (region t r).overAt = some 0)) ∧
    t.health.causes.getLsbD 2 = many t.mem.regions (fun _ g => g.overAt.isSome) := by
  refine ⟨_, rfl, fun r own => ?_, ?_⟩
  · have passed : region (putCause 2 (many (forEach (List.range 69) ceHour s).mem.regions fun _ g => g.overAt.isSome)
        (forEach (List.range 69) ceHour s)) r = (region s r).hourPassed (s.mem.ceLimit r) := by
      rw [region_congr (congrArg Mem.regions (putCause_mem ..)), region_forEach_ceHour _ _ List.nodup_range, if_pos (List.mem_range.2 own)]
    obtain ⟨cleared, kept⟩ := hourPassed_ceHour (s.mem.ceLimit r) (region s r)
    dsimp only
    rw [passed]
    exact ⟨cleared, kept, fun limit above => by
      rw [Region.hourPassed, if_pos (show s.mem.ceLimit r ≠ 0 ∧ s.mem.ceLimit r < (region s r).ceHour from ⟨limit, above⟩)]⟩
  · dsimp only
    rw [putCause_bit (by decide), putCause_mem]

/-! ## HBM repair (R342 to R344) -/

section SoftRepair
variable {m ch bank row : Nat} {pages : List Nat} {s : State} (four : m ≤ 3) (idle : (stack s m).repairAt = none) (warm : s.bed.boActive = false)
  (ready : initDone s (65 + m) = true) (qualifies : rowQualifies s m ch bank row = true)

/-- The row's errors are forgotten. -/
theorem rowQualifies_forgetRow (m ch bank row : Nat) (s t : State) (same : t.mem = (forgetRow m ch bank row s).mem) :
    rowQualifies t m ch bank row = false := by
  have none : ∀ now, ((stack t m).errs.filter fun e => inRow m ch bank row e.unit && (e.bad || decide (now < e.time + 24 * hourNs))) = [] := by
    intro now
    rw [stack_congr m same, forgetRow, stack_modStack_same, List.filter_filter, List.filter_eq_nil_iff]
    intro e _
    cases inRow m ch bank row e.unit <;> simp
  simp [rowQualifies, none]

include four idle warm ready qualifies

theorem softRepair_repairs {j : Nat} (slot : softSlot s m = some j) : Runs (.softRepair m ch bank row true [] pages) s fun t =>
    mfind t.rep.soft j = some (ch, bank, row) ∧ (∀ k, k ≠ j → mfind t.rep.soft k = mfind s.rep.soft k) ∧
      (stack t m).soft = (stack s m).soft.add 1 ∧ (stack t m).repairAt = some s.now ∧ t.elog.total = s.elog.total + 1 ∧ t.buf = s.buf := by
  have runs : exec (.softRepair m ch bank row true [] pages) s = .next (repairCause (post 0x4003 1 (65536 * m + ch) row
      (logErr 0x0007 (256 * m + ch) (2 ^ 24 * bank + row)
        (modStack m (fun x => { x with soft := x.soft.add 1, repairAt := some s.now, inForce := x.inForce ++ [(ch, bank, row)] })
          ((forgetRow m ch bank row s).mapRep fun r => { r with soft := mput r.soft j (ch, bank, row) }))))) := by
    simp [exec, execSoftRepair, idle, warm, ready, Nat.not_lt.2 four, qualifies, slot]
    rfl
  refine ⟨_, runs, ?_⟩
  dsimp only
  have mem := stack_congr m ((repairCause_mem (post 0x4003 1 (65536 * m + ch) row (logErr 0x0007 (256 * m + ch) (2 ^ 24 * bank + row)
    (modStack m (fun x => { x with soft := x.soft.add 1, repairAt := some s.now, inForce := x.inForce ++ [(ch, bank, row)] })
      ((forgetRow m ch bank row s).mapRep fun r => { r with soft := mput r.soft j (ch, bank, row) }))))).trans ((post_mem ..).trans (logErr_mem ..)))
  obtain ⟨logged, -⟩ := logErr_adds 0x0007 (256 * m + ch) (2 ^ 24 * bank + row)
    (modStack m (fun x => { x with soft := x.soft.add 1, repairAt := some s.now, inForce := x.inForce ++ [(ch, bank, row)] })
      ((forgetRow m ch bank row s).mapRep fun r => { r with soft := mput r.soft j (ch, bank, row) }))
  rw [mem, repairCause_rep, post_rep, logErr_rep, repairCause_elog, post_elog, logged, repairCause_buf, post_buf, logErr_buf, stack_modStack_same]
  have kept : (stack ((forgetRow m ch bank row s).mapRep fun r => { r with soft := mput r.soft j (ch, bank, row) }) m).soft = (stack s m).soft := by
    rw [show stack ((forgetRow m ch bank row s).mapRep fun r => { r with soft := mput r.soft j (ch, bank, row) }) m = stack (forgetRow m ch bank row s) m
      from rfl, forgetRow, stack_modStack_same]
  refine ⟨?_, fun k other => ?_, ?_, rfl, rfl, rfl⟩
  · exact (mfind_mput ..).trans (if_pos rfl)
  · exact (mfind_mput ..).trans (if_neg other)
  · rw [kept]

theorem softRepair_withdraws {l : List Found} : Runs (.softRepair m ch bank row false l pages) s fun t =>
    t.rep = s.rep ∧ t.buf.pagesOut = s.buf.pagesOut ++ (pages.filter (pageInRow s m ch bank row)).eraseDups ∧ t.mem.regions = s.mem.regions ∧
      rowQualifies t m ch bank row = false := by
  have runs : exec (.softRepair m ch bank row false l pages) s = .next (repairExhausted m ch bank row pages (forgetRow m ch bank row s)) := by
    simp [exec, execSoftRepair, idle, warm, ready, Nat.not_lt.2 four, qualifies]
    cases softSlot s m <;> rfl
  refine ⟨_, runs, ?_, ?_, ?_, ?_⟩
  · exact post_rep ..
  · exact congrArg Buffer.pagesOut (post_buf ..)
  · exact (congrArg Mem.regions (post_mem ..)).trans rfl
  · exact rowQualifies_forgetRow m ch bank row s _ (post_mem ..)

end SoftRepair

theorem softRepair_busy {m ch bank row a : Nat} {free : Bool} {pages : List Nat} {l : List Found} {s : State} (last : (stack s m).repairAt = some a)
    (soon : s.now < a + 1000000000) : exec (.softRepair m ch bank row free l pages) s = .next s := by
  simp [exec, execSoftRepair, last, soon]

theorem softRepair_sound {m ch bank row : Nat} {free : Bool} {pages : List Nat} {l : List Found} {s : State}
    (sound : rowQualifies s m ch bank row = false) : exec (.softRepair m ch bank row free l pages) s = .next s := by
  simp [exec, execSoftRepair, sound]

/-! ## Channel retrains and the arbiter (R345 to R349) -/

theorem mput_isEmpty {α : Type} (m : Map α) (k : Nat) (v : α) : (mput m k v).isEmpty = false := by
  cases put : mput m k v with
  | nil => exact absurd (mfind_mput m k k v) (by simp [put, mfind])
  | cons _ _ => rfl

section Retrain
variable {m ch : Nat} {s : State} (four : m ≤ 3) (channels : ch ≤ 31) (ready : initDone s (65 + m) = true)
include four channels ready

theorem hbmChannelRetrain_accepted (warm : s.bed.boActive = false) : Runs (.hbmChannelRetrain m ch true) s fun t =>
    (channel t (32 * m + ch)).rejects = 0 ∧ (channel t (32 * m + ch)).retrains = (channel s (32 * m + ch)).retrains.add 1 ∧
      (channel t (32 * m + ch)).due = false ∧ (∀ k, k ≠ 32 * m + ch → channel t k = channel s k) := by
  have runs : exec (.hbmChannelRetrain m ch true) s = .next (retrainCause
      ((modChannel (32 * m + ch) (fun c => { c with rejects := 0 })
        (modChannel (32 * m + ch) (fun c => { c with due := false, retrains := c.retrains.add 1 }) s)).mapHealth fun h =>
          { h with hbmRetrFail := (mmap h.hbmRetrFail fun j n => if j = 32 * m + ch then n + 1 else n).filter fun e => decide (e.2 < 3600) })) := by
    simp only [exec, execHbmChannelRetrain, ready, Nat.not_lt.2 four, Nat.not_lt.2 channels, warm, decide_false, Bool.not_true, Bool.or_self,
      Bool.false_eq_true, if_false, if_true]
  have part : ∀ k, channel (retrainCause
      ((modChannel (32 * m + ch) (fun c => { c with rejects := 0 })
        (modChannel (32 * m + ch) (fun c => { c with due := false, retrains := c.retrains.add 1 }) s)).mapHealth fun h =>
          { h with hbmRetrFail := (mmap h.hbmRetrFail fun j n => if j = 32 * m + ch then n + 1 else n).filter fun e => decide (e.2 < 3600) })) k =
      channel (modChannel (32 * m + ch) (fun c => { c with rejects := 0 })
        (modChannel (32 * m + ch) (fun c => { c with due := false, retrains := c.retrains.add 1 }) s)) k := fun k => channel_congr (retrainCause_mem _) k
  refine ⟨_, runs, ?_⟩
  dsimp only
  simp only [part, channel_modChannel_same]
  exact ⟨trivial, trivial, trivial, fun k other => by rw [channel_modChannel_other _ _ other, channel_modChannel_other _ _ other]⟩

theorem hbmChannelRetrain_rejected (warm : s.bed.boActive = false) : Runs (.hbmChannelRetrain m ch false) s fun t =>
    (channel t (32 * m + ch)).rejects = (channel s (32 * m + ch)).rejects + 1 ∧
      (channel t (32 * m + ch)).rejected = (channel s (32 * m + ch)).rejected.add 1 ∧
      ((channel s (32 * m + ch)).rejects = 2 → t.health.causes.getLsbD 5 = true) ∧ (∀ k, k ≠ 32 * m + ch → channel t k = channel s k) := by
  have both : Runs (.hbmChannelRetrain m ch false) s fun t =>
      t.mem = (modChannel (32 * m + ch) (fun c => { c with rejects := c.rejects + 1, rejected := c.rejected.add 1 })
        (modChannel (32 * m + ch) (fun c => { c with due := false, retrains := c.retrains.add 1 }) s)).mem ∧
      ((channel s (32 * m + ch)).rejects = 2 → t.health.causes.getLsbD 5 = true) := by
    refine ⟨_, rfl, ?_⟩
    simp only [ready, Nat.not_lt.2 four, Nat.not_lt.2 channels, warm, decide_false, Bool.not_true, Bool.or_self, Bool.false_eq_true, if_false]
    split
    · refine ⟨by rw [post_mem, retrainCause_mem]; rfl, fun _ => ?_⟩
      rw [post_health, retrainCause, putCause_bit (by decide), State.mapHealth, mput_isEmpty]
      rfl
    · next other =>
      refine ⟨rfl, fun two => absurd (Eq.trans ?_ (congrArg (· + 1) two)) other⟩
      exact congrArg Channel.rejects ((channel_modChannel_same ..).trans (congrArg _ (channel_modChannel_same ..)))
  obtain ⟨t, runs, mem, cause⟩ := both
  refine ⟨t, runs, ?_, ?_, cause, fun k other => ?_⟩
  · rw [channel_congr mem, channel_modChannel_same, channel_modChannel_same]
  · rw [channel_congr mem, channel_modChannel_same, channel_modChannel_same]
  · rw [channel_congr mem, channel_modChannel_other _ _ other, channel_modChannel_other _ _ other]

theorem hbmChannelRetrain_frozen (a : Bool) (frozen : s.bed.boActive = true) :
    exec (.hbmChannelRetrain m ch a) s = .next (modChannel (32 * m + ch) (fun c => { c with due := true }) s) := by
  simp only [exec, execHbmChannelRetrain, ready, Nat.not_lt.2 four, Nat.not_lt.2 channels, frozen, decide_false, Bool.not_true, Bool.or_self,
    Bool.false_eq_true, if_false, if_true]

end Retrain

/-- Requests marked as overdue: a queue keeps its length, and nothing else of a channel changes. -/
theorem markOverdue_channel (k j : Nat) (s : State) : (channel (markOverdue k s) j).queue.length = (channel s j).queue.length ∧
    (channel (markOverdue k s) j).waiting = (channel s j).waiting := by
  unfold markOverdue
  dsimp only
  split
  · exact ⟨rfl, rfl⟩
  · rw [channel_modStack]
    by_cases own : j = k
    · rw [own, channel_modChannel_same]
      exact ⟨List.length_map .., rfl⟩
    · rw [channel_modChannel_other _ _ own]
      exact ⟨rfl, rfl⟩

theorem markOverdue_stamp (k : Nat) (s : State) (r : Req) : stampReq (markOverdue k s) r = stampReq s r := by
  unfold markOverdue
  dsimp only
  split <;> rfl

theorem markOverdue_of_empty {k : Nat} {s : State} (empty : (channel s k).queue = []) : markOverdue k s = s := by
  simp [markOverdue, empty]

theorem refill_of_none (k n : Nat) {s : State} (alone : (channel s k).waiting = []) : refill k n s = s := by
  cases n with
  | zero => rfl
  | succ n => simp [refill, alone, nextWaiter]

section RequestEnter
variable {m ch bank key : Nat} {w : Requester} {s : State} (four : m ≤ 3) (channels : ch ≤ 31)
include four channels

theorem hbmRequestEnter_enters (room : (channel s (32 * m + ch)).queue.length < 256) : Runs (.hbmRequestEnter m ch w bank key) s fun t =>
    (channel t (32 * m + ch)).queue.length = (channel s (32 * m + ch)).queue.length + 1 ∧
      (channel t (32 * m + ch)).queue.getLast? = some { Req.init with
        cls := requestClass w, bank := bank, id := key, entered := s.now, deadline := s.now + (s.mem.budget[requestClass w]?).getD 0 } ∧
      (channel t (32 * m + ch)).waiting = (channel s (32 * m + ch)).waiting := by
  obtain ⟨length, waiting⟩ := markOverdue_channel (32 * m + ch) (32 * m + ch) s
  have fits : (channel s (32 * m + ch)).queue.length < queueDepth := room
  have legal : ¬ (3 < m ∨ 31 < ch) := by omega
  refine ⟨_, rfl, ?_⟩
  dsimp only
  simp only [legal, if_false, channel_modChannel_same, fits, if_true, List.length_append, length, List.length_singleton, List.getLast?_append,
    List.getLast?_singleton, markOverdue_stamp, waiting, and_true, true_and]
  rfl

theorem hbmRequestEnter_waits (full : 256 ≤ (channel s (32 * m + ch)).queue.length) : Runs (.hbmRequestEnter m ch w bank key) s fun t =>
    (channel t (32 * m + ch)).queue.length = (channel s (32 * m + ch)).queue.length ∧
      (channel t (32 * m + ch)).waiting.length = (channel s (32 * m + ch)).waiting.length + 1 := by
  obtain ⟨length, waiting⟩ := markOverdue_channel (32 * m + ch) (32 * m + ch) s
  have waits : ¬ (channel s (32 * m + ch)).queue.length < queueDepth := Nat.not_lt.2 full
  have legal : ¬ (3 < m ∨ 31 < ch) := by omega
  refine ⟨_, rfl, ?_⟩
  dsimp only
  simp only [legal, if_false, channel_modChannel_same, waits, length, List.length_append, List.length_singleton, waiting, and_self]

end RequestEnter

theorem hbmRequestWithdraw_queued {m ch key : Nat} {r : Req} {s : State} (timely : markOverdue (32 * m + ch) s = s)
    (alone : (channel s (32 * m + ch)).waiting = []) (queued : (channel s (32 * m + ch)).queue.find? (fun r => decide (r.id = key)) = some r) :
    Runs (.hbmRequestWithdraw m ch key) s fun t =>
      (channel t (32 * m + ch)).queue = (channel s (32 * m + ch)).queue.erase r ∧ (stack t m).dead = (stack s m).dead := by
  have runs : exec (.hbmRequestWithdraw m ch key) s = .next (modChannel (32 * m + ch) (fun c => { c with queue := c.queue.erase r }) s) := by
    simp only [exec, execHbmRequestWithdraw, timely, queued]
    rw [refill_of_none _ _ (by rw [channel_modChannel_same]; exact alone)]
  exact ⟨_, runs, by rw [channel_modChannel_same], rfl⟩

theorem hbmRequestWithdraw_issued {m ch key : Nat} {r : Req} {s : State} (empty : (channel s (32 * m + ch)).queue = [])
    (alone : (channel s (32 * m + ch)).waiting = []) (issued : (channel s (32 * m + ch)).issued = some r) (mine : r.id = key) :
    Runs (.hbmRequestWithdraw m ch key) s fun t => (channel t (32 * m + ch)).issued = none ∧ (stack t m).dead = (stack s m).dead.add 1 := by
  have runs : exec (.hbmRequestWithdraw m ch key) s = .next (profEvent 0x0D m 1 (modStack m (fun x => { x with dead := x.dead.add 1 })
      (modChannel (32 * m + ch) (fun c => { c with issued := none }) s))) := by
    simp [exec, execHbmRequestWithdraw, markOverdue_of_empty empty, empty, alone, issued, mine]
  refine ⟨_, runs, ?_, ?_⟩
  · rw [channel_congr (profEvent_mem ..), channel_modStack, channel_modChannel_same]
  · rw [stack_congr m (profEvent_mem ..), stack_modStack_same, stack_modChannel]

/-! ### The request that a slot issues -/

/-- `r` is served no later than `x` (R347). -/
def Req.servedBefore (r x : Req) : Prop := r.deadline ≤ x.deadline ∧ (r.deadline = x.deadline → r.cls ≤ x.cls)

theorem Req.servedBefore_refl (r : Req) : r.servedBefore r := ⟨le_rfl, fun _ => le_rfl⟩

theorem Req.servedBefore_trans {a b c : Req} (h : a.servedBefore b) (g : b.servedBefore c) : a.servedBefore c := by
  obtain ⟨deadline, cls⟩ := h
  obtain ⟨deadline', cls'⟩ := g
  exact ⟨deadline.trans deadline', fun same => (cls (by omega)).trans (cls' (by omega))⟩

/-- The nearer of the best request so far and the next. -/
def nearer (o : Option Req) (r : Req) : Option Req :=
  match o with
  | none => some r
  | some x => if r.deadline < x.deadline ∨ (r.deadline = x.deadline ∧ r.cls < x.cls) then some r else some x

theorem pickReq_eq (busy : List Nat) (l : List Req) : pickReq busy l = (l.filter fun r => !busy.contains r.bank).foldl nearer none := rfl

/-- The best of some requests is one of them, and served before each. -/
theorem foldl_nearer : ∀ (l : List Req) (b : Req), ∃ r, l.foldl nearer (some b) = some r ∧ (r = b ∨ r ∈ l) ∧ r.servedBefore b ∧
    ∀ x, x ∈ l → r.servedBefore x
  | [], b => ⟨b, rfl, .inl rfl, b.servedBefore_refl, fun _ none => absurd none List.not_mem_nil⟩
  | y :: l, b => by
    have step : ∃ n, nearer (some b) y = some n ∧ (n = b ∨ n = y) ∧ n.servedBefore b ∧ n.servedBefore y := by
      unfold nearer
      dsimp only
      split
      · next near => exact ⟨y, rfl, .inr rfl, ⟨by omega, by omega⟩, y.servedBefore_refl⟩
      · next far => exact ⟨b, rfl, .inl rfl, b.servedBefore_refl, ⟨by omega, by omega⟩⟩
    obtain ⟨n, next, one, beforeB, beforeY⟩ := step
    obtain ⟨r, best, member, beforeN, beforeAll⟩ := foldl_nearer l n
    refine ⟨r, by rw [List.foldl_cons, next, best], ?_, Req.servedBefore_trans beforeN beforeB, fun x mem => ?_⟩
    · rcases member with rfl | later
      · rcases one with rfl | rfl
        · exact .inl rfl
        · exact .inr List.mem_cons_self
      · exact .inr (List.mem_cons_of_mem _ later)
    · rcases List.mem_cons.1 mem with rfl | later
      · exact Req.servedBefore_trans beforeN beforeY
      · exact beforeAll x later

theorem pickReq_spec {busy : List Nat} {l : List Req} {r : Req} (picked : pickReq busy l = some r) : r ∈ l ∧ busy.contains r.bank = false ∧
    ∀ x, x ∈ l → busy.contains x.bank = false → r.deadline ≤ x.deadline ∧ (r.deadline = x.deadline → r.cls ≤ x.cls) := by
  rw [pickReq_eq] at picked
  have open' : ∀ x, x ∈ l.filter (fun r => !busy.contains r.bank) ↔ x ∈ l ∧ busy.contains x.bank = false := by simp
  cases free : l.filter fun r => !busy.contains r.bank with
  | nil =>
    rw [free] at picked
    exact absurd picked (by simp)
  | cons b rest =>
    obtain ⟨best, found, member, beforeB, beforeAll⟩ := foldl_nearer rest b
    rw [free, List.foldl_cons, show nearer none b = some b from rfl, found] at picked
    obtain rfl := Option.some.inj picked
    obtain ⟨inList, free'⟩ := (open' best).1 (free ▸ List.mem_cons.2 member)
    refine ⟨inList, free', fun x mem idle => ?_⟩
    rcases List.mem_cons.1 (free ▸ (open' x).2 ⟨mem, idle⟩) with rfl | later
    · exact beforeB
    · exact beforeAll x later

theorem channelSlot_issues {m ch : Nat} {busy : List Nat} {r : Req} {s : State} (timely : markOverdue (32 * m + ch) s = s)
    (alone : (channel s (32 * m + ch)).waiting = []) (picked : pickReq busy (channel s (32 * m + ch)).queue = some r) :
    Runs (.channelSlot m ch busy) s fun t =>
      (channel t (32 * m + ch)).issued = some r ∧ (channel t (32 * m + ch)).queue = (channel s (32 * m + ch)).queue.erase r ∧
        (∀ k, k ≠ 32 * m + ch → channel t k = channel s k) := by
  have same : ∀ k, channel (profEvent 0x0C m 1 (modChannel (32 * m + ch) (fun c => { c with queue := c.queue.erase r, issued := some r }) s)) k =
      channel (modChannel (32 * m + ch) (fun c => { c with queue := c.queue.erase r, issued := some r }) s) k := fun k => channel_congr (profEvent_mem ..) k
  have runs : exec (.channelSlot m ch busy) s = .next (profEvent 0x0C m 1
      (modChannel (32 * m + ch) (fun c => { c with queue := c.queue.erase r, issued := some r }) s)) := by
    simp only [exec, execChannelSlot, timely, picked]
    rw [refill_of_none _ _ (by rw [same, channel_modChannel_same]; exact alone)]
  refine ⟨_, runs, ?_, ?_, fun k other => ?_⟩
  · rw [same, channel_modChannel_same]
  · rw [same, channel_modChannel_same]
  · rw [same, channel_modChannel_other _ _ other]

theorem channelSlot_idle {m ch : Nat} {busy : List Nat} {s : State} (empty : (channel s (32 * m + ch)).queue = [])
    (free : (channel s (32 * m + ch)).issued = none) : exec (.channelSlot m ch busy) s = .next s := by
  simp [exec, execChannelSlot, markOverdue_of_empty empty, empty, pickReq, free]

/-- Settles O48: the rows by the rules of regions, stacks and channels, the slot by the order in which requests are served. -/
theorem memoryRows : Obligations.MemoryRows := by
  unfold Obligations.MemoryRows
  exact ⟨fun _ _ _ _ _ => scrubStep_clean, fun _ _ _ _ _ => scrubStep_uncorrectable, fun _ _ _ _ _ _ scrubber position ready on => scrubStep_corrected scrubber position ready on,
    fun k p fl sl s scrubber position ready last clean => by
      subst position
      exact scrubStep_passEnd scrubber ready last clean,
    fun k fl sl s beyond => by simp [exec, execScrubStep, beyond], ceHourWindow_runs, fun _ _ _ _ _ _ _ four idle warm ready qualifies => softRepair_repairs four idle warm ready qualifies,
    fun _ _ _ _ _ _ _ four idle warm ready qualifies => softRepair_withdraws four idle warm ready qualifies, fun _ _ _ _ _ _ _ _ _ => softRepair_busy, fun _ _ _ _ _ _ _ _ => softRepair_sound,
    fun _ _ _ => hbmChannelRetrain_accepted, fun _ _ _ => hbmChannelRetrain_rejected,
    fun _ _ a _ four channels ready => hbmChannelRetrain_frozen four channels ready a, fun _ _ _ _ _ _ => hbmRequestEnter_enters,
    fun _ _ _ _ _ _ => hbmRequestEnter_waits, fun _ _ _ _ _ _ => hbmRequestWithdraw_queued, fun _ _ _ _ _ _ => hbmRequestWithdraw_issued,
    fun _ _ _ => pickReq_spec, fun _ _ _ _ _ => channelSlot_issues, fun _ _ _ _ => channelSlot_idle⟩

end Sys2Proof.Machine
end

section
/-! PROOFS. Cause 8 of health posts at most. -/
namespace Sys2Proof.Machine

/-- Cause [8] of health alone never makes a device FAILED, so no proposal ends by it: it posts the new state at most. -/
theorem setCause_four_cases (s : State) : (∃ f, setCause 4 s = s.mapHealth f) ∨
    ∃ f g v o d, setCause 4 s = post 0x9004 v o d ((s.mapHealth f).mapMgmt g) := by
  unfold setCause setCauses
  dsimp only
  split
  · exact .inl ⟨_, rfl⟩
  · next changed =>
    have worse : healthOf (s.health.causes ||| (1 : BitVec 12) <<< 4) ≠ 3 := by
      intro failed
      refine changed (failed.trans ?_)
      have bit : (s.health.causes ||| (1 : BitVec 12) <<< 4).getLsbD 11 = s.health.causes.getLsbD 11 := by
        rw [BitVec.getLsbD_or, show ((1 : BitVec 12) <<< 4).getLsbD 11 = false by decide, Bool.or_false]
      have old : s.health.causes.getLsbD 11 = true := by
        rw [← bit]
        by_contra none
        rw [healthOf, if_neg none] at failed
        split at failed
        · exact absurd failed (by decide)
        · split at failed <;> exact absurd failed (by decide)
      rw [healthState, healthOf, if_pos old]
    rw [if_neg worse]
    exact .inr ⟨_, _, _, _, _, rfl⟩

@[simp] theorem setCause_four_gar (s : State) : (setCause 4 s).gar = s.gar := by
  rcases setCause_four_cases s with ⟨f, same⟩ | ⟨f, g, v, o, d, same⟩ <;> rw [same]
  · rfl
  · rw [post_gar]
    rfl

end Sys2Proof.Machine
end

section
/-! PROOFS. The table pipelines and the switch of an epoch. -/
namespace Sys2Proof.Machine

@[simp] theorem modStack_gar (m : Nat) (f : Stack → Stack) (s : State) : (modStack m f s).gar = s.gar := (rfl)

@[simp] theorem rowError_gar (f : Found) (bad : Bool) (s : State) : (rowError f bad s).gar = s.gar := by
  simp [rowError]

@[simp] theorem modRegion_gar (r : Nat) (f : Region → Region) (s : State) : (modRegion r f s).gar = s.gar := (rfl)

@[simp] theorem memCe_gar (r : Nat) (s : State) : (memCe r s).gar = s.gar := (rfl)

@[simp] theorem postUe_gar (w : Reader) (r unit : Nat) (s : State) : (postUe w r unit s).gar = s.gar := by
  simp [postUe]

@[simp] theorem regionCount_gar (r k n : Nat) (s : State) : (regionCount r k n s).gar = s.gar := (rfl)

@[simp] theorem memUe_gar (w : Reader) (r unit : Nat) (s : State) : (memUe w r unit s).gar = s.gar := by
  simp [memUe]

@[simp] theorem cellUe_gar (cell : Nat) (s : State) : (cellUe cell s).gar = s.gar := by
  unfold cellUe
  split
  · rfl
  · dsimp only
    split
    · rfl
    · split
      · simp
      · rfl

@[simp] theorem memRead_gar (w : Reader) (f : Found) (s : State) : (memRead w f s).gar = s.gar := by
  unfold memRead
  split <;> simp

@[simp] theorem memReads_gar (w : Reader) (l : List Found) (s : State) : (memReads w l s).gar = s.gar := by
  simp [memReads]

@[simp] theorem modTable_gar (n : Nat) (f : Table → Table) (s : State) : (modTable n f s).gar = s.gar := by
  unfold modTable
  split <;> simp

@[simp] theorem tablePoison_gar (n : Nat) (g : Option Nat) (f : Found) (s : State) : (tablePoison n g f s).gar = s.gar := by
  unfold tablePoison
  (repeat' split) <;> simp

@[simp] theorem tableReads_gar (n : Nat) (g : Option Nat) (l : List Found) (s : State) : (tableReads n g l s).gar = s.gar := by
  simp [tableReads]

@[simp] theorem tableCount_gar (n k a : Nat) (s : State) : (tableCount n k a s).gar = s.gar := by
  simp [tableCount]

@[simp] theorem countResp_gar (n : Nat) (b : List Byte) (s : State) : (countResp n b s).gar = s.gar := by
  simp [countResp]

@[simp] theorem lookupEnd_gar (a : Lookup) (resp : List Byte) (found : List Found) (clean : Bool) (s : State) : (lookupEnd a resp found clean s).2.gar = s.gar := by
  simp [lookupEnd]

@[simp] theorem rowError_tbl (f : Found) (bad : Bool) (s : State) : (rowError f bad s).tbl = s.tbl := by
  simp [rowError]

@[simp] theorem modRegion_tbl (r : Nat) (f : Region → Region) (s : State) : (modRegion r f s).tbl = s.tbl := (rfl)

@[simp] theorem memCe_tbl (r : Nat) (s : State) : (memCe r s).tbl = s.tbl := (rfl)

@[simp] theorem postUe_tbl (w : Reader) (r unit : Nat) (s : State) : (postUe w r unit s).tbl = s.tbl := by
  simp [postUe]

@[simp] theorem regionCount_tbl (r k n : Nat) (s : State) : (regionCount r k n s).tbl = s.tbl := (rfl)

@[simp] theorem memUe_tbl (w : Reader) (r unit : Nat) (s : State) : (memUe w r unit s).tbl = s.tbl := by
  simp [memUe]

@[simp] theorem cellUe_tbl (cell : Nat) (s : State) : (cellUe cell s).tbl = s.tbl := by
  unfold cellUe
  split
  · rfl
  · dsimp only
    split
    · rfl
    · split
      · simp
      · rfl

@[simp] theorem memRead_tbl (w : Reader) (f : Found) (s : State) : (memRead w f s).tbl = s.tbl := by
  unfold memRead
  split <;> simp

@[simp] theorem memReads_tbl (w : Reader) (l : List Found) (s : State) : (memReads w l s).tbl = s.tbl := by
  simp [memReads]

@[simp] theorem mirrorEpoch_tbl (full : Bool) (num : Nat) (found : List (List Found)) (l : List Update) (s : State) :
    (mirrorEpoch full num found l s).tbl = s.tbl := by
  unfold mirrorEpoch
  split
  · rfl
  · refine (mirrorPush_tbl 1 num _ _).trans (List.foldlRecOn _ _ (motive := fun t : State => t.tbl = s.tbl) (mirrorPush_tbl ..) ?_)
    intro t same x _
    split
    · exact same
    · rw [mirrorPush_tbl, memReads_tbl]
      exact same

@[simp] theorem modTable_mem (n : Nat) (f : Table → Table) (s : State) : (modTable n f s).mem = s.mem := by
  unfold modTable
  split <;> simp

@[simp] theorem tableCount_mem (n k a : Nat) (s : State) : (tableCount n k a s).mem = s.mem := by
  simp [tableCount]

@[simp] theorem countResp_mem (n : Nat) (b : List Byte) (s : State) : (countResp n b s).mem = s.mem := by
  simp [countResp]

@[simp] theorem State_tick_fl (s : State) : s.tick.fl = s.fl := (rfl)

@[simp] theorem modTable_fl (n : Nat) (f : Table → Table) (s : State) : (modTable n f s).fl = s.fl := by
  unfold modTable
  split <;> simp

@[simp] theorem tableCount_fl (n k a : Nat) (s : State) : (tableCount n k a s).fl = s.fl := by
  simp [tableCount]

@[simp] theorem profEvent_fl (ev inst n : Nat) (s : State) : (profEvent ev inst n s).fl = s.fl := (rfl)

@[simp] theorem countResp_fl (n : Nat) (b : List Byte) (s : State) : (countResp n b s).fl = s.fl := by
  simp [countResp]

/-! ## The table pipelines (R310 to R322) -/

theorem table?_congr {s t : State} (same : t.tbl = s.tbl) (n : Nat) : table? t n = table? s n := by rw [table?, same, table?]

/-- Words that read clean or corrected change only the memory, and leave what is poisoned. -/
theorem memReads_sound (w : Reader) : ∀ (l : List Found) (s : State), anyBad s l = false →
    ∃ m : Mem, memReads w l s = s.mapMem (fun _ => m) ∧ ∀ r, (region (s.mapMem fun _ => m) r).bad = (region s r).bad
  | [], s, _ => ⟨s.mem, rfl, fun _ => rfl⟩
  | f :: l, s, sound => by
    obtain ⟨first, rest⟩ : unitBad s f = false ∧ anyBad s l = false := by simpa [anyBad] using sound
    have one : ∃ m : Mem, memRead w f s = s.mapMem (fun _ => m) ∧ ∀ r, (region (s.mapMem fun _ => m) r).bad = (region s r).bad := by
      unfold memRead
      split
      · exact ⟨s.mem, rfl, fun _ => rfl⟩
      · refine ⟨(rowError f false (memCe (homeRegion f.region) s)).mem, ?_, fun r => ?_⟩
        · unfold rowError
          split <;> rfl
        · refine (congrArg Region.bad (region_congr (s := memCe (homeRegion f.region) s) (rowError_mem_regions f false _) r)).trans ?_
          exact region_modRegion_part Region.bad (by intro g; rfl) ..
      · next bad => simp [unitBad, bad] at first
    obtain ⟨m, read, kept⟩ := one
    have rest' : anyBad (s.mapMem fun _ => m) l = false := by
      refine Eq.trans (congrArg (fun p => List.any l p) (funext fun g => ?_)) rest
      have same : readOutcome (s.mapMem fun _ => m) g = readOutcome s g := by
        simp only [readOutcome, poisoned, kept]
      rw [unitBad, same, unitBad]
    obtain ⟨m', reads, kept'⟩ := memReads_sound w l (s.mapMem fun _ => m) rest'
    exact ⟨m', by rw [show memReads w (f :: l) s = memReads w l (memRead w f s) from rfl, read, reads]; rfl, fun r => (kept' r).trans (kept r)⟩

theorem filter_unitBad_of_sound {l : List Found} {s : State} (sound : anyBad s l = false) : l.filter (unitBad s) = [] := by
  simpa [anyBad, List.filter_eq_nil_iff] using sound

/-- A lookup whose words read without an uncorrectable one ends with its response, counted. -/
theorem lookupEnd_sound {x : Lookup} {found : List Found} {s : State} (sound : anyBad s (wordsFound s x.words found) = false) (b : List Byte) (clean : Bool) :
    ∃ m : Mem, lookupEnd x b found clean s = (b, countResp x.table b (s.mapMem fun _ => m)) := by
  obtain ⟨m, reads, _⟩ := memReads_sound .lookup (wordsFound s x.words found) s sound
  have table : tableReads x.table x.waits (wordsFound s x.words found) s = s.mapMem fun _ => m := by
    rw [tableReads, filter_unitBad_of_sound sound, reads, List.foldl_nil]
  by_cases read : (decide (byteAt b 1 ≤ 1) || decide (byteAt b 1 = 3)) = true
  · exact ⟨m, by simp only [lookupEnd, read, sound, Bool.and_false, Bool.false_eq_true, if_false, if_true, table]⟩
  · exact ⟨s.mem, by simp only [lookupEnd, Bool.not_eq_true _ ▸ read, sound, Bool.and_false, Bool.false_eq_true, if_false]; rfl⟩

/-! ### What the pipelines take -/

theorem mem_linkTurns (n k : Nat) : k ∈ linkTurns n ↔ (n < k ∧ k ≤ 64) ∨ k ≤ n := by
  simp only [linkTurns, List.mem_append, List.mem_range'_1, List.mem_range]
  omega

theorem lookupPipelineTake_idle {s : State} (turn : s.gar.rrLink ≤ 64) (empty : ∀ n, n ≤ 64 → inputQueue s n = []) :
    exec .lookupPipelineTake s = .next s := by
  have none : (linkTurns s.gar.rrLink).find? (fun k => !(inputQueue s k).isEmpty) = none := by
    refine List.find?_eq_none.2 fun k turns => ?_
    have le : k ≤ 64 := by
      rcases (mem_linkTurns ..).1 turns with ⟨_, le⟩ | le <;> omega
    simp [empty k le]
  simp only [exec, execLookupPipelineTake, none]

/-- What the pipelines leave of a lookup that they take: its outcome now, and the words that it reads. -/
theorem lookupPipelineTake_takes {n tag : Nat} {r : List Nat} {x : Lookup} {s : State}
    (next : (linkTurns s.gar.rrLink).find? (fun k => !(inputQueue s k).isEmpty) = some n) (queue : inputQueue s n = tag :: r)
    (found : lookupAt s n tag = some x) (kept : x.old = none) : ∃ w, exec .lookupPipelineTake s = .next (takeLookup n tag
      { x with taken := some (lookupNow s (table? s (byteAt x.req 4)) x.req), words := w } (s.mapGar fun g => { g with rrLink := n })) := by
  have queue' : inputQueue (s.mapGar fun g => { g with rrLink := n }) n = tag :: r := queue
  have found' : lookupAt (s.mapGar fun g => { g with rrLink := n }) n tag = some x := found
  simp only [exec, execLookupPipelineTake, next, queue', found', Option.getD_some, lookupTable, kept]
  exact ⟨_, rfl⟩

theorem lookupPipelineTake_link {n tag : Nat} {r : List Nat} {x : Lookup} {s : State}
    (next : (linkTurns s.gar.rrLink).find? (fun k => !(inputQueue s k).isEmpty) = some n) (port : n ≠ diagTurn) (queue : (link s n).inq = tag :: r)
    (found : mfind (link s n).lookups tag = some x) (kept : x.old = none) : Runs .lookupPipelineTake s fun t =>
      (link t n).inq = r ∧
        (∃ w, mfind (link t n).lookups tag = some { x with taken := some (lookupNow s (table? s (byteAt x.req 4)) x.req), words := w }) ∧
        t.gar.rrLink = n ∧ t.tbl = s.tbl ∧ LinksBut n s t := by
  obtain ⟨w, runs⟩ := lookupPipelineTake_takes next ((if_neg port).trans queue) (by rw [lookupAt, if_neg port, found]) kept
  refine ⟨_, runs, ?_⟩
  have same : ∀ k, link (s.mapGar fun g => { g with rrLink := n }) k = link s k := fun _ => rfl
  dsimp only
  simp only [takeLookup, if_neg port, link_modLink_same, same, queue, List.drop_one, List.tail_cons]
  exact ⟨trivial, ⟨w, (mfind_mput ..).trans (if_pos rfl)⟩, rfl, rfl, linksBut_modLink n _ (s.mapGar fun g => { g with rrLink := n })⟩

theorem lookupPipelineTake_diag {id : Nat} {r : List Nat} {x : Lookup} {s : State}
    (next : (linkTurns s.gar.rrLink).find? (fun k => !(inputQueue s k).isEmpty) = some diagTurn) (queue : s.tbl.diagQueue = id :: r)
    (found : mfind s.tbl.diag id = some x) (kept : x.old = none) : Runs .lookupPipelineTake s fun t =>
      t.tbl.diagQueue = r ∧
        (∃ w, mfind t.tbl.diag id = some { x with taken := some (lookupNow s (table? s (byteAt x.req 4)) x.req), words := w }) ∧
        t.gar.rrLink = diagTurn ∧ t.tbl.tables = s.tbl.tables ∧ t.gar.links = s.gar.links := by
  obtain ⟨w, runs⟩ := lookupPipelineTake_takes next ((if_pos rfl).trans queue) (by rw [lookupAt, if_pos rfl, found]) kept
  refine ⟨_, runs, ?_⟩
  simp only [takeLookup, if_true]
  refine ⟨by simp [State.mapTbl, queue], ⟨w, (mfind_mput ..).trans (if_pos rfl)⟩, rfl, rfl, rfl⟩

/-- A queue behind the last turn is passed by none that comes later. -/
theorem linkTurns_next {n k : Nat} {s : State} (le : k ≤ 64) (behind : s.gar.rrLink < k) (waits : inputQueue s k ≠ [])
    (next : (linkTurns s.gar.rrLink).find? (fun k => !(inputQueue s k).isEmpty) = some n) : s.gar.rrLink < n ∧ n ≤ k := by
  have nonempty : (!(inputQueue s k).isEmpty) = true := by simpa using waits
  rw [linkTurns, List.find?_append] at next
  cases first : (List.range' (s.gar.rrLink + 1) (64 - s.gar.rrLink)).find? fun k => !(inputQueue s k).isEmpty with
  | none => exact absurd nonempty (List.find?_eq_none.1 first k (List.mem_range'_1.2 (by omega)))
  | some j =>
    rw [first, Option.some_or] at next
    obtain rfl := Option.some.inj next
    obtain ⟨_, member, least⟩ := List.find?_range'_eq_some.1 first
    refine ⟨by have := (List.mem_range'_1.1 member).1; omega, not_lt.1 fun later => ?_⟩
    simpa [nonempty] using least k (by omega) later

/-! ### The match of a key -/

/-- The better of the best match so far and the next. -/
def nearerMatch (t : Table) (o : Option Entry) (e : Entry) : Option Entry :=
  match o with
  | none => some e
  | some x => if better t x e then some e else some x

theorem bestMatch_eq (t : Table) (vrf : Nat) (key : List Byte) :
    bestMatch t vrf key = (t.entries.filter (entryMatches t vrf key)).foldl (nearerMatch t) none := rfl

/-- `e` is as good a match as `x`. -/
def Table.asGood (t : Table) (e x : Entry) : Prop := (t.kind ≤ 1 → x.plen ≤ e.plen) ∧ (2 ≤ t.kind → x.prio ≤ e.prio)

theorem Table.asGood_refl (t : Table) (e : Entry) : t.asGood e e := ⟨fun _ => le_rfl, fun _ => le_rfl⟩

theorem Table.asGood_trans {t : Table} {a b c : Entry} (h : t.asGood a b) (g : t.asGood b c) : t.asGood a c :=
  ⟨fun lpm => (g.1 lpm).trans (h.1 lpm), fun other => (g.2 other).trans (h.2 other)⟩

theorem asGood_of_better {t : Table} {a b : Entry} (h : better t a b = true) : t.asGood b a := by
  unfold better at h
  split at h
  · next lpm =>
    have kind : t.kind ≤ 1 := by simpa [Table.lpm] using lpm
    exact ⟨fun _ => le_of_lt (of_decide_eq_true h), fun other => absurd other (by omega)⟩
  · next other =>
    have kind : ¬ t.kind ≤ 1 := by simpa [Table.lpm] using other
    exact ⟨fun lpm => absurd lpm kind, fun _ => le_of_lt (of_decide_eq_true h)⟩

theorem asGood_of_not_better {t : Table} {a b : Entry} (h : better t a b ≠ true) : t.asGood a b := by
  unfold better at h
  split at h
  · next lpm =>
    have kind : t.kind ≤ 1 := by simpa [Table.lpm] using lpm
    exact ⟨fun _ => not_lt.1 fun lt => h (decide_eq_true lt), fun other => absurd other (by omega)⟩
  · next other =>
    have kind : ¬ t.kind ≤ 1 := by simpa [Table.lpm] using other
    exact ⟨fun lpm => absurd lpm kind, fun _ => not_lt.1 fun lt => h (decide_eq_true lt)⟩

/-- The best of some matches is one of them, and as good as each. -/
theorem foldl_nearerMatch (t : Table) : ∀ (l : List Entry) (b : Entry), ∃ e, l.foldl (nearerMatch t) (some b) = some e ∧ (e = b ∨ e ∈ l) ∧ t.asGood e b ∧
    ∀ x, x ∈ l → t.asGood e x
  | [], b => ⟨b, rfl, .inl rfl, t.asGood_refl b, fun _ none => absurd none List.not_mem_nil⟩
  | y :: l, b => by
    have step : ∃ n, nearerMatch t (some b) y = some n ∧ (n = b ∨ n = y) ∧ t.asGood n b ∧ t.asGood n y := by
      unfold nearerMatch
      dsimp only
      split
      · next h => exact ⟨y, rfl, .inr rfl, asGood_of_better h, t.asGood_refl y⟩
      · next h => exact ⟨b, rfl, .inl rfl, t.asGood_refl b, asGood_of_not_better h⟩
    obtain ⟨n, next, one, goodB, goodY⟩ := step
    obtain ⟨e, best, member, goodN, goodAll⟩ := foldl_nearerMatch t l n
    refine ⟨e, by rw [List.foldl_cons, next, best], ?_, Table.asGood_trans goodN goodB, fun x mem => ?_⟩
    · rcases member with rfl | later
      · rcases one with rfl | rfl
        · exact .inl rfl
        · exact .inr List.mem_cons_self
      · exact .inr (List.mem_cons_of_mem _ later)
    · rcases List.mem_cons.1 mem with rfl | later
      · exact Table.asGood_trans goodN goodY
      · exact goodAll x later

theorem bestMatch_some {t : Table} {vrf : Nat} {key : List Byte} {e : Entry} (best : bestMatch t vrf key = some e) :
    e ∈ t.entries ∧ entryMatches t vrf key e = true ∧
      ∀ x, x ∈ t.entries → entryMatches t vrf key x = true → (t.kind ≤ 1 → x.plen ≤ e.plen) ∧ (2 ≤ t.kind → x.prio ≤ e.prio) := by
  rw [bestMatch_eq] at best
  cases matching : t.entries.filter (entryMatches t vrf key) with
  | nil =>
    rw [matching] at best
    exact absurd best (by simp)
  | cons b rest =>
    obtain ⟨w, found, member, goodB, goodAll⟩ := foldl_nearerMatch t rest b
    rw [matching, List.foldl_cons, show nearerMatch t none b = some b from rfl, found] at best
    obtain rfl := Option.some.inj best
    obtain ⟨inTable, fits⟩ := List.mem_filter.1 (matching ▸ List.mem_cons.2 member)
    refine ⟨inTable, fits, fun x mem fits' => ?_⟩
    rcases List.mem_cons.1 (matching ▸ List.mem_filter.2 ⟨mem, fits'⟩) with rfl | later
    · exact goodB
    · exact goodAll x later

theorem bestMatch_none {t : Table} {vrf : Nat} {key : List Byte} (none : bestMatch t vrf key = none) (x : Entry) (mem : x ∈ t.entries) :
    entryMatches t vrf key x = false := by
  by_contra fits
  rw [bestMatch_eq] at none
  cases matching : t.entries.filter (entryMatches t vrf key) with
  | nil => exact List.filter_eq_nil_iff.1 matching x mem (Bool.not_eq_false _ ▸ fits)
  | cons b rest =>
    obtain ⟨w, found, _⟩ := foldl_nearerMatch t rest b
    rw [matching, List.foldl_cons, show nearerMatch t Option.none b = some b from rfl, found] at none
    exact absurd none (by simp)

/-! ### The end of a lookup -/

theorem table?_modTable_same (n : Nat) (f : Table → Table) (s : State) : table? (modTable n f s) n = (table? s n).map f := by
  unfold modTable
  cases found : table? s n with
  | none => exact found
  | some t => exact (mfind_mput ..).trans (if_pos rfl)

/-- A response that its table gave is counted there: once as a lookup, and once by its status. -/
theorem countResp_table (n : Nat) {b : List Byte} (status : byteAt b 1 ≤ 3) (s : State) :
    table? (countResp n b s) n = (table? s n).map fun t => { t with ctr := ctrAdd (ctrAdd t.ctr (1 + byteAt b 1) 1) 0 1 } := by
  have counted : table? (tableCount n 0 1 (tableCount n (1 + byteAt b 1) 1 s)) n =
      (table? s n).map fun t => { t with ctr := ctrAdd (ctrAdd t.ctr (1 + byteAt b 1) 1) 0 1 } := by
    rw [tableCount, table?_modTable_same, tableCount, table?_modTable_same, Option.map_map]
    rfl
  unfold countResp
  simp only [show byteAt b 1 ≠ 4 by omega, show byteAt b 1 ≠ 5 by omega, if_false]
  split <;> exact counted

/-- A link whose lookup under a tag ends with a response. -/
def Link.answered (tag : Nat) (resp : List Byte) (l : Link) : Link :=
  let l := { l with lookups := mdel l.lookups tag }
  if tag < 1024 then { l with resp := l.resp ++ [resp], ctr := if byteAt resp 1 = 5 then ctrAdd l.ctr 16 1 else l.ctr } else l

section LookupComplete
variable {n tag : Nat} {f : List Found} {clean : Bool} {x : Lookup} {b : List Byte} {s : State} (port : n ≠ diagTurn)
  (found : mfind (link s n).lookups tag = some x) (taken : x.taken = some b)

/-- On the link that a lookup came from, only that lookup ends; the other links stay. -/
theorem lookupComplete_link (n tag : Nat) (f : List Found) (clean : Bool) (x : Lookup) (b : List Byte) (s : State) :
    link (modLink n (Link.answered tag (lookupEnd x b f clean s).1) (lookupEnd x b f clean s).2) n =
      (link s n).answered tag (lookupEnd x b f clean s).1 ∧
    LinksBut n s (modLink n (Link.answered tag (lookupEnd x b f clean s).1) (lookupEnd x b f clean s).2) := by
  have gar : (lookupEnd x b f clean s).2.gar = s.gar := lookupEnd_gar ..
  constructor
  · rw [link_modLink_same, link, gar, link]
  · intro k other outer
    rw [linksBut_modLink n _ (lookupEnd x b f clean s).2 k other outer, gar]

theorem answered_gone (tag : Nat) (b : List Byte) (l : Link) : mfind (l.answered tag b).lookups tag = none := by
  unfold Link.answered
  dsimp only
  split <;> exact (mfind_mdel ..).trans (if_pos rfl)

include port found taken

theorem lookupComplete_runs : exec (.lookupComplete n tag f clean) s =
    .next (modLink n (Link.answered tag (lookupEnd x b f clean s).1) (lookupEnd x b f clean s).2) := by
  have at' : lookupAt s n tag = some x := by rw [lookupAt, if_neg port, found]
  simp only [exec, execLookupComplete, at', taken, if_neg port]
  rfl

theorem lookupComplete_counts {tb : Table} (live : tag < 1024) (status : byteAt b 1 ≤ 3) (table : table? s x.table = some tb)
    (sound : anyBad s (wordsFound s x.words f) = false) : Runs (.lookupComplete n tag f clean) s fun t =>
      (link t n).resp = (link s n).resp ++ [b] ∧ mfind (link t n).lookups tag = none ∧
      (∃ u, table? t x.table = some u ∧ ctrOf u.ctr 0 = (ctrOf tb.ctr 0).add 1 ∧ ctrOf u.ctr (1 + byteAt b 1) = (ctrOf tb.ctr (1 + byteAt b 1)).add 1 ∧
        u.entries = tb.entries) ∧ LinksBut n s t := by
  obtain ⟨own, others⟩ := lookupComplete_link n tag f clean x b s
  obtain ⟨m, ends⟩ := lookupEnd_sound sound b clean
  refine ⟨_, lookupComplete_runs port found taken, ?_, ?_, ?_, others⟩
  · rw [own, ends, Link.answered]
    simp only [live, if_true]
  · rw [own, answered_gone]
  · have counted := countResp_table x.table status (s.mapMem fun _ => m)
    rw [show table? (s.mapMem fun _ => m) x.table = some tb from table, Option.map_some] at counted
    rw [ends]
    refine ⟨_, counted, ?_, ?_, rfl⟩
    · exact (ctrOf_ctrAdd ..).trans (congrArg (·.add 1) (ctrOf_ctrAdd_other _ _ (by omega)))
    · exact (ctrOf_ctrAdd_other _ _ (by omega)).trans (ctrOf_ctrAdd ..)

theorem lookupComplete_ended (gone : 1024 ≤ tag) : Runs (.lookupComplete n tag f clean) s fun t =>
    (link t n).resp = (link s n).resp ∧ mfind (link t n).lookups tag = none ∧ LinksBut n s t := by
  obtain ⟨own, others⟩ := lookupComplete_link n tag f clean x b s
  refine ⟨_, lookupComplete_runs port found taken, ?_, ?_, others⟩
  · rw [own, Link.answered, if_neg (Nat.not_lt.2 gone)]
  · rw [own, answered_gone]

theorem lookupComplete_poisoned {tb : Table} {g : Found} (now : x.old = none) (table : table? s (byteAt x.req 4) = some tb) (kind : tb.kind ≠ 2)
    (live : tag < 1024) (status : byteAt b 1 ≤ 1) (bad : unitBad s g = true) : Runs (.lookupComplete n tag [g] clean) s fun t =>
      (∃ c, (link t n).resp = (link s n).resp ++ [c] ∧ byteAt c 1 = 3) ∧ mfind (link t n).lookups tag = none ∧ LinksBut n s t := by
  obtain ⟨own, others⟩ := lookupComplete_link n tag [g] clean x b s
  have poison : byteAt (lookupEnd x b [g] clean s).1 1 = 3 := by
    have found' : anyBad s (wordsFound s x.words [g]) = true := by simp [anyBad, wordsFound, bad]
    have table' : lookupTable s x = some tb := by rw [lookupTable, now]; exact table
    simp only [lookupEnd, table', kind, decide_false, status, decide_true, Bool.true_or, found', Bool.and_self, if_true, poisonResp,
      Bool.false_eq_true, false_and, and_false, if_false]
    rfl
  refine ⟨_, lookupComplete_runs port found taken, ⟨_, ?_, poison⟩, ?_, others⟩
  · rw [own, Link.answered]
    simp only [live, if_true]
  · rw [own, answered_gone]

end LookupComplete

theorem lookupComplete_diag {id : Nat} {f : List Found} {clean : Bool} {x : Lookup} {b : List Byte} {c : Cmd} {s : State}
    (found : mfind s.tbl.diag id = some x) (taken : x.taken = some b) (flight : mfind s.fl.cmds id = some c)
    (sound : anyBad s (wordsFound s x.words f) = false) : Runs (.lookupComplete diagTurn id f clean) s fun t =>
      mfind t.tbl.diag id = none ∧ ∃ u, t = finish id .success 0 0 true (writeBlock c b u) := by
  obtain ⟨m, ends⟩ := lookupEnd_sound sound b clean
  have at' : lookupAt s diagTurn id = some x := by rw [lookupAt, if_pos rfl, found]
  have flight' : mfind ((countResp x.table b (s.mapMem fun _ => m)).mapTbl fun t => { t with diag := mdel t.diag id }).fl.cmds id = some c := by
    rw [show ((countResp x.table b (s.mapMem fun _ => m)).mapTbl fun t => { t with diag := mdel t.diag id }).fl = s.fl from countResp_fl .., flight]
  have runs : exec (.lookupComplete diagTurn id f clean) s = .next (finish id .success 0 0 true (writeBlock c b
      ((countResp x.table b (s.mapMem fun _ => m)).mapTbl fun t => { t with diag := mdel t.diag id }))) := by
    simp only [exec, execLookupComplete, at', taken, ends, if_true, flight']
  refine ⟨_, runs, ?_, _, rfl⟩
  rw [finish_tbl, writeBlock_tbl]
  exact (mfind_mdel ..).trans (if_pos rfl)

/-! ### The switch of an epoch (R314 to R321) -/

/-- The tables after a list of updates, each applied to its own. -/
def updatedTables (l : List Update) (m : Map Table) : Map Table :=
  l.foldl (fun m u => match mfind m u.table with
    | none => m
    | some t => mput m u.table { t with entries := applyUpdate t u, ctr := ctrAdd t.ctr 7 1 }) m

theorem switchUpdates_tbl (l : List Update) (s : State) : (switchUpdates l s).tbl = { s.tbl with tables := updatedTables l s.tbl.tables } := by
  induction l generalizing s with
  | nil => rfl
  | cons u l ih =>
    have head : switchUpdates (u :: l) s =
        switchUpdates l (modTable u.table (fun t => { t with entries := applyUpdate t u, ctr := ctrAdd t.ctr 7 1 }) s) := rfl
    rw [head, ih, updatedTables, updatedTables, List.foldl_cons, modTable, table?]
    cases mfind s.tbl.tables u.table <;> rfl

theorem epochSwitch_switches {f : List (List Found)} {c : Commit} {r : List Commit} {s : State} (warm : s.bed.boActive = false)
    (primary : isSecondary s = false) (commits : s.tbl.commits = c :: r) : Runs (.epochSwitch f) s fun t =>
      t.tbl.epoch = s.tbl.epoch + 1 ∧ t.tbl.commits = r ∧ t.tbl.handles = (if c.handle = 0 then s.tbl.handles else mdel s.tbl.handles c.handle) ∧
        t.tbl.tables = (switchUpdates c.updates s).tbl.tables ∧ t.tbl.gone = s.tbl.gone := by
  have runs : exec (.epochSwitch f) s = .next (switchFront f s) := by
    simp only [exec, execEpochSwitch, warm, primary, Bool.false_eq_true, if_false]
  have after : (switchFront f s).tbl = { s.tbl with
      commits := r, epoch := s.tbl.epoch + 1, handles := if c.handle = 0 then s.tbl.handles else mdel s.tbl.handles c.handle
      tables := updatedTables c.updates s.tbl.tables } := by
    unfold switchFront
    rw [commits]
    dsimp only
    split <;> rw [finish_tbl, mirrorEpoch_tbl, switchUpdates_tbl] <;> rfl
  refine ⟨_, runs, ?_⟩
  dsimp only
  rw [after, switchUpdates_tbl]
  exact ⟨rfl, rfl, rfl, rfl, rfl⟩

/-! ### Updates of a table -/

/-- What tells an entry of a table of kind `k` from another. -/
def Entry.slot (k : Nat) (e : Entry) : Nat × Nat × List Byte :=
  if k ≤ 1 then (e.vrf, e.plen, e.key) else if k = 3 then (e.prio, 0, []) else (0, 0, e.key)

theorem sameEntry_iff {k : Nat} {a b : Entry} : sameEntry k a b = true ↔ a.slot k = b.slot k := by
  unfold sameEntry Entry.slot
  split
  · simp [and_assoc]
  · split <;> simp

section ApplyUpdate
variable {t : Table} {u : Update}

theorem committed_delete (op : u.op = 2) : committed { t with entries := applyUpdate t u } u.entry = none := by
  refine List.find?_eq_none.2 fun x mem => ?_
  simp only [applyUpdate, op, if_true, List.mem_filter] at mem
  simpa using mem.2

theorem committed_write (op : u.op = 0 ∨ u.op = 3) :
    (committed { t with entries := applyUpdate t u } u.entry).map (·.result) = some u.entry.result := by
  have entries : applyUpdate t u = (t.entries.filter fun x => !sameEntry t.kind x u.entry) ++ [u.entry] := by
    rcases op with op | op <;> simp [applyUpdate, op]
  have none : (t.entries.filter fun x => !sameEntry t.kind x u.entry).find? (fun x => sameEntry t.kind x u.entry) = none :=
    List.find?_eq_none.2 fun x mem => by simpa using (List.mem_filter.1 mem).2
  simp only [committed, entries, List.find?_append, none, Option.none_or, List.find?_cons, sameEntry_iff.2 rfl, Option.map_some]

/-- An update leaves every other entry. -/
theorem committed_other {e : Entry} (other : sameEntry t.kind e u.entry = false) :
    committed { t with entries := applyUpdate t u } e = committed t e := by
  have apart : ∀ x, sameEntry t.kind x e = true → sameEntry t.kind x u.entry = false := fun x same => by
    by_contra both
    exact absurd (sameEntry_iff.2 ((sameEntry_iff.1 same).symm.trans (sameEntry_iff.1 (Bool.not_eq_false _ ▸ both)))) (by simp [other])
  have rest : (t.entries.filter fun x => !sameEntry t.kind x u.entry).find? (fun x => sameEntry t.kind x e) =
      t.entries.find? fun x => sameEntry t.kind x e := by
    rw [List.find?_filter]
    congr 1
    funext x
    cases same : sameEntry t.kind x e with
    | false => simp
    | true => simp [apart x same]
  unfold committed applyUpdate
  dsimp only
  split
  · exact rest
  · split
    · rw [List.find?_map]
      have kept : (fun x => sameEntry t.kind x e) ∘ (fun x => if sameEntry t.kind x u.entry = true then
          { x with result := u.entry.result, words := u.entry.words } else x) = fun x => sameEntry t.kind x e := by
        funext x
        dsimp only [Function.comp]
        split <;> rfl
      rw [kept]
      cases found : t.entries.find? fun x => sameEntry t.kind x e with
      | none => rfl
      | some x =>
        have same := List.find?_some found
        simp [apart x same]
    · have new : sameEntry t.kind u.entry e = false := by
        by_contra same
        exact absurd (sameEntry_iff.2 (sameEntry_iff.1 (Bool.not_eq_false _ ▸ same)).symm) (by simp [other])
      rw [List.find?_append, rest, List.find?_cons, new, List.find?_nil, Option.or_none]

end ApplyUpdate

/-- Settles O46: the pipelines, the matches, the ends of lookups, the switch and the updates, each by its rule. -/
theorem lookupAndEpochRows : Obligations.LookupAndEpochRows := by
  unfold Obligations.LookupAndEpochRows
  refine ⟨fun _ => lookupPipelineTake_idle, fun _ _ _ _ _ => lookupPipelineTake_link, fun _ _ _ _ => lookupPipelineTake_diag, fun _ _ _ => linkTurns_next,
    fun _ _ _ _ => bestMatch_some, fun _ _ _ => bestMatch_none, ?_, ?_, ?_, fun _ _ _ _ _ _ _ => lookupComplete_diag, ?_, ?_, ?_, ?_,
    fun _ _ _ _ => epochSwitch_switches, fun _ _ _ => ⟨committed_delete, committed_write, committed_other⟩, ?_⟩
  · intro n tag f clean s none
    simp only [exec, execLookupComplete, none]
  · intro n tag f clean x b tb s port found taken
    exact lookupComplete_counts port found taken
  · intro n tag f clean x b s port found taken
    exact lookupComplete_ended port found taken
  · intro n tag clean x b tb g s port found taken
    exact lookupComplete_poisoned port found taken
  · intro f s frozen
    simp only [exec, execEpochSwitch, frozen, if_true]
  · intro f s primary none
    simp [exec, execEpochSwitch, primary, switchFront, none]
  · intro f s secondary none
    simp [exec, execEpochSwitch, secondary, switchMirrored, none]
  · intro s
    refine ⟨_, rfl, fun g v => ?_, rfl, rfl, rfl⟩
    exact List.mem_filter

end Sys2Proof.Machine
end

section
/-! PROOFS. Table, epoch and lookup commands. -/
namespace Sys2Proof.Machine

@[simp] theorem cleanse_tbl (r lo hi : Nat) (s : State) : (cleanse r lo hi s).tbl = s.tbl := by
  simp [cleanse]

@[simp] theorem mixRegions_tbl (l : List Nat) (s : State) : (mixRegions l s).tbl = s.tbl := by
  simp [mixRegions]

@[simp] theorem poison_tbl (r u : Nat) (s : State) : (poison r u s).tbl = s.tbl := (rfl)

@[simp] theorem mergeRead_tbl (w : Reader) (f : Found) (s : State) : (mergeRead w f s).tbl = s.tbl := by
  unfold mergeRead
  split <;> simp

/-! ## Tables: creating and deleting (R401 to R409) -/

@[simp] theorem roleBad_beginCmd (mir : Bool) (id : Nat) (c : Cmd) (s : State) : roleBad mir (beginCmd id c s) = roleBad mir s := rfl
@[simp] theorem table?_beginCmd (id : Nat) (c : Cmd) (s : State) (n : Nat) : table? (beginCmd id c s) n = table? s n := rfl
@[simp] theorem initDone_beginCmd (id : Nat) (c : Cmd) (s : State) (r : Nat) : initDone (beginCmd id c s) r = initDone s r := rfl
@[simp] theorem freeBanks_beginCmd (id : Nat) (c : Cmd) (s : State) : freeBanks (beginCmd id c s) = freeBanks s := rfl
@[simp] theorem sizeSum_beginCmd (id : Nat) (c : Cmd) (s : State) (k : Nat) : sizeSum (beginCmd id c s) k = sizeSum s k := rfl
@[simp] theorem stagedAll_beginCmd (id : Nat) (c : Cmd) (s : State) : stagedAll (beginCmd id c s) = stagedAll s := rfl
@[simp] theorem tableReady_beginCmd (id : Nat) (c : Cmd) (s : State) (t : Table) : tableReady (beginCmd id c s) t = tableReady s t := rfl
@[simp] theorem freeHandle_beginCmd (id : Nat) (c : Cmd) (s : State) : freeHandle (beginCmd id c s) = freeHandle s := rfl
@[simp] theorem updateFails_beginCmd (id : Nat) (c : Cmd) (s : State) (h n : Nat) (t : Table) (own : List Update) (u : Update) (b : List Byte) :
    updateFails (beginCmd id c s) h n t own u b = updateFails s h n t own u b := rfl
@[simp] theorem table?_finish (id : Nat) (st : Status) (a b : BitVec 64) (e : Bool) (s : State) (n : Nat) :
    table? (finish id st a b e s) n = table? s n := table?_congr (finish_tbl ..) n

theorem roleBad_of_primary {mir : Bool} {s : State} (primary : isSecondary s = false) : roleBad mir s = false := by
  rw [roleBad, primary, Bool.and_false]

/-- A list of checks is passed when each is. -/
theorem passed_of_firstFail {l : List (Bool × Status)} (passed : firstFail l = none) : ∀ e, e ∈ l → e.1 = false := by
  induction l with
  | nil => exact fun _ mem => absurd mem List.not_mem_nil
  | cons e l ih =>
    obtain ⟨bad, st⟩ := e
    cases bad with
    | true => simp [firstFail] at passed
    | false =>
      intro x mem
      rcases List.mem_cons.1 mem with rfl | later
      · rfl
      · exact ih (by simpa [firstFail] using passed) x later

/-- An on-die table has no blocks of HBM. -/
theorem blocksFor_onDie (kind size keyLen : Nat) : blocksFor kind false size keyLen = 0 := by
  unfold blocksFor
  split <;> simp_all

theorem cleanses_tbl {lo hi r : Nat → Nat} (l : List Nat) (s : State) : (forEach l (fun b s => cleanse (r b) (lo b) (hi b) s) s).tbl = s.tbl :=
  forEach_tbl (fun _ _ => cleanse_tbl ..) l s

theorem clearStorage_tbl (banks blocks : List Nat) (s : State) : (clearStorage banks blocks s).tbl = s.tbl := by
  unfold clearStorage
  exact (forEach_tbl (fun k t => cleanses_tbl [0, 1, 2, 3] t) blocks _).trans (cleanses_tbl banks s)

section TableCreate
variable {id nb : Nat} {c : Cmd} {s : State} (primary : isSecondary s = false) (onDie : c.byte 33 = 0)
  (need : nb = banksFor (c.byte 32) false (c.inl 36 4) (c.byte 34) * c.byte 35) (free : nb ≤ (freeBanks s).length)
  (ready : ((freeBanks s).take nb).all (fun b => initDone s (1 + b)) = true)
  (fits : c.byte 32 ≠ 2 → sizeSum s (c.byte 32) + c.inl 36 4 ≤ perTable (c.byte 32))
include primary onDie need free ready fits

/-- A table created on the die takes the lowest free banks, whose storage is cleared. -/
theorem tableCreateBody_onDie : tableCreateBody false (c.begun s) (beginCmd id c s) =
    { Ran.ok ((clearStorage ((freeBanks s).take nb) [] (mixRegions (((freeBanks s).take nb).map (1 + ·)) (beginCmd id c s))).mapTbl fun x =>
      { x with tables := mput x.tables c.target { Table.init with
        kind := c.byte 32, keyLen := c.byte 34, replicas := c.byte 35, size := c.inl 36 4, banks := (freeBanks s).take nb } }) with
      r0 := BitVec.ofNat 64 nb } := by
  have notReady : (((freeBanks s).take nb).any fun b => !initDone s (1 + b)) = false := by
    rw [List.any_eq_false]
    intro b mem
    simpa using List.all_eq_true.1 ready b mem
  have enough : ¬ ((freeBanks s).take nb).length < nb := by rw [List.length_take]; omega
  have room : ¬ (c.byte 32 ≠ 2 ∧ perTable (c.byte 32) < sizeSum s (c.byte 32) + c.inl 36 4) := fun ⟨other, more⟩ => absurd (fits other) (by omega)
  unfold tableCreateBody
  simp only [Cmd.begun_byte, Cmd.begun_inl, Cmd.begun_target, onDie, Nat.zero_ne_one, decide_false, blocksFor_onDie, freeBanks_beginCmd, initDone_beginCmd,
    sizeSum_beginCmd, roleBad_beginCmd, ← need, notReady, Nat.lt_irrefl, Bool.false_and, Bool.or_self, Bool.false_eq_true, if_false,
    roleBad_of_primary primary, enough, room, List.length_nil, or_self, if_true, List.append_nil, Nat.mul_zero, Nat.add_zero]
  rfl

theorem tableCreate_runs (begins : Begins s id 0x60 c) (passed : tableCreatePre c s = none) : Runs (.tableCreate id) s fun t =>
      table? t c.target = some { Table.init with
        kind := c.byte 32, keyLen := c.byte 34, replicas := c.byte 35, size := c.inl 36 4, banks := (freeBanks s).take nb } ∧
      (∀ k, k ≠ c.target → table? t k = table? s k) ∧ t.tbl.handles = s.tbl.handles ∧ t.tbl.epoch = s.tbl.epoch := by
  have storage : (clearStorage ((freeBanks s).take nb) [] (mixRegions (((freeBanks s).take nb).map (1 + ·)) (beginCmd id c s))).tbl = s.tbl := by
    rw [clearStorage_tbl, mixRegions_tbl]
    rfl
  refine ⟨_, congrArg Host.Outcome.next (runCmd_of_ok begins passed (tableCreateBody_onDie primary onDie need free ready fits)), ?_⟩
  dsimp only
  simp only [finish_tbl, table?, State.mapTbl, storage, mfind_mput, if_true, true_and, and_true]
  exact fun k other => if_neg other

end TableCreate

section TableDelete
variable {id : Nat} {c : Cmd} {s : State} (begins : Begins s id 0x61 c) (passed : tableDeletePre c s = none) (primary : isSecondary s = false)
include begins passed primary

theorem tableDelete_runs {tb : Table} (found : table? s c.target = some tb)
    (unstaged : ((stagedAll s).any fun u => decide (u.table = c.target)) = false) : Runs (.tableDelete id) s fun t =>
      table? t c.target = none ∧ mfind t.tbl.gone s.tbl.goneNext =
        some { table := c.target, banks := tb.banks, blocks := tb.blocks, posted := tb.posted } ∧
      (∀ k, k ≠ c.target → table? t k = table? s k) := by
  refine ⟨finish id .success 0 0 true (removeTable c.target tb (beginCmd id c s)), congrArg Host.Outcome.next (runCmd_of_ok begins passed ?_), ?_⟩
  · simp only [tableDeleteBody, Cmd.begun_target, table?_beginCmd, found, roleBad_beginCmd, roleBad_of_primary primary, Bool.false_eq_true, if_false,
      stagedAll_beginCmd]
    exact if_neg (Bool.not_eq_true _ ▸ unstaged)
  · dsimp only
    simp only [table?_finish, finish_tbl]
    refine ⟨(mfind_mdel ..).trans (if_pos rfl), (mfind_mput ..).trans (if_pos rfl), fun k other => (mfind_mdel ..).trans (if_neg other)⟩

theorem tableDelete_busy (staged : ((stagedAll s).any fun u => decide (u.table = c.target)) = true) :
    exec (.tableDelete id) s = .next (finishFail id .busy (beginCmd id c s)) := by
  refine congrArg Host.Outcome.next (runCmd_of_fail begins passed ?_)
  have exists' : ∃ tb, table? s c.target = some tb := by
    by_contra missing
    have found := passed_of_firstFail passed _ (List.mem_cons_of_mem _ List.mem_cons_self)
    exact missing (Option.isSome_iff_exists.1 (by simpa using found))
  obtain ⟨tb, found⟩ := exists'
  simp only [tableDeleteBody, Cmd.begun_target, table?_beginCmd, found, roleBad_beginCmd, roleBad_of_primary primary, Bool.false_eq_true, if_false,
    stagedAll_beginCmd]
  exact if_pos staged

end TableDelete

/-! ## Updates (R410 to R412) -/

theorem writePlaces_tbl (w : Reader) (bad : Bool) (l : List Found) (places : List Place) (s : State) : (writePlaces w bad l places s).2.tbl = s.tbl := by
  induction places generalizing s with
  | nil => rfl
  | cons p r ih =>
    rw [writePlaces]
    simp only [ih]
    split
    · split
      · exact poison_tbl ..
      · exact cleanse_tbl ..
    · dsimp only
      split
      · exact (poison_tbl ..).trans (mergeRead_tbl ..)
      · exact (cleanse_tbl ..).trans (mergeRead_tbl ..)

theorem writeEntry_tbl (w : Reader) (bad : Bool) (t : Table) (u : Update) (places : List Place) (l : List Found) (s : State) :
    (writeEntry w bad t u places l s).2.2.tbl = s.tbl := writePlaces_tbl ..

/-- An entry under handle `h` that is in order is written and staged. -/
theorem stageAll_one {h n : Nat} {t : Table} {places : List (List Place)} {merged : List Found} {b : List Byte} {own : List Update} {s : State}
    (legal : updateFails s h n t own (parseUpdate n t b) b = none) : stageAll h n t places merged [b] 0 own false s =
      (1, none, stageOne n t own (writeEntry .update false t (parseUpdate n t b) (places.getD 0 []) merged s).1,
        (writeEntry .update false t (parseUpdate n t b) (places.getD 0 []) merged s).2.1,
        if h = 0 then (writeEntry .update false t (parseUpdate n t b) (places.getD 0 []) merged s).2.2
        else (writeEntry .update false t (parseUpdate n t b) (places.getD 0 []) merged s).2.2.mapTbl fun x =>
          { x with handles := mmod x.handles h Handle.init fun y =>
            { y with staged := stageOne n t own (writeEntry .update false t (parseUpdate n t b) (places.getD 0 []) merged s).1 } }) := by
  simp only [stageAll, legal, Bool.false_or]

theorem stageAll_failing {h n : Nat} {t : Table} {places : List (List Place)} {merged : List Found} {b : List Byte} {own : List Update} {s : State}
    {st : Status} (bad : updateFails s h n t own (parseUpdate n t b) b = some st) :
    stageAll h n t places merged [b] 0 own false s = (0, some st, own, false, s) := by
  simp only [stageAll, bad]

/-- A command that begins and passes its checks, by what its body answers. -/
theorem runCmd_of_answer {id op : Nat} {pre : Cmd → State → Option Status} {body : Cmd → State → Ran} {c : Cmd} {s : State} {r : Ran}
    (begins : Begins s id op c) (passed : pre (c.begun s) (beginCmd id c s) = none) (answer : body (c.begun s) (beginCmd id c s) = r) :
    runCmd id op pre body s = if r.done then finish id r.st r.r0 r.r1 r.eff r.s else r.s := by
  obtain ⟨may, clock⟩ := begins
  simp [runCmd, may, passed, clock, answer]

section TableUpdate
variable {id : Nat} {pl : List (List Place)} {mg : List Found} {l : List Byte} {c : Cmd} {tb : Table} {s : State} (begins : Begins s id 0x62 c)
  (passed : tableUpdatePre c s = none) (primary : isSecondary s = false) (found : table? s c.target = some tb) (ready : tableReady s tb = true)
  (allowed : dmaAllowed s c.indAddr c.indLen = true) (whole : l.length = c.indLen) (one : c.inl 36 4 = 1)
include passed found whole one

/-- The one entry of an update is all of its data. -/
theorem chunks_one : chunks tb.entryLen (c.inl 36 4) l = [l] := by
  have entry : c.indLen = tb.entryLen := by
    have length := passed_of_firstFail passed _ (List.mem_cons_of_mem _ (List.mem_cons_of_mem _ List.mem_cons_self))
    simpa [found, one] using length
  rw [one, chunks, chunks, ← entry, ← whole, List.take_length]

include begins primary ready allowed

/-- What an update of one entry answers, by what its staging answers. -/
theorem tableUpdate_answer {r : Nat × Option Status × List Update × Bool × State}
    (staged : stageAll (c.byte 32) c.target tb pl mg [l] 0 (if c.byte 32 = 0 then [] else (mget s.tbl.handles (c.byte 32) Handle.init).staged) false
      (beginCmd id c s) = r) : exec (.tableUpdate id (.data l) pl mg) s = .next
    (if c.byte 32 ≠ 0 then finish id (r.2.1.getD (if r.2.2.2.1 then .dataPoisoned else .success)) (BitVec.ofNat 64 r.1) 0 (decide (r.1 ≠ 0)) r.2.2.2.2
    else if r.2.2.1.isEmpty then
      finish id (r.2.1.getD (if r.2.2.2.1 then .dataPoisoned else .success)) (BitVec.ofNat 64 r.1) r.2.2.2.2.tbl.epoch false r.2.2.2.2
    else queueCommit id 0 r.2.2.1 (r.2.1.getD (if r.2.2.2.1 then .dataPoisoned else .success)) r.1 r.2.2.2.2) := by
  have all : (l ++ zeros c.indLen).take c.indLen = l := by rw [← whole, List.take_left]
  have status : (match r.2.1 with
      | some st => st
      | none => if r.2.2.2.1 then Status.dataPoisoned else .success) = r.2.1.getD (if r.2.2.2.1 then .dataPoisoned else .success) := by
    cases r.2.1 <;> rfl
  refine congrArg Host.Outcome.next ((runCmd_of_answer begins passed (r := if c.byte 32 ≠ 0 then
      { st := r.2.1.getD (if r.2.2.2.1 then .dataPoisoned else .success), r0 := BitVec.ofNat 64 r.1, s := r.2.2.2.2, eff := decide (r.1 ≠ 0) }
    else if r.2.2.1.isEmpty then
      { st := r.2.1.getD (if r.2.2.2.1 then .dataPoisoned else .success), r0 := BitVec.ofNat 64 r.1, r1 := r.2.2.2.2.tbl.epoch, s := r.2.2.2.2, eff := false }
    else { Ran.ok (queueCommit id 0 r.2.2.1 (r.2.1.getD (if r.2.2.2.1 then .dataPoisoned else .success)) r.1 r.2.2.2.2) with done := false })
    ?_).trans ?_)
  · simp only [Cmd.begun_byte, Cmd.begun_target, Cmd.begun_inl, Cmd.begun_indLen, table?_beginCmd, found, tableReady_beginCmd, ready, isSecondary_beginCmd,
      primary, withHost, Cmd.begun_indAddr, dmaAllowed_beginCmd, allowed, all, chunks_one passed found whole one, Bool.not_true, Bool.false_eq_true, if_false,
      beginCmd_tbl]
    rw [← status, ← staged]
    rfl
  · split
    · rfl
    · split <;> rfl

theorem tableUpdate_stages {hd : Handle} (handle : c.byte 32 ≠ 0) (opened : mfind s.tbl.handles (c.byte 32) = some hd)
    (legal : updateFails s (c.byte 32) c.target tb hd.staged (parseUpdate c.target tb l) l = none) : Runs (.tableUpdate id (.data l) pl mg) s fun t =>
      mfind t.tbl.handles (c.byte 32) = some { hd with
        staged := stageOne c.target tb hd.staged
          (writeEntry .update false tb (parseUpdate c.target tb l) (pl.getD 0 []) mg (beginCmd id c s)).1 } ∧
        t.tbl.tables = s.tbl.tables ∧ t.tbl.epoch = s.tbl.epoch ∧ t.tbl.commits = s.tbl.commits := by
  have own : (if c.byte 32 = 0 then [] else (mget s.tbl.handles (c.byte 32) Handle.init).staged) = hd.staged := by
    rw [if_neg handle, mget, opened, Option.getD_some]
  have staged := stageAll_one (h := c.byte 32) (places := pl) (merged := mg) (s := beginCmd id c s) legal
  rw [← own] at staged
  refine ⟨_, (tableUpdate_answer begins passed primary found ready allowed whole one staged).trans (congrArg Host.Outcome.next (if_pos handle)), ?_⟩
  dsimp only
  rw [finish_tbl, if_neg handle, own]
  simp only [State.mapTbl, writeEntry_tbl, beginCmd_tbl, and_self, and_true]
  rw [mmod, mfind_mput, if_pos rfl, mget, opened, Option.getD_some]

theorem tableUpdate_failing {st : Status} {hd : Handle} (handle : c.byte 32 ≠ 0) (opened : mfind s.tbl.handles (c.byte 32) = some hd)
    (bad : updateFails s (c.byte 32) c.target tb hd.staged (parseUpdate c.target tb l) l = some st) :
    exec (.tableUpdate id (.data l) pl mg) s = .next (finish id st 0 0 false (beginCmd id c s)) := by
  have own : (if c.byte 32 = 0 then [] else (mget s.tbl.handles (c.byte 32) Handle.init).staged) = hd.staged := by
    rw [if_neg handle, mget, opened, Option.getD_some]
  have staged := stageAll_failing (h := c.byte 32) (places := pl) (merged := mg) (s := beginCmd id c s) bad
  rw [← own] at staged
  exact (tableUpdate_answer begins passed primary found ready allowed whole one staged).trans (congrArg Host.Outcome.next (if_pos handle))

theorem tableUpdate_commits (lone : c.byte 32 = 0) (legal : updateFails s 0 c.target tb [] (parseUpdate c.target tb l) l = none) :
    Runs (.tableUpdate id (.data l) pl mg) s fun t =>
      t.tbl.commits = s.tbl.commits ++ [{ cmd := id, handle := 0
                                          updates := [(writeEntry .update false tb (parseUpdate c.target tb l) (pl.getD 0 []) mg (beginCmd id c s)).1]
                                          status := if (writeEntry .update false tb (parseUpdate c.target tb l) (pl.getD 0 []) mg (beginCmd id c s)).2.1
                                            then .dataPoisoned else .success, staged := 1 }] ∧
        t.tbl.tables = s.tbl.tables ∧ t.tbl.handles = s.tbl.handles := by
  have fresh : ∀ u : Update, stageOne c.target tb [] u = [u] := by
    intro u
    unfold stageOne
    split <;> rfl
  have staged := stageAll_one (h := 0) (places := pl) (merged := mg) (s := beginCmd id c s) legal
  have staged' : stageAll (c.byte 32) c.target tb pl mg [l] 0 (if c.byte 32 = 0 then [] else (mget s.tbl.handles (c.byte 32) Handle.init).staged) false
      (beginCmd id c s) = stageAll 0 c.target tb pl mg [l] 0 [] false (beginCmd id c s) := by rw [lone, if_pos rfl]
  refine ⟨_, (tableUpdate_answer begins passed primary found ready allowed whole one (staged'.trans staged)).trans
    (congrArg Host.Outcome.next ((if_neg (not_not.2 lone)).trans (if_neg ?_))), ?_⟩
  · simp only [fresh, List.isEmpty_cons, Bool.false_eq_true, not_false_eq_true]
  · dsimp only
    simp only [queueCommit, State.mapTbl, if_true, fresh, modCmd_tbl, writeEntry_tbl, beginCmd_tbl, Option.getD_none, and_self]

end TableUpdate

/-! ## Epochs and lookups by command (R413 to R419) -/

section EpochOpen
variable {id : Nat} {c : Cmd} {s : State} (begins : Begins s id 0x63 c) (target : c.target = 0) (plain : noFields c = true) (primary : isSecondary s = false)
include begins target plain primary

theorem epochOpen_does {h : Nat} (free : freeHandle s = some h) : Does (.epochOpen id) id c s (BitVec.ofNat 64 h) 0 fun x =>
    x.mapTbl fun y => { y with handles := mput y.handles h { since := s.now, staged := [], committing := false } } := by
  refine congrArg Host.Outcome.next (runCmd_of_ok begins ?_ ?_)
  · simp [firstFail, target, plain]
  · simp only [isSecondary_beginCmd, primary, Bool.false_eq_true, if_false, freeHandle_beginCmd, free]
    rfl

theorem epochOpen_full (none : freeHandle s = none) : exec (.epochOpen id) s = .next (finishFail id .noResource (beginCmd id c s)) := by
  refine congrArg Host.Outcome.next (runCmd_of_fail begins ?_ ?_)
  · simp [firstFail, target, plain]
  · simp only [isSecondary_beginCmd, primary, Bool.false_eq_true, if_false, freeHandle_beginCmd, none]

end EpochOpen

theorem freeHandle_lowest {h : Nat} {s : State} (free : freeHandle s = some h) : 1 ≤ h ∧ h ≤ 16 ∧ mhas s.tbl.handles h = false ∧
    ∀ k, 1 ≤ k → k < h → mhas s.tbl.handles k = true := by
  obtain ⟨unused, member, lower⟩ := List.find?_range'_eq_some.1 free
  have range := List.mem_range'_1.1 member
  exact ⟨range.1, by omega, by simpa using unused, fun k low less => by simpa using lower k low less⟩

section EpochCommit
variable {id : Nat} {c : Cmd} {hd : Handle} {s : State} (begins : Begins s id 0x64 c) (passed : handlePre c s = none) (primary : isSecondary s = false)
  (opened : mfind s.tbl.handles c.target = some hd)
include begins passed primary opened

theorem epochCommit_empty (none : hd.staged = []) : Does (.epochCommit id) id c s s.tbl.epoch 0 fun x =>
    x.mapTbl fun y => { y with handles := mdel y.handles c.target } := by
  refine congrArg Host.Outcome.next (runCmd_of_ok begins passed ?_)
  simp only [Cmd.begun_target, isSecondary_beginCmd, primary, beginCmd_tbl, mget, opened, Option.getD_some, none, List.isEmpty_nil, Bool.false_eq_true,
    if_false, if_true]
  rfl

theorem epochCommit_queues (some' : hd.staged ≠ []) : Runs (.epochCommit id) s fun t =>
    t.tbl.commits = s.tbl.commits ++ [{ cmd := id, handle := c.target, updates := hd.staged, status := .success, staged := 0 }] ∧
      mfind t.tbl.handles c.target = some { hd with committing := true } ∧ t.tbl.tables = s.tbl.tables ∧ t.tbl.epoch = s.tbl.epoch := by
  have nonempty : hd.staged.isEmpty = false := by simpa using some'
  refine ⟨queueCommit id c.target hd.staged .success 0 ((beginCmd id c s).mapTbl fun x =>
    { x with handles := mmod x.handles c.target Handle.init fun y => { y with committing := true } }),
    congrArg Host.Outcome.next ((runCmd_of_waiting begins passed rfl ?_).trans ?_), ?_⟩
  · simp [primary, mget, opened, nonempty]
  · simp [primary, mget, opened, nonempty, Ran.ok]
  · dsimp only
    simp only [queueCommit, State.mapTbl, modCmd_tbl, beginCmd_tbl, true_and, and_self, and_true]
    rw [mmod, mfind_mput, if_pos rfl, mget, opened, Option.getD_some]

end EpochCommit

theorem epochAbort_does {id : Nat} {c : Cmd} {s : State} (begins : Begins s id 0x65 c) (passed : handlePre c s = none) (primary : isSecondary s = false) :
    Does (.epochAbort id) id c s 0 0 fun x => x.mapTbl fun y => { y with handles := mdel y.handles c.target } := by
  refine congrArg Host.Outcome.next (runCmd_of_ok begins passed ?_)
  simp only [Cmd.begun_target, isSecondary_beginCmd, primary, Bool.false_eq_true, if_false]
  rfl

theorem epochAbort_missing {id : Nat} {c : Cmd} {s : State} (begins : Begins s id 0x65 c) (low : 1 ≤ c.target) (high : c.target ≤ 16)
    (plain : noFields c = true) (missing : mfind s.tbl.handles c.target = none) :
    exec (.epochAbort id) s = .next (finishFail id .objectNotFound (beginCmd id c s)) := by
  refine congrArg Host.Outcome.next (runCmd_of_failed_check begins.1 ?_)
  simp [handlePre, firstFail, show c.target ≠ 0 by omega, Nat.not_lt.2 high, plain, missing]

theorem epochStatus_does {id : Nat} {c : Cmd} {s : State} (begins : Begins s id 0x66 c) (shape : blockBad c 0 272 = false)
    (allowed : dmaAllowed s c.indAddr (epochBlock s).length = true) :
    Does (.epochStatus id) id c s 0 0 fun x => hostWrite c.indAddr (epochBlock s) x := by
  have fits : dmaAllowed (beginCmd id c s) c.indAddr (epochBlock (beginCmd id c s)).length = true := allowed
  refine congrArg Host.Outcome.next (runCmd_of_ok begins ?_ ((withBlock_of_allowed _ fits).trans rfl))
  simp [firstFail, shape]

theorem tableStatus_does {id : Nat} {c : Cmd} {tb : Table} {s : State} (begins : Begins s id 0x67 c) (shape : counterBlockBad c 255 80 = false)
    (keep : c.byte 63 = 0) (found : table? s c.target = some tb) (allowed : dmaAllowed s c.indAddr (tableBlock s c.target tb).length = true) :
    Does (.tableStatus id) id c s 0 0 fun x => hostWrite c.indAddr (tableBlock s c.target tb) x := by
  have off : clearWrapOn c = false := by rw [clearWrapOn, show byteAt c.entry 63 = 0 from keep]; rfl
  have fits : dmaAllowed (beginCmd id c s) c.indAddr (tableBlock (beginCmd id c s) c.target tb).length = true := allowed
  refine congrArg Host.Outcome.next (runCmd_of_ok begins ?_ ?_)
  · simp [firstFail, shape, found]
  · simp only [Cmd.begun_target, table?_beginCmd, found, Option.getD_some, clearWrapOn_begun, off, Bool.false_eq_true, if_false]
    rw [withBlock_of_allowed _ fits]
    rfl

section TableLookup
variable {id : Nat} {c : Cmd} {s : State} (begins : Begins s id 0x68 c) (shape : shapeBad c 255 0 = false) (long : 32 ≤ c.indLen)
  (allowed : dmaAllowed s c.indAddr c.indLen = true)
include begins shape long allowed

theorem tableLookup_queues {r : List Byte} (room : s.tbl.diag.length < 64) (whole : r.length = c.indLen) (request : byteAt r 0 = 0x21)
    (length : c.indLen = 32 + round8 (byteAt r 5)) (table : byteAt r 4 = c.target) : Runs (.tableLookup id (.data r)) s fun t =>
      t.tbl.diagQueue = s.tbl.diagQueue ++ [id] ∧ mfind t.tbl.diag id = some { Lookup.init with req := r, table := c.target } ∧
        t.tbl.tables = s.tbl.tables ∧ t.gar = s.gar := by
  have all : (r ++ zeros c.indLen).take c.indLen = r := by rw [← whole, List.take_left]
  have legal : ¬ (byteAt r 0 ≠ 0x21 ∨ c.indLen ≠ 32 + round8 (byteAt r 5) ∨ byteAt r 4 ≠ c.target) := by
    simp only [request, ← length, table, ne_eq, not_true_eq_false, or_self, not_false_eq_true]
  have answer : ∀ u : State, u = (if (table? s c.target).isSome then profEvent 0x0A c.target 1 (beginCmd id c s) else beginCmd id c s) →
      u.tbl = s.tbl ∧ u.gar = s.gar := by
    rintro u rfl
    split <;> exact ⟨rfl, rfl⟩
  obtain ⟨tbl, gar⟩ := answer _ rfl
  refine ⟨(awaitEnd id [] (if (table? s c.target).isSome then profEvent 0x0A c.target 1 (beginCmd id c s) else beginCmd id c s)).mapTbl fun t =>
      { t with diag := mput t.diag id { Lookup.init with req := r, table := c.target }, diagQueue := t.diagQueue ++ [id] },
    congrArg Host.Outcome.next ((runCmd_of_waiting begins ?_ rfl ?_).trans ?_), ?_⟩
  · simp [firstFail, shape, Nat.not_lt.2 long]
  · simp only [Cmd.begun_indAddr, Cmd.begun_indLen, Cmd.begun_target, dmaAllowed_beginCmd, allowed, Bool.not_true, Bool.false_eq_true, if_false,
      beginCmd_tbl, Nat.not_le.2 room, withHost, all, legal]
  · simp only [Cmd.begun_indAddr, Cmd.begun_indLen, Cmd.begun_target, dmaAllowed_beginCmd, allowed, Bool.not_true, Bool.false_eq_true, if_false,
      beginCmd_tbl, Nat.not_le.2 room, withHost, all, legal, table?_beginCmd, Ran.ok] <;> rfl
  · dsimp only
    simp only [State.mapTbl, awaitEnd_tbl, tbl, true_and]
    exact ⟨(mfind_mput ..).trans (if_pos rfl), (awaitEnd_gar ..).trans gar⟩

theorem tableLookup_busy (h : HostRead) (full : 64 ≤ s.tbl.diag.length) : exec (.tableLookup id h) s = .next (finishFail id .busy (beginCmd id c s)) := by
  refine congrArg Host.Outcome.next (runCmd_of_fail begins ?_ ?_)
  · simp [firstFail, shape, Nat.not_lt.2 long]
  · simp [allowed, full]

end TableLookup

/-- Settles O47: creation and deletion by what they leave of the tables, updates by their staging, epochs and lookups by their handles. -/
theorem tableCommands : Obligations.TableCommands := by
  unfold Obligations.TableCommands
  refine ⟨?_, fun _ _ _ _ begins passed primary => tableDelete_runs begins passed primary, fun _ _ _ => tableDelete_busy, ?_, ?_, ?_, ?_, ?_,
    fun _ _ _ _ begins target plain primary => epochOpen_does begins target plain primary, fun _ _ _ => epochOpen_full, fun _ _ => freeHandle_lowest,
    fun _ _ _ _ => epochCommit_empty, fun _ _ _ _ => epochCommit_queues, fun _ _ _ => epochAbort_does, fun _ _ _ => epochAbort_missing,
    fun _ _ _ => epochStatus_does, fun _ _ _ _ => tableStatus_does,
    fun _ _ _ _ begins shape long allowed => tableLookup_queues begins shape long allowed,
    fun _ h _ _ begins shape long allowed => tableLookup_busy begins shape long allowed h⟩
  · intro id nb c s begins passed primary onDie need free ready fits
    exact tableCreate_runs primary onDie need free ready fits begins passed
  · intro id pl mg l c tb hd s begins passed primary found ready allowed whole one
    exact tableUpdate_stages begins passed primary found ready allowed whole one
  · intro id st pl mg l c tb hd s begins passed primary found ready allowed whole one
    exact tableUpdate_failing begins passed primary found ready allowed whole one
  · rintro id pl mg l c tb w s begins passed primary found ready allowed whole one lone legal rfl
    exact tableUpdate_commits begins passed primary found ready allowed whole one lone legal
  · intro w f r u s hbm region unit bad
    subst region unit
    simp [writePlaces, Nat.not_le.2 hbm, bad]
  · intro w bad l r u s
    simp [writePlaces]

end Sys2Proof.Machine
end

section
/-! PROOFS. What cause [8] of health leaves of ports, scheduler and buffer. -/
namespace Sys2Proof.Machine

@[simp] theorem setCause_four_ports (s : State) : (setCause 4 s).ports = s.ports := by
  rcases setCause_four_cases s with ⟨f, same⟩ | ⟨f, g, v, o, d, same⟩ <;> rw [same]
  · rfl
  · rw [post_ports]
    rfl

@[simp] theorem setCause_four_sched (s : State) : (setCause 4 s).sched = s.sched := by
  rcases setCause_four_cases s with ⟨f, same⟩ | ⟨f, g, v, o, d, same⟩ <;> rw [same]
  · rfl
  · rw [post_sched]
    rfl

@[simp] theorem setCause_four_buf (s : State) : (setCause 4 s).buf = s.buf := by
  rcases setCause_four_cases s with ⟨f, same⟩ | ⟨f, g, v, o, d, same⟩ <;> rw [same]
  · rfl
  · rw [post_buf]
    rfl

end Sys2Proof.Machine
end

section
/-! PROOFS. The queues of the buffer, requests for prefetch and marks of traces aside. -/
namespace Sys2Proof.Machine

@[simp] theorem cellWritten_gar (cell : Nat) (s : State) : (cellWritten cell s).gar = s.gar := by
  simp [cellWritten]

@[simp] theorem packetReads_gar (w : Reader) (named : Bool) (l : List Found) (s : State) : (packetReads w named l s).gar = s.gar := by
  simp [packetReads]

@[simp] theorem traceLose_gar (s : State) : (traceLose s).gar = s.gar := (rfl)

@[simp] theorem traceWrite_gar (t : Option Trace) (cause : Nat) (s : State) : (traceWrite t cause s).gar = s.gar := by
  unfold traceWrite
  dsimp only
  (repeat' split) <;> simp

@[simp] theorem modQueue_gar (eg : Bool) (q : Nat) (f : Queue → Queue) (s : State) : (modQueue eg q f s).gar = s.gar := by
  unfold modQueue
  split <;> simp

@[simp] theorem requestQueue_gar (eg : Bool) (q : Nat) (s : State) : (requestQueue eg q s).gar = s.gar := by
  unfold requestQueue
  split <;> simp

@[simp] theorem requestAll_gar (s : State) : (requestAll s).gar = s.gar := by
  simp [requestAll]

@[simp] theorem markHead_gar (eg : Bool) (q : Nat) (s : State) : (markHead eg q s).gar = s.gar := by
  simp [markHead]

@[simp] theorem popHead_gar (eg : Bool) (q : Nat) (s : State) : (popHead eg q s).gar = s.gar := by
  simp [popHead]

@[simp] theorem queueDrop_gar (eg : Bool) (q len : Nat) (s : State) : (queueDrop eg q len s).gar = s.gar := by
  simp [queueDrop]

@[simp] theorem causeCount_gar (port : Nat) (eg : Bool) (k n : Nat) (s : State) : (causeCount port eg k n s).gar = s.gar := (rfl)

@[simp] theorem dropCause_gar (eg : Bool) (q len k tc : Nat) (t : Option Trace) (s : State) : (dropCause eg q len k tc t s).gar = s.gar := by
  simp [dropCause]

@[simp] theorem passCount_gar (eg : Bool) (q len : Nat) (s : State) : (passCount eg q len s).gar = s.gar := by
  simp [passCount]

@[simp] theorem cellWritten_ports (cell : Nat) (s : State) : (cellWritten cell s).ports = s.ports := by
  simp [cellWritten]

@[simp] theorem rowError_ports (f : Found) (bad : Bool) (s : State) : (rowError f bad s).ports = s.ports := by
  simp [rowError]

@[simp] theorem modRegion_ports (r : Nat) (f : Region → Region) (s : State) : (modRegion r f s).ports = s.ports := (rfl)

@[simp] theorem memCe_ports (r : Nat) (s : State) : (memCe r s).ports = s.ports := (rfl)

@[simp] theorem regionCount_ports (r k n : Nat) (s : State) : (regionCount r k n s).ports = s.ports := (rfl)

@[simp] theorem postUe_ports (w : Reader) (r unit : Nat) (s : State) : (postUe w r unit s).ports = s.ports := by
  simp [postUe]

@[simp] theorem memUe_ports (w : Reader) (r unit : Nat) (s : State) : (memUe w r unit s).ports = s.ports := by
  simp [memUe]

@[simp] theorem cellUe_ports (cell : Nat) (s : State) : (cellUe cell s).ports = s.ports := by
  unfold cellUe
  split
  · rfl
  · dsimp only
    split
    · rfl
    · split
      · simp
      · rfl

@[simp] theorem memRead_ports (w : Reader) (f : Found) (s : State) : (memRead w f s).ports = s.ports := by
  unfold memRead
  split <;> simp

@[simp] theorem memReads_ports (w : Reader) (l : List Found) (s : State) : (memReads w l s).ports = s.ports := by
  simp [memReads]

@[simp] theorem packetReads_ports (w : Reader) (named : Bool) (l : List Found) (s : State) : (packetReads w named l s).ports = s.ports := by
  simp [packetReads]

@[simp] theorem traceLose_ports (s : State) : (traceLose s).ports = s.ports := (rfl)

@[simp] theorem traceWrite_ports (t : Option Trace) (cause : Nat) (s : State) : (traceWrite t cause s).ports = s.ports := by
  unfold traceWrite
  dsimp only
  (repeat' split) <;> simp

@[simp] theorem modQueue_ports (eg : Bool) (q : Nat) (f : Queue → Queue) (s : State) : (modQueue eg q f s).ports = s.ports := by
  unfold modQueue
  split <;> simp

@[simp] theorem requestQueue_ports (eg : Bool) (q : Nat) (s : State) : (requestQueue eg q s).ports = s.ports := by
  unfold requestQueue
  split <;> simp

@[simp] theorem requestAll_ports (s : State) : (requestAll s).ports = s.ports := by
  simp [requestAll]

@[simp] theorem markHead_ports (eg : Bool) (q : Nat) (s : State) : (markHead eg q s).ports = s.ports := by
  simp [markHead]

@[simp] theorem popHead_ports (eg : Bool) (q : Nat) (s : State) : (popHead eg q s).ports = s.ports := by
  simp [popHead]

@[simp] theorem unpick_ports (q : Nat) (s : State) : (unpick q s).ports = s.ports := (rfl)

@[simp] theorem popWaiting_ports (eg : Bool) (q : Nat) (s : State) : (popWaiting eg q s).ports = s.ports := by
  simp [popWaiting]

@[simp] theorem queueDrop_ports (eg : Bool) (q len : Nat) (s : State) : (queueDrop eg q len s).ports = s.ports := by
  simp [queueDrop]

@[simp] theorem causeCount_ports (port : Nat) (eg : Bool) (k n : Nat) (s : State) : (causeCount port eg k n s).ports = s.ports := (rfl)

@[simp] theorem dropCause_ports (eg : Bool) (q len k tc : Nat) (t : Option Trace) (s : State) : (dropCause eg q len k tc t s).ports = s.ports := by
  simp [dropCause]

@[simp] theorem passCount_ports (eg : Bool) (q len : Nat) (s : State) : (passCount eg q len s).ports = s.ports := by
  simp [passCount]

@[simp] theorem sendOuter_ports (n : Nat) (recs : List Byte) (s : State) : (sendOuter n recs s).ports = s.ports := (rfl)

@[simp] theorem dropList_ports (q : Nat) (s : State) : (dropList q s).ports = s.ports := by
  simp [dropList]

@[simp] theorem cellWritten_sched (cell : Nat) (s : State) : (cellWritten cell s).sched = s.sched := by
  simp [cellWritten]

@[simp] theorem modStack_sched (m : Nat) (f : Stack → Stack) (s : State) : (modStack m f s).sched = s.sched := (rfl)

@[simp] theorem rowError_sched (f : Found) (bad : Bool) (s : State) : (rowError f bad s).sched = s.sched := by
  simp [rowError]

@[simp] theorem modRegion_sched (r : Nat) (f : Region → Region) (s : State) : (modRegion r f s).sched = s.sched := (rfl)

@[simp] theorem memCe_sched (r : Nat) (s : State) : (memCe r s).sched = s.sched := (rfl)

@[simp] theorem regionCount_sched (r k n : Nat) (s : State) : (regionCount r k n s).sched = s.sched := (rfl)

@[simp] theorem postUe_sched (w : Reader) (r unit : Nat) (s : State) : (postUe w r unit s).sched = s.sched := by
  simp [postUe]

@[simp] theorem memUe_sched (w : Reader) (r unit : Nat) (s : State) : (memUe w r unit s).sched = s.sched := by
  simp [memUe]

@[simp] theorem cellUe_sched (cell : Nat) (s : State) : (cellUe cell s).sched = s.sched := by
  unfold cellUe
  split
  · rfl
  · dsimp only
    split
    · rfl
    · split
      · simp
      · rfl

@[simp] theorem memRead_sched (w : Reader) (f : Found) (s : State) : (memRead w f s).sched = s.sched := by
  unfold memRead
  split <;> simp

@[simp] theorem memReads_sched (w : Reader) (l : List Found) (s : State) : (memReads w l s).sched = s.sched := by
  simp [memReads]

@[simp] theorem packetReads_sched (w : Reader) (named : Bool) (l : List Found) (s : State) : (packetReads w named l s).sched = s.sched := by
  simp [packetReads]

@[simp] theorem markHead_sched (eg : Bool) (q : Nat) (s : State) : (markHead eg q s).sched = s.sched := by
  simp [markHead]

@[simp] theorem popHead_sched (eg : Bool) (q : Nat) (s : State) : (popHead eg q s).sched = s.sched := by
  simp [popHead]

@[simp] theorem popWaiting_sched (eg : Bool) (q : Nat) (s : State) : (popWaiting eg q s).sched = s.sched := by
  simp [popWaiting]

@[simp] theorem passCount_sched (eg : Bool) (q len : Nat) (s : State) : (passCount eg q len s).sched = s.sched := by
  simp [passCount]

@[simp] theorem sendOuter_sched (n : Nat) (recs : List Byte) (s : State) : (sendOuter n recs s).sched = s.sched := (rfl)

@[simp] theorem cellWritten_buf (cell : Nat) (s : State) : (cellWritten cell s).buf = s.buf := by
  simp [cellWritten]

@[simp] theorem traceLose_buf (s : State) : (traceLose s).buf = s.buf := (rfl)

@[simp] theorem traceWrite_buf (t : Option Trace) (cause : Nat) (s : State) : (traceWrite t cause s).buf = s.buf := by
  unfold traceWrite
  dsimp only
  (repeat' split) <;> simp

@[simp] theorem sendOuter_buf (n : Nat) (recs : List Byte) (s : State) : (sendOuter n recs s).buf = s.buf := (rfl)

@[simp] theorem unpick_buf (q : Nat) (s : State) : (unpick q s).buf = s.buf := (rfl)

@[simp] theorem modStack_buf (m : Nat) (f : Stack → Stack) (s : State) : (modStack m f s).buf = s.buf := (rfl)

@[simp] theorem rowError_buf (f : Found) (bad : Bool) (s : State) : (rowError f bad s).buf = s.buf := by
  simp [rowError]

@[simp] theorem modRegion_buf (r : Nat) (f : Region → Region) (s : State) : (modRegion r f s).buf = s.buf := (rfl)

@[simp] theorem memCe_buf (r : Nat) (s : State) : (memCe r s).buf = s.buf := (rfl)

@[simp] theorem regionCount_buf (r k n : Nat) (s : State) : (regionCount r k n s).buf = s.buf := (rfl)

@[simp] theorem postUe_buf (w : Reader) (r unit : Nat) (s : State) : (postUe w r unit s).buf = s.buf := by
  simp [postUe]

@[simp] theorem memUe_buf (w : Reader) (r unit : Nat) (s : State) : (memUe w r unit s).buf = s.buf := by
  simp [memUe]

@[simp] theorem State_tick_buf_iq (s : State) : s.tick.buf.iq = s.buf.iq := (rfl)

@[simp] theorem ite_buf_iq {c : Prop} [Decidable c] (a b : State) :
    (if c then a else b).buf.iq = if c then a.buf.iq else b.buf.iq := apply_ite (fun s : State => s.buf.iq) c a b

@[simp] theorem foldl_buf_iq {α : Type} {f : State → α → State} (same : ∀ s a, (f s a).buf.iq = s.buf.iq) (l : List α) (s : State) :
    (l.foldl f s).buf.iq = s.buf.iq := by
  induction l generalizing s with
  | nil => rfl
  | cons a l ih => exact (ih (f s a)).trans (same s a)

@[simp] theorem forEach_buf_iq {f : Nat → State → State} (same : ∀ n s, (f n s).buf.iq = s.buf.iq) (l : List Nat) (s : State) :
    (forEach l f s).buf.iq = s.buf.iq :=
  foldl_buf_iq (fun s n => same n s) l s

@[simp] theorem loseEvent_buf_iq (s : State) : (loseEvent s).buf.iq = s.buf.iq := congrArg (·.iq) (loseEvent_keeps s).buf

@[simp] theorem hostWrite_buf_iq (addr : Nat) (bytes : List Byte) (s : State) : (hostWrite addr bytes s).buf.iq = s.buf.iq := congrArg (·.iq) (hostWrite_keeps addr bytes s).buf

@[simp] theorem msixFire_buf_iq (v : Nat) (s : State) : (msixFire v s).buf.iq = s.buf.iq := congrArg (·.iq) (msixFire_keeps v s).buf

@[simp] theorem msixCount_buf_iq (v count n : Nat) (s : State) : (msixCount v count n s).buf.iq = s.buf.iq := congrArg (·.iq) (msixCount_keeps v count n s).buf

@[simp] theorem evqWrite_buf_iq (e : Event) (s : State) : (evqWrite e s).buf.iq = s.buf.iq := congrArg (·.iq) (evqWrite_keeps e s).buf

@[simp] theorem evqDrain_buf_iq (l : List Event) (s : State) : (evqDrain l s).2.buf.iq = s.buf.iq := by
  induction l generalizing s with
  | nil => rfl
  | cons e r ih =>
    unfold evqDrain
    split
    · rw [ih, evqWrite_buf_iq]
    · rfl

@[simp] theorem setHifErr_buf_iq (bits : BitVec 7) (s : State) : (setHifErr bits s).buf.iq = s.buf.iq := congrArg (·.iq) (setHifErr_keeps bits s).buf

@[simp] theorem deliverEvents_buf_iq (s : State) : (deliverEvents s).buf.iq = s.buf.iq := congrArg (·.iq) (deliverEvents_keeps s).buf

@[simp] theorem postEvent_buf_iq (e : Event) (s : State) : (postEvent e s).buf.iq = s.buf.iq := congrArg (·.iq) (postEvent_keeps e s).buf

@[simp] theorem post_buf_iq (code sev obj detail : Nat) (s : State) : (post code sev obj detail s).buf.iq = s.buf.iq := congrArg (·.iq) (post_keeps code sev obj detail s).buf

@[simp] theorem mirrorDrain_buf_iq (n : Nat) (s : State) : (mirrorDrain n s).buf.iq = s.buf.iq := by
  induction n generalizing s with
  | zero => rfl
  | succ n ih =>
    unfold mirrorDrain
    split
    · rfl
    · split
      · rfl
      · rw [ih]
        rfl

@[simp] theorem mirrorPush_buf_iq (k num : Nat) (b : List Byte) (s : State) : (mirrorPush k num b s).buf.iq = s.buf.iq := by
  unfold mirrorPush
  rw [mirrorDrain_buf_iq]
  rfl

@[simp] theorem mirrorConfig_buf_iq (op target : Nat) (inl data : List Byte) (s : State) : (mirrorConfig op target inl data s).buf.iq = s.buf.iq := by
  unfold mirrorConfig
  rw [mirrorPush_buf_iq]
  rfl

@[simp] theorem mirrorCmd_buf_iq (c : Cmd) (st : Status) (s : State) : (mirrorCmd c st s).buf.iq = s.buf.iq := congrArg (·.iq) (mirrorCmd_done c st s).buf

@[simp] theorem profEvent_buf_iq (ev inst n : Nat) (s : State) : (profEvent ev inst n s).buf.iq = s.buf.iq := congrArg (·.iq) (profEvent_done ev inst n s).buf

@[simp] theorem ringError_buf_iq (r cause : Nat) (s : State) : (ringError r cause s).buf.iq = s.buf.iq := congrArg (·.iq) (ringError_keeps r cause s).buf

@[simp] theorem writeCompletion_buf_iq (c : Completion) (s : State) : (writeCompletion c s).buf.iq = s.buf.iq := congrArg (·.iq) (writeCompletion_keeps c s).buf

@[simp] theorem finishOne_buf_iq (id : Nat) (st : Status) (r0 r1 : BitVec 64) (eff : Bool) (s : State) : (finishOne id st r0 r1 eff s).buf.iq = s.buf.iq := congrArg (·.iq) (finishOne_done id st r0 r1 eff s).buf

@[simp] theorem settleDeletes_buf_iq (n : Nat) (s : State) : (settleDeletes n s).buf.iq = s.buf.iq := by
  induction n generalizing s with
  | zero => rfl
  | succ n ih =>
    unfold settleDeletes
    split
    · rfl
    · rw [ih, finishOne_buf_iq]
      rfl

@[simp] theorem finish_buf_iq (id : Nat) (st : Status) (r0 r1 : BitVec 64) (eff : Bool) (s : State) : (finish id st r0 r1 eff s).buf.iq = s.buf.iq := congrArg (·.iq) (finish_done id st r0 r1 eff s).buf

@[simp] theorem endProposal_buf_iq (item : Nat) (st : Status) (s : State) : (endProposal item st s).buf.iq = s.buf.iq := congrArg (·.iq) (endProposal_cause item st s).buf

@[simp] theorem abortProposals_buf_iq (s : State) : (abortProposals s).buf.iq = s.buf.iq := congrArg (·.iq) (abortProposals_cause s).buf

@[simp] theorem setCauses_buf_iq (causes : BitVec 12) (s : State) : (setCauses causes s).buf.iq = s.buf.iq := congrArg (·.iq) (setCauses_cause causes s).buf

@[simp] theorem setCause_buf_iq (i : Nat) (s : State) : (setCause i s).buf.iq = s.buf.iq := by
  simp [setCause]

@[simp] theorem cellUe_buf_iq (cell : Nat) (s : State) : (cellUe cell s).buf.iq = s.buf.iq := by
  unfold cellUe
  split
  · rfl
  · dsimp only
    split
    · rfl
    · split
      · simp
      · rfl

@[simp] theorem modStack_buf_iq (m : Nat) (f : Stack → Stack) (s : State) : (modStack m f s).buf.iq = s.buf.iq := (rfl)

@[simp] theorem rowError_buf_iq (f : Found) (bad : Bool) (s : State) : (rowError f bad s).buf.iq = s.buf.iq := by
  simp [rowError]

@[simp] theorem modRegion_buf_iq (r : Nat) (f : Region → Region) (s : State) : (modRegion r f s).buf.iq = s.buf.iq := (rfl)

@[simp] theorem memCe_buf_iq (r : Nat) (s : State) : (memCe r s).buf.iq = s.buf.iq := (rfl)

@[simp] theorem postUe_buf_iq (w : Reader) (r unit : Nat) (s : State) : (postUe w r unit s).buf.iq = s.buf.iq := by
  simp [postUe]

@[simp] theorem regionCount_buf_iq (r k n : Nat) (s : State) : (regionCount r k n s).buf.iq = s.buf.iq := (rfl)

@[simp] theorem memUe_buf_iq (w : Reader) (r unit : Nat) (s : State) : (memUe w r unit s).buf.iq = s.buf.iq := by
  simp [memUe]

@[simp] theorem memRead_buf_iq (w : Reader) (f : Found) (s : State) : (memRead w f s).buf.iq = s.buf.iq := by
  unfold memRead
  (repeat' split) <;> simp

@[simp] theorem memReads_buf_iq (w : Reader) (l : List Found) (s : State) : (memReads w l s).buf.iq = s.buf.iq := by
  simp [memReads]

@[simp] theorem cellWritten_buf_iq (cell : Nat) (s : State) : (cellWritten cell s).buf.iq = s.buf.iq := by
  simp [cellWritten]

@[simp] theorem packetReads_buf_iq (w : Reader) (named : Bool) (l : List Found) (s : State) : (packetReads w named l s).buf.iq = s.buf.iq := by
  simp [packetReads]

@[simp] theorem State_tick_buf_eq (s : State) : s.tick.buf.eq = s.buf.eq := (rfl)

@[simp] theorem ite_buf_eq {c : Prop} [Decidable c] (a b : State) :
    (if c then a else b).buf.eq = if c then a.buf.eq else b.buf.eq := apply_ite (fun s : State => s.buf.eq) c a b

@[simp] theorem foldl_buf_eq {α : Type} {f : State → α → State} (same : ∀ s a, (f s a).buf.eq = s.buf.eq) (l : List α) (s : State) :
    (l.foldl f s).buf.eq = s.buf.eq := by
  induction l generalizing s with
  | nil => rfl
  | cons a l ih => exact (ih (f s a)).trans (same s a)

@[simp] theorem forEach_buf_eq {f : Nat → State → State} (same : ∀ n s, (f n s).buf.eq = s.buf.eq) (l : List Nat) (s : State) :
    (forEach l f s).buf.eq = s.buf.eq :=
  foldl_buf_eq (fun s n => same n s) l s

@[simp] theorem loseEvent_buf_eq (s : State) : (loseEvent s).buf.eq = s.buf.eq := congrArg (·.eq) (loseEvent_keeps s).buf

@[simp] theorem hostWrite_buf_eq (addr : Nat) (bytes : List Byte) (s : State) : (hostWrite addr bytes s).buf.eq = s.buf.eq := congrArg (·.eq) (hostWrite_keeps addr bytes s).buf

@[simp] theorem msixFire_buf_eq (v : Nat) (s : State) : (msixFire v s).buf.eq = s.buf.eq := congrArg (·.eq) (msixFire_keeps v s).buf

@[simp] theorem msixCount_buf_eq (v count n : Nat) (s : State) : (msixCount v count n s).buf.eq = s.buf.eq := congrArg (·.eq) (msixCount_keeps v count n s).buf

@[simp] theorem evqWrite_buf_eq (e : Event) (s : State) : (evqWrite e s).buf.eq = s.buf.eq := congrArg (·.eq) (evqWrite_keeps e s).buf

@[simp] theorem evqDrain_buf_eq (l : List Event) (s : State) : (evqDrain l s).2.buf.eq = s.buf.eq := by
  induction l generalizing s with
  | nil => rfl
  | cons e r ih =>
    unfold evqDrain
    split
    · rw [ih, evqWrite_buf_eq]
    · rfl

@[simp] theorem setHifErr_buf_eq (bits : BitVec 7) (s : State) : (setHifErr bits s).buf.eq = s.buf.eq := congrArg (·.eq) (setHifErr_keeps bits s).buf

@[simp] theorem deliverEvents_buf_eq (s : State) : (deliverEvents s).buf.eq = s.buf.eq := congrArg (·.eq) (deliverEvents_keeps s).buf

@[simp] theorem postEvent_buf_eq (e : Event) (s : State) : (postEvent e s).buf.eq = s.buf.eq := congrArg (·.eq) (postEvent_keeps e s).buf

@[simp] theorem post_buf_eq (code sev obj detail : Nat) (s : State) : (post code sev obj detail s).buf.eq = s.buf.eq := congrArg (·.eq) (post_keeps code sev obj detail s).buf

@[simp] theorem mirrorDrain_buf_eq (n : Nat) (s : State) : (mirrorDrain n s).buf.eq = s.buf.eq := by
  induction n generalizing s with
  | zero => rfl
  | succ n ih =>
    unfold mirrorDrain
    split
    · rfl
    · split
      · rfl
      · rw [ih]
        rfl

@[simp] theorem mirrorPush_buf_eq (k num : Nat) (b : List Byte) (s : State) : (mirrorPush k num b s).buf.eq = s.buf.eq := by
  unfold mirrorPush
  rw [mirrorDrain_buf_eq]
  rfl

@[simp] theorem mirrorConfig_buf_eq (op target : Nat) (inl data : List Byte) (s : State) : (mirrorConfig op target inl data s).buf.eq = s.buf.eq := by
  unfold mirrorConfig
  rw [mirrorPush_buf_eq]
  rfl

@[simp] theorem mirrorCmd_buf_eq (c : Cmd) (st : Status) (s : State) : (mirrorCmd c st s).buf.eq = s.buf.eq := congrArg (·.eq) (mirrorCmd_done c st s).buf

@[simp] theorem profEvent_buf_eq (ev inst n : Nat) (s : State) : (profEvent ev inst n s).buf.eq = s.buf.eq := congrArg (·.eq) (profEvent_done ev inst n s).buf

@[simp] theorem ringError_buf_eq (r cause : Nat) (s : State) : (ringError r cause s).buf.eq = s.buf.eq := congrArg (·.eq) (ringError_keeps r cause s).buf

@[simp] theorem writeCompletion_buf_eq (c : Completion) (s : State) : (writeCompletion c s).buf.eq = s.buf.eq := congrArg (·.eq) (writeCompletion_keeps c s).buf

@[simp] theorem finishOne_buf_eq (id : Nat) (st : Status) (r0 r1 : BitVec 64) (eff : Bool) (s : State) : (finishOne id st r0 r1 eff s).buf.eq = s.buf.eq := congrArg (·.eq) (finishOne_done id st r0 r1 eff s).buf

@[simp] theorem settleDeletes_buf_eq (n : Nat) (s : State) : (settleDeletes n s).buf.eq = s.buf.eq := by
  induction n generalizing s with
  | zero => rfl
  | succ n ih =>
    unfold settleDeletes
    split
    · rfl
    · rw [ih, finishOne_buf_eq]
      rfl

@[simp] theorem finish_buf_eq (id : Nat) (st : Status) (r0 r1 : BitVec 64) (eff : Bool) (s : State) : (finish id st r0 r1 eff s).buf.eq = s.buf.eq := congrArg (·.eq) (finish_done id st r0 r1 eff s).buf

@[simp] theorem endProposal_buf_eq (item : Nat) (st : Status) (s : State) : (endProposal item st s).buf.eq = s.buf.eq := congrArg (·.eq) (endProposal_cause item st s).buf

@[simp] theorem abortProposals_buf_eq (s : State) : (abortProposals s).buf.eq = s.buf.eq := congrArg (·.eq) (abortProposals_cause s).buf

@[simp] theorem setCauses_buf_eq (causes : BitVec 12) (s : State) : (setCauses causes s).buf.eq = s.buf.eq := congrArg (·.eq) (setCauses_cause causes s).buf

@[simp] theorem setCause_buf_eq (i : Nat) (s : State) : (setCause i s).buf.eq = s.buf.eq := by
  simp [setCause]

@[simp] theorem cellUe_buf_eq (cell : Nat) (s : State) : (cellUe cell s).buf.eq = s.buf.eq := by
  unfold cellUe
  split
  · rfl
  · dsimp only
    split
    · rfl
    · split
      · simp
      · rfl

@[simp] theorem modStack_buf_eq (m : Nat) (f : Stack → Stack) (s : State) : (modStack m f s).buf.eq = s.buf.eq := (rfl)

@[simp] theorem rowError_buf_eq (f : Found) (bad : Bool) (s : State) : (rowError f bad s).buf.eq = s.buf.eq := by
  simp [rowError]

@[simp] theorem modRegion_buf_eq (r : Nat) (f : Region → Region) (s : State) : (modRegion r f s).buf.eq = s.buf.eq := (rfl)

@[simp] theorem memCe_buf_eq (r : Nat) (s : State) : (memCe r s).buf.eq = s.buf.eq := (rfl)

@[simp] theorem postUe_buf_eq (w : Reader) (r unit : Nat) (s : State) : (postUe w r unit s).buf.eq = s.buf.eq := by
  simp [postUe]

@[simp] theorem regionCount_buf_eq (r k n : Nat) (s : State) : (regionCount r k n s).buf.eq = s.buf.eq := (rfl)

@[simp] theorem memUe_buf_eq (w : Reader) (r unit : Nat) (s : State) : (memUe w r unit s).buf.eq = s.buf.eq := by
  simp [memUe]

@[simp] theorem memRead_buf_eq (w : Reader) (f : Found) (s : State) : (memRead w f s).buf.eq = s.buf.eq := by
  unfold memRead
  (repeat' split) <;> simp

@[simp] theorem memReads_buf_eq (w : Reader) (l : List Found) (s : State) : (memReads w l s).buf.eq = s.buf.eq := by
  simp [memReads]

@[simp] theorem cellWritten_buf_eq (cell : Nat) (s : State) : (cellWritten cell s).buf.eq = s.buf.eq := by
  simp [cellWritten]

@[simp] theorem packetReads_buf_eq (w : Reader) (named : Bool) (l : List Found) (s : State) : (packetReads w named l s).buf.eq = s.buf.eq := by
  simp [packetReads]

@[simp] theorem State_tick_buf_causes (s : State) : s.tick.buf.causes = s.buf.causes := (rfl)

@[simp] theorem ite_buf_causes {c : Prop} [Decidable c] (a b : State) :
    (if c then a else b).buf.causes = if c then a.buf.causes else b.buf.causes := apply_ite (fun s : State => s.buf.causes) c a b

@[simp] theorem foldl_buf_causes {α : Type} {f : State → α → State} (same : ∀ s a, (f s a).buf.causes = s.buf.causes) (l : List α) (s : State) :
    (l.foldl f s).buf.causes = s.buf.causes := by
  induction l generalizing s with
  | nil => rfl
  | cons a l ih => exact (ih (f s a)).trans (same s a)

@[simp] theorem forEach_buf_causes {f : Nat → State → State} (same : ∀ n s, (f n s).buf.causes = s.buf.causes) (l : List Nat) (s : State) :
    (forEach l f s).buf.causes = s.buf.causes :=
  foldl_buf_causes (fun s n => same n s) l s

@[simp] theorem loseEvent_buf_causes (s : State) : (loseEvent s).buf.causes = s.buf.causes := congrArg (·.causes) (loseEvent_keeps s).buf

@[simp] theorem hostWrite_buf_causes (addr : Nat) (bytes : List Byte) (s : State) : (hostWrite addr bytes s).buf.causes = s.buf.causes := congrArg (·.causes) (hostWrite_keeps addr bytes s).buf

@[simp] theorem msixFire_buf_causes (v : Nat) (s : State) : (msixFire v s).buf.causes = s.buf.causes := congrArg (·.causes) (msixFire_keeps v s).buf

@[simp] theorem msixCount_buf_causes (v count n : Nat) (s : State) : (msixCount v count n s).buf.causes = s.buf.causes := congrArg (·.causes) (msixCount_keeps v count n s).buf

@[simp] theorem evqWrite_buf_causes (e : Event) (s : State) : (evqWrite e s).buf.causes = s.buf.causes := congrArg (·.causes) (evqWrite_keeps e s).buf

@[simp] theorem evqDrain_buf_causes (l : List Event) (s : State) : (evqDrain l s).2.buf.causes = s.buf.causes := by
  induction l generalizing s with
  | nil => rfl
  | cons e r ih =>
    unfold evqDrain
    split
    · rw [ih, evqWrite_buf_causes]
    · rfl

@[simp] theorem setHifErr_buf_causes (bits : BitVec 7) (s : State) : (setHifErr bits s).buf.causes = s.buf.causes := congrArg (·.causes) (setHifErr_keeps bits s).buf

@[simp] theorem deliverEvents_buf_causes (s : State) : (deliverEvents s).buf.causes = s.buf.causes := congrArg (·.causes) (deliverEvents_keeps s).buf

@[simp] theorem postEvent_buf_causes (e : Event) (s : State) : (postEvent e s).buf.causes = s.buf.causes := congrArg (·.causes) (postEvent_keeps e s).buf

@[simp] theorem post_buf_causes (code sev obj detail : Nat) (s : State) : (post code sev obj detail s).buf.causes = s.buf.causes := congrArg (·.causes) (post_keeps code sev obj detail s).buf

@[simp] theorem mirrorDrain_buf_causes (n : Nat) (s : State) : (mirrorDrain n s).buf.causes = s.buf.causes := by
  induction n generalizing s with
  | zero => rfl
  | succ n ih =>
    unfold mirrorDrain
    split
    · rfl
    · split
      · rfl
      · rw [ih]
        rfl

@[simp] theorem mirrorPush_buf_causes (k num : Nat) (b : List Byte) (s : State) : (mirrorPush k num b s).buf.causes = s.buf.causes := by
  unfold mirrorPush
  rw [mirrorDrain_buf_causes]
  rfl

@[simp] theorem mirrorConfig_buf_causes (op target : Nat) (inl data : List Byte) (s : State) : (mirrorConfig op target inl data s).buf.causes = s.buf.causes := by
  unfold mirrorConfig
  rw [mirrorPush_buf_causes]
  rfl

@[simp] theorem mirrorCmd_buf_causes (c : Cmd) (st : Status) (s : State) : (mirrorCmd c st s).buf.causes = s.buf.causes := congrArg (·.causes) (mirrorCmd_done c st s).buf

@[simp] theorem profEvent_buf_causes (ev inst n : Nat) (s : State) : (profEvent ev inst n s).buf.causes = s.buf.causes := congrArg (·.causes) (profEvent_done ev inst n s).buf

@[simp] theorem ringError_buf_causes (r cause : Nat) (s : State) : (ringError r cause s).buf.causes = s.buf.causes := congrArg (·.causes) (ringError_keeps r cause s).buf

@[simp] theorem writeCompletion_buf_causes (c : Completion) (s : State) : (writeCompletion c s).buf.causes = s.buf.causes := congrArg (·.causes) (writeCompletion_keeps c s).buf

@[simp] theorem finishOne_buf_causes (id : Nat) (st : Status) (r0 r1 : BitVec 64) (eff : Bool) (s : State) : (finishOne id st r0 r1 eff s).buf.causes = s.buf.causes := congrArg (·.causes) (finishOne_done id st r0 r1 eff s).buf

@[simp] theorem settleDeletes_buf_causes (n : Nat) (s : State) : (settleDeletes n s).buf.causes = s.buf.causes := by
  induction n generalizing s with
  | zero => rfl
  | succ n ih =>
    unfold settleDeletes
    split
    · rfl
    · rw [ih, finishOne_buf_causes]
      rfl

@[simp] theorem finish_buf_causes (id : Nat) (st : Status) (r0 r1 : BitVec 64) (eff : Bool) (s : State) : (finish id st r0 r1 eff s).buf.causes = s.buf.causes := congrArg (·.causes) (finish_done id st r0 r1 eff s).buf

@[simp] theorem endProposal_buf_causes (item : Nat) (st : Status) (s : State) : (endProposal item st s).buf.causes = s.buf.causes := congrArg (·.causes) (endProposal_cause item st s).buf

@[simp] theorem abortProposals_buf_causes (s : State) : (abortProposals s).buf.causes = s.buf.causes := congrArg (·.causes) (abortProposals_cause s).buf

@[simp] theorem setCauses_buf_causes (causes : BitVec 12) (s : State) : (setCauses causes s).buf.causes = s.buf.causes := congrArg (·.causes) (setCauses_cause causes s).buf

@[simp] theorem setCause_buf_causes (i : Nat) (s : State) : (setCause i s).buf.causes = s.buf.causes := by
  simp [setCause]

@[simp] theorem cellUe_buf_causes (cell : Nat) (s : State) : (cellUe cell s).buf.causes = s.buf.causes := by
  unfold cellUe
  split
  · rfl
  · dsimp only
    split
    · rfl
    · split
      · simp
      · rfl

@[simp] theorem modStack_buf_causes (m : Nat) (f : Stack → Stack) (s : State) : (modStack m f s).buf.causes = s.buf.causes := (rfl)

@[simp] theorem rowError_buf_causes (f : Found) (bad : Bool) (s : State) : (rowError f bad s).buf.causes = s.buf.causes := by
  simp [rowError]

@[simp] theorem modRegion_buf_causes (r : Nat) (f : Region → Region) (s : State) : (modRegion r f s).buf.causes = s.buf.causes := (rfl)

@[simp] theorem memCe_buf_causes (r : Nat) (s : State) : (memCe r s).buf.causes = s.buf.causes := (rfl)

@[simp] theorem postUe_buf_causes (w : Reader) (r unit : Nat) (s : State) : (postUe w r unit s).buf.causes = s.buf.causes := by
  simp [postUe]

@[simp] theorem regionCount_buf_causes (r k n : Nat) (s : State) : (regionCount r k n s).buf.causes = s.buf.causes := (rfl)

@[simp] theorem memUe_buf_causes (w : Reader) (r unit : Nat) (s : State) : (memUe w r unit s).buf.causes = s.buf.causes := by
  simp [memUe]

@[simp] theorem memRead_buf_causes (w : Reader) (f : Found) (s : State) : (memRead w f s).buf.causes = s.buf.causes := by
  unfold memRead
  (repeat' split) <;> simp

@[simp] theorem memReads_buf_causes (w : Reader) (l : List Found) (s : State) : (memReads w l s).buf.causes = s.buf.causes := by
  simp [memReads]

@[simp] theorem cellWritten_buf_causes (cell : Nat) (s : State) : (cellWritten cell s).buf.causes = s.buf.causes := by
  simp [cellWritten]

@[simp] theorem packetReads_buf_causes (w : Reader) (named : Bool) (l : List Found) (s : State) : (packetReads w named l s).buf.causes = s.buf.causes := by
  simp [packetReads]

@[simp] theorem modQueue_buf_causes (eg : Bool) (q : Nat) (f : Queue → Queue) (s : State) : (modQueue eg q f s).buf.causes = s.buf.causes := by
  unfold modQueue
  (repeat' split) <;> simp

@[simp] theorem requestQueue_buf_causes (eg : Bool) (q : Nat) (s : State) : (requestQueue eg q s).buf.causes = s.buf.causes := by
  unfold requestQueue
  dsimp only
  (repeat' split) <;> simp

@[simp] theorem requestAll_buf_causes (s : State) : (requestAll s).buf.causes = s.buf.causes := by
  simp [requestAll]

@[simp] theorem markHead_buf_causes (eg : Bool) (q : Nat) (s : State) : (markHead eg q s).buf.causes = s.buf.causes := by
  simp [markHead]

@[simp] theorem popHead_buf_causes (eg : Bool) (q : Nat) (s : State) : (popHead eg q s).buf.causes = s.buf.causes := by
  simp [popHead]

@[simp] theorem unpick_buf_causes (q : Nat) (s : State) : (unpick q s).buf.causes = s.buf.causes := (rfl)

@[simp] theorem popWaiting_buf_causes (eg : Bool) (q : Nat) (s : State) : (popWaiting eg q s).buf.causes = s.buf.causes := by
  simp [popWaiting]
  split <;> simp

@[simp] theorem queueDrop_buf_causes (eg : Bool) (q len : Nat) (s : State) : (queueDrop eg q len s).buf.causes = s.buf.causes := by
  simp [queueDrop]

/-! ## What a queue holds, requests for prefetch and the marks of traces aside -/

/-- A cell of HBM is the same cell when its prefetch has been requested. -/
def CellSt.settled : CellSt → CellSt
  | .requested => .hbm
  | c => c

/-- A packet but for its trace, and for which of its cells in HBM have been requested. -/
def Pkt.settled (p : Pkt) : Pkt := { p with cells := p.cells.map CellSt.settled, trace := Option.none }

/-- The counters of a queue and its packets, settled. -/
def Queue.settled (x : Queue) : Map Ctr × List Pkt := (x.ctr, x.pkts.map Pkt.settled)

/-- What each queue holds, which requests for prefetch and marks of traces leave. -/
def State.settled (s : State) (eg : Bool) (q : Nat) : Option (Map Ctr × List Pkt) := (queue? s eg q).map Queue.settled

theorem CellSt.settled_eq_iff {c d : CellSt} (out : c = .staged ∨ c = .ready) : d.settled = c ↔ d = c := by
  rcases out with rfl | rfl <;> cases d <;> simp [CellSt.settled]

theorem Pkt.inState_settled {c : CellSt} (out : c = .staged ∨ c = .ready) (p : Pkt) : p.settled.inState c = p.inState c := by
  simp only [Pkt.inState, Pkt.settled, List.filter_map, List.length_map]
  exact congrArg (fun f => (p.cells.filter f).length) (funext fun d => by simp [CellSt.settled_eq_iff out])

theorem foldl_settled (f : Pkt → Nat) (same : ∀ p, f p.settled = f p) (l : List Pkt) :
    (l.map Pkt.settled).foldl (fun n p => n + f p) 0 = l.foldl (fun n p => n + f p) 0 := by
  simp only [List.foldl_map, same]

section Settled

variable {x y : Queue} (same : y.settled = x.settled)
include same

theorem Queue.ctr_of_settled : y.ctr = x.ctr := congrArg Prod.fst same

theorem Queue.pkts_of_settled : y.pkts.map Pkt.settled = x.pkts.map Pkt.settled := congrArg Prod.snd same

theorem Queue.sum_of_settled (f : Pkt → Nat) (kept : ∀ p, f p.settled = f p) :
    y.pkts.foldl (fun n p => n + f p) 0 = x.pkts.foldl (fun n p => n + f p) 0 := by
  rw [← foldl_settled f kept, ← foldl_settled f kept x.pkts, Queue.pkts_of_settled same]

theorem Queue.inState_of_settled {c : CellSt} (out : c = .staged ∨ c = .ready) : y.inState c = x.inState c :=
  Queue.sum_of_settled same _ (Pkt.inState_settled out)

theorem Queue.depth_of_settled : y.depth = x.depth :=
  congrArg₂ (· + ·) (Queue.sum_of_settled same Pkt.od fun _ => rfl)
    (Queue.sum_of_settled same (fun p => p.cells.length) fun p => by simp [Pkt.settled])

theorem Queue.bytes_of_settled : y.pkts.map (·.bytes) = x.pkts.map (·.bytes) := by
  simpa [Pkt.settled, Function.comp_def] using congrArg (List.map Pkt.bytes) (Queue.pkts_of_settled same)

theorem Queue.length_of_settled : y.pkts.length = x.pkts.length := by
  simpa using congrArg List.length (Queue.pkts_of_settled same)

end Settled

/-! ## The operations of the queues -/

@[simp] theorem queue?_modQueue_same (eg : Bool) (q : Nat) (f : Queue → Queue) (s : State) :
    queue? (modQueue eg q f s) eg q = (queue? s eg q).map f := by
  unfold modQueue
  cases found : queue? s eg q with
  | none => exact found
  | some x => cases eg <;> exact (mfind_mput ..).trans (if_pos rfl)

theorem queue?_modQueue_other {eg d : Bool} {q k : Nat} (f : Queue → Queue) (s : State) (other : ¬ (d = eg ∧ k = q)) :
    queue? (modQueue eg q f s) d k = queue? s d k := by
  unfold modQueue
  split
  · rfl
  · cases eg <;> cases d
    · exact (mfind_mput ..).trans (if_neg fun same => other ⟨rfl, same⟩)
    · rfl
    · rfl
    · exact (mfind_mput ..).trans (if_neg fun same => other ⟨rfl, same⟩)

theorem modQueue_settled {f : Queue → Queue} (kept : ∀ x, (f x).settled = x.settled) (eg : Bool) (q : Nat) (s : State) :
    (modQueue eg q f s).settled = s.settled := by
  funext d k
  by_cases here : d = eg ∧ k = q
  · obtain ⟨rfl, rfl⟩ := here
    rw [State.settled, queue?_modQueue_same, State.settled, Option.map_map, show Queue.settled ∘ f = Queue.settled from funext kept]
  · rw [State.settled, queue?_modQueue_other f s here, State.settled]

theorem modQueue_settled_same {f : Queue → Queue} {g : Map Ctr × List Pkt → Map Ctr × List Pkt} (does : ∀ x, (f x).settled = g x.settled) (eg : Bool)
    (q : Nat) (s : State) : (modQueue eg q f s).settled eg q = (s.settled eg q).map g := by
  rw [State.settled, queue?_modQueue_same, State.settled, Option.map_map, Option.map_map, show Queue.settled ∘ f = g ∘ Queue.settled from funext does]

theorem settled_congr {s t : State} (iq : t.buf.iq = s.buf.iq) (eq : t.buf.eq = s.buf.eq) : t.settled = s.settled := by
  funext d k
  rw [State.settled, queue?, iq, eq, State.settled, queue?]

theorem moveCells_settled : ∀ (n : Nat) (l : List CellSt), (moveCells .hbm .requested n l).1.map CellSt.settled = l.map CellSt.settled
  | _, [] => by simp [moveCells]
  | 0, _ :: _ => by simp [moveCells]
  | n + 1, c :: l => by
    unfold moveCells
    split
    · next hbm => simp [moveCells_settled, hbm, CellSt.settled]
    · simp [moveCells_settled]

theorem movePkts_settled : ∀ (l : List Pkt) (n : Nat), (movePkts .hbm .requested n l).map Pkt.settled = l.map Pkt.settled
  | [], _ => rfl
  | p :: l, n => by simp [movePkts, movePkts_settled, Pkt.settled, moveCells_settled]

@[simp] theorem requestQueue_settled (eg : Bool) (q : Nat) (s : State) : (requestQueue eg q s).settled = s.settled := by
  unfold requestQueue
  split
  · rfl
  · split
    · rfl
    · dsimp only
      split
      · rfl
      · exact modQueue_settled (fun x => by simp [Queue.settled, movePkts_settled]) ..

@[simp] theorem requestAll_settled (s : State) : (requestAll s).settled = s.settled := by
  have each : ∀ (eg : Bool) (l : List Nat) (s : State), (forEach l (requestQueue eg) s).settled = s.settled := by
    intro eg l
    induction l with
    | nil => exact fun _ => rfl
    | cons q l ih => exact fun s => (ih _).trans (requestQueue_settled ..)
  exact (each ..).trans (each ..)

@[simp] theorem markHead_settled (eg : Bool) (q : Nat) (s : State) : (markHead eg q s).settled = s.settled := by
  refine modQueue_settled (fun x => ?_) ..
  cases pkts : x.pkts with
  | nil => rfl
  | cons p r =>
    dsimp only
    (repeat' split) <;> simp [Queue.settled, pkts, Pkt.settled]

theorem popHead_settled (eg : Bool) (q : Nat) (s : State) : (popHead eg q s).settled eg q = (s.settled eg q).map fun x => (x.1, x.2.eraseIdx 0) := by
  refine (congrFun₂ (markHead_settled ..) eg q).trans ((congrFun₂ (requestAll_settled _) eg q).trans (modQueue_settled_same (fun x => ?_) ..))
  dsimp only
  split <;> simp [Queue.settled, Queue.freePages]

theorem unpick_settled (q : Nat) (s : State) : (unpick q s).settled = s.settled := rfl

theorem popWaiting_settled (q : Nat) (s : State) :
    (popWaiting false q s).settled false q = (s.settled false q).map fun x => (x.1, x.2.eraseIdx (sending s false q)) := by
  unfold popWaiting
  dsimp only
  split
  · next idle =>
    rw [popHead_settled, idle]
    rfl
  · next busy =>
    have one : sending s false q = 1 := by
      unfold sending b2n at *
      split at busy <;> simp_all
    refine (congrFun₂ (requestAll_settled _) false q).trans (modQueue_settled_same (fun x => ?_) ..)
    rw [one]
    rcases x with ⟨_, pkts, _⟩
    rcases pkts with _ | ⟨a, _ | ⟨b, r⟩⟩ <;> simp [Queue.settled, Queue.freePages]

theorem dropCause_settled (q len k tc : Nat) (t : Option Trace) (s : State) : (dropCause false q len k tc t s).settled false q =
    (s.settled false q).map fun x => (ctrAdd (ctrAdd x.1 2 1) 3 len, x.2) := by
  refine Eq.trans ?_ (modQueue_settled_same (f := fun x => { x with ctr := ctrAdd (ctrAdd x.ctr 2 1) 3 len }) (fun x => rfl) false q s)
  exact congrFun₂ (settled_congr (congrArg Buffer.iq (traceWrite_buf ..)) (congrArg Buffer.eq (traceWrite_buf ..))) false q

theorem passCount_settled (q len : Nat) (s : State) : (passCount false q len s).settled false q =
    (s.settled false q).map fun x => (ctrAdd (ctrAdd x.1 0 1) 1 len, x.2) := modQueue_settled_same (fun _ => rfl) ..

/-- A queue that holds this settled. -/
theorem queue_of_settled {s : State} {eg : Bool} {q : Nat} {c : Map Ctr} {l : List Pkt} (holds : s.settled eg q = some (c, l)) :
    ∃ y, queue? s eg q = some y ∧ y.ctr = c ∧ y.pkts.map Pkt.settled = l := by
  obtain ⟨y, found, same⟩ := Option.map_eq_some_iff.1 holds
  exact ⟨y, found, congrArg Prod.fst same, congrArg Prod.snd same⟩

theorem settled_of_found {s : State} {eg : Bool} {q : Nat} {x : Queue} (found : queue? s eg q = some x) : s.settled eg q = some x.settled := by
  rw [State.settled, found]
  rfl

theorem queue_of_settled_as {s : State} {eg : Bool} {q : Nat} {x : Queue} (holds : s.settled eg q = some x.settled) :
    ∃ y, queue? s eg q = some y ∧ y.settled = x.settled := Option.map_eq_some_iff.1 holds

end Sys2Proof.Machine
end

section
/-! PROOFS. The spill of staged cells and their prefetch. -/
namespace Sys2Proof.Machine

/-! ## The spill of staged cells and their prefetch -/

theorem Queue.inState_eq_sum (x : Queue) (c : CellSt) : x.inState c = (x.pkts.map fun p => p.inState c).sum := by
  rw [Queue.inState, List.sum_eq_foldl, List.foldl_map]

theorem spillCells_length (r : Nat × Nat) : ∀ (l : List CellSt) (first : Nat), (spillCells r first l).length = l.length
  | [], _ => rfl
  | _ :: l, first => congrArg (· + 1) (spillCells_length r l (first + 1))

/-- The cells of a list in this state. -/
def cellsIn (c : CellSt) (l : List CellSt) : Nat := (l.filter fun x => decide (x = c)).length

theorem cellsIn_cons (a c : CellSt) (l : List CellSt) : cellsIn a (c :: l) = (if c = a then 1 else 0) + cellsIn a l := by
  by_cases same : c = a <;> simp [cellsIn, same, Nat.add_comm]

theorem staged_spillCells_le (r : Nat × Nat) : ∀ (l : List CellSt) (first : Nat), cellsIn .staged (spillCells r first l) ≤ cellsIn .staged l
  | [], _ => le_refl _
  | c :: l, first => by
    have rest := staged_spillCells_le r l (first + 1)
    rw [spillCells, cellsIn_cons, cellsIn_cons]
    by_cases spills : c = .staged ∧ r.1 ≤ first ∧ first < r.2
    · simp only [if_pos spills, reduceCtorEq, if_false, if_pos spills.1]
      omega
    · rw [if_neg spills]
      omega

theorem staged_spillCells_lt (r : Nat × Nat) : ∀ (l : List CellSt) (first i : Nat), l[i]? = some .staged → r.1 ≤ first + i → first + i < r.2 →
    cellsIn .staged (spillCells r first l) < cellsIn .staged l
  | [], _, _, found, _, _ => by simp at found
  | c :: l, first, 0, found, low, high => by
    have staged : c = .staged := Option.some.inj found
    have rest := staged_spillCells_le r l (first + 1)
    have spills : c = .staged ∧ r.1 ≤ first ∧ first < r.2 := ⟨staged, low, high⟩
    rw [spillCells, cellsIn_cons, cellsIn_cons]
    simp only [if_pos spills, reduceCtorEq, if_false, if_pos staged]
    omega
  | c :: l, first, i + 1, found, low, high => by
    have rest := staged_spillCells_lt r l (first + 1) i found (by omega) (by omega)
    rw [spillCells, cellsIn_cons, cellsIn_cons]
    by_cases spills : c = .staged ∧ r.1 ≤ first ∧ first < r.2
    · simp only [if_pos spills, reduceCtorEq, if_false, if_pos spills.1]
      omega
    · rw [if_neg spills]
      omega

/-- The packet whose staged cells of these numbers move to HBM. -/
def Pkt.spilled (eg : Bool) (s : State) (r : Nat × Nat) (p : Pkt) : Pkt :=
  { p with
    cells := spillCells r p.firstCell p.cells
    trace := if eg && p.cells.contains .staged && !(spillCells r p.firstCell p.cells).contains .staged then traceStage s 3 p.trace else p.trace }

/-- The queue whose staged cells of these numbers move to HBM. -/
def Queue.spilled (eg : Bool) (s : State) (r : Nat × Nat) (x : Queue) : Queue := { x with pkts := x.pkts.map (Pkt.spilled eg s r) }

theorem Queue.spilled_staged {x : Queue} {r : Nat × Nat} (range : spillRange x = some r) (eg : Bool) (s : State) :
    (x.spilled eg s r).inState .staged < x.inState .staged := by
  obtain ⟨g, found, rfl⟩ := Option.map_eq_some_iff.1 range
  have some_staged := List.find?_some found
  obtain ⟨p, stored, cell⟩ := List.any_eq_true.1 some_staged
  obtain ⟨i, -, here⟩ := List.any_eq_true.1 cell
  obtain ⟨⟨staged, low⟩, high⟩ : (p.cells[i]? = some CellSt.staged ∧ g.first ≤ p.firstCell + i) ∧ p.firstCell + i < g.first + g.count := by
    simpa only [Bool.and_eq_true, decide_eq_true_eq] using here
  rw [Queue.inState_eq_sum, Queue.inState_eq_sum, Queue.spilled, List.map_map]
  exact List.sum_lt_sum _ _ (fun p _ => staged_spillCells_le ..) ⟨p, stored, staged_spillCells_lt _ _ _ i staged low high⟩

theorem Queue.spilled_depth (x : Queue) (eg : Bool) (s : State) (r : Nat × Nat) : (x.spilled eg s r).depth = x.depth := by
  simp [Queue.depth, Queue.od, Queue.hbm, Queue.spilled, List.foldl_map, Pkt.spilled, Pkt.od, spillCells_length]

theorem Queue.spilled_bytes (x : Queue) (eg : Bool) (s : State) (r : Nat × Nat) : (x.spilled eg s r).pkts.map (·.bytes) = x.pkts.map (·.bytes) := by
  simp [Queue.spilled, Pkt.spilled, Function.comp_def]

theorem cleanse_mem (r lo hi : Nat) (s : State) : ∃ m, cleanse r lo hi s = s.mapMem fun _ => m := by
  unfold cleanse
  split
  · exact ⟨_, rfl⟩
  · exact ⟨s.mem, rfl⟩

/-- A walk of steps that change the memory only changes the memory only. -/
theorem foldl_mapMem {α : Type} {f : State → α → State} (only : ∀ s a, ∃ m, f s a = s.mapMem fun _ => m) :
    ∀ (l : List α) (s : State), ∃ m, l.foldl f s = s.mapMem fun _ => m
  | [], s => ⟨s.mem, rfl⟩
  | a :: l, s => by
    obtain ⟨m, first⟩ := only s a
    obtain ⟨m', rest⟩ := foldl_mapMem only l (s.mapMem fun _ => m)
    exact ⟨m', by rw [List.foldl_cons, first, rest]; rfl⟩

theorem spillWrite_leaves {eg : Bool} {q : Nat} {x : Queue} {s : State} (found : queue? s eg q = some x) (full : spillRange x = none) :
    exec (.spillWrite eg q) s = .next s := by
  simp only [exec, execSpillWrite, found, full]

theorem spillWrite_spills {eg : Bool} {q : Nat} {x : Queue} {r : Nat × Nat} {s : State} (found : queue? s eg q = some x)
    (range : spillRange x = some r) : Runs (.spillWrite eg q) s fun t =>
      (∃ y, queue? t eg q = some y ∧ y.inState .staged < x.inState .staged ∧ y.depth = x.depth ∧ y.pkts.map (·.bytes) = x.pkts.map (·.bytes) ∧
        y.ctr = x.ctr) ∧ t.buf.causes = s.buf.causes ∧ t.gar = s.gar ∧ t.ports = s.ports := by
  obtain ⟨m, d, runs⟩ : ∃ m d, exec (.spillWrite eg q) s =
      .next (requestAll (profEvent 0x0F 0 d (modQueue eg q (Queue.spilled eg (s.mapMem fun _ => m) r) (s.mapMem fun _ => m)))) := by
    simp only [exec, execSpillWrite, found, range]
    generalize cleansed : List.foldl _ s (List.range' r.1 (r.2 - r.1)) = u
    obtain ⟨m, rfl⟩ : ∃ m, u = s.mapMem fun _ => m := by
      rw [← cleansed]
      refine foldl_mapMem (fun s n => ?_) _ s
      split
      · exact ⟨s.mem, rfl⟩
      · exact cleanse_mem ..
    exact ⟨m, _, rfl⟩
  refine ⟨_, runs, ?_, ?_, ?_, ?_⟩
  · obtain ⟨y, there, same⟩ := queue_of_settled_as (x := x.spilled eg (s.mapMem fun _ => m) r) (eg := eg) (q := q)
      (s := requestAll (profEvent 0x0F 0 d (modQueue eg q (Queue.spilled eg (s.mapMem fun _ => m) r) (s.mapMem fun _ => m)))) (by
        rw [requestAll_settled, settled_congr (congrArg Buffer.iq (profEvent_buf ..)) (congrArg Buffer.eq (profEvent_buf ..)), State.settled,
          queue?_modQueue_same, queue?_congr (t := s.mapMem fun _ => m) (s := s) rfl, found]
        rfl)
    exact ⟨y, there, (Queue.inState_of_settled same (.inl rfl)).trans_lt (Queue.spilled_staged range ..),
      (Queue.depth_of_settled same).trans (Queue.spilled_depth ..), (Queue.bytes_of_settled same).trans (Queue.spilled_bytes ..),
      (Queue.ctr_of_settled same).trans rfl⟩
  · simp only [requestAll_buf_causes, profEvent_buf, modQueue_buf_causes]
    rfl
  · simp only [requestAll_gar, profEvent_gar, modQueue_gar]
    rfl
  · simp only [requestAll_ports, profEvent_ports, modQueue_ports]
    rfl

theorem arriveCells_length : ∀ (f : List Bool) (l : List CellSt), (arriveCells f l).1.length = l.length
  | _, [] => by simp [arriveCells]
  | [], _ :: _ => rfl
  | b :: f, c :: l => by
    unfold arriveCells
    split
    · exact congrArg (· + 1) (arriveCells_length f l)
    · exact congrArg (· + 1) (arriveCells_length (b :: f) l)

theorem arriveCells_counts : ∀ (f : List Bool) (l : List CellSt),
    cellsIn .ready (arriveCells f l).1 = cellsIn .ready l + min f.length (cellsIn .requested l) ∧
      (arriveCells f l).2.1.length = f.length - cellsIn .requested l
  | f, [] => by simp [arriveCells, cellsIn]
  | [], _ :: _ => by simp [arriveCells]
  | b :: f, c :: l => by
    unfold arriveCells
    split
    · next requested =>
      obtain ⟨ready, flags⟩ := arriveCells_counts f l
      subst requested
      simp [cellsIn] at ready flags ⊢
      omega
    · next other =>
      obtain ⟨ready, flags⟩ := arriveCells_counts (b :: f) l
      cases c <;> simp [cellsIn] at ready flags other ⊢ <;> omega

theorem arrivePkts_ready : ∀ (l : List Pkt) (f : List Bool), ((arrivePkts f l).map fun p => p.inState .ready).sum =
    (l.map fun p => p.inState .ready).sum + min f.length (l.map fun p => p.inState .requested).sum
  | [], f => by simp [arrivePkts]
  | p :: l, f => by
    obtain ⟨ready, flags⟩ := arriveCells_counts f p.cells
    have rest := arrivePkts_ready l (arriveCells f p.cells).2.1
    have here : ∀ (c : CellSt) (p : Pkt), p.inState c = cellsIn c p.cells := fun _ _ => rfl
    simp only [here] at rest
    simp only [arrivePkts, List.map_cons, List.sum_cons, here, rest, flags, ready]
    omega

theorem arrivePkts_cells : ∀ (l : List Pkt) (f : List Bool), (arrivePkts f l).map (fun p => (p.bytes, p.od, p.cells.length)) =
    l.map fun p => (p.bytes, p.od, p.cells.length)
  | [], _ => rfl
  | p :: l, f => congrArg₂ List.cons (by simp [arriveCells_length, Pkt.od]) (arrivePkts_cells l _)

/-- The queue to which these prefetched cells come, each bad or not. -/
def Queue.arrived (bad : List Bool) (x : Queue) : Queue := { x with pkts := arrivePkts bad x.pkts }

theorem Queue.arrived_depth (bad : List Bool) (x : Queue) : (x.arrived bad).depth = x.depth := by
  have same := arrivePkts_cells x.pkts bad
  have od := congrArg (fun l : List (List Byte × Nat × Nat) => l.foldl (fun n p => n + p.2.1) 0) same
  have hbm := congrArg (fun l : List (List Byte × Nat × Nat) => l.foldl (fun n p => n + p.2.2) 0) same
  simp only [List.foldl_map] at od hbm
  exact congrArg₂ (· + ·) od hbm

theorem Queue.arrived_bytes (bad : List Bool) (x : Queue) : (x.arrived bad).pkts.map (·.bytes) = x.pkts.map (·.bytes) := by
  have same := congrArg (List.map Prod.fst) (arrivePkts_cells x.pkts bad)
  simp only [List.map_map, Function.comp_def] at same
  exact same

theorem countP_zipIdx {α : Type} (p : α → Bool) (l : List α) : (l.zipIdx.filter fun c => p c.1).length = (l.filter p).length := by
  rw [← List.countP_eq_length_filter, ← List.countP_eq_length_filter, ← List.zipIdx_map_fst 0 l, List.countP_map]
  simp [Function.comp_def]

theorem requestedCells_length (x : Queue) : (requestedCells x).length = x.inState .requested := by
  rw [requestedCells, List.length_flatMap, Queue.inState_eq_sum]
  exact congrArg List.sum (List.map_congr_left fun p _ => (List.length_map ..).trans (countP_zipIdx (fun c => decide (c = CellSt.requested)) p.cells))

theorem prefetchDone_arrives {eg : Bool} {q : Nat} {l : List (List Found)} {x : Queue} {s : State} (found : queue? s eg q = some x) :
    Runs (.prefetchDone eg q l) s fun t =>
      (∃ y, queue? t eg q = some y ∧ y.inState .ready = x.inState .ready + min l.length (x.inState .requested) ∧ y.depth = x.depth ∧
        y.pkts.map (·.bytes) = x.pkts.map (·.bytes) ∧ y.ctr = x.ctr) ∧ t.buf.causes = s.buf.causes ∧ t.gar = s.gar ∧ t.ports = s.ports := by
  obtain ⟨w, reads, n, bad, whole, runs⟩ : ∃ w reads n, ∃ bad : List Bool, bad.length = min l.length (x.inState .requested) ∧
      exec (.prefetchDone eg q l) s =
        .next (markHead eg q (requestAll (profEvent 0x10 0 n (modQueue eg q (Queue.arrived bad) (memReads w reads s))))) := by
    refine ⟨_, _, _, _, ?_, by simp only [exec, execPrefetchDone, found]; rfl⟩
    simp [requestedCells_length]
  refine ⟨_, runs, ?_, ?_, ?_, ?_⟩
  · obtain ⟨y, there, same⟩ := queue_of_settled_as (x := x.arrived bad) (eg := eg) (q := q)
      (s := markHead eg q (requestAll (profEvent 0x10 0 n (modQueue eg q (Queue.arrived bad) (memReads w reads s))))) (by
        rw [markHead_settled, requestAll_settled, settled_congr (congrArg Buffer.iq (profEvent_buf ..)) (congrArg Buffer.eq (profEvent_buf ..)),
          State.settled, queue?_modQueue_same, queue?, memReads_buf_iq, memReads_buf_eq, ← queue?, found]
        rfl)
    refine ⟨y, there, (Queue.inState_of_settled same (.inr rfl)).trans ?_, (Queue.depth_of_settled same).trans (Queue.arrived_depth ..),
      (Queue.bytes_of_settled same).trans (Queue.arrived_bytes ..), (Queue.ctr_of_settled same).trans rfl⟩
    rw [Queue.inState_eq_sum, Queue.inState_eq_sum, Queue.arrived, arrivePkts_ready, ← Queue.inState_eq_sum x .requested, whole]
    omega
  · simp only [markHead_buf_causes, requestAll_buf_causes, profEvent_buf, modQueue_buf_causes, memReads_buf_causes]
  · simp only [markHead_gar, requestAll_gar, profEvent_gar, modQueue_gar, memReads_gar]
  · simp only [markHead_ports, requestAll_ports, profEvent_ports, modQueue_ports, memReads_ports]

end Sys2Proof.Machine
end

section
/-! PROOFS. The link's scheduler of the ingress queues. -/
namespace Sys2Proof.Machine

/-! ## The link's scheduler -/

theorem mem_mput_or {α : Type} {m : Map α} {k : Nat} {v : α} {e : Nat × α} (stored : e ∈ mput m k v) : e ∈ m ∨ e.2 = v := by
  induction m with
  | nil => exact .inr (by rw [List.mem_singleton.1 stored])
  | cons d m ih =>
    obtain ⟨j, w⟩ := d
    unfold mput at stored
    split at stored
    · rcases List.mem_cons.1 stored with rfl | old
      · exact .inr rfl
      · exact .inl old
    · split at stored
      · rcases List.mem_cons.1 stored with rfl | old
        · exact .inr rfl
        · exact .inl (List.mem_cons_of_mem _ old)
      · rcases List.mem_cons.1 stored with rfl | old
        · exact .inl List.mem_cons_self
        · exact (ih old).imp_left (List.mem_cons_of_mem _)

theorem inTransit_congr {s t : State} (same : t.gar = s.gar) (q : Nat) : inTransit t q = inTransit s q := by rw [inTransit, same, inTransit]

theorem inTransit_unpick (k q : Nat) (s : State) : inTransit (unpick k s) q = inTransit s q := by
  have same : ∀ l : Nat × Link, (if l.2.pkt = some k then { l.2 with pkt := none } else l.2).txQueue = l.2.txQueue := fun l => by split <;> rfl
  simp [inTransit, unpick, State.mapGar, mmap, List.any_map, Function.comp_def, same]

/-- No change of a link that keeps what it sends puts a packet in transit. -/
theorem inTransit_modLink {n q : Nat} {f : Link → Link} {s : State} (keeps : ∀ l, (f l).txQueue = l.txQueue)
    (sent : inTransit (modLink n f s) q = true) : inTransit s q = true := by
  obtain ⟨e, stored, here⟩ := List.any_eq_true.1 sent
  rcases mem_mput_or stored with old | new
  · exact List.any_eq_true.2 ⟨e, old, here⟩
  · rw [new, keeps] at here
    rcases mget_mem_or s.gar.links n Link.init with old | fresh
    · exact List.any_eq_true.2 ⟨_, old, here⟩
    · rw [fresh] at here
      exact absurd here (by simp [Link.init])

theorem sending_le {s t : State} {q : Nat} (only : inTransit t q = true → inTransit s q = true) : sending t false q ≤ sending s false q := by
  cases now : inTransit t q <;> cases was : inTransit s q <;> simp_all [sending, b2n]

/-- A packet that waits at the head lies behind what is on its way. -/
theorem sending_lt_of_head {s : State} {p c : Nat} {k : Pkt} {x : Queue} (head : ingressHead s p c = some k)
    (found : queue? s false (8 * p + c) = some x) : sending s false (8 * p + c) < x.pkts.length := by
  by_contra beyond
  have none_waits : waiting s false (8 * p + c) = [] := by
    rw [waiting, found]
    exact List.drop_of_length_le (not_lt.1 beyond)
  rw [ingressHead, none_waits] at head
  exact absurd head (by simp)

theorem mem_of_drrPick {s : State} {c : Nat} {ready : List Nat} {p : Nat} {d' : Map Nat} :
    ∀ {k cur : Nat} {d : Map Nat}, drrPick s c ready k cur d = some (p, d') → p ∈ ready
  | 0, _, _, picked => by simp [drrPick] at picked
  | k + 1, cur, d, picked => by
    have turn : ∀ size : Nat, (if ready.contains cur ∧ size ≤ mget d (c * 256 + cur) 0 then
          some (cur, mput d (c * 256 + cur) (mget d (c * 256 + cur) 0 - size))
        else (nextIn ready cur).elim none fun p => drrPick s c ready k p (mput d (c * 256 + p) (mget d (c * 256 + p) 0 + 2048))) = some (p, d') →
        p ∈ ready := by
      intro size picked
      split at picked
      · next takes =>
        obtain ⟨rfl, -⟩ := Prod.mk.inj (Option.some.inj picked)
        exact List.contains_iff_mem.1 takes.1
      · cases following : nextIn ready cur with
        | none => simp [following] at picked
        | some a =>
          rw [following] at picked
          exact mem_of_drrPick picked
    refine turn ((ingressHead s cur c).elim 0 fun p => p.bytes.length) (Eq.trans ?_ picked)
    rw [drrPick]
    cases ingressHead s cur c <;> cases nextIn ready cur <;> rfl

/-- The pick is ready in its class, and no class before it is. -/
theorem ingressPick_first {s : State} {n p c : Nat} {d : Map Nat} : ∀ {l : List Nat}, ingressPick s n l = some (p, c, d) →
    p ∈ ingressReady s n c ∧ ∃ before after, l = before ++ c :: after ∧ ∀ k ∈ before, ingressReady s n k = []
  | [], picked => by simp [ingressPick] at picked
  | a :: l, picked => by
    unfold ingressPick at picked
    split at picked
    · next idle =>
      obtain ⟨ready, before, after, rfl, above⟩ := ingressPick_first picked
      exact ⟨ready, a :: before, after, rfl, List.forall_mem_cons.2 ⟨idle, above⟩⟩
    · next r rs waits =>
      dsimp only at picked
      split at picked
      · cases picked
      · next q d' chosen =>
        obtain ⟨rfl, rest⟩ := Prod.mk.inj (Option.some.inj picked)
        obtain ⟨rfl, -⟩ := Prod.mk.inj rest
        exact ⟨waits ▸ mem_of_drrPick chosen, [], l, rfl, by simp⟩

theorem ingressPick_strict {s : State} {n p c k : Nat} {d : Map Nat} (picked : ingressPick s n [7, 6, 5, 4, 3, 2, 1, 0] = some (p, c, d)) :
    p ∈ ingressReady s n c ∧ (k ≤ 7 → c < k → ingressReady s n k = []) := by
  obtain ⟨ready, before, after, split, above⟩ := ingressPick_first picked
  refine ⟨ready, fun bound higher => above k ?_⟩
  have stored : k ∈ before ++ c :: after := split ▸ (by interval_cases k <;> simp)
  have falling : (before ++ c :: after).Pairwise (· > ·) := split ▸ (by decide)
  rcases List.mem_append.1 stored with first | rest
  · exact first
  · rcases List.mem_cons.1 rest with rfl | later
    · exact absurd higher (lt_irrefl _)
    · exact absurd (List.rel_of_pairwise_cons (List.pairwise_append.1 falling).2.1 later) (by omega)

theorem ingressSchedule_waits {n : Nat} {f : List Found} {lost : Bool} {s : State} (waits : (link s n).up = false ∨ (link s n).pkt ≠ none ∨
    (link s n).ctl ≠ [] ∨ (link s n).resp ≠ [] ∨ isSecondary s = true) : exec (.ingressSchedule n f lost) s = .next s := by
  have held : mayPick s n = false := by
    unfold mayPick
    rcases waits with down | picked | control | response | secondary
    · simp [down]
    · simp [Option.isNone_iff_eq_none, picked]
    · simp [List.isEmpty_iff, control]
    · simp [List.isEmpty_iff, response]
    · simp [secondary]
  simp [exec, execIngressSchedule, held]

theorem link_of_gar {s t : State} (same : t.gar = s.gar) (n : Nat) : link t n = link s n := by rw [link, same, link]

/-- The link whose pick of this queue is forgotten. -/
def Link.unpicked (q : Nat) (l : Link) : Link := if l.pkt = some q then { l with pkt := none } else l

theorem link_unpick (q n : Nat) (s : State) : link (unpick q s) n = (link s n).unpicked q := by
  simp only [link, unpick, State.mapGar, mget, mfind_mmap]
  cases mfind s.gar.links n <;> rfl

theorem link_unpick_part {α : Type} (part : Link → α) (leaves : ∀ l, part { l with pkt := none } = part l) (q n : Nat) (s : State) :
    part (link (unpick q s) n) = part (link s n) := by
  rw [link_unpick, Link.unpicked]
  split
  · exact leaves _
  · rfl

@[simp] theorem popWaiting_gar (q : Nat) (s : State) : (popWaiting false q s).gar = (unpick q s).gar := by
  unfold popWaiting
  dsimp only
  split <;> simp

theorem popWaiting_pops {q : Nat} {s : State} {c : Map Ctr} {l : List Pkt} (holds : s.settled false q = some (c, l))
    (inside : sending s false q < l.length) :
    ∃ y, queue? (popWaiting false q s) false q = some y ∧ y.pkts.length + 1 = l.length ∧ y.ctr = c := by
  have left : (popWaiting false q s).settled false q = some (c, l.eraseIdx (sending s false q)) := by
    rw [popWaiting_settled, holds]
    rfl
  obtain ⟨y, found, ctr, pkts⟩ := queue_of_settled left
  refine ⟨y, found, ?_, ctr⟩
  rw [← List.length_map (f := Pkt.settled), pkts, List.length_eraseIdx_of_lt inside]
  omega

theorem dropCause_causes (q len k tc : Nat) (t : Option Trace) (s : State) :
    (dropCause false q len k tc t s).buf.causes = mmod s.buf.causes (q / 8 * 2) [] fun c => ctrAdd c k 1 := by
  unfold dropCause
  dsimp only
  rw [traceWrite_buf, profEvent_buf]
  exact congrArg (fun m => mmod m (q / 8 * 2) [] fun c => ctrAdd c k 1) (queueDrop_buf_causes false q len s)

theorem dropCause_count {p c : Nat} (class8 : c < 8) (len k tc : Nat) (t : Option Trace) (s : State) :
    ctrOf (mget (dropCause false (8 * p + c) len k tc t s).buf.causes (2 * p) []) k = (ctrOf (mget s.buf.causes (2 * p) []) k).add 1 := by
  rw [dropCause_causes, show (8 * p + c) / 8 * 2 = 2 * p by omega, mget_mmod_same, ctrOf_ctrAdd]

theorem Ctr.add_add (c : Ctr) (a b : Nat) : (c.add a).add b = c.add (a + b) := by
  have value : (BitVec.ofNat 48 (c.val.toNat + a)).toNat = (c.val.toNat + a) % 2 ^ 48 := BitVec.toNat_ofNat ..
  simp only [Ctr.add, value, Ctr.mk.injEq]
  constructor
  · apply BitVec.eq_of_toNat_eq
    simp only [BitVec.toNat_ofNat]
    omega
  · rw [Bool.or_assoc, ← Bool.decide_or]
    congr 2
    exact propext ⟨by omega, by omega⟩

theorem Ctr.add_zero (c : Ctr) : c.add 0 = c := by
  have below := c.val.isLt
  simp [Ctr.add, Nat.not_le.2 below]

/-- One drop of a packet of a queue of which nothing is on its way. -/
def dropOne (q : Nat) (s : State) (p : Pkt) : State := popWaiting false q (dropCause false q p.bytes.length 5 6 p.trace s)

theorem dropOne_gar (q : Nat) (s : State) (p : Pkt) : (dropOne q s p).gar = (unpick q s).gar := by
  rw [dropOne, popWaiting_gar]
  exact congrArg (fun g => (unpick q { s with gar := g }).gar) (dropCause_gar false q p.bytes.length 5 6 p.trace s)

theorem dropOne_settled {q : Nat} {s : State} {p a : Pkt} {c : Map Ctr} {l : List Pkt} (idle : inTransit s q = false)
    (holds : s.settled false q = some (c, a :: l)) :
    (dropOne q s p).settled false q = some (ctrAdd (ctrAdd c 2 1) 3 p.bytes.length, l) := by
  have still : sending (dropCause false q p.bytes.length 5 6 p.trace s) false q = 0 := by
    simp [sending, b2n, inTransit_congr (dropCause_gar ..), idle]
  rw [dropOne, popWaiting_settled, dropCause_settled, holds, still]
  rfl

theorem dropOne_inTransit (q : Nat) (s : State) (p : Pkt) : inTransit (dropOne q s p) q = inTransit s q :=
  (inTransit_congr (s := unpick q s) (dropOne_gar q s p) q).trans (inTransit_unpick q q s)

/-- As many drops as a queue has packets empty it, and each counts one. -/
theorem dropAll_settled {q : Nat} : ∀ (drops l : List Pkt) (c : Map Ctr) (s : State), inTransit s q = false → drops.length = l.length →
    s.settled false q = some (c, l) →
    ∃ c', (drops.foldl (dropOne q) s).settled false q = some (c', []) ∧ ctrOf c' 2 = (ctrOf c 2).add l.length
  | [], [], c, s, _, _, holds => ⟨c, holds, by rw [List.length_nil, Ctr.add_zero]⟩
  | [], _ :: _, _, _, _, same, _ => absurd same (Nat.succ_ne_zero _).symm
  | _ :: _, [], _, _, _, same, _ => absurd same (Nat.succ_ne_zero _)
  | p :: drops, a :: l, c, s, idle, same, holds => by
    have next := dropOne_settled (p := p) idle holds
    have idle' : inTransit (dropOne q s p) q = false := by rw [dropOne_inTransit, idle]
    obtain ⟨c', empty, count⟩ := dropAll_settled drops l _ (dropOne q s p) idle' (Nat.succ.inj same) next
    refine ⟨c', empty, ?_⟩
    rw [count, ctrOf_ctrAdd_other _ _ (by omega), ctrOf_ctrAdd, Ctr.add_add, List.length_cons, Nat.add_comm]

theorem dropAll_used (q n : Nat) : ∀ (drops : List Pkt) (s : State), (link (drops.foldl (dropOne q) s) n).used = (link s n).used
  | [], _ => rfl
  | p :: drops, s => by
    refine (dropAll_used q n drops _).trans ?_
    rw [link_of_gar (dropOne_gar q s p)]
    exact link_unpick_part Link.used (fun _ => rfl) q n s

section Pick

variable {n p c : Nat} {d : Map Nat} {k : Pkt} {s : State} (may : mayPick s n = true)
  (picked : ingressPick s n [7, 6, 5, 4, 3, 2, 1, 0] = some (p, c, d)) (head : ingressHead s p c = some k)
include may picked head

/-- The state in which the cells of the head have been read. -/
def headRead (k : Pkt) (f : List Found) (s : State) : State := packetReads .ingress (!k.odCells.isEmpty) (packetFound s k f) s

/-- The state in which the scheduler's deficits hold the pick. -/
def picks (n p c : Nat) (d : Map Nat) (s : State) : State := modLink n (fun l => { l with drr := d, drrNext := mput l.drrNext c p }) s

omit may picked head in
@[simp] theorem headRead_gar (k : Pkt) (f : List Found) (s : State) : (headRead k f s).gar = s.gar := packetReads_gar ..

omit may picked head in
theorem headRead_settled (k : Pkt) (f : List Found) (s : State) : (headRead k f s).settled = s.settled :=
  settled_congr (packetReads_buf_iq ..) (packetReads_buf_eq ..)

omit may picked head in
theorem stdMode_picks (n p c : Nat) (d : Map Nat) (s : State) (m : Nat) : stdMode (picks n p c d s) m = stdMode s m := rfl

theorem ingressSchedule_picks {f : List Found} {lost : Bool} (flits : stdMode s n = false) (clean : k.poison = false)
    (sound : anyBad s (packetFound s k f) = false) : exec (.ingressSchedule n f lost) s =
      .next (modLink n (fun l => { l with pkt := some (8 * p + c) }) (picks n p c d (headRead k f s))) := by
  have mode : stdMode (picks n p c d (headRead k f s)) n = false := by
    rw [stdMode_picks, stdMode, headRead_gar, ← stdMode, flits]
  simp only [exec, execIngressSchedule, may, picked, head, sound, clean, Bool.not_true, Bool.false_eq_true, if_false, Bool.false_and, Bool.or_self]
  exact congrArg Host.Outcome.next (if_neg (ne_true_of_eq_false mode))

theorem ingressSchedule_flits {f : List Found} {lost : Bool} (flits : stdMode s n = false) (clean : k.poison = false)
    (sound : anyBad s (packetFound s k f) = false) : Runs (.ingressSchedule n f lost) s fun t =>
      (link t n).pkt = some (8 * p + c) ∧ (link t n).used = (link s n).used ∧ (link t n).limit = (link s n).limit ∧ t.buf.iq = s.buf.iq ∧
      t.ports = s.ports ∧ t.sched = s.sched ∧ LinksBut n s t := by
  have same : link (headRead k f s) n = link s n := link_of_gar (headRead_gar k f s) n
  refine ⟨_, ingressSchedule_picks may picked head flits clean sound, ?_⟩
  simp only [picks, link_modLink_same, same, modLink_buf, modLink_ports, modLink_sched, true_and]
  refine ⟨packetReads_buf_iq .., packetReads_ports .., packetReads_sched .., ?_⟩
  have read : LinksBut n s (headRead k f s) := fun m _ _ => by rw [headRead_gar]
  exact LinksBut.trans read (LinksBut.trans (linksBut_modLink n _ _) (linksBut_modLink n _ _))

/-- The state in which the credits of the picked packet are used. -/
def credited (n c len : Nat) (s : State) : State :=
  modLink n (fun l => { l with used := mmod l.used c 0 fun u => u + BitVec.ofNat 32 (cellsOf len) }) s

omit may picked head in
theorem inTransit_of_credited {len q : Nat} {t : State} (sent : inTransit (credited n c len (picks n p c d t)) q = true) : inTransit t q = true := by
  have before : inTransit (picks n p c d t) q = true := by
    refine inTransit_modLink ?_ sent
    exact fun _ => rfl
  refine inTransit_modLink ?_ before
  exact fun _ => rfl

theorem ingressSchedule_sends {f : List Found} {lost : Bool} (std : stdMode s n = true) (clean : k.poison = false)
    (sound : anyBad s (packetFound s k f) = false) : ∃ tr, exec (.ingressSchedule n f lost) s =
      .next (traceWrite tr 0 (sendOuter n (packetRecord k) (popWaiting false (8 * p + c) (passCount false (8 * p + c) k.bytes.length
        (credited n c k.bytes.length (picks n p c d (headRead k f s))))))) := by
  have mode : stdMode (picks n p c d (headRead k f s)) n = true := by
    rw [stdMode_picks, stdMode, headRead_gar, ← stdMode, std]
  simp only [exec, execIngressSchedule, may, picked, head, sound, clean, Bool.not_true, Bool.false_eq_true, if_false, Bool.false_and, Bool.or_self]
  exact ⟨_, congrArg Host.Outcome.next (if_pos mode)⟩

theorem ingressSchedule_outer {f : List Found} {lost : Bool} {x : Queue} (std : stdMode s n = true) (found : queue? s false (8 * p + c) = some x)
    (clean : k.poison = false) (sound : anyBad s (packetFound s k f) = false) : Runs (.ingressSchedule n f lost) s fun t =>
      (link t n).lastOuter = outerFrame s (k.header ++ k.bytes) ∧
      mget (link t n).used c 0 = mget (link s n).used c 0 + BitVec.ofNat 32 (cellsOf k.bytes.length) ∧ (link t n).limit = (link s n).limit ∧
      (∃ y, queue? t false (8 * p + c) = some y ∧ y.pkts.length + 1 = x.pkts.length ∧ ctrOf y.ctr 0 = (ctrOf x.ctr 0).add 1 ∧
        ctrOf y.ctr 1 = (ctrOf x.ctr 1).add k.bytes.length) ∧ t.ports = s.ports ∧ t.sched = s.sched := by
  obtain ⟨tr, runs⟩ := ingressSchedule_sends may picked head std clean sound (f := f) (lost := lost)
  have inside := sending_lt_of_head head found
  refine ⟨_, runs, ?_⟩
  generalize counts : passCount false (8 * p + c) k.bytes.length (credited n c k.bytes.length (picks n p c d (headRead k f s))) = u
  have gar : u.gar = (credited n c k.bytes.length (picks n p c d (headRead k f s))).gar := by
    rw [← counts, passCount_gar]
  have same : link (headRead k f s) n = link s n := link_of_gar (headRead_gar k f s) n
  have part : ∀ {α : Type} (part : Link → α), (∀ l, part { l with pkt := none } = part l) → (∀ l b, part { l with lastOuter := b } = part l) →
      part (link (traceWrite tr 0 (sendOuter n (packetRecord k) (popWaiting false (8 * p + c) u))) n) =
        part (link (credited n c k.bytes.length (picks n p c d (headRead k f s))) n) := by
    intro α part picks outer
    rw [link_of_gar (traceWrite_gar ..), sendOuter, link_modLink_same, outer, link_of_gar (popWaiting_gar ..), link_unpick_part part picks,
      link_of_gar gar]
  have settled : u.settled false (8 * p + c) = some (ctrAdd (ctrAdd x.ctr 0 1) 1 k.bytes.length, x.pkts.map Pkt.settled) := by
    rw [← counts, passCount_settled, settled_congr (s := headRead k f s) (by rfl) (by rfl), headRead_settled, settled_of_found found]
    rfl
  refine ⟨?_, ?_, ?_, ?_, ?_, ?_⟩
  · have outer : ∀ r, outerFrame (popWaiting false (8 * p + c) u) r = outerFrame s r := by
      intro r
      simp only [outerFrame, popWaiting_gar, unpick, State.mapGar, gar, credited, picks, modLink, headRead_gar]
    rw [link_of_gar (traceWrite_gar ..), sendOuter, link_modLink_same]
    exact outer _
  · rw [part Link.used (fun _ => rfl) (fun _ _ => rfl), credited, link_modLink_same, picks, link_modLink_same, same]
    exact mget_mmod_same (link s n).used c 0 fun u => u + BitVec.ofNat 32 (cellsOf k.bytes.length)
  · rw [part Link.limit (fun _ => rfl) (fun _ _ => rfl), credited, link_modLink_same, picks, link_modLink_same, same]
  · have few : sending u false (8 * p + c) < (x.pkts.map Pkt.settled).length := by
      rw [List.length_map]
      refine lt_of_le_of_lt (sending_le fun sent => ?_) inside
      rw [inTransit_congr gar] at sent
      rw [← inTransit_congr (headRead_gar k f s)]
      exact inTransit_of_credited sent
    obtain ⟨y, there, short, ctr⟩ := popWaiting_pops settled few
    refine ⟨y, ?_, short.trans (List.length_map ..), ?_, ?_⟩
    · rw [queue?_congr (traceWrite_buf ..), sendOuter, queue?_congr (modLink_buf ..), there]
    · rw [ctr, ctrOf_ctrAdd_other _ _ (by omega), ctrOf_ctrAdd]
    · rw [ctr, ctrOf_ctrAdd, ctrOf_ctrAdd_other _ _ (by omega)]
  · rw [traceWrite_ports, sendOuter_ports, popWaiting_ports, ← counts, passCount_ports]
    exact packetReads_ports ..
  · rw [traceWrite_sched, sendOuter_sched, popWaiting_sched, ← counts, passCount_sched]
    exact packetReads_sched ..

theorem ingressSchedule_drops {f : List Found} {x : Queue} (class8 : c < 8) (found : queue? s false (8 * p + c) = some x)
    (bad : k.poison = true ∨ anyBad s (packetFound s k f) = true) : Runs (.ingressSchedule n f false) s fun t =>
      (link t n).used = (link s n).used ∧ (link t n).lastOuter = (link s n).lastOuter ∧
      ctrOf (mget t.buf.causes (2 * p) []) 5 = (ctrOf (mget s.buf.causes (2 * p) []) 5).add 1 ∧
      (∃ y, queue? t false (8 * p + c) = some y ∧ y.pkts.length + 1 = x.pkts.length ∧ ctrOf y.ctr 2 = (ctrOf x.ctr 2).add 1) ∧ t.ports = s.ports := by
  have runs : exec (.ingressSchedule n f false) s =
      .next (popWaiting false (8 * p + c) (dropCause false (8 * p + c) k.bytes.length 5 6 k.trace (headRead k f s))) := by
    simp only [exec, execIngressSchedule, may, picked, head, Bool.not_true, Bool.false_eq_true, if_false, Bool.and_false]
    exact congrArg Host.Outcome.next (if_pos (by simpa only [Bool.or_eq_true] using bad))
  have gar : (dropCause false (8 * p + c) k.bytes.length 5 6 k.trace (headRead k f s)).gar = s.gar := (dropCause_gar ..).trans (headRead_gar k f s)
  have part : ∀ {α : Type} (part : Link → α), (∀ l, part { l with pkt := none } = part l) →
      part (link (popWaiting false (8 * p + c) (dropCause false (8 * p + c) k.bytes.length 5 6 k.trace (headRead k f s))) n) = part (link s n) := by
    intro α part leaves
    rw [link_of_gar (popWaiting_gar ..), link_unpick_part part leaves, link_of_gar gar]
  refine ⟨_, runs, part Link.used fun _ => rfl, part Link.lastOuter fun _ => rfl, ?_, ?_, ?_⟩
  · rw [popWaiting_buf_causes, dropCause_count class8, headRead, packetReads_buf_causes]
  · have settled : (dropCause false (8 * p + c) k.bytes.length 5 6 k.trace (headRead k f s)).settled false (8 * p + c) =
        some (ctrAdd (ctrAdd x.ctr 2 1) 3 k.bytes.length, x.pkts.map Pkt.settled) := by
      rw [dropCause_settled, headRead_settled, settled_of_found found]
      rfl
    have few : sending (dropCause false (8 * p + c) k.bytes.length 5 6 k.trace (headRead k f s)) false (8 * p + c) <
        (x.pkts.map Pkt.settled).length := by
      rw [List.length_map, sending, inTransit_congr gar, ← sending]
      exact sending_lt_of_head head found
    obtain ⟨y, there, short, ctr⟩ := popWaiting_pops settled few
    refine ⟨y, there, short.trans (List.length_map ..), ?_⟩
    rw [ctr, ctrOf_ctrAdd_other _ _ (by omega), ctrOf_ctrAdd]
  · rw [popWaiting_ports, dropCause_ports, headRead, packetReads_ports]

theorem ingressSchedule_empties {f : List Found} {x : Queue} (found : queue? s false (8 * p + c) = some x) (idle : sending s false (8 * p + c) = 0)
    (bad : anyBad s (packetFound s k f) = true) : Runs (.ingressSchedule n f true) s fun t =>
      (link t n).used = (link s n).used ∧
      (∃ y, queue? t false (8 * p + c) = some y ∧ y.pkts = [] ∧ ctrOf y.ctr 2 = (ctrOf x.ctr 2).add x.pkts.length) ∧ t.ports = s.ports := by
  have still : inTransit s (8 * p + c) = false := by
    by_contra sent
    simp [sending, b2n, sent] at idle
  have runs : exec (.ingressSchedule n f true) s = .next (dropList (8 * p + c) (headRead k f s)) := by
    simp only [exec, execIngressSchedule, may, picked, head, bad, Bool.not_true, Bool.false_eq_true, if_false, Bool.and_self, if_true]
    rfl
  have all : (waiting (headRead k f s) false (8 * p + c)).length = x.pkts.length := by
    obtain ⟨y, there, same⟩ := queue_of_settled_as (x := x) (eg := false) (q := 8 * p + c) (s := headRead k f s) (by
      rw [headRead_settled, settled_of_found found])
    have idle' : sending (headRead k f s) false (8 * p + c) = 0 := by rw [sending, inTransit_congr (headRead_gar k f s), ← sending, idle]
    rw [waiting, there, idle']
    exact Queue.length_of_settled same
  refine ⟨_, runs, ?_, ?_, ?_⟩
  · exact (dropAll_used ..).trans (congrArg Link.used (link_of_gar (headRead_gar k f s) n))
  · obtain ⟨c', empty, count⟩ := dropAll_settled (q := 8 * p + c) (waiting (headRead k f s) false (8 * p + c)) (x.pkts.map Pkt.settled) x.ctr
      (headRead k f s) ((inTransit_congr (headRead_gar k f s) _).trans still) (all.trans (List.length_map ..).symm) (by
        rw [headRead_settled, settled_of_found found]
        rfl)
    obtain ⟨y, there, ctr, pkts⟩ := queue_of_settled empty
    exact ⟨y, there, List.map_eq_nil_iff.1 pkts, by rw [ctr, count, List.length_map]⟩
  · rw [dropList_ports, headRead, packetReads_ports]

end Pick

end Sys2Proof.Machine
end

section
/-! PROOFS. What the reception of a frame counts. -/
namespace Sys2Proof.Machine

/-! ## What the reception of a frame counts -/

/-- The ports and the observations alone differ, of the ports only port `p`, and no port comes or goes. -/
def Counts (p : Nat) (s t : State) : Prop :=
  (∃ P o, t = (s.mapPorts fun _ => P).mapObs fun _ => o) ∧ PortsBut p s t ∧ (port? t p).isSome = (port? s p).isSome

theorem Counts.refl (p : Nat) (s : State) : Counts p s s := ⟨⟨s.ports, s.obs, rfl⟩, fun _ _ => rfl, rfl⟩

theorem Counts.trans {p : Nat} {s t u : State} (h : Counts p s t) (g : Counts p t u) : Counts p s u := by
  obtain ⟨⟨P, o, rfl⟩, but, stays⟩ := h
  obtain ⟨⟨P', o', rfl⟩, but', stays'⟩ := g
  exact ⟨⟨P', o', rfl⟩, fun k other => (but' k other).trans (but k other), stays'.trans stays⟩

theorem counts_modPort (p : Nat) (f : Port → Port) (s : State) : Counts p s (modPort p f s) := by
  refine ⟨?_, portsBut_modPort p f s, modPort_isSome ..⟩
  unfold modPort
  split
  · exact ⟨s.ports, s.obs, rfl⟩
  · next q found => exact ⟨{ s.ports with tab := mput s.ports.tab p (f q) }, s.obs, rfl⟩

theorem counts_portCount (p k n : Nat) (s : State) : Counts p s (portCount p k n s) := counts_modPort ..

theorem counts_profEvent (p ev inst n : Nat) (s : State) : Counts p s (profEvent ev inst n s) := ⟨⟨s.ports, _, rfl⟩, fun _ _ => rfl, rfl⟩

theorem counts_bwFrame (p len : Nat) (tx : Bool) (s : State) : Counts p s (bwFrame p len tx s) := ⟨⟨s.ports, _, rfl⟩, fun _ _ => rfl, rfl⟩

section Counted

variable {p : Nat} {s t : State} (counts : Counts p s t)
include counts

theorem Counts.isSome : (port? t p).isSome = (port? s p).isSome := counts.2.2

theorem Counts.portsBut : PortsBut p s t := counts.2.1

theorem Counts.buf : t.buf = s.buf := by
  obtain ⟨⟨P, o, rfl⟩, -⟩ := counts
  rfl

theorem Counts.gar : t.gar = s.gar := by
  obtain ⟨⟨P, o, rfl⟩, -⟩ := counts
  rfl

theorem Counts.now : t.now = s.now := by
  obtain ⟨⟨P, o, rfl⟩, -⟩ := counts
  rfl

theorem Counts.tim : t.tim = s.tim := by
  obtain ⟨⟨P, o, rfl⟩, -⟩ := counts
  rfl

theorem Counts.lane (n : Nat) : lane t n = lane s n := by
  obtain ⟨⟨P, o, rfl⟩, -⟩ := counts
  rfl

theorem Counts.isSecondary : isSecondary t = isSecondary s := by
  obtain ⟨⟨P, o, rfl⟩, -⟩ := counts
  rfl

theorem Counts.ingressRuns : ingressRuns t = ingressRuns s := by
  obtain ⟨⟨P, o, rfl⟩, -⟩ := counts
  rfl

end Counted

theorem portD_of_found {p : Nat} {q : Port} {s : State} (found : port? s p = some q) : portD s p = q := by
  rw [portD, mget, ← port?, found]
  rfl

theorem portD_modPort {p : Nat} {f : Port → Port} {s : State} (there : (port? s p).isSome) : portD (modPort p f s) p = f (portD s p) := by
  obtain ⟨q, found⟩ := Option.isSome_iff_exists.1 there
  rw [portD_of_found found]
  exact portD_of_found (by rw [port?_modPort_same, found]; rfl)

/-- What no change of the port changes of it. -/
theorem portD_modPort_part {α : Type} (part : Port → α) {f : Port → Port} (keeps : ∀ q, part (f q) = part q) (p : Nat) (s : State) :
    part (portD (modPort p f s) p) = part (portD s p) := by
  cases found : port? s p with
  | none => simp only [modPort, found]
  | some q => rw [portD_modPort (by rw [found]; rfl), keeps]

/-- The value of a counter of a port. -/
def portCtr (s : State) (p j : Nat) : Ctr := ctrOf (portD s p).ctr j

theorem portCtr_portCount_same {p k n : Nat} {s : State} (there : (port? s p).isSome) : portCtr (portCount p k n s) p k = (portCtr s p k).add n := by
  rw [portCtr, portCount, portD_modPort there]
  exact ctrOf_ctrAdd ..

theorem portCtr_portCount_other {p k n j : Nat} {s : State} (other : j ≠ k) : portCtr (portCount p k n s) p j = portCtr s p j :=
  portD_modPort_part (fun q => ctrOf q.ctr j) (fun _ => ctrOf_ctrAdd_other _ n other) p s

theorem sizeCounter_bounds {n mx k : Nat} (counted : sizeCounter n mx = some k) : 5 ≤ k ∧ k ≤ 13 := by
  unfold sizeCounter at counted
  (repeat' split at counted) <;> cases counted <;> decide

theorem castOf_le (l : List Byte) : castOf l ≤ 2 := by
  unfold castOf
  (repeat' split) <;> decide

/-- The state in which the size of a frame is counted. -/
def sizeCounted (p : Nat) (l : List Byte) (s : State) : State := (sizeCounter l.length (portD s p).maxFrame).elim s fun k => portCount p k 1 s

/-- The state in which a frame is counted by its row of Table 7.5. -/
def rowed (p : Nat) (l : List Byte) (row : Nat) (s : State) : State :=
  if row = 0 then portCount p 0 1 (portCount p 1 l.length (portCount p (2 + castOf l) 1 s)) else portCount p row 1 s

theorem countReceived_eq (p : Nat) (l : List Byte) (row : Nat) (s : State) :
    countReceived p l row s = bwFrame p l.length false (profEvent 0x03 p 1 (profEvent 0x05 p l.length (rowed p l row (sizeCounted p l s)))) := by
  have size : sizeCounted p l s = match sizeCounter l.length (portD s p).maxFrame with
      | none => s
      | some k => portCount p k 1 s := by
    unfold sizeCounted
    cases sizeCounter l.length (portD s p).maxFrame <;> rfl
  rw [rowed, size]
  rfl

theorem counts_sizeCounted (p : Nat) (l : List Byte) (s : State) : Counts p s (sizeCounted p l s) := by
  unfold sizeCounted
  cases sizeCounter l.length (portD s p).maxFrame with
  | none => exact Counts.refl ..
  | some k => exact counts_portCount ..

theorem counts_rowed (p : Nat) (l : List Byte) (row : Nat) (s : State) : Counts p s (rowed p l row s) := by
  unfold rowed
  split
  · exact ((counts_portCount ..).trans (counts_portCount ..)).trans (counts_portCount ..)
  · exact counts_portCount ..

theorem counts_countReceived (p : Nat) (l : List Byte) (row : Nat) (s : State) : Counts p s (countReceived p l row s) := by
  rw [countReceived_eq]
  exact ((((counts_sizeCounted ..).trans (counts_rowed ..)).trans (counts_profEvent ..)).trans (counts_profEvent ..)).trans (counts_bwFrame ..)

theorem counts_farReturn (p : Nat) (l : List Byte) (s : State) : Counts p s (farReturn p l s) := by
  unfold farReturn
  split
  · exact ((((((counts_portCount ..).trans (counts_portCount ..)).trans (counts_portCount ..)).trans (counts_modPort ..)).trans
      (counts_profEvent ..)).trans (counts_profEvent ..)).trans (counts_bwFrame ..)
  · exact Counts.refl ..

theorem portCtr_sizeCounted_other {p j : Nat} {l : List Byte} {s : State} (other : 13 < j) : portCtr (sizeCounted p l s) p j = portCtr s p j := by
  unfold sizeCounted
  cases counted : sizeCounter l.length (portD s p).maxFrame with
  | none => rfl
  | some k => exact portCtr_portCount_other (by have := sizeCounter_bounds counted; omega)

theorem portD_congr {s t : State} (same : t.ports = s.ports) (p : Nat) : portD t p = portD s p := by rw [portD, same, portD]

@[simp] theorem bwFrame_ports (p len : Nat) (tx : Bool) (s : State) : (bwFrame p len tx s).ports = s.ports := (rfl)

theorem portD_countReceived (p : Nat) (l : List Byte) (row : Nat) (s : State) :
    portD (countReceived p l row s) p = portD (rowed p l row (sizeCounted p l s)) p :=
  portD_congr (by rw [countReceived_eq, bwFrame_ports, profEvent_ports, profEvent_ports]) p

/-- The state in which a frame sent is counted. -/
def sentCounted (p : Nat) (l : List Byte) (s : State) : State := portCount p 23 1 (portCount p 24 l.length (portCount p (25 + castOf l) 1 s))

theorem countSent_eq (p : Nat) (l : List Byte) (s : State) : countSent p l s =
    bwFrame p l.length true (profEvent 0x04 p 1 (profEvent 0x06 p l.length (modPort p (fun q => { q with lastTx := l }) (sentCounted p l s)))) := rfl

theorem portD_countSent (p : Nat) (l : List Byte) (s : State) :
    portD (countSent p l s) p = portD (modPort p (fun q => { q with lastTx := l }) (sentCounted p l s)) p :=
  portD_congr (by rw [countSent_eq, bwFrame_ports, profEvent_ports, profEvent_ports]) p

theorem portCtr_countReceived (p : Nat) (l : List Byte) (row : Nat) (s : State) (j : Nat) :
    portCtr (countReceived p l row s) p j = portCtr (rowed p l row (sizeCounted p l s)) p j := by
  rw [portCtr, portD_countReceived, portCtr]

theorem portCtr_countReceived_row {p row : Nat} {l : List Byte} {s : State} (there : (port? s p).isSome) (high : 13 < row) :
    portCtr (countReceived p l row s) p row = (portCtr s p row).add 1 := by
  rw [portCtr_countReceived, rowed, if_neg (by omega), portCtr_portCount_same (by rw [(counts_sizeCounted ..).isSome, there]), portCtr_sizeCounted_other high]

theorem portCtr_countReceived_other {p row j : Nat} {l : List Byte} {s : State} (high : 13 < j) (other : j ≠ row) :
    portCtr (countReceived p l row s) p j = portCtr s p j := by
  have cast := castOf_le l
  rw [portCtr_countReceived, rowed]
  split
  · rw [portCtr_portCount_other (by omega), portCtr_portCount_other (by omega), portCtr_portCount_other (by omega), portCtr_sizeCounted_other high]
  · rw [portCtr_portCount_other other, portCtr_sizeCounted_other high]

theorem portCtr_farReturn {p j : Nat} {l : List Byte} {s : State} (low : j < 23) : portCtr (farReturn p l s) p j = portCtr s p j := by
  unfold farReturn
  split
  · have sent : portCtr (countSent p l s) p j = portCtr (sentCounted p l s) p j := by
      rw [portCtr, portD_countSent, portCtr]
      exact portD_modPort_part (fun q => ctrOf q.ctr j) (f := fun q => { q with lastTx := l }) (fun _ => rfl) p (sentCounted p l s)
    rw [sent, sentCounted, portCtr_portCount_other (by omega), portCtr_portCount_other (by omega), portCtr_portCount_other (by omega)]
  · rfl

/-- What neither counters nor the last frame sent are of a port, its accounts leave. -/
theorem portD_accounts {α : Type} (part : Port → α) (ctr : ∀ q c, part { q with ctr := c } = part q) (sent : ∀ q b, part { q with lastTx := b } = part q)
    (p row : Nat) (l : List Byte) (s : State) : part (portD (farReturn p l (countReceived p l row s)) p) = part (portD s p) := by
  have count : ∀ k n u, part (portD (portCount p k n u) p) = part (portD u p) := fun _ _ u => portD_modPort_part part (fun _ => ctr ..) p u
  have size : part (portD (sizeCounted p l s) p) = part (portD s p) := by
    unfold sizeCounted
    cases sizeCounter l.length (portD s p).maxFrame with
    | none => rfl
    | some k => exact count ..
  have received : part (portD (countReceived p l row s) p) = part (portD s p) := by
    rw [portD_countReceived, ← size, rowed]
    split
    · rw [count, count, count]
    · rw [count]
  unfold farReturn
  split
  · rw [portD_countSent, portD_modPort_part part fun _ => sent .., sentCounted, count, count, count, received]
  · exact received

end Sys2Proof.Machine
end

section
/-! PROOFS. The reception of a frame, and the ingress rows. -/
namespace Sys2Proof.Machine

/-! ## Admission and storage of a received frame -/

theorem mixRegions_mem (l : List Nat) (s : State) : ∃ m, mixRegions l s = s.mapMem fun _ => m := foldl_mapMem (fun _ _ => ⟨_, rfl⟩) l s

theorem cellWritten_mem (c : Nat) (s : State) : ∃ m, cellWritten c s = s.mapMem fun _ => m := by
  unfold cellWritten
  split
  · exact ⟨_, rfl⟩
  · exact ⟨s.mem, rfl⟩

theorem writeCells_mem : ∀ (cells : List Nat) (l : List Byte) (s : State), ∃ m, writeCells cells l s = s.mapMem fun _ => m
  | [], _, s => ⟨s.mem, rfl⟩
  | c :: cells, l, s => by
    obtain ⟨m, written⟩ := cellWritten_mem c (modRegion 0 (fun g => { g with cells := Memory.putBytes g.cells (256 * c) ((l ++ zeros 256).take 256) }) s)
    obtain ⟨m', cleansed⟩ := cleanse_mem 0 (32 * c) (32 * c + 31) (s.mapMem fun _ => m)
    obtain ⟨m'', rest⟩ := writeCells_mem cells (l.drop 256) (s.mapMem fun _ => m')
    exact ⟨m'', by
      rw [writeCells, written]
      exact (congrArg (writeCells cells (l.drop 256)) cleansed).trans rest⟩

theorem modQueue_false_eq (q : Nat) (f : Queue → Queue) (s : State) : (modQueue false q f s).buf.eq = s.buf.eq := by
  unfold modQueue
  split <;> rfl

theorem markHead_other {q k : Nat} (s : State) (other : k ≠ q) : queue? (markHead false q s) false k = queue? s false k :=
  queue?_modQueue_other _ s fun same => other same.2

/-- A packet as it stands in the buffer on die. -/
def Pkt.onDie (res shr first now : Nat) (cells : List Nat) (p : Pkt) : Pkt :=
  { p with
    spill := false, res := res, shr := shr, odCells := cells, cells := [], firstCell := first, since := now
    trace := p.trace.map fun t => { t with spilled := false } }

/-- The queue with a packet on die at its tail. -/
def Queue.storeOnDie (res shr now : Nat) (cells : List Nat) (p : Pkt) (x : Queue) : Queue :=
  { x with pkts := x.pkts ++ [p.onDie res shr x.placed now cells] }

/-- A packet on die is stored at the tail of its queue, and the head is marked at most. -/
theorem enqueue_shape (q res shr : Nat) (room : List Nat) (p : Pkt) (s : State) :
    ∃ m cells, ∃ marks : Bool, enqueue false q false res shr room p s =
      if marks then markHead false q (modQueue false q (Queue.storeOnDie res shr s.now cells p) (s.mapMem fun _ => m))
      else modQueue false q (Queue.storeOnDie res shr s.now cells p) (s.mapMem fun _ => m) := by
  unfold enqueue
  simp only [Bool.false_eq_true, if_false, Bool.not_false, Bool.true_and]
  generalize ((room.filter (cellFree s)).eraseDups.take (cellsOf p.bytes.length)) = cells
  obtain ⟨m, mixed⟩ : ∃ m, (if decide (cells.length = cellsOf p.bytes.length) = true then s else mixRegions [0] s) = s.mapMem fun _ => m := by
    split
    · exact ⟨s.mem, rfl⟩
    · exact mixRegions_mem ..
  rw [mixed]
  obtain ⟨m', written⟩ := writeCells_mem cells p.bytes (s.mapMem fun _ => m)
  rw [written]
  split
  · split
    · exact ⟨m', cells, true, rfl⟩
    · exact ⟨m', cells, false, rfl⟩
  · exact ⟨m', cells, false, rfl⟩

theorem enqueue_settled {q res shr : Nat} {room : List Nat} {p : Pkt} {x : Queue} {s : State} (found : queue? s false q = some x) :
    ∃ cells, (enqueue false q false res shr room p s).settled false q =
      some (x.ctr, x.pkts.map Pkt.settled ++ [(p.onDie res shr x.placed s.now cells).settled]) := by
  obtain ⟨m, cells, marks, shape⟩ := enqueue_shape q res shr room p s
  have stored : (modQueue false q (Queue.storeOnDie res shr s.now cells p) (s.mapMem fun _ => m)).settled false q =
      some (x.ctr, x.pkts.map Pkt.settled ++ [(p.onDie res shr x.placed s.now cells).settled]) := by
    rw [State.settled, queue?_modQueue_same, queue?_congr (t := s.mapMem fun _ => m) (s := s) rfl, found]
    simp [Queue.settled, Queue.storeOnDie]
  refine ⟨cells, ?_⟩
  rw [shape]
  split
  · rw [markHead_settled, stored]
  · exact stored

theorem enqueue_leaves (q res shr : Nat) (room : List Nat) (p : Pkt) (s : State) :
    (∀ n, n ≠ q → queue? (enqueue false q false res shr room p s) false n = queue? s false n) ∧
      (enqueue false q false res shr room p s).buf.eq = s.buf.eq ∧ (enqueue false q false res shr room p s).gar = s.gar ∧
      (enqueue false q false res shr room p s).ports = s.ports := by
  obtain ⟨m, cells, marks, shape⟩ := enqueue_shape q res shr room p s
  have others : ∀ n, n ≠ q → queue? (modQueue false q (Queue.storeOnDie res shr s.now cells p) (s.mapMem fun _ => m)) false n = queue? s false n :=
    fun n other => queue?_modQueue_other _ _ fun same => other same.2
  rw [shape]
  split
  · refine ⟨fun n other => (markHead_other _ other).trans (others n other), ?_, ?_, ?_⟩
    · exact (modQueue_false_eq ..).trans (modQueue_false_eq ..)
    · rw [markHead_gar, modQueue_gar]
      rfl
    · rw [markHead_ports, modQueue_ports]
      rfl
  · refine ⟨others, modQueue_false_eq .., ?_, ?_⟩
    · rw [modQueue_gar]
      rfl
    · rw [modQueue_ports]
      rfl

theorem placement_onDie {s : State} {pr : Profile} {x : Queue} (onDie : pr.spill = false) (n : Nat) : placement s pr x n = .ondie := by
  simp [placement, onDie]

theorem admitCells_reserved {s : State} {pr : Profile} {x : Queue} (n k r m : Nat) (reserved : x.od + k + n ≤ pr.qmin)
    (below : x.depth + k + n ≤ pr.qmax * 16) : admitCells s pr x .ondie n k r m = .take false (r + n) m := by
  induction n generalizing k r with
  | zero => rfl
  | succ n ih =>
    rw [admitCells, if_neg (by omega), if_neg (by decide), if_pos (by omega), ih (k + 1) (r + 1) (by omega) (by omega),
      Nat.add_assoc, Nat.add_comm 1 n]

theorem wredPicks_off {s : State} {pr : Profile} {x : Queue} (off : pr.wred = 0) (colour draw : Nat) : wredPicks s pr x colour draw = false := by
  simp [wredPicks, off]

section Admit

variable {q colour draw : Nat} {room : List Nat} {hdr l : List Byte} {bad : Bool} {tr : Option Trace} {s : State} {x : Queue}
  (found : queue? s false q = some x) (off : (profile s x.prof).wred = 0) (onDie : (profile s x.prof).spill = false)
include found off onDie

theorem ingressAdmit_stores (reserved : x.od + cellsOf l.length ≤ (profile s x.prof).qmin)
    (below : x.depth + cellsOf l.length ≤ (profile s x.prof).qmax * 16) : ∃ tr', ingressAdmit q colour draw room hdr l bad tr s =
      enqueue false q false (cellsOf l.length) 0 room { Pkt.init with bytes := l, header := hdr, badFcs := bad, trace := tr' } s := by
  have admitted : (admitIngress s (profile s x.prof) x l.length).1 = .take false (cellsOf l.length) 0 := by
    rw [admitIngress, placement_onDie onDie]
    exact (admitCells_reserved _ 0 0 0 reserved below).trans (by rw [Nat.zero_add])
  simp only [ingressAdmit, found, wredArrive, off, if_true, Option.getD_some, wredPicks_off off, Bool.and_false, Bool.false_eq_true, if_false, admitted]
  exact ⟨_, rfl⟩

theorem ingressAdmit_overflows (some_cell : 0 < cellsOf l.length) (above : (profile s x.prof).qmax * 16 < x.depth + 1) :
    ingressAdmit q colour draw room hdr l bad tr s = dropCause false q l.length 0 1 tr s := by
  have refused : (admitIngress s (profile s x.prof) x l.length).1 = .drop 0 := by
    rw [admitIngress, placement_onDie onDie]
    obtain ⟨n, cells⟩ := Nat.exists_eq_add_one.2 some_cell
    dsimp only
    rw [if_neg (by decide), cells, admitCells, if_pos above]
  simp only [ingressAdmit, found, wredArrive, off, if_true, Option.getD_some, wredPicks_off off, Bool.and_false, Bool.false_eq_true, if_false, refused]

end Admit

theorem queue?_dropCause (q len k tc : Nat) (tr : Option Trace) (s : State) (a : Nat) :
    queue? (dropCause false q len k tc tr s) false a = queue? (queueDrop false q len s) false a := by
  unfold dropCause
  rw [queue?_congr (traceWrite_buf ..), queue?_congr (profEvent_buf ..)]
  rfl

theorem dropCause_eq (q len k tc : Nat) (tr : Option Trace) (s : State) : (dropCause false q len k tc tr s).buf.eq = s.buf.eq := by
  unfold dropCause
  rw [traceWrite_buf, profEvent_buf]
  exact modQueue_false_eq ..

/-! ## The row FRAME_RECEIVE -/

theorem frameReceive_ignored {p d draw td : Nat} {room : List Nat} {l : List Byte} {f : Bool} {q : Port} {s : State} (found : port? s p = some q)
    (down : q.state ≠ .up) (whole : f = false ∨ q.cut = false) : exec (.frameReceive p l f d draw td room) s = .next s := by
  simp only [exec, execFrameReceive, found]
  rw [if_pos ⟨.inl down, whole⟩]

/-- The state in which a received frame is counted. -/
def accounted (p : Nat) (l : List Byte) (row : Nat) (s : State) : State :=
  let s := farReturn p l (countReceived p l row s)
  if isSecondary s then portCount p 20 1 s else s

theorem counts_accounted (p : Nat) (l : List Byte) (row : Nat) (s : State) : Counts p s (accounted p l row s) := by
  have received : Counts p s (farReturn p l (countReceived p l row s)) := (counts_countReceived ..).trans (counts_farReturn ..)
  unfold accounted
  dsimp only
  split
  · exact received.trans (counts_portCount ..)
  · exact received

theorem portCtr_accounted_row {p row : Nat} {l : List Byte} {s : State} (there : (port? s p).isSome) (high : 13 < row) (low : row < 20) :
    portCtr (accounted p l row s) p row = (portCtr s p row).add 1 := by
  have received : portCtr (farReturn p l (countReceived p l row s)) p row = (portCtr s p row).add 1 := by
    rw [portCtr_farReturn (by omega), portCtr_countReceived_row there high]
  unfold accounted
  dsimp only
  split
  · rw [portCtr_portCount_other (by omega), received]
  · exact received

theorem portCtr_accounted_secondary {p row : Nat} {l : List Byte} {s : State} (there : (port? s p).isSome) (low : row < 20)
    (secondary : isSecondary s = true) : portCtr (accounted p l row s) p 20 = (portCtr s p 20).add 1 := by
  have counts : Counts p s (farReturn p l (countReceived p l row s)) := (counts_countReceived ..).trans (counts_farReturn ..)
  have stays : (port? (farReturn p l (countReceived p l row s)) p).isSome := by
    rw [counts.isSome, there]
  unfold accounted
  dsimp only
  rw [if_pos (counts.isSecondary.trans secondary), portCtr_portCount_same stays, portCtr_farReturn (by omega),
    portCtr_countReceived_other (by omega) (by omega)]

theorem rxRow_lt (l : List Byte) (mx : Nat) (bad : Bool) : rxRow l mx bad < 20 := by
  unfold rxRow
  (repeat' split) <;> decide

/-- What is done with a received frame once it is counted. -/
def delivered (p : Nat) (l : List Byte) (f : Bool) (d draw : Nat) (room : List Nat) (q : Port) (s u : State) (tr : Option Trace) : State :=
  if isSecondary u || !ingressRuns u ||
      (decide (rxRow l q.maxFrame (f || !fcsOk l) ≠ 0) && decide (rxRow l q.maxFrame (f || !fcsOk l) ≠ 14)) then traceWrite tr 15 u
  else ingressAdmit (8 * p + (classifyFrame s p l).1) (classifyFrame s p l).2 draw room
    (headerToFe p (classifyFrame s p l).1 (classifyFrame s p l).2 (f || !fcsOk l) u.tim.running (rxStamp u p d).ns l.length
      (flowHash s.gar.hashSeed l)) l (f || !fcsOk l) tr u

section Receive

variable {p d draw td : Nat} {room : List Nat} {l : List Byte} {f : Bool} {q : Port} {s : State} (found : port? s p = some q)
include found

theorem frameReceive_up (up : q.state = .up) (stays : q.deleting = false) : ∃ tr, exec (.frameReceive p l f d draw td room) s =
    .next (delivered p l f d draw room q s (accounted p l (rxRow l q.maxFrame (f || !fcsOk l)) s) tr) := by
  have runs : ¬ (q.state ≠ .up ∨ q.deleting = true) := by simp [up, stays]
  simp only [exec, execFrameReceive, found]
  rw [if_neg fun h => runs h.1, if_neg runs]
  exact ⟨_, rfl⟩

theorem frameReceive_cut (down : q.state ≠ .up) (cut : q.cut = true) : ∃ tr, exec (.frameReceive p l true d draw td room) s =
    .next (delivered p l true d draw room q (modPort p (fun q => { q with cut := false }) s)
      (accounted p l (rxRow l q.maxFrame true) (modPort p (fun q => { q with cut := false }) s)) tr) := by
  have ended : ¬ ((q.state ≠ .up ∨ q.deleting = true) ∧ (true = false ∨ q.cut = false)) := by simp [cut]
  have left : q.state ≠ .up ∨ q.deleting = true := .inl down
  simp only [exec, execFrameReceive, found]
  rw [if_neg ended, if_pos left]
  exact ⟨_, rfl⟩

end Receive

theorem delivered_discards {p d draw : Nat} {room : List Nat} {l : List Byte} {f : Bool} {q : Port} {s u : State} {tr : Option Trace}
    (discards : isSecondary u = true ∨ ingressRuns u = false ∨
      (rxRow l q.maxFrame (f || !fcsOk l) ≠ 0 ∧ rxRow l q.maxFrame (f || !fcsOk l) ≠ 14)) :
    delivered p l f d draw room q s u tr = traceWrite tr 15 u := by
  refine if_pos ?_
  simpa only [Bool.or_eq_true, Bool.and_eq_true, decide_eq_true_eq, Bool.not_eq_true', or_assoc] using discards

/-- What a discarded frame leaves. -/
theorem discarded_leaves {p : Nat} {s u : State} (counts : Counts p s u) (tr : Option Trace) (cause : Nat) :
    portD (traceWrite tr cause u) p = portD u p ∧ (traceWrite tr cause u).buf = s.buf ∧ (traceWrite tr cause u).gar = s.gar ∧
      PortsBut p s (traceWrite tr cause u) := by
  refine ⟨portD_congr (traceWrite_ports ..) p, (traceWrite_buf ..).trans counts.buf, (traceWrite_gar ..).trans counts.gar, fun k other => ?_⟩
  rw [traceWrite_ports]
  exact counts.portsBut k other

theorem accounted_part {α : Type} (part : Port → α) (ctr : ∀ q c, part { q with ctr := c } = part q) (sent : ∀ q b, part { q with lastTx := b } = part q)
    (p row : Nat) (l : List Byte) (s : State) : part (portD (accounted p l row s) p) = part (portD s p) := by
  unfold accounted
  dsimp only
  split
  · exact (portD_modPort_part part (fun _ => ctr ..) p _).trans (portD_accounts part ctr sent ..)
  · exact portD_accounts part ctr sent ..

section Received

variable {p d draw td : Nat} {room : List Nat} {l : List Byte} {q : Port} {s : State} (found : port? s p = some q)
include found

theorem frameReceive_cuts (down : q.state ≠ .up) (cut : q.cut = true) (stopped : ingressRuns s = false)
    (long : 64 ≤ l.length) (fits : l.length ≤ q.maxFrame) (plain : wireAt l 12 2 ≠ 0x8808) : Runs (.frameReceive p l true d draw td room) s fun t =>
      (portD t p).cut = false ∧ ctrOf (portD t p).ctr 14 = (ctrOf q.ctr 14).add 1 ∧ t.buf = s.buf ∧ PortsBut p s t := by
  obtain ⟨tr, runs⟩ := frameReceive_cut found down cut (d := d) (draw := draw) (td := td) (room := room) (l := l)
  have row : rxRow l q.maxFrame true = 14 := by
    simp [rxRow, Nat.not_lt.2 long, Nat.not_lt.2 fits, plain]
  rw [row] at runs
  have first := counts_modPort p (fun q => { q with cut := false }) s
  have counts := first.trans (counts_accounted p l 14 _)
  have there : (port? s p).isSome := by rw [found]; rfl
  have cleared : portD (modPort p (fun q => { q with cut := false }) s) p = { q with cut := false } := by
    rw [portD_modPort there, portD_of_found found]
  rw [delivered_discards (.inr (.inl (counts.ingressRuns.trans stopped)))] at runs
  obtain ⟨port, buf, -, but⟩ := discarded_leaves counts tr 15
  refine ⟨_, runs, ?_, ?_, buf, but⟩
  · rw [port, accounted_part Port.cut (fun _ _ => rfl) (fun _ _ => rfl), cleared]
  · rw [port, ← portCtr, portCtr_accounted_row (by rw [first.isSome, there]) (by omega) (by omega), portCtr, cleared]

theorem frameReceive_undersize (up : q.state = .up) (stays : q.deleting = false) (short : l.length < 64) (sound : fcsOk l = true) :
    Runs (.frameReceive p l false d draw td room) s fun t =>
      ctrOf (portD t p).ctr 15 = (ctrOf q.ctr 15).add 1 ∧ t.buf = s.buf ∧ t.gar = s.gar ∧ PortsBut p s t := by
  obtain ⟨tr, runs⟩ := frameReceive_up found up stays (f := false) (d := d) (draw := draw) (td := td) (room := room) (l := l)
  have row : rxRow l q.maxFrame (false || !fcsOk l) = 15 := by simp [rxRow, short, sound]
  rw [delivered_discards (.inr (.inr (by rw [row]; decide))), row] at runs
  obtain ⟨port, buf, gar, but⟩ := discarded_leaves (counts_accounted p l 15 s) tr 15
  refine ⟨_, runs, ?_, buf, gar, but⟩
  rw [port, ← portCtr, portCtr_accounted_row (by rw [found]; rfl) (by omega) (by omega), portCtr, portD_of_found found]

theorem frameReceive_secondary {f : Bool} (up : q.state = .up) (stays : q.deleting = false) (secondary : isSecondary s = true) :
    Runs (.frameReceive p l f d draw td room) s fun t =>
      ctrOf (portD t p).ctr 20 = (ctrOf q.ctr 20).add 1 ∧ t.buf = s.buf ∧ t.gar = s.gar ∧ PortsBut p s t := by
  obtain ⟨tr, runs⟩ := frameReceive_up found up stays (f := f) (d := d) (draw := draw) (td := td) (room := room) (l := l)
  have counts := counts_accounted p l (rxRow l q.maxFrame (f || !fcsOk l)) s
  rw [delivered_discards (.inl (counts.isSecondary.trans secondary))] at runs
  obtain ⟨port, buf, gar, but⟩ := discarded_leaves counts tr 15
  refine ⟨_, runs, ?_, buf, gar, but⟩
  rw [port, ← portCtr, portCtr_accounted_secondary (by rw [found]; rfl) (rxRow_lt ..) secondary, portCtr, portD_of_found found]

/-- A frame that is delivered goes to ingress admission with its header. -/
theorem frameReceive_admits {f : Bool} (up : q.state = .up) (stays : q.deleting = false) (primary : isSecondary s = false)
    (running : ingressRuns s = true) (whole : rxRow l q.maxFrame (f || !fcsOk l) = 0 ∨ rxRow l q.maxFrame (f || !fcsOk l) = 14) :
    ∃ u tr, Counts p s u ∧ exec (.frameReceive p l f d draw td room) s =
      .next (ingressAdmit (8 * p + (classifyFrame s p l).1) (classifyFrame s p l).2 draw room
        (headerToFe p (classifyFrame s p l).1 (classifyFrame s p l).2 (f || !fcsOk l) s.tim.running (rxStamp s p d).ns l.length
          (flowHash s.gar.hashSeed l)) l (f || !fcsOk l) tr u) := by
  obtain ⟨tr, runs⟩ := frameReceive_up found up stays (f := f) (d := d) (draw := draw) (td := td) (room := room) (l := l)
  have counts := counts_accounted p l (rxRow l q.maxFrame (f || !fcsOk l)) s
  have asym : (portD (accounted p l (rxRow l q.maxFrame (f || !fcsOk l)) s) p).rxAsym = (portD s p).rxAsym :=
    accounted_part Port.rxAsym (fun _ _ => rfl) (fun _ _ => rfl) ..
  have stamp : rxStamp (accounted p l (rxRow l q.maxFrame (f || !fcsOk l)) s) p d = rxStamp s p d := by
    rw [rxStamp, asym, counts.lane, clockUnits, counts.tim, ← clockUnits, ← rxStamp]
  have goes : ¬ (isSecondary (accounted p l (rxRow l q.maxFrame (f || !fcsOk l)) s) ||
      !ingressRuns (accounted p l (rxRow l q.maxFrame (f || !fcsOk l)) s) ||
      (decide (rxRow l q.maxFrame (f || !fcsOk l) ≠ 0) && decide (rxRow l q.maxFrame (f || !fcsOk l) ≠ 14))) = true := by
    rw [counts.isSecondary, counts.ingressRuns, primary, running]
    rcases whole with row | row <;> rw [row] <;> decide
  rw [delivered, if_neg goes, stamp, counts.tim] at runs
  exact ⟨_, tr, counts, runs⟩

theorem frameReceive_stores {f : Bool} {x : Queue} (up : q.state = .up) (stays : q.deleting = false) (primary : isSecondary s = false)
    (running : ingressRuns s = true) (whole : rxRow l q.maxFrame (f || !fcsOk l) = 0 ∨ rxRow l q.maxFrame (f || !fcsOk l) = 14)
    (queue : queue? s false (8 * p + (classifyFrame s p l).1) = some x) (off : (profile s x.prof).wred = 0) (onDie : (profile s x.prof).spill = false)
    (reserved : x.od + cellsOf l.length ≤ (profile s x.prof).qmin) (below : x.depth + cellsOf l.length ≤ (profile s x.prof).qmax * 16) :
    Runs (.frameReceive p l f d draw td room) s fun t =>
      (∃ y k, queue? t false (8 * p + (classifyFrame s p l).1) = some y ∧ y.pkts.getLast? = some k ∧ y.pkts.length = x.pkts.length + 1 ∧
        k.bytes = l ∧ k.badFcs = (f || !fcsOk l) ∧ k.since = s.now ∧ k.res = cellsOf l.length ∧ k.shr = 0 ∧ k.spill = false ∧
        k.header = headerToFe p (classifyFrame s p l).1 (classifyFrame s p l).2 (f || !fcsOk l) s.tim.running (rxStamp s p d).ns l.length
          (flowHash s.gar.hashSeed l)) ∧
      (∀ n, n ≠ 8 * p + (classifyFrame s p l).1 → queue? t false n = queue? s false n) ∧ t.buf.eq = s.buf.eq ∧ t.gar = s.gar ∧ PortsBut p s t := by
  obtain ⟨u, tr, counts, runs⟩ := frameReceive_admits found up stays primary running whole (d := d) (draw := draw) (td := td) (room := room)
  have same : profile u x.prof = profile s x.prof := by rw [profile, counts.buf, profile]
  have queue' : queue? u false (8 * p + (classifyFrame s p l).1) = some x := (queue?_congr counts.buf ..).trans queue
  obtain ⟨tr', stored⟩ := ingressAdmit_stores queue' (same ▸ off) (same ▸ onDie) (same ▸ reserved) (same ▸ below)
    (colour := (classifyFrame s p l).2) (draw := draw) (room := room) (bad := f || !fcsOk l) (tr := tr)
    (hdr := headerToFe p (classifyFrame s p l).1 (classifyFrame s p l).2 (f || !fcsOk l) s.tim.running (rxStamp s p d).ns l.length
      (flowHash s.gar.hashSeed l))
  rw [stored] at runs
  refine ⟨_, runs, ?_⟩
  generalize packet : ({ Pkt.init with bytes := l, header := _, badFcs := f || !fcsOk l, trace := tr' } : Pkt) = k
  obtain ⟨others, eq, gar, ports⟩ := enqueue_leaves (8 * p + (classifyFrame s p l).1) (cellsOf l.length) 0 room k u
  refine ⟨?_, fun n other => (others n other).trans (queue?_congr counts.buf ..), ?_, gar.trans counts.gar, fun m other => ?_⟩
  · obtain ⟨cells, settled⟩ := enqueue_settled queue' (res := cellsOf l.length) (shr := 0) (room := room) (p := k)
    obtain ⟨y, there, -, pkts⟩ := queue_of_settled settled
    have last : (y.pkts.map Pkt.settled).getLast? = some (k.onDie (cellsOf l.length) 0 x.placed u.now cells).settled := by
      rw [pkts, List.getLast?_append]
      rfl
    rw [List.getLast?_map] at last
    obtain ⟨a, tail, agrees⟩ := Option.map_eq_some_iff.1 last
    have part : ∀ {α : Type} (part : Pkt → α), (∀ p, part p.settled = part p) → part a = part (k.onDie (cellsOf l.length) 0 x.placed u.now cells) :=
      fun part keeps => (keeps a).symm.trans ((congrArg part agrees).trans (keeps _))
    subst packet
    refine ⟨y, a, there, tail, ?_, part Pkt.bytes fun _ => rfl, part Pkt.badFcs fun _ => rfl, (part Pkt.since fun _ => rfl).trans counts.now,
      part Pkt.res fun _ => rfl, part Pkt.shr fun _ => rfl, part Pkt.spill fun _ => rfl, part Pkt.header fun _ => rfl⟩
    rw [← List.length_map (f := Pkt.settled), pkts, List.length_append, List.length_map]
    rfl
  · rw [eq, counts.buf]
  · rw [ports]
    exact counts.portsBut m other

theorem frameReceive_overflows {f : Bool} {x : Queue} (up : q.state = .up) (stays : q.deleting = false) (primary : isSecondary s = false)
    (running : ingressRuns s = true) (good : rxRow l q.maxFrame (f || !fcsOk l) = 0) (class8 : (classifyFrame s p l).1 < 8)
    (queue : queue? s false (8 * p + (classifyFrame s p l).1) = some x) (off : (profile s x.prof).wred = 0) (onDie : (profile s x.prof).spill = false)
    (above : (profile s x.prof).qmax * 16 < x.depth + 1) : Runs (.frameReceive p l f d draw td room) s fun t =>
      ctrOf (mget t.buf.causes (2 * p) []) 0 = (ctrOf (mget s.buf.causes (2 * p) []) 0).add 1 ∧
      (∃ y, queue? t false (8 * p + (classifyFrame s p l).1) = some y ∧ y.pkts = x.pkts ∧ ctrOf y.ctr 2 = (ctrOf x.ctr 2).add 1 ∧
        ctrOf y.ctr 3 = (ctrOf x.ctr 3).add l.length) ∧ t.buf.eq = s.buf.eq ∧ PortsBut p s t := by
  obtain ⟨u, tr, counts, runs⟩ := frameReceive_admits found up stays primary running (.inl good) (d := d) (draw := draw) (td := td) (room := room)
  have same : profile u x.prof = profile s x.prof := by rw [profile, counts.buf, profile]
  have queue' : queue? u false (8 * p + (classifyFrame s p l).1) = some x := (queue?_congr counts.buf ..).trans queue
  have some_cell : 0 < cellsOf l.length := by
    by_contra small
    have short : l.length < 64 := by
      unfold cellsOf at small
      omega
    rw [rxRow, if_pos short] at good
    split at good <;> cases good
  rw [ingressAdmit_overflows queue' (same ▸ off) (same ▸ onDie) some_cell (same ▸ above)] at runs
  have buf : ∀ a, queue? (dropCause false (8 * p + (classifyFrame s p l).1) l.length 0 1 tr u) false a =
      queue? (queueDrop false (8 * p + (classifyFrame s p l).1) l.length u) false a := fun a => queue?_dropCause ..
  refine ⟨_, runs, ?_, ?_, ?_, fun m other => ?_⟩
  · rw [dropCause_count class8, counts.buf]
  · refine ⟨{ x with ctr := ctrAdd (ctrAdd x.ctr 2 1) 3 l.length }, ?_, rfl, ?_, ?_⟩
    · rw [buf, queueDrop, queue?_modQueue_same, queue']
      rfl
    · dsimp only
      rw [ctrOf_ctrAdd_other _ _ (by omega), ctrOf_ctrAdd]
    · dsimp only
      rw [ctrOf_ctrAdd, ctrOf_ctrAdd_other _ _ (by omega)]
  · rw [dropCause_eq, counts.buf]
  · rw [dropCause_ports]
    exact counts.portsBut m other

end Received

/-- Settles O42: frames by what their reception counts and stores, the scheduler by its pick, spills and prefetches by the cells they move. -/
theorem ingressRows : Obligations.IngressRows := by
  unfold Obligations.IngressRows
  refine ⟨?_, ?_, ?_, ?_, ?_, ?_, ?_, ?_, ?_, ?_, ?_, ?_, ?_, ?_, ?_, ?_⟩
  · exact fun p d draw td room l f q s found down whole => frameReceive_ignored found down whole
  · exact fun p d draw td room l q s found down cut _ stopped _ long fits plain => frameReceive_cuts found down cut stopped long fits plain
  · exact fun p d draw td room l q s found up stays short sound => frameReceive_undersize found up stays short sound
  · exact fun p d draw td room l f q s found up stays secondary => frameReceive_secondary found up stays secondary
  · exact fun p d draw td room l f q x s found up stays primary running whole queue off onDie reserved below =>
      frameReceive_stores found up stays primary running whole queue off onDie reserved below
  · exact fun p d draw td room l f q x s found up stays primary running good class8 queue off onDie above =>
      frameReceive_overflows found up stays primary running good class8 queue off onDie above
  · exact fun n f lost s waits => ingressSchedule_waits waits
  · exact fun n p c k d s picked => ingressPick_strict picked
  · exact fun n p c d k f lost s may flits picked head clean sound => ingressSchedule_flits may picked head flits clean sound
  · exact fun n p c d k x f lost s may std picked head found clean sound => ingressSchedule_outer may picked head std found clean sound
  · exact fun n p c d k x f s may class8 picked head found bad => ingressSchedule_drops may picked head class8 found bad
  · exact fun n p c d k x f s may picked head found idle bad => ingressSchedule_empties may picked head found idle bad
  · exact fun eg q x s found full => spillWrite_leaves found full
  · exact fun eg q x r s found range => spillWrite_spills found range
  · exact fun eg q l s missing => by simp only [exec, execPrefetchDone, missing]
  · exact fun eg q l x s found => prefetchDone_arrives found

end Sys2Proof.Machine
end
